-- ==== Sys2Proof/Word.lean ====
section
/-!
DEFINITION. The words of the NB7640 that software sees: bytes, the 16-bit words of the Nib cores, the 32-bit
dwords of BAR2 and of the commands, and byte strings (spec/00_scope.md "Numbers, bits and bytes", R4).
-/

namespace Sys2Proof

abbrev Byte := BitVec 8
abbrev Word16 := BitVec 16
abbrev Word32 := BitVec 32
abbrev Word64 := BitVec 64

/-- A byte string: a structure of host memory, a payload, a record, a frame. -/
abbrev Bytes := List Byte

end Sys2Proof
end

