-- ==== Sys2Proof/Syntax.lean ====
section
/-!
DEFINITION. The commands, events and operations of the NB7640: one constructor of `Instr` for each row of the table of
operations (spec/opcode_table.json, spec/95_what_each_step_holds.md), with the operands that the host, the network, the
pins, the media or another device supplies. `frac` operands give the fraction of the stroke at which an event falls
(R7); the model's domain time advances to it.
-/

namespace Sys2Proof

/-- What the device finds when it walks the data pointer of a command (R87). -/
structure Xfer where
  /-- PSDT of the command: 0 PRP, 1 and 2 SGL, 3 reserved. -/
  psdt : Nat
  /-- Offset of PRP1 within its page. -/
  prp1Off : Nat
  /-- Some entry of the PRP list has a non-zero offset. -/
  prpListOff : Bool
  /-- Bytes the SGL describes, its descriptors, and whether one is of a keyed, transport or reserved type. -/
  sglBytes : Nat
  sglCount : Nat
  sglBadType : Bool
  deriving DecidableEq, Repr

/-- The fields that every submission entry carries (R87, R88). -/
structure Sqe where
  /-- The function and the submission queue the entry is fetched from; queue 0 is the admin queue. -/
  fn : Nat
  sqid : Nat
  cid : Nat
  nsid : Nat
  /-- FUSE (bits 9:8 of CDW0). -/
  fuse : Nat
  /-- A bit the command's definition reserves is 1, or a defined field holds a reserved value that the operands of
  the row do not show. -/
  reservedSet : Bool
  xfer : Xfer
  /-- The entry carries an opcode that the device does not assign: it comes with the row whose opcode the host meant. -/
  badOpcode : Bool := false
  deriving DecidableEq, Repr

/-- A host write of the MSI-X control of a function: Message Control, or one table entry in BAR4 (R57, R60). -/
inductive MsixWrite where
  | control (enable functionMask : Bool)
  | entry (vector : Nat) (addr : Nat) (data : Nat) (masked : Bool)
  deriving DecidableEq, Repr

/-- A host write in the configuration space of a function: Bus Master Enable of the Command register (R60), or the Device Control
registers with Relaxed Ordering Enable, the codes of the payload and read-request sizes, and of the completion timeout (R50, R51). -/
inductive CfgWrite where
  | command (busMaster : Bool)
  | device (relaxed : Bool) (payload readReq timeout : Nat)
  deriving DecidableEq, Repr

/-- Which pin a reference edge arrives on (R34). -/
inductive EdgePin where
  | ppsIn | strokeIo
  deriving DecidableEq, Repr

/-- The mapping that an IEEE 1588 message uses (R32). -/
inductive PtpMap where
  | ethernet | udpIpv4 | udpIpv6
  deriving DecidableEq, Repr

/-- An IEEE 1588 message for an ordinary clock in the slave-only state (R32), its times in nanoseconds on the PTP timescale, corrections
added: a Sync (with its Follow_Up) and when it left the master; a Delay_Resp and when the request reached the master; a Pdelay_Resp
(with its follow-up) and how long the neighbour held the request. -/
inductive PtpMsg where
  | sync (originNs : Nat)
  | delayResp (receiptNs : Nat)
  | pdelayResp (heldNs : Nat)
  deriving DecidableEq, Repr

/-- What a state transition of a unit names (R105). -/
inductive UnitId where
  | ns (nsid : Nat)
  | func (fn : Nat)
  deriving DecidableEq, Repr

/-- What a decoder finds in one codeword (R175): its 0-to-1 and 1-to-0 bit errors, and whether it decodes where they are more than the
rated capability. -/
structure DecodeRes where
  decoded : Bool
  up : Nat
  down : Nat
  deriving DecidableEq, Repr

/-- A reference edge (R34): the pin, and whether it is a falling one. -/
structure RefEdge where
  pin : EdgePin
  falling : Bool
  deriving DecidableEq, Repr

/-- Where an IEEE 1588 message belongs (R32): its domain, and the mapping it uses. -/
structure PtpHdr where
  domain : Nat
  map : PtpMap
  deriving DecidableEq, Repr

/-- A check of a digest lane that fails (R145, R293): the lane, and whether it is an internal feed's declared length. -/
structure LaneCheck where
  lane : Nat
  feed : Bool
  deriving DecidableEq, Repr

/-- How a log page is read (R85, R438): RAE, and the SEQs of blots whose words of the always-on SRAM do not correct (R23). -/
structure LogRead where
  rae : Bool
  bad : List Nat
  deriving DecidableEq, Repr

/-- A die and an instant within the stroke. -/
structure DieAt where
  frac : Nat
  die : Nat
  deriving DecidableEq, Repr

/-- A LOOKUP node (R336, R340): its number, and the records whose winning entry fails its parity. -/
structure LookupNode where
  node : Nat
  bad : List Nat
  deriving DecidableEq, Repr

/-- A register lookup (R344): the partition, and whether the winning entry fails its parity (R340). -/
structure LookupGo where
  part : Nat
  parityBad : Bool
  deriving DecidableEq, Repr

/-- What a gathering reads of the DRAM (R348, R357): the memory's temperature, and the count of its error check and scrub. -/
structure DramReading where
  temp : Int
  scrub : Nat
  deriving DecidableEq, Repr

/-- A port's bring-up that ends (R108, R109): the receive polarity found, and the rate in Mb/s that the PHY of an SGMII port signals. -/
structure PortUp where
  rxInv : Bool
  mbps : Nat
  deriving DecidableEq, Repr

/-- A port that still has no link (R109): whether the partner reports remote fault, and the receive polarity found. -/
structure PortTry where
  remoteFault : Bool
  rxInv : Bool
  deriving DecidableEq, Repr

/-- What the check bits of a memory word show when it is read (R265): good, one bit corrected, not correctable. -/
inductive Chk where
  | good | corrected | uncorrectable
  deriving DecidableEq, Repr

/-- One operation word that a Nib core fetches (R243, R244): the core; S; the unit, where the operation has a choice (A0 or
A1 for the A operations, any of the four for NOP); the 23 bits below OP; the check bits of the fetched words, and of the
data that the operation reads. -/
structure NibOp where
  core : Nat
  stop : Bool
  unit : Nat
  body : BitVec 23
  fetch : Chk
  data : Chk
  deriving DecidableEq, Repr

/-- What an engine job meets outside the device's own state (R64, R277, R291, R295): the host's bytes; a DMA error; a faulty
compare flag pair; an internal count that differs from BYTES. -/
structure JobRes where
  hostData : Bytes
  dmaError : Bool
  flagFault : Bool
  countBad : Bool
  deriving DecidableEq, Repr

/-- What an uncorrectable DRAM read falls in (R358). -/
inductive DramTarget where
  | deviceState
  | keyIndex (stream item : Nat)
  | silt (graph : Nat)
  | nibWindow (core : Nat)
  | engine (graph node : Nat)
  deriving DecidableEq, Repr

/-- An uncorrectable DRAM read (R357, R358): what it falls in, and whether a second read is clean, so that the error was the link's. -/
structure DramHit where
  target : DramTarget
  rereadClean : Bool
  deriving DecidableEq, Repr

/-- What an uncorrectable Inkwell read falls in (R361): a staged unit and its 4 KiB parts that hold a bad byte, not yet
programmed; a staged unit already programmed; a parity accumulator; a stream-state entry or digest context of a lane; the
pounce unit's working state; bytes read for a recompute. -/
inductive WellHit where
  | corrected
  | staged (id : Nat) (parts : List Nat)
  | programmed
  | parity
  | streamState (lane : Nat)
  | pounce
  | recompute (id : Nat) (parts : List Nat)
  deriving DecidableEq, Repr


/-- One sample of an event input (R433): the unexcited reading in mV, and F and B in ohms. -/
structure EvtSample where
  mv : Int
  fwd : Nat
  rev : Nat
  deriving DecidableEq, Repr

/-- What a copy of a parameter page declares: data and spare bytes of a page (R160), the fastest rate as MAX_RATE codes it (R158), and the
maximum times in nanoseconds, in the order of the table of R167: tR, tR_SOFT, tPROG, tBERS, tESPD, tPSPD, tADL, tWHR, tCCS, tRHW,
tFEAT. -/
structure DieParam where
  data : Nat
  spare : Nat
  rate : Nat
  times : List Nat
  deriving DecidableEq, Repr

/-- A LUN that answers Read ID: its unique ID and the copies of its parameter page, each with the result of its CRC (R162). -/
structure LunUp where
  uid : Nat
  copies : List (Bool × DieParam)
  deriving DecidableEq, Repr

/-- What bring-up observes on a channel (R162, R163): the DQ or DQS lines that follow neither pull, the DQ lines that follow another, the DQ
bits that always read the pull level in the patterns, whether RE, WE, ALE and CLE pass the line test, the LUNs that answer (by
ce × 4 + lun), and the rates at which training passes. -/
structure ChanUp where
  channel : Nat
  stuck : List Nat
  joined : List Nat
  silent : List Nat
  control : Bool
  luns : List (Nat × LunUp)
  trains : List Nat
  deriving DecidableEq, Repr

/-- What BOOT finds of the DRAM (R345, R347): whether the channels are populated alike, the total in GiB, two ranks, the
vendor, and the points that failed training, each with its channel. -/
structure DramUp where
  alike : Bool
  gib : Nat
  ranks2 : Bool
  vendor : Nat
  failed : List (Nat × Nat)
  deriving DecidableEq, Repr

/-- What the mount finds on the media (R226, R229): native media, or NB5210 media of a capacity in GiB with its
namespaces: NSID, block size, blocks. -/
inductive MountMedia where
  | native
  | nb5210 (gib : Nat) (nss : List (Nat × Nat × Nat))
  deriving DecidableEq, Repr

/-- A unit of NB5210 data found by the full scan (R229): NSID, map unit, die, codeword position, data. -/
structure OldUnit where
  nsid : Nat
  unit : Nat
  die : Nat
  cw : Nat
  data : Bytes
  deriving DecidableEq, Repr

/-- Header of a received Oxvia frame (R390): the link it arrives on, FLAGS, DST, SRC, HOPS, SEQ and ACK. -/
structure OxvHdr where
  link : Nat
  flags : Nat
  dst : Nat
  src : Nat
  hops : Nat
  seq : Nat
  ack : Nat
  deriving DecidableEq, Repr

/-- What a CONTROL frame says (R400, R404): a phase of DOMAIN CONFIGURE, or one end of a mirror pair: its NSID, the partner's
NSID, whether the sender is the source, and whether a target is empty and without flows. -/
inductive ControlMsg where
  | prepare (cfg : Bytes)
  | ready (sn : Bytes) | busy (sn : Bytes) | refused (sn : Bytes)
  | commit (tag stroke : Nat)
  | ack (sn : Bytes)
  | abort
  | mirrorEnd (nsid partnerNsid : Nat) (source : Bool) (fit : Bool)
  deriving DecidableEq, Repr

/-- What a PROXY frame carries (R398, R399): a command for a follower, a completion, data, or a register access. -/
inductive ProxyMsg where
  | command (sqid cid : Nat)
  | completion (sqid cid status dw0 dw1 : Nat)
  | interrupted (sqid cid : Nat)
  | data (cid : Nat) (bytes : Bytes)
  | regAccess (off : Nat) (write : Bool) (value : Nat)
  | regDone (value : Nat)
  deriving DecidableEq, Repr

/-- Why a frame is dropped (R392): its length or type, its FCRC, a length inside its payload, or its hops. -/
inductive FrameFault where
  | length | fcrc | inner | hops
  deriving DecidableEq, Repr

/-- An admin command tunnelled through NVMe-MI (R104), with the bytes of data it would move. -/
inductive TunnelCmd where
  | identify (nsid cns cntid : Nat)
  | getFeatures (fid sel dw11 : Nat)
  | setFeatures (fid : Nat) (save : Bool) (dw11 : Nat) (data : Bytes)
  /-- `bad` as in `LogRead`. -/
  | getLogPage (nsid lid lsp numd off : Nat) (rae : Bool) (bad : List Nat)
  | namespaceCreate (data : Bytes)
  | namespaceDelete (nsid : Nat)
  | namespaceAttach (nsid : Nat) (ctrls : List Nat)
  | namespaceDetach (nsid : Nat) (ctrls : List Nat)
  | vmAssign (cntlid : Nat) (primary : Bool) (rt nr : Nat)
  | vmOnline (cntlid : Nat)
  | vmOffline (cntlid : Nat)
  | formatNvm (nsid lbaf ses : Nat)
  | sanitize (action : Nat)
  | selfTest (stc : Nat)
  | modeRequest (target : Nat) (note : Option Bytes)
  /-- `sectorLost` as in FIRMWARE_DOWNLOAD. -/
  | firmwareDownload (ofst numd : Nat) (data : Bytes) (sectorLost : Bool)
  | firmwareCommit (fs ca : Nat)
  | keyBlobLoad (nsid numd slot wrap : Nat) (blob : Bytes)
  | domainConfigure (numd : Nat) (data : Bytes)
  | domainRealign
  deriving DecidableEq, Repr

/-- The commands and events of the NB7640, one constructor for each row of the table of operations (spec/95). -/
inductive Instr where
  /-- STROKE_BOUNDARY (R43): The stroke generator reaches a boundary: every unit latches the new stroke number, closes the ending stroke's digests, refills its budgets and allots the shared engines. `katFail` are the digest lanes that fail the known-answer test. -/
  | strokeBoundary (katFail : List Nat)
  /-- SUMMARY_POST (R127): At 2 µs after a boundary a summary entry is posted to each function with a ring that is due one. `cons` are the consumer indexes that the ring owners' memory holds, by function. -/
  | summaryPost (cons : List (Nat × Nat))
  /-- VECTOR_SIGNAL (R59): A coalesced or aligned vector signals when its threshold is reached or 2 µs after the boundary. -/
  | vectorSignal (fn vec : Nat)
  /-- POUNCE_COMMIT (R143): The pounce unit finishes the leaves, T(n) and C(n), compares the halves and commits the stroke-root record. `flag` is (EQ, EQ_N) of the first compare and `flag2` that after a recompute; `attempts` votes find no majority, and `loserB` names the half that the vote finds wrong (R144). -/
  | pounceCommit (frac : Nat) (flag flag2 attempts : Nat) (loserB : Bool)
  /-- FLOURISH_SIGNED (R141): The flourish signature completes and the FLOURISH record enters stream 0 and its FD is sent on both Oxvia ports. -/
  | flourishSigned (frac : Nat)
  /-- LANE_PARITY_FAIL (R145): A digest lane's state parity fails during a stroke; its work moves to the spare lane and is re-hashed. -/
  | laneParityFail (frac : Nat) (check : LaneCheck)
  /-- REFERENCE_EDGE (R34): A PPS_IN or STROKE_IO reference edge arrives and is taken as a measurement, found reference or ignored outside the window. `offsetNs` is how far after the local boundary it comes. -/
  | referenceEdge (frac : Nat) (edge : RefEdge) (offsetNs : Int)
  /-- REFERENCE_LOST (R34): Three consecutive ignored or absent edges mean the reference is lost and the generator enters HOLDOVER or returns to FREE. `absent` is the number of edges in a row that did not come. -/
  | referenceLost (frac : Nat) (absent : Nat)
  /-- ACQUIRE_LOCKED (R34): The offset stays below 1 µs for 16 strokes and the generator enters LOCKED. -/
  | acquireLocked (frac : Nat)
  /-- HOLDOVER_LIMIT (R34): LIMIT_S seconds pass in HOLDOVER and the generator enters FREE. -/
  | holdoverLimit (frac : Nat)
  /-- PTP_MESSAGE (R32): An IEEE 1588 event message on the PTP port is timestamped and passed to the stroke generator. -/
  | ptpMessage (frac : Nat) (port : Nat) (hdr : PtpHdr) (msg : PtpMsg)
  /-- MARKS_MISSING (R39): No valid stroke mark arrives for two boundaries and the device counts on its own generator in HOLDOVER. -/
  | marksMissing (frac : Nat)
  /-- APPEND_HOLD_EXPIRY (R45): A SEALED APPEND held in overrun for HOLD_STROKES boundaries completes with STROKE_OVERRUN. -/
  | appendHoldExpiry (fn sqid cid : Nat)
  /-- LINK_TRAINED (R48): The PCIe link finishes training at the highest allowed rate and width, possibly degraded. -/
  | linkTrained (frac speed width : Nat) (reversed : Bool) (polarity : Nat) (fault : Bool)
  /-- LINK_DOWN (R64): The PCIe link goes down; fetch stops, reads are abandoned, incomplete writes are discarded and retraining begins. -/
  | linkDown (frac : Nat)
  /-- HOT_RESET (R64): An in-band hot reset is received and every function returns to its reset values. -/
  | hotReset (frac : Nat)
  /-- PERST_ASSERT (R64): PERST_N is asserted and the PCIe side is held in reset as for a hot reset. -/
  | perstAssert (frac : Nat)
  /-- PERST_DEASSERT (R65): PERST_N rises and the device reaches L0 within 100 ms. -/
  | perstDeassert (frac : Nat)
  /-- RETRAIN (R67): A write of 1 to FN_LINK_CTL.RETRAIN starts a retrain under the current limits. -/
  | retrain
  /-- LINK_ATTN_TIMEOUT (R62): The link has been down for more than 10 ms in RUN, LEAN or PARK and FN_ATTN.LINK is set. -/
  | linkAttnTimeout
  /-- NO_IRQ_TIMEOUT (R62): An event or completion has waited more than 10 ms for a prevented signal and FN_ATTN.NO_IRQ is set. -/
  | noIrqTimeout
  /-- ATTENTION_BURST (R62): In the device's slot stroke an attention code is sent as a burst of 20 µs low pulses on RDYBSY_N. -/
  | attentionBurst
  /-- MSIX_UNMASK (R60): A masked vector or function mask is cleared and a pending vector signals within 1 µs. -/
  | msixUnmask (fn : Nat) (w : MsixWrite)
  /-- D_STATE_CHANGE (R66): A function's D-state changes, stopping or resuming its fetch, data and interrupts. -/
  | dStateChange (fn : Nat) (d3 : Bool)
  /-- NUMVFS_WRITE (R55): NumVFs is written; VFs above the new value are taken offline and return their resources. -/
  | numvfsWrite (n : Nat)
  /-- DMA_READ_FAULT (R64): A device DMA read of write data receives a poisoned TLP, UR or CA and the command completes with Data Transfer Error. -/
  | dmaReadFault (fn sqid cid : Nat)
  /-- COMPLETION_TIMEOUT (R64): A device DMA read times out and the command completes with Data Transfer Error. -/
  | completionTimeout (fn sqid cid : Nat)
  /-- DMA_WRITE_REJECTED (R64): The host rejects a device DMA write and the command completes with Data Transfer Error. -/
  | dmaWriteRejected (fn sqid cid : Nat)
  /-- WRITE_DATA_ARRIVED (R78): The last byte of a write-type command reaches the Inkwell; the command is applied and its completion posted. -/
  | writeDataArrived (fn sqid cid : Nat) (data : Bytes)
  /-- SQ_TAIL_DOORBELL (R75): A submission queue tail doorbell is written and the device fetches entries under arbitration and budgets. -/
  | sqTailDoorbell (frac fn sqid tail : Nat)
  /-- CQ_HEAD_DOORBELL (R75): A completion queue head doorbell advances the head and waiting completions are posted. -/
  | cqHeadDoorbell (fn cqid head : Nat)
  /-- CC_EN_SET (R65): CC.EN is written to 1 and the controller becomes ready, or becomes ready when BOOT ends. -/
  | ccEnSet (fn ams mps asqBase asqSize acqBase acqSize : Nat)
  /-- CC_EN_CLEAR (R80): CC.EN goes from 1 to 0; unfetched entries are discarded, incomplete data dropped and the controller reset. -/
  | ccEnClear (frac fn : Nat)
  /-- FLR_INITIATE (R101): Host software initiates an FLR; fetch stops, reads are abandoned and the function's grants go to spill. -/
  | flrInitiate (frac fn : Nat)
  /-- FLR_COMMIT (R101): At the first boundary at least 50 µs after the FLR the reset commits and FLR_ACTIVE clears. -/
  | flrCommit
  /-- IDENTIFY (R70): Identify returns controller, namespace or controller-list structures. -/
  | identify (q : Sqe) (cns cntid : Nat)
  /-- GET_FEATURES (R72): Get Features returns the value of a supported feature. -/
  | getFeatures (q : Sqe) (fid sel dw11 : Nat)
  /-- SET_FEATURES (R72): Set Features sets a supported feature, including power state, coalescing and vendor features. -/
  | setFeatures (q : Sqe) (fid : Nat) (save : Bool) (dw11 : Nat) (data : Bytes)
  /-- GET_LOG_PAGE (R87): Get Log Page returns a log page and re-arms a vendor event when RAE is 0. -/
  | getLogPage (q : Sqe) (lid lsp numd off : Nat) (how : LogRead)
  /-- CREATE_IO_SQ (R74): Create I/O Submission Queue creates a queue within the limits. -/
  | createIoSq (q : Sqe) (sqid size base cqid prio : Nat) (pc : Bool)
  /-- CREATE_IO_CQ (R57): Create I/O Completion Queue creates a queue on an assigned vector. -/
  | createIoCq (q : Sqe) (cqid size base vector : Nat) (ien pc : Bool)
  /-- DELETE_IO_SQ (R80): Delete I/O Submission Queue discards and aborts its commands. -/
  | deleteIoSq (q : Sqe) (sqid : Nat)
  /-- DELETE_IO_CQ (R74): Delete I/O Completion Queue removes a completion queue. -/
  | deleteIoCq (q : Sqe) (cqid : Nat)
  /-- ABORT (R81): Abort aborts a fetched command that has not begun to move data. -/
  | abortCmd (q : Sqe) (sqid cid : Nat)
  /-- ASYNC_EVENT_REQUEST (R85): An Asynchronous Event Request is held until an event is raised. -/
  | asyncEventRequest (q : Sqe)
  /-- NAMESPACE_CREATE (R146): Namespace Management creates a plain or sealed namespace, committed at a boundary. -/
  | namespaceCreate (q : Sqe) (data : Bytes)
  /-- NAMESPACE_DELETE (R147): Namespace Management deletes a namespace unless a hold or bound flow prevents it. -/
  | namespaceDelete (q : Sqe)
  /-- NAMESPACE_ATTACH (R106): Namespace Attachment attaches a namespace to a controller. -/
  | namespaceAttach (q : Sqe) (ctrls : List Nat)
  /-- NAMESPACE_DETACH (R106): Namespace Attachment detaches a namespace unless a hold or bound flow prevents it. -/
  | namespaceDetach (q : Sqe) (ctrls : List Nat)
  /-- UNIT_TRANSITION_COMMIT (R105): An accepted unit state transition commits at the first boundary at least 20 µs later and its completion is posted. -/
  | unitTransitionCommit
  /-- VM_ASSIGN_RESOURCES (R55): Virtualization Management assigns flexible queue or interrupt resources to a controller. -/
  | vmAssignResources (q : Sqe) (cntlid : Nat) (primary : Bool) (rt nr : Nat)
  /-- VM_ONLINE (R55): Virtualization Management brings a secondary controller online. -/
  | vmOnline (q : Sqe) (cntlid : Nat)
  /-- VM_OFFLINE (R55): Virtualization Management takes a secondary controller offline, retiring its work as for an FLR. -/
  | vmOffline (q : Sqe) (cntlid : Nat)
  /-- FORMAT_NVM (R89): Format NVM formats a plain namespace. -/
  | formatNvm (q : Sqe) (lbaf ses : Nat)
  /-- FORMAT_DONE (R106): A format finishes and the namespace leaves Format In Progress. -/
  | formatDone (nsid : Nat)
  /-- SANITIZE_CRYPTO_ERASE (R305): Sanitize by crypto erase destroys the wrapped media keys and generates new ones. -/
  | sanitizeCryptoErase (q : Sqe)
  /-- SANITIZE_BLOCK_ERASE (R70): Sanitize by block erase erases the media of the namespaces. -/
  | sanitizeBlockErase (q : Sqe)
  /-- SANITIZE_DONE (R413): A sanitize finishes and the device returns to the base mode. -/
  | sanitizeDone
  /-- DEVICE_SELF_TEST (R70): Device Self-test runs a self-test. -/
  | deviceSelfTest (q : Sqe) (stc : Nat)
  /-- DIRECTIVE_SEND (R194): Directive Send allocates or releases directive streams. -/
  | directiveSend (q : Sqe) (dtype doper dspec value : Nat)
  /-- DIRECTIVE_RECEIVE (R194): Directive Receive returns the Streams directive parameters. -/
  | directiveReceive (q : Sqe) (dtype doper numd value : Nat)
  /-- NVME_MI_SEND (R70): NVMe-MI Send carries a management command in-band. -/
  | nvmeMiSend (q : Sqe) (opcode dw0 dw1 : Nat) (data : Bytes)
  /-- NVME_MI_RECEIVE (R70): NVMe-MI Receive returns a management response in-band. -/
  | nvmeMiReceive (q : Sqe) (opcode dw0 dw1 : Nat)
  /-- FIRMWARE_DOWNLOAD (R377): Firmware Download stages a package part, checking the header when its first 1,024 bytes are in. `sectorLost` says that a sector of the staging area has failed with no spare. -/
  | firmwareDownload (q : Sqe) (ofst numd : Nat) (data : Bytes) (sectorLost : Bool)
  /-- FIRMWARE_COMMIT (R378): Firmware Commit keeps a staged package or starts ACTIVATE at the next boundary. -/
  | firmwareCommit (q : Sqe) (fs ca : Nat)
  /-- ACTIVATE_BEGIN (R379): ACTIVATE begins at a boundary: fetch stops, RDYBSY_N goes low and CSTS.PP is set. -/
  | activateBegin
  /-- ACTIVATE_END (R379): Components are loaded and self-checked; fetch resumes and the commit completes, or bank 0 is reloaded on failure. -/
  | activateEnd (frac : Nat) (ok : Bool) (us : Nat)
  /-- READ (R17): Read resolves its map at admission and returns data from the Inkwell or NAND. -/
  | readCmd (q : Sqe) (slba nlb : Nat)
  /-- WRITE (R78): Write stages data in the Inkwell and is applied when its last byte arrives. -/
  | writeCmd (q : Sqe) (slba nlb dtype dspec : Nat)
  /-- COMPARE (R89): Compare reads the range and compares it with host data. -/
  | compareCmd (q : Sqe) (slba nlb : Nat) (host : Bytes)
  /-- VERIFY (R87): Verify reads the range from media without transferring data. -/
  | verifyCmd (q : Sqe) (slba nlb : Nat)
  /-- WRITE_ZEROES (R202): Write Zeroes sets wholly covered map units to zeroed at the instant of admission. -/
  | writeZeroes (q : Sqe) (slba nlb : Nat) (deac : Bool)
  /-- DATASET_MANAGEMENT (R201): Dataset Management with deallocate queues wholly covered map units for clearing. -/
  | datasetManagement (q : Sqe) (ad : Bool) (ranges : List (Nat × Nat))
  /-- DEALLOCATE_PASS (R201): A background pass clears queued map entries whose SEQ is older than the deallocation. -/
  | deallocatePass
  /-- FLUSH (R80): Flush completes when the write-type commands fetched before it in its group have completed. -/
  | flushCmd (q : Sqe)
  /-- SEALED_APPEND (R148): SEALED APPEND appends data at the write pointer of a sealed namespace into the stream digest. -/
  | sealedAppend (q : Sqe) (nlb lastBytes expected : Nat)
  /-- VERIFY_RANGE (R154): VERIFY RANGE recomputes digests and leaves over whole strokes and optionally checks the chain. -/
  | verifyRange (q : Sqe) (slba nlb : Nat) (chain : Bool)
  /-- PROOF_READ (R153): PROOF READ returns a leaf proof, stroke root, flourish or chain segment. -/
  | proofRead (q : Sqe) (stroke kind numd : Nat)
  /-- HOLD_PLACE (R149): HOLD ACTION 0 places a hold on a range of strokes, committed at a boundary. -/
  | holdPlace (q : Sqe) (first last tag : Nat)
  /-- HOLD_QUERY (R149): HOLD ACTION 1 returns the lowest active hold overlapping the range. -/
  | holdQuery (q : Sqe) (first last : Nat)
  /-- EXPORT (R155): EXPORT writes a bundle of sections for a stroke range, resuming from a cookie if given. -/
  | exportBundle (q : Sqe) (first last comp level : Nat) (proofs sign : Bool) (numd resume : Nat)
  /-- EXPORT_COOKIE_LAPSE (R155): A resume cookie unused for 1,024 strokes lapses. -/
  | exportCookieLapse
  /-- RELEASE (R151): RELEASE verifies a release token and lifts a hold and frees strokes at one boundary. -/
  | releaseCmd (q : Sqe) (numd : Nat) (token : Bytes)
  /-- RELEASE_DRYRUN (R151): RELEASE with DRYRUN verifies the token only and releases nothing. -/
  | releaseDryrun (q : Sqe) (numd : Nat) (token : Bytes)
  /-- GRAPH_LOAD (R272): GRAPH LOAD receives an image part and parses the image when it completes. -/
  | graphLoad (q : Sqe) (numd off total : Nat) (data : Bytes)
  /-- GRAPH_RELEASE (R273): GRAPH LOAD with CDW13 of 0 releases a loaded graph. -/
  | graphRelease (q : Sqe) (numd off handle high : Nat)
  /-- GRAPH_START (R275): GRAPH START begins a run at a boundary and makes source nodes READY. -/
  | graphStart (q : Sqe) (handle tag limit : Nat)
  /-- GRAPH_RESULT (R285): GRAPH RESULT writes the run record, waiting for the run's end if WAIT is 1. -/
  | graphResult (q : Sqe) (handle run numd : Nat) (wait : Bool)
  /-- FLOW_BIND (R113): STREAM BIND ACTION 0 with a flow descriptor binds an ingest flow, committed at a boundary. -/
  | flowBind (q : Sqe) (numd : Nat) (desc : Bytes)
  /-- FLOW_UNBIND (R113): STREAM BIND ACTION 1 unbinds a flow, committed at a boundary. -/
  | flowUnbind (q : Sqe) (numd flow : Nat) (desc : Bytes)
  /-- FLOW_MODIFY (R113): STREAM BIND ACTION 2 modifies a flow's rate, budget, clock, reorder, priority or PARK. -/
  | flowModify (q : Sqe) (numd flow : Nat) (desc : Bytes)
  /-- RING_BIND (R126): STREAM BIND with a ring descriptor creates or replaces the function's summary ring. -/
  | ringBind (q : Sqe) (numd action flow : Nat) (desc : Bytes)
  /-- RING_REMOVE (R126): STREAM BIND with a 4-byte ring descriptor removes the summary ring. -/
  | ringRemove (q : Sqe) (numd flow : Nat) (desc : Bytes)
  /-- BIND_COMMIT (R114): An accepted bind, unbind or modify commits at a boundary and writes a BIND record. -/
  | bindCommit
  /-- KEY_BLOB_LOAD (R308): KEY BLOB LOAD unwraps a key into a slot or the media key table. -/
  | keyBlobLoad (q : Sqe) (numd slot wrap : Nat) (blob : Bytes)
  /-- DOMAIN_CONFIGURE (R404): DOMAIN CONFIGURE ACTION 0 checks the structure and floods a PREPARE to every member. -/
  | domainConfigure (q : Sqe) (numd : Nat) (data : Bytes)
  /-- DOMAIN_REALIGN (R37): DOMAIN CONFIGURE ACTION 1 advances the count to an ahead reference at the next boundary. -/
  | domainRealign (q : Sqe)
  /-- DOMAIN_COMMIT (R404): At the committed boundary each member takes its ID, topology, root, source and flourish interval. -/
  | domainCommit
  /-- DOMAIN_PREPARE_TIMEOUT (R404): A member not ready within 64 strokes aborts the configuration with DOMAIN_UNREACHABLE. -/
  | domainPrepareTimeout
  /-- MODE_REQUEST (R411): MODE REQUEST sets power states or requests an orderly stop into HALT or SAFE. -/
  | modeRequest (q : Sqe) (target : Nat) (note : Option Bytes)
  /-- MODE_TRANSITION_BEGIN (R408): A wanted mode transition begins at a boundary in order of precedence. -/
  | modeTransitionBegin
  /-- MODE_TRANSITION_DONE (R408): A mode transition completes, CURRENT takes the new mode and a MODE record is written. -/
  | modeTransitionDone (frac : Nat)
  /-- ORDERLY_STOP (R417): An orderly stop stops fetch, drains commands, enters HIBERNATE and powers down to HALT. -/
  | orderlyStop
  /-- ORDERLY_STOP_DRAIN_TIMEOUT (R417): Commands still outstanding 50 ms into an orderly stop are treated as by CC.EN 1 to 0. -/
  | orderlyStopDrainTimeout (frac : Nat)
  /-- PARK_BURST (R415): In PARK a burst powers the channels and programs every dirty byte when the dirty level or age threshold is reached. -/
  | parkBurst
  /-- PARK_CHANNEL_IDLE (R415): Channel PHYs power down after 100 µs without work in a PARK burst. -/
  | parkChannelIdle
  /-- WAKE_TIMER (R418): PWR_TIMER.STROKES boundaries elapse in DROWSE or HIBERNATE and the power target is raised. -/
  | wakeTimer
  /-- IGNITION_OFF_DELAY (R412): The ignition input reads NORMAL for DELAY_S seconds and every function is set to PS2. -/
  | ignitionOffDelay
  /-- DEVICE_RESET (R419): A write of GLB_RESET with DEVICE 1 and KEY 9Ch starts SEAL then BOOT. -/
  | deviceReset
  /-- SCRIBE_WATCHDOG (R419): Two seconds without a scribe heartbeat starts SEAL then BOOT. -/
  | scribeWatchdog (core : Nat)
  /-- DROOP_TRIP (R421): A droop detector trips and the system-PLL domains are halved within 2 fabric cycles. -/
  | droopTrip (frac : Nat) (regions : List Nat)
  /-- DROOP_RESTORE (R421): 256 halved fabric cycles pass with no trip and the clocks are restored. -/
  | droopRestore (frac : Nat)
  /-- THERMAL_SAMPLE (R422): Every 100 µs the hottest sensor is read and a rising thermal step applied. -/
  | thermalSample (frac : Nat) (readings : List Int)
  /-- THERMAL_STEP_DOWN (R422): The temperature stays 4 °C below a threshold for 16 strokes and the step falls by one. -/
  | thermalStepDown
  /-- SENSOR_FAIL (R429): A temperature sensor reads out of range or gives no conversion for 1 ms and is marked failed. -/
  | sensorFail (sensor : Nat) (last : Int)
  /-- VMON_SAMPLE (R431): Every 100 µs each voltage monitor takes a reading. -/
  | vmonSample (frac : Nat) (mv : List Nat)
  /-- VMON_OVERVOLTAGE (R431): A reading above 108 % of nominal for 1 ms records a blot. -/
  | vmonOvervoltage (mon mv : Nat)
  /-- VMON_SELF_CHECK (R431): At BOOT and every second each monitor checks itself against the 1.000 V reference. -/
  | vmonSelfCheck (bad : List Nat)
  /-- PMON_MEASURE (R432): At BOOT and every second each process monitor measures its frequency and drift. -/
  | pmonMeasure (freqs : List (Nat × Int))
  /-- EVT_SAMPLE (R433): Every 1 ms each enabled event input is sampled and decoded. -/
  | evtSample (frac : Nat) (samples : List EvtSample)
  /-- LOG_CLEAR (R445): A write of LOG_CLEAR with GO and KEY A5h empties the blot log. -/
  | logClear
  /-- PFAIL_TRIP (R210): PFAIL_N stays low for the filter time and the device enters SEAL. -/
  | pfailTrip (frac : Nat)
  /-- PFAIL_GLITCH (R210): A PFAIL_N pulse shorter than the filter is ignored and counted in the blot log. -/
  | pfailGlitch (frac width : Nat)
  /-- HOLD_SENSE_TRIP (R210): HOLD_SENSE stays below TRIP_MV for 5 µs and the device enters SEAL. -/
  | holdSenseTrip (frac mv : Nat)
  /-- RAIL_UNDERVOLTAGE (R210): A monitored rail stays below its undervoltage limit for 1 µs and the device enters SEAL. -/
  | railUndervoltage (frac mon mv : Nat)
  /-- DIE_LINK_FAIL (R12): The die-to-die link fails a frame after 8 retries; a blot is recorded and the device enters SEAL. -/
  | dieLinkFail (frac : Nat)
  /-- HOLD_ARM_CHANGE (R212): HOLD_SENSE has been at or above ARM_MV for 1 ms, or falls below it, and the armed state changes. -/
  | holdArmChange (frac mv : Nat)
  /-- SEAL_INFLIGHT_DEADLINE (R215): At 2,100 µs into SEAL every die still busy is reset and its data goes to the SEAL band. -/
  | sealInflightDeadline
  /-- SEAL_END (R211): The SEAL snapshot round ends and the device enters BOOT or HALT. `clear` says that every source has been clear for 10 ms; `summaryOk` and `snapshotOk` that the SEAL summary and the log snapshot were programmed. -/
  | sealEnd (frac : Nat) (clear summaryOk snapshotOk : Bool)
  /-- ALWAYS_ON_POWER_APPLIED (R462): The always-on supplies come within tolerance and the power-up sequence begins. -/
  | alwaysOnPowerApplied
  /-- ALWAYS_ON_RESET_END (R462): The always-on power-on reset ends, the stroke generator starts and PWR_REQ_CORE rises. -/
  | alwaysOnResetEnd
  /-- COMPUTE_RAILS_GOOD (R462): The compute monitors read above their limits for 1 ms; the compute die leaves reset and DRAM and NAND are requested. -/
  | computeRailsGood
  /-- POWER_UP_TIMEOUT (R462): The compute rails fail to pass within 50 ms and the device returns to HALT. -/
  | powerUpTimeout
  /-- MEDIA_BRINGUP_START (R462): 20 ms after the DRAM and NAND requests rise, NAND bring-up and DRAM training start. -/
  | mediaBringupStart (chans : List ChanUp) (dram : DramUp) (rawGib : Nat) (entropyOk : Bool)
  /-- ALWAYS_ON_POWER_LOST (R463): VAON falls below 1.55 V for 10 µs and retained state is lost. -/
  | alwaysOnPowerLost
  /-- MOUNT_COMPLETE (R226): The mount finishes and the device leaves BOOT for the base mode. -/
  | mountComplete (frac : Nat) (media : MountMedia)
  /-- NB5210_SCAN_COMPLETE (R229): The full scan of NB5210 media ends and the first checkpoint converts the media. -/
  | nb5210ScanComplete (units : List OldUnit)
  /-- BOOT_COPY_DONE (R381): The boot block finishes copying a staged component into bank 0. -/
  | bootCopyDone (comp : Nat) (ok : Bool) (ms : Nat)
  /-- NAND_STATUS_POLL (R167): A status poll interval elapses and the sequencer polls the die. -/
  | nandStatusPoll (die : Nat)
  /-- NAND_READ_DONE (R174): A NAND read completes and its codewords take the decoding path. `res` has one result for each codeword that is still to be decoded. -/
  | nandReadDone (die : Nat) (res : List DecodeRes)
  /-- NAND_PROGRAM_DONE (R170): A program completes with pass or fail, freeing Inkwell space or moving data to the next slot. -/
  | nandProgramDone (die : Nat) (pass : Bool)
  /-- NAND_ERASE_DONE (R170): An erase completes with pass or fail. -/
  | nandEraseDone (die : Nat) (pass : Bool)
  /-- NAND_TIMEOUT (R165): A status poll runs beyond TO_MULT times the maximum; the die is reset and may be fenced. -/
  | nandTimeout (die : Nat)
  /-- OPERATION_SUSPEND (R171): An erase or program that has run its slice with a priority read queued is suspended. -/
  | operationSuspend (at_ : DieAt)
  /-- DQS_RECENTER (R166): The channel temperature has moved by TEMP_C and one CE's DQS is re-centred. -/
  | dqsRecenter (channel ce : Nat)
  /-- DEEP_DECODE_DONE (R174): The deep decoder finishes a codeword in its allotment. -/
  | deepDecodeDone (frac : Nat) (res : DecodeRes)
  /-- STRIPE_REBUILD_DONE (R191): The stripe members of a lost codeword have been read and XORed and the unit queued for relocation. -/
  | stripeRebuildDone (frac die unit : Nat)
  /-- DIE_REBUILD_DONE (R192): Every valid unit of a fenced die has been moved and the end is logged. -/
  | dieRebuildDone (die : Nat)
  /-- NODE_DISPATCH (R279): The Ductus dispatches a ready node to a core or engine under budgets and affinity. -/
  | nodeDispatch (frac graph node core : Nat)
  /-- NODE_END (R276): A node ends DONE or FAILED, readying successors or ending the run. -/
  | nodeEnd (frac graph node : Nat) (res : JobRes)
  /-- NODE_PREEMPT (R281): A running NIB node is pre-empted and its context saved to the silt area. -/
  | nodePreempt (frac core : Nat)
  /-- NODE_WAIT_TIMEOUT (R284): A node's wait exceeds its limit and the run ends with GRAPH_TIMEOUT. -/
  | nodeWaitTimeout (graph node : Nat)
  /-- NIB_INTERRUPT (R259): A pending event or pre-emption is delivered as INTERRUPT to a core with IE set. -/
  | nibInterrupt (frac core : Nat)
  /-- NIB_MACHINE_CHECK (R264): A register parity error stops the core and fails its node. -/
  | nibMachineCheck (frac core : Nat)
  /-- DIGEST_GROUP_DONE (R297): A digest lane reaches a block-group boundary and may yield to another requester. -/
  | digestGroupDone (frac graph node : Nat)
  /-- COMPRESS_BLOCK_DONE (R325): A compression or decompression block ends and is written if it fits the chain. `verifyBad` says that the check of CMP_CTL.VERIFY finds a difference (R343). -/
  | compressBlockDone (graph node : Nat) (verifyBad : Bool)
  /-- SIEVE_LOOKUP (R336): A LOOKUP record returns the matches of a key in winner order. -/
  | sieveLookup (graph : Nat) (node : LookupNode)
  /-- SIEVE_WRITE (R339): A WRITE record writes an entry by invalidate, write, validate. -/
  | sieveWrite (graph node : Nat)
  /-- SIEVE_INSERT (R338): An INSERT record shifts entries up to a free index and writes the entry. -/
  | sieveInsert (graph node : Nat)
  /-- SIEVE_INVALIDATE (R341): An INVALIDATE record invalidates an entry. -/
  | sieveInvalidate (graph node : Nat)
  /-- SIEVE_READ (R341): A READ record returns an entry. -/
  | sieveRead (graph node : Nat)
  /-- SIEVE_SCAN (R340): The background scan reads one entry every 64 cycles and handles a parity error. `parityBad` says that it fails its parity. -/
  | sieveScan (parityBad : Bool)
  /-- SIEVE_GO (R344): A write of SIV_CMD.GO starts a register-path lookup. -/
  | sieveGo (go : LookupGo)
  /-- SIEVE_NEXT (R344): A write of SIV_CMD.NEXT steps to the next match. -/
  | sieveNext
  /-- FEED_OPEN (R292): A write of FEED_OPEN opens a register-path digest feed. -/
  | feedOpen (value : Nat)
  /-- FEED_DATA (R292): A write of FEED_DATA delivers a message word to the feed. -/
  | feedData (word : Nat)
  /-- FEED_LAST (R292): A write of FEED_LAST closes the feed and checks the count against FEED_LEN. -/
  | feedLast (word : Nat)
  /-- FEED_ABORT (R292): A write of FEED_ABORT discards the feed and frees its context. -/
  | feedAbort
  /-- FEED_DONE (R294): The register-path digest or compare result is ready and DONE is set. -/
  | feedDone (flags : Nat)
  /-- SLOT_CLEAR (R316): A write of CIP_SLOT_CLEAR zeroises one slot or all slots. -/
  | slotClear (slot : Nat) (all : Bool)
  /-- DRAM_FREQ_REQUEST (R349): A PF write of DRM_FREQ with REQ requests an operating point. -/
  | dramFreqRequest (point : Nat)
  /-- DRAM_RETRAIN_GATHER (R348): PERIOD_MS elapses or the temperature drifts and a 1,000 µs gathering starts. -/
  | dramRetrainGather (frac : Nat) (reading : DramReading)
  /-- DRAM_GATHER_END (R348): A gathering ends and its delays and any pending change wait for the next boundary. -/
  | dramGatherEnd (frac : Nat)
  /-- DRAM_REFRESH_POLL (R351): Every 1 ms the refresh-rate field of each rank is read and the refresh interval set. `mult` are the multipliers that the channels' memories require, `hot` the ranks above their limit (channel, rank). -/
  | dramRefreshPoll (mult : List Nat) (hot : List (Nat × Nat))
  /-- DRAM_REQUEST_PROMOTE (R354): A DRAM request that waits AGE_US is promoted one class. `cls` is its class, `waitedUs` how long it has waited, `bytes` what it moves. -/
  | dramRequestPromote (cls waitedUs bytes : Nat)
  /-- DRAM_UE (R358): An uncorrectable DRAM read is handled by its region, up to a controlled restart. -/
  | dramUe (addr source cls : Nat) (hit : DramHit)
  /-- INKWELL_UE (R361): An uncorrectable Inkwell read loses, recomputes or re-hashes the affected data. -/
  | inkwellUe (offset : Nat) (hit : WellHit)
  /-- INK_PROGRAM (R366): An Inkstone CMD with OP 1 programs 256 bytes at ADDR. -/
  | inkProgram (who addr : Nat) (data : Bytes)
  /-- INK_ERASE (R367): An Inkstone CMD with OP 2 erases the sector at ADDR. -/
  | inkErase (who addr : Nat)
  /-- INK_READ (R370): An Inkstone CMD with OP 3 reads 256 bytes into DATA. -/
  | inkRead (who addr : Nat) (chk : Chk)
  /-- INK_OP_DONE (R369): An Inkstone program or erase ends with DONE, FAIL or a remap. -/
  | inkOpDone (bank pulses : Nat) (fail : Bool)
  /-- SETTINGS_SAVE (R374): A write of INK_CTL.SAVE writes a settings copy at the next boundary. -/
  | settingsSave
  /-- SETTINGS_SAVE_TIMER (R374): 10 s after the last Stored write a settings copy is written. -/
  | settingsSaveTimer
  /-- PORT_ENABLE (R109): A PORT_EN bit goes from 0 to 1 and the port begins bring-up. -/
  | portEnable (port : Nat)
  /-- PORT_LINK_UP (R109): A port completes bring-up, sets LINK and writes a LINK_UP record. -/
  | portLinkUp (frac port : Nat) (up : PortUp)
  /-- PORT_LINK_LOST (R109): Block lock or synchronisation is lost for 1 ms; LINK clears and a LINK_DOWN record is written. -/
  | portLinkLost (frac port : Nat)
  /-- TX_POLARITY_TOGGLE (R109): Every 100 ms without link the transmit polarity is toggled. -/
  | txPolarityToggle (port : Nat) (look : PortTry)
  /-- ARP_REQUEST (R110): An ARP request for the port's IPv4 address receives a reply. -/
  | arpRequest (port senderMac senderIp targetIp : Nat)
  /-- NEIGHBOUR_SOLICITATION (R110): A neighbour solicitation for the port's IPv6 address receives an advertisement. -/
  | neighbourSolicitation (port senderMac senderIp targetIp : Nat)
  /-- FRAME_RECEIVED (R117): A received frame is stamped, parsed, classified and stored as a packet unit or dropped. -/
  | frameReceived (frac port : Nat) (frame : Bytes) (fcsBad : Bool) (noRoom : Bool) (levelKib : Nat)
  /-- SILENT_TIMEOUT (R122): A flow stores or drops nothing for SILENT_STROKES strokes and gets a SILENT record. -/
  | silentTimeout (frac flow : Nat)
  /-- OXV_LINK_UP (R389): An Oxvia link completes training and a FAULT 11h record is written. -/
  | oxvLinkUp (frac link width polarity laneMap : Nat)
  /-- OXV_LINK_DOWN (R389): An Oxvia link loses block lock for 1 µs or replays a frame 8 times and goes down. -/
  | oxvLinkDown (frac link : Nat)
  /-- MARK (R395): A MARK frame is received, its boundary compensated and forwarded. -/
  | markFrame (frac : Nat) (h : OxvHdr) (count state flog2 period root corr tag : Nat) (arrivalNs : Int)
  /-- DELAY_REQ (R391): A DELAY_REQ frame is received and answered. -/
  | delayReq (link : Nat) (payload : Bytes)
  /-- DELAY_RESP (R38): A DELAY_RESP frame is received and the one-way delay reported. -/
  | delayResp (link ns : Nat)
  /-- HELLO (R389): A HELLO frame is received and the link revision agreed. -/
  | helloFrame (link rev min tag dev : Nat)
  /-- FD (R142): An FD frame from a neighbour fills or is rejected from an anchor slot. -/
  | fdFrame (h : OxvHdr) (dev index : Nat) (fd : Bytes)
  /-- CONTROL (R404): A CONTROL frame carrying a DOMAIN CONFIGURE phase is received and answered. -/
  | controlFrame (h : OxvHdr) (m : ControlMsg)
  /-- OXV_STATUS_FRAME (R394): A STATUS frame updates the link map and member state. -/
  | oxvStatusFrame (h : OxvHdr) (mode attn rev min index lag ups : Nat)
  /-- MIRROR (R401): A MIRROR frame's blocks are appended at the target. -/
  | mirrorFrame (h : OxvHdr) (nsid stroke lba : Nat) (data : Bytes)
  /-- MIRROR_ACK (R401): A MIRROR_ACK advances the source's acknowledged stroke. -/
  | mirrorAck (h : OxvHdr) (nsid stroke : Nat)
  /-- PROXY (R398): A PROXY frame carries a command, data or completion between head and follower. -/
  | proxyFrame (h : OxvHdr) (m : ProxyMsg)
  /-- NAK (R392): A NAK frame makes the sender replay from the named sequence. -/
  | nakFrame (link seq : Nat)
  /-- REPLAY_TIMEOUT (R392): No ACK arrives within 4 µs and the sender replays the REL frame. -/
  | replayTimeout (link : Nat)
  /-- MEMBER_UNREACHABLE (R394): No STATUS from a member for 192 strokes marks it unreachable. -/
  | memberUnreachable (dev : Nat)
  /-- REMOTE_GO (R399): A write of OXV_REMOTE.GO starts a read or write of a follower's register. -/
  | remoteGo (value : Nat)
  /-- MI_READ_DATA_STRUCTURE (R104): NVMe-MI Read NVMe-MI Data Structure returns subsystem, port or controller data. -/
  | miReadDataStructure (dtyp port ctrl : Nat)
  /-- MI_SUBSYSTEM_HEALTH_POLL (R104): NVMe-MI NVM Subsystem Health Status Poll returns subsystem health. -/
  | miSubsystemHealthPoll (clear : Bool)
  /-- MI_CONTROLLER_HEALTH_POLL (R104): NVMe-MI Controller Health Status Poll returns health for all controllers. -/
  | miControllerHealthPoll (first max : Nat)
  /-- MI_CONFIGURATION_SET (R104): NVMe-MI Configuration Set sets an endpoint configuration. -/
  | miConfigurationSet (cid port value : Nat)
  /-- MI_CONFIGURATION_GET (R104): NVMe-MI Configuration Get returns an endpoint configuration. -/
  | miConfigurationGet (cid port : Nat)
  /-- MI_VPD_READ (R104): NVMe-MI VPD Read returns VPD bytes. -/
  | miVpdRead (off len : Nat)
  /-- MI_VPD_WRITE (R104): NVMe-MI VPD Write writes VPD bytes to the settings area. -/
  | miVpdWrite (off : Nat) (data : Bytes)
  /-- MI_RESET (R104): NVMe-MI Reset returns Invalid Parameter. -/
  | miReset
  /-- MI_ADMIN_TUNNEL (R104): NVMe-MI tunnels an admin command to a controller. -/
  | miAdminTunnel (ctrl dlen : Nat) (cmd : TunnelCmd)
  /-- LATCHED_READ_LO (R452): A read of the low register of a latched pair captures the high half. -/
  | latchedReadLo (off : Nat)
  /-- REGISTER_WRITE (R450): A write to a setup register with no row of its own sets fields and rejects invalid values. -/
  | registerWrite (off value : Nat) (full : Bool)
  /-- NOP (R248): An all-zero operation does nothing. -/
  | nop (o : NibOp)
  /-- ADD (R249): ADD writes A + B. -/
  | add (o : NibOp)
  /-- ADDC (R249): ADDC writes A + B + C. -/
  | addc (o : NibOp)
  /-- ADDS (R249): ADDS writes the saturated signed sum. -/
  | adds (o : NibOp)
  /-- SUB (R249): SUB writes A − B. -/
  | sub (o : NibOp)
  /-- SUBB (R249): SUBB writes A − B − C. -/
  | subb (o : NibOp)
  /-- SUBS (R249): SUBS writes the saturated signed difference. -/
  | subs (o : NibOp)
  /-- NEG (R249): NEG writes 0 − A. -/
  | neg (o : NibOp)
  /-- NEGS (R249): NEGS writes the saturated negation. -/
  | negs (o : NibOp)
  /-- ABS (R249): ABS writes the absolute value. -/
  | abs (o : NibOp)
  /-- ABSS (R249): ABSS writes the saturated absolute value. -/
  | abss (o : NibOp)
  /-- CMP (R249): CMP sets the flags of A − B. -/
  | cmp (o : NibOp)
  /-- CMPC (R249): CMPC sets the flags of A − B − C. -/
  | cmpc (o : NibOp)
  /-- AND (R249): AND writes A AND B. -/
  | andOp (o : NibOp)
  /-- OR (R249): OR writes A OR B. -/
  | orOp (o : NibOp)
  /-- XOR (R249): XOR writes A XOR B. -/
  | xor (o : NibOp)
  /-- ANDN (R249): ANDN writes A AND NOT B. -/
  | andn (o : NibOp)
  /-- NOT (R249): NOT writes NOT A. -/
  | notOp (o : NibOp)
  /-- MOV (R249): MOV writes B or K. -/
  | mov (o : NibOp)
  /-- MIN (R249): MIN writes the signed minimum. -/
  | minOp (o : NibOp)
  /-- MAX (R249): MAX writes the signed maximum. -/
  | maxOp (o : NibOp)
  /-- MINU (R249): MINU writes the unsigned minimum. -/
  | minu (o : NibOp)
  /-- MAXU (R249): MAXU writes the unsigned maximum. -/
  | maxu (o : NibOp)
  /-- SEL (R249): SEL writes A if Z is 1, otherwise B. -/
  | sel (o : NibOp)
  /-- SEXT8 (R249): SEXT8 sign-extends A[7:0]. -/
  | sext8 (o : NibOp)
  /-- ZEXT8 (R249): ZEXT8 zero-extends A[7:0]. -/
  | zext8 (o : NibOp)
  /-- CLZ (R249): CLZ writes the count of leading zeros. -/
  | clz (o : NibOp)
  /-- POPC (R249): POPC writes the count of bits set. -/
  | popc (o : NibOp)
  /-- TST (R249): TST sets the flags of A AND B. -/
  | tst (o : NibOp)
  /-- MOVF (R249): MOVF copies a fixed register to a window register. -/
  | movf (o : NibOp)
  /-- MOVT (R249): MOVT copies a window register to a fixed register. -/
  | movt (o : NibOp)
  /-- LDI (R249): LDI writes a 16-bit immediate. -/
  | ldi (o : NibOp)
  /-- MUL (R250): MUL writes the low 16 bits of the signed product. -/
  | mul (o : NibOp)
  /-- MULL (R250): MULL writes the signed 32-bit product to a pair. -/
  | mull (o : NibOp)
  /-- MULLU (R250): MULLU writes the unsigned 32-bit product to a pair. -/
  | mullu (o : NibOp)
  /-- MULQ (R250): MULQ writes the Q15 product. -/
  | mulq (o : NibOp)
  /-- MULQR (R250): MULQR writes the rounded Q15 product. -/
  | mulqr (o : NibOp)
  /-- MAC (R250): MAC adds the signed product to a pair modulo 2^32. -/
  | mac (o : NibOp)
  /-- MACS (R250): MACS adds the product to a pair with saturation. -/
  | macs (o : NibOp)
  /-- SHL (R251): SHL shifts logically left. -/
  | shl (o : NibOp)
  /-- SHR (R251): SHR shifts logically right. -/
  | shr (o : NibOp)
  /-- SAR (R251): SAR shifts arithmetically right. -/
  | sar (o : NibOp)
  /-- ASL (R251): ASL shifts arithmetically left with overflow. -/
  | asl (o : NibOp)
  /-- ROL (R251): ROL rotates left. -/
  | rol (o : NibOp)
  /-- ROR (R251): ROR rotates right. -/
  | ror (o : NibOp)
  /-- DIVS (R252): DIVS writes the signed quotient and remainder. -/
  | divs (o : NibOp)
  /-- DIVU (R252): DIVU writes the unsigned quotient and remainder. -/
  | divu (o : NibOp)
  /-- SHL32 (R250): SHL32 shifts a pair logically left. -/
  | shl32 (o : NibOp)
  /-- SHR32 (R250): SHR32 shifts a pair logically right. -/
  | shr32 (o : NibOp)
  /-- SAR32 (R250): SAR32 shifts a pair arithmetically right. -/
  | sar32 (o : NibOp)
  /-- EXTU (R250): EXTU extracts a zero-extended bit field. -/
  | extu (o : NibOp)
  /-- EXTS (R250): EXTS extracts a sign-extended bit field. -/
  | exts (o : NibOp)
  /-- LD (R253): LD loads from local data memory. -/
  | ld (o : NibOp)
  /-- ST (R253): ST stores to local data memory. -/
  | st (o : NibOp)
  /-- LDPI (R253): LDPI loads with post-increment. -/
  | ldpi (o : NibOp)
  /-- STPI (R253): STPI stores with post-increment. -/
  | stpi (o : NibOp)
  /-- LDS (R235): LDS loads from the space selected by f4 after the segment checks. -/
  | lds (o : NibOp)
  /-- STS (R235): STS stores to the space selected by f4 after the segment checks. -/
  | sts (o : NibOp)
  /-- LDP (R253): LDP loads a pair from local data memory. -/
  | ldp (o : NibOp)
  /-- STP (R253): STP stores a pair to local data memory. -/
  | stp (o : NibOp)
  /-- B (R255): B branches relative if COND holds. -/
  | branch (o : NibOp)
  /-- CALL (R239): CALL saves the link, slides the window and branches. -/
  | call (o : NibOp)
  /-- CALLX (R253): CALLX calls the address in a register in the selected half. -/
  | callx (o : NibOp)
  /-- JMPX (R253): JMPX jumps to the address in a register in the selected half. -/
  | jmpx (o : NibOp)
  /-- RET (R239): RET slides the window back and returns to the link. -/
  | ret (o : NibOp)
  /-- RETT (R263): RETT slides back two halves, restores f2 and resumes at TPC. -/
  | rett (o : NibOp)
  /-- REPI (R256): REPI repeats the next bundle a counted number of times, interruptibly. -/
  | repi (o : NibOp)
  /-- REPN (R256): REPN repeats the next bundle up to 64 times without interruption. -/
  | repn (o : NibOp)
  /-- TRAP (R260): TRAP raises a SOFTWARE trap with its code. -/
  | trap (o : NibOp)
  /-- MFC (R242): MFC reads a control register. -/
  | mfc (o : NibOp)
  /-- MTC (R242): MTC writes a control register. -/
  | mtc (o : NibOp)
  /-- HALT (R276): HALT ends the node with its result code. -/
  | haltOp (o : NibOp)
  /-- WAIT (R282): WAIT stops issue until a Ductus event is pending. -/
  | wait (o : NibOp)
  /-- BAR (R237): BAR waits until earlier segment stores are visible. -/
  | bar (o : NibOp)
  /-- CRYSTAL_STOPS (R22): The 25 MHz crystal stops and the always-on domain continues on its internal 25 MHz oscillator. -/
  | crystalStops
  /-- REFERENCE_WAIT_EXPIRY (R36): At BOOT the 2 s wait for the selected reference runs out, and the device continues from the larger of the journal and always-on counts. -/
  | referenceWaitExpiry
  /-- BUS_MASTER_ENABLE (R60): A function's Bus Master Enable changes, stopping or resuming its command fetch, data movement and summary posting. -/
  | busMasterEnable (fn : Nat) (w : CfgWrite)
  /-- AUTONOMOUS_POWER_STATE_TRANSITION (R409): The idle time set by Feature 0Ch runs out and the function's power state moves to a lower state, changing the power target. -/
  | autonomousPowerStateTransition (fn : Nat)
  /-- SCRIBE_MEMORY_UE (R358): An uncorrectable SEC-DED error in a scribe memory causes a controlled restart through SEAL and BOOT. -/
  | scribeMemoryUe (core : Nat)
  /-- MISSED_SYNC (R392): An Oxvia receiver finds the 32 bits after a frame differ from the sync word, drops the frame and hunts for sync until it locks again. -/
  | missedSync (link early : Nat)
  /-- OXV_BAD_FRAME (R392): An Oxvia frame with a bad length, a reserved TYPE, a failing FCRC or HOPS at 200 is dropped, counted and answered by a NAK for a REL frame. -/
  | oxvBadFrame (link : Nat) (fault : FrameFault) (rel : Bool) (seq : Nat)
  deriving DecidableEq, Repr

end Sys2Proof
end

