-- ==== Sys2Proof/Decode.lean ====
section
/-!
DEFINITION. The host's word decoder. The rows of spec/opcode_table.json are commands, events and operations of a block and
carry no bits, so no word spells one (notes/assumptions/1). The encoding that the spec gives its own sequencers (the
32-bit operation words of the Nib cores, spec/11_nib_instruction_set.md R243 to R253) is read in Sys2Proof/Machine/Operands.lean.
-/

namespace Sys2Proof

/-- The command that a word spells by the table's bits: none, the table gives no row any. -/
def decodeTableWord (_nbits _w : Nat) : Option Instr := none

end Sys2Proof
end

