-- ==== Sys2Proof/Config.lean ====
section
/-!
DEFINITION. What one part fixes and the spec does not (fuse contents, fitted media), the functions of outside standards
that the spec names without defining, and the free values. Everything here has no body: no proof can see a value, so a
claim that holds does so whatever these are (notes/assumptions/2, 3, 4).
-/

namespace Sys2Proof.Config

/-- A value the spec leaves open, a fresh one for each count of `State.freeCount` (notes/assumptions/2). -/
opaque freeNat : Nat → Nat

/-- Free bytes, as `freeNat`. -/
opaque freeBytes : Nat → Bytes

/-- The 32-byte payload of an ink record whose fields R137 lists without their offsets: type, field values in the
order R137 lists them (notes/assumptions/5). -/
opaque packRecord : Nat → List Nat → Bytes

/-- The HEAD section of an EXPORT bundle, whose fields R155 lists without their offsets (notes/assumptions/5). -/
opaque packHead : List Nat → Bytes

/-- The payload of an Oxvia frame whose fields R391, R401 and R404 list without their offsets: TYPE, fields, data
(notes/assumptions/5). -/
opaque packOxv : Nat → List Nat → Bytes → Bytes

/-- Whether the payload of a stream-0 record of a type that R137 lists without offsets names a namespace: type, NSID,
payload (notes/assumptions/5). -/
opaque recordNames : Nat → Nat → Bytes → Bool

/-- SN of R70: 20 ASCII characters from the fuse block. -/
opaque serialNumber : Bytes

/-- The eight characters in which FR and the slot log give a revision of the scribe firmware (R70, R382). -/
opaque revText : Nat → Bytes

/-- VID (low 16 bits) and SSVID of R52: persistent settings of the vendor. -/
opaque vendorIds : Nat

/-- Factory MAC address of an ingest port, 48 bits (R129). -/
opaque factoryMac : Nat → Nat

/-- Subsystem ID and Revision ID of R52: persistent settings of the board vendor in the identity block (R375), which no command
of the part writes. -/
opaque subsystemId : Nat
opaque revisionId : Nat

/-- Cell mode of a die, from its parameter page (R161): modulo 3, 0 SLC, 1 TLC, 2 QLC. -/
opaque cellMode : Nat → Nat

/-- Members of a die, and unit slots in one member (R187, R188). -/
opaque membersPerDie : Nat → Nat
opaque bandRows : Nat

/-- Rated endurance E of a die (R195), and its parameter page's limits of erase and program suspends (R171). -/
opaque ratedCycles : Nat → Nat
opaque eraseSuspendLimit : Nat → Nat
opaque programSuspends : Nat → Bool
opaque programSuspendLimit : Nat → Nat

/-- SLC-mode tPROG of a die in microseconds (R218). -/
opaque slcProgUs : Nat → Nat

/-- Factory bad blocks of a die (R208). -/
opaque factoryBlocks : Nat → Nat

/-- The block of a member on a plane of a die is bad at the factory; the good spare blocks of a plane (R187). -/
opaque blockBad : Nat → Nat → Nat → Bool
opaque spareBlocks : Nat → Nat → Nat

/-- The parameter page of a QLC die declares two-pass programming (R161). -/
opaque twoPass : Nat → Bool

/-- Die time slots that a channel gives positions 4 and 5 of R169 in a stroke: R42 leaves them to the translation layer's plan. -/
opaque bulkSlots : Nat → Nat

/-- Bytes of a journal record of a kind (R222 gives only SEGMENT's). -/
opaque journalRecBytes : Nat → Nat

/-- Bytes of a page of journal records, and of an ink-log page. -/
opaque packPage : Nat → Bytes

/-- Nominal voltage in mV of the companion die's internal regulators (monitors 26 to 28), which R459 does not state. -/
opaque regulatorMv : Nat → Nat

/-- The device root key of the fuse block (R13, R303): it leaves the key-unwrap stage by no path. -/
opaque rootKey : Bytes

/-- Digest functions of R290/R293, by algorithm code: 1 SHA-256, 2 SHA-384, 3 SHA-512, 4 SHA3-256, 5 SHA3-384
(FIPS 180-4 and FIPS 202, not part of the spec). -/
opaque rawDigest : Nat → Bytes → Bytes

/-- HMAC of FIPS 198 under an algorithm, a key and a message. -/
opaque rawHmac : Nat → Bytes → Bytes → Bytes

/-- The public key formed from a seed for a signature algorithm (1 P-256, 2 P-384, 3 Ed25519; R140, R303). -/
opaque rawPublicKey : Nat → Bytes → Bytes

/-- A signature by the key of a seed over a message (R140, R309). -/
opaque rawSign : Nat → Bytes → Bytes → Bytes

/-- Verification of a signature: algorithm, public key, message, signature. -/
opaque sigVerifies : Nat → Bytes → Bytes → Bytes → Bool

/-- The public key of firmware packages, in the boot block (R376). -/
opaque packageKey : Bytes

/-- A public key is a valid point of its algorithm's curve (R146). -/
opaque pointValid : Nat → Bytes → Bool

/-- Diffie-Hellman shared secret between a seed's key and a public key (R307). -/
opaque rawEcdh : Nat → Bytes → Bytes → Bytes

/-- Key derivation from a secret and a label (R303, R307). -/
opaque rawDerive : Bytes → Bytes → Bytes

/-- RFC 3394 and RFC 5649 unwrap: mode, key-encryption key, wrapped bytes; none where the integrity check fails. -/
opaque rawUnwrap : Nat → Bytes → Bytes → Option Bytes

/-- RFC 3394 and RFC 5649 wrap. -/
opaque rawWrap : Nat → Bytes → Bytes → Bytes

/-- A block cipher under one key and tweak: it has an inverse and keeps the length. -/
structure Cipher where
  enc : Bytes → Bytes := id
  dec : Bytes → Bytes := id
  dec_enc : ∀ b, dec (enc b) = b := by intro b; rfl
  enc_dec : ∀ b, enc (dec b) = b := by intro b; rfl
  length_enc : ∀ b, (enc b).length = b.length := by intro b; rfl
  deriving Inhabited

/-- XTS-AES-256 of IEEE 1619 over one data unit, by key and tweak (R300). -/
opaque xts : Bytes → Bytes → Cipher

/-- The storage secret expanded by HMAC into the 64 bytes of the storage key (R303), whose inputs the spec does not state. -/
opaque expandKey : Bytes → Bytes

/-- The 424 bytes of LDPC parity over the data and metadata of a codeword (R160). -/
opaque ldpcParity : Bytes → Bytes

/-- AES in the modes of R299: mode (0 XTS, 1 GCM, 2 CTR), encrypting?, key, IV or tweak, data. -/
opaque rawCipher : Nat → Bool → Bytes → Bytes → Bytes → Bytes

/-- The GCM tag: key, IV, AAD, ciphertext. -/
opaque rawGcmTag : Bytes → Bytes → Bytes → Bytes → Bytes

/-- Compression: class (0 LZ4 block, 1 DEFLATE with zlib framing), level, dictionary, block. -/
opaque rawCompress : Nat → Nat → Bytes → Bytes → Bytes

/-- Decompression: class, dictionary, block; an error code where the stream is not valid (R328). -/
opaque rawDecompress : Nat → Bytes → Bytes → Except Nat Bytes

/-- Whether a leaf whose previous leaf has been pruned from its table checks (R138, R154 leave it open), by stroke and
stream. -/
opaque prunedLeafOk : Nat → Nat → Bool

/-- Which of the three SGMII rates (R108) a port stands at before its PHY has signalled one: 0 1000, 1 100, 2 10 Mb/s, by port. -/
opaque sgmiiStep : Nat → Nat

/-- Whether the part measures the path by the peer-delay mechanism; R32 names two and does not say what selects one. -/
opaque ptpPeerDelay : Bool

/-- A request message of IEEE 1588 (not part of the spec): peer-delay?, mapping (0 Ethernet, 1 UDP/IPv4, 2 UDP/IPv6), port, domain,
sequence. -/
opaque ptpRequest : Bool → Nat → Nat → Nat → Nat → Bytes

/-- A fresh random key (R305). -/
opaque randomKey : Nat → Bytes

/-- The content of the factory Nib library in the Inkstone, and its factory bad-sector marks (category F). -/
opaque factoryBad : Nat → Bool

/-- A Gyone image (R274): whether it is well formed, the instruction and data words it loads (address, word), and its
spill section (first word, first word above it). The image format is not part of the spec. -/
opaque gyoneOk : Bytes → Bool
opaque gyoneInstr : Bytes → List (Nat × BitVec 16)
opaque gyoneData : Bytes → List (Nat × BitVec 16)
opaque gyoneSpill : Bytes → Nat × Nat

/-- The digest lane that absorbs a stream (modulo 16), which R18 and R20 leave to the allotment. -/
opaque laneOf : Nat → Nat

/-- The free member that an open band other than a copy band takes on a die, by band and die (modulo the number of free
members): R195 does not say how the life of its data is measured. -/
opaque memberPick : Nat → Nat → Nat

/-- The page type that reads a level of a die (modulo the pages of a word line): R179 does not say which. -/
opaque levelPage : Nat → Nat → Nat

end Sys2Proof.Config
end

