-- ==== Sys2Proof/Machine/Bits.lean ====
section
/-!
DEFINITION. Bit fields of numbers, and the byte orders of spec/00_scope.md R4: every structure exchanged with the host
is little-endian; network headers are big-endian.
-/

namespace Sys2Proof.Machine

/-- Bits [hi:lo] of a number, as a number. -/
def bits (v hi lo : Nat) : Nat := (v / 2 ^ lo) % 2 ^ (hi + 1 - lo)

/-- One bit of a number. -/
def bitAt (v i : Nat) : Bool := (v / 2 ^ i) % 2 == 1

/-- `v` with bits [hi:lo] replaced by `x`, cut to the field's width. -/
def setBits (v hi lo x : Nat) : Nat :=
  v - bits v hi lo * 2 ^ lo + (x % 2 ^ (hi + 1 - lo)) * 2 ^ lo

/-- A Bool as a bit. -/
def bit (b : Bool) : Nat := if b then 1 else 0

/-- A counter that stops at its field's maximum. -/
def satAdd (v n max : Nat) : Nat := if v + n ≤ max then v + n else max

/-- `n` bytes of a number, the least significant first. -/
def le (n v : Nat) : Bytes :=
  match n with
  | 0 => []
  | k + 1 => BitVec.ofNat 8 v :: le k (v / 256)

/-- `n` bytes of a number, the most significant first (network byte order). -/
def be (n v : Nat) : Bytes := (le n v).reverse

/-- The number that little-endian bytes spell. -/
def fromLe : Bytes → Nat
  | [] => 0
  | b :: bs => b.toNat + 256 * fromLe bs

/-- The number that big-endian bytes spell. -/
def fromBe (bs : Bytes) : Nat := fromLe bs.reverse

/-- `n` zero bytes. -/
def zeros (n : Nat) : Bytes := List.replicate n 0

/-- The bytes at `[off, off + n)`, zero where the string has ended. -/
def slice (bs : Bytes) (off n : Nat) : Bytes :=
  let t := (bs.drop off).take n
  t ++ zeros (n - t.length)

/-- The little-endian number at `[off, off + n)`. -/
def leAt (bs : Bytes) (off n : Nat) : Nat := fromLe (slice bs off n)

/-- The big-endian number at `[off, off + n)`. -/
def beAt (bs : Bytes) (off n : Nat) : Nat := fromBe (slice bs off n)

/-- The byte at `off` as a number. -/
def byteAt (bs : Bytes) (off : Nat) : Nat := leAt bs off 1

/-- Exactly `n` bytes: cut, or padded with zeros. -/
def fixLen (n : Nat) (bs : Bytes) : Bytes := slice bs 0 n

/-- `bs` with the bytes of `x` written at `off` (the length of `bs` does not change). -/
def splice (bs : Bytes) (off : Nat) (x : Bytes) : Bytes :=
  ((slice bs 0 off) ++ x ++ bs.drop (off + x.length)).take bs.length

/-- Bytes that are all zero. -/
def allZero (bs : Bytes) : Bool := bs.all (· == 0)

/-- Division rounding up. -/
def ceilDiv (a b : Nat) : Nat := (a + b - 1) / b

/-- The two's complement of an integer in `n` bits. -/
def twos (n : Nat) (v : Int) : Nat := (BitVec.ofInt n v).toNat

/-- A signed value cut to `±(2^(n-1) − 1)`, as OFFSET of R41 is saturated. -/
def satSym (n : Nat) (v : Int) : Int :=
  let m : Int := 2 ^ (n - 1) - 1
  if v > m then m else if v < -m then -m else v

/-- Modulo-2 division, one byte at a time, most significant bit first: the shared step of the CRCs below. -/
def crcStepMsb (width poly : Nat) (crc : Nat) (b : Nat) : Nat :=
  (List.range 8).foldl
    (fun c i =>
      let top := (c / 2 ^ (width - 1)) % 2
      let inb := (b / 2 ^ (7 - i)) % 2
      let sh := (c * 2) % 2 ^ width
      if top == inb then sh else sh ^^^ poly) crc

/-- A reflected CRC step, least significant bit first. -/
def crcStepLsb (poly : Nat) (crc : Nat) (b : Nat) : Nat :=
  (List.range 8).foldl (fun c _ => if c % 2 == 1 then (c / 2) ^^^ poly else c / 2) (crc ^^^ b)

/-- CRC-32 of IEEE 802.3: reflected, initial and final value all ones. -/
def crc32 (bs : Bytes) : Nat :=
  (bs.foldl (fun c b => crcStepLsb 0xEDB88320 c b.toNat) 0xFFFFFFFF) ^^^ 0xFFFFFFFF

/-- A non-reflected CRC with initial value `init` and no final inversion. -/
def crcMsb (width poly init : Nat) (bs : Bytes) : Nat :=
  bs.foldl (fun c b => crcStepMsb width poly c b.toNat) init

/-- CRC-8 of the polynomial 07h, from 0 (R185). -/
def crc8 (bs : Bytes) : Nat := crcMsb 8 7 0 bs

end Sys2Proof.Machine
end

