-- ==== Sys2Proof/Machine/Map.lean ====
section
/-!
DEFINITION. Finite maps as plain data: key and value pairs with strictly rising keys, so that equal maps are equal
data. The sparse stores (the register file, the local memories of the Nib cores, the Inkstone) also hold no entry equal
to what an unlisted key reads as.
-/

namespace Sys2Proof.Machine

/-- Pairs in rising key order. -/
abbrev Map (α : Type) := List (Nat × α)

variable {α : Type}

def mget (m : Map α) (k : Nat) : Option α :=
  match m with
  | [] => none
  | (k', v) :: t => if k = k' then some v else mget t k

def mset (m : Map α) (k : Nat) (v : α) : Map α :=
  match m with
  | [] => [(k, v)]
  | (k', v') :: t =>
    if k < k' then (k, v) :: (k', v') :: t
    else if k = k' then (k, v) :: t
    else (k', v') :: mset t k v

def merase (m : Map α) (k : Nat) : Map α :=
  match m with
  | [] => []
  | (k', v') :: t => if k = k' then t else (k', v') :: merase t k

/-- Change the value of a key that is present; an absent key stays absent. -/
def mupd (m : Map α) (k : Nat) (f : α → α) : Map α :=
  match m with
  | [] => []
  | (k', v') :: t => if k = k' then (k', f v') :: t else (k', v') :: mupd t k f

def mhas (m : Map α) (k : Nat) : Bool := (mget m k).isSome

/-- The lowest free key at or above `lo`. -/
def mfree (m : Map α) (lo : Nat) : Nat :=
  match m with
  | [] => lo
  | (k', _) :: t => if k' < lo then mfree t lo else if k' = lo then mfree t (lo + 1) else lo

/-- Keys strictly rising, all at or above `lo`. -/
def risingFrom (lo : Nat) : Map α → Bool
  | [] => true
  | (k, _) :: t => decide (lo ≤ k) && risingFrom (k + 1) t

/-- The canonical form of a map. -/
def Map.wf (m : Map α) : Bool := risingFrom 0 m

/-- A sparse store: what an unlisted key reads as is `dflt`. -/
def sget (dflt : Nat → α) (m : Map α) (k : Nat) : α := (mget m k).getD (dflt k)

/-- A write to a sparse store keeps its canonical form: the default value removes the entry. -/
def sset [DecidableEq α] (dflt : Nat → α) (m : Map α) (k : Nat) (v : α) : Map α :=
  if v = dflt k then merase m k else mset m k v

/-- The canonical form of a sparse store. -/
def sparseWf [DecidableEq α] (dflt : Nat → α) (m : Map α) : Bool :=
  risingFrom 0 m && m.all (fun e => decide (e.2 ≠ dflt e.1))

/-- Bytes of a sparse byte store. -/
def sgetBytes (dflt : Nat → Byte) (m : Map Byte) (k n : Nat) : Bytes :=
  (List.range n).map (fun i => sget dflt m (k + i))

def ssetBytes (dflt : Nat → Byte) (m : Map Byte) (k : Nat) (bs : Bytes) : Map Byte :=
  match bs with
  | [] => m
  | b :: t => ssetBytes dflt (sset dflt m k b) (k + 1) t

/-- Replace the `i`-th element of a list. -/
def lset {α : Type} (l : List α) (i : Nat) (v : α) : List α := l.set i v

def lupd {α : Type} (l : List α) (i : Nat) (f : α → α) : List α :=
  match l, i with
  | [], _ => []
  | x :: t, 0 => f x :: t
  | x :: t, i + 1 => x :: lupd t i f

/-- The first element that satisfies `p` is changed. -/
def updFirst {α : Type} (p : α → Bool) (f : α → α) : List α → List α
  | [] => []
  | x :: t => if p x then f x :: t else x :: updFirst p f t

/-- The first element that satisfies `p` is removed. -/
def dropFirst {α : Type} (p : α → Bool) : List α → List α
  | [] => []
  | x :: t => if p x then t else x :: dropFirst p t

end Sys2Proof.Machine
end

