-- ==== Sys2Proof/Machine/RegMap.lean ====
section
/-!
DEFINITION. The setup registers of BAR2 (spec/20_register_map.md R446, R457 and the register tables R47, R67, R107,
R129, R156, R157, R181, R182, R209, R287, R288, R315, R316, R343, R344, R362, R385, R386, R406, R425, R426, R427, R443,
R444, R445): one description per field, written from those tables, and one name per field. Offsets are BAR2 byte
offsets. A field of an array names its first instance; the two (count, stride) pairs repeat it.
-/

namespace Sys2Proof.Machine

/-- The access codes of R5. -/
inductive Access where
  | rw | ro | wo | rw1c | rw1s | rwo
  deriving DecidableEq, Repr

/-- What R450 calls the range or list of encodings of a field. -/
inductive Valid where
  | any
  | range (lo hi : Nat)
  | signed8 (limit : Nat)
  | holes
  deriving DecidableEq, Repr

/-- One field of one register: where it lies, its access code, its value at power-on, whether it is Stored. -/
structure FieldDesc where
  off : Nat
  count : Nat
  stride : Nat
  count2 : Nat
  stride2 : Nat
  hi : Nat
  lo : Nat
  acc : Access
  reset : Nat
  stored : Bool
  valid : Valid
  deriving DecidableEq, Repr

/-- A named field: the BAR2 offset of its dword and its bits. -/
structure Fld where
  off : Nat
  hi : Nat
  lo : Nat
  deriving DecidableEq, Repr

def regTableSTK0 : List FieldDesc :=
  [ ⟨0x0A000, 1, 0x0, 1, 0x0, 15, 0, .rw, 0x3E8, true, (.range 250 40000)⟩
  , ⟨0x0A004, 1, 0x0, 1, 0x0, 2, 0, .rw, 0x0, true, (.range 0 4)⟩
  , ⟨0x0A004, 1, 0x0, 1, 0x0, 5, 4, .rw, 0x0, true, .any⟩
  , ⟨0x0A004, 1, 0x0, 1, 0x0, 6, 6, .rw, 0x0, true, .any⟩
  , ⟨0x0A004, 1, 0x0, 1, 0x0, 7, 7, .rw, 0x0, true, .any⟩
  , ⟨0x0A004, 1, 0x0, 1, 0x0, 15, 8, .rw, 0x0, true, .any⟩
  , ⟨0x0A008, 1, 0x0, 1, 0x0, 2, 0, .ro, 0x0, false, .any⟩
  , ⟨0x0A008, 1, 0x0, 1, 0x0, 3, 3, .ro, 0x0, false, .any⟩
  , ⟨0x0A008, 1, 0x0, 1, 0x0, 4, 4, .ro, 0x0, false, .any⟩
  , ⟨0x0A008, 1, 0x0, 1, 0x0, 8, 8, .rw1c, 0x0, false, .any⟩
  , ⟨0x0A008, 1, 0x0, 1, 0x0, 9, 9, .rw1c, 0x0, false, .any⟩
  , ⟨0x0A00C, 1, 0x0, 1, 0x0, 31, 0, .ro, 0x0, false, .any⟩
  , ⟨0x0A010, 1, 0x0, 1, 0x0, 31, 0, .ro, 0x0, false, .any⟩
  , ⟨0x0A014, 1, 0x0, 1, 0x0, 31, 0, .ro, 0x0, false, .any⟩
  , ⟨0x0A018, 1, 0x0, 1, 0x0, 15, 0, .rw, 0xE10, true, .any⟩
  , ⟨0x0A01C, 1, 0x0, 1, 0x0, 15, 0, .rw, 0x3E8, true, .any⟩
  , ⟨0x0A01C, 1, 0x0, 1, 0x0, 23, 16, .ro, 0x0, false, .any⟩
  , ⟨0x0A020, 1, 0x0, 1, 0x0, 15, 0, .rw, 0x0, true, .any⟩
  , ⟨0x0A024, 1, 0x0, 1, 0x0, 15, 0, .ro, 0x0, false, .any⟩
  , ⟨0x0A024, 1, 0x0, 1, 0x0, 31, 16, .ro, 0x0, false, .any⟩
  , ⟨0x0A028, 1, 0x0, 1, 0x0, 5, 0, .rw, 0x1E, true, (.range 4 30)⟩
  , ⟨0x0A028, 1, 0x0, 1, 0x0, 13, 8, .rw, 0x1C, true, .any⟩
  , ⟨0x0A028, 1, 0x0, 1, 0x0, 31, 16, .rw, 0x0, true, .any⟩
  , ⟨0x0A02C, 1, 0x0, 1, 0x0, 31, 0, .ro, 0x0, false, .any⟩ ]

def regTableSTK1 : List FieldDesc :=
  [ ⟨0x0A030, 1, 0x0, 1, 0x0, 15, 0, .ro, 0x0, false, .any⟩
  , ⟨0x0A034, 1, 0x0, 1, 0x0, 15, 0, .ro, 0x0, false, .any⟩
  , ⟨0x0A034, 1, 0x0, 1, 0x0, 31, 31, .ro, 0x0, false, .any⟩ ]

def regTableFN0 : List FieldDesc :=
  [ ⟨0x06000, 1, 0x0, 1, 0x0, 3, 0, .rw, 0x6, true, (.range 4 6)⟩
  , ⟨0x06000, 1, 0x0, 1, 0x0, 5, 4, .rw, 0x0, true, .any⟩
  , ⟨0x06000, 1, 0x0, 1, 0x0, 6, 6, .wo, 0x0, false, .any⟩
  , ⟨0x06004, 1, 0x0, 1, 0x0, 3, 0, .ro, 0x0, false, .any⟩
  , ⟨0x06004, 1, 0x0, 1, 0x0, 7, 4, .ro, 0x0, false, .any⟩
  , ⟨0x06004, 1, 0x0, 1, 0x0, 8, 8, .ro, 0x0, false, .any⟩
  , ⟨0x06004, 1, 0x0, 1, 0x0, 16, 9, .ro, 0x0, false, .any⟩
  , ⟨0x06004, 1, 0x0, 1, 0x0, 17, 17, .ro, 0x0, false, .any⟩
  , ⟨0x06004, 1, 0x0, 1, 0x0, 18, 18, .ro, 0x0, false, .any⟩
  , ⟨0x06008, 1, 0x0, 1, 0x0, 15, 0, .ro, 0x0, false, .any⟩
  , ⟨0x06008, 1, 0x0, 1, 0x0, 23, 16, .ro, 0x0, false, .any⟩
  , ⟨0x06008, 1, 0x0, 1, 0x0, 24, 24, .rw1c, 0x0, false, .any⟩
  , ⟨0x06008, 1, 0x0, 1, 0x0, 25, 25, .rw1c, 0x0, false, .any⟩
  , ⟨0x06008, 1, 0x0, 1, 0x0, 26, 26, .rw1c, 0x0, false, .any⟩
  , ⟨0x0600C, 1, 0x0, 1, 0x0, 0, 0, .rw, 0x1, true, .any⟩
  , ⟨0x0600C, 1, 0x0, 1, 0x0, 1, 1, .rw, 0x0, false, .any⟩
  , ⟨0x0600C, 1, 0x0, 1, 0x0, 2, 2, .ro, 0x0, false, .any⟩
  , ⟨0x0600C, 1, 0x0, 1, 0x0, 13, 8, .ro, 0x0, false, .any⟩
  , ⟨0x06010, 1, 0x0, 1, 0x0, 0, 0, .rw1c, 0x0, false, .any⟩
  , ⟨0x06010, 1, 0x0, 1, 0x0, 1, 1, .rw1c, 0x0, false, .any⟩
  , ⟨0x06010, 1, 0x0, 1, 0x0, 2, 2, .rw1c, 0x0, false, .any⟩
  , ⟨0x06010, 1, 0x0, 1, 0x0, 3, 3, .rw1c, 0x0, false, .any⟩
  , ⟨0x06010, 1, 0x0, 1, 0x0, 4, 4, .ro, 0x0, false, .any⟩
  , ⟨0x06014, 1, 0x0, 1, 0x0, 0, 0, .rw1c, 0x0, false, .any⟩ ]

def regTableFN1 : List FieldDesc :=
  [ ⟨0x06800, 128, 0x10, 1, 0x0, 10, 0, .ro, 0x0, false, .any⟩
  , ⟨0x06800, 128, 0x10, 1, 0x0, 26, 16, .ro, 0x0, false, .any⟩
  , ⟨0x06804, 128, 0x10, 1, 0x0, 0, 0, .ro, 0x0, false, .any⟩
  , ⟨0x06804, 128, 0x10, 1, 0x0, 1, 1, .rw, 0x0, true, .any⟩
  , ⟨0x06804, 128, 0x10, 1, 0x0, 2, 2, .ro, 0x0, false, .any⟩
  , ⟨0x06804, 128, 0x10, 1, 0x0, 28, 16, .rw, 0x0, true, (.range 0 4096)⟩
  , ⟨0x06808, 128, 0x10, 1, 0x0, 10, 0, .ro, 0x0, false, .any⟩
  , ⟨0x06808, 128, 0x10, 1, 0x0, 28, 16, .ro, 0x0, false, .any⟩ ]

def regTableQOS0 : List FieldDesc :=
  [ ⟨0x08000, 1, 0x0, 1, 0x0, 0, 0, .rw, 0x1, true, .any⟩
  , ⟨0x08004, 1, 0x0, 1, 0x0, 15, 0, .ro, 0x0, false, .any⟩
  , ⟨0x08004, 1, 0x0, 1, 0x0, 31, 16, .ro, 0x0, false, .any⟩
  , ⟨0x08008, 1, 0x0, 1, 0x0, 15, 0, .ro, 0x0, false, .any⟩
  , ⟨0x08008, 1, 0x0, 1, 0x0, 31, 16, .ro, 0x0, false, .any⟩
  , ⟨0x0800C, 1, 0x0, 1, 0x0, 8, 0, .ro, 0x100, false, .any⟩
  , ⟨0x0800C, 1, 0x0, 1, 0x0, 16, 16, .rw1c, 0x0, false, .any⟩
  , ⟨0x0800C, 1, 0x0, 1, 0x0, 17, 17, .ro, 0x0, false, .any⟩
  , ⟨0x08010, 1, 0x0, 1, 0x0, 0, 0, .rw, 0x0, true, .any⟩
  , ⟨0x08010, 1, 0x0, 1, 0x0, 7, 1, .rw, 0x1D, true, .any⟩
  , ⟨0x08800, 128, 0x10, 1, 0x0, 15, 0, .rw, 0x0, true, .any⟩
  , ⟨0x08800, 128, 0x10, 1, 0x0, 31, 16, .rw, 0x0, true, .any⟩
  , ⟨0x08804, 128, 0x10, 1, 0x0, 15, 0, .rw, 0x0, true, .any⟩
  , ⟨0x08804, 128, 0x10, 1, 0x0, 23, 16, .rw, 0x10, true, .any⟩
  , ⟨0x08804, 128, 0x10, 1, 0x0, 25, 24, .rw, 0x1, true, (.range 0 2)⟩
  , ⟨0x08808, 128, 0x10, 1, 0x0, 23, 0, .ro, 0x0, false, .any⟩
  , ⟨0x0880C, 128, 0x10, 1, 0x0, 23, 0, .ro, 0x0, false, .any⟩ ]

def regTableING0 : List FieldDesc :=
  [ ⟨0x0C000, 1, 0x0, 1, 0x0, 3, 0, .rw, 0x0, true, .any⟩
  , ⟨0x0C000, 1, 0x0, 1, 0x0, 5, 4, .rw, 0x0, true, .any⟩
  , ⟨0x0C000, 1, 0x0, 1, 0x0, 31, 16, .rw, 0x7D0, true, .any⟩
  , ⟨0x0C004, 1, 0x0, 1, 0x0, 0, 0, .rw1c, 0x0, false, .any⟩
  , ⟨0x0C004, 1, 0x0, 1, 0x0, 28, 16, .ro, 0x0, false, .any⟩
  , ⟨0x0C100, 4, 0x40, 1, 0x0, 1, 0, .rw, 0x0, true, .any⟩
  , ⟨0x0C100, 4, 0x40, 1, 0x0, 3, 2, .rw, 0x0, true, (.range 0 2)⟩
  , ⟨0x0C100, 4, 0x40, 1, 0x0, 4, 4, .rw, 0x1, true, .any⟩
  , ⟨0x0C100, 4, 0x40, 1, 0x0, 5, 5, .rw, 0x1, true, .any⟩
  , ⟨0x0C100, 4, 0x40, 1, 0x0, 6, 6, .rw, 0x1, true, .any⟩
  , ⟨0x0C100, 4, 0x40, 1, 0x0, 29, 16, .rw, 0x5F2, true, (.range 1522 9216)⟩
  , ⟨0x0C104, 4, 0x40, 1, 0x0, 31, 0, .rw, 0x0, true, .any⟩
  , ⟨0x0C108, 4, 0x40, 1, 0x0, 15, 0, .rw, 0x0, true, .any⟩
  , ⟨0x0C10C, 4, 0x40, 1, 0x0, 31, 0, .rw, 0x0, true, .any⟩
  , ⟨0x0C110, 4, 0x40, 1, 0x0, 31, 0, .rw, 0x0, true, .any⟩
  , ⟨0x0C114, 4, 0x40, 1, 0x0, 31, 0, .rw, 0x0, true, .any⟩
  , ⟨0x0C118, 4, 0x40, 1, 0x0, 31, 0, .rw, 0x0, true, .any⟩
  , ⟨0x0C11C, 4, 0x40, 1, 0x0, 31, 0, .rw, 0x0, true, .any⟩
  , ⟨0x0C120, 4, 0x40, 1, 0x0, 0, 0, .ro, 0x0, false, .any⟩
  , ⟨0x0C120, 4, 0x40, 1, 0x0, 1, 1, .ro, 0x0, false, .any⟩
  , ⟨0x0C120, 4, 0x40, 1, 0x0, 2, 2, .ro, 0x0, false, .any⟩
  , ⟨0x0C120, 4, 0x40, 1, 0x0, 3, 3, .ro, 0x0, false, .any⟩
  , ⟨0x0C120, 4, 0x40, 1, 0x0, 4, 4, .ro, 0x0, false, .any⟩
  , ⟨0x0C120, 4, 0x40, 1, 0x0, 5, 5, .ro, 0x0, false, .any⟩ ]

def regTableING1 : List FieldDesc :=
  [ ⟨0x0C120, 4, 0x40, 1, 0x0, 31, 16, .ro, 0x0, false, .any⟩
  , ⟨0x0C124, 4, 0x40, 1, 0x0, 8, 0, .ro, 0x0, false, .any⟩
  , ⟨0x0C124, 4, 0x40, 1, 0x0, 24, 16, .rw, 0xC0, true, (.range 64 240)⟩ ]

def regTablePNC0 : List FieldDesc :=
  [ ⟨0x10000, 1, 0x0, 1, 0x0, 3, 0, .rw, 0xA, true, (.range 8 14)⟩
  , ⟨0x10000, 1, 0x0, 1, 0x0, 4, 4, .rw, 0x1, true, .any⟩
  , ⟨0x10000, 1, 0x0, 1, 0x0, 5, 5, .rw, 0x0, true, .any⟩
  , ⟨0x10004, 1, 0x0, 1, 0x0, 0, 0, .rw1c, 0x0, false, .any⟩
  , ⟨0x10004, 1, 0x0, 1, 0x0, 1, 1, .ro, 0x0, false, .any⟩
  , ⟨0x10004, 1, 0x0, 1, 0x0, 3, 2, .ro, 0x0, false, .any⟩
  , ⟨0x10004, 1, 0x0, 1, 0x0, 5, 4, .ro, 0x2, false, .any⟩
  , ⟨0x10004, 1, 0x0, 1, 0x0, 6, 6, .ro, 0x0, false, .any⟩
  , ⟨0x10004, 1, 0x0, 1, 0x0, 7, 7, .ro, 0x0, false, .any⟩
  , ⟨0x10004, 1, 0x0, 1, 0x0, 15, 8, .ro, 0x0, false, .any⟩
  , ⟨0x10008, 1, 0x0, 1, 0x0, 31, 0, .ro, 0x0, false, .any⟩
  , ⟨0x1000C, 1, 0x0, 1, 0x0, 31, 0, .ro, 0x0, false, .any⟩
  , ⟨0x10010, 1, 0x0, 1, 0x0, 31, 0, .ro, 0x0, false, .any⟩
  , ⟨0x10014, 1, 0x0, 1, 0x0, 31, 0, .ro, 0x0, false, .any⟩
  , ⟨0x10018, 1, 0x0, 1, 0x0, 15, 0, .ro, 0x0, false, .any⟩
  , ⟨0x10018, 1, 0x0, 1, 0x0, 31, 16, .ro, 0x0, false, .any⟩
  , ⟨0x1001C, 1, 0x0, 1, 0x0, 16, 0, .ro, 0x0, false, .any⟩
  , ⟨0x10020, 1, 0x0, 1, 0x0, 8, 0, .ro, 0x1FF, false, .any⟩
  , ⟨0x10024, 1, 0x0, 1, 0x0, 8, 0, .ro, 0x1FF, false, .any⟩
  , ⟨0x10020, 1, 0x0, 1, 0x0, 31, 16, .ro, 0x0, false, .any⟩
  , ⟨0x10024, 1, 0x0, 1, 0x0, 31, 16, .ro, 0x0, false, .any⟩
  , ⟨0x10028, 1, 0x0, 1, 0x0, 12, 0, .ro, 0x0, false, .any⟩ ]

def regTableSGN0 : List FieldDesc :=
  [ ⟨0x2F000, 1, 0x0, 1, 0x0, 1, 0, .rw, 0x1, true, (.range 1 3)⟩
  , ⟨0x2F000, 1, 0x0, 1, 0x0, 15, 8, .rw, 0x0, true, .any⟩
  , ⟨0x2F004, 1, 0x0, 1, 0x0, 0, 0, .rw1c, 0x0, false, .any⟩
  , ⟨0x2F004, 1, 0x0, 1, 0x0, 1, 1, .ro, 0x0, false, .any⟩
  , ⟨0x2F004, 1, 0x0, 1, 0x0, 31, 16, .ro, 0x0, false, .any⟩
  , ⟨0x2F008, 1, 0x0, 1, 0x0, 31, 0, .ro, 0x0, false, .any⟩
  , ⟨0x2F00C, 1, 0x0, 1, 0x0, 31, 0, .ro, 0x0, false, .any⟩
  , ⟨0x2F010, 1, 0x0, 1, 0x0, 31, 0, .ro, 0x0, false, .any⟩
  , ⟨0x2F014, 1, 0x0, 1, 0x0, 31, 0, .ro, 0x0, false, .any⟩
  , ⟨0x2F100, 25, 0x4, 1, 0x0, 31, 0, .ro, 0x0, false, .any⟩ ]

def regTableMED0 : List FieldDesc :=
  [ ⟨0x12000, 16, 0x1000, 1, 0x0, 1, 0, .rw, 0x0, true, (.range 0 2)⟩
  , ⟨0x12000, 16, 0x1000, 1, 0x0, 5, 2, .rw, 0x5, true, (.range 0 5)⟩
  , ⟨0x12000, 16, 0x1000, 1, 0x0, 6, 6, .rw, 0x1, true, .any⟩
  , ⟨0x12004, 16, 0x1000, 1, 0x0, 15, 0, .rw, 0xFFFF, true, .any⟩
  , ⟨0x12008, 16, 0x1000, 1, 0x0, 3, 0, .ro, 0xF, false, .any⟩
  , ⟨0x12008, 16, 0x1000, 1, 0x0, 4, 4, .ro, 0x0, false, .any⟩
  , ⟨0x12008, 16, 0x1000, 1, 0x0, 5, 5, .ro, 0x0, false, .any⟩
  , ⟨0x12008, 16, 0x1000, 1, 0x0, 6, 6, .rw1c, 0x0, false, .any⟩
  , ⟨0x12008, 16, 0x1000, 1, 0x0, 23, 8, .ro, 0x0, false, .any⟩
  , ⟨0x1200C, 16, 0x1000, 1, 0x0, 15, 0, .ro, 0x0, false, .any⟩
  , ⟨0x1200C, 16, 0x1000, 1, 0x0, 16, 16, .rw1s, 0x0, true, .any⟩
  , ⟨0x12010, 16, 0x1000, 1, 0x0, 3, 0, .ro, 0x0, false, .any⟩
  , ⟨0x12010, 16, 0x1000, 1, 0x0, 15, 8, .ro, 0x0, false, .any⟩
  , ⟨0x12014, 16, 0x1000, 1, 0x0, 7, 0, .rw, 0x0, true, .any⟩
  , ⟨0x12014, 16, 0x1000, 1, 0x0, 15, 8, .rw, 0x1, true, (.range 1 50)⟩
  , ⟨0x12014, 16, 0x1000, 1, 0x0, 23, 16, .rw, 0x4, true, (.range 2 16)⟩
  , ⟨0x12018, 16, 0x1000, 1, 0x0, 9, 0, .rw, 0x12C, true, .any⟩
  , ⟨0x12018, 16, 0x1000, 1, 0x0, 13, 10, .rw, 0xC, true, .any⟩
  , ⟨0x12018, 16, 0x1000, 1, 0x0, 25, 16, .rw, 0xC8, true, .any⟩
  , ⟨0x12018, 16, 0x1000, 1, 0x0, 28, 26, .rw, 0x4, true, .any⟩
  , ⟨0x1201C, 16, 0x1000, 1, 0x0, 7, 0, .rw, 0x8, true, (.range 2 40)⟩
  , ⟨0x12020, 16, 0x1000, 1, 0x0, 31, 0, .ro, 0x0, false, .any⟩
  , ⟨0x12024, 16, 0x1000, 1, 0x0, 31, 0, .ro, 0x0, false, .any⟩
  , ⟨0x12028, 16, 0x1000, 1, 0x0, 31, 0, .ro, 0x0, false, .any⟩ ]

def regTableMED1 : List FieldDesc :=
  [ ⟨0x1202C, 16, 0x1000, 1, 0x0, 31, 0, .ro, 0x0, false, .any⟩ ]

def regTableLDP0 : List FieldDesc :=
  [ ⟨0x22000, 1, 0x0, 1, 0x0, 4, 0, .rw, 0x14, true, (.range 8 20)⟩
  , ⟨0x22000, 1, 0x0, 1, 0x0, 11, 8, .rw, 0x2, true, (.range 0 8)⟩
  , ⟨0x22000, 1, 0x0, 1, 0x0, 16, 16, .rw, 0x1, true, .any⟩
  , ⟨0x22004, 1, 0x0, 1, 0x0, 0, 0, .rw1c, 0x0, false, .any⟩
  , ⟨0x22004, 1, 0x0, 1, 0x0, 1, 1, .ro, 0x0, false, .any⟩
  , ⟨0x22008, 1, 0x0, 1, 0x0, 16, 0, .ro, 0x0, false, .any⟩
  , ⟨0x22008, 1, 0x0, 1, 0x0, 27, 20, .rw, 0x8, true, (.range 1 255)⟩
  , ⟨0x22010, 1, 0x0, 1, 0x0, 31, 0, .ro, 0x0, false, .any⟩
  , ⟨0x22014, 1, 0x0, 1, 0x0, 31, 0, .ro, 0x0, false, .any⟩
  , ⟨0x22018, 1, 0x0, 1, 0x0, 31, 0, .ro, 0x0, false, .any⟩
  , ⟨0x2201C, 1, 0x0, 1, 0x0, 31, 0, .ro, 0x0, false, .any⟩
  , ⟨0x22020, 1, 0x0, 1, 0x0, 7, 0, .rw, 0x0, false, .any⟩
  , ⟨0x22020, 1, 0x0, 1, 0x0, 10, 8, .rw, 0x0, false, .any⟩
  , ⟨0x22024, 1, 0x0, 1, 0x0, 31, 0, .ro, 0x0, false, .any⟩
  , ⟨0x22028, 1, 0x0, 1, 0x0, 31, 0, .ro, 0x0, false, .any⟩
  , ⟨0x2202C, 1, 0x0, 1, 0x0, 31, 0, .ro, 0x0, false, .any⟩
  , ⟨0x22030, 1, 0x0, 1, 0x0, 31, 0, .ro, 0x0, false, .any⟩
  , ⟨0x22040, 1, 0x0, 1, 0x0, 31, 0, .rw, 0x4FC02FE, true, .any⟩
  , ⟨0x22044, 1, 0x0, 1, 0x0, 31, 0, .rw, 0x8F806FA, true, .any⟩
  , ⟨0x22100, 64, 0x8, 1, 0x0, 7, 0, .rw, 0x0, true, .any⟩
  , ⟨0x22100, 64, 0x8, 1, 0x0, 10, 8, .rw, 0x0, true, .any⟩
  , ⟨0x22100, 64, 0x8, 1, 0x0, 14, 11, .rw, 0x0, true, (.range 0 14)⟩
  , ⟨0x22100, 64, 0x8, 1, 0x0, 15, 15, .rw, 0x0, true, .any⟩
  , ⟨0x22104, 64, 0x8, 1, 0x0, 7, 0, .rw, 0x0, true, (.signed8 64)⟩ ]

def regTableFTL0 : List FieldDesc :=
  [ ⟨0x23000, 1, 0x0, 1, 0x0, 4, 0, .rw, 0x0, false, (.range 4 31)⟩
  , ⟨0x23000, 1, 0x0, 1, 0x0, 11, 8, .rw, 0x0, false, (.range 4 8)⟩
  , ⟨0x23004, 1, 0x0, 1, 0x0, 0, 0, .rw1c, 0x0, false, .any⟩
  , ⟨0x23004, 1, 0x0, 1, 0x0, 2, 1, .ro, 0x0, false, .any⟩
  , ⟨0x23004, 1, 0x0, 1, 0x0, 3, 3, .ro, 0x0, false, .any⟩
  , ⟨0x23004, 1, 0x0, 1, 0x0, 4, 4, .ro, 0x0, false, .any⟩
  , ⟨0x23004, 1, 0x0, 1, 0x0, 5, 5, .ro, 0x0, false, .any⟩
  , ⟨0x23004, 1, 0x0, 1, 0x0, 6, 6, .ro, 0x0, false, .any⟩
  , ⟨0x23008, 1, 0x0, 1, 0x0, 7, 0, .rw, 0xC, true, .any⟩
  , ⟨0x23008, 1, 0x0, 1, 0x0, 15, 8, .rw, 0x6, true, .any⟩
  , ⟨0x23008, 1, 0x0, 1, 0x0, 23, 16, .rw, 0x3, true, .any⟩
  , ⟨0x23008, 1, 0x0, 1, 0x0, 24, 24, .rw, 0x1, true, .any⟩
  , ⟨0x2300C, 1, 0x0, 1, 0x0, 15, 0, .ro, 0x0, false, .any⟩
  , ⟨0x2300C, 1, 0x0, 1, 0x0, 21, 16, .ro, 0x0, false, .any⟩
  , ⟨0x23010, 1, 0x0, 1, 0x0, 7, 0, .rw, 0xA, true, (.range 2 50)⟩
  , ⟨0x23010, 1, 0x0, 1, 0x0, 8, 8, .rw, 0x1, true, .any⟩
  , ⟨0x23014, 1, 0x0, 1, 0x0, 6, 0, .rw, 0x46, true, (.range 50 90)⟩
  , ⟨0x23014, 1, 0x0, 1, 0x0, 31, 16, .ro, 0x0, false, .any⟩
  , ⟨0x23018, 1, 0x0, 1, 0x0, 3, 0, .rw, 0x7, true, (.range 3 14)⟩
  , ⟨0x23018, 1, 0x0, 1, 0x0, 17, 8, .ro, 0x0, false, .any⟩
  , ⟨0x2301C, 1, 0x0, 1, 0x0, 15, 0, .rw, 0x64, true, (.range 10 1000)⟩
  , ⟨0x23020, 1, 0x0, 1, 0x0, 7, 0, .ro, 0x0, false, .any⟩
  , ⟨0x23020, 1, 0x0, 1, 0x0, 15, 8, .rw, 0xA, true, (.range 1 50)⟩
  , ⟨0x23024, 1, 0x0, 1, 0x0, 15, 0, .ro, 0x0, false, .any⟩ ]

def regTableFTL1 : List FieldDesc :=
  [ ⟨0x23028, 1, 0x0, 1, 0x0, 31, 0, .ro, 0x0, false, .any⟩
  , ⟨0x2302C, 1, 0x0, 1, 0x0, 31, 0, .ro, 0x0, false, .any⟩
  , ⟨0x23030, 1, 0x0, 1, 0x0, 31, 0, .ro, 0x0, false, .any⟩
  , ⟨0x23034, 1, 0x0, 1, 0x0, 31, 0, .ro, 0x0, false, .any⟩ ]

def regTableNIB0 : List FieldDesc :=
  [ ⟨0x24000, 4, 0x40, 1, 0x0, 7, 0, .rw, 0xFF, true, .any⟩
  , ⟨0x24004, 4, 0x40, 1, 0x0, 15, 0, .ro, 0x0, false, .any⟩
  , ⟨0x24004, 4, 0x40, 1, 0x0, 31, 16, .ro, 0x0, false, .any⟩
  , ⟨0x25000, 32, 0x20, 1, 0x0, 2, 0, .ro, 0x0, false, .any⟩
  , ⟨0x25000, 32, 0x20, 1, 0x0, 24, 16, .ro, 0x0, false, .any⟩
  , ⟨0x25004, 32, 0x20, 1, 0x0, 11, 0, .ro, 0x0, false, .any⟩
  , ⟨0x25004, 32, 0x20, 1, 0x0, 31, 16, .ro, 0x0, false, .any⟩
  , ⟨0x25008, 32, 0x20, 1, 0x0, 15, 0, .ro, 0x0, false, .any⟩
  , ⟨0x25008, 32, 0x20, 1, 0x0, 31, 16, .ro, 0x0, false, .any⟩
  , ⟨0x2500C, 32, 0x20, 1, 0x0, 15, 0, .ro, 0x0, false, .any⟩
  , ⟨0x25010, 32, 0x20, 1, 0x0, 8, 0, .ro, 0x0, false, .any⟩
  , ⟨0x25010, 32, 0x20, 1, 0x0, 21, 16, .ro, 0x0, false, .any⟩ ]

def regTableDCT0 : List FieldDesc :=
  [ ⟨0x2C000, 1, 0x0, 1, 0x0, 0, 0, .rw, 0x1, true, .any⟩
  , ⟨0x2C000, 1, 0x0, 1, 0x0, 15, 8, .rw, 0x32, true, (.range 1 255)⟩
  , ⟨0x2C004, 1, 0x0, 1, 0x0, 0, 0, .rw1c, 0x0, false, .any⟩
  , ⟨0x2C004, 1, 0x0, 1, 0x0, 1, 1, .ro, 0x0, false, .any⟩
  , ⟨0x2C004, 1, 0x0, 1, 0x0, 24, 16, .ro, 0x0, false, .any⟩
  , ⟨0x2C008, 1, 0x0, 1, 0x0, 20, 0, .ro, 0x0, false, .any⟩
  , ⟨0x2C008, 1, 0x0, 1, 0x0, 29, 24, .ro, 0x0, false, .any⟩
  , ⟨0x2C00C, 1, 0x0, 1, 0x0, 16, 0, .ro, 0x0, false, .any⟩
  , ⟨0x2C010, 1, 0x0, 1, 0x0, 20, 0, .ro, 0x0, false, .any⟩
  , ⟨0x2C010, 1, 0x0, 1, 0x0, 31, 23, .ro, 0x0, false, .any⟩
  , ⟨0x2C014, 1, 0x0, 1, 0x0, 8, 0, .ro, 0x0, false, .any⟩
  , ⟨0x2C018, 1, 0x0, 1, 0x0, 7, 0, .ro, 0x0, false, .any⟩
  , ⟨0x2C018, 1, 0x0, 1, 0x0, 14, 8, .ro, 0x0, false, .any⟩
  , ⟨0x2C018, 1, 0x0, 1, 0x0, 27, 16, .ro, 0x0, false, .any⟩
  , ⟨0x2C018, 1, 0x0, 1, 0x0, 31, 31, .rw1c, 0x0, false, .any⟩
  , ⟨0x2C01C, 1, 0x0, 1, 0x0, 31, 0, .ro, 0x0, false, .any⟩
  , ⟨0x2C020, 1, 0x0, 1, 0x0, 31, 0, .ro, 0x0, false, .any⟩ ]

def regTableDIG0 : List FieldDesc :=
  [ ⟨0x2D000, 1, 0x0, 1, 0x0, 4, 0, .ro, 0x10, false, .any⟩
  , ⟨0x2D004, 1, 0x0, 1, 0x0, 8, 0, .ro, 0x0, false, .any⟩
  , ⟨0x2D004, 1, 0x0, 1, 0x0, 24, 16, .ro, 0x0, false, .any⟩
  , ⟨0x2D008, 1, 0x0, 1, 0x0, 31, 0, .ro, 0x0, false, .any⟩
  , ⟨0x2D00C, 1, 0x0, 1, 0x0, 31, 0, .ro, 0x0, false, .any⟩
  , ⟨0x2D010, 1, 0x0, 1, 0x0, 31, 0, .ro, 0x0, false, .any⟩
  , ⟨0x2D020, 1, 0x0, 1, 0x0, 31, 0, .rw, 0x0, false, .any⟩
  , ⟨0x2D024, 1, 0x0, 1, 0x0, 31, 0, .rw, 0x0, false, .any⟩
  , ⟨0x2D028, 1, 0x0, 1, 0x0, 2, 0, .wo, 0x0, false, .any⟩
  , ⟨0x2D028, 1, 0x0, 1, 0x0, 3, 3, .wo, 0x0, false, .any⟩
  , ⟨0x2D028, 1, 0x0, 1, 0x0, 4, 4, .wo, 0x0, false, .any⟩
  , ⟨0x2D028, 1, 0x0, 1, 0x0, 9, 5, .wo, 0x0, false, .any⟩
  , ⟨0x2D028, 1, 0x0, 1, 0x0, 25, 16, .wo, 0x0, false, .any⟩
  , ⟨0x2D02C, 1, 0x0, 1, 0x0, 31, 0, .wo, 0x0, false, .any⟩
  , ⟨0x2D030, 1, 0x0, 1, 0x0, 2, 0, .rw, 0x0, false, (.range 0 4)⟩
  , ⟨0x2D034, 1, 0x0, 1, 0x0, 31, 0, .wo, 0x0, false, .any⟩
  , ⟨0x2D038, 1, 0x0, 1, 0x0, 0, 0, .wo, 0x0, false, .any⟩
  , ⟨0x2D03C, 1, 0x0, 1, 0x0, 0, 0, .ro, 0x0, false, .any⟩
  , ⟨0x2D03C, 1, 0x0, 1, 0x0, 1, 1, .rw1c, 0x0, false, .any⟩
  , ⟨0x2D03C, 1, 0x0, 1, 0x0, 2, 2, .rw1c, 0x0, false, .any⟩
  , ⟨0x2D03C, 1, 0x0, 1, 0x0, 3, 3, .rw1c, 0x0, false, .any⟩
  , ⟨0x2D03C, 1, 0x0, 1, 0x0, 4, 4, .rw1c, 0x0, false, .any⟩
  , ⟨0x2D03C, 1, 0x0, 1, 0x0, 5, 5, .ro, 0x0, false, .any⟩
  , ⟨0x2D03C, 1, 0x0, 1, 0x0, 6, 6, .ro, 0x0, false, .any⟩ ]

def regTableDIG1 : List FieldDesc :=
  [ ⟨0x2D03C, 1, 0x0, 1, 0x0, 7, 7, .rw1c, 0x0, false, .any⟩
  , ⟨0x2D040, 16, 0x4, 1, 0x0, 31, 0, .wo, 0x0, false, .any⟩
  , ⟨0x2D080, 16, 0x4, 1, 0x0, 31, 0, .ro, 0x0, false, .any⟩
  , ⟨0x2D0C0, 1, 0x0, 1, 0x0, 31, 0, .ro, 0x0, false, .any⟩
  , ⟨0x2D0C4, 1, 0x0, 1, 0x0, 31, 0, .ro, 0x0, false, .any⟩ ]

def regTableCIP0 : List FieldDesc :=
  [ ⟨0x2E000, 1, 0x0, 1, 0x0, 0, 0, .rw, 0x1, true, .any⟩
  , ⟨0x2E004, 1, 0x0, 1, 0x0, 3, 0, .ro, 0x0, false, .any⟩
  , ⟨0x2E004, 1, 0x0, 1, 0x0, 4, 4, .ro, 0x0, false, .any⟩
  , ⟨0x2E004, 1, 0x0, 1, 0x0, 5, 5, .ro, 0x0, false, .any⟩
  , ⟨0x2E008, 1, 0x0, 1, 0x0, 9, 0, .rw, 0x0, false, .any⟩
  , ⟨0x2E00C, 1, 0x0, 1, 0x0, 0, 0, .ro, 0x0, false, .any⟩
  , ⟨0x2E00C, 1, 0x0, 1, 0x0, 4, 1, .ro, 0x0, false, .any⟩
  , ⟨0x2E00C, 1, 0x0, 1, 0x0, 11, 5, .ro, 0x0, false, .any⟩
  , ⟨0x2E00C, 1, 0x0, 1, 0x0, 12, 12, .ro, 0x0, false, .any⟩
  , ⟨0x2E00C, 1, 0x0, 1, 0x0, 23, 16, .ro, 0x0, false, .any⟩
  , ⟨0x2E010, 1, 0x0, 1, 0x0, 9, 0, .wo, 0x0, false, .any⟩
  , ⟨0x2E010, 1, 0x0, 1, 0x0, 31, 31, .wo, 0x0, false, .any⟩
  , ⟨0x2E014, 1, 0x0, 1, 0x0, 10, 0, .ro, 0x0, false, .any⟩
  , ⟨0x2E014, 1, 0x0, 1, 0x0, 22, 16, .ro, 0x0, false, .any⟩
  , ⟨0x2E018, 1, 0x0, 1, 0x0, 31, 0, .ro, 0x0, false, .any⟩
  , ⟨0x2E01C, 1, 0x0, 1, 0x0, 31, 0, .ro, 0x0, false, .any⟩
  , ⟨0x2E020, 1, 0x0, 1, 0x0, 31, 0, .ro, 0x0, false, .any⟩
  , ⟨0x2E024, 1, 0x0, 1, 0x0, 31, 0, .ro, 0x0, false, .any⟩
  , ⟨0x2E100, 17, 0x4, 1, 0x0, 31, 0, .ro, 0x0, false, .any⟩ ]

def regTableCMP0 : List FieldDesc :=
  [ ⟨0x30000, 1, 0x0, 1, 0x0, 0, 0, .rw, 0x0, true, .any⟩
  , ⟨0x30004, 1, 0x0, 1, 0x0, 0, 0, .ro, 0x0, false, .any⟩
  , ⟨0x30004, 1, 0x0, 1, 0x0, 1, 1, .ro, 0x0, false, .any⟩
  , ⟨0x30008, 1, 0x0, 1, 0x0, 2, 0, .ro, 0x0, false, .any⟩
  , ⟨0x30008, 1, 0x0, 1, 0x0, 15, 4, .ro, 0x0, false, .any⟩
  , ⟨0x30008, 1, 0x0, 1, 0x0, 24, 16, .ro, 0x0, false, .any⟩
  , ⟨0x30008, 1, 0x0, 1, 0x0, 31, 31, .rw1c, 0x0, false, .any⟩
  , ⟨0x3000C, 1, 0x0, 1, 0x0, 31, 0, .ro, 0x0, false, .any⟩
  , ⟨0x30010, 1, 0x0, 1, 0x0, 31, 0, .ro, 0x0, false, .any⟩
  , ⟨0x30014, 1, 0x0, 1, 0x0, 31, 0, .ro, 0x0, false, .any⟩
  , ⟨0x30018, 1, 0x0, 1, 0x0, 31, 0, .ro, 0x0, false, .any⟩
  , ⟨0x3001C, 1, 0x0, 1, 0x0, 31, 0, .ro, 0x0, false, .any⟩
  , ⟨0x30020, 1, 0x0, 1, 0x0, 31, 0, .ro, 0x0, false, .any⟩
  , ⟨0x30024, 1, 0x0, 1, 0x0, 31, 0, .ro, 0x0, false, .any⟩
  , ⟨0x30028, 1, 0x0, 1, 0x0, 31, 0, .ro, 0x0, false, .any⟩
  , ⟨0x3002C, 1, 0x0, 1, 0x0, 31, 0, .ro, 0x0, false, .any⟩
  , ⟨0x30030, 1, 0x0, 1, 0x0, 31, 0, .ro, 0x0, false, .any⟩ ]

def regTableSIV0 : List FieldDesc :=
  [ ⟨0x31000, 1, 0x0, 1, 0x0, 0, 0, .rw1c, 0x0, false, .any⟩
  , ⟨0x31000, 1, 0x0, 1, 0x0, 31, 16, .ro, 0x0, false, .any⟩
  , ⟨0x31004, 1, 0x0, 1, 0x0, 0, 0, .rw, 0x1, true, .any⟩
  , ⟨0x31008, 1, 0x0, 1, 0x0, 17, 0, .ro, 0x0, false, .any⟩
  , ⟨0x31008, 1, 0x0, 1, 0x0, 21, 18, .ro, 0x0, false, .any⟩
  , ⟨0x31008, 1, 0x0, 1, 0x0, 31, 31, .rw1c, 0x0, false, .any⟩
  , ⟨0x3100C, 1, 0x0, 1, 0x0, 15, 0, .rw1c, 0x0, false, .any⟩
  , ⟨0x31010, 1, 0x0, 1, 0x0, 14, 0, .ro, 0x0, false, .any⟩
  , ⟨0x31010, 1, 0x0, 1, 0x0, 29, 16, .ro, 0x0, false, .any⟩
  , ⟨0x31040, 16, 0x4, 1, 0x0, 7, 0, .rw, 0x10, true, .any⟩
  , ⟨0x31040, 16, 0x4, 1, 0x0, 14, 8, .rw, 0x0, true, .any⟩
  , ⟨0x31040, 16, 0x4, 1, 0x0, 15, 15, .rw, 0x0, true, .any⟩
  , ⟨0x31040, 16, 0x4, 1, 0x0, 19, 16, .rw, 0x4, true, .holes⟩
  , ⟨0x31040, 16, 0x4, 1, 0x0, 28, 20, .ro, 0x0, false, .any⟩
  , ⟨0x31080, 1, 0x0, 1, 0x0, 31, 0, .rw, 0x0, false, .any⟩
  , ⟨0x31084, 1, 0x0, 1, 0x0, 31, 0, .rw, 0x0, false, .any⟩
  , ⟨0x31088, 1, 0x0, 1, 0x0, 31, 0, .rw, 0x0, false, .any⟩
  , ⟨0x3108C, 1, 0x0, 1, 0x0, 31, 0, .rw, 0x0, false, .any⟩
  , ⟨0x31090, 1, 0x0, 1, 0x0, 31, 0, .rw, 0x0, false, .any⟩
  , ⟨0x31094, 1, 0x0, 1, 0x0, 3, 0, .rw, 0x0, false, .any⟩
  , ⟨0x31094, 1, 0x0, 1, 0x0, 4, 4, .wo, 0x0, false, .any⟩
  , ⟨0x31094, 1, 0x0, 1, 0x0, 5, 5, .wo, 0x0, false, .any⟩
  , ⟨0x31098, 1, 0x0, 1, 0x0, 17, 0, .ro, 0x0, false, .any⟩
  , ⟨0x31098, 1, 0x0, 1, 0x0, 21, 18, .ro, 0x0, false, .any⟩ ]

def regTableSIV1 : List FieldDesc :=
  [ ⟨0x31098, 1, 0x0, 1, 0x0, 22, 22, .ro, 0x0, false, .any⟩
  , ⟨0x31098, 1, 0x0, 1, 0x0, 23, 23, .ro, 0x0, false, .any⟩
  , ⟨0x31098, 1, 0x0, 1, 0x0, 24, 24, .ro, 0x0, false, .any⟩
  , ⟨0x3109C, 1, 0x0, 1, 0x0, 31, 0, .ro, 0x0, false, .any⟩
  , ⟨0x310A0, 1, 0x0, 1, 0x0, 31, 0, .ro, 0x0, false, .any⟩
  , ⟨0x310A4, 1, 0x0, 1, 0x0, 31, 0, .ro, 0x0, false, .any⟩ ]

def regTableDRM0 : List FieldDesc :=
  [ ⟨0x32000, 1, 0x0, 1, 0x0, 1, 0, .rw, 0x0, true, .any⟩
  , ⟨0x32000, 1, 0x0, 1, 0x0, 3, 2, .rw, 0x2, true, (.range 1 3)⟩
  , ⟨0x32000, 1, 0x0, 1, 0x0, 4, 4, .rw, 0x0, true, .any⟩
  , ⟨0x32004, 1, 0x0, 1, 0x0, 1, 0, .wo, 0x0, false, .any⟩
  , ⟨0x32004, 1, 0x0, 1, 0x0, 2, 2, .wo, 0x0, false, .any⟩
  , ⟨0x32008, 1, 0x0, 1, 0x0, 1, 0, .ro, 0x3, false, .any⟩
  , ⟨0x32008, 1, 0x0, 1, 0x0, 2, 2, .ro, 0x0, false, .any⟩
  , ⟨0x32008, 1, 0x0, 1, 0x0, 3, 3, .ro, 0x0, false, .any⟩
  , ⟨0x32008, 1, 0x0, 1, 0x0, 5, 4, .ro, 0x0, false, .any⟩
  , ⟨0x32008, 1, 0x0, 1, 0x0, 6, 6, .rw1c, 0x0, false, .any⟩
  , ⟨0x32008, 1, 0x0, 1, 0x0, 7, 7, .rw1c, 0x0, false, .any⟩
  , ⟨0x32008, 1, 0x0, 1, 0x0, 8, 8, .ro, 0x0, false, .any⟩
  , ⟨0x32008, 1, 0x0, 1, 0x0, 15, 12, .ro, 0x0, false, .any⟩
  , ⟨0x32008, 1, 0x0, 1, 0x0, 23, 16, .ro, 0x0, false, .any⟩
  , ⟨0x3200C, 1, 0x0, 1, 0x0, 1, 0, .ro, 0x0, false, .any⟩
  , ⟨0x3200C, 1, 0x0, 1, 0x0, 2, 2, .ro, 0x0, false, .any⟩
  , ⟨0x3200C, 1, 0x0, 1, 0x0, 15, 8, .ro, 0x0, false, .any⟩
  , ⟨0x32010, 1, 0x0, 1, 0x0, 15, 0, .rw, 0x64, true, (.range 10 10000)⟩
  , ⟨0x32010, 1, 0x0, 1, 0x0, 23, 16, .rw, 0x5, true, (.range 2 20)⟩
  , ⟨0x32014, 1, 0x0, 1, 0x0, 6, 0, .rw, 0x14, true, .any⟩
  , ⟨0x32014, 1, 0x0, 1, 0x0, 14, 8, .rw, 0x1E, true, .any⟩
  , ⟨0x32014, 1, 0x0, 1, 0x0, 22, 16, .rw, 0xA, true, .any⟩
  , ⟨0x32018, 1, 0x0, 1, 0x0, 7, 0, .rw, 0xA, true, (.range 1 255)⟩
  , ⟨0x3201C, 1, 0x0, 1, 0x0, 5, 0, .rw, 0x30, true, (.range 16 60)⟩ ]

def regTableDRM1 : List FieldDesc :=
  [ ⟨0x32020, 1, 0x0, 1, 0x0, 31, 0, .ro, 0x0, false, .any⟩
  , ⟨0x32024, 1, 0x0, 1, 0x0, 31, 0, .ro, 0x0, false, .any⟩
  , ⟨0x32028, 1, 0x0, 1, 0x0, 31, 0, .ro, 0x0, false, .any⟩
  , ⟨0x3202C, 1, 0x0, 1, 0x0, 31, 0, .ro, 0x0, false, .any⟩
  , ⟨0x32030, 1, 0x0, 1, 0x0, 31, 0, .ro, 0x0, false, .any⟩
  , ⟨0x32034, 1, 0x0, 1, 0x0, 31, 0, .ro, 0x0, false, .any⟩
  , ⟨0x32038, 1, 0x0, 1, 0x0, 31, 0, .ro, 0x0, false, .any⟩
  , ⟨0x3203C, 1, 0x0, 1, 0x0, 31, 0, .ro, 0x0, false, .any⟩
  , ⟨0x32040, 1, 0x0, 1, 0x0, 7, 0, .ro, 0x0, false, .any⟩
  , ⟨0x32040, 1, 0x0, 1, 0x0, 9, 8, .ro, 0x0, false, .any⟩
  , ⟨0x32040, 1, 0x0, 1, 0x0, 31, 31, .rw1c, 0x0, false, .any⟩ ]

def regTableINK0 : List FieldDesc :=
  [ ⟨0x34000, 1, 0x0, 1, 0x0, 0, 0, .wo, 0x0, false, .any⟩
  , ⟨0x34004, 1, 0x0, 1, 0x0, 1, 0, .ro, 0x0, false, .any⟩
  , ⟨0x34004, 1, 0x0, 1, 0x0, 2, 2, .rw1c, 0x0, false, .any⟩
  , ⟨0x34004, 1, 0x0, 1, 0x0, 3, 3, .rw1c, 0x0, false, .any⟩
  , ⟨0x34004, 1, 0x0, 1, 0x0, 4, 4, .rw1c, 0x0, false, .any⟩
  , ⟨0x34004, 1, 0x0, 1, 0x0, 5, 5, .rw1c, 0x0, false, .any⟩
  , ⟨0x34004, 1, 0x0, 1, 0x0, 6, 6, .rw1c, 0x0, false, .any⟩
  , ⟨0x34004, 1, 0x0, 1, 0x0, 7, 7, .rw1c, 0x0, false, .any⟩
  , ⟨0x34004, 1, 0x0, 1, 0x0, 8, 8, .rw1c, 0x0, false, .any⟩
  , ⟨0x34004, 1, 0x0, 1, 0x0, 9, 9, .rw1c, 0x0, false, .any⟩
  , ⟨0x34004, 1, 0x0, 1, 0x0, 10, 10, .ro, 0x0, false, .any⟩
  , ⟨0x34004, 1, 0x0, 1, 0x0, 11, 11, .ro, 0x0, false, .any⟩
  , ⟨0x34004, 1, 0x0, 1, 0x0, 12, 12, .ro, 0x0, false, .any⟩
  , ⟨0x34004, 1, 0x0, 1, 0x0, 20, 16, .ro, 0x0, false, .any⟩
  , ⟨0x34008, 1, 0x0, 1, 0x0, 23, 0, .rw, 0x0, false, .any⟩
  , ⟨0x3400C, 1, 0x0, 1, 0x0, 1, 0, .wo, 0x0, false, .any⟩
  , ⟨0x34010, 2, 0x4, 1, 0x0, 6, 0, .ro, 0x0, false, .any⟩
  , ⟨0x34010, 2, 0x4, 1, 0x0, 12, 8, .ro, 0x0, false, .any⟩
  , ⟨0x34018, 1, 0x0, 1, 0x0, 31, 0, .ro, 0x0, false, .any⟩
  , ⟨0x3401C, 1, 0x0, 1, 0x0, 31, 0, .ro, 0x0, false, .any⟩
  , ⟨0x34020, 1, 0x0, 1, 0x0, 15, 0, .ro, 0x0, false, .any⟩
  , ⟨0x34024, 1, 0x0, 1, 0x0, 31, 0, .ro, 0x0, false, .any⟩
  , ⟨0x34100, 64, 0x4, 1, 0x0, 31, 0, .rw, 0x0, false, .any⟩
  , ⟨0x34800, 1, 0x0, 1, 0x0, 15, 0, .ro, 0x0, false, .any⟩ ]

def regTableFWU0 : List FieldDesc :=
  [ ⟨0x36000, 1, 0x0, 1, 0x0, 2, 0, .ro, 0x0, false, .any⟩
  , ⟨0x36000, 1, 0x0, 1, 0x0, 3, 3, .ro, 0x0, false, .any⟩
  , ⟨0x36000, 1, 0x0, 1, 0x0, 5, 4, .ro, 0x1, false, .any⟩
  , ⟨0x36000, 1, 0x0, 1, 0x0, 15, 8, .ro, 0x0, false, .any⟩
  , ⟨0x36004, 1, 0x0, 1, 0x0, 31, 0, .ro, 0x0, false, .any⟩
  , ⟨0x36008, 4, 0x4, 1, 0x0, 31, 0, .ro, 0x0, false, .any⟩
  , ⟨0x36018, 4, 0x4, 1, 0x0, 31, 0, .ro, 0x0, false, .any⟩
  , ⟨0x36028, 1, 0x0, 1, 0x0, 31, 0, .ro, 0x0, false, .any⟩
  , ⟨0x3602C, 1, 0x0, 1, 0x0, 15, 0, .ro, 0x0, false, .any⟩
  , ⟨0x3602C, 1, 0x0, 1, 0x0, 31, 16, .ro, 0x0, false, .any⟩
  , ⟨0x36030, 1, 0x0, 1, 0x0, 15, 0, .ro, 0x0, false, .any⟩
  , ⟨0x36030, 1, 0x0, 1, 0x0, 31, 16, .ro, 0x0, false, .any⟩
  , ⟨0x36034, 1, 0x0, 1, 0x0, 31, 0, .ro, 0x0, false, .any⟩
  , ⟨0x36038, 1, 0x0, 1, 0x0, 31, 0, .ro, 0x0, false, .any⟩ ]

def regTableOXV0 : List FieldDesc :=
  [ ⟨0x35000, 1, 0x0, 1, 0x0, 1, 0, .rw, 0x3, true, .any⟩
  , ⟨0x35000, 1, 0x0, 1, 0x0, 2, 2, .rw, 0x0, true, .any⟩
  , ⟨0x35000, 1, 0x0, 1, 0x0, 3, 3, .rw, 0x0, true, .any⟩
  , ⟨0x35000, 1, 0x0, 1, 0x0, 31, 16, .rw, 0x40, true, (.range 4 65535)⟩
  , ⟨0x35004, 1, 0x0, 1, 0x0, 0, 0, .rw1c, 0x0, false, .any⟩
  , ⟨0x35004, 1, 0x0, 1, 0x0, 31, 16, .ro, 0x0, false, .any⟩
  , ⟨0x35008, 1, 0x0, 1, 0x0, 8, 0, .ro, 0x0, false, .any⟩
  , ⟨0x35008, 1, 0x0, 1, 0x0, 13, 12, .ro, 0x0, false, .any⟩
  , ⟨0x35040, 4, 0x20, 1, 0x0, 0, 0, .ro, 0x0, false, .any⟩
  , ⟨0x35040, 4, 0x20, 1, 0x0, 3, 1, .ro, 0x0, false, .any⟩
  , ⟨0x35040, 4, 0x20, 1, 0x0, 7, 4, .ro, 0x0, false, .any⟩
  , ⟨0x35040, 4, 0x20, 1, 0x0, 15, 8, .ro, 0x0, false, .any⟩
  , ⟨0x35040, 4, 0x20, 1, 0x0, 16, 16, .ro, 0x0, false, .any⟩
  , ⟨0x35040, 4, 0x20, 1, 0x0, 17, 17, .ro, 0x0, false, .any⟩
  , ⟨0x35044, 4, 0x20, 1, 0x0, 8, 0, .ro, 0x0, false, .any⟩
  , ⟨0x35044, 4, 0x20, 1, 0x0, 31, 16, .ro, 0x0, false, .any⟩
  , ⟨0x35048, 4, 0x20, 1, 0x0, 15, 0, .ro, 0x0, false, .any⟩
  , ⟨0x35048, 4, 0x20, 1, 0x0, 31, 16, .ro, 0x0, false, .any⟩
  , ⟨0x3504C, 4, 0x20, 1, 0x0, 15, 0, .ro, 0x0, false, .any⟩
  , ⟨0x3504C, 4, 0x20, 1, 0x0, 31, 16, .ro, 0x0, false, .any⟩
  , ⟨0x35050, 4, 0x20, 1, 0x0, 15, 0, .ro, 0x0, false, .any⟩
  , ⟨0x35050, 4, 0x20, 1, 0x0, 31, 16, .ro, 0x0, false, .any⟩
  , ⟨0x35054, 4, 0x20, 1, 0x0, 15, 0, .ro, 0x0, false, .any⟩
  , ⟨0x35100, 16, 0x8, 1, 0x0, 10, 0, .rw, 0x0, true, .any⟩ ]

def regTableOXV1 : List FieldDesc :=
  [ ⟨0x35100, 16, 0x8, 1, 0x0, 11, 11, .rw, 0x0, true, .any⟩
  , ⟨0x35100, 16, 0x8, 1, 0x0, 12, 12, .rw, 0x0, true, .any⟩
  , ⟨0x35100, 16, 0x8, 1, 0x0, 24, 16, .rw, 0x0, true, .any⟩
  , ⟨0x35104, 16, 0x8, 1, 0x0, 10, 0, .rw, 0x0, true, .any⟩
  , ⟨0x35104, 16, 0x8, 1, 0x0, 15, 15, .ro, 0x0, false, .any⟩
  , ⟨0x35104, 16, 0x8, 1, 0x0, 31, 16, .ro, 0x0, false, .any⟩
  , ⟨0x35200, 1, 0x0, 1, 0x0, 17, 0, .rw, 0x0, false, .any⟩
  , ⟨0x35200, 1, 0x0, 1, 0x0, 26, 18, .rw, 0x0, false, .any⟩
  , ⟨0x35200, 1, 0x0, 1, 0x0, 27, 27, .rw, 0x0, false, .any⟩
  , ⟨0x35200, 1, 0x0, 1, 0x0, 28, 28, .wo, 0x0, false, .any⟩
  , ⟨0x35200, 1, 0x0, 1, 0x0, 29, 29, .ro, 0x0, false, .any⟩
  , ⟨0x35200, 1, 0x0, 1, 0x0, 30, 30, .rw1c, 0x0, false, .any⟩
  , ⟨0x35204, 1, 0x0, 1, 0x0, 31, 0, .rw, 0x0, false, .any⟩ ]

def regTableGLB0 : List FieldDesc :=
  [ ⟨0x00000, 1, 0x0, 1, 0x0, 7, 0, .ro, 0x21, false, .any⟩
  , ⟨0x00000, 1, 0x0, 1, 0x0, 31, 16, .ro, 0x7640, false, .any⟩
  , ⟨0x00004, 1, 0x0, 1, 0x0, 3, 0, .ro, 0x1, false, .any⟩
  , ⟨0x00004, 1, 0x0, 1, 0x0, 7, 4, .ro, 0x1, false, .any⟩
  , ⟨0x00004, 1, 0x0, 1, 0x0, 8, 8, .ro, 0x0, false, .any⟩
  , ⟨0x00004, 1, 0x0, 1, 0x0, 23, 16, .ro, 0x0, false, .any⟩
  , ⟨0x00008, 1, 0x0, 1, 0x0, 0, 0, .rw1c, 0x0, false, .any⟩
  , ⟨0x00008, 1, 0x0, 1, 0x0, 15, 8, .ro, 0x0, false, .any⟩
  , ⟨0x0000C, 1, 0x0, 1, 0x0, 0, 0, .wo, 0x0, false, .any⟩
  , ⟨0x0000C, 1, 0x0, 1, 0x0, 15, 8, .wo, 0x0, false, .any⟩
  , ⟨0x00010, 1, 0x0, 1, 0x0, 7, 0, .ro, 0x1, false, .any⟩
  , ⟨0x00010, 1, 0x0, 1, 0x0, 31, 16, .ro, 0x0, false, .any⟩ ]

def regTableCLK0 : List FieldDesc :=
  [ ⟨0x01000, 1, 0x0, 1, 0x0, 10, 0, .rw, 0x640, true, (.range 400 1600)⟩
  , ⟨0x01004, 1, 0x0, 1, 0x0, 1, 0, .ro, 0x0, false, .any⟩
  , ⟨0x01004, 1, 0x0, 1, 0x0, 2, 2, .ro, 0x0, false, .any⟩
  , ⟨0x01004, 1, 0x0, 1, 0x0, 3, 3, .rw1c, 0x0, false, .any⟩
  , ⟨0x01008, 1, 0x0, 1, 0x0, 31, 0, .ro, 0x0, false, .any⟩
  , ⟨0x01100, 40, 0x4, 1, 0x0, 11, 0, .ro, 0x0, false, .any⟩
  , ⟨0x01100, 40, 0x4, 1, 0x0, 12, 12, .ro, 0x0, false, .any⟩ ]

def regTablePWR0 : List FieldDesc :=
  [ ⟨0x02000, 1, 0x0, 1, 0x0, 3, 0, .rw, 0x2, true, (.range 1 15)⟩
  , ⟨0x02000, 1, 0x0, 1, 0x0, 4, 4, .ro, 0x0, false, .any⟩
  , ⟨0x02004, 1, 0x0, 1, 0x0, 11, 0, .rw, 0x320, true, .any⟩
  , ⟨0x02004, 1, 0x0, 1, 0x0, 27, 16, .rw, 0x3E8, true, .any⟩
  , ⟨0x02008, 1, 0x0, 1, 0x0, 11, 0, .ro, 0x0, false, .any⟩
  , ⟨0x02008, 1, 0x0, 1, 0x0, 12, 12, .ro, 0x0, false, .any⟩
  , ⟨0x0200C, 1, 0x0, 1, 0x0, 15, 0, .ro, 0x0, false, .any⟩
  , ⟨0x0200C, 1, 0x0, 1, 0x0, 31, 16, .ro, 0x0, false, .any⟩
  , ⟨0x02010, 1, 0x0, 1, 0x0, 15, 0, .ro, 0x0, false, .any⟩
  , ⟨0x02014, 1, 0x0, 1, 0x0, 7, 0, .rw, 0x0, true, .any⟩
  , ⟨0x02014, 1, 0x0, 1, 0x0, 8, 8, .rw, 0x1, true, .any⟩
  , ⟨0x02014, 1, 0x0, 1, 0x0, 9, 9, .rw, 0x0, true, .any⟩
  , ⟨0x02014, 1, 0x0, 1, 0x0, 10, 10, .rw, 0x1, true, .any⟩
  , ⟨0x02014, 1, 0x0, 1, 0x0, 18, 16, .ro, 0x0, false, .any⟩
  , ⟨0x02018, 1, 0x0, 1, 0x0, 31, 0, .rw, 0x0, false, .any⟩
  , ⟨0x0201C, 1, 0x0, 1, 0x0, 0, 0, .rw, 0x0, true, .any⟩
  , ⟨0x0201C, 1, 0x0, 1, 0x0, 3, 1, .rw, 0x0, true, .any⟩
  , ⟨0x0201C, 1, 0x0, 1, 0x0, 31, 16, .rw, 0x3C, true, .any⟩
  , ⟨0x02020, 1, 0x0, 1, 0x0, 15, 0, .rw, 0x0, true, .any⟩
  , ⟨0x02020, 1, 0x0, 1, 0x0, 31, 16, .rw, 0x1000, true, (.range 256 32768)⟩
  , ⟨0x02024, 1, 0x0, 1, 0x0, 15, 0, .rw, 0x1F4, true, (.range 1 65535)⟩
  , ⟨0x02028, 1, 0x0, 1, 0x0, 6, 0, .rw, 0x64, true, .any⟩
  , ⟨0x02028, 1, 0x0, 1, 0x0, 14, 8, .rw, 0x69, true, .any⟩
  , ⟨0x02028, 1, 0x0, 1, 0x0, 22, 16, .rw, 0x6E, true, .any⟩ ]

def regTablePWR1 : List FieldDesc :=
  [ ⟨0x02028, 1, 0x0, 1, 0x0, 31, 24, .ro, 0x0, false, .any⟩
  , ⟨0x0202C, 1, 0x0, 1, 0x0, 6, 0, .rw, 0x32, true, (.range 30 80)⟩
  , ⟨0x02030, 1, 0x0, 1, 0x0, 0, 0, .rw1c, 0x0, false, .any⟩
  , ⟨0x02030, 1, 0x0, 1, 0x0, 1, 1, .ro, 0x0, false, .any⟩
  , ⟨0x02030, 1, 0x0, 1, 0x0, 2, 2, .ro, 0x0, false, .any⟩ ]

def regTableMON0 : List FieldDesc :=
  [ ⟨0x03000, 1, 0x0, 1, 0x0, 0, 0, .rw1c, 0x0, false, .any⟩
  , ⟨0x03000, 1, 0x0, 1, 0x0, 1, 1, .ro, 0x0, false, .any⟩
  , ⟨0x03000, 1, 0x0, 1, 0x0, 2, 2, .ro, 0x0, false, .any⟩
  , ⟨0x03000, 1, 0x0, 1, 0x0, 3, 3, .ro, 0x0, false, .any⟩
  , ⟨0x03004, 1, 0x0, 1, 0x0, 11, 0, .ro, 0x0, false, .any⟩
  , ⟨0x03004, 1, 0x0, 1, 0x0, 20, 16, .ro, 0x0, false, .any⟩
  , ⟨0x03100, 24, 0x4, 1, 0x0, 11, 0, .ro, 0x0, false, .any⟩
  , ⟨0x03100, 24, 0x4, 1, 0x0, 12, 12, .ro, 0x0, false, .any⟩
  , ⟨0x03100, 24, 0x4, 1, 0x0, 27, 16, .ro, 0x0, false, .any⟩
  , ⟨0x03200, 32, 0x8, 1, 0x0, 11, 0, .ro, 0x0, false, .any⟩
  , ⟨0x03200, 32, 0x8, 1, 0x0, 12, 12, .ro, 0x0, false, .any⟩
  , ⟨0x03200, 32, 0x8, 1, 0x0, 13, 13, .ro, 0x0, false, .any⟩
  , ⟨0x03200, 32, 0x8, 1, 0x0, 27, 16, .ro, 0xFFF, false, .any⟩
  , ⟨0x03204, 32, 0x8, 1, 0x0, 11, 0, .rw, 0x0, true, .any⟩
  , ⟨0x03204, 32, 0x8, 1, 0x0, 27, 16, .ro, 0x0, false, .any⟩
  , ⟨0x03400, 16, 0x4, 1, 0x0, 15, 0, .ro, 0x0, false, .any⟩
  , ⟨0x03400, 16, 0x4, 1, 0x0, 31, 16, .ro, 0x0, false, .any⟩
  , ⟨0x03500, 8, 0x4, 1, 0x0, 31, 0, .ro, 0x0, false, .any⟩ ]

def regTableEVT0 : List FieldDesc :=
  [ ⟨0x05000, 1, 0x0, 1, 0x0, 0, 0, .rw1c, 0x0, false, .any⟩
  , ⟨0x05000, 1, 0x0, 1, 0x0, 14, 8, .ro, 0x0, false, .any⟩
  , ⟨0x05000, 1, 0x0, 1, 0x0, 31, 16, .ro, 0x0, false, .any⟩
  , ⟨0x05100, 8, 0x10, 1, 0x0, 0, 0, .rw, 0x1, true, .any⟩
  , ⟨0x05100, 8, 0x10, 1, 0x0, 1, 1, .rw, 0x0, true, .any⟩
  , ⟨0x05100, 8, 0x10, 1, 0x0, 15, 8, .rw, 0x14, true, (.range 1 255)⟩
  , ⟨0x05104, 8, 0x10, 1, 0x0, 2, 0, .ro, 0x7, false, .any⟩
  , ⟨0x05104, 8, 0x10, 1, 0x0, 3, 3, .ro, 0x0, false, .any⟩
  , ⟨0x05104, 8, 0x10, 1, 0x0, 31, 16, .ro, 0x0, false, .any⟩
  , ⟨0x05108, 8, 0x10, 1, 0x0, 31, 0, .ro, 0x0, false, .any⟩
  , ⟨0x0510C, 8, 0x10, 1, 0x0, 31, 0, .ro, 0x0, false, .any⟩ ]

def regTableLOG0 : List FieldDesc :=
  [ ⟨0x04000, 1, 0x0, 1, 0x0, 12, 0, .ro, 0x0, false, .any⟩
  , ⟨0x04000, 1, 0x0, 1, 0x0, 13, 13, .ro, 0x0, false, .any⟩
  , ⟨0x04000, 1, 0x0, 1, 0x0, 14, 14, .ro, 0x0, false, .any⟩
  , ⟨0x04004, 1, 0x0, 1, 0x0, 31, 0, .ro, 0x0, false, .any⟩
  , ⟨0x04008, 1, 0x0, 1, 0x0, 0, 0, .wo, 0x0, false, .any⟩
  , ⟨0x04008, 1, 0x0, 1, 0x0, 15, 8, .wo, 0x0, false, .any⟩ ]

/-- The fields of the STK block. -/
def regTableSTK : List FieldDesc := regTableSTK0 ++ regTableSTK1

/-- The fields of the FN block. -/
def regTableFN : List FieldDesc := regTableFN0 ++ regTableFN1

/-- The fields of the QOS block. -/
def regTableQOS : List FieldDesc := regTableQOS0

/-- The fields of the ING block. -/
def regTableING : List FieldDesc := regTableING0 ++ regTableING1

/-- The fields of the PNC block. -/
def regTablePNC : List FieldDesc := regTablePNC0

/-- The fields of the SGN block. -/
def regTableSGN : List FieldDesc := regTableSGN0

/-- The fields of the MED block. -/
def regTableMED : List FieldDesc := regTableMED0 ++ regTableMED1

/-- The fields of the LDP block. LDP_PIN.LEVEL and OFFSET are Stored and given no default: 0, DESIGN CHOICE (notes/assumptions/143). -/
def regTableLDP : List FieldDesc := regTableLDP0

/-- The fields of the FTL block. -/
def regTableFTL : List FieldDesc := regTableFTL0 ++ regTableFTL1

/-- The fields of the NIB block. -/
def regTableNIB : List FieldDesc := regTableNIB0

/-- The fields of the DCT block. -/
def regTableDCT : List FieldDesc := regTableDCT0

/-- The fields of the DIG block. -/
def regTableDIG : List FieldDesc := regTableDIG0 ++ regTableDIG1

/-- The fields of the CIP block. -/
def regTableCIP : List FieldDesc := regTableCIP0

/-- The fields of the CMP block. -/
def regTableCMP : List FieldDesc := regTableCMP0

/-- The fields of the SIV block. -/
def regTableSIV : List FieldDesc := regTableSIV0 ++ regTableSIV1

/-- The fields of the DRM block. -/
def regTableDRM : List FieldDesc := regTableDRM0 ++ regTableDRM1

/-- The fields of the INK block. -/
def regTableINK : List FieldDesc := regTableINK0

/-- The fields of the FWU block. -/
def regTableFWU : List FieldDesc := regTableFWU0

/-- The fields of the OXV block. -/
def regTableOXV : List FieldDesc := regTableOXV0 ++ regTableOXV1

/-- The fields of the GLB block. -/
def regTableGLB : List FieldDesc := regTableGLB0

/-- The fields of the CLK block. -/
def regTableCLK : List FieldDesc := regTableCLK0

/-- The fields of the PWR block. -/
def regTablePWR : List FieldDesc := regTablePWR0 ++ regTablePWR1

/-- The fields of the MON block. -/
def regTableMON : List FieldDesc := regTableMON0

/-- The fields of the EVT block. -/
def regTableEVT : List FieldDesc := regTableEVT0

/-- The fields of the LOG block. -/
def regTableLOG : List FieldDesc := regTableLOG0

def STK_PERIOD_MICROS : Fld := ⟨0x0A000, 15, 0⟩
def STK_CTL_SRC : Fld := ⟨0x0A004, 2, 0⟩
def STK_CTL_PTP_PORT : Fld := ⟨0x0A004, 5, 4⟩
def STK_CTL_PPS_EDGE : Fld := ⟨0x0A004, 6, 6⟩
def STK_CTL_IO_OUT : Fld := ⟨0x0A004, 7, 7⟩
def STK_CTL_PTP_DOMAIN : Fld := ⟨0x0A004, 15, 8⟩
def STK_STATUS_STATE : Fld := ⟨0x0A008, 2, 0⟩
def STK_STATUS_ROOT : Fld := ⟨0x0A008, 3, 3⟩
def STK_STATUS_OVERRUN : Fld := ⟨0x0A008, 4, 4⟩
def STK_STATUS_CFG_ERR : Fld := ⟨0x0A008, 8, 8⟩
def STK_STATUS_SEAL_LATE : Fld := ⟨0x0A008, 9, 9⟩
def STK_NOW_LO_NOW : Fld := ⟨0x0A00C, 31, 0⟩
def STK_NOW_HI_NOW : Fld := ⟨0x0A010, 31, 0⟩
def STK_OFFSET_OFFSET_NS : Fld := ⟨0x0A014, 31, 0⟩
def STK_HOLDOVER_LIMIT_S : Fld := ⟨0x0A018, 15, 0⟩
def STK_PPS_WIN_NS : Fld := ⟨0x0A01C, 15, 0⟩
def STK_PPS_WIN_MISS_COUNT : Fld := ⟨0x0A01C, 23, 16⟩
def STK_IO_DELAY_NS : Fld := ⟨0x0A020, 15, 0⟩
def STK_DIST_OXA_NS : Fld := ⟨0x0A024, 15, 0⟩
def STK_DIST_OXB_NS : Fld := ⟨0x0A024, 31, 16⟩
def STK_OVR_CTL_DIRTY_LIMIT_MIB : Fld := ⟨0x0A028, 5, 0⟩
def STK_OVR_CTL_RESUME_MIB : Fld := ⟨0x0A028, 13, 8⟩
def STK_OVR_CTL_HOLD_STROKES : Fld := ⟨0x0A028, 31, 16⟩
def STK_OVR_COUNT_COUNT : Fld := ⟨0x0A02C, 31, 0⟩
def STK_LATE_MAX_MICROS : Fld := ⟨0x0A030, 15, 0⟩
def STK_PENDING_MICROS : Fld := ⟨0x0A034, 15, 0⟩
def STK_PENDING_VALID : Fld := ⟨0x0A034, 31, 31⟩
def FN_LINK_CTL_MAX_SPEED : Fld := ⟨0x06000, 3, 0⟩
def FN_LINK_CTL_MAX_WIDTH : Fld := ⟨0x06000, 5, 4⟩
def FN_LINK_CTL_RETRAIN : Fld := ⟨0x06000, 6, 6⟩
def FN_LINK_STATUS_SPEED : Fld := ⟨0x06004, 3, 0⟩
def FN_LINK_STATUS_WIDTH : Fld := ⟨0x06004, 7, 4⟩
def FN_LINK_STATUS_REVERSED : Fld := ⟨0x06004, 8, 8⟩
def FN_LINK_STATUS_POLARITY : Fld := ⟨0x06004, 16, 9⟩
def FN_LINK_STATUS_DEGRADED : Fld := ⟨0x06004, 17, 17⟩
def FN_LINK_STATUS_UP : Fld := ⟨0x06004, 18, 18⟩
def FN_LINK_EVENTS_DOWN_COUNT : Fld := ⟨0x06008, 15, 0⟩
def FN_LINK_EVENTS_RETRAIN_COUNT : Fld := ⟨0x06008, 23, 16⟩
def FN_LINK_EVENTS_LINK_DOWN : Fld := ⟨0x06008, 24, 24⟩
def FN_LINK_EVENTS_HOT_RESET : Fld := ⟨0x06008, 25, 25⟩
def FN_LINK_EVENTS_PERST : Fld := ⟨0x06008, 26, 26⟩
def FN_RDYBSY_PULSE_EN : Fld := ⟨0x0600C, 0, 0⟩
def FN_RDYBSY_FORCE_LOW : Fld := ⟨0x0600C, 1, 1⟩
def FN_RDYBSY_LEVEL : Fld := ⟨0x0600C, 2, 2⟩
def FN_RDYBSY_SLOT : Fld := ⟨0x0600C, 13, 8⟩
def FN_ATTN_LINK : Fld := ⟨0x06010, 0, 0⟩
def FN_ATTN_NO_IRQ : Fld := ⟨0x06010, 1, 1⟩
def FN_ATTN_READ_ONLY : Fld := ⟨0x06010, 2, 2⟩
def FN_ATTN_THERMAL : Fld := ⟨0x06010, 3, 3⟩
def FN_ATTN_DOMAIN : Fld := ⟨0x06010, 4, 4⟩
def FN_STATUS_CFG_ERR : Fld := ⟨0x06014, 0, 0⟩
def FN_FUNC_QUEUES (i : Nat) : Fld := ⟨0x06800 + 0x10 * i, 10, 0⟩
def FN_FUNC_VECTORS (i : Nat) : Fld := ⟨0x06800 + 0x10 * i, 26, 16⟩
def FN_FUNC_ONLINE (i : Nat) : Fld := ⟨0x06804 + 0x10 * i, 0, 0⟩
def FN_FUNC_ALIGN (i : Nat) : Fld := ⟨0x06804 + 0x10 * i, 1, 1⟩
def FN_FUNC_FLR_ACTIVE (i : Nat) : Fld := ⟨0x06804 + 0x10 * i, 2, 2⟩
def FN_FUNC_FLOW_QUOTA (i : Nat) : Fld := ⟨0x06804 + 0x10 * i, 28, 16⟩
def FN_FUNC_NS_ATTACHED (i : Nat) : Fld := ⟨0x06808 + 0x10 * i, 10, 0⟩
def FN_FUNC_FLOWS_BOUND (i : Nat) : Fld := ⟨0x06808 + 0x10 * i, 28, 16⟩
def QOS_CTL_SPILL : Fld := ⟨0x08000, 0, 0⟩
def QOS_CAP_BW_RD_MBPS : Fld := ⟨0x08004, 15, 0⟩
def QOS_CAP_BW_WR_MBPS : Fld := ⟨0x08004, 31, 16⟩
def QOS_CAP_CMD_KCMDS : Fld := ⟨0x08008, 15, 0⟩
def QOS_CAP_CMD_INGEST_MBPS : Fld := ⟨0x08008, 31, 16⟩
def QOS_STATUS_SCALE : Fld := ⟨0x0800C, 8, 0⟩
def QOS_STATUS_CFG_ERR : Fld := ⟨0x0800C, 16, 16⟩
def QOS_STATUS_SHORT : Fld := ⟨0x0800C, 17, 17⟩
def QOS_MI_TRANSPORT : Fld := ⟨0x08010, 0, 0⟩
def QOS_MI_SMB_ADDR : Fld := ⟨0x08010, 7, 1⟩
def QOS_FUNC_RD_MBPS (i : Nat) : Fld := ⟨0x08800 + 0x10 * i, 15, 0⟩
def QOS_FUNC_WR_MBPS (i : Nat) : Fld := ⟨0x08800 + 0x10 * i, 31, 16⟩
def QOS_FUNC_KCMDS (i : Nat) : Fld := ⟨0x08804 + 0x10 * i, 15, 0⟩
def QOS_FUNC_WEIGHT (i : Nat) : Fld := ⟨0x08804 + 0x10 * i, 23, 16⟩
def QOS_FUNC_CLASS (i : Nat) : Fld := ⟨0x08804 + 0x10 * i, 25, 24⟩
def QOS_FUNC_WR_GRANT_KIB (i : Nat) : Fld := ⟨0x08808 + 0x10 * i, 23, 0⟩
def QOS_FUNC_RD_GRANT_KIB (i : Nat) : Fld := ⟨0x0880C + 0x10 * i, 23, 0⟩
def ING_CTL_PORT_EN : Fld := ⟨0x0C000, 3, 0⟩
def ING_CTL_PARK_PORT : Fld := ⟨0x0C000, 5, 4⟩
def ING_CTL_SILENT_STROKES : Fld := ⟨0x0C000, 31, 16⟩
def ING_STATUS_CFG_ERR : Fld := ⟨0x0C004, 0, 0⟩
def ING_STATUS_FLOWS_BOUND : Fld := ⟨0x0C004, 28, 16⟩
def ING_PORT_MODE (i : Nat) : Fld := ⟨0x0C100 + 0x40 * i, 1, 0⟩
def ING_PORT_FEC (i : Nat) : Fld := ⟨0x0C100 + 0x40 * i, 3, 2⟩
def ING_PORT_TX_INV_AUTO (i : Nat) : Fld := ⟨0x0C100 + 0x40 * i, 4, 4⟩
def ING_PORT_ARP_EN (i : Nat) : Fld := ⟨0x0C100 + 0x40 * i, 5, 5⟩
def ING_PORT_NDP_EN (i : Nat) : Fld := ⟨0x0C100 + 0x40 * i, 6, 6⟩
def ING_PORT_MAX_FRAME (i : Nat) : Fld := ⟨0x0C100 + 0x40 * i, 29, 16⟩
def ING_PORT_MAC_LO (i : Nat) : Fld := ⟨0x0C104 + 0x40 * i, 31, 0⟩
def ING_PORT_MAC_HI (i : Nat) : Fld := ⟨0x0C108 + 0x40 * i, 15, 0⟩
def ING_PORT_IPV4 (i : Nat) : Fld := ⟨0x0C10C + 0x40 * i, 31, 0⟩
def ING_PORT_IPV6_0 (i : Nat) : Fld := ⟨0x0C110 + 0x40 * i, 31, 0⟩
def ING_PORT_IPV6_1 (i : Nat) : Fld := ⟨0x0C114 + 0x40 * i, 31, 0⟩
def ING_PORT_IPV6_2 (i : Nat) : Fld := ⟨0x0C118 + 0x40 * i, 31, 0⟩
def ING_PORT_IPV6_3 (i : Nat) : Fld := ⟨0x0C11C + 0x40 * i, 31, 0⟩
def ING_PORT_LINK (i : Nat) : Fld := ⟨0x0C120 + 0x40 * i, 0, 0⟩
def ING_PORT_LOCK (i : Nat) : Fld := ⟨0x0C120 + 0x40 * i, 1, 1⟩
def ING_PORT_RX_INV (i : Nat) : Fld := ⟨0x0C120 + 0x40 * i, 2, 2⟩
def ING_PORT_TX_INV (i : Nat) : Fld := ⟨0x0C120 + 0x40 * i, 3, 3⟩
def ING_PORT_AN_DONE (i : Nat) : Fld := ⟨0x0C120 + 0x40 * i, 4, 4⟩
def ING_PORT_REMOTE_FAULT (i : Nat) : Fld := ⟨0x0C120 + 0x40 * i, 5, 5⟩
def ING_PORT_DOWN_COUNT (i : Nat) : Fld := ⟨0x0C120 + 0x40 * i, 31, 16⟩
def ING_PORT_LEVEL_KIB (i : Nat) : Fld := ⟨0x0C124 + 0x40 * i, 8, 0⟩
def ING_PORT_PANIC_KIB (i : Nat) : Fld := ⟨0x0C124 + 0x40 * i, 24, 16⟩
def PNC_CTL_FLOURISH_LOG2 : Fld := ⟨0x10000, 3, 0⟩
def PNC_CTL_ANCHOR_EN : Fld := ⟨0x10000, 4, 4⟩
def PNC_CTL_HASH_SEL : Fld := ⟨0x10000, 5, 5⟩
def PNC_STATUS_CFG_ERR : Fld := ⟨0x10004, 0, 0⟩
def PNC_STATUS_DEGRADED : Fld := ⟨0x10004, 1, 1⟩
def PNC_STATUS_HALF_FAILED : Fld := ⟨0x10004, 3, 2⟩
def PNC_STATUS_FLAG : Fld := ⟨0x10004, 5, 4⟩
def PNC_STATUS_HASH : Fld := ⟨0x10004, 6, 6⟩
def PNC_STATUS_GENESIS : Fld := ⟨0x10004, 7, 7⟩
def PNC_STATUS_ANCHOR_STALE : Fld := ⟨0x10004, 15, 8⟩
def PNC_SEALED_LO_STROKE : Fld := ⟨0x10008, 31, 0⟩
def PNC_SEALED_HI_STROKE : Fld := ⟨0x1000C, 31, 0⟩
def PNC_FLOURISH_LO_INDEX : Fld := ⟨0x10010, 31, 0⟩
def PNC_FLOURISH_HI_INDEX : Fld := ⟨0x10014, 31, 0⟩
def PNC_RETRY_RETRIES : Fld := ⟨0x10018, 15, 0⟩
def PNC_RETRY_VOTES : Fld := ⟨0x10018, 31, 16⟩
def PNC_LANE_FAILED : Fld := ⟨0x1001C, 16, 0⟩
def PNC_ANCHOR_A_DEVICE : Fld := ⟨0x10020, 8, 0⟩
def PNC_ANCHOR_B_DEVICE : Fld := ⟨0x10024, 8, 0⟩
def PNC_ANCHOR_A_INDEX : Fld := ⟨0x10020, 31, 16⟩
def PNC_ANCHOR_B_INDEX : Fld := ⟨0x10024, 31, 16⟩
def PNC_HOLDS_ACTIVE : Fld := ⟨0x10028, 12, 0⟩
def SGN_CTL_ALG : Fld := ⟨0x2F000, 1, 0⟩
def SGN_CTL_KEY_EPOCH : Fld := ⟨0x2F000, 15, 8⟩
def SGN_STATUS_CFG_ERR : Fld := ⟨0x2F004, 0, 0⟩
def SGN_STATUS_BUSY : Fld := ⟨0x2F004, 1, 1⟩
def SGN_STATUS_QUEUED : Fld := ⟨0x2F004, 31, 16⟩
def SGN_KEYID_LO_KEY_ID : Fld := ⟨0x2F008, 31, 0⟩
def SGN_KEYID_HI_KEY_ID : Fld := ⟨0x2F00C, 31, 0⟩
def SGN_COUNT_SIGNED : Fld := ⟨0x2F010, 31, 0⟩
def SGN_VERIFY_FAIL_COUNT : Fld := ⟨0x2F014, 31, 0⟩
def SGN_PUB_KEY (i : Nat) : Fld := ⟨0x2F100 + 0x4 * i, 31, 0⟩
def MED_CFG_PROTO (i : Nat) : Fld := ⟨0x12000 + 0x1000 * i, 1, 0⟩
def MED_CFG_MAX_RATE (i : Nat) : Fld := ⟨0x12000 + 0x1000 * i, 5, 2⟩
def MED_CFG_ENABLE (i : Nat) : Fld := ⟨0x12000 + 0x1000 * i, 6, 6⟩
def MED_POP_EXPECT (i : Nat) : Fld := ⟨0x12004 + 0x1000 * i, 15, 0⟩
def MED_STATUS_RATE (i : Nat) : Fld := ⟨0x12008 + 0x1000 * i, 3, 0⟩
def MED_STATUS_TRAINED (i : Nat) : Fld := ⟨0x12008 + 0x1000 * i, 4, 4⟩
def MED_STATUS_CH_FENCED (i : Nat) : Fld := ⟨0x12008 + 0x1000 * i, 5, 5⟩
def MED_STATUS_CFG_ERR (i : Nat) : Fld := ⟨0x12008 + 0x1000 * i, 6, 6⟩
def MED_STATUS_PRESENT (i : Nat) : Fld := ⟨0x12008 + 0x1000 * i, 23, 8⟩
def MED_FENCE_DIES (i : Nat) : Fld := ⟨0x1200C + 0x1000 * i, 15, 0⟩
def MED_FENCE_CLEAR_REQ (i : Nat) : Fld := ⟨0x1200C + 0x1000 * i, 16, 16⟩
def MED_FAULT_CODE (i : Nat) : Fld := ⟨0x12010 + 0x1000 * i, 3, 0⟩
def MED_FAULT_LINE (i : Nat) : Fld := ⟨0x12010 + 0x1000 * i, 15, 8⟩
def MED_TIMING_BUS_PAD_NS (i : Nat) : Fld := ⟨0x12014 + 0x1000 * i, 7, 0⟩
def MED_TIMING_POLL_US (i : Nat) : Fld := ⟨0x12014 + 0x1000 * i, 15, 8⟩
def MED_TIMING_TO_MULT (i : Nat) : Fld := ⟨0x12014 + 0x1000 * i, 23, 16⟩
def MED_SUSP_ERS_SLICE_US (i : Nat) : Fld := ⟨0x12018 + 0x1000 * i, 9, 0⟩
def MED_SUSP_ERS_MAX (i : Nat) : Fld := ⟨0x12018 + 0x1000 * i, 13, 10⟩
def MED_SUSP_PGM_SLICE_US (i : Nat) : Fld := ⟨0x12018 + 0x1000 * i, 25, 16⟩
def MED_SUSP_PGM_MAX (i : Nat) : Fld := ⟨0x12018 + 0x1000 * i, 28, 26⟩
def MED_DRIFT_TEMP_C (i : Nat) : Fld := ⟨0x1201C + 0x1000 * i, 7, 0⟩
def MED_READS (i : Nat) : Fld := ⟨0x12020 + 0x1000 * i, 31, 0⟩
def MED_PROGRAMS (i : Nat) : Fld := ⟨0x12024 + 0x1000 * i, 31, 0⟩
def MED_ERASES (i : Nat) : Fld := ⟨0x12028 + 0x1000 * i, 31, 0⟩
def MED_SUSPENDS (i : Nat) : Fld := ⟨0x1202C + 0x1000 * i, 31, 0⟩
def LDP_CTL_HARD_ITER : Fld := ⟨0x22000, 4, 0⟩
def LDP_CTL_RETRIES : Fld := ⟨0x22000, 11, 8⟩
def LDP_CTL_TRACK_EN : Fld := ⟨0x22000, 16, 16⟩
def LDP_STATUS_CFG_ERR : Fld := ⟨0x22004, 0, 0⟩
def LDP_STATUS_DEEP_BUSY : Fld := ⟨0x22004, 1, 1⟩
def LDP_DEEP_CAPACITY : Fld := ⟨0x22008, 16, 0⟩
def LDP_DEEP_AGE_STROKES : Fld := ⟨0x22008, 27, 20⟩
def LDP_HARD_OK : Fld := ⟨0x22010, 31, 0⟩
def LDP_RETRY_OK : Fld := ⟨0x22014, 31, 0⟩
def LDP_DEEP_OK : Fld := ⟨0x22018, 31, 0⟩
def LDP_DEEP_FAIL : Fld := ⟨0x2201C, 31, 0⟩
def LDP_TRACK_SEL_DIE : Fld := ⟨0x22020, 7, 0⟩
def LDP_TRACK_SEL_GROUP : Fld := ⟨0x22020, 10, 8⟩
def LDP_TRACK_VAL0 : Fld := ⟨0x22024, 31, 0⟩
def LDP_TRACK_VAL1 : Fld := ⟨0x22028, 31, 0⟩
def LDP_TRACK_VAL2 : Fld := ⟨0x2202C, 31, 0⟩
def LDP_TRACK_VAL3 : Fld := ⟨0x22030, 31, 0⟩
def LDP_RETRY_LO : Fld := ⟨0x22040, 31, 0⟩
def LDP_RETRY_HI : Fld := ⟨0x22044, 31, 0⟩
def LDP_PIN_DIE (i : Nat) : Fld := ⟨0x22100 + 0x8 * i, 7, 0⟩
def LDP_PIN_GROUP (i : Nat) : Fld := ⟨0x22100 + 0x8 * i, 10, 8⟩
def LDP_PIN_LEVEL (i : Nat) : Fld := ⟨0x22100 + 0x8 * i, 14, 11⟩
def LDP_PIN_VALID (i : Nat) : Fld := ⟨0x22100 + 0x8 * i, 15, 15⟩
def LDP_PIN_OFFSET (i : Nat) : Fld := ⟨0x22104 + 0x8 * i, 7, 0⟩
def FTL_CFG_WIDTH : Fld := ⟨0x23000, 4, 0⟩
def FTL_CFG_RESERVE : Fld := ⟨0x23000, 11, 8⟩
def FTL_STATUS_CFG_ERR : Fld := ⟨0x23004, 0, 0⟩
def FTL_STATUS_GC_TIER : Fld := ⟨0x23004, 2, 1⟩
def FTL_STATUS_READ_ONLY : Fld := ⟨0x23004, 3, 3⟩
def FTL_STATUS_WEAR_OVERRIDE : Fld := ⟨0x23004, 4, 4⟩
def FTL_STATUS_REBUILD : Fld := ⟨0x23004, 5, 5⟩
def FTL_STATUS_TILL_BEHIND : Fld := ⟨0x23004, 6, 6⟩
def FTL_GC_SOFT_BANDS : Fld := ⟨0x23008, 7, 0⟩
def FTL_GC_HARD_BANDS : Fld := ⟨0x23008, 15, 8⟩
def FTL_GC_SEAL_FLOOR : Fld := ⟨0x23008, 23, 16⟩
def FTL_GC_IDLE : Fld := ⟨0x23008, 24, 24⟩
def FTL_BANDS_FREE : Fld := ⟨0x2300C, 15, 0⟩
def FTL_BANDS_OPEN : Fld := ⟨0x2300C, 21, 16⟩
def FTL_WEAR_SPREAD_PCT : Fld := ⟨0x23010, 7, 0⟩
def FTL_WEAR_STATIC_EN : Fld := ⟨0x23010, 8, 8⟩
def FTL_REFRESH_CORR_PCT : Fld := ⟨0x23014, 6, 0⟩
def FTL_REFRESH_QUEUED : Fld := ⟨0x23014, 31, 16⟩
def FTL_TILL_DAYS : Fld := ⟨0x23018, 3, 0⟩
def FTL_TILL_PROGRESS : Fld := ⟨0x23018, 17, 8⟩
def FTL_DISTURB_READS_K : Fld := ⟨0x2301C, 15, 0⟩
def FTL_SPARE_AVAIL_PCT : Fld := ⟨0x23020, 7, 0⟩
def FTL_SPARE_THRESH_PCT : Fld := ⟨0x23020, 15, 8⟩
def FTL_WA_X100 : Fld := ⟨0x23024, 15, 0⟩
def FTL_HOST_UNITS_LO : Fld := ⟨0x23028, 31, 0⟩
def FTL_HOST_UNITS_HI : Fld := ⟨0x2302C, 31, 0⟩
def FTL_MEDIA_UNITS_LO : Fld := ⟨0x23030, 31, 0⟩
def FTL_MEDIA_UNITS_HI : Fld := ⟨0x23034, 31, 0⟩
def NIB_CLUSTER_CORE_EN (i : Nat) : Fld := ⟨0x24000 + 0x40 * i, 7, 0⟩
def NIB_CLUSTER_SHARED_CE (i : Nat) : Fld := ⟨0x24004 + 0x40 * i, 15, 0⟩
def NIB_CLUSTER_SHARED_UE (i : Nat) : Fld := ⟨0x24004 + 0x40 * i, 31, 16⟩
def NIB_CORE_STATE (i : Nat) : Fld := ⟨0x25000 + 0x20 * i, 2, 0⟩
def NIB_CORE_GRAPH (i : Nat) : Fld := ⟨0x25000 + 0x20 * i, 24, 16⟩
def NIB_CORE_NODE (i : Nat) : Fld := ⟨0x25004 + 0x20 * i, 11, 0⟩
def NIB_CORE_RUN (i : Nat) : Fld := ⟨0x25004 + 0x20 * i, 31, 16⟩
def NIB_CORE_INSTR_CE (i : Nat) : Fld := ⟨0x25008 + 0x20 * i, 15, 0⟩
def NIB_CORE_DATA_CE (i : Nat) : Fld := ⟨0x25008 + 0x20 * i, 31, 16⟩
def NIB_CORE_UE (i : Nat) : Fld := ⟨0x2500C + 0x20 * i, 15, 0⟩
def NIB_CORE_IMG_GRAPH (i : Nat) : Fld := ⟨0x25010 + 0x20 * i, 8, 0⟩
def NIB_CORE_IMG_INDEX (i : Nat) : Fld := ⟨0x25010 + 0x20 * i, 21, 16⟩
def DCT_CTL_PREEMPT_EN : Fld := ⟨0x2C000, 0, 0⟩
def DCT_CTL_MIN_US : Fld := ⟨0x2C000, 15, 8⟩
def DCT_STATUS_CFG_ERR : Fld := ⟨0x2C004, 0, 0⟩
def DCT_STATUS_SPILLING : Fld := ⟨0x2C004, 1, 1⟩
def DCT_STATUS_RUNS : Fld := ⟨0x2C004, 24, 16⟩
def DCT_CAP_CORE_US : Fld := ⟨0x2C008, 20, 0⟩
def DCT_CAP_CORES : Fld := ⟨0x2C008, 29, 24⟩
def DCT_READY_ONCHIP : Fld := ⟨0x2C00C, 16, 0⟩
def DCT_SILT_SPILLED : Fld := ⟨0x2C010, 20, 0⟩
def DCT_SILT_CONTEXTS : Fld := ⟨0x2C010, 31, 23⟩
def DCT_GRAPHS_LOADED : Fld := ⟨0x2C014, 8, 0⟩
def DCT_LOAD_ERR_REASON : Fld := ⟨0x2C018, 7, 0⟩
def DCT_LOAD_ERR_FUNCTION : Fld := ⟨0x2C018, 14, 8⟩
def DCT_LOAD_ERR_NODE : Fld := ⟨0x2C018, 27, 16⟩
def DCT_LOAD_ERR_VALID : Fld := ⟨0x2C018, 31, 31⟩
def DCT_TIMEOUTS : Fld := ⟨0x2C01C, 31, 0⟩
def DCT_PREEMPTS : Fld := ⟨0x2C020, 31, 0⟩
def DIG_STATUS_LANES : Fld := ⟨0x2D000, 4, 0⟩
def DIG_CONTEXTS_IN_USE : Fld := ⟨0x2D004, 8, 0⟩
def DIG_CONTEXTS_PEAK : Fld := ⟨0x2D004, 24, 16⟩
def DIG_YIELDS : Fld := ⟨0x2D008, 31, 0⟩
def DIG_NO_CONTEXT : Fld := ⟨0x2D00C, 31, 0⟩
def DIG_MISMATCH : Fld := ⟨0x2D010, 31, 0⟩
def DIG_FEED_LEN_LO : Fld := ⟨0x2D020, 31, 0⟩
def DIG_FEED_LEN_HI : Fld := ⟨0x2D024, 31, 0⟩
def DIG_FEED_OPEN_ALG : Fld := ⟨0x2D028, 2, 0⟩
def DIG_FEED_OPEN_HMAC : Fld := ⟨0x2D028, 3, 3⟩
def DIG_FEED_OPEN_COMPARE : Fld := ⟨0x2D028, 4, 4⟩
def DIG_FEED_OPEN_TRUNC_W : Fld := ⟨0x2D028, 9, 5⟩
def DIG_FEED_OPEN_KEY_SLOT : Fld := ⟨0x2D028, 25, 16⟩
def DIG_FEED_DATA : Fld := ⟨0x2D02C, 31, 0⟩
def DIG_FEED_LASTV : Fld := ⟨0x2D030, 2, 0⟩
def DIG_FEED_LAST : Fld := ⟨0x2D034, 31, 0⟩
def DIG_FEED_ABORT : Fld := ⟨0x2D038, 0, 0⟩
def DIG_FEED_STATUS_OPEN : Fld := ⟨0x2D03C, 0, 0⟩
def DIG_FEED_STATUS_DONE : Fld := ⟨0x2D03C, 1, 1⟩
def DIG_FEED_STATUS_MISMATCH : Fld := ⟨0x2D03C, 2, 2⟩
def DIG_FEED_STATUS_BUSY : Fld := ⟨0x2D03C, 3, 3⟩
def DIG_FEED_STATUS_BAD : Fld := ⟨0x2D03C, 4, 4⟩
def DIG_FEED_STATUS_EQ : Fld := ⟨0x2D03C, 5, 5⟩
def DIG_FEED_STATUS_EQ_N : Fld := ⟨0x2D03C, 6, 6⟩
def DIG_FEED_STATUS_FAULT : Fld := ⟨0x2D03C, 7, 7⟩
def DIG_FEED_EXPECT (i : Nat) : Fld := ⟨0x2D040 + 0x4 * i, 31, 0⟩
def DIG_FEED_RESULT (i : Nat) : Fld := ⟨0x2D080 + 0x4 * i, 31, 0⟩
def DIG_FEED_COUNT_LO : Fld := ⟨0x2D0C0, 31, 0⟩
def DIG_FEED_COUNT_HI : Fld := ⟨0x2D0C4, 31, 0⟩
def CIP_CTL_STREAM_EN : Fld := ⟨0x2E000, 0, 0⟩
def CIP_STATUS_PIPE_BUSY : Fld := ⟨0x2E004, 3, 0⟩
def CIP_STATUS_DRBG_OK : Fld := ⟨0x2E004, 4, 4⟩
def CIP_STATUS_MEDIA_KEYS : Fld := ⟨0x2E004, 5, 5⟩
def CIP_SLOT_SEL : Fld := ⟨0x2E008, 9, 0⟩
def CIP_SLOT_INFO_VALID : Fld := ⟨0x2E00C, 0, 0⟩
def CIP_SLOT_INFO_USE : Fld := ⟨0x2E00C, 4, 1⟩
def CIP_SLOT_INFO_OWNER : Fld := ⟨0x2E00C, 11, 5⟩
def CIP_SLOT_INFO_ANY : Fld := ⟨0x2E00C, 12, 12⟩
def CIP_SLOT_INFO_KEY_LEN : Fld := ⟨0x2E00C, 23, 16⟩
def CIP_SLOT_CLEAR_SLOT : Fld := ⟨0x2E010, 9, 0⟩
def CIP_SLOT_CLEAR_ALL : Fld := ⟨0x2E010, 31, 31⟩
def CIP_USAGE_SLOTS_USED : Fld := ⟨0x2E014, 10, 0⟩
def CIP_USAGE_GCM_CTX : Fld := ⟨0x2E014, 22, 16⟩
def CIP_AUTH_FAILS : Fld := ⟨0x2E018, 31, 0⟩
def CIP_UNWRAP_FAILS : Fld := ⟨0x2E01C, 31, 0⟩
def CIP_LIMITS : Fld := ⟨0x2E020, 31, 0⟩
def CIP_ZEROED_KIB : Fld := ⟨0x2E024, 31, 0⟩
def CIP_IMPORT_PUB (i : Nat) : Fld := ⟨0x2E100 + 0x4 * i, 31, 0⟩
def CMP_CTL_VERIFY : Fld := ⟨0x30000, 0, 0⟩
def CMP_STATUS_LINE_BUSY : Fld := ⟨0x30004, 0, 0⟩
def CMP_STATUS_LEVELS_BUSY : Fld := ⟨0x30004, 1, 1⟩
def CMP_LAST_ERR_CODE : Fld := ⟨0x30008, 2, 0⟩
def CMP_LAST_ERR_NODE : Fld := ⟨0x30008, 15, 4⟩
def CMP_LAST_ERR_GRAPH : Fld := ⟨0x30008, 24, 16⟩
def CMP_LAST_ERR_VALID : Fld := ⟨0x30008, 31, 31⟩
def CMP_ERR_BLOCK : Fld := ⟨0x3000C, 31, 0⟩
def CMP_ERR_COUNT1 : Fld := ⟨0x30010, 31, 0⟩
def CMP_ERR_COUNT2 : Fld := ⟨0x30014, 31, 0⟩
def CMP_ERR_COUNT3 : Fld := ⟨0x30018, 31, 0⟩
def CMP_ERR_COUNT4 : Fld := ⟨0x3001C, 31, 0⟩
def CMP_ERR_COUNT5 : Fld := ⟨0x30020, 31, 0⟩
def CMP_ERR_COUNT6 : Fld := ⟨0x30024, 31, 0⟩
def CMP_LINE_KIB : Fld := ⟨0x30028, 31, 0⟩
def CMP_LEVELS_KIB : Fld := ⟨0x3002C, 31, 0⟩
def CMP_RAW_BLOCKS : Fld := ⟨0x30030, 31, 0⟩
def SIV_STATUS_CFG_ERR : Fld := ⟨0x31000, 0, 0⟩
def SIV_STATUS_PARITY : Fld := ⟨0x31000, 31, 16⟩
def SIV_SCAN_EN : Fld := ⟨0x31004, 0, 0⟩
def SIV_PARITY_LOG_INDEX : Fld := ⟨0x31008, 17, 0⟩
def SIV_PARITY_LOG_PART : Fld := ⟨0x31008, 21, 18⟩
def SIV_PARITY_LOG_VALID : Fld := ⟨0x31008, 31, 31⟩
def SIV_SUSPECT : Fld := ⟨0x3100C, 15, 0⟩
def SIV_HAZARD_USED : Fld := ⟨0x31010, 14, 0⟩
def SIV_FLOW_USED : Fld := ⟨0x31010, 29, 16⟩
def SIV_PART_SIZE_K (i : Nat) : Fld := ⟨0x31040 + 0x4 * i, 7, 0⟩
def SIV_PART_OWNER (i : Nat) : Fld := ⟨0x31040 + 0x4 * i, 14, 8⟩
def SIV_PART_ANY (i : Nat) : Fld := ⟨0x31040 + 0x4 * i, 15, 15⟩
def SIV_PART_HOLE_LOG2 (i : Nat) : Fld := ⟨0x31040 + 0x4 * i, 19, 16⟩
def SIV_PART_BASE_K (i : Nat) : Fld := ⟨0x31040 + 0x4 * i, 28, 20⟩
def SIV_KEY0 : Fld := ⟨0x31080, 31, 0⟩
def SIV_KEY1 : Fld := ⟨0x31084, 31, 0⟩
def SIV_KEY2 : Fld := ⟨0x31088, 31, 0⟩
def SIV_KEY3 : Fld := ⟨0x3108C, 31, 0⟩
def SIV_KEY4 : Fld := ⟨0x31090, 31, 0⟩
def SIV_CMD_PART : Fld := ⟨0x31094, 3, 0⟩
def SIV_CMD_GO : Fld := ⟨0x31094, 4, 4⟩
def SIV_CMD_NEXT : Fld := ⟨0x31094, 5, 5⟩
def SIV_RES_INDEX : Fld := ⟨0x31098, 17, 0⟩
def SIV_RES_CLASS : Fld := ⟨0x31098, 21, 18⟩
def SIV_RES_HIT : Fld := ⟨0x31098, 22, 22⟩
def SIV_RES_MULTI : Fld := ⟨0x31098, 23, 23⟩
def SIV_RES_SUSPECT : Fld := ⟨0x31098, 24, 24⟩
def SIV_RESULT : Fld := ⟨0x3109C, 31, 0⟩
def SIV_LOOKUPS : Fld := ⟨0x310A0, 31, 0⟩
def SIV_SKIPPED_BANKS : Fld := ⟨0x310A4, 31, 0⟩
def DRM_CTL_POINT_RUN : Fld := ⟨0x32000, 1, 0⟩
def DRM_CTL_POINT_LEAN : Fld := ⟨0x32000, 3, 2⟩
def DRM_CTL_FORCE_2X : Fld := ⟨0x32000, 4, 4⟩
def DRM_FREQ_POINT : Fld := ⟨0x32004, 1, 0⟩
def DRM_FREQ_REQ : Fld := ⟨0x32004, 2, 2⟩
def DRM_STATUS_POINT : Fld := ⟨0x32008, 1, 0⟩
def DRM_STATUS_GATHERING : Fld := ⟨0x32008, 2, 2⟩
def DRM_STATUS_PENDING : Fld := ⟨0x32008, 3, 3⟩
def DRM_STATUS_PENDING_POINT : Fld := ⟨0x32008, 5, 4⟩
def DRM_STATUS_CFG_ERR : Fld := ⟨0x32008, 6, 6⟩
def DRM_STATUS_HOT : Fld := ⟨0x32008, 7, 7⟩
def DRM_STATUS_PANIC : Fld := ⟨0x32008, 8, 8⟩
def DRM_STATUS_AVAIL : Fld := ⟨0x32008, 15, 12⟩
def DRM_STATUS_REFRESH_X : Fld := ⟨0x32008, 23, 16⟩
def DRM_CFG_SIZE : Fld := ⟨0x3200C, 1, 0⟩
def DRM_CFG_RANKS2 : Fld := ⟨0x3200C, 2, 2⟩
def DRM_CFG_VENDOR : Fld := ⟨0x3200C, 15, 8⟩
def DRM_TRAIN_PERIOD_MS : Fld := ⟨0x32010, 15, 0⟩
def DRM_TRAIN_DRIFT_C : Fld := ⟨0x32010, 23, 16⟩
def DRM_SHARE_RT_PCT : Fld := ⟨0x32014, 6, 0⟩
def DRM_SHARE_CMD_PCT : Fld := ⟨0x32014, 14, 8⟩
def DRM_SHARE_BG_PCT : Fld := ⟨0x32014, 22, 16⟩
def DRM_AGE_AGE_US : Fld := ⟨0x32018, 7, 0⟩
def DRM_PANIC_MEDIA_ENTRIES : Fld := ⟨0x3201C, 5, 0⟩
def DRM_CAP_BYTES : Fld := ⟨0x32020, 31, 0⟩
def DRM_LINK_CE : Fld := ⟨0x32024, 31, 0⟩
def DRM_UE_COUNT : Fld := ⟨0x32028, 31, 0⟩
def DRM_ECS_COUNT : Fld := ⟨0x3202C, 31, 0⟩
def DRM_INKWELL_CE : Fld := ⟨0x32030, 31, 0⟩
def DRM_INKWELL_UE : Fld := ⟨0x32034, 31, 0⟩
def DRM_ERR_ADDR_LO : Fld := ⟨0x32038, 31, 0⟩
def DRM_ERR_ADDR_HI : Fld := ⟨0x3203C, 31, 0⟩
def DRM_ERR_SOURCE : Fld := ⟨0x32040, 7, 0⟩
def DRM_ERR_CLASS : Fld := ⟨0x32040, 9, 8⟩
def DRM_ERR_VALID : Fld := ⟨0x32040, 31, 31⟩
def INK_CTL_SAVE : Fld := ⟨0x34000, 0, 0⟩
def INK_STATUS_BUSY : Fld := ⟨0x34004, 1, 0⟩
def INK_STATUS_DONE : Fld := ⟨0x34004, 2, 2⟩
def INK_STATUS_FAIL : Fld := ⟨0x34004, 3, 3⟩
def INK_STATUS_PROT : Fld := ⟨0x34004, 4, 4⟩
def INK_STATUS_REFUSED : Fld := ⟨0x34004, 5, 5⟩
def INK_STATUS_BAD : Fld := ⟨0x34004, 6, 6⟩
def INK_STATUS_REMAPPED : Fld := ⟨0x34004, 7, 7⟩
def INK_STATUS_BUS_FAULT : Fld := ⟨0x34004, 8, 8⟩
def INK_STATUS_NOT_ERASED : Fld := ⟨0x34004, 9, 9⟩
def INK_STATUS_SAVE_PENDING : Fld := ⟨0x34004, 10, 10⟩
def INK_STATUS_SAVE_HELD : Fld := ⟨0x34004, 11, 11⟩
def INK_STATUS_AREA_LOST : Fld := ⟨0x34004, 12, 12⟩
def INK_STATUS_PULSES : Fld := ⟨0x34004, 20, 16⟩
def INK_ADDR_ADDR : Fld := ⟨0x34008, 23, 0⟩
def INK_CMD_OP : Fld := ⟨0x3400C, 1, 0⟩
def INK_BAD_ENTRIES (i : Nat) : Fld := ⟨0x34010 + 0x4 * i, 6, 0⟩
def INK_BAD_SPARES_FREE (i : Nat) : Fld := ⟨0x34010 + 0x4 * i, 12, 8⟩
def INK_ECC_CE : Fld := ⟨0x34018, 31, 0⟩
def INK_ECC_UE : Fld := ⟨0x3401C, 31, 0⟩
def INK_SET_FORMAT : Fld := ⟨0x34020, 15, 0⟩
def INK_SET_SEQ : Fld := ⟨0x34024, 31, 0⟩
def INK_DATA (i : Nat) : Fld := ⟨0x34100 + 0x4 * i, 31, 0⟩
def INK_WELL_DIRTY_KIB : Fld := ⟨0x34800, 15, 0⟩
def FWU_STATUS_STAGE : Fld := ⟨0x36000, 2, 0⟩
def FWU_STATUS_COPY_DUE : Fld := ⟨0x36000, 3, 3⟩
def FWU_STATUS_ACTIVE_SLOT : Fld := ⟨0x36000, 5, 4⟩
def FWU_STATUS_REASON : Fld := ⟨0x36000, 15, 8⟩
def FWU_RECEIVED : Fld := ⟨0x36004, 31, 0⟩
def FWU_REV (i : Nat) : Fld := ⟨0x36008 + 0x4 * i, 31, 0⟩
def FWU_STAGED_REV (i : Nat) : Fld := ⟨0x36018 + 0x4 * i, 31, 0⟩
def FWU_SVN : Fld := ⟨0x36028, 31, 0⟩
def FWU_LINK_REV : Fld := ⟨0x3602C, 15, 0⟩
def FWU_LINK_MIN : Fld := ⟨0x3602C, 31, 16⟩
def FWU_FORMAT_EXPECTED : Fld := ⟨0x36030, 15, 0⟩
def FWU_FORMAT_STORED : Fld := ⟨0x36030, 31, 16⟩
def FWU_ACT_US : Fld := ⟨0x36034, 31, 0⟩
def FWU_COPY_MS : Fld := ⟨0x36038, 31, 0⟩
def OXV_CTL_EN : Fld := ⟨0x35000, 1, 0⟩
def OXV_CTL_SPLIT : Fld := ⟨0x35000, 2, 2⟩
def OXV_CTL_HEAD : Fld := ⟨0x35000, 3, 3⟩
def OXV_CTL_LAG_WARN : Fld := ⟨0x35000, 31, 16⟩
def OXV_STATUS_CFG_ERR : Fld := ⟨0x35004, 0, 0⟩
def OXV_STATUS_FOREIGN : Fld := ⟨0x35004, 31, 16⟩
def OXV_ID_DEVICE : Fld := ⟨0x35008, 8, 0⟩
def OXV_ID_TOPO : Fld := ⟨0x35008, 13, 12⟩
def OXV_LINK_UP (i : Nat) : Fld := ⟨0x35040 + 0x20 * i, 0, 0⟩
def OXV_LINK_WIDTH (i : Nat) : Fld := ⟨0x35040 + 0x20 * i, 3, 1⟩
def OXV_LINK_POLARITY (i : Nat) : Fld := ⟨0x35040 + 0x20 * i, 7, 4⟩
def OXV_LINK_LANE_MAP (i : Nat) : Fld := ⟨0x35040 + 0x20 * i, 15, 8⟩
def OXV_LINK_NARROWED (i : Nat) : Fld := ⟨0x35040 + 0x20 * i, 16, 16⟩
def OXV_LINK_REV_FAIL (i : Nat) : Fld := ⟨0x35040 + 0x20 * i, 17, 17⟩
def OXV_LINK_PEER (i : Nat) : Fld := ⟨0x35044 + 0x20 * i, 8, 0⟩
def OXV_LINK_REV (i : Nat) : Fld := ⟨0x35044 + 0x20 * i, 31, 16⟩
def OXV_LINK_MISSED_SYNC (i : Nat) : Fld := ⟨0x35048 + 0x20 * i, 15, 0⟩
def OXV_LINK_SLIPS (i : Nat) : Fld := ⟨0x35048 + 0x20 * i, 31, 16⟩
def OXV_LINK_CRC_ERR (i : Nat) : Fld := ⟨0x3504C + 0x20 * i, 15, 0⟩
def OXV_LINK_FMT_ERR (i : Nat) : Fld := ⟨0x3504C + 0x20 * i, 31, 16⟩
def OXV_LINK_REPLAYS (i : Nat) : Fld := ⟨0x35050 + 0x20 * i, 15, 0⟩
def OXV_LINK_DOWN_COUNT (i : Nat) : Fld := ⟨0x35050 + 0x20 * i, 31, 16⟩
def OXV_LINK_DELAY_NS (i : Nat) : Fld := ⟨0x35054 + 0x20 * i, 15, 0⟩
def OXV_MIRROR_NSID (i : Nat) : Fld := ⟨0x35100 + 0x8 * i, 10, 0⟩
def OXV_MIRROR_ROLE (i : Nat) : Fld := ⟨0x35100 + 0x8 * i, 11, 11⟩
def OXV_MIRROR_EN (i : Nat) : Fld := ⟨0x35100 + 0x8 * i, 12, 12⟩
def OXV_MIRROR_PARTNER (i : Nat) : Fld := ⟨0x35100 + 0x8 * i, 24, 16⟩
def OXV_MIRROR_PARTNER_NSID (i : Nat) : Fld := ⟨0x35104 + 0x8 * i, 10, 0⟩
def OXV_MIRROR_ACTIVE (i : Nat) : Fld := ⟨0x35104 + 0x8 * i, 15, 15⟩
def OXV_MIRROR_LAG (i : Nat) : Fld := ⟨0x35104 + 0x8 * i, 31, 16⟩
def OXV_REMOTE_OFFSET : Fld := ⟨0x35200, 17, 0⟩
def OXV_REMOTE_DEVICE : Fld := ⟨0x35200, 26, 18⟩
def OXV_REMOTE_WRITE : Fld := ⟨0x35200, 27, 27⟩
def OXV_REMOTE_GO : Fld := ⟨0x35200, 28, 28⟩
def OXV_REMOTE_BUSY : Fld := ⟨0x35200, 29, 29⟩
def OXV_REMOTE_ERR : Fld := ⟨0x35200, 30, 30⟩
def OXV_DATA : Fld := ⟨0x35204, 31, 0⟩
def GLB_ID_STEPPING : Fld := ⟨0x00000, 7, 0⟩
def GLB_ID_PART : Fld := ⟨0x00000, 31, 16⟩
def GLB_MODE_CURRENT : Fld := ⟨0x00004, 3, 0⟩
def GLB_MODE_TARGET : Fld := ⟨0x00004, 7, 4⟩
def GLB_MODE_BUSY : Fld := ⟨0x00004, 8, 8⟩
def GLB_MODE_CAUSE : Fld := ⟨0x00004, 23, 16⟩
def GLB_ERR_CFG_ERR : Fld := ⟨0x00008, 0, 0⟩
def GLB_ERR_RWO_REPEAT : Fld := ⟨0x00008, 15, 8⟩
def GLB_RESET_DEVICE : Fld := ⟨0x0000C, 0, 0⟩
def GLB_RESET_KEY : Fld := ⟨0x0000C, 15, 8⟩
def GLB_RESET_CAUSE_CAUSE : Fld := ⟨0x00010, 7, 0⟩
def GLB_RESET_CAUSE_BOOTS : Fld := ⟨0x00010, 31, 16⟩
def CLK_NIB_MAX_MHZ : Fld := ⟨0x01000, 10, 0⟩
def CLK_STATUS_THERM_STEP : Fld := ⟨0x01004, 1, 0⟩
def CLK_STATUS_HALVED : Fld := ⟨0x01004, 2, 2⟩
def CLK_STATUS_CFG_ERR : Fld := ⟨0x01004, 3, 3⟩
def CLK_DROOP_COUNT : Fld := ⟨0x01008, 31, 0⟩
def CLK_DOMAIN_MHZ (i : Nat) : Fld := ⟨0x01100 + 0x4 * i, 11, 0⟩
def CLK_DOMAIN_GATED (i : Nat) : Fld := ⟨0x01100 + 0x4 * i, 12, 12⟩
def PWR_PFAIL_FILT_US : Fld := ⟨0x02000, 3, 0⟩
def PWR_PFAIL_LEVEL : Fld := ⟨0x02000, 4, 4⟩
def PWR_HOLD_TRIP_MV : Fld := ⟨0x02004, 11, 0⟩
def PWR_HOLD_ARM_MV : Fld := ⟨0x02004, 27, 16⟩
def PWR_HOLD_STATUS_SENSE_MV : Fld := ⟨0x02008, 11, 0⟩
def PWR_HOLD_STATUS_ARMED : Fld := ⟨0x02008, 12, 12⟩
def PWR_SEAL_EFF_LIMIT_KIB : Fld := ⟨0x0200C, 15, 0⟩
def PWR_SEAL_PREDICT_US : Fld := ⟨0x0200C, 31, 16⟩
def PWR_SEAL2_ENERGY_MJ : Fld := ⟨0x02010, 15, 0⟩
def PWR_WAKE_EVT : Fld := ⟨0x02014, 7, 0⟩
def PWR_WAKE_PERST : Fld := ⟨0x02014, 8, 8⟩
def PWR_WAKE_TIMER : Fld := ⟨0x02014, 9, 9⟩
def PWR_WAKE_IGN : Fld := ⟨0x02014, 10, 10⟩
def PWR_WAKE_LAST : Fld := ⟨0x02014, 18, 16⟩
def PWR_TIMER_STROKES : Fld := ⟨0x02018, 31, 0⟩
def PWR_IGN_EN : Fld := ⟨0x0201C, 0, 0⟩
def PWR_IGN_INPUT : Fld := ⟨0x0201C, 3, 1⟩
def PWR_IGN_DELAY_S : Fld := ⟨0x0201C, 31, 16⟩
def PWR_PARK_KEEP_CH : Fld := ⟨0x02020, 15, 0⟩
def PWR_PARK_BURST_KIB : Fld := ⟨0x02020, 31, 16⟩
def PWR_PARK2_BURST_STROKES : Fld := ⟨0x02024, 15, 0⟩
def PWR_THERM_T1_C : Fld := ⟨0x02028, 6, 0⟩
def PWR_THERM_T2_C : Fld := ⟨0x02028, 14, 8⟩
def PWR_THERM_T3_C : Fld := ⟨0x02028, 22, 16⟩
def PWR_THERM_TEMP_C : Fld := ⟨0x02028, 31, 24⟩
def PWR_DROOP_SAG_MV : Fld := ⟨0x0202C, 6, 0⟩
def PWR_STATUS_CFG_ERR : Fld := ⟨0x02030, 0, 0⟩
def PWR_STATUS_BURST : Fld := ⟨0x02030, 1, 1⟩
def PWR_STATUS_IGN_OFF : Fld := ⟨0x02030, 2, 2⟩
def MON_STATUS_CFG_ERR : Fld := ⟨0x03000, 0, 0⟩
def MON_STATUS_SENSOR_FAIL : Fld := ⟨0x03000, 1, 1⟩
def MON_STATUS_VMON_FAIL : Fld := ⟨0x03000, 2, 2⟩
def MON_STATUS_FAILSAFE : Fld := ⟨0x03000, 3, 3⟩
def MON_HOT_TEMP : Fld := ⟨0x03004, 11, 0⟩
def MON_HOT_SENSOR : Fld := ⟨0x03004, 20, 16⟩
def MON_TEMP_VALUE (i : Nat) : Fld := ⟨0x03100 + 0x4 * i, 11, 0⟩
def MON_TEMP_FAILED (i : Nat) : Fld := ⟨0x03100 + 0x4 * i, 12, 12⟩
def MON_TEMP_MAX (i : Nat) : Fld := ⟨0x03100 + 0x4 * i, 27, 16⟩
def MON_VMON_MV (i : Nat) : Fld := ⟨0x03200 + 0x8 * i, 11, 0⟩
def MON_VMON_FAILED (i : Nat) : Fld := ⟨0x03200 + 0x8 * i, 12, 12⟩
def MON_VMON_MASKED (i : Nat) : Fld := ⟨0x03200 + 0x8 * i, 13, 13⟩
def MON_VMON_MIN_MV (i : Nat) : Fld := ⟨0x03200 + 0x8 * i, 27, 16⟩
def MON_VMON_UV_MV (i : Nat) : Fld := ⟨0x03204 + 0x8 * i, 11, 0⟩
def MON_VMON_NOM_MV (i : Nat) : Fld := ⟨0x03204 + 0x8 * i, 27, 16⟩
def MON_PMON_FREQ (i : Nat) : Fld := ⟨0x03400 + 0x4 * i, 15, 0⟩
def MON_PMON_DRIFT (i : Nat) : Fld := ⟨0x03400 + 0x4 * i, 31, 16⟩
def MON_DROOP_COUNT (i : Nat) : Fld := ⟨0x03500 + 0x4 * i, 31, 0⟩
def EVT_STATUS_CFG_ERR : Fld := ⟨0x05000, 0, 0⟩
def EVT_STATUS_QUEUED : Fld := ⟨0x05000, 14, 8⟩
def EVT_STATUS_LOST : Fld := ⟨0x05000, 31, 16⟩
def EVT_CFG_EN (i : Nat) : Fld := ⟨0x05100 + 0x10 * i, 0, 0⟩
def EVT_CFG_NC (i : Nat) : Fld := ⟨0x05100 + 0x10 * i, 1, 1⟩
def EVT_CFG_DEBOUNCE_MS (i : Nat) : Fld := ⟨0x05100 + 0x10 * i, 15, 8⟩
def EVT_CFG_STATE (i : Nat) : Fld := ⟨0x05104 + 0x10 * i, 2, 0⟩
def EVT_CFG_FOREIGN_V (i : Nat) : Fld := ⟨0x05104 + 0x10 * i, 3, 3⟩
def EVT_CFG_CHANGES (i : Nat) : Fld := ⟨0x05104 + 0x10 * i, 31, 16⟩
def EVT_CFG_FWD_OHM (i : Nat) : Fld := ⟨0x05108 + 0x10 * i, 31, 0⟩
def EVT_CFG_REV_OHM (i : Nat) : Fld := ⟨0x0510C + 0x10 * i, 31, 0⟩
def LOG_STATUS_ENTRIES : Fld := ⟨0x04000, 12, 0⟩
def LOG_STATUS_RESTORED : Fld := ⟨0x04000, 13, 13⟩
def LOG_STATUS_SNAPSHOT : Fld := ⟨0x04000, 14, 14⟩
def LOG_NEXT_SEQ : Fld := ⟨0x04004, 31, 0⟩
def LOG_CLEAR_GO : Fld := ⟨0x04008, 0, 0⟩
def LOG_CLEAR_KEY : Fld := ⟨0x04008, 15, 8⟩

/-- The block that a BAR2 offset falls in, as the first offset of its span (R446). -/
def blockTable : List (Nat × Nat × List FieldDesc) :=
  [ (0x00000, 0x01000, regTableGLB)
  , (0x01000, 0x02000, regTableCLK)
  , (0x02000, 0x03000, regTablePWR)
  , (0x03000, 0x04000, regTableMON)
  , (0x04000, 0x05000, regTableLOG)
  , (0x05000, 0x06000, regTableEVT)
  , (0x06000, 0x08000, regTableFN)
  , (0x08000, 0x0A000, regTableQOS)
  , (0x0A000, 0x0C000, regTableSTK)
  , (0x0C000, 0x10000, regTableING)
  , (0x10000, 0x12000, regTablePNC)
  , (0x12000, 0x22000, regTableMED)
  , (0x22000, 0x23000, regTableLDP)
  , (0x23000, 0x24000, regTableFTL)
  , (0x24000, 0x2C000, regTableNIB)
  , (0x2C000, 0x2D000, regTableDCT)
  , (0x2D000, 0x2E000, regTableDIG)
  , (0x2E000, 0x2F000, regTableCIP)
  , (0x2F000, 0x30000, regTableSGN)
  , (0x30000, 0x31000, regTableCMP)
  , (0x31000, 0x32000, regTableSIV)
  , (0x32000, 0x34000, regTableDRM)
  , (0x34000, 0x35000, regTableINK)
  , (0x35000, 0x36000, regTableOXV)
  , (0x36000, 0x37000, regTableFWU) ]

end Sys2Proof.Machine
end

