-- ==== Sys2Proof/Machine/State.lean ====
section
/-!
DEFINITION. The state of the NB7640 as plain data: everything the spec gives the part, the queue of waiting commands,
the reasons a step can stop, and the state after reset. The register file of BAR2 is one sparse store and the one home
of every register field; the typed parts below hold what is not a register.
-/

namespace Sys2Proof.Machine

/-- Why a step stops with a fault. -/
inductive Fault where
  /-- A BAR2 access below a dword boundary or beyond the 256 KiB window of R446 and R53: no such address exists. Raised
  by REGISTER_WRITE and LATCHED_READ_LO. Safe: the device would see no such access. -/
  | noSuchAddress
  deriving DecidableEq, Repr

/-- Why a step is refused. -/
inductive Refusal where
  /-- The command has no meaning in the model yet. Raised by `exec`. Safe. -/
  | notModelled (mnemonic : String)
  deriving DecidableEq, Repr

/-- The major modes of R407. -/
inductive Mode where
  | halt | boot | safe | run | lean | park | drowse | hibernate | seal | readOnly | sanitize | activate
  deriving DecidableEq, Repr

/-! ### Time (chapter 2) -/

/-- The stroke generator: what is not in the STK registers. -/
structure TimeSt where
  /-- STROKE and FRACTION of domain time (R7). -/
  stroke : Nat := 0
  frac : Nat := 0
  /-- The period in force, in microseconds (R29); STK_PERIOD holds the written one. -/
  period : Nat := 1000
  /-- The source in force (R475); STK_CTL.SRC holds the written one. -/
  src : Nat := 0
  /-- The generator came to ACQUIRE from HOLDOVER, not from FREE (R34). -/
  acqFromHoldover : Bool := false
  /-- Consecutive ignored edges in LOCKED or ACQUIRE (R34). -/
  misses : Nat := 0
  /-- Strokes in a row with the offset below 1 µs (R34). -/
  below : Nat := 0
  /-- Signed reference-minus-local offset in nanoseconds, unsaturated. -/
  offsetNs : Int := 0
  /-- IEEE 1588 (R32): when the last Sync left the master and when it arrived, on the PTP timescale as this clock keeps it; the path
  delay; when the request that waits for its answer left; the sequence of the next request. -/
  refNs : Nat := 0
  ptpRx : Option Int := none
  ptpDelayNs : Nat := 0
  ptpReq : Option Int := none
  ptpSeq : Nat := 0
  /-- Microseconds spent in HOLDOVER (R34). -/
  holdUs : Nat := 0
  /-- Boundaries since a stroke mark last arrived (R39). -/
  sinceMark : Nat := 0
  /-- The domain epoch in nanoseconds on the PTP timescale (R32, R403). -/
  epochNs : Nat := 0
  /-- A realign accepted for the next boundary (R37). -/
  realign : Bool := false
  /-- The flourish interval in force, as its logarithm (R156). -/
  flLog2 : Nat := 10
  /-- The crystal has stopped and the internal oscillator runs (R22). -/
  onOscillator : Bool := false
  /-- BOOT waits for the selected reference (R36), and the count found at BOOT start. -/
  bootWait : Bool := true
  /-- The last stroke spent in overrun (R46). -/
  lastOverrun : Nat := 0
  /-- The fabric clock in kHz and the kHz-fractions summed in this stroke up to `clkFrac` (R97). -/
  clkKhz : Nat := 1200000
  clkSum : Nat := 0
  clkFrac : Nat := 0
  deriving DecidableEq, Repr

/-- One entry of log C1h (R46). -/
structure StrokeStat where
  stroke : Nat
  bytes : Nat := 0
  streams : Nat := 0
  gaps : Nat := 0
  pounceUs : Nat := 0
  peakKib : Nat := 0
  flags : Nat := 0
  deriving DecidableEq, Repr

/-! ### The ink chain (chapter 7) -/

/-- An ink record as it was laid out (R136): its type, RSEQ, DTIME and bytes. -/
structure InkRec where
  type : Nat
  rseq : Nat
  dtime : Nat
  bytes : Bytes
  deriving DecidableEq, Repr

/-- What a stream has absorbed in a stroke (R130, R139): the bytes and where they begin. -/
structure StreamPart where
  nsid : Nat
  firstLba : Nat
  offset : Nat
  data : Bytes
  /-- The digest lane that absorbed the data (R145). -/
  lane : Nat := 0
  deriving DecidableEq, Repr

/-- A stroke that has closed and waits for the pounce unit (R143). -/
structure ClosedStroke where
  n : Nat
  recs : List InkRec
  parts : Map StreamPart
  overrun : Bool := false
  sealClosed : Bool := false
  laneReplaced : Bool := false
  voted : Bool := false
  /-- S+2 has fallen (R44). -/
  late : Bool := false
  /-- H of the stroke (R130), and the RSEQ and DTIME of the GENESIS that opens it, if it does (R135). -/
  hashSel : Nat := 1
  genesis : Option (Nat × Nat) := none
  /-- Peak dirty level in the stroke, in KiB (R46). -/
  peakKib : Nat := 0
  /-- STATE of the generator as the stroke closed (R46). -/
  lock : Nat := 0
  deriving DecidableEq, Repr

/-- One leaf-table entry (R139). -/
structure Leaf where
  stream : Nat
  prev : Option Nat
  firstLba : Nat
  bytes : Nat
  offset : Nat
  leaf : Bytes
  /-- The stream's data of the stroke has been freed by release or retention (R138). -/
  freed : Bool := false
  deriving DecidableEq, Repr

/-- A committed stroke-root record (R139), with the stream-0 records of its stroke. -/
structure StrokeRoot where
  n : Nat
  prevSealed : Option Nat
  count : Nat
  flags : Nat
  hashSel : Nat
  t : Bytes
  c : Bytes
  cPrev : Bytes
  leaves : List Leaf
  recs : List InkRec
  rseq : Nat
  dtime : Nat
  /-- Ink address of the stroke's first stream-0 record. -/
  inkAddr : Nat
  /-- The device ID that its header carries and that its streams are named by, and whether it was written in SEAL (R136). -/
  device : Nat := 0
  inSeal : Bool := false
  deriving DecidableEq, Repr

/-- A flourish that has been fixed (R140): its payload bytes 0 to 255, and its digest. -/
structure Flourish where
  index : Nat
  first : Nat
  last : Nat
  alg : Nat
  epoch : Nat
  body : Bytes
  fd : Bytes
  /-- It changed the key: a key record follows it (R157). -/
  keyRec : Bool := false
  deriving DecidableEq, Repr

/-- An anchor slot (R142). -/
structure Anchor where
  device : Nat
  index : Nat
  fd : Bytes
  deriving DecidableEq, Repr

/-- The chain state: media state (R11). -/
structure ChainSt where
  /-- H: 1 SHA-256, 2 SHA-384 (R130). -/
  hashSel : Nat := 1
  /-- A GENESIS has been written (R135). -/
  genesis : Bool := false
  provisional : Bool := true
  /-- A restart waits for the next boundary, in this H (R135); the GENESIS that the open stroke begins with. -/
  restartTo : Option Nat := none
  openGenesis : Option (Nat × Nat) := none
  /-- RSEQ kept for the first GENESIS: it is the first stream-0 record of its stroke, before records held since BOOT (R133, R135). -/
  genRseq : Option Nat := some 0
  rseq : Nat := 1
  /-- Stream-0 records of the open stroke, oldest first. -/
  openRecs : List InkRec := []
  /-- Other streams of the open stroke. -/
  openParts : Map StreamPart := []
  /-- Records raised while no stroke is open to be sealed (R474). -/
  held : List InkRec := []
  closed : List ClosedStroke := []
  roots : List StrokeRoot := []
  /-- Last active stroke and leaf of each stream. -/
  streams : Map (Nat × Bytes) := []
  lastSealed : Option Nat := none
  lastC : Bytes := []
  /-- H of the last sealed stroke, and the next ink address. -/
  lastHash : Nat := 1
  inkAddr : Nat := 0
  /-- The flourishes written, each with its whole record. -/
  flourishes : List (Flourish × Bytes) := []
  flIndex : Nat := 0
  fdPrev : Bytes := []
  /-- First sealed stroke not yet covered by a flourish. -/
  flFrom : Option Nat := none
  /-- Fixed flourishes that wait for their signatures, oldest first. -/
  flPending : List Flourish := []
  anchorA : Option Anchor := none
  anchorB : Option Anchor := none
  /-- ALG and KEY_EPOCH in force (R157). -/
  alg : Nat := 1
  keyEpoch : Nat := 0
  /-- The running stroke is closed and none is open to be sealed (entry to DROWSE, HIBERNATE, HALT; SEAL; R474). -/
  noOpen : Bool := true
  /-- LANE_REPLACED for the open stroke. -/
  laneReplaced : Bool := false
  /-- Ink-log bytes laid out and not yet filling a 16 KiB page (R187). -/
  inkTail : Bytes := []
  peakKib : Nat := 0
  deriving DecidableEq, Repr

/-! ### Functions, queues and interrupts (chapters 3 to 5) -/

/-- Completion statuses, by the names the spec uses. The vendor ones are those of R91, in its order. -/
inductive Status where
  | success
  | invalidOpcode | invalidField | dataTransferError | abortRequested | abortedSqDeletion
  | invalidNamespaceOrFormat | commandSequenceError | namespaceNotReady | lbaOutOfRange | capacityExceeded
  | formatInProgress | sanitizeInProgress
  | prpOffsetInvalid | sglLengthInvalid | sglDescriptorTypeInvalid | invalidSglCount
  | unrecoveredRead | compareFailure | deallocatedOrUnwritten
  | completionQueueInvalid | invalidQueueId | invalidQueueSize | invalidQueueDeletion | abortLimitExceeded
  | asyncEventLimitExceeded | invalidFirmwareSlot | invalidFirmwareImage | invalidInterruptVector | invalidLogPage
  | featureNotSaveable | namespaceInsufficientCapacity | namespaceIdUnavailable | namespaceAlreadyAttached
  | namespaceNotAttached | selfTestInProgress | invalidControllerId | invalidSecondaryState
  | invalidControllerResources | overlappingRange | firmwareActivationProhibited | internalError
  | strokeOverrun | sealedRange | holdActive | deferredMedia | authFail | lengthMismatch | engineLimit
  | domainUnreachable | programTrap | readOnlyMedia | statePending | keyUnwrapFail | decompError | graphTimeout
  | compareFault | outputExhausted
  | commandInterrupted | invalidFormat | controllerListInvalid
  /-- The status field that a follower returned (R398). -/
  | raw (field : Nat)
  deriving DecidableEq, Repr

/-- A completion queue entry: CRD is always 0 (R91). -/
structure Cqe where
  sqid : Nat
  cid : Nat
  st : Status
  dw0 : Nat
  dw1 : Nat
  deriving DecidableEq, Repr

structure Sq where
  size : Nat
  base : Nat
  cqid : Nat
  prio : Nat
  /-- The next entry to fetch, and the tail the host has rung. -/
  head : Nat := 0
  tail : Nat := 0
  deriving DecidableEq, Repr

structure Cq where
  size : Nat
  base : Nat
  vector : Nat
  ien : Bool
  head : Nat := 0
  tail : Nat := 0
  phase : Bool := true
  /-- Finished commands that wait for room (R75). -/
  waiting : List Cqe := []
  deriving DecidableEq, Repr

/-- One MSI-X vector: its table entry, its pending bit and its coalescing (R57 to R60). -/
structure Vec where
  addr : Nat := 0
  data : Nat := 0
  masked : Bool := true
  pend : Bool := false
  /-- Coalescing Disable of Feature 09h. -/
  cd : Bool := false
  /-- Completions written and not signalled; of those, the ones written after the last boundary. -/
  count : Nat := 0
  fresh : Nat := 0
  /-- The stroke's aligned signal is spent (R59). -/
  spent : Bool := false
  deriving DecidableEq, Repr

/-- Values of the Features of R72. -/
structure Features where
  arbitration : Nat := 0
  power : Nat := 0
  tempOver : Nat := 378
  tempUnder : Nat := 0
  /-- 07h: what Set Features has granted, or nothing yet. -/
  queues : Option Nat := none
  coalesce : Nat := 0
  atomicity : Nat := 0
  asyncCfg : Nat := 0
  apst : List (Nat × Nat) := []
  apstEn : Bool := false
  groupMode : Bool := false
  vendorEvents : Nat := 3
  deriving DecidableEq, Repr

/-- An asynchronous event waiting for a request, or posted and not re-armed (R85): type, information, log page. -/
structure AsyncEvent where
  type : Nat
  info : Nat
  log : Nat
  deriving DecidableEq, Repr

/-- The summary ring of a function (R126): the slot of the next post and its PHASE, and the strokes lost since the last
posted head. -/
structure Ring where
  slots : Nat
  addr : Nat
  cons : Nat
  vector : Nat
  items : Nat
  prod : Nat := 0
  phase : Nat := 1
  lost : Nat := 0
  deriving DecidableEq, Repr

/-- The Device Control registers of a function (R50, R51): the codes of the base specification, at its reset values
(notes/assumptions/136). -/
structure DevCtl where
  relaxed : Bool := true
  payload : Nat := 0
  readReq : Nat := 2
  timeout : Nat := 0
  deriving DecidableEq, Repr

/-- The arbiter of a function's queues (R75; notes/assumptions/138): the queue whose burst runs, and the entries it may still give; by
service class, the queue served last; by weighted class, the entries left in the round. -/
structure Arb where
  queue : Nat := 0
  left : Nat := 0
  last : Map Nat := []
  credit : Map Nat := []
  deriving DecidableEq, Repr

/-- One function: an NVMe controller (R68) and its PCIe state. -/
structure Fn where
  /-- D-state of R66: 0, 3. -/
  d3 : Bool := false
  bme : Bool := false
  msixEn : Bool := false
  fmask : Bool := false
  dev : DevCtl := {}
  /-- AER has logged an error, and a completion timeout (R64). -/
  aerErr : Bool := false
  aerTimeout : Bool := false
  en : Bool := false
  rdy : Bool := false
  pp : Bool := false
  /-- CSTS.CFS (R358). -/
  cfs : Bool := false
  ams : Nat := 0
  mps : Nat := 0
  feats : Features := {}
  arb : Arb := {}
  sqs : Map Sq := []
  cqs : Map Cq := []
  vecs : Map Vec := []
  aers : List Nat := []
  events : List AsyncEvent := []
  /-- Events posted and not yet re-armed by a Get Log Page. -/
  unarmed : List AsyncEvent := []
  /-- Namespaces changed since the function last read log 04h. -/
  changed : List Nat := []
  /-- FLR in progress: its stroke, its fraction, and the microseconds that must pass (R101). -/
  flr : Option (Nat × Nat) := none
  /-- What follows the reset: 0 nothing, 1 the VF goes offline, 2 its resources also return to the pool (R55, R102). -/
  afterFlr : Nat := 0
  /-- The controller is reset when the link returns (R64). -/
  resetAtLink : Bool := false
  ring : Option Ring := none
  /-- Grants left and debts (R96): commands, read bytes, write bytes. -/
  gCmd : Nat := 0
  gRd : Nat := 0
  gWr : Nat := 0
  dCmd : Nat := 0
  dRd : Nat := 0
  dWr : Nat := 0
  /-- Namespaces whose next command fails with DEFERRED_MEDIA (R84). -/
  deferred : List Nat := []
  /-- Flexible queue and vector resources assigned (R54); the registers show the totals. -/
  flexQ : Nat := 0
  flexV : Nat := 0
  /-- Idle since this stroke (Feature 0Ch). -/
  idleFrom : Nat := 0
  deriving DecidableEq, Repr

/-- A configuration QOS_FUNC holds in force (R455). -/
structure QosInForce where
  rd : Nat := 0
  wr : Nat := 0
  kcmd : Nat := 0
  weight : Nat := 16
  cls : Nat := 1
  deriving DecidableEq, Repr

/-- A unit state transition that has been accepted (R105). -/
inductive TransKind where
  | nsCreate (data : Bytes) | nsDelete | nsAttach (fns : List Nat) | nsDetach (fns : List Nat) | hold (index first last tag : Nat)
  | release (action hold first last : Nat) (nonce : Nat) (token : Bytes)
  | format (lbaf ses : Nat) | sanitize (action : Nat) | online | offline
  deriving DecidableEq, Repr

structure Transition where
  unit : UnitId
  kind : TransKind
  /-- Domain time of acceptance, and the command whose completion the commit posts. -/
  at_ : Nat
  fn : Nat
  sqid : Nat
  cid : Nat
  deriving DecidableEq, Repr

/-! ### Outputs -/

/-- What the device has put on its interfaces, oldest first. -/
inductive Out where
  | cqe (fn cqid slot : Nat) (phase : Bool) (e : Cqe)
  /-- Data to the host's memory. Only it carries Relaxed Ordering: completion entries, ring entries and MSI-X messages never do (R51). -/
  | hostData (fn cid : Nat) (relaxed : Bool) (data : Bytes)
  | msix (fn vec : Nat)
  | ringEntry (fn slot : Nat) (data : Bytes)
  | frame (port : Nat) (data : Bytes)
  | oxv (port : Nat) (data : Bytes)
  | mi (status : Nat) (data : Bytes)
  | nand (channel die op addr : Nat)
  /-- SET_OFFSETS: the read-threshold offsets of the levels of a page type (R168). -/
  | nandOffsets (channel die : Nat) (offsets : List Int)
  | regRead (off : Nat) (data : Nat)
  /-- RDYBSY_N held low or released, a burst of low pulses on it, a pulse on STROKE_IO, WAKE_N, a supply request. -/
  | rdybsy (low : Bool)
  | attention (code : Nat)
  | strokeIo (leadNs : Nat)
  | wakeN (low : Bool)
  | power (rail : Nat) (on : Bool)
  | aer (fn : Nat) (timeout : Bool)
  deriving DecidableEq, Repr

/-! ### Media, the Inkwell and the translation layer (chapters 8 to 10) -/

/-- The kinds of data a band holds (R185, R187). -/
inductive Kind where
  | plain | sealed | inkLog | journal | pad
  deriving DecidableEq, Repr

/-- Where a map unit is (R183); an absent entry is unwritten. -/
inductive Loc where
  | inkwell (slot : Nat)
  | media (die unit : Nat)
  | zeroed
  deriving DecidableEq, Repr

/-- Who wrote data, when its completion was posted, and the stroke in which it arrived (R86). -/
structure Wrote where
  fn : Nat := 0
  sqid : Nat := 0
  cid : Nat := 0xFFFF
  doneAt : Nat := 0
  stroke : Nat := 0
  deriving DecidableEq, Repr

/-- One map unit staged in the Inkwell: its tag (R185), its bytes, and what wrote it. -/
structure Staged where
  id : Nat
  kind : Kind
  nsid : Nat
  lba : Nat
  seq : Nat
  data : Bytes
  /-- Stroke in which the data arrived, and the writer (R86). -/
  stroke : Nat
  fn : Nat := 0
  sqid : Nat := 0
  cid : Nat := 0xFFFF
  doneAt : Nat := 0
  /-- A copy: the media location it was copied from (R198), and who wrote what it copies. -/
  source : Option (Nat × Nat) := none
  origin : Option Wrote := none
  /-- Directive stream (R194); 0 none. -/
  directive : Nat := 0
  /-- In a slot that has been formed for programming. -/
  placed : Bool := false
  /-- The 4 KiB unit that the tweak of its first codeword names, for the ink log and the journal (R300). -/
  pos : Nat := 0
  /-- Its bytes are media bytes, encrypted: a copy, or what SEAL or the mount moves (R300). -/
  enc : Bool := false
  deriving DecidableEq, Repr

/-- A codeword on the media: the fields of its metadata (R185) and its 4,096 bytes of encrypted data (R160, R300). -/
structure Codeword where
  kind : Kind
  nsid : Nat
  lba : Nat
  seq : Nat
  copy : Bool
  data : Bytes
  /-- The 4 KiB unit that its tweak names, for the ink log and the journal (R300). -/
  pos : Nat := 0
  /-- A parity codeword: the XOR of its members' metadata, in place of the fields (R186). -/
  raw : Option Bytes := none
  /-- Who wrote the data, for the loss record (R86; notes/assumptions/139). -/
  wrote : Wrote := {}
  /-- The media cannot return it at any step of R174. -/
  lost : Bool := false
  deriving DecidableEq, Repr

/-- State of a unit slot of a band (R188, R190): `gone` is a passed slot whose die was cleared and is empty capacity again (R164). -/
inductive SlotState where
  | filled | passed | voided | gone
  deriving DecidableEq, Repr

structure Slot where
  die : Nat
  unit : Nat
  row : Nat
  parity : Bool
  items : List Nat
  st : SlotState
  deriving DecidableEq, Repr

structure Band where
  kind : Kind
  copy : Bool
  /-- Directive stream or RETAIN_STROKES value that feeds the band (R193). -/
  feed : Nat
  dies : List Nat
  /-- Dies that leave the list at the next row (R190). -/
  leaving : List Nat := []
  /-- The member of each die, by die. -/
  members : Map Nat
  isOpen : Bool := true
  closedAt : Nat := 0
  slots : List Slot := []
  /-- Number of the stripe row being filled; row of slots and place in its rotation of the next slot (R188). -/
  stripe : Nat := 0
  row : Nat := 0
  pos : Nat := 0
  /-- Listed for the tag scan (R224). -/
  listed : Bool := true
  /-- Erase intent written (R225). -/
  intent : Bool := false
  deriving DecidableEq, Repr

/-- Operations of a channel sequencer (R168). -/
inductive NandOp where
  | read (unit count : Nat)
  | readSoft (unit : Nat)
  | program (band slot : Nat)
  | erase (member : Nat) (band : Nat)
  deriving DecidableEq, Repr

/-- A queued operation: its position in the order of R169 and its requester. -/
structure QueuedOp where
  pos : Nat
  op : NandOp
  /-- The command (function, queue, CID) that a read serves, if any. -/
  who : Option (Nat × Nat × Nat) := none
  /-- What asked for it: 0 host, 1 garbage collection, 2 refresh, 3 tilling, 4 die rebuild, 5 compute node, 6 stripe rebuild. -/
  why : Nat := 0
  /-- The graph and the node that a read serves, if any. -/
  node : Option (Nat × Nat) := none
  /-- Retry entries tried (R174), or passes of a two-pass program made (R161). -/
  tries : Nat := 0
  /-- The codewords of a read that are still to be decoded; none before its first result. -/
  left : Option (List Nat) := none
  deriving DecidableEq, Repr

/-- Results of an operation other than OK, FAIL and TIMEOUT, which an operation has that ran: it is refused before any bus cycle
(R170, R172). -/
inductive OpStatus where
  | eraseBusy | programBusy | fenced | address
  deriving DecidableEq, Repr

/-- A read whose codewords are being recovered by steps 3 and 4 of R174: those left, and whether one was lost. -/
structure Fixing where
  die : Nat
  req : QueuedOp
  left : List Nat
  lost : Bool := false
  deriving DecidableEq, Repr

/-- A codeword whose stripe is being read (R191): the members still to come, and how many are lost. -/
structure Rebuild where
  die : Nat
  unit : Nat
  req : QueuedOp
  waits : List (Nat × Nat)
  lost : Nat
  deriving DecidableEq, Repr

/-- A channel: the protocol in force (R158), the temperature at its last training in quarters of a degree, and the chip enables that have
been re-centred since (R166). -/
structure Chan where
  proto : Nat := 0
  temp : Int := 0
  ces : List Nat := []
  deriving DecidableEq, Repr

/-- One die (R159, R208). -/
structure Die where
  /-- 0 not expected, 1 in use, 2 fenced at bring-up, 3 fenced at runtime, 4 unused channel. -/
  st : Nat := 1
  fence : Nat := 0
  /-- The die's queue of 32 (R169), and what waits for a place in it. -/
  queue : List QueuedOp := []
  backlog : List QueuedOp := []
  running : Option QueuedOp := none
  /-- Domain time at which the running operation started or resumed (R171). -/
  startedAt : Nat := 0
  suspended : Option QueuedOp := none
  suspends : Nat := 0
  /-- Reads served in the present suspend. -/
  served : Nat := 0
  timeoutAt : Option Nat := none
  factoryBad : Nat := 0
  grownBad : Nat := 0
  progFails : Nat := 0
  eraseFails : Nat := 0
  refreshes : Nat := 0
  deepCw : Nat := 0
  /-- Erased members, members retired, erase count of each member. -/
  freeMembers : List Nat := []
  retired : List Nat := []
  /-- Codewords of the die, as its parameter page gives them (R170), and the blocks (member × 4 + plane) for which a spare block stands
  in (R187). -/
  units : Option Nat := none
  swapped : List Nat := []
  erases : Map Nat := []
  /-- Reads of each block since its erase (R205), and refreshes in the erase cycle (R203), by member. -/
  reads : Map Nat := []
  refreshed : Map Nat := []
  /-- The counts of reads that the last checkpoint saved (R205). -/
  readsSaved : Map Nat := []
  /-- In tier 3 the next program of position 1 is a copy's, where one waits (R197). -/
  copyNext : Bool := false
  /-- Tracked offsets by group and page type, and the counters of 0-to-1, 1-to-0 and codewords (R179). -/
  offsets : Map Int := []
  track : Map (Nat × Nat × Nat) := []
  trackAt : Map Nat := []
  deriving DecidableEq, Repr

/-- A journal record (R222). -/
inductive JournalRec where
  | stroke (n seq : Nat) (nsids : List Nat)
  | segment (nsid first : Nat) (entries : List (Nat × Loc)) (seq : Nat)
  | move (nsid lba : Nat) (src dst : Nat × Nat) (seq : Nat)
  | zero (nsid lba units seq : Nat)
  | eraseIntent (band : Nat)
  | eraseDone (band : Nat)
  | band (id : Nat) (kind : Kind) (dies : List Nat) (opens : Bool)
  | nspace (nsid : Nat)
  /-- The journal page from which replay starts, the listed bands with their write positions, the fence list, FTL_CFG, the erase and read
  counts of each die, and the intents that are not done (R223). -/
  | checkpoint (stroke seq from_ : Nat) (listed : List (Nat × Nat)) (fenced : List Nat) (cfg : Nat × Nat)
      (counts : List (Nat × Map Nat × Map Nat)) (intents : List Nat)
  deriving DecidableEq, Repr

/-- A journal record that has been laid into pages: the first and the last page it lies in, counted over the journal, and the staged
pages of it that have not passed program (R222, R223). -/
structure JournalEnt where
  rec_ : JournalRec
  first : Nat := 0
  last : Nat := 0
  waits : List Nat := []
  deriving DecidableEq, Repr

/-- The SEAL summary (R216): the last committed stroke, the SEQ high-water, the source and those that tripped later, the slots of the SEAL
band, and the RSEQ of the last stream-0 record. -/
structure SealSummary where
  stroke : Option Nat
  seq : Nat
  source : Nat
  later : List Nat
  slots : List Slot
  rseq : Nat
  deriving DecidableEq, Repr

/-- A codeword that waits for the deep decoder (R177, R178): its die and unit, its class, the boundaries waited. -/
structure DeepWait where
  die : Nat
  unit : Nat
  cls : Nat
  waited : Nat
  req : QueuedOp
  deriving DecidableEq, Repr

/-- A queued deallocation (R201). -/
structure Dealloc where
  nsid : Nat
  unit : Nat
  count : Nat
  seq : Nat
  deriving DecidableEq, Repr

/-- One entry of log C2h (R86). -/
structure LossEntry where
  id : Nat
  nsid : Nat
  fn : Nat
  sqid : Nat
  lba : Nat
  count : Nat
  cid : Nat
  cause : Nat
  sealed : Bool
  doneAt : Nat
  stroke : Nat
  deriving DecidableEq, Repr

structure FtlSt where
  seq : Nat := 0
  staged : List Staged := []
  nextId : Nat := 0
  media : Map (Map Codeword) := []
  dies : Map Die := []
  bands : Map Band := []
  nextBand : Nat := 0
  deallocs : List Dealloc := []
  /-- Journal records since the last checkpoint, and the number of pages that the journal has taken. -/
  journal : List JournalEnt := []
  journalPages : Nat := 0
  /-- Records not yet laid into a page. -/
  journalNew : List JournalRec := []
  journalBytes : Nat := 0
  sinceCheckpoint : Nat := 0
  /-- Blocks waiting for refresh: die and member. -/
  refreshQ : List (Nat × Nat) := []
  /-- Tilling credit, in units of 1/31,135,104,000,000,000 byte (`tillUnit`). -/
  tillCredit : Nat := 0
  tillAt : Nat := 0
  tillFrom : Nat := 0
  /-- Codewords placed for host and ingest in this stroke and the last (R197). -/
  placed : Nat := 0
  placedLast : Nat := 0
  /-- Write bytes granted for this stroke and for the last (R197). -/
  granted : Nat := 0
  grantedLast : Nat := 0
  gcCount : Nat := 0
  rebuildDie : List Nat := []
  /-- Host units and media codewords of the last 1,024 strokes (R200): this stroke, and the window. -/
  waWindow : List (Nat × Nat) := []
  losses : List LossEntry := []
  lossId : Nat := 0
  /-- Spare pool size at the first format, in 4 KiB units. -/
  poolFirst : Nat := 0
  /-- SEAL band content, and the summary of the last SEAL (R214, R216). -/
  sealBand : List Staged := []
  summary : Option SealSummary := none
  /-- Deep decoder: codewords allotted to each (channel, class), and those waiting: die, class, boundaries waited. -/
  deepAllot : Map Nat := []
  deepSpare : Nat := 0
  deepQ : List DeepWait := []
  /-- The channel that the decoder served last (R178). -/
  deepLast : Nat := 15
  /-- Reads in steps 3 and 4 of R174, and the stripes being read (R191). -/
  fixing : List Fixing := []
  rebuilds : List Rebuild := []
  /-- Operations refused, with their statuses, on their way back to their requesters (R170). -/
  refused : List (Nat × QueuedOp × OpStatus) := []
  /-- Die time slots of positions 4 and 5 left in the stroke, by channel (R42, R169). -/
  slots : Map Nat := []
  chans : Map Chan := []
  formatted : Bool := false
  /-- Installed raw NAND in GiB, as bring-up found it (R24). -/
  rawGib : Nat := 0
  deriving DecidableEq, Repr

/-- A sequence of bound or held ranges. -/
structure Hold where
  first : Nat
  last : Nat
  tag : Nat
  deriving DecidableEq, Repr

/-- What is going on in a namespace (R106). -/
inductive NsBusy where
  | none | formatting | sanitizing | converting
  deriving DecidableEq, Repr

/-- A piece of the data of one stream in one stroke of a sealed namespace (R147, R150, R152): an append, or an ingest run.
It lies at byte `pos` of the namespace over `size` bytes; `skip` bytes of header come before the `bytes` that D covers. -/
structure SealedRun where
  stroke : Nat
  stream : Nat
  pos : Nat
  skip : Nat := 0
  bytes : Nat
  size : Nat
  freed : Bool := false
  deriving DecidableEq, Repr

structure Ns where
  sealed : Bool
  nsze : Nat
  ncap : Nat
  /-- Block size, 4,096 or 512. -/
  blk : Nat := 4096
  attached : List Nat := []
  busy : NsBusy := .none
  stream : Nat := 0
  wp : Nat := 0
  retain : Nat := 0
  rakAlg : Nat := 0
  rak : Bytes := []
  oldest : Nat := 0
  lastNonce : Nat := 0
  holds : Map Hold := []
  runs : List SealedRun := []
  map : Map Loc := []
  /-- Held tail of an ingest namespace (R119). -/
  tail : Bytes := []
  /-- LBAs lost to a deferred error (R84), first and count. -/
  lost : List (Nat × Nat) := []
  /-- Directive streams allocated (R194), and the functions that have the directive enabled. -/
  dirStreams : List Nat := []
  dirOn : List Nat := []
  /-- SEQ at its creation, or at its last format or sanitize: older codewords are none of its data. -/
  born : Nat := 0
  deriving DecidableEq, Repr

/-! ### Ingest (chapter 6) -/

/-- A frame of a flow (R120, R121): its start unit by its place among the stroke's units, or by LBA and offset once it is
laid out. -/
structure Frame where
  ts : Nat
  arr : Nat
  params : Bool := false
  keyed : Bool := false
  idx : Option Nat := none
  lba : Nat := 0
  off : Nat := 0
  deriving DecidableEq, Repr

/-- A gap record that gathers (R123). -/
structure Gap where
  first : Nat := 0
  last : Nat := 0
  runs : Nat := 0
  packets : Nat := 0
  bytes : Nat := 0
  dtime : Nat := 0
  deriving DecidableEq, Repr

/-- A bound flow (R112 to R123). -/
structure Flow where
  fn : Nat
  nsid : Nat
  stream : Nat
  desc : Bytes
  /-- The SSRC in use; none while SSRC_LEARN is unresolved. The SSRC seen, to be written at the next boundary. -/
  ssrc : Option Nat := none
  learned : Option Nat := none
  silent : Bool := false
  idle : Nat := 0
  /-- A packet has been stored or dropped in this stroke; one ever. -/
  touched : Bool := false
  seen : Bool := false
  /-- E, the numbers received within 64 behind it, the pending set (number, packet count, DTIME), and the packet count
  (R122). -/
  e : Option Nat := none
  hist : List Nat := []
  pend : List (Nat × Nat × Nat) := []
  count : Nat := 0
  /-- Units of the open stroke. -/
  units : List Bytes := []
  lastTs : Option Nat := none
  lastMark : Bool := false
  /-- A fragmented NAL is being received (R120). -/
  frag : Bool := false
  frame : Option Frame := none
  /-- Budget left of the stroke, and debt (R42). -/
  left : Nat := 0
  debt : Nat := 0
  /-- Units and bytes of the stroke (R126). -/
  sUnits : Nat := 0
  sBytes : Nat := 0
  /-- Counters of log C5h (R128). -/
  bytes : Nat := 0
  stored : Nat := 0
  lost : Nat := 0
  late : Nat := 0
  dup : Nat := 0
  rateN : Nat := 0
  overN : Nat := 0
  bufN : Nat := 0
  lenN : Nat := 0
  keyN : Nat := 0
  lastStroke : Nat := 0
  /-- Records of the stroke, by KIND. -/
  gaps : Map Gap := []
  /-- The key-frame index, oldest first (R121). -/
  index : List Bytes := []
  deriving DecidableEq, Repr

/-- A port (R108, R109, R125, R128): running, MODE and FEC in force, brought up by a mode change; frames counted. -/
structure Port where
  running : Bool := false
  mode : Nat := 0
  fec : Nat := 0
  quiet : Bool := false
  frames : Nat := 0
  bad : Nat := 0
  unmatched : Nat := 0
  /-- The rate in Mb/s that the PHY of an SGMII port last signalled (R108). -/
  sgmii : Option Nat := none
  deriving DecidableEq, Repr

/-- An accepted STREAM BIND (R113): 0 bind, 1 unbind, 2 modify, 3 ring, 4 ring removal. -/
structure BindReq where
  op : Nat
  fn : Nat
  sqid : Nat
  cid : Nat
  nsid : Nat
  flow : Nat
  desc : Bytes
  at_ : Nat
  deriving DecidableEq, Repr

/-- A key-frame index entry that waits for the layout (R121). -/
structure KeyItem where
  flow : Nat
  stream : Nat
  nsid : Nat
  fn : Nat
  frame : Frame
  deriving DecidableEq, Repr

/-- A summary entry that waits for 2 µs after the boundary (R127): stroke, flows, bytes, packets lost, gap records,
packets, and the items. -/
structure RingPost where
  fn : Nat
  stroke : Nat
  flows : Nat
  bytes : Nat
  lost : Nat
  gaps : Nat
  packets : Nat
  items : List Bytes
  deriving DecidableEq, Repr

structure IngSt where
  flows : Map Flow := []
  ports : Map Port := []
  binds : List BindReq := []
  /-- LINK records of the stroke: port, KIND, DTIME (R122). -/
  links : List (Nat × Nat × Nat) := []
  keys : List KeyItem := []
  posts : List RingPost := []
  /-- The ports have stopped storing: an entry to DROWSE, HIBERNATE or HALT runs (R416). -/
  paused : Bool := false
  deriving DecidableEq, Repr

/-! ### Power and modes (chapters 10, 18, 21) -/

/-- A mode transition (R408). -/
structure ModeTrans where
  dest : Mode
  cause : Nat
  fn : Nat
  note : Bytes
  /-- The point of no return has passed (R82). -/
  committed : Bool := false
  deriving DecidableEq, Repr

/-- A MODE REQUEST that waits for its transition to begin (R411): its queue, CID and mode; it has moved a note; the power states of the
functions before it (R81). -/
structure ModeReq where
  sqid : Nat
  cid : Nat
  mode : Mode
  moved : Bool := false
  before : List (Nat × Nat) := []
  deriving DecidableEq, Repr

/-- The power-up sequence of R462. -/
inductive PowerStage where
  | off | alwaysOn | resetDone | computeGood | bringUp | up
  deriving DecidableEq, Repr

structure ModeSt where
  cur : Mode := .boot
  target : Mode := .boot
  trans : Option ModeTrans := none
  /-- Orderly stop wanted or running: its target after the stop and its cause (R417). -/
  stop : Option (Mode × Nat × Nat × Bytes) := none
  stopping : Bool := false
  /-- ACTIVATE or SANITIZE wanted. -/
  wantActivate : Bool := false
  wantSanitize : Option Nat := none
  /-- The condition of R207 holds. -/
  readOnlyCond : Bool := false
  /-- Latest cause, function and note of a power target change (R410). -/
  powCause : Nat := 1
  powFn : Nat := 0xFF
  powNote : Bytes := []
  /-- Last operational state for wakes (R83, R418). -/
  lastOp : Mode := .run
  modeReqs : List ModeReq := []
  /-- Fetch is stopped for every function (ACTIVATE, orderly stop, SEAL). -/
  fetchStop : Bool := false
  /-- The mount has ended in this BOOT. -/
  mounted : Bool := false
  /-- BOOT is to end in SAFE (MODE REQUEST 2h or a fault). -/
  bootSafe : Bool := false
  sanitizePaused : Option Nat := none
  sanitizeState : Nat := 0
  stage : PowerStage := .alwaysOn
  /-- SEAL: the source, and the sources tripped later (R216). -/
  sealSource : Nat := 0
  sealLater : List Nat := []
  /-- Cause of the next BOOT, as GLB_RESET_CAUSE gives it (R419). -/
  bootCause : Nat := 1
  /-- Namespaces that have received write-type commands, each with the stroke of the last one (R231). -/
  uncommitted : Map Nat := []
  /-- Supply requests that are high: bit 0 core, 1 DRAM, 2 NAND (R461). -/
  reqs : Nat := 0
  /-- Stroke in which the present mode was entered. -/
  enteredAt : Nat := 0
  ignNormalSince : Option Nat := none
  /-- Since this stroke the temperature has stayed 4 °C below the threshold of the thermal step in force (R422). -/
  coolFrom : Option Nat := none
  /-- Stroke at which the latest transition began: at most one begins at a boundary (R408). -/
  begunAt : Option Nat := none
  /-- PERST_N is low (R64); the attention code last sent (R62); RDYBSY_N is driven low (R61); WAKE_N is driven low (R66). -/
  perst : Bool := false
  attnLast : Nat := 0
  busyLow : Bool := true
  wakeLow : Bool := false
  /-- PERST_N has fallen in SEAL, which takes it up when it ends (R64); the device entered HALT in D3cold (R66). -/
  perstSeal : Bool := false
  cold : Bool := false
  /-- The unit state of the last stop, read by the next mount: it was not clean, and its first uncommitted stroke (R231). -/
  unclean : Bool := false
  lostFrom : Nat := 0
  /-- OXV_CTL.HEAD and QOS_MI.TRANSPORT as the last BOOT took them (R455). -/
  head : Bool := false
  miI3c : Bool := false
  /-- CLK_NIB_MAX.MHZ as the last boundary took it (R455). -/
  nibMhz : Nat := 1600
  /-- Writes that wait for the return from DROWSE or HIBERNATE: offset and value (R454). -/
  heldActs : List (Nat × Nat) := []
  /-- Always-on power was lost since the last mount. -/
  aonLost : Bool := true
  deriving DecidableEq, Repr

/-! ### Outstanding commands -/

/-- What a fetched command that has not completed is doing. -/
inductive CmdKind where
  /-- `data` is there when the last byte is in the Inkwell and the write waits to be applied (R77). -/
  | write (slba nblk directive : Nat) (data : Option Bytes)
  /-- `start` is the first LBA, once its transfer has started (R148); `heldFrom` the stroke in which it was first held. -/
  | append (nblk lastBytes expected : Nat) (start heldFrom : Option Nat)
  | zeroes (slba nblk : Nat)
  | dealloc (ranges : List (Nat × Nat))
  | read (slba nblk : Nat) (data : Bytes)
  | compare (slba nblk : Nat) (host data : Bytes)
  /-- `cost` is the bytes read from the media (R92). -/
  | verify (slba nblk cost : Nat)
  | verifyRange (slba nblk : Nat) (chain : Bool) (cost : Nat)
  /-- The write-type commands it waits for, by their place in fetch order. -/
  | flush (waits : List Nat)
  | graphResult (graph run len : Nat)
  deriving DecidableEq, Repr

/-- A fetched command: its place in fetch order, what it is, and whether its data has begun to move. -/
structure Cmd where
  fn : Nat
  sqid : Nat
  cid : Nat
  nsid : Nat
  order : Nat
  kind : CmdKind
  moved : Bool := false
  /-- Media units still to be read (die, unit). -/
  wants : List (Nat × Nat) := []
  failed : Bool := false
  /-- It waits for budget, for Inkwell space, or for the host side (R42, R45, R60). -/
  held : Bool := false
  /-- A read that waits for an earlier write of its order group, or a write-type command that waits to be applied (R77). -/
  blocked : Bool := false
  deriving DecidableEq, Repr

/-! ### Monitors, event inputs and the blot log (chapter 19) -/

/-- A blot log entry (R439). -/
structure Blot where
  seq : Nat
  dtime : Nat
  code : Nat
  severity : Nat
  mode : Nat
  unit : Nat
  count : Nat
  arg : Bytes
  /-- The 32 bytes that the always-on SRAM returns since an error in it that SEC-DED does not correct (R23, R439). -/
  damaged : Option Bytes := none
  deriving DecidableEq, Repr

/-- The debounce of one event input (R435). -/
structure EvtInput where
  cand : Nat := 7
  candCount : Nat := 0
  /-- Domain time of the first sample of the candidate. -/
  candAt : Nat := 0
  kept : Nat := 0
  /-- The first state is still to be declared (R436). -/
  baseline : Bool := true
  lost : Nat := 0
  deriving DecidableEq, Repr

structure MonSt where
  blots : List Blot := []
  blotTotal : Nat := 0
  evts : Map EvtInput := []
  /-- The queue of R437: ink records held in the always-on domain. -/
  queue : List InkRec := []
  /-- Monitors in an overvoltage excursion, those reported for drift. -/
  overVolts : List Nat := []
  drifted : List Nat := []
  /-- Device self-test running: 0 none, 1 short, 2 extended (R70). -/
  selfTest : Nat := 0
  /-- Tunnelled commands, with their controllers, that wait until the device is back from a low-power state (R83, R104). -/
  tunnels : List (Nat × TunnelCmd) := []
  /-- The SEAL band holds a snapshot of the log: its entries and the next SEQ (R440). -/
  sealLog : Option (List Blot × Nat) := none
  /-- Endpoint configuration over MI (R104): SMBus frequency, health status change, MCTP unit size. -/
  miFreq : Nat := 1
  miHealth : Nat := 0
  miMtu : Nat := 64
  /-- Microseconds of strokes that ended at or above WCTEMP and CCTEMP (R430). -/
  warnUs : Nat := 0
  critUs : Nat := 0
  deriving DecidableEq, Repr

/-! ### Oxvia (chapter 17) -/

/-- One Oxvia link: 0 OXA0, 1 OXA1, 2 OXB0, 3 OXB1. -/
structure OxvLink where
  txSeq : Nat := 1
  rxSeq : Nat := 0
  /-- REL frames held until ACK covers them, and those that wait for room among 256: sequence and bytes (R392). -/
  replay : List (Nat × Bytes) := []
  /-- Replays in a row of one frame (R389). -/
  replays : Nat := 0
  /-- The neighbour's HELLO: LINK_REV, LINK_MIN, DOMAIN_TAG, device ID. -/
  hello : Option (Nat × Nat × Nat × Nat) := none
  /-- Sending of DELAY_REQ: the domain time it left at (R38). -/
  delayAt : Option Nat := none
  deriving DecidableEq, Repr

/-- What the last STATUS frame of a member said (R391, R405), the hops and the link it took, and CORR of its last MARK. -/
structure MemberStat where
  mode : Nat := 0
  attn : Nat := 0
  rev : Nat := 0
  min : Nat := 0
  index : Nat := 0
  lag : Nat := 0
  ups : Nat := 0
  dtime : Nat := 0
  hops : Nat := 0
  link : Nat := 0xFF
  corr : Nat := 0
  /-- The root's STATE in its last MARK was HOLDOVER. -/
  holdover : Bool := false
  lost : Bool := false
  deriving DecidableEq, Repr

/-- A DOMAIN CONFIGURE that this device coordinates (R404): the command, its structure, the stroke it began in, the members
ready and those that have acknowledged, and the boundary of the COMMIT. -/
structure Coord where
  fn : Nat
  sqid : Nat
  cid : Nat
  cfg : Bytes
  since : Nat
  ready : List Nat := []
  acked : List Nat := []
  commitAt : Option Nat := none
  deriving DecidableEq, Repr

/-- One mirror pair by its OXV_MIRROR entry (R400 to R402): the partner's end as its last CONTROL frame gave it, the next
LBA to send or to take, the last acknowledged stroke, whether a FAULT 12h stands, whether the target is full. -/
structure MirrorPair where
  agreed : Bool := false
  fit : Bool := false
  /-- The pair has been active: a restart does not ask for an empty target again. -/
  formed : Bool := false
  next : Nat := 0
  /-- The last acknowledged stroke, and the LBA after its last block. -/
  acked : Option Nat := none
  ackNext : Nat := 0
  warned : Bool := false
  full : Bool := false
  /-- At the target: the source stroke of the blocks that arrive. -/
  stroke : Option Nat := none
  /-- At the target: the part of a block that has arrived. -/
  part : Bytes := []
  deriving DecidableEq, Repr

structure OxvSt where
  links : Map OxvLink := []
  /-- The domain: DOMAIN_TAG (0 none), rings, root, and the committed structure of R403. -/
  tag : Nat := 0
  rings : Nat := 1
  root : Nat := 0
  cfg : Bytes := []
  /-- A configuration this device is prepared for: coordinator and structure; the boundary of its COMMIT. -/
  prepared : Option (Nat × Bytes) := none
  commitAt : Option Nat := none
  coord : Option Coord := none
  stats : Map MemberStat := []
  /-- SRC and SEQ of BCAST frames seen, newest first (R394). -/
  seen : List (Nat × Nat) := []
  /-- The count of the last valid MARK taken. -/
  lastMark : Option Nat := none
  mirrors : Map MirrorPair := []
  /-- SEQ of the next BCAST frame of this device. -/
  bcastSeq : Nat := 0
  /-- Commands sent to followers and not answered: proxy, queue, CID (R399). -/
  proxied : List (Nat × Nat × Nat) := []
  /-- Frames held for an unreachable member: destination, TYPE, payload (R394). -/
  held : List (Nat × Nat × Bytes) := []
  deriving DecidableEq, Repr

/-! ### The Inkstone and the firmware (chapter 16) -/

/-- A program or erase that a bank runs: who asked (0 the scribe firmware, 1 the PF, 2 + k Nib core k), 1 program or 2
erase, the address and the data. -/
structure InkOp where
  who : Nat
  op : Nat
  addr : Nat
  data : Bytes
  deriving DecidableEq, Repr

/-- One bank: its running operation and its runtime table (R369): a bad sector and its spare, or none. -/
structure InkBank where
  running : Option InkOp := none
  table : List (Nat × Option Nat) := []
  deriving DecidableEq, Repr

/-- The SPACE 4 window of a Nib core (R370). -/
structure InkWin where
  data : Map Byte := []
  addr : Nat := 0
  status : Nat := 0
  deriving DecidableEq, Repr

/-- A settings copy (R374): SEQ, FORMAT, the dwords of every Stored field, the VPD of its identity block (R375), and whether its
CRC checks. -/
structure SettingsCopy where
  seq : Nat
  format : Nat
  values : Map Word32
  vpd : Map Byte := []
  good : Bool := true
  deriving DecidableEq, Repr

structure InkSt where
  /-- The array by logical byte address; an erased byte reads FFh. -/
  bytes : Map Byte := []
  banks : Map InkBank := []
  wins : Map InkWin := []
  copies : List SettingsCopy := []
  /-- Domain time of the last write to a Stored field that is not saved; a save asked for. -/
  storedAt : Option Nat := none
  saveNow : Bool := false
  /-- 128-bit words (byte address / 16) whose bad copy a correction left behind (R365). -/
  bad : List Nat := []
  /-- The identity block's VPD, written over MI; a settings copy saves it (R104, R375). -/
  vpd : Map Byte := []
  deriving DecidableEq, Repr

/-- The firmware state beside the FWU registers and the staging area (R376 to R383). -/
structure FwSt where
  /-- The activation record: components copied so far, once it is programmed. -/
  record : Option (List Nat) := none
  /-- A commit whose ACTIVATE is to begin or runs: function, queue, CID. -/
  commit : Option (Nat × Nat × Nat) := none
  /-- Revisions of the four components in bank 0. -/
  bank0 : List Nat := [0, 0, 0, 0]
  deriving DecidableEq, Repr

/-! ### Nib cores and the Ductus (chapters 11 and 12) -/

/-- An operation of the bundle that is being fetched: unit (0 A0, 1 A1, 2 M, 3 L), OP, the 23 bits below it. -/
structure NibWord where
  unit : Nat
  op : Nat
  f : Nat
  stop : Bool
  data : Chk
  deriving DecidableEq, Repr

/-- A DRAM window of a node (R233, R270): its buffer, its first byte there, its length in words, write permission. -/
structure NibWindow where
  buf : Nat
  off : Nat
  words : Nat
  write : Bool
  deriving DecidableEq, Repr

/-- One core (R238 to R242). Local words are listed once they have been written. -/
structure NibCore where
  pc : Nat := 0
  xip : Bool := false
  /-- b, o and the number of resident halves. -/
  win : Nat := 0
  oldest : Nat := 0
  depth : Nat := 2
  w : Map (BitVec 16) := []
  f : Map (BitVec 16) := []
  tvbase : Nat := 0
  tpc : Nat := 0
  tpcx : Nat := 0
  tflags : Nat := 0
  tcause : Nat := 0
  tinfo : Nat := 0
  spbase : Nat := 0
  splim : Nat := 0
  xpage : Nat := 0
  /-- CYCLE_HI as the last read of LO latched it. -/
  cycHi : Nat := 0
  imem : Map (BitVec 16) := []
  dmem : Map (BitVec 16) := []
  /-- Instruction and data words whose bad copy a correction left behind (R265). -/
  badI : List Nat := []
  badD : List Nat := []
  bundle : List NibWord := []
  /-- The active repeat is a REPN; its REPI or REPN bundle. -/
  repN : Bool := false
  repAt : Nat := 0
  /-- `repN` and `repAt` as the trap found them. -/
  trapRepN : Bool := false
  trapRepAt : Nat := 0
  tick : Bool := false
  notify : Bool := false
  windows : Map NibWindow := []
  grant4 : Bool := false
  /-- A pre-emption waits for the core to accept it (R281). -/
  preempt : Bool := false
  /-- Domain time of the dispatch or resume, and the core-microseconds charged since then (R280). -/
  since : Nat := 0
  paid : Nat := 0
  /-- The saved node was in a WAIT (R281). -/
  inWait : Bool := false
  deriving DecidableEq, Repr

/-- Node kinds of R271. -/
inductive NodeKind where
  | nib | digest | cipher | sign | compress | decompress | sieve | mediaRead | mediaWrite | dramCopy | hostIn | hostOut
  | join
  deriving DecidableEq, Repr

/-- A binding entry (R270). -/
structure GBind where
  buf : Nat
  slot : Nat
  write : Bool
  off : Nat
  deriving DecidableEq, Repr

/-- A node descriptor (R270), with its edges (successor, LATE) and bindings. -/
structure GNode where
  kind : NodeKind
  flags : Nat
  succs : List (Nat × Bool)
  affinity : Nat
  fallback : Nat
  timeout : Nat
  binds : List GBind
  image : Nat
  entry : Nat
  xpage : Nat
  params : Bytes
  deriving DecidableEq, Repr

structure GBuf where
  size : Nat
  zero : Bool
  result : Bool
  data : Map Byte := []
  deriving DecidableEq, Repr

/-- What an engine job takes at its dispatch: its length (R291), its key (R298), the resume record and the output ranges (R324,
R326), and the data that a media read resolves (R78, R271). -/
structure JobHold where
  len : Nat := 0
  /-- The shared engine that serves it: 0 digest lanes, 1 cipher pipelines, 2 line-rate compression, 3 levels compression (R19). -/
  eng : Option Nat := none
  key : Bytes := []
  record : Bytes := []
  ranges : List (Nat × Nat × Nat) := []
  media : Bytes := []
  /-- Blocks that CMP_CTL.VERIFY keeps raw (R343). -/
  kept : List Nat := []
  /-- Media units still to be read, and whether one of them is lost. -/
  wants : List (Nat × Nat) := []
  lost : Bool := false
  deriving DecidableEq, Repr

/-- Execution of one node in a run (R276). -/
structure NodeRun where
  st : Nat := 0
  code : Nat := 0
  bytes : Nat := 0
  used : Nat := 0
  core : Nat := 0xFFFF
  /-- Boundaries waited (R283), and domain time of READY (R279). -/
  waited : Nat := 0
  readyAt : Nat := 0
  /-- The saved context, and the core whose mode-entry slot holds it (R278, R281). -/
  saved : Option NibCore := none
  slot : Option Nat := none
  /-- A LATE predecessor ended before the node ran (R282). -/
  notify : Bool := false
  /-- Domain time at which the node ended. -/
  endAt : Nat := 0
  job : JobHold := {}
  deriving DecidableEq, Repr

structure GRun where
  id : Nat
  tag : Nat
  limit : Nat
  /-- 0 running, 1 done, 2 aborted, 3 failed (R285). -/
  state : Nat := 0
  status : Status := .success
  failing : Nat := 0xFFFF
  tcause : Nat := 0
  tpc : Nat := 0
  start : Nat := 0
  stop : Nat := 0
  coreUs : Nat := 0
  engine : Nat := 0
  gCore : Nat := 0
  gEng : Nat := 0
  dCore : Nat := 0
  dEng : Nat := 0
  nodes : List NodeRun := []
  deriving DecidableEq, Repr

structure Graph where
  fn : Nat
  nodes : List GNode
  bufs : List GBuf
  images : List Bytes
  timeout : Nat
  coreUs : Nat
  engineKib : Nat
  nextRun : Nat := 0
  run : Option GRun := none
  deriving DecidableEq, Repr

/-- A GRAPH START accepted for a boundary (R105, R275). -/
structure GStart where
  graph : Nat
  tag : Nat
  limit : Nat
  fn : Nat
  sqid : Nat
  cid : Nat
  at_ : Nat
  deriving DecidableEq, Repr

structure DuctSt where
  cores : Map NibCore := []
  /-- Cluster shared words that have been written, by cluster. -/
  shared : Map (Map (BitVec 16)) := []
  /-- Cluster shared words (cluster, address) whose bad copy a correction left behind (R265). -/
  sharedBad : List (Nat × Nat) := []
  graphs : Map Graph := []
  /-- Partial images, by function. -/
  partials : Map Bytes := []
  /-- Ready entries in arrival order: class, graph, node (R278). -/
  ready : List (Nat × Nat × Nat) := []
  starts : List GStart := []
  deriving DecidableEq, Repr

/-! ### Engines (chapters 13 and 14) -/

/-- A key slot that holds a key (R304). -/
structure KeySlot where
  use : Nat
  owner : Nat
  any : Bool
  key : Bytes
  deriving DecidableEq, Repr

/-- A feed on the register path (R292). -/
structure Feed where
  alg : Nat
  hmac : Bool
  compare : Bool
  trunc : Nat
  key : Bytes
  len : Nat
  count : Nat := 0
  data : Bytes := []
  tooLong : Bool := false
  closed : Bool := false
  deriving DecidableEq, Repr

/-- What R19 allots of one engine in a stroke: sealing's part, which is lent to nobody, the part of each class, and what nobody
has asked for. -/
structure Allot where
  sealing : Nat := 0
  cls : Map Nat := []
  spare : Nat := 0
  deriving DecidableEq, Repr

/-- A shared engine (R19): its allotment, the jobs (graph, node) on its instances, and those that wait, in arrival order. -/
structure EngQ where
  allot : Allot := {}
  on : List (Nat × Nat) := []
  wait : List (Nat × Nat) := []
  deriving DecidableEq, Repr

/-- A fetched command that waits for its function's byte budget (R42, R92) or for the signature unit (R309): PROOF READ, EXPORT,
GRAPH LOAD and its release form, RELEASE and DRYRUN, KEY BLOB LOAD, and a VERIFY RANGE with CHAIN whose reads have ended. -/
inductive LateCmd where
  | proof (q : Sqe) (stroke kind numd : Nat)
  | bundle (q : Sqe) (first last comp level : Nat) (proofs sign : Bool) (numd resume : Nat)
  | load (q : Sqe) (numd off total : Nat) (data : Bytes)
  | free (q : Sqe) (numd off handle high : Nat)
  | token (q : Sqe) (numd : Nat) (token : Bytes) (dryrun : Bool)
  | blob (q : Sqe) (numd slot wrap : Nat) (blob : Bytes)
  | check (fn sqid cid : Nat)
  deriving DecidableEq, Repr

/-- An operation of the signature unit (R309): a flourish signature, a SIGN node, or one of a command. -/
inductive SignUse where
  | flourish
  | job (graph node : Nat)
  | cmd (c : LateCmd)
  deriving DecidableEq, Repr

structure CryptSt where
  slots : Map KeySlot := []
  feed : Option Feed := none
  /-- The expected value written to FEED_EXPECT, by dword. -/
  expect : Map Word32 := []
  /-- The media key table (R305), by namespace ID, and how many keys the DRBG has made. -/
  mediaKeys : Map Bytes := []
  keyCount : Nat := 0
  /-- Saved contexts: job (graph, node) and whether it is one of 240 to 255 (R297). -/
  contexts : List (Nat × Nat × Bool) := []
  /-- Blocks that a compression job has finished, by graph and node (R330). -/
  blocks : List (Nat × Nat × Nat) := []
  /-- GCM contexts held, by graph and node (R297). -/
  gcm : List (Nat × Nat) := []
  /-- The shared engines by number (`JobHold.eng`); 4 is the signature unit, of which only the allotment stands here. -/
  engs : Map EngQ := []
  /-- The operation of the signature unit that runs, and those that wait, in arrival order (R21, R309). -/
  signing : Option SignUse := none
  signQ : List SignUse := []
  deriving DecidableEq, Repr

/-- A Sieve entry (R334): value and care mask of 144 bits. An invalid entry is not listed. -/
structure SieveEntry where
  value : Nat
  care : Nat
  cls : Nat
  result : Nat
  deriving DecidableEq, Repr

structure SieveSt where
  /-- Entries by partition and index within it. -/
  parts : Map (Map SieveEntry) := []
  /-- Size in entries and first index of each partition, as taken at BOOT. -/
  sizes : Map Nat := []
  /-- The matches that remain to the register path, the current one first (R336). -/
  hits : List (Nat × SieveEntry) := []
  scanAt : Nat := 0
  /-- Pre-filter patterns (value, care) of entries that left a bank since the scan last passed it: its map still shows them (R337). -/
  ghosts : Map (List (Nat × Nat)) := []
  deriving DecidableEq, Repr

/-! ### DRAM (chapter 15) -/

structure DramSt where
  /-- Domain time of the last retraining, and the memory temperature then. -/
  lastTrain : Nat := 0
  lastTemp : Int := 25
  /-- A gathering has ended and its delays wait for the boundary. -/
  applyDue : Bool := false
  /-- Budgets left of the stroke, in bytes: RT, CMD, BULK, BG (R353). -/
  rt : Nat := 0
  cmd : Nat := 0
  /-- What the next refills of CMD and BULK lose (R42). -/
  cmdDebt : Nat := 0
  bulkDebt : Nat := 0
  bulk : Nat := 0
  bg : Nat := 0
  /-- Panic sources: ports 0 to 3, and 4 for media write (R355). -/
  panics : List Nat := []
  /-- The refresh multiplier's code that each channel's memory last asked for, and DRM_CTL.FORCE_2X as the last boundary took it (R351,
  R455). -/
  need : List Nat := []
  force2x : Bool := false
  /-- Channels whose clocks have stopped for self-refresh (R350). -/
  selfRefresh : Bool := false
  deriving DecidableEq, Repr

/-- A resume state of EXPORT (R155): its cookie, whose it is, the stroke of its last use, and the bytes still to come. -/
structure ExportSt where
  cookie : Nat
  fn : Nat
  nsid : Nat
  used : Nat
  rest : Bytes
  deriving DecidableEq, Repr

/-! ### The machine -/

structure State where
  /-- BAR2: dwords that differ from their power-on value (R446). -/
  regs : Map Word32 := []
  /-- HI halves captured by the last LO reads (R452), and multi-dword writes that are held (R451). -/
  latch : Map Word32 := []
  heldWrites : Map Word32 := []
  qos : Map QosInForce := []
  mode : ModeSt := {}
  time : TimeSt := {}
  stats : List StrokeStat := []
  chain : ChainSt := {}
  fns : Map Fn := []
  numVfs : Nat := 0
  cmds : List Cmd := []
  orderNext : Nat := 0
  trans : List Transition := []
  nss : Map Ns := []
  ftl : FtlSt := {}
  ing : IngSt := {}
  mon : MonSt := {}
  oxv : OxvSt := {}
  ink : InkSt := {}
  fw : FwSt := {}
  duct : DuctSt := {}
  crypt : CryptSt := {}
  sieve : SieveSt := {}
  dram : DramSt := {}
  exports : List ExportSt := []
  /-- Fetched commands that wait for a byte budget, in fetch order (R42, R92). -/
  late : List LateCmd := []
  /-- The turn of the spent functions of each class: whose it is, and the entries it may still fetch (R99). -/
  spill : Map (Nat × Nat) := []
  out : List Out := []
  /-- The model's own: how many free values have been taken (notes/assumptions/2). -/
  freeCount : Nat := 0
  pending : List Instr := []
  deriving DecidableEq, Repr

/-- The part right after power-on: every register at its power-on value, the mode BOOT with the mount to come
(R407, R413), memory and media with nothing listed, no command waiting. -/
def State.reset : State := {}

end Sys2Proof.Machine
end

