-- ==== Sys2Proof/Machine/Codes.lean ====
section
/-!
DEFINITION. The numbers of the completion statuses: SCT in [11:8] and SC in [7:0] (spec/12 R285). The vendor ones are R91's;
those of the standard ones are the base specification's (notes/assumptions/13).
-/

namespace Sys2Proof.Machine

def Status.code : Status → Nat
  | .success => 0x000
  | .invalidOpcode => 0x001
  | .invalidField => 0x002
  | .dataTransferError => 0x004
  | .abortRequested => 0x007
  | .abortedSqDeletion => 0x008
  | .invalidNamespaceOrFormat => 0x00B
  | .commandSequenceError => 0x00C
  | .sglLengthInvalid => 0x00F
  | .invalidSglCount => 0x00E
  | .sglDescriptorTypeInvalid => 0x011
  | .prpOffsetInvalid => 0x013
  | .sanitizeInProgress => 0x01D
  | .lbaOutOfRange => 0x080
  | .capacityExceeded => 0x081
  | .namespaceNotReady => 0x082
  | .formatInProgress => 0x084
  | .completionQueueInvalid => 0x100
  | .invalidQueueId => 0x101
  | .invalidQueueSize => 0x102
  | .abortLimitExceeded => 0x103
  | .asyncEventLimitExceeded => 0x105
  | .invalidFirmwareSlot => 0x106
  | .invalidFirmwareImage => 0x107
  | .invalidInterruptVector => 0x108
  | .invalidLogPage => 0x109
  | .invalidQueueDeletion => 0x10C
  | .featureNotSaveable => 0x10D
  | .namespaceInsufficientCapacity => 0x115
  | .namespaceIdUnavailable => 0x116
  | .namespaceAlreadyAttached => 0x118
  | .namespaceNotAttached => 0x11A
  | .selfTestInProgress => 0x11D
  | .invalidControllerId => 0x11F
  | .invalidSecondaryState => 0x120
  | .invalidControllerResources => 0x121
  | .overlappingRange => 0x114
  | .firmwareActivationProhibited => 0x113
  | .internalError => 0x006
  | .unrecoveredRead => 0x281
  | .compareFailure => 0x285
  | .deallocatedOrUnwritten => 0x287
  | .strokeOverrun => 0x780
  | .sealedRange => 0x781
  | .holdActive => 0x782
  | .deferredMedia => 0x783
  | .authFail => 0x784
  | .lengthMismatch => 0x785
  | .engineLimit => 0x786
  | .domainUnreachable => 0x787
  | .programTrap => 0x788
  | .readOnlyMedia => 0x789
  | .statePending => 0x78A
  | .keyUnwrapFail => 0x78B
  | .decompError => 0x78C
  | .graphTimeout => 0x78D
  | .compareFault => 0x78E
  | .outputExhausted => 0x78F
  | .commandInterrupted => 0x021
  | .invalidFormat => 0x10A
  | .controllerListInvalid => 0x11C
  | .raw c => c % 2 ^ 14

/-- Do Not Retry of the vendor statuses (R91). -/
def Status.dnr : Status → Bool
  | .sealedRange | .holdActive | .authFail | .lengthMismatch | .engineLimit | .programTrap | .readOnlyMedia
  | .keyUnwrapFail | .decompError | .graphTimeout => true
  | .raw c => c / 2 ^ 14 % 2 = 1
  | _ => false

/-- The status field as a follower sends it to its head (R398): the code, and DNR in bit 14. -/
def Status.field (st : Status) : Nat := st.code + (if st.dnr then 2 ^ 14 else 0)

end Sys2Proof.Machine
end

