-- ==== Sys2Proof/Machine/Regs.lean ====
section
/-!
DEFINITION. The register file of BAR2 (spec/20_register_map.md R446 to R457): the value an untouched dword reads, field
reads and writes, the access codes of R5, rejected values (R450), and what a field that the hardware keeps reads as.
-/

namespace Sys2Proof.Machine

/-- The table of the block that an offset falls in; outside every block, nothing (R446, R448). -/
def blockOf (off : Nat) : List FieldDesc :=
  match blockTable.find? (fun b => b.1 ≤ off && off < b.2.1) with
  | some b => b.2.2
  | none => []

/-- The index at which a field's array covers the dword at `off`. -/
def FieldDesc.indexAt (d : FieldDesc) (off : Nat) : Option Nat :=
  if off < d.off then none
  else if d.count ≤ 1 then (if off = d.off then some 0 else none)
  else
    let i := (off - d.off) / d.stride
    if i < d.count && d.off + i * d.stride = off then some i else none

/-- The fields of the dword at `off`, each with its index. -/
def fieldsAt (off : Nat) : List (FieldDesc × Nat) :=
  (blockOf off).filterMap (fun d => (d.indexAt off).map (fun i => (d, i)))

/-- NOM_MV of monitor `i` in mV (R459): fuses. -/
def nominalMv (i : Nat) : Nat :=
  if i < 8 then 750
  else if i < 10 then 800
  else if i < 14 then 1200
  else if i < 16 then 750
  else if i < 18 then 500
  else if i = 18 then 1050
  else if i < 21 then 850
  else if i < 23 then 1200
  else if i = 23 then 1800
  else if i = 24 then 750
  else if i = 25 then 1800
  else if i < 29 then Config.regulatorMv i
  else if i = 29 then 3300
  else if i = 30 then 2500
  else 850

/-- Power-on values that differ along an array: FLOW_QUOTA on the PF (R67), MON_VMON limits from the fuses (R443, R459),
the read-only sizes of Sieve partitions 0 and 1 (R343), the PF's own queue pairs, vectors and ONLINE (R67), the ports' factory
addresses (R129), and PFAIL_N high (notes/assumptions/41). -/
def fieldReset (d : FieldDesc) (i : Nat) : Nat :=
  if d.off = 0x06804 && d.lo = 16 then (if i = 0 then 4096 else 0)
  else if d.off = 0x03204 && d.lo = 16 then nominalMv i % 4096
  else if d.off = 0x03204 && d.lo = 0 then (nominalMv i % 4096) * 92 / 100
  else if d.off = 0x31040 && d.lo = 0 then (if i = 1 then 8 else 16)
  else if d.off = 0x02000 && d.lo = 4 then 1
  else if d.off = 0x06800 && i = 0 then (if d.lo = 0 then 512 else 64)
  else if d.off = 0x06804 && i = 0 && d.lo = 0 then 1
  else if d.off = 0x0C104 then Config.factoryMac i % 2 ^ 32
  else if d.off = 0x0C108 then Config.factoryMac i / 2 ^ 32 % 65536
  else d.reset

/-- What the dword at `off` reads when nothing has changed it. -/
def regDefault (off : Nat) : Word32 :=
  BitVec.ofNat 32 ((fieldsAt off).foldl (fun a e => a + (fieldReset e.1 e.2 % 2 ^ (e.1.hi + 1 - e.1.lo)) * 2 ^ e.1.lo) 0)

def getReg (s : State) (off : Nat) : Nat := (sget regDefault s.regs off).toNat

def setReg (off v : Nat) (s : State) : State :=
  { s with regs := sset regDefault s.regs off (BitVec.ofNat 32 v) }

def getF (s : State) (f : Fld) : Nat := bits (getReg s f.off) f.hi f.lo

def flagF (s : State) (f : Fld) : Bool := getF s f != 0

def setF (f : Fld) (v : Nat) (s : State) : State :=
  setReg f.off (setBits (getReg s f.off) f.hi f.lo v) s

/-- A saturating counter field (R453). -/
def incF (f : Fld) (n : Nat) (s : State) : State :=
  setF f (satAdd (getF s f) n (2 ^ (f.hi + 1 - f.lo) - 1)) s

/-- The CFG_ERR bit of a block, by the first offset of its span (R450); blocks without one use GLB_ERR. -/
def cfgErrFld (off : Nat) : Fld :=
  if 0x01000 ≤ off && off < 0x02000 then CLK_STATUS_CFG_ERR
  else if 0x02000 ≤ off && off < 0x03000 then PWR_STATUS_CFG_ERR
  else if 0x03000 ≤ off && off < 0x04000 then MON_STATUS_CFG_ERR
  else if 0x05000 ≤ off && off < 0x06000 then EVT_STATUS_CFG_ERR
  else if 0x06000 ≤ off && off < 0x08000 then FN_STATUS_CFG_ERR
  else if 0x08000 ≤ off && off < 0x0A000 then QOS_STATUS_CFG_ERR
  else if 0x0A000 ≤ off && off < 0x0C000 then STK_STATUS_CFG_ERR
  else if 0x0C000 ≤ off && off < 0x10000 then ING_STATUS_CFG_ERR
  else if 0x10000 ≤ off && off < 0x12000 then PNC_STATUS_CFG_ERR
  else if 0x12000 ≤ off && off < 0x22000 then MED_STATUS_CFG_ERR ((off - 0x12000) / 0x1000)
  else if 0x22000 ≤ off && off < 0x23000 then LDP_STATUS_CFG_ERR
  else if 0x23000 ≤ off && off < 0x24000 then FTL_STATUS_CFG_ERR
  else if 0x2C000 ≤ off && off < 0x2D000 then DCT_STATUS_CFG_ERR
  else if 0x2F000 ≤ off && off < 0x30000 then SGN_STATUS_CFG_ERR
  else if 0x31000 ≤ off && off < 0x32000 then SIV_STATUS_CFG_ERR
  else if 0x32000 ≤ off && off < 0x34000 then DRM_STATUS_CFG_ERR
  else if 0x35000 ≤ off && off < 0x36000 then OXV_STATUS_CFG_ERR
  else GLB_ERR_CFG_ERR

def cfgErr (off : Nat) (s : State) : State := setF (cfgErrFld off) 1 s

/-- A value lies in the range or the list that the field's Effect text defines (R450). -/
def Valid.ok (v : Valid) (x : Nat) : Bool :=
  match v with
  | .any => true
  | .range lo hi => lo ≤ x && x ≤ hi
  | .signed8 m => x ≤ m || (256 - m ≤ x && x < 256)
  | .holes => x == 0 || (2 ≤ x && x ≤ 6)

/-- One field after a write of `x` to it: its new value, and whether the value was rejected (R5, R450). -/
def fieldAfter (d : FieldDesc) (old x : Nat) : Nat × Bool :=
  match d.acc with
  | .rw => if d.valid.ok x then (x, false) else (old, true)
  | .ro => (old, false)
  | .wo => (0, false)
  | .rw1c => ((List.range (d.hi + 1 - d.lo)).foldl
      (fun a i => if bitAt x i && bitAt a i then a - 2 ^ i else a) old, false)
  | .rw1s => ((List.range (d.hi + 1 - d.lo)).foldl
      (fun a i => if bitAt x i && !bitAt a i then a + 2 ^ i else a) old, false)
  | .rwo => (old, false)

/-- Partitions 0 and 1 of the Sieve and their size are fixed: SIZE_K, OWNER and ANY are read-only there (R343). -/
def fixedField (d : FieldDesc) (i : Nat) : Bool := d.off == 0x31040 && i ≤ 1 && d.lo < 16

/-- A dword after a write of `v`, field by field, and whether some field rejected its value. -/
def dwordAfter (off old v : Nat) : Nat × Bool :=
  (fieldsAt off).foldl
    (fun a e =>
      if fixedField e.1 e.2 then a
      else
        let r := fieldAfter e.1 (bits old e.1.hi e.1.lo) (bits v e.1.hi e.1.lo)
        (setBits a.1 e.1.hi e.1.lo r.1, a.2 || r.2)) (old, false)

/-- A plain write of a whole dword by the host, with the block's CFG_ERR where a field rejects its value. -/
def plainWrite (off v : Nat) (s : State) : State :=
  let r := dwordAfter off (getReg s off) v
  let s1 := setReg off r.1 s
  if r.2 then cfgErr off s1 else s1

/-- Some field of the dword is Stored (R374). -/
def hasStored (off : Nat) : Bool := (fieldsAt off).any (fun e => e.1.stored)

/-- The mode codes of R407. -/
def Mode.code : Mode → Nat
  | .halt => 0
  | .boot => 1
  | .safe => 2
  | .run => 3
  | .lean => 4
  | .park => 5
  | .drowse => 6
  | .hibernate => 7
  | .seal => 8
  | .readOnly => 9
  | .sanitize => 10
  | .activate => 11

/-- Domain time (R7). -/
def now (s : State) : Nat := s.time.stroke * 65536 + s.time.frac

/-- What a BAR2 read of a dword returns outside the latched pairs: the register file, with the fields that another
part of the state holds (GLB_MODE, STK_NOW) laid over it. -/
def regView (s : State) (off : Nat) : Nat :=
  if off = 0x00004 then
    setBits (setBits (setBits (getReg s off) 3 0 s.mode.cur.code) 7 4 s.mode.target.code) 8 8
      (bit s.mode.trans.isSome)
  else if off = 0x0A00C then now s % 2 ^ 32
  else if 0x06810 ≤ off && off < 0x07000 && s.numVfs < (off - 0x06800) / 16 then 0
  else getReg s off

/-- LO and HI offsets of the pairs that R452 latches, and the current HI value. -/
def latchPair (s : State) (lo : Nat) : Option (Nat × Nat) :=
  if lo = 0x0A00C then some (0x0A010, now s / 2 ^ 32 % 2 ^ 32)
  else if lo = 0x10008 || lo = 0x10010 || lo = 0x23028 || lo = 0x23030 || lo = 0x2D0C0 || lo = 0x32038 then
    some (lo + 4, getReg s (lo + 4))
  else none

/-- The HI half of a latched pair. -/
def isLatchedHi (off : Nat) : Bool :=
  off == 0x0A010 || off == 0x1000C || off == 0x10014 || off == 0x2302C || off == 0x23034 || off == 0x2D0C4 ||
    off == 0x3203C

/-- Blocks that BOOT serves for reads (R454): GLB, FN, MON, LOG, FWU. -/
def servedInBoot (off : Nat) : Bool :=
  off < 0x01000 || (0x06000 ≤ off && off < 0x08000) || (0x03000 ≤ off && off < 0x05000) ||
    (0x36000 ≤ off && off < 0x37000)

/-- The value that a BAR2 read of one dword returns in the present mode (R447, R452, R454); none where no completion
is returned (SEAL, HALT). -/
def readReg (s : State) (off : Nat) : Option Nat :=
  match s.mode.cur with
  | .seal | .halt => none
  | .boot => if servedInBoot off then some (regView s off) else some 0
  | _ => if isLatchedHi off then some ((mget s.latch off).getD 0).toNat else some (regView s off)

end Sys2Proof.Machine
end

