-- ==== Sys2Proof/Machine/Ops.lean ====
section
/-!
DEFINITION. The operations that many commands share: domain time, outputs, blots, stream-0 records, asynchronous
events, interrupts, completions, and the gates that decide whether a function's command is fetched
(spec/02 R7, spec/03 R51, R57 to R60, spec/04 R74, R75, R80, R85, R91, spec/07 R136, R137, R474, spec/19 R436 to R441).
-/

namespace Sys2Proof.Machine

/-- Every command answers a next state. -/
abbrev Result := Host.Outcome State Fault Refusal

def emit (o : Out) (s : State) : State := { s with out := s.out ++ [o] }

/-- A free value, and the state that has taken it (notes/assumptions/2). -/
def takeFree (s : State) : Nat × State := (Config.freeNat s.freeCount, { s with freeCount := s.freeCount + 1 })

/-- Domain time advances to the fraction at which an event falls; it never runs back (R8). -/
def atFrac (frac : Nat) (s : State) : State :=
  if s.time.frac ≤ frac && frac < 65536 then { s with time := { s.time with frac := frac } } else s

/-! ### Digests -/

/-- Bytes of a digest, by algorithm code (R293). -/
def digestLen (alg : Nat) : Nat :=
  match alg with
  | 1 => 32
  | 2 => 48
  | 3 => 64
  | 4 => 32
  | 5 => 48
  | _ => 32

def digest (alg : Nat) (m : Bytes) : Bytes := fixLen (digestLen alg) (Config.rawDigest alg m)

/-- H of the chain (R130). -/
def chainH (s : State) (m : Bytes) : Bytes := digest s.chain.hashSel m

/-- The device ID of R403 and R386. -/
def deviceId (s : State) : Nat := getF s OXV_ID_DEVICE

/-! ### Modes -/

/-- A stroke is being sealed in this mode (R474): not in HALT, SAFE, DROWSE, HIBERNATE, nor in BOOT before the mount. -/
def Mode.seals : Mode → Bool
  | .run | .lean | .park | .readOnly | .sanitize | .activate => true
  | _ => false

/-- A stroke is open to be sealed: in a mode that seals, or in SEAL until stroke n has closed. -/
def strokeOpen (s : State) : Bool := (s.mode.cur.seals || s.mode.cur == .seal) && !s.chain.noOpen

/-! ### The blot log -/

/-- The blots that the companion die raises itself (R438; notes/assumptions/70). -/
def companionBlot (code : Nat) : Bool :=
  code < 0x0200 || (0x0300 ≤ code && code < 0x0400 && code != 0x0302) || code == 0x0605 || code == 0x0801 || code == 0x0804 ||
    0x0900 ≤ code

/-- The die-to-die link has failed: SEAL was entered for it, or it failed in SEAL (R12, R211). -/
def dieLinkFailed (s : State) : Bool := s.mode.cur == .seal && (s.mode.sealSource == 4 || s.mode.sealLater.contains 4)

/-- A blot is recorded, or merged into the newest entry (R438, R439). -/
def recordBlot (code severity unit : Nat) (arg : Bytes) (s : State) : State :=
  let a := fixLen 12 arg
  let total := satAdd s.mon.blotTotal 1 (2 ^ 32 - 1)
  let fresh : Blot := { seq := getF s LOG_NEXT_SEQ, dtime := now s, code := code, severity := severity,
                        mode := s.mode.cur.code, unit := unit % 65536, count := 1, arg := a }
  match s.mon.blots with
  | b :: rest =>
    if b.code = code && b.unit = unit % 65536 && b.arg = a && s.time.stroke ≤ b.dtime / 65536 + 1024 then
      { s with mon := { s.mon with blots := { b with count := satAdd b.count 1 65535 } :: rest, blotTotal := total } }
    else
      let bs := (fresh :: b :: rest).take 4096
      setF LOG_STATUS_ENTRIES bs.length (setF LOG_NEXT_SEQ (getF s LOG_NEXT_SEQ + 1)
        { s with mon := { s.mon with blots := bs, blotTotal := total } })
  | [] =>
    setF LOG_STATUS_ENTRIES 1 (setF LOG_NEXT_SEQ (getF s LOG_NEXT_SEQ + 1)
      { s with mon := { s.mon with blots := [fresh], blotTotal := total } })

/-- A blot; one of the compute die does not cross a failed die-to-die link (R438). -/
def blot (code severity unit : Nat) (arg : Bytes) (s : State) : State :=
  if dieLinkFailed s && !companionBlot code then s else recordBlot code severity unit arg s

/-! ### Ink records -/

/-- The 64-byte header and the payload of an ink record of a device and a hash (R136). -/
def inkRecord (device hash type stream flags dtime rseq aux : Nat) (payload : Bytes) : Bytes :=
  let h := [0x49#8, 0x4E#8] ++ le 1 type ++ le 1 1 ++ le 4 payload.length ++ le 2 (device % 512) ++ le 2 stream
    ++ le 1 hash ++ le 1 flags ++ zeros 2 ++ le 8 dtime ++ le 8 rseq ++ le 8 aux ++ zeros 20
  h ++ le 4 (crc32 h) ++ payload

/-- A record of this device, in the H of its chain. -/
def inkBytes (s : State) (type stream flags dtime rseq aux : Nat) (payload : Bytes) : Bytes :=
  inkRecord (deviceId s) s.chain.hashSel type stream flags dtime rseq aux payload

/-- FLAGS of a record: bit 1 marks the records written in SEAL (R136). -/
def recFlags (s : State) : Nat := if s.mode.cur = .seal then 2 else 0

/-- The next record of stream 0, with its RSEQ. -/
def mkRec (type dtime : Nat) (payload : Bytes) (s : State) : InkRec :=
  { type := type, rseq := s.chain.rseq, dtime := dtime,
    bytes := inkBytes s type 0 (recFlags s) dtime s.chain.rseq 0 payload }

/-- EVENT and time-anchor records raised while no stroke is sealed go to the always-on queue of 64 (R437, R474). -/
def queuedType (type : Nat) : Bool := type == 0x10 || type == 0x14

/-- A stream-0 record enters the open stroke, or is held until the first sealed stroke after (R133, R474). A record
beyond the always-on queue's 64 is counted and dropped (R437). -/
def addRecAt (type dtime : Nat) (payload : Bytes) (s : State) : State :=
  if strokeOpen s then
    { s with chain := { s.chain with openRecs := s.chain.openRecs ++ [mkRec type dtime payload s],
                                     rseq := s.chain.rseq + 1 } }
  else if queuedType type then
    if s.mon.queue.length < 64 then
      setF EVT_STATUS_QUEUED (s.mon.queue.length + 1)
        { s with mon := { s.mon with queue := s.mon.queue ++ [mkRec type dtime payload s] },
                 chain := { s.chain with rseq := s.chain.rseq + 1 } }
    else incF EVT_STATUS_LOST 1 s
  else
    { s with chain := { s.chain with held := s.chain.held ++ [mkRec type dtime payload s],
                                     rseq := s.chain.rseq + 1 } }

def addRec (type : Nat) (payload : Bytes) (s : State) : State := addRecAt type (now s) payload s

/-- OFFSET of R41 and R46: the signed offset, saturated. -/
def offset32 (s : State) : Nat := twos 32 (satSym 32 s.time.offsetNs)

/-- Nanoseconds in a stroke of the period in force. -/
def strokeNs (s : State) : Nat := s.time.period * 1000

/-- How far into its stroke the generator is, in nanoseconds. -/
def phaseNs (s : State) : Nat := s.time.frac * strokeNs s / 65536

/-- The time of this clock on the PTP timescale: boundary k falls at epoch + k × P (R32). -/
def localNs (s : State) : Int := ((s.time.epochNs + s.time.stroke * strokeNs s + phaseNs s : Nat) : Int)

/-- REFTIME (R41): the reference time of now, 0 without IEEE 1588. -/
def refTime (s : State) : Nat := if s.time.src = 1 then (localNs s + s.time.offsetNs).toNat else 0

/-- A time-anchor record (R41). -/
def anchorRec (kind count : Nat) (s : State) : State :=
  addRec 0x10 (le 1 kind ++ le 1 (getF s STK_STATUS_STATE) ++ le 1 s.time.src ++ zeros 1 ++ le 4 s.time.period
    ++ le 8 (now s) ++ le 8 (refTime s) ++ le 4 (offset32 s) ++ le 4 count) s

/-- A FAULT record: code, unit, stroke, detail (R137). -/
def faultRec (code unit stroke detail : Nat) (s : State) : State :=
  addRec 0x16 (fixLen 32 (Config.packRecord 0x16 [code, unit, stroke, detail])) s

/-- A NAMESPACE record: NSID, action, stream ID (R137, R146). Actions in the order R137 lists them, from 0. -/
def namespaceRec (nsid action stream : Nat) (s : State) : State :=
  addRec 0x1C (fixLen 32 (Config.packRecord 0x1C [nsid, action, stream])) s

/-- A MODE record (R410). -/
def modeRec (old new cause fn : Nat) (note : Bytes) (s : State) : State :=
  addRec 0x13 (le 1 old ++ le 1 new ++ le 1 cause ++ le 1 fn ++ zeros 12 ++ fixLen 16 note) s

/-- The state of the generator changes: STK_STATUS.STATE and a 02h record (R34, R41). -/
def setLockState (st : Nat) (s : State) : State :=
  if getF s STK_STATUS_STATE = st then s else anchorRec 2 0 (setF STK_STATUS_STATE st s)

/-! ### Oxvia frames -/

/-- A frame on the wire (R390): sync word, header with its CRC-16, payload, FCRC where there is a payload. -/
def oxvFrame (type flags dst src hops seq ack : Nat) (payload : Bytes) : Bytes :=
  let h := le 1 type ++ le 1 flags ++ le 2 (dst % 512) ++ le 2 (src % 512) ++ le 1 hops ++ zeros 1
    ++ le 2 payload.length ++ le 2 seq ++ le 2 ack
  let hdr := h ++ le 2 (crcMsb 16 0x1021 0xFFFF h)
  [0x6A#8, 0x3C#8, 0x95#8, 0xF1#8] ++ hdr ++ payload
    ++ (if payload.isEmpty then [] else le 4 (crc32 (hdr ++ payload)))

def getLink (s : State) (l : Nat) : OxvLink := (mget s.oxv.links l).getD {}

def updLink (l : Nat) (g : OxvLink → OxvLink) (s : State) : State :=
  { s with oxv := { s.oxv with links := mset s.oxv.links l (g (getLink s l)) } }

/-- The types whose frames are REL: CONTROL, MIRROR, MIRROR_ACK, PROXY (R391). -/
def oxvRel (type : Nat) : Bool := type == 6 || type == 8 || type == 9 || type == 10

/-- Put a frame on one link that is up. A REL frame takes the link's next sequence and stays in the replay buffer until ACK covers it;
while 256 frames do, it waits to be sent (R392). A BCAST frame carries the SEQ its source gave it (notes/assumptions/60). -/
def oxvPut (l type flags dst src hops bseq : Nat) (payload : Bytes) (s : State) : State :=
  if !flagF s (OXV_LINK_UP l) then s
  else
    let k := getLink s l
    let bcast := bitAt flags 1
    let fl := setBits flags 0 0 (bit (oxvRel type))
    let f := oxvFrame type fl dst src hops (if bcast then bseq else k.txSeq) k.rxSeq payload
    if oxvRel type && !bcast then
      let s1 := if k.replay.length < 256 then emit (.oxv l f) s else s
      updLink l (fun k => { k with txSeq := (k.txSeq + 1) % 65536, replay := k.replay ++ [(k.txSeq, f)] }) s1
    else emit (.oxv l f) s

/-- Send a frame of this device on one link. -/
def oxvSendOn (l type flags dst : Nat) (payload : Bytes) (s : State) : State :=
  oxvPut l type flags dst (deviceId s) 0 0 payload s

/-- Send a frame on every link that is up. -/
def oxvSendAll (type flags dst : Nat) (payload : Bytes) (s : State) : State :=
  [0, 1, 2, 3].foldl (fun a l => oxvSendOn l type flags dst payload a) s

/-- Broadcast a frame (R394): its copies that come back are known by SRC and SEQ. -/
def oxvFlood (type : Nat) (payload : Bytes) (s : State) : State :=
  let n := s.oxv.bcastSeq
  let s1 := { s with oxv := { s.oxv with bcastSeq := (n + 1) % 65536, seen := ((deviceId s, n) :: s.oxv.seen).take 1024 } }
  [0, 1, 2, 3].foldl (fun a l => oxvPut l type 2 0 (deviceId s) 0 n payload a) s1

/-! ### The domain and the ways through it (R393, R394, R397, R403) -/

def ringOf (d : Nat) : Nat := d / 64 % 8

def placeIn (d : Nat) : Nat := d % 64

/-- Device ID and FLAGS of each member of a structure of R403. -/
def membersOf (cfg : Bytes) : List (Nat × Nat) :=
  (List.range (leAt cfg 2 2)).map (fun i => (leAt cfg (64 + 32 * i + 20) 2 % 512, byteAt cfg (64 + 32 * i + 22)))

def memberSn (cfg : Bytes) (i : Nat) : Bytes := slice cfg (64 + 32 * i) 20

def isMember (s : State) (d : Nat) : Bool := s.oxv.tag != 0 && (membersOf s.oxv.cfg).any (fun m => m.1 == d)

def ringSize (s : State) (r : Nat) : Nat := ((membersOf s.oxv.cfg).filter (fun m => ringOf m.1 == r)).length

/-- The member of this device's ring that the structure names head. -/
def headOf (s : State) : Option Nat :=
  if s.oxv.tag = 0 then none
  else ((membersOf s.oxv.cfg).find? (fun m => ringOf m.1 == ringOf (deviceId s) && bitAt m.2 0)).map (·.1)

/-- The device is a follower: another device of its ring is the head (R397). -/
def follower (s : State) : Bool := (headOf s).any (fun h => h != deviceId s)

/-- A head: HEAD is 1 and the PCIe link has trained (R397). -/
def isHead (s : State) : Bool := s.oxv.tag != 0 && s.mode.head && flagF s FN_LINK_STATUS_UP

/-- The follower that a VF of the head presents (R397). -/
def proxyOf (s : State) (f : Nat) : Option Nat :=
  let d := ringOf (deviceId s) * 64 + f
  if isHead s && 1 ≤ f && f < 64 && d != deviceId s && isMember s d then some d else none

/-- No STATUS of the member has been missing for 192 strokes (R394). -/
def reachable (s : State) (d : Nat) : Bool :=
  match mget s.oxv.stats d with
  | some m => !m.lost
  | none => true

/-- A link of a device is up as far as the link map knows. -/
def edgeUp (s : State) (d l : Nat) : Bool :=
  if d = deviceId s then flagF s (OXV_LINK_UP l)
  else match mget s.oxv.stats d with
    | some m => bitAt m.ups l
    | none => true

/-- The shorter direction of a segment whose links the map shows up; ties go to OXA (R394). -/
def chooseDir (s : State) (back : Bool) (goal : Nat) : Option Nat :=
  let me := deviceId s
  let chain := getF s OXV_ID_TOPO == 1
  let n := if back then s.oxv.rings else ringSize s (ringOf me)
  let here := if back then ringOf me else placeIn me
  let la := if back then 2 else 0
  let node (i : Nat) : Nat := if back then i % n * 64 else ringOf me * 64 + i % n
  let a := (goal + n - here) % n
  let b := (here + n - goal) % n
  let okA := !(chain && goal < here) &&
    (List.range a).all (fun i => edgeUp s (node (here + i)) la && edgeUp s (node (here + i + 1)) (la + 1))
  let okB := !(chain && here < goal) &&
    (List.range b).all (fun i => edgeUp s (node (here + n - i)) (la + 1) && edgeUp s (node (here + n - i - 1)) la)
  if okA && (!okB || a ≤ b) then some la else if okB then some (la + 1) else none

/-- Where a frame for `dst` leaves, and whether it is turned back (R394); `arrival` is the link it came on. -/
def oxvRoute (s : State) (dst : Nat) (arrival : Option Nat) (reversed : Bool) : Option (Nat × Bool) :=
  let me := deviceId s
  let back := ringOf dst != ringOf me && placeIn me == 0
  let goal := if back then ringOf dst else if ringOf dst = ringOf me then placeIn dst else 0
  let la := if back then 2 else 0
  let enter : Option (Nat × Bool) := (chooseDir s back goal).map (fun l => (l, false))
  match arrival with
  | none => enter
  | some l =>
    if l = la || l = la + 1 then
      let out := if l = la then la + 1 else la
      if flagF s (OXV_LINK_UP out) then some (out, reversed)
      else if !reversed then some (l, true) else none
    else enter

/-- Send a frame to a member. Mirror and proxy frames for an unreachable one are held (R394). -/
def oxvTo (dst type : Nat) (payload : Bytes) (s : State) : State :=
  if !reachable s dst then
    (if type = 8 || type = 10 then { s with oxv := { s.oxv with held := s.oxv.held ++ [(dst, type, payload)] } } else s)
  else match oxvRoute s dst none false with
    | some (l, _) => oxvSendOn l type 0 dst payload s
    | none => s

/-- The payload of a PROXY frame: what it carries (1 command, 2 completion, 3 interrupted, 4 data, 5 register access, 6 its
answer), its numbers and its data. -/
def proxyPayload (kind : Nat) (args : List Nat) (data : Bytes) : Bytes := Config.packOxv 10 (kind :: args) data

/-- A follower's function 0 is reached through its head while the head is reachable (R398). -/
def viaHead (s : State) (f : Nat) : Bool := f == 0 && (headOf s).any (fun h => h != deviceId s && reachable s h)

/-! ### Functions -/

def getFn (s : State) (f : Nat) : Fn := (mget s.fns f).getD {}

def setFn (f : Nat) (x : Fn) (s : State) : State := { s with fns := mset s.fns f x }

def updFn (f : Nat) (g : Fn → Fn) (s : State) : State := setFn f (g (getFn s f)) s

/-- A function is online: the PF always, a VF within NumVFs when its register says so (R52, R67). -/
def online (s : State) (f : Nat) : Bool := f == 0 || (f ≤ s.numVfs && flagF s (FN_FUNC_ONLINE f))

def linkUp (s : State) : Bool := flagF s FN_LINK_STATUS_UP

/-- The function reaches its host: over PCIe with Bus Master Enable set, or through the head (R60, R64, R398). -/
def hostSide (s : State) (f : Nat) : Bool := (linkUp s && (getFn s f).bme) || viaHead s f

/-- Queue pairs and vectors a function holds (R54): the PF has 512 and 64 of its own. -/
def queuePairs (s : State) (f : Nat) : Nat := (getFn s f).flexQ + (if f = 0 then 512 else 0)

def vectors (s : State) (f : Nat) : Nat := (getFn s f).flexV + (if f = 0 then 64 else 0)

/-! ### Interrupts -/

def getVec (x : Fn) (v : Nat) : Vec := (mget x.vecs v).getD {}

def updVec (f v : Nat) (g : Vec → Vec) (s : State) : State :=
  updFn f (fun x => { x with vecs := mset x.vecs v (g (getVec x v)) }) s

/-- Something keeps the function from writing an MSI-X message: its mask, its D-state, Bus Master Enable, a reset that runs (R60, R62, R66,
R101). -/
def signalHeld (s : State) (f : Nat) : Bool :=
  let x := getFn s f
  x.fmask || x.d3 || !hostSide s f || x.flr.isSome

/-- A vector signals: an MSI-X message, or its pending bit where that is held back; nothing where MSI-X Enable is 0 (R57,
R60). -/
def signal (f v : Nat) (s : State) : State :=
  let x := getFn s f
  if !x.msixEn || vectors s f ≤ v then s
  else if signalHeld s f || (getVec x v).masked then updVec f v (fun w => { w with pend := true }) s
  else emit (.msix f v) s

/-- The vector's coalescing is in force (R58): not vector 0, Coalescing Disable clear. -/
def coalesced (x : Fn) (v : Nat) : Bool := v != 0 && !(getVec x v).cd

/-- A completion has been written for a vector (R58, R59): signal at once, at the threshold, or later. -/
def noteCompletion (f v : Nat) (s : State) : State :=
  let x := getFn s f
  let thr := bits x.feats.coalesce 7 0 + 1
  if !coalesced x v then signal f v s
  else
    let s1 := updVec f v (fun w => { w with count := w.count + 1, fresh := w.fresh + 1 }) s
    let w := getVec (getFn s1 f) v
    if flagF s (FN_FUNC_ALIGN f) then
      if !w.spent && w.count == w.fresh && thr ≤ w.count then
        signal f v (updVec f v (fun w => { w with count := 0, fresh := 0, spent := true }) s1)
      else s1
    else if thr ≤ w.count || bits x.feats.coalesce 15 8 == 0 then
      signal f v (updVec f v (fun w => { w with count := 0, fresh := 0 }) s1)
    else s1

/-! ### Completions -/

/-- The device may write to the host's memory for a function (R60, R64, R66, R101, R215). -/
def mayWriteHost (s : State) (f : Nat) : Bool :=
  hostSide s f && !(getFn s f).d3 && (getFn s f).flr.isNone && s.mode.cur != .seal && s.mode.cur != .halt

/-- Data goes to the host's memory, with Relaxed Ordering where the function enables it (R51). -/
def hostOut (f cid : Nat) (data : Bytes) (s : State) : State := emit (.hostData f cid (getFn s f).dev.relaxed data) s

def Cq.full (q : Cq) : Bool := (q.tail + 1) % q.size == q.head

/-- Put one entry into a queue that has room. -/
def pushCqe (f qid : Nat) (e : Cqe) (s : State) : State :=
  match mget (getFn s f).cqs qid with
  | none => s
  | some q =>
    let nt := (q.tail + 1) % q.size
    let q1 := { q with tail := nt, phase := if nt = 0 then !q.phase else q.phase }
    let s1 := updFn f (fun x => { x with cqs := mset x.cqs qid q1 }) s
    let s2 := emit (.cqe f qid q.tail q.phase e) s1
    if q.ien then noteCompletion f q.vector s2 else s2

/-- Post a completion, or let it wait for room or for the host side (R60, R75). -/
def postCqe (f qid : Nat) (e : Cqe) (s : State) : State :=
  match mget (getFn s f).cqs qid with
  | none => s
  | some q =>
    if mayWriteHost s f && !q.full && q.waiting.isEmpty then pushCqe f qid e s
    else updFn f (fun x => { x with cqs := mset x.cqs qid { q with waiting := q.waiting ++ [e] } }) s

/-- Waiting completions are posted while there is room (R75): `fuel` bounds them by the entries that wait. -/
def drainCq (f qid : Nat) (fuel : Nat) (s : State) : State :=
  match fuel with
  | 0 => s
  | k + 1 =>
    match mget (getFn s f).cqs qid with
    | none => s
    | some q =>
      match q.waiting with
      | [] => s
      | e :: rest =>
        if mayWriteHost s f && !q.full then
          drainCq f qid k (pushCqe f qid e
            (updFn f (fun x => { x with cqs := mset x.cqs qid { q with waiting := rest } }) s))
        else s

def drainFn (f : Nat) (s : State) : State :=
  (getFn s f).cqs.foldl (fun a e => drainCq f e.1 e.2.waiting.length a) s

/-- The queue number that marks an admin command tunnelled over the management endpoint (R104). -/
def miQueue : Nat := 65536

/-- The queue number of a transition whose commit posts nothing: one of several that one command has asked for, or one whose command
has been discarded (R106). -/
def silentQueue : Nat := miQueue + 1

/-- Complete a command of queue `sqid` of function `f` (R51, R91); a tunnelled one answers on the endpoint, a follower's
goes to its head (R398). -/
def complete (f sqid cid : Nat) (st : Status) (dw0 dw1 : Nat) (s : State) : State :=
  if sqid = miQueue then emit (.mi st.code (le 4 dw0 ++ le 4 dw1)) s
  else if sqid = silentQueue then s
  else if f = 0 && follower s then
    oxvTo ((headOf s).getD 0) 10 (proxyPayload 2 [sqid, cid, st.field, dw0 % 2 ^ 32, dw1 % 2 ^ 32] [])
      { s with oxv := { s.oxv with proxied := dropFirst (fun e => e == (0, sqid, cid)) s.oxv.proxied } }
  else match mget (getFn s f).sqs sqid with
  | none => s
  | some q => postCqe f q.cqid { sqid := sqid, cid := cid, st := st, dw0 := dw0 % 2 ^ 32, dw1 := dw1 % 2 ^ 32 } s

/-- Remove a fetched command from the outstanding list. -/
def dropCmd (f sqid cid : Nat) (s : State) : State :=
  { s with cmds := dropFirst (fun c => c.fn == f && c.sqid == sqid && c.cid == cid) s.cmds }

def findCmd (s : State) (f sqid cid : Nat) : Option Cmd :=
  s.cmds.find? (fun c => c.fn == f && c.sqid == sqid && c.cid == cid)

def updCmd (f sqid cid : Nat) (g : Cmd → Cmd) (s : State) : State :=
  { s with cmds := updFirst (fun c => c.fn == f && c.sqid == sqid && c.cid == cid) g s.cmds }

/-- Add a fetched command that stays outstanding. -/
def addCmd (c : Cmd) (s : State) : State :=
  { s with cmds := s.cmds ++ [{ c with order := s.orderNext }], orderNext := s.orderNext + 1 }

/-- The head sends a proxy's entry to the follower; one for an unreachable follower is not sent (R398, R399). -/
def toFollower (d f sqid cid nsid : Nat) (s : State) : State :=
  if reachable s d then
    oxvTo d 10 (proxyPayload 1 [sqid, cid, nsid] [])
      { s with oxv := { s.oxv with proxied := s.oxv.proxied ++ [(f, sqid, cid)] } }
  else complete f sqid cid .domainUnreachable 0 0 s

/-! ### Asynchronous events -/

/-- Post an event to a waiting request, or keep it (R85, base specification). -/
def raiseEvent (f : Nat) (ev : AsyncEvent) (s : State) : State :=
  let x := getFn s f
  if x.unarmed.contains ev then s
  else
    match x.aers with
    | cid :: rest =>
      complete f 0 cid .success (ev.type + ev.info * 256 + ev.log * 65536) 0
        (updFn f (fun y => { y with aers := rest, unarmed := y.unarmed ++ [ev] }) s)
    | [] =>
      if x.events.contains ev then s else updFn f (fun y => { y with events := y.events ++ [ev] }) s

/-- The functions of the part, PF first. -/
def allFns : List Nat := List.range 128

/-- A vendor event: overrun (information 00h, log C1h) or deferred error (01h, log C2h), to each online function whose
bit in Feature C1h is 1 (R85). -/
def vendorEvent (info : Nat) (s : State) : State :=
  allFns.foldl (fun a f =>
    if online a f && bitAt (getFn a f).feats.vendorEvents info then
      raiseEvent f { type := 7, info := info, log := 0xC1 + info } a
    else a) s

/-! ### Gates of command fetch -/

/-- Entries of a queue that the host has rung and the device has not fetched. -/
def Sq.waiting (q : Sq) : Nat := (q.tail + q.size - q.head) % q.size

/-- The controller of a function is ready and may move data (R60, R64, R66, R80, R101, R417); after the point of no
return of a mode entry a command runs once the device is back (R83). -/
def fetchOpen (s : State) (f : Nat) : Bool :=
  let x := getFn s f
  online s f && x.en && x.rdy && !x.d3 && x.flr.isNone && hostSide s f && !s.mode.fetchStop &&
    !s.mode.trans.any (·.committed)

/-- Modes that fetch I/O commands: a doorbell in PARK, LEAN, DROWSE and HIBERNATE acts by R83. -/
def Mode.fetches : Mode → Bool
  | .run | .lean | .park | .readOnly | .sanitize | .safe => true
  | _ => false

/-- An entry of a queue can be fetched now. -/
def canFetch (s : State) (f sqid : Nat) : Bool :=
  fetchOpen s f && s.mode.cur.fetches &&
    match mget (getFn s f).sqs sqid with
    | none => false
    | some q => 0 < q.waiting

/-! ### Arbitration among the queues of a function (R75; notes/assumptions/138) -/

/-- The service class of a queue: one for all in round robin; else 0 the admin queue, 1 urgent, 2 high, 3 medium, 4 low. -/
def serviceClass (x : Fn) (sqid : Nat) : Nat :=
  if x.ams = 0 || sqid = 0 then 0 else 1 + ((mget x.sqs sqid).map (·.prio)).getD 3

/-- Entries that a queue gives in a row: the Arbitration Burst of Feature 01h, and at most 8. -/
def burstLen (x : Fn) : Nat := if 3 ≤ bits x.feats.arbitration 2 0 then 8 else 2 ^ bits x.feats.arbitration 2 0

/-- Entries of a weighted class in a round. -/
def classWeight (x : Fn) (c : Nat) : Nat :=
  1 + (match c with
    | 2 => bits x.feats.arbitration 31 24
    | 3 => bits x.feats.arbitration 23 16
    | _ => bits x.feats.arbitration 15 8)

/-- The class that is served next, of those that have entries: strict order down to urgent, then the weighted classes while their
round lasts. -/
def nextClass (x : Fn) (has : Nat → Bool) : Nat :=
  if has 0 then 0 else if has 1 then 1
  else (([2, 3, 4].find? (fun c => has c && 0 < (mget x.arb.credit c).getD (classWeight x c))).or ([2, 3, 4].find? has)).getD 0

/-- The queue that the arbiter serves next, of those whose entries may be fetched, in rising order. -/
def arbPick (x : Fn) (es : List Nat) : Option Nat :=
  if es.contains x.arb.queue && 0 < x.arb.left then some x.arb.queue
  else
    let c := nextClass x (fun k => es.any (fun e => serviceClass x e == k))
    let cs := es.filter (fun e => serviceClass x e == c)
    (cs.find? (fun e => match mget x.arb.last c with
      | some l => l < e
      | none => true)).or cs.head?

/-- The arbiter has served an entry of the queue. -/
def Fn.served (x : Fn) (sqid : Nat) : Arb :=
  let c := serviceClass x sqid
  let more := x.arb.queue = sqid && 0 < x.arb.left
  let round := if c < 2 || 0 < (mget x.arb.credit c).getD (classWeight x c) then x.arb.credit else []
  { queue := sqid, left := (if more then x.arb.left else burstLen x) - 1, last := mset x.arb.last c sqid,
    credit := if c < 2 then round else mset round c ((mget round c).getD (classWeight x c) - 1) }

/-- Fetch takes the entry at the head of the queue (R75). -/
def takeEntry (f sqid : Nat) (s : State) : State :=
  updFn f (fun x => { x with sqs := mupd x.sqs sqid (fun q => { q with head := (q.head + 1) % q.size }),
                             arb := x.served sqid, idleFrom := s.time.stroke }) s

/-- A bad data pointer, in the order of the rows of R87: none where the transfer can run. -/
def xferError (x : Xfer) (admin : Bool) (len : Nat) : Option Status :=
  if x.psdt = 3 || (admin && x.psdt != 0) then some .invalidField
  else if x.psdt = 0 then
    if x.prp1Off % 4 != 0 || x.prpListOff then some .prpOffsetInvalid else none
  else if x.sglBadType then some .sglDescriptorTypeInvalid
  else if 1024 < x.sglCount then some .invalidSglCount
  else if x.sglBytes < len then some .sglLengthInvalid
  else none

/-- The host returned fewer bytes than the command's transfer takes (R87). -/
def shortData (len : Nat) (data : Bytes) : Option Status := if data.length < len then some .dataTransferError else none

/-- Run the checks in order; the first that fails decides the completion (R87, R88, R151). -/
def firstError : List (Bool × Status) → Option Status
  | [] => none
  | (bad, st) :: t => if bad then some st else firstError t

end Sys2Proof.Machine
end

