-- ==== Sys2Proof/Machine/Ink.lean ====
section
/-!
DEFINITION. The Inkstone (spec/16_inkstone_and_firmware.md R363 to R374): the array, programs and erases of a bank, remapping,
the command windows of the PF and of the Nib cores, and the settings copies.
-/

namespace Sys2Proof.Machine

/-- What an erased byte reads (R365). -/
def inkErased (_ : Nat) : Byte := 0xFF#8

def inkBytesAt (s : State) (a n : Nat) : Bytes := sgetBytes inkErased s.ink.bytes a n

def inkBank (s : State) (b : Nat) : InkBank := (mget s.ink.banks b).getD {}

def setInkBank (b : Nat) (x : InkBank) (s : State) : State := { s with ink := { s.ink with banks := mset s.ink.banks b x } }

def bankBusy (s : State) (b : Nat) : Bool := (inkBank s b).running.isSome

/-- The library area of R364: pages 35 to 59 and 107 to 123. -/
def libraryPage (p : Nat) : Bool := (35 ≤ p && p ≤ 59) || (107 ≤ p && p ≤ 123)

/-- Factory marks of a bank, up to 16 (R369). -/
def factoryMarks (b : Nat) : List Nat := ((List.range 256).filter (fun i => Config.factoryBad (256 * b + i))).take 16

def tableEntries (s : State) (b : Nat) : Nat := (factoryMarks b).length + (inkBank s b).table.length

/-- The bank's table: the factory marks with the spares they took at manufacture, then the sectors listed since (R369). -/
def inkTable (s : State) (b : Nat) : List (Nat × Option Nat) :=
  (factoryMarks b).mapIdx (fun i k => (k, some (240 + i))) ++ (inkBank s b).table

/-- The sector that stands for `k` after redirection (none once it is retired): `fuel` bounds the chain of spares that failed in turn. -/
def physSector (t : List (Nat × Option Nat)) (fuel k : Nat) : Option Nat :=
  match fuel with
  | 0 => some k
  | m + 1 => match t.find? (fun e => e.1 == k) with
    | some (_, some sp) => physSector t m sp
    | some (_, none) => none
    | none => some k

/-- The sector of an address, after redirection. -/
def sectorAt (s : State) (addr : Nat) : Option Nat := physSector (inkTable s (addr / 2 ^ 23)) 80 (addr / 32768 % 256)

def sparesUsed (s : State) (b : Nat) : Nat :=
  (factoryMarks b).length + ((inkBank s b).table.filter (fun e => e.2.isSome)).length

def sparesFree (s : State) (b : Nat) : Nat := 16 - sparesUsed s b

/-- A sector that is retired refuses programs and erases (R369). -/
def sectorRetired (s : State) (addr : Nat) : Bool := (sectorAt s addr).isNone

/-- The BUSY, BAD0 and BAD1 fields follow the banks. -/
def showInk (s : State) : State :=
  setF INK_STATUS_BUSY (bit (bankBusy s 0) + 2 * bit (bankBusy s 1))
    ([0, 1].foldl (fun a b => setF (INK_BAD_ENTRIES b) (min 127 (tableEntries s b))
      (setF (INK_BAD_SPARES_FREE b) (sparesFree s b) a)) s)

/-! ### Status of a requester (R370, R385): bits 2 to 9 stand alike in a window's STATUS and in INK_STATUS -/

def stDone : Nat := 4
def stFail : Nat := 8
def stProt : Nat := 16
def stRefused : Nat := 32
def stBad : Nat := 64
def stRemapped : Nat := 128
def stBusFault : Nat := 256
def stNotErased : Nat := 512

def inkWin (s : State) (k : Nat) : InkWin := (mget s.ink.wins k).getD {}

def setInkWin (k : Nat) (w : InkWin) (s : State) : State := { s with ink := { s.ink with wins := mset s.ink.wins k w } }

/-- Report to a requester: 0 the scribe firmware (no register), 1 the PF, 2 + k Nib core k. -/
def inkReport (who mask : Nat) (s : State) : State :=
  match who with
  | 0 => s
  | 1 => setReg 0x34004 (getReg s 0x34004 ||| mask) s
  | k + 2 => setInkWin k { inkWin s k with status := (inkWin s k).status ||| mask } s

def inkPulses (who n : Nat) (s : State) : State :=
  match who with
  | 0 => s
  | 1 => setF INK_STATUS_PULSES n s
  | k + 2 => setInkWin k { inkWin s k with status := setBits (inkWin s k).status 14 10 n } s

/-! ### Programs and erases (R366 to R371) -/

/-- What refuses a program (1) or an erase (2): the order BAD, PROT, REFUSED, FAIL is the model's (notes/assumptions/12). -/
def inkRefusal (s : State) (who op addr : Nat) : Option Nat :=
  let unit := if op = 2 then 32768 else 256
  if addr % unit != 0 || 2 ^ 24 ≤ addr then some stBad
  else if 1 ≤ who && !libraryPage (addr / 131072) then some stProt
  else if bankBusy s (addr / 2 ^ 23) then some stRefused
  else if sectorRetired s addr then some stFail
  else if op = 1 && !(inkBytesAt s addr 256).all (· == 0xFF#8) then some stNotErased
  else none

/-- A command for a bank is accepted, or refused without effect. -/
def inkStart (who op addr : Nat) (data : Bytes) (s : State) : State :=
  match inkRefusal s who op addr with
  | some m => inkReport who m s
  | none =>
    let b := addr / 2 ^ 23
    showInk (setInkBank b { inkBank s b with
      running := some { who := who, op := op, addr := addr, data := fixLen 256 data } } s)

/-- A requester may use the command window: the scribe firmware, the PF, a core that has the grant (R370). -/
def inkGranted (s : State) (who : Nat) : Bool :=
  match who with
  | 0 | 1 => true
  | k + 2 => ((mget s.duct.cores k).map (·.grant4)).getD false

/-- INK_PROGRAM (R366). -/
def execInkProgram (who addr : Nat) (data : Bytes) (s : State) : Result :=
  .next (if inkGranted s who then inkStart who 1 addr data s else s)

/-- INK_ERASE (R367). -/
def execInkErase (who addr : Nat) (s : State) : Result :=
  .next (if inkGranted s who then inkStart who 2 addr [] s else s)

/-- Content of an address range after an operation. -/
def inkWriteBytes (addr : Nat) (bs : Bytes) (s : State) : State :=
  { s with ink := { s.ink with bytes := ssetBytes inkErased s.ink.bytes addr bs } }

def inkEraseSector (addr : Nat) (s : State) : State :=
  { s with ink := { s.ink with
    bytes := s.ink.bytes.filter (fun e => e.1 / 32768 != addr / 32768),
    bad := s.ink.bad.filter (fun w => w / 2048 != addr / 32768) } }

/-- Firmware areas of bank 0 (R364, R369). -/
def firmwareSector (addr : Nat) : Bool :=
  let k := addr / 32768 % 256
  addr < 2 ^ 23 && (k ≤ 7 || (12 ≤ k && k ≤ 139))

/-- The content that an operation leaves where it succeeds (on the sector or on its spare). -/
def inkApply (o : InkOp) (s : State) : State :=
  if o.op = 2 then inkEraseSector o.addr s else inkWriteBytes o.addr o.data s

/-- The sector at work, a spare that fails in turn like any other, is listed with a spare, or retired, and a blot records it; what is
copied to the spare is corrected (R369, R439). -/
def listSector (o : InkOp) (spare : Bool) (s : State) : State :=
  let b := o.addr / 2 ^ 23
  let x := inkBank s b
  let k := (sectorAt s o.addr).getD 0
  let sp := if spare then some (240 + sparesUsed s b) else none
  let s1 := if spare then { s with ink := { s.ink with bad := s.ink.bad.filter (fun w => w / 2048 != o.addr / 32768) } } else s
  blot 0x0605 1 b (le 1 k ++ le 1 (sp.getD 0)) (setInkBank b { x with table := (x.table ++ [(k, sp)]).take 64 } s1)

/-- The bytes of a unit whose program failed with no spare are not stated: free ones (notes/assumptions/2). -/
def inkSpoil (o : InkOp) (s : State) : State :=
  if o.op = 2 then s
  else
    inkWriteBytes o.addr (fixLen 256 (Config.freeBytes s.freeCount)) { s with freeCount := s.freeCount + 1 }

/-- An erase that stops leaves its sector neither erased nor intact (R373): its bytes are free ones. -/
def inkTear (o : InkOp) (s : State) : State :=
  inkWriteBytes (o.addr / 32768 * 32768) (fixLen 32768 (Config.freeBytes s.freeCount)) { s with freeCount := s.freeCount + 1 }

/-- The bank has no running operation. -/
def inkIdle (b : Nat) (s : State) : State := setInkBank b { inkBank s b with running := none } s

/-- SEAL begins (R373): the bank's program goes on to its end, its erase stops after its current pulse. -/
def inkSealBank (b : Nat) (s : State) : State :=
  match (inkBank s b).running with
  | some o => if o.op = 2 then inkTear o (inkIdle b s) else s
  | none => s

def inkSeal (s : State) : State := showInk (inkSealBank 1 (inkSealBank 0 s))

/-- The supply is gone: a program that SEAL began with has ended, any other operation leaves its unit or sector open. -/
def inkDropBank (sealed : Bool) (b : Nat) (s : State) : State :=
  match (inkBank s b).running with
  | some o =>
    if o.op = 2 then inkTear o (inkIdle b s)
    else if sealed then inkApply o (inkIdle b s)
    else inkSpoil o (inkIdle b s)
  | none => s

def inkDrop (sealed : Bool) (s : State) : State := inkDropBank sealed 1 (inkDropBank sealed 0 s)

/-- INK_OP_DONE (R366, R367, R369): the bank's operation ends after `pulses` pulses, or sets FAIL. -/
def execInkOpDone (bank pulses : Nat) (fail : Bool) (s : State) : Result :=
  let x := inkBank s bank
  .next (match x.running with
  | none => s
  | some o =>
    let s1 := inkPulses o.who pulses (setInkBank bank { x with running := none } s)
    let s2 :=
      if !fail then inkReport o.who stDone (inkApply o s1)
      else if 0 < sparesFree s bank then inkReport o.who (stDone + stRemapped) (listSector o true (inkApply o s1))
      else
        let s3 := inkReport o.who stFail (listSector o false (inkSpoil o s1))
        if firmwareSector o.addr then setF INK_STATUS_AREA_LOST 1 s3 else s3
    showInk s2)

/-! ### Window reads (R365, R368, R370) -/

/-- The PF's DATA buffer. -/
def pfData (s : State) : Bytes := ((List.range 64).map (fun i => le 4 (getF s (INK_DATA i)))).flatten

/-- Bytes go to the requester's DATA. -/
def inkFill (who : Nat) (bs : Bytes) (s : State) : State :=
  match who with
  | 0 => s
  | 1 => (List.range 64).foldl (fun a i => setF (INK_DATA i) (leAt bs (4 * i) 4) a) s
  | k + 2 => setInkWin k { inkWin s k with data := ssetBytes (fun _ => 0) (inkWin s k).data 0 bs } s

/-- A list without repeats takes one more element. -/
def insertNew {α : Type} [DecidableEq α] (x : α) (l : List α) : List α := if l.contains x then l else l ++ [x]

/-- A 128-bit word among `n` bytes from an address keeps a bad copy (R365). -/
def inkBadIn (s : State) (addr n : Nat) : Bool := s.ink.bad.any (fun w => addr / 16 ≤ w && 16 * w < addr + n)

/-- What a read meets: a bad copy that the array keeps is corrected again. -/
def inkChk (s : State) (addr n : Nat) (chk : Chk) : Chk :=
  if chk == .good && inkBadIn s addr n then .corrected else chk

/-- A corrected read is counted, and the array keeps the bad copy until its sector is erased; of several words read, which one is open
(notes/assumptions/2). -/
def inkKeepBad (addr n : Nat) (chk : Chk) (s : State) : State :=
  let s1 := incF INK_ECC_CE 1 s
  if chk != .corrected then s1
  else { s1 with
    freeCount := s1.freeCount + 1,
    ink := { s1.ink with bad := insertNew (addr / 16 + Config.freeNat s1.freeCount % ceilDiv n 16) s1.ink.bad } }

/-- A read of 256 bytes into DATA: a busy bank and an uncorrectable word are bus faults. -/
def inkRead (who addr : Nat) (chk : Chk) (s : State) : State :=
  if addr % 256 != 0 || 2 ^ 24 ≤ addr then inkReport who stBad s
  else if bankBusy s (addr / 2 ^ 23) then inkReport who stBusFault s
  else match inkChk s addr 256 chk with
    | .uncorrectable => inkReport who stBusFault (incF INK_ECC_UE 1 s)
    | .corrected => inkReport who stDone (inkFill who (inkBytesAt s addr 256) (inkKeepBad addr 256 chk s))
    | .good => inkReport who stDone (inkFill who (inkBytesAt s addr 256) s)

/-- INK_READ. -/
def execInkRead (who addr : Nat) (chk : Chk) (s : State) : Result :=
  .next (if inkGranted s who then inkRead who addr chk s else s)

/-- A command written to a CMD register or word (R370): OP 0 is BAD. -/
def inkCommand (who op addr : Nat) (data : Bytes) (chk : Chk) (s : State) : State :=
  match op % 4 with
  | 0 => inkReport who stBad s
  | 3 => inkRead who addr chk s
  | n => inkStart who n addr data s

/-- A word of a core's SPACE 4 window. -/
def winRead (s : State) (k off : Nat) : Nat :=
  let w := inkWin s k
  if off < 0x80 then fromLe (sgetBytes (fun _ => 0) w.data (2 * off) 2)
  else if off = 0x80 then bits w.addr 15 0
  else if off = 0x81 then bits w.addr 23 16
  else if off = 0x83 then setBits w.status 1 0 (bit (bankBusy s 0) + 2 * bit (bankBusy s 1))
  else 0

/-- A store to a core's SPACE 4 window; the write of CMD starts the operation, of which a read meets `chk`. -/
def winWrite (k off v : Nat) (chk : Chk) (s : State) : State :=
  let w := inkWin s k
  if off < 0x80 then setInkWin k { w with data := ssetBytes (fun _ => 0) w.data (2 * off) (le 2 v) } s
  else if off = 0x80 then setInkWin k { w with addr := setBits w.addr 15 0 v } s
  else if off = 0x81 then setInkWin k { w with addr := setBits w.addr 23 16 (v % 256) } s
  else if off = 0x82 then inkCommand (k + 2) v w.addr (sgetBytes (fun _ => 0) w.data 0 256) chk s
  else if off = 0x83 then
    let st := (List.range 8).foldl (fun a i => if bitAt v (i + 2) then setBits a (i + 2) (i + 2) 0 else a) w.status
    setInkWin k { w with status := st } s
  else s

/-! ### Settings copies (R374, R383) -/

/-- The Stored fields of a dword, the others 0. -/
def storedPart (off v : Nat) : Nat :=
  (fieldsAt off).foldl (fun a e => if e.1.stored then setBits a e.1.hi e.1.lo (bits v e.1.hi e.1.lo) else a) 0

/-- The values a copy records: the dwords with Stored fields that differ from their defaults. -/
def storedValues (s : State) : Map Word32 :=
  (s.regs.filter (fun e => hasStored e.1)).map (fun e => (e.1, BitVec.ofNat 32 (storedPart e.1 e.2.toNat)))

/-- A settings copy is written: never in SEAL, nor while SAVE_HELD (R374, R383). -/
def saveSettings (s : State) : State :=
  if s.mode.cur == .seal || flagF s INK_STATUS_SAVE_HELD then s
  else
    let q := getF s INK_SET_SEQ + 1
    setF INK_SET_SEQ q (setF INK_STATUS_SAVE_PENDING 0
      { s with ink := { s.ink with
          copies := s.ink.copies ++ [{ seq := q, format := getF s FWU_FORMAT_EXPECTED, values := storedValues s,
                                        vpd := s.ink.vpd }],
          storedAt := none, saveNow := false } })

/-- In PARK, DROWSE and HIBERNATE Stored fields are saved after the return (R454). -/
def Mode.saves : Mode → Bool
  | .park | .drowse | .hibernate | .seal | .halt | .boot => false
  | _ => true

/-- SETTINGS_SAVE (R374): the copy that INK_CTL.SAVE asked for. -/
def execSettingsSave (s : State) : Result :=
  .next (if s.ink.saveNow && s.mode.cur.saves then saveSettings s else s)

/-- SETTINGS_SAVE_TIMER (R374): 10 s after the last write to a Stored field. -/
def execSettingsSaveTimer (s : State) : Result :=
  .next (if !s.mode.cur.saves then s else match s.ink.storedAt with
  | none => s
  | some t => if t * s.time.period / 65536 + 10000000 ≤ now s * s.time.period / 65536 then saveSettings s else s)

end Sys2Proof.Machine
end

