-- ==== Sys2Proof/Machine/Time.lean ====
section
/-!
DEFINITION. The stroke generator (spec/02_stroke_and_domain_time.md R29 to R41, R475; spec/01 R22): sources, lock states,
start and mismatch, and what the generator does at a boundary.
-/

namespace Sys2Proof.Machine

/-- The flourish interval in force (R140). -/
def flInterval (s : State) : Nat := 2 ^ s.time.flLog2

def lockState (s : State) : Nat := getF s STK_STATUS_STATE

/-- The offset the generator has measured, shown saturated in STK_OFFSET (R47). -/
def setOffset (off : Int) (s : State) : State :=
  setF STK_OFFSET_OFFSET_NS (twos 32 (satSym 32 off)) { s with time := { s.time with offsetNs := off } }

/-- The reference is found: FREE and HOLDOVER go to ACQUIRE (R34). -/
def enterAcquire (s : State) : State :=
  setLockState 1 { s with time := { s.time with acqFromHoldover := lockState s == 3, below := 0, misses := 0 } }

/-- One measurement of the offset (R34, R37): a LOCKED or HOLDOVER generator more than a stroke away goes to MISMATCH;
a MISMATCH generator within a stroke goes to LOCKED; FREE and HOLDOVER take it as the reference found. -/
def measure (off : Int) (s : State) : State :=
  let far := (strokeNs s : Int) < off.natAbs
  let s1 := setOffset off { s with time := { s.time with misses := 0 } }
  match lockState s with
  | 0 => enterAcquire s1
  | 1 => s1
  | 2 => if far then setLockState 4 s1 else s1
  | 3 => if far then setLockState 4 s1 else enterAcquire s1
  | _ => if far then s1 else setLockState 2 s1

/-- The count that the part continues from at BOOT without a usable reference (R36). -/
def bootCount (s : State) : Nat :=
  max s.time.stroke (match s.chain.lastSealed with | some n => n + 1 | none => 0)

/-- Nanoseconds inside a stroke as a fraction of it, in units of 1/65536. -/
def fracOfNs (s : State) (ns : Nat) : Nat := ns % strokeNs s * 65536 / strokeNs s

/-- The selected reference arrives at BOOT (R36), `refNs` nanoseconds into its stroke `refCount`: its count and phase are
taken only where the count is above the last sealed stroke and the always-on count; behind the count in use, the
generator starts in MISMATCH. -/
def bootReference (refCount refNs : Nat) (s : State) : State :=
  let sealed := match s.chain.lastSealed with | some n => n | none => 0
  let s1 := { s with time := { s.time with bootWait := false } }
  if sealed < refCount && s.time.stroke < refCount then
    enterAcquire (setOffset 0 { s1 with time := { s1.time with stroke := refCount, frac := fracOfNs s refNs } })
  else
    let c := bootCount s
    let s2 := setOffset (((refCount : Int) - (c : Int)) * (strokeNs s : Int) + ((refNs % strokeNs s : Nat) : Int)
      - (phaseNs s : Int)) { s1 with time := { s1.time with stroke := c } }
    if refCount < c then setLockState 4 s2 else enterAcquire s2

/-- A pin sets the phase alone at BOOT (R36, R40). Where the new phase lies before the one the generator stands at, the
stroke after it is meant, so that domain time does not run back (R8). -/
def bootPhase (offsetNs : Int) (s : State) : State :=
  let f := fracOfNs s (((phaseNs s : Int) + offsetNs) % (strokeNs s : Int)).toNat
  let c := bootCount s
  let n := if c = s.time.stroke && f < s.time.frac then c + 1 else c
  { s with time := { s.time with bootWait := false, stroke := n, frac := f } }

/-- The edge is one that the source in force compares: of PPS_IN the one that PPS_EDGE selects, of STROKE_IO the rising one (R34). -/
def edgeSelected (s : State) (pin : EdgePin) (falling : Bool) : Bool :=
  match pin with
  | .ppsIn => s.time.src == 2 && falling == flagF s STK_CTL_PPS_EDGE
  | .strokeIo => s.time.src == 4 && !falling

/-- The reference-minus-local offset that an edge shows: a STROKE_IO edge counts STK_IO_DELAY.NS earlier than it comes (R34, R40). -/
def edgeOffset (s : State) (pin : EdgePin) (offsetNs : Int) : Int :=
  match pin with
  | .ppsIn => offsetNs
  | .strokeIo => offsetNs + (getF s STK_IO_DELAY_NS : Nat)

/-- A reference edge is taken, at an offset: at BOOT as the phase, in LOCKED within the window of STK_PPS_WIN, else as a measurement. -/
def takeEdge (off : Int) (s : State) : State :=
  if s.time.bootWait && s.mode.cur == .boot then enterAcquire (setOffset 0 (bootPhase off s))
  else if lockState s = 2 && getF s STK_PPS_WIN_NS < off.natAbs then
    incF STK_PPS_WIN_MISS_COUNT 1 { s with time := { s.time with misses := s.time.misses + 1 } }
  else measure off s

/-- REFERENCE_EDGE (R34, R40): `offsetNs` is the offset of the edge on the pin. -/
def execReferenceEdge (frac : Nat) (edge : RefEdge) (offsetNs : Int) (s : State) : Result :=
  let s := atFrac frac s
  .next (if edgeSelected s edge.pin edge.falling then takeEdge (edgeOffset s edge.pin offsetNs) s else s)

/-- The reference is lost (R34): LOCKED to HOLDOVER, ACQUIRE back to where it came from. -/
def loseReference (s : State) : State :=
  match lockState s with
  | 2 => setLockState 3 { s with time := { s.time with holdUs := 0, misses := 0 } }
  | 1 => setLockState (if s.time.acqFromHoldover then 3 else 0) { s with time := { s.time with misses := 0 } }
  | _ => s

/-- REFERENCE_LOST: three consecutive ignored or absent edges (R34). `absent` counts the edges that did not come. -/
def execReferenceLost (frac : Nat) (absent : Nat) (s : State) : Result :=
  let s := atFrac frac s
  .next (if 3 ≤ s.time.misses + absent then loseReference s else s)

/-- ACQUIRE_LOCKED: below 1 µs for 16 strokes (R34). -/
def execAcquireLocked (frac : Nat) (s : State) : Result :=
  let s := atFrac frac s
  .next (if lockState s = 1 && 16 ≤ s.time.below then
      setLockState 2 { s with time := { s.time with misses := 0 } }
    else s)

/-- HOLDOVER_LIMIT: STK_HOLDOVER.LIMIT_S seconds in HOLDOVER (R34). -/
def execHoldoverLimit (frac : Nat) (s : State) : Result :=
  let s := atFrac frac s
  .next (if lockState s = 3 && getF s STK_HOLDOVER_LIMIT_S * 1000000 ≤ s.time.holdUs then setLockState 0 s else s)

/-- MARKS_MISSING: no mark for two boundaries, the part counts on in HOLDOVER (R39). DEDUCED (notes/assumptions/134): also from ACQUIRE
and from FREE, where R34 would return an ACQUIRE generator to the state it came from. -/
def execMarksMissing (frac : Nat) (s : State) : Result :=
  let s := atFrac frac s
  .next (if s.time.src = 3 && 2 ≤ s.time.sinceMark && lockState s != 3 then
      setLockState 3 { s with time := { s.time with holdUs := 0 } }
    else s)

/-- CRYSTAL_STOPS: the always-on domain goes on with its internal oscillator (R22). -/
def execCrystalStops (s : State) : Result :=
  .next { s with time := { s.time with onOscillator := true } }

/-- REFERENCE_WAIT_EXPIRY: 2 s without the reference at BOOT (R36). -/
def execReferenceWaitExpiry (s : State) : Result :=
  .next (if s.mode.cur = .boot && s.time.bootWait then
      { s with time := { s.time with bootWait := false, stroke := bootCount s } }
    else s)

/-! ### IEEE 1588 (R32) -/

/-- The time of the PTP timescale now is `refNs`: at BOOT it gives count and phase, otherwise it is a measurement (R34, R36, R37). -/
def ptpTime (refNs : Nat) (s : State) : State :=
  if s.time.bootWait && s.mode.cur == .boot then
    bootReference ((refNs - s.time.epochNs) / strokeNs s) ((refNs - s.time.epochNs) % strokeNs s) s
  else measure ((refNs : Int) - localNs s) s

def ptpMapCode : PtpMap → Nat
  | .ethernet => 0
  | .udpIpv4 => 1
  | .udpIpv6 => 2

/-- The port sends a request message, in the mapping in which the Sync came (R110). DESIGN CHOICE (notes/assumptions/135): one follows each
Sync. -/
def ptpAsk (port domain : Nat) (map : PtpMap) (s : State) : State :=
  emit (.frame port (Config.ptpRequest Config.ptpPeerDelay (ptpMapCode map) port domain s.time.ptpSeq))
    { s with time := { s.time with ptpReq := some (localNs s), ptpSeq := (s.time.ptpSeq + 1) % 65536 } }

/-- The path delay is the mean of the two ways. -/
def ptpDelay (twoWays : Int) (s : State) : State :=
  { s with time := { s.time with ptpReq := none, ptpDelayNs := (twoWays / 2).toNat } }

/-- What a message does: a Sync gives the time and is followed by a request; an answer gives the path delay. -/
def takePtp (port domain : Nat) (map : PtpMap) (msg : PtpMsg) (s : State) : State :=
  match msg with
  | .sync t1 =>
    ptpAsk port domain map (ptpTime (t1 + s.time.ptpDelayNs) { s with time := { s.time with refNs := t1, ptpRx := some (localNs s) } })
  | .delayResp t4 =>
    match s.time.ptpReq, s.time.ptpRx with
    | some t3, some t2 => if Config.ptpPeerDelay then s else ptpDelay ((t2 - (s.time.refNs : Int)) + ((t4 : Int) - t3)) s
    | _, _ => s
  | .pdelayResp held =>
    match s.time.ptpReq with
    | some t1 => if Config.ptpPeerDelay then ptpDelay (localNs s - t1 - (held : Int)) s else s
    | none => s

/-- PTP_MESSAGE: a message on the selected port and domain (R32, R34, R36, R37). -/
def execPtpMessage (frac : Nat) (port : Nat) (hdr : PtpHdr) (msg : PtpMsg) (s : State) : Result :=
  let s := atFrac frac s
  .next (if s.time.src != 1 || port != getF s STK_CTL_PTP_PORT || hdr.domain != getF s STK_CTL_PTP_DOMAIN then s
    else takePtp port hdr.domain hdr.map msg s)

/-! ### The generator at a boundary -/

/-- Slewing towards the reference at no more than 100 ppm of a stroke (R33). -/
def slew (s : State) : State :=
  let lim : Int := (s.time.period / 10 : Nat)
  let off := s.time.offsetNs
  let st := lockState s
  if s.time.src = 0 || st = 0 || st = 3 then s
  else if off.natAbs ≤ s.time.period / 10 then setOffset 0 s
  else if 0 < off then setOffset (off - lim) s
  else setOffset (off + lim) s

/-- Counters of the generator that a boundary advances. -/
def generatorCounts (s : State) : State :=
  let st := lockState s
  let below := if st = 1 && s.time.offsetNs.natAbs < 1000 then s.time.below + 1 else 0
  { s with time := { s.time with
      below := below,
      holdUs := if st = 3 then s.time.holdUs + s.time.period else s.time.holdUs,
      sinceMark := if s.time.src = 3 then s.time.sinceMark + 1 else 0 } }

/-- PERIOD_CHANGE (R30): a pending period takes effect at a boundary that opens a multiple of the flourish interval in
force, with a 04h anchor. -/
def periodChange (s : State) : State :=
  if flagF s STK_PENDING_VALID && s.time.stroke % flInterval s == 0 then
    anchorRec 4 0 (setF STK_PENDING_VALID 0 (setF STK_PENDING_MICROS 0
      { s with time := { s.time with period := getF s STK_PENDING_MICROS } }))
  else s

/-- FLOURISH_LOG2 takes effect at a boundary that is a multiple of the larger of the old and the new interval (R156). -/
def flourishChange (s : State) : State :=
  let w := getF s PNC_CTL_FLOURISH_LOG2
  if w != s.time.flLog2 && s.time.stroke % 2 ^ (max w s.time.flLog2) == 0 then
    { s with time := { s.time with flLog2 := w } }
  else s

/-- SOURCE_CHANGE (R475): FREE if the new source is 0h or the generator was in FREE, HOLDOVER otherwise; one 03h
anchor. -/
def sourceChange (s : State) : State :=
  let w := getF s STK_CTL_SRC
  if w = s.time.src then s
  else
    let st := if w = 0 || lockState s = 0 then 0 else 3
    anchorRec 3 0 (setF STK_STATUS_STATE st
      { s with time := { s.time with src := w, holdUs := 0, misses := 0, sinceMark := 0, below := 0,
                                     ptpRx := none, ptpReq := none, ptpDelayNs := 0 } })

/-- A realign accepted on an ahead reference advances the count at the boundary, with a 07h anchor that gives the
strokes skipped (R37). -/
def realignStep (s : State) : State :=
  if s.time.realign then
    let s1 := { s with time := { s.time with realign := false } }
    let skip := s.time.offsetNs.toNat / strokeNs s
    if lockState s = 4 && 0 < s.time.offsetNs && 0 < skip then
      anchorRec 7 skip (setOffset (s.time.offsetNs - (skip * strokeNs s : Nat))
        { s1 with time := { s1.time with stroke := s.time.stroke + skip } })
    else s1
  else s

/-- The time-weighted clock of the stroke that ends (R97): kHz times fractions. -/
def clockTotal (s : State) : Nat := s.time.clkSum + s.time.clkKhz * (65536 - s.time.clkFrac)

/-- The scale of R97, in units of 1/256 of 1,200 MHz, halves rounded up. -/
def scaleOf (s : State) : Nat := (clockTotal s * 256 * 2 + 65536 * 1200000) / (2 * 65536 * 1200000)

/-- The fabric clock changes inside a stroke (R97, R414, R421, R422). -/
def setFabricKhz (khz : Nat) (s : State) : State :=
  let f := s.time.frac
  { s with time := { s.time with clkSum := s.time.clkSum + s.time.clkKhz * (f - s.time.clkFrac),
                                 clkFrac := max f s.time.clkFrac, clkKhz := khz } }

/-- The count advances by one stroke (R7, R31): HALT, whose generator is unpowered, is the one exception. -/
def tickStroke (s : State) : State :=
  { s with time := { s.time with stroke := s.time.stroke + 1, frac := 0, clkSum := 0, clkFrac := 0 } }

/-- STROKE_IO_PULSE (R40). -/
def strokeIoPulse (s : State) : State :=
  if flagF s STK_CTL_IO_OUT then emit (.strokeIo (getF s STK_IO_DELAY_NS)) s else s

/-- What the generator does at a boundary, the count having advanced: a realign sets the number of the stroke that opens, by which the
other changes fall due (R30, R37). -/
def generatorBoundary (s : State) : State :=
  periodChange (flourishChange (sourceChange (realignStep (slew (generatorCounts s)))))

end Sys2Proof.Machine
end

