-- ==== Sys2Proof/Machine/Chain.lean ====
section
/-!
DEFINITION. The ink chain (spec/07_sealing_and_evidence.md R130 to R145, R474): closing a stroke, the pounce unit and its
commit, flourishes and anchors, and the digest lanes' self-checks.
-/

namespace Sys2Proof.Machine

/-! ### Hash inputs (R131, R132) -/

/-- The four bytes that name a stream across the domain. -/
def streamName (dev stream : Nat) : Bytes := be 2 (dev % 512) ++ be 2 stream

/-- L(s,n) (R130, R131). -/
def leafHash (alg dev stream n : Nat) (d prev : Bytes) : Bytes :=
  digest alg (le 1 1 ++ streamName dev stream ++ be 8 n ++ d ++ prev)

/-- C(n) (R130). -/
def chainHash (alg n : Nat) (t prev : Bytes) : Bytes := digest alg (le 1 2 ++ be 8 n ++ t ++ prev)

/-- The largest power of two below `k`, for `k` above 1. -/
def pow2Below (k fuel : Nat) : Nat :=
  match fuel with
  | 0 => 1
  | f + 1 => let j := pow2Below k f
             if j * 2 < k then j * 2 else j

/-- T over the leaves (R132); `fuel` is the number of leaves. -/
def merkle (alg fuel : Nat) (ls : List Bytes) : Bytes :=
  match fuel, ls with
  | _, [] => zeros (digestLen alg)
  | _, [x] => x
  | 0, x :: _ => x
  | f + 1, x :: y :: t =>
    let l := x :: y :: t
    let j := pow2Below l.length l.length
    digest alg (le 1 3 ++ merkle alg f (l.take j) ++ merkle alg f (l.drop j))

/-- The siblings of leaf `i`, leaf level first, each with its side (true on the right) (R153). -/
def merklePath (alg fuel : Nat) (ls : List Bytes) (i : Nat) : List (Bool × Bytes) :=
  match fuel, ls with
  | _, [] => []
  | _, [_] => []
  | 0, _ :: _ => []
  | f + 1, x :: y :: t =>
    let l := x :: y :: t
    let j := pow2Below l.length l.length
    if i < j then merklePath alg f (l.take j) i ++ [(true, merkle alg l.length (l.drop j))]
    else merklePath alg f (l.drop j) (i - j) ++ [(false, merkle alg l.length (l.take j))]

/-! ### Keys (R140, R157, R303) -/

/-- The ASCII bytes of a label. -/
def ascii (x : String) : Bytes := x.toList.map (fun c => BitVec.ofNat 8 c.toNat)

/-- A secret derived from the root key (R303). -/
def rootSecret (label : Bytes) : Bytes := fixLen 32 (Config.rawHmac 1 Config.rootKey label)

def seedOf (epoch : Nat) : Bytes := rootSecret (ascii "NB7640 FLOURISH" ++ le 1 epoch)

/-- Length of a public key in the encoding of R146. -/
def pubLen (alg : Nat) : Nat := if alg = 2 then 97 else if alg = 3 then 32 else 65

/-- Length of a signature (R140). -/
def sigLen (alg : Nat) : Nat := if alg = 2 then 96 else 64

def pubKey (alg epoch : Nat) : Bytes := fixLen (pubLen alg) (Config.rawPublicKey alg (seedOf epoch))

def keyId (h alg epoch : Nat) : Bytes := fixLen 8 (digest h (pubKey alg epoch))

/-- A signature of the flourish key over a message. -/
def signWith (alg epoch : Nat) (m : Bytes) : Bytes := fixLen (sigLen alg) (Config.rawSign alg (seedOf epoch) m)

/-- SGN_KEYID and SGN_PUB show the key of the epoch in force (R157). -/
def showKey (s : State) : State :=
  let id := keyId s.chain.hashSel s.chain.alg s.chain.keyEpoch
  let pub := fixLen 100 (pubKey s.chain.alg s.chain.keyEpoch)
  let s1 := setF SGN_KEYID_LO_KEY_ID (leAt id 0 4) (setF SGN_KEYID_HI_KEY_ID (leAt id 4 4) s)
  (List.range 25).foldl (fun a i => setF (SGN_PUB_KEY i) (leAt pub (4 * i) 4) a) s1

/-! ### GENESIS (R135) -/

/-- The GENESIS payload; `prev` gives H, last sealed stroke and last C of the chain it replaces. -/
def genesisPayload (s : State) (h : Nat) (prev : Option (Nat × Nat × Bytes)) : Bytes :=
  let p := match prev with
    | none => zeros 64
    | some (ph, n, c) => le 1 ph ++ zeros 7 ++ le 6 n ++ zeros 2 ++ fixLen 48 c
  le 2 (deviceId s % 512) ++ le 1 h ++ le 1 s.chain.alg ++ fixLen 20 Config.serialNumber
    ++ keyId h s.chain.alg s.chain.keyEpoch ++ fixLen 97 (pubKey s.chain.alg s.chain.keyEpoch) ++ zeros 7 ++ p

/-! ### Opening and closing a stroke -/

/-- FLAGS bit 1 of an EVENT record that comes from the always-on queue (R436, R437). -/
def markQueued (r : InkRec) : InkRec :=
  if r.type = 0x14 then { r with bytes := splice r.bytes 67 (le 1 (byteAt r.bytes 67 ||| 2)) } else r

/-- Insert a record in RSEQ order. -/
def insertRec (r : InkRec) : List InkRec → List InkRec
  | [] => [r]
  | x :: t => if r.rseq < x.rseq then r :: x :: t else x :: insertRec r t

/-- The held records enter stream 0 of the first sealed stroke, in the order raised, keeping DTIME and RSEQ (R474). -/
def releaseHeld (s : State) : State :=
  let recs := (s.chain.held ++ s.mon.queue.map markQueued).foldl (fun a r => insertRec r a) s.chain.openRecs
  setF EVT_STATUS_QUEUED 0
    { s with chain := { s.chain with openRecs := recs, held := [] }, mon := { s.mon with queue := [] } }

/-- A GENESIS opens the stroke that is opening: it takes its RSEQ now and its bytes when the chain it replaces has its
last value; KEY_ID is that of the new H (R135, R157). -/
def reserveGenesis (h : Nat) (s : State) : State :=
  let next := if s.chain.genRseq.isSome then s.chain.rseq else s.chain.rseq + 1
  showKey { s with chain := { s.chain with
      hashSel := h, openGenesis := some (s.chain.genRseq.getD s.chain.rseq, now s), rseq := next, genRseq := none, restartTo := none,
      genesis := true } }

/-- H of the domain whose commit falls at the boundary of this stroke, or has fallen unreached (R404). -/
def commitHash (s : State) : Option Nat :=
  match s.oxv.prepared, s.oxv.commitAt with
  | some (_, c), some n => if n ≤ s.time.stroke then some (byteAt c 18) else none
  | _, _ => none

/-- The commit of a domain whose H differs restarts a provisional chain (R135). -/
def commitRestarts (s : State) : Option Nat :=
  if s.chain.provisional && s.chain.genesis then (commitHash s).filter (· != s.chain.hashSel) else none

/-- A stroke is opened to be sealed: a due GENESIS, then the held records. -/
def openNow (s : State) : State :=
  let s1 := { s with chain := { s.chain with noOpen := false } }
  let s2 := if !s1.chain.genesis then reserveGenesis ((commitHash s1).getD (if flagF s1 PNC_CTL_HASH_SEL then 2 else 1)) s1
    else match (commitRestarts s1).or s1.chain.restartTo with
      | some h => reserveGenesis h s1
      | none => s1
  setF PNC_STATUS_GENESIS 1 (setF PNC_STATUS_HASH (s2.chain.hashSel - 1) (releaseHeld s2))

/-- A stroke opens, in the modes that seal. -/
def openStroke (s : State) : State := if s.mode.cur.seals then openNow s else s

/-- D(s,n) of every active stream is fixed: the open stroke closes (R43, R133, R215). -/
def closeStroke (sealClosed : Bool) (s : State) : State :=
  if !strokeOpen s then s
  else
    let c := s.chain
    let cs : ClosedStroke := {
      n := s.time.stroke, recs := c.openRecs, parts := c.openParts.filter (fun e => !e.2.data.isEmpty),
      overrun := flagF s STK_STATUS_OVERRUN, sealClosed := sealClosed, laneReplaced := c.laneReplaced,
      hashSel := c.hashSel, genesis := c.openGenesis, peakKib := c.peakKib,
      lock := lockState s }
    { s with chain := { c with closed := c.closed ++ [cs], openRecs := [], openParts := [], openGenesis := none,
                               laneReplaced := false, peakKib := 0 } }

/-- Absorb bytes into D(s,n) of a stream of the open stroke (R130, R290). -/
def absorb (stream nsid firstLba offset : Nat) (data : Bytes) (s : State) : State :=
  let p := match mget s.chain.openParts stream with
    | some p => { p with data := p.data ++ data }
    | none => { nsid := nsid, firstLba := firstLba, offset := offset, data := data, lane := Config.laneOf stream % 16 }
  { s with chain := { s.chain with openParts := mset s.chain.openParts stream p } }

/-! ### The commit (R143, R139) -/

def entrySize (h : Nat) : Nat := if h = 2 then 72 else 56

/-- A leaf-table entry in bytes (R139). -/
def leafBytes (l : Leaf) : Bytes :=
  le 2 l.stream ++ le 6 (l.prev.getD (2 ^ 48 - 1)) ++ le 8 l.firstLba ++ le 4 l.bytes ++ le 2 l.offset ++ zeros 2
    ++ l.leaf

/-- The first 168 bytes of the payload of a stroke-root record (R139). -/
def rootHead (r : StrokeRoot) : Bytes :=
  le 6 r.n ++ zeros 2 ++ le 6 (r.prevSealed.getD (2 ^ 48 - 1)) ++ zeros 2 ++ le 4 r.count ++ le 2 r.flags
    ++ le 2 (entrySize r.hashSel) ++ fixLen 48 r.t ++ fixLen 48 r.c ++ fixLen 48 r.cPrev

def rootPayload (r : StrokeRoot) : Bytes := rootHead r ++ (r.leaves.map leafBytes).flatten

/-- The whole stroke-root record, under the device ID it was written with; LATE and SEAL stand in its header as well (R136). -/
def rootBytes (r : StrokeRoot) : Bytes :=
  inkRecord r.device r.hashSel 0x21 0 (bit (bitAt r.flags 0) + 2 * bit r.inSeal) r.dtime r.rseq 0 (rootPayload r)

/-- The stream-0 records of a closed stroke, its GENESIS (if it opens a chain) first. -/
def strokeRecs (s : State) (c : ClosedStroke) : List InkRec :=
  match c.genesis with
  | none => c.recs
  | some (rseq, dt) =>
    let prev := match s.chain.lastSealed with
      | none => none
      | some n => some (s.chain.lastHash, n, s.chain.lastC)
    let g := inkBytes { s with chain := { s.chain with hashSel := c.hashSel } } 0x1A 0 (recFlags s) dt rseq 0
      (genesisPayload s c.hashSel prev)
    { type := 0x1A, rseq := rseq, dtime := dt, bytes := g } :: c.recs

/-- The leaf of one stream. DESIGN CHOICE (notes/assumptions/133): a stroke that closed under one device ID and is committed under another
names its streams by the ID at the commit, which its record carries. -/
def leafOf (s : State) (c : ClosedStroke) (stream firstLba offset : Nat) (data : Bytes) : Leaf :=
  let prev := if c.genesis.isSome then none else mget s.chain.streams stream
  let pl := match prev with
    | some e => e.2
    | none => zeros (digestLen c.hashSel)
  { stream := stream, prev := prev.map (·.1), firstLba := firstLba, bytes := data.length, offset := offset,
    leaf := leafHash c.hashSel (deviceId s) stream c.n (digest c.hashSel data) pl }

/-- The leaves of a closed stroke, stream 0 first and the others by rising stream ID (R132, R133). -/
def strokeLeaves (s : State) (c : ClosedStroke) : List Leaf :=
  leafOf s c 0 (s.chain.inkAddr / 4096) (s.chain.inkAddr % 4096) ((strokeRecs s c).map (·.bytes)).flatten
    :: c.parts.map (fun e => leafOf s c e.1 e.2.firstLba e.2.offset e.2.data)

/-- FLAGS of a stroke root (R139). -/
def rootFlags (c : ClosedStroke) : Nat :=
  bit c.late + 2 * bit c.overrun + 4 * bit c.sealClosed + 8 * bit c.laneReplaced + 16 * bit c.voted

/-- C(n−1): the chain value of the latest stroke sealed before, h zero bytes where the chain begins (R134, R135). -/
def prevC (s : State) (c : ClosedStroke) : Bytes :=
  if c.genesis.isSome || s.chain.lastSealed.isNone then zeros (digestLen c.hashSel) else s.chain.lastC

/-- The stroke-root record that seals a closed stroke. -/
def rootOf (s : State) (c : ClosedStroke) : StrokeRoot :=
  let ls := strokeLeaves s c
  let t := merkle c.hashSel ls.length (ls.map (·.leaf))
  { n := c.n, prevSealed := if c.genesis.isSome then none else s.chain.lastSealed, count := ls.length,
    flags := rootFlags c, hashSel := c.hashSel, t := t, c := chainHash c.hashSel c.n t (prevC s c), cPrev := prevC s c,
    leaves := ls, recs := strokeRecs s c, rseq := s.chain.rseq, dtime := now s, inkAddr := s.chain.inkAddr,
    device := deviceId s, inSeal := s.mode.cur == .seal }

/-- Microseconds from the opening of stroke `n` to now. -/
def usSince (s : State) (n : Nat) : Nat := (now s - n * 65536) * s.time.period / 65536

/-- The entry of log C1h (R46). -/
def statOf (s : State) (c : ClosedStroke) (r : StrokeRoot) : StrokeStat :=
  { stroke := c.n, bytes := r.leaves.foldl (fun a l => a + l.bytes) 0, streams := r.count,
    gaps := (r.recs.filter (fun x => x.type == 0x11)).length, pounceUs := usSince s (c.n + 1), peakKib := c.peakKib,
    flags := bit c.overrun + 2 * bit (c.lock == 3) + 4 * bit c.late + 8 * bit (c.lock == 4) }

/-- An entry takes its place in the log, the newest stroke first. -/
def putStat (t : StrokeStat) : List StrokeStat → List StrokeStat
  | [] => [t]
  | x :: r => if x.stroke ≤ t.stroke then t :: x :: r else x :: putStat t r

/-- A stroke that is counted and in which nothing is sealed has its entry too (R31, R46). -/
def noteUnsealed (s : State) : State :=
  let n := s.time.stroke
  if strokeOpen s || s.chain.lastSealed == some n || s.chain.closed.any (fun c => c.n == n) then s
  else { s with stats := (putStat { stroke := n, flags := 2 * bit (lockState s == 3) + 8 * bit (lockState s == 4) } s.stats).take 64 }

/-- What a stroke adds to the ink log: its stream-0 records and its stroke root (R138, R474). -/
def strokeInk (r : StrokeRoot) : Bytes := (r.recs.map (·.bytes)).flatten ++ rootBytes r

/-- Stroke n is committed: it is sealed (R134, R143). -/
def commitStroke (c : ClosedStroke) (s : State) : State :=
  let r := rootOf s c
  let kept := if c.genesis.isSome then [] else s.chain.streams
  let late := usSince s (c.n + 3)
  let s1 := { s with
    chain := { s.chain with
      closed := s.chain.closed.drop 1, roots := s.chain.roots ++ [r], rseq := s.chain.rseq + 1,
      streams := r.leaves.foldl (fun m l => mset m l.stream (c.n, l.leaf)) kept,
      lastSealed := some c.n, lastC := r.c, lastHash := c.hashSel,
      flFrom := some (s.chain.flFrom.getD c.n),
      fdPrev := if c.genesis.isSome then zeros (digestLen c.hashSel) else s.chain.fdPrev,
      inkAddr := s.chain.inkAddr + (strokeInk r).length, inkTail := s.chain.inkTail ++ strokeInk r },
    stats := (putStat (statOf s c r) s.stats).take 64 }
  let s2 := setF PNC_SEALED_LO_STROKE (c.n % 2 ^ 32) (setF PNC_SEALED_HI_STROKE (c.n / 2 ^ 32 % 65536) s1)
  if c.late then
    setF STK_STATUS_SEAL_LATE 1
      (if getF s2 STK_LATE_MAX_MICROS < late then setF STK_LATE_MAX_MICROS (min late 65535) s2 else s2)
  else s2

/-! ### Flourishes (R140, R141) -/

def anchorField (a : Option Anchor) : Bytes :=
  match a with
  | none => le 2 0xFFFF ++ zeros 62
  | some x => le 2 x.device ++ le 6 x.index ++ zeros 8 ++ fixLen 48 x.fd

/-- FLOURISH payload bytes 0 to 255 (R140). -/
def flourishBody (s : State) (closing : Bool) (first last : Nat) : Bytes :=
  let on := flagF s PNC_CTL_ANCHOR_EN
  let a := if on then s.chain.anchorA else none
  let b := if on then s.chain.anchorB else none
  le 6 first ++ le 6 last ++ le 1 s.time.flLog2 ++ le 1 s.chain.alg ++ le 1 (bit a.isSome + bit b.isSome)
    ++ le 1 (bit closing) ++ le 8 s.chain.flIndex ++ keyId s.chain.hashSel s.chain.alg s.chain.keyEpoch
    ++ fixLen 48 s.chain.lastC ++ fixLen 48 s.chain.fdPrev ++ anchorField a ++ anchorField b

/-- The payload of an FD frame (R391). -/
def fdPayload (s : State) (f : Flourish) : Bytes :=
  le 2 (deviceId s % 512) ++ zeros 6 ++ le 8 f.index ++ fixLen 48 f.fd

/-! ### The signature unit (R21, R157, R309) -/

/-- A shared engine by its number (R19). -/
def engQ (s : State) (e : Nat) : EngQ := (mget s.crypt.engs e).getD {}

/-- Something is left of the allotment for a class: of its own part, or of what nobody has asked for (R19). -/
def allotLeft (a : Allot) (c : Nat) : Bool := 0 < (mget a.cls c).getD 0 || 0 < a.spare

/-- A class is charged: its own part first. -/
def spendAllot (a : Allot) (c n : Nat) : Allot :=
  let own := (mget a.cls c).getD 0
  { a with cls := mset a.cls c (own - n), spare := a.spare - (n - own) }

/-- An operation of the signature unit is charged to a class. -/
def spendSign (c : Nat) (s : State) : State :=
  { s with crypt := { s.crypt with engs := mset s.crypt.engs 4 { engQ s 4 with allot := spendAllot (engQ s 4).allot c 1 } } }

/-- The unit runs nothing, and nothing waits for it: a token check or an import begins at once. -/
def signIdle (s : State) : Bool := s.crypt.signing.isNone && s.crypt.signQ.isEmpty

/-- The unit is idle and the class has an operation left: VERIFY RANGE and EXPORT begin at once (R309). -/
def signFree (s : State) (c : Nat) : Bool := signIdle s && allotLeft (engQ s 4).allot c

/-- SGN_STATUS shows the operation that runs and the number of those that wait. A flourish that is being signed waits no more. -/
def showSign (s : State) : State :=
  let waiting := s.crypt.signQ.length + s.chain.flPending.length - bit (s.crypt.signing == some .flourish)
  setF SGN_STATUS_BUSY (bit s.crypt.signing.isSome) (setF SGN_STATUS_QUEUED (min waiting 65535) s)

/-- A flourish that waits takes the unit, once that is free: it stands before every other use (R21). -/
def startFlourish (s : State) : State :=
  showSign (if s.crypt.signing.isNone && !s.chain.flPending.isEmpty then
      { s with crypt := { s.crypt with signing := some .flourish } }
    else s)

def pushSign (u : SignUse) (s : State) : State :=
  showSign { s with crypt := { s.crypt with signQ := s.crypt.signQ ++ [u] } }

/-- Release-token checks and imports stand before the users by class (R309). -/
def LateCmd.early : LateCmd → Bool
  | .token _ _ _ _ | .blob _ _ _ _ _ => true
  | _ => false

/-- A fetched command waits for its function's byte budget (R42). -/
def pushLate (c : LateCmd) (s : State) : State := { s with late := s.late ++ [c] }

/-- The command of a late entry: function, queue, CID. -/
def LateCmd.who : LateCmd → Nat × Nat × Nat
  | .proof q _ _ _ | .bundle q _ _ _ _ _ _ _ _ | .load q _ _ _ _ | .free q _ _ _ _ | .token q _ _ _ | .blob q _ _ _ _ =>
    (q.fn, q.sqid, q.cid)
  | .check f sq cid => (f, sq, cid)

/-- The commands that wait for a byte budget or for the signature unit (R42, R309). -/
def lateCmds (s : State) : List LateCmd :=
  s.late ++ s.crypt.signQ.filterMap (fun u => match u with
    | .cmd c => some c
    | _ => none)

/-- No fetched command is outstanding. -/
def quiet (s : State) : Bool := s.cmds.isEmpty && (lateCmds s).isEmpty

/-- Those that satisfy `p` wait no more. -/
def dropLate (p : Nat × Nat × Nat → Bool) (s : State) : State :=
  showSign { s with
    late := s.late.filter (fun c => !p c.who),
    crypt := { s.crypt with signQ := s.crypt.signQ.filter (fun u => match u with
      | .cmd c => !p c.who
      | _ => true) } }

/-- The running operation ends, if it is this one. -/
def endSign (u : SignUse) (s : State) : State :=
  if s.crypt.signing == some u then showSign { s with crypt := { s.crypt with signing := none } } else s

/-- A flourish is fixed over the sealed strokes since the last one: ALG and KEY_EPOCH take effect, FD is formed and
sent on both ports (R140, R141, R157). Nothing is written where no stroke has been sealed since. -/
def fixFlourish (closing : Bool) (s : State) : State :=
  match s.chain.flFrom, s.chain.lastSealed with
  | some first, some last =>
    let alg := if getF s SGN_CTL_ALG = 0 then s.chain.alg else getF s SGN_CTL_ALG
    let epoch := getF s SGN_CTL_KEY_EPOCH
    let s1 := { s with chain := { s.chain with alg := alg, keyEpoch := epoch } }
    let body := flourishBody s1 closing first last
    let f : Flourish := { index := s.chain.flIndex, first := first, last := last, alg := alg, epoch := epoch, body := body,
                          fd := chainH s1 (le 1 4 ++ body), keyRec := alg != s.chain.alg || epoch != s.chain.keyEpoch }
    let s2 := { s1 with chain := { s1.chain with
        flPending := s.chain.flPending ++ [f], flFrom := none, flIndex := s.chain.flIndex + 1, fdPrev := f.fd } }
    oxvSendAll 5 0 0 (fdPayload s2 f) (startFlourish (showKey s2))
  | _, _ => s

/-- The signature of the pending flourish is there: the FLOURISH record enters stream 0, and a changed key is followed
by its key record in the same stroke (R140, R141, R157). -/
def signFlourish (s : State) : State :=
  match s.chain.flPending with
  | [] => s
  | f :: rest =>
    let payload := f.body ++ fixLen 96 (signWith f.alg f.epoch f.body)
    let s1 := addRec 0x20 payload { s with chain := { s.chain with
        flPending := rest, flourishes := s.chain.flourishes ++ [(f, (mkRec 0x20 (now s) payload s).bytes)] } }
    let s2 := if f.keyRec then addRec 0x1A (genesisPayload s1 s1.chain.hashSel none) s1 else s1
    setF PNC_FLOURISH_LO_INDEX (f.index % 2 ^ 32) (setF PNC_FLOURISH_HI_INDEX (f.index / 2 ^ 32 % 2 ^ 32)
      (endSign .flourish (incF SGN_COUNT_SIGNED 1 s2)))

/-- Every flourish that is fixed gets its signature: `fuel` bounds their number. A mode entry waits for them (R140). -/
def signAll (fuel : Nat) (s : State) : State :=
  match fuel with
  | 0 => showSign s
  | k + 1 => signAll k (signFlourish s)

def signPending (s : State) : State := signAll s.chain.flPending.length s

/-! ### The pounce unit (R143, R144) -/

/-- Votes that found no two of three alike: FAULT 04h and a blot each, and a new recompute (R144). -/
def voteAttempts (n flag k : Nat) (s : State) : State :=
  match k with
  | 0 => s
  | j + 1 => voteAttempts n flag j
      (incF PNC_RETRY_VOTES 1 (incF PNC_RETRY_RETRIES 1 (blot 0x0501 2 (n % 65536) (le 1 4 ++ le 1 flag) (faultRec 4 0 n flag s))))

/-- The compare of the two halves (R144): `flag` is (EQ, EQ_N) of the first compare, `flag2` after the recompute,
`attempts` the votes without a majority, `loserB` names the half the vote marks failed. -/
def pounceCompare (n flag flag2 attempts : Nat) (loserB : Bool) (s : State) : State × Bool :=
  let s1 := setF PNC_STATUS_FLAG flag s
  if flag = 2 then (s1, false)
  else
    let s2 := incF PNC_RETRY_RETRIES 1
      (if flag = 1 then faultRec 1 0 n flag s1
       else blot 0x0501 2 (n % 65536) (le 1 2 ++ le 1 flag) (faultRec 2 0 n flag s1))
    let s3 := setF PNC_STATUS_FLAG flag2 s2
    if flag2 = 2 then (s3, false)
    else
      let s4 := voteAttempts n flag2 attempts s3
      let half := if loserB then 2 else 1
      let s5 := blot 0x0501 2 (n % 65536) (le 1 3 ++ le 1 flag2) (faultRec 3 (half - 1) n flag2 s4)
      (incF PNC_RETRY_VOTES 1 (setF PNC_STATUS_DEGRADED 1
        (setF PNC_STATUS_HALF_FAILED (getF s5 PNC_STATUS_HALF_FAILED ||| half) s5)), true)

/-- A boundary of a flourish interval follows stroke `n` (R140). -/
def endsInterval (s : State) (n : Nat) : Bool := (n + 1) % flInterval s == 0

/-- The pounce unit finishes the oldest closed stroke; at the end of an interval the flourish is fixed. The stroke that SEAL closes is
left to the closing flourish, which SEAL always writes (R140, R215). -/
def pounce (flag flag2 attempts : Nat) (loserB : Bool) (s : State) : State :=
  match s.chain.closed with
  | [] => s
  | c :: _ =>
    let r := pounceCompare c.n flag flag2 attempts loserB s
    let s1 := commitStroke { c with voted := r.2 } r.1
    if endsInterval s1 c.n && !c.sealClosed then fixFlourish false s1 else s1

/-- POUNCE_COMMIT (R143, R144): the device commits in stroke order and skips none. -/
def execPounceCommit (frac : Nat) (flag flag2 attempts : Nat) (loserB : Bool) (s : State) : Result :=
  .next (pounce (flag % 4) (flag2 % 4) attempts loserB (atFrac frac s))

/-! ### Digest lanes (R20, R145) -/

/-- Lanes that are out of use. -/
def failedLanes (s : State) : Nat := getF s PNC_LANE_FAILED

/-- Lanes in the allotment once the lanes of a mask are out of use: 16 with the spare or in its place, and one less for each
further failure. -/
def allotted (failed : Nat) : Nat := min 16 (17 - ((List.range 17).filter (fun i => bitAt failed i)).length)

/-- The lane carried the bytes of a stream of the stroke: it absorbs the stream, or it is the spare that stands in for a lane
that does. -/
def laneCarried (s : State) (lane : Nat) (c : Map StreamPart) : Bool :=
  c.any (fun e => e.2.lane == lane || (lane == 16 && bitAt (failedLanes s) e.2.lane))

/-- A lane fails a check: its work moves to the spare; a second failure leaves 15 lanes, and either is a blot (R20, R145). The
spare failing first has no work to move. -/
def laneFail (lane : Nat) (s : State) : State :=
  if 17 ≤ lane || bitAt (failedLanes s) lane then s
  else
    let n := allotted (failedLanes s + 2 ^ lane)
    let s1 := faultRec 5 lane s.time.stroke 0 (setF DIG_STATUS_LANES n (setF PNC_LANE_FAILED (failedLanes s + 2 ^ lane) s))
    if lane = 16 && failedLanes s = 0 then s1
    else
      blot 0x0502 2 lane (le 1 n) { s1 with chain := { s1.chain with
          laneReplaced := true,
          closed := s1.chain.closed.map (fun c => if laneCarried s lane c.parts then { c with laneReplaced := true } else c) } }

/-- LANE_PARITY_FAIL (R145): where the check that failed is an internal feed's declared length, DIG_MISMATCH counts it (R293). -/
def execLaneParityFail (frac : Nat) (check : LaneCheck) (s : State) : Result :=
  let s := atFrac frac s
  .next (laneFail check.lane (if check.feed then incF DIG_MISMATCH 1 s else s))

/-! ### Boundary parts -/

/-- Strokes whose S+2 has fallen are late from this boundary on (R44). -/
def markLate (s : State) : State :=
  { s with chain := { s.chain with
      closed := s.chain.closed.map (fun c => if c.n + 3 ≤ s.time.stroke then { c with late := true } else c) } }

/-- A flourish boundary writes its 01h anchor (R41); an interval whose last strokes were not sealed is closed here. -/
def flourishBoundary (s : State) : State :=
  if s.time.stroke % flInterval s != 0 then s
  else
    let s1 := if s.chain.closed.isEmpty && s.chain.flFrom.isSome then fixFlourish false s else s
    if strokeOpen s1 then anchorRec 1 0 s1 else s1

/-- An FD from a neighbour fills its slot, or is stale (R142). -/
def takeFd (slotB : Bool) (dev index : Nat) (fd : Bytes) (s : State) : State :=
  if !flagF s PNC_CTL_ANCHOR_EN then s
  else
    let slot := if slotB then s.chain.anchorB else s.chain.anchorA
    let stale := match slot with
      | some a => a.device == dev && index ≤ a.index
      | none => false
    if stale then incF PNC_STATUS_ANCHOR_STALE 1 s
    else
      let a : Anchor := { device := dev, index := index, fd := fd }
      if slotB then
        setF PNC_ANCHOR_B_DEVICE dev (setF PNC_ANCHOR_B_INDEX (index % 65536)
          { s with chain := { s.chain with anchorB := some a } })
      else
        setF PNC_ANCHOR_A_DEVICE dev (setF PNC_ANCHOR_A_INDEX (index % 65536)
          { s with chain := { s.chain with anchorA := some a } })

end Sys2Proof.Machine
end

