-- ==== Sys2Proof/Machine/Ftl.lean ====
section
/-!
DEFINITION. The translation layer (spec/09_flash_translation.md R183 to R208; spec/10 R213, R222 to R225): the map, the
Inkwell's staged units, bands, slots, stripes and their parity, the journal, garbage collection, refresh and tilling.
-/

namespace Sys2Proof.Machine

/-! ### Namespaces and the map (R183) -/

def getNs (s : State) (n : Nat) : Option Ns := mget s.nss n

def updNs (n : Nat) (g : Ns → Ns) (s : State) : State := { s with nss := mupd s.nss n g }

/-- Bytes of a map unit: 4 KiB plain, 16 KiB sealed. -/
def Ns.unitBytes (x : Ns) : Nat := if x.sealed then 16384 else 4096

/-- Blocks in a map unit. -/
def Ns.unitBlocks (x : Ns) : Nat := x.unitBytes / x.blk

def findStaged (s : State) (id : Nat) : Option Staged := s.ftl.staged.find? (fun x => x.id == id)

def mediaAt (s : State) (die unit : Nat) : Option Codeword :=
  match mget s.ftl.media die with
  | none => none
  | some m => mget m unit

/-- Codewords a unit of a kind takes. -/
def Kind.cws : Kind → Nat
  | .plain | .pad => 1
  | _ => 4

/-- KIND of R185. -/
def Kind.code : Kind → Nat
  | .plain => 0
  | .sealed => 1
  | .inkLog => 2
  | .journal => 3
  | .pad => 4

/-! ### Codewords and media encryption (R160, R185, R300, R303) -/

/-- Namespace index of R185: 0 for what no namespace owns. -/
def nsIndex (nsid : Nat) : Nat := nsid - 1

def Kind.ofNs : Kind → Bool
  | .plain | .sealed => true
  | _ => false

/-- The storage key: the secret "NB7640 STORAGE" expanded into 64 bytes (R303). -/
def storageKey : Bytes := fixLen 64 (Config.expandKey (rootSecret (ascii "NB7640 STORAGE")))

/-- Namespace data uses the namespace's key of the media key table, every other kind the storage key (R300). -/
def unitKey (s : State) (kind : Kind) (nsid : Nat) : Bytes :=
  if kind.ofNs then (mget s.crypt.mediaKeys nsid).getD [] else storageKey

/-- The 16-byte tweak: KIND, namespace index and 4 KiB unit (R300). -/
def tweak (kind : Kind) (nsid unit : Nat) : Bytes :=
  le 16 (kind.code * 2 ^ 60 + (if kind.ofNs then nsIndex nsid else 0) % 1024 * 2 ^ 50 + unit % 2 ^ 50)

/-- The 4 KiB unit of codeword `i` of a unit that begins at an LBA, or at `pos`. -/
def tweakUnit (s : State) (kind : Kind) (nsid lba pos i : Nat) : Nat :=
  if kind.ofNs then lba * ((getNs s nsid).map (·.blk)).getD 4096 / 4096 + i else pos + i

/-- Encryption of one data unit, and its inverse. -/
def encUnit (s : State) (kind : Kind) (nsid unit : Nat) (b : Bytes) : Bytes :=
  (Config.xts (unitKey s kind nsid) (tweak kind nsid unit)).enc b

def decUnit (s : State) (kind : Kind) (nsid unit : Nat) (b : Bytes) : Bytes :=
  (Config.xts (unitKey s kind nsid) (tweak kind nsid unit)).dec b

/-- The 16 metadata bytes of a codeword (R185, R186). -/
def metaBytes (c : Codeword) : Bytes :=
  let m := le 5 (if c.kind.ofNs then c.lba else 0)
    ++ le 2 ((if c.kind.ofNs then nsIndex c.nsid else 0) % 1024 + c.kind.code * 1024 + bit c.copy * 16384) ++ le 8 c.seq
  c.raw.getD (m ++ le 1 (crc8 m))

/-- A codeword as the page holds it: data, metadata, parity (R160). -/
def codewordBytes (c : Codeword) : Bytes :=
  let b := fixLen 4096 c.data ++ metaBytes c
  b ++ fixLen 424 (Config.ldpcParity b)

/-- A page of a die with `spare` spare bytes: four codewords, the rest FFh (R160). -/
def pageBytes (s : State) (die page spare : Nat) : Bytes :=
  let cs := ((List.range 4).map (fun i => match mediaAt s die (4 * page + i) with
    | some c => codewordBytes c
    | none => List.replicate 4536 0xFF)).flatten
  cs ++ List.replicate (16384 + spare - cs.length) 0xFF

/-- The bytes of a unit on the media, joined from its codewords and decrypted. -/
def mediaData (s : State) (die unit n : Nat) : Bytes :=
  ((List.range n).map (fun i => match mediaAt s die (unit + i) with
    | some c => decUnit s c.kind c.nsid (tweakUnit s c.kind c.nsid c.lba c.pos i) c.data
    | none => zeros 4096)).flatten

/-- The same bytes as they stand on the media: a copy moves them so (R300). -/
def mediaRaw (s : State) (die unit n : Nat) : Bytes :=
  ((List.range n).map (fun i => match mediaAt s die (unit + i) with
    | some c => c.data
    | none => zeros 4096)).flatten

/-- What a staged unit holds, in clear. -/
def stagedData (s : State) (x : Staged) : Bytes :=
  if x.enc then ((List.range (x.data.length / 4096)).map (fun i =>
    decUnit s x.kind x.nsid (tweakUnit s x.kind x.nsid x.lba x.pos i) (slice x.data (4096 * i) 4096))).flatten
  else x.data

/-- What a staged unit becomes on the media. -/
def stagedRaw (s : State) (x : Staged) : Bytes :=
  if x.enc then x.data
  else ((List.range (x.data.length / 4096)).map (fun i =>
    encUnit s x.kind x.nsid (tweakUnit s x.kind x.nsid x.lba x.pos i) (slice x.data (4096 * i) 4096))).flatten

/-- What a map unit holds now: unwritten and zeroed units of a plain namespace read zeros (R183). -/
def unitData (s : State) (x : Ns) (u : Nat) : Bytes :=
  match mget x.map u with
  | none => zeros x.unitBytes
  | some .zeroed => zeros x.unitBytes
  | some (.inkwell id) => match findStaged s id with
    | some st => fixLen x.unitBytes (stagedData s st)
    | none => zeros x.unitBytes
  | some (.media d k) => mediaData s d k (if x.sealed then 4 else 1)

/-- The units that blocks `[lba, lba + n)` touch. -/
def unitsOf (x : Ns) (lba n : Nat) : List Nat :=
  if n = 0 then [] else
    (List.range ((lba + n - 1) / x.unitBlocks + 1 - lba / x.unitBlocks)).map (fun i => lba / x.unitBlocks + i)

/-- The bytes of blocks `[lba, lba + n)`. -/
def blockData (s : State) (x : Ns) (lba n : Nat) : Bytes :=
  slice ((unitsOf x lba n).map (fun u => unitData s x u)).flatten ((lba % x.unitBlocks) * x.blk) (n * x.blk)

/-- The map units of a range that lie on the media: die and first codeword. -/
def mediaUnits (x : Ns) (lba n : Nat) : List (Nat × Nat) :=
  (unitsOf x lba n).filterMap (fun u => match mget x.map u with
    | some (.media d k) => some (d, k)
    | _ => none)

/-! ### The Inkwell (R44, R213) -/

/-- Bytes of one unit slot on a die (R161): 16 codewords for each page of the word line. -/
def slotCws (die : Nat) : Nat :=
  match Config.cellMode die % 3 with
  | 0 => 16
  | 1 => 48
  | _ => 64

/-- Stripe parity accumulators: one slot for each stripe row with data and no programmed parity (R190). -/
def bandAccumulators (b : Band) : Nat :=
  let open_ := (List.range (b.stripe + 1)).filter (fun r =>
    b.slots.any (fun t => t.row == r && !t.parity) && !b.slots.any (fun t => t.row == r && t.parity && t.st == .passed))
  open_.length * (match b.dies with | d :: _ => slotCws d * 4096 | [] => 0)

def journalKind : JournalRec → Nat
  | .stroke _ _ _ => 0
  | .segment _ _ _ _ => 1
  | .move _ _ _ _ _ => 2
  | .zero _ _ _ _ => 3
  | .eraseIntent _ => 4
  | .eraseDone _ => 5
  | .band _ _ _ _ => 6
  | .nspace _ => 7
  | .checkpoint _ _ _ _ _ _ _ _ => 8

/-- SEGMENT takes 36,864 bytes; the sizes of the others are not stated. -/
def journalSize (r : JournalRec) : Nat :=
  match r with
  | .segment _ _ _ _ => 36864
  | x => Config.journalRecBytes (journalKind x)

/-- Bytes of a command's write data that wait in the Inkwell to be applied (R77). -/
def Cmd.waitingBytes (c : Cmd) : Nat :=
  match c.kind with
  | .write _ _ _ (some d) => d.length
  | _ => 0

/-- Bytes that have arrived and belong to no map unit yet: units of the open stroke, write data that waits for an earlier command,
journal records that fill no page. -/
def arrivedBytes (s : State) : Nat :=
  s.ing.flows.foldl (fun a e => a + e.2.units.flatten.length) 0
    + s.cmds.foldl (fun a c => a + c.waitingBytes) 0
    + s.ftl.journalNew.foldl (fun a r => a + journalSize r) 0

/-- The dirty level: bytes of the staging part not yet confirmed programmed (R44). Ink-log records lie in the fixed
part (R45). -/
def dirtyBytes (s : State) : Nat :=
  s.ftl.staged.foldl (fun a x => if x.kind = .inkLog then a else a + x.data.length) 0
    + s.nss.foldl (fun a e => a + e.2.tail.length) 0
    + s.ftl.bands.foldl (fun a e => a + bandAccumulators e.2) 0
    + arrivedBytes s

def usableDies (s : State) : List Nat := (s.ftl.dies.filter (fun e => e.2.st == 1)).map (·.1)

/-- The effective limit of R213, in KiB. -/
def effLimitKib (s : State) : Nat :=
  min (getF s STK_OVR_CTL_DIRTY_LIMIT_MIB * 1024) (min ((usableDies s).length * 128) 30720)

/-- The hold-up bank is armed (R212); with ARM_MV 0 always. -/
def armed (s : State) : Bool := getF s PWR_HOLD_ARM_MV == 0 || flagF s PWR_HOLD_STATUS_ARMED

/-- Write-type commands and ingest are treated as at the dirty limit (R45, R212). -/
def atDirtyLimit (s : State) : Bool := !armed s || getF s PWR_SEAL_EFF_LIMIT_KIB * 1024 ≤ dirtyBytes s

/-- The SEQ that the next write-type command takes when it is applied (R186). -/
def bumpSeq (s : State) : State := { s with ftl := { s.ftl with seq := s.ftl.seq + 1 } }

/-- Stage one unit in the Inkwell. -/
def stage (x : Staged) (s : State) : State :=
  { s with ftl := { s.ftl with staged := s.ftl.staged ++ [{ x with id := s.ftl.nextId }], nextId := s.ftl.nextId + 1 } }

/-- The unit's entry names the Inkwell from now on (STATE 10b). -/
def stageUnit (x : Staged) (unit : Nat) (s : State) : State :=
  let id := s.ftl.nextId
  updNs x.nsid (fun n => { n with map := mset n.map unit (.inkwell id) }) (stage x s)

/-! ### The journal (R222, R223) -/

def journalAdd (r : JournalRec) (s : State) : State :=
  { s with ftl := { s.ftl with journalNew := s.ftl.journalNew ++ [r] } }

/-- Records laid one after another from a byte of the journal on, each with the pages it lies in; the page `p0` is staged as `id0`. -/
def layRecords (p0 id0 off : Nat) : List JournalRec → List JournalEnt
  | [] => []
  | r :: t =>
    let n := journalSize r
    let a := off / 16384
    let b := (off + n - 1) / 16384
    { rec_ := r, first := p0 + a, last := p0 + b, waits := (List.range (b + 1 - a)).map (fun i => id0 + a + i) }
      :: layRecords p0 id0 (off + n) t

/-- The stroke's records are staged as one run of 16 KiB pages of the journal band. -/
def journalFlush (s : State) : State :=
  match s.ftl.journalNew with
  | [] => s
  | recs =>
    let n := recs.foldl (fun a r => a + journalSize r) 0
    let pages := n / 16384 + 1
    let p0 := s.ftl.journalPages
    let ents := layRecords p0 s.ftl.nextId 0 recs
    let s1 := (List.range pages).foldl (fun a i => stage {
      id := 0, kind := .journal, nsid := 0, lba := 0, seq := s.ftl.seq,
      data := fixLen 16384 (Config.packPage (p0 + i)), stroke := s.time.stroke, pos := 4 * (p0 + i) } a) s
    { s1 with ftl := { s1.ftl with
        journal := s1.ftl.journal ++ ents, journalNew := [], journalPages := p0 + pages,
        journalBytes := s1.ftl.journalBytes + n } }

/-- The record stands on the media. -/
def JournalEnt.passed (e : JournalEnt) : Bool := e.waits.isEmpty

/-- Every journal record that satisfies `p` has passed program (R225). -/
def journalPassed (s : State) (p : JournalRec → Bool) : Bool :=
  s.ftl.journal.all (fun e => !p e.rec_ || e.passed) && s.ftl.journalNew.all (fun r => !p r)

/-! ### Bands (R187 to R190, R193, R195) -/

def getDie (s : State) (d : Nat) : Die := (mget s.ftl.dies d).getD {}

def updDie (d : Nat) (g : Die → Die) (s : State) : State :=
  { s with ftl := { s.ftl with dies := mupd s.ftl.dies d g } }

def updBand (b : Nat) (g : Band → Band) (s : State) : State :=
  { s with ftl := { s.ftl with bands := mupd s.ftl.bands b g } }

/-- FREE: the smallest number of erased members that any usable die holds (R197). -/
def freeBands (s : State) : Nat :=
  match usableDies s with
  | [] => 0
  | d :: ds => ds.foldl (fun a x => min a (getDie s x).freeMembers.length) (getDie s d).freeMembers.length

def eraseCount (x : Die) (m : Nat) : Nat := (mget x.erases m).getD 0

/-- The member with the least (or the most) erases among those listed. -/
def pickMember (x : Die) (most : Bool) : List Nat → Option Nat
  | [] => none
  | m :: t => match pickMember x most t with
    | none => some m
    | some k =>
      if (most && eraseCount x k < eraseCount x m) || (!most && eraseCount x m ≤ eraseCount x k) then some m
      else some k

/-- Listed data of R224 in bytes: programmed slots of the listed bands. -/
def listedBytes (s : State) : Nat :=
  s.ftl.bands.foldl (fun a e => if e.2.listed then
    a + e.2.slots.foldl (fun b t => if t.st = .passed then b + slotCws t.die * 4096 else b) 0 else a) 0

def openBands (s : State) : List (Nat × Band) := s.ftl.bands.filter (fun e => e.2.isOpen)

/-- Planes of a member whose block is bad and has no spare block in its place (R187). -/
def badPlanes (d : Nat) (x : Die) (m : Nat) : List Nat :=
  (List.range 4).filter (fun p => Config.blockBad d m p && !x.swapped.contains (m * 4 + p))

/-- The die has a good block of the same plane for each of them. -/
def canMend (d : Nat) (x : Die) (m : Nat) : Bool :=
  (badPlanes d x m).all (fun p => (x.swapped.filter (fun b => b % 4 == p)).length < Config.spareBlocks d p)

/-- Free members that a band can take. -/
def wholeMembers (d : Nat) (x : Die) : List Nat := x.freeMembers.filter (canMend d x)

/-- Usable dies with a free member beside the one of the SEAL reserve (R187, R214). -/
def openDies (s : State) : List Nat := (usableDies s).filter (fun d => 2 ≤ (wholeMembers d (getDie s d)).length)

/-- A band may open: at least 3 dies with a free member, at most 32 open, below the cap of R224, and no plain band at
FREE of SEAL_FLOOR or below (R187, R193, R197, R224). -/
def mayOpen (s : State) (kind : Kind) (copy : Bool) : Bool :=
  3 ≤ (openDies s).length && (openBands s).length < 32 && listedBytes s < (usableDies s).length * 268435456 &&
    !(kind == .plain && !copy && freeBands s ≤ getF s FTL_GC_SEAL_FLOOR)

/-- The member that a band takes on a die (R195): the least worn under WEAR_OVERRIDE, the most worn for copies; the measured
life of other data decides otherwise. -/
def chooseMember (s : State) (copy : Bool) (d : Nat) : Option Nat :=
  let x := getDie s d
  let ms := wholeMembers d x
  if flagF s FTL_STATUS_WEAR_OVERRIDE then pickMember x false ms
  else if copy then pickMember x true ms
  else ms[Config.memberPick s.ftl.nextBand d % ms.length]?

/-- Take a member on each die listed; spare blocks stand in for its bad ones. -/
def takeMembers (copy : Bool) (ds : List Nat) (s : State) : Map Nat × State :=
  ds.foldl (fun a d =>
    match chooseMember a.2 copy d with
    | none => a
    | some m => (mset a.1 d m, updDie d (fun x => { x with
        freeMembers := x.freeMembers.filter (· != m), swapped := x.swapped ++ (badPlanes d x m).map (m * 4 + ·) }) a.2)) ([], s)

def openBand (kind : Kind) (copy : Bool) (feed : Nat) (s : State) : State :=
  if !mayOpen s kind copy then s
  else
    let r := takeMembers copy (openDies s) s
    let id := s.ftl.nextBand
    let dies := r.1.map (·.1)
    setF FTL_BANDS_OPEN ((openBands s).length + 1)
      (journalAdd (.band id kind dies true)
        { r.2 with ftl := { r.2.ftl with
            bands := mset r.2.ftl.bands id { kind := kind, copy := copy, feed := feed, dies := dies, members := r.1 },
            nextBand := id + 1 } })

/-- The feed of a sealed band (R193): its RETAIN_STROKES value, or the nearest of eight, the lower on a tie. -/
def sealedFeed (s : State) (retain : Nat) : Nat :=
  let fs := (s.ftl.bands.filter (fun e => e.2.isOpen && e.2.kind == .sealed && !e.2.copy)).map (·.2.feed)
  if fs.contains retain || fs.length < 8 then retain
  else fs.foldl (fun a f =>
    let da := (if a < retain then retain - a else a - retain)
    let df := (if f < retain then retain - f else f - retain)
    if df < da || (df == da && f < a) then f else a) (fs.headD retain)

/-- Where a staged unit is placed: kind, copy, feed. -/
def feedOf (s : State) (x : Staged) : Kind × Bool × Nat :=
  if x.source.isSome then (x.kind, true, 0)
  else match x.kind with
    | .plain => (.plain, false, x.directive)
    | .sealed => (.sealed, false, sealedFeed s (((getNs s x.nsid).map (·.retain)).getD 0))
    | k => (k, false, 0)

def findBand (s : State) (k : Kind × Bool × Nat) : Option (Nat × Band) :=
  s.ftl.bands.find? (fun e => e.2.isOpen && e.2.kind == k.1 && e.2.copy == k.2.1 && e.2.feed == k.2.2)

/-- The die of the next slot in the band's rotation (R188). -/
def nextDie (b : Band) : Nat := (b.dies[(b.pos + b.row) % b.dies.length]?).getD 0

/-- Advance the rotation by one slot; dies that leave the list are gone from the next row on (R190). -/
def advancePos (b : Band) : Band :=
  if b.pos + 1 < b.dies.length then { b with pos := b.pos + 1 }
  else { b with pos := 0, row := b.row + 1, dies := b.dies.filter (fun d => !b.leaving.contains d), leaving := [] }

/-- First codeword of the next slot on a die of the band. -/
def slotUnit (b : Band) (die : Nat) : Nat :=
  (((mget b.members die).getD 0) * Config.bandRows + (b.slots.filter (fun t => t.die == die)).length) * slotCws die

def stripeSlots (b : Band) : List Slot := b.slots.filter (fun t => t.row == b.stripe)

/-- Data slots that a stripe row of this band takes (R188, R189). -/
def stripeWidth (s : State) (b : Band) : Nat := min (getF s FTL_CFG_WIDTH) (b.dies.length - 1)

/-- Append a slot on the next die; its index is the number of slots before it. -/
def addSlot (parity : Bool) (items : List Nat) (b : Band) : Band :=
  let d := nextDie b
  advancePos { b with slots := b.slots ++ [{ die := d, unit := slotUnit b d, row := b.stripe, parity := parity,
                                             items := items, st := .filled }] }

/-- A data slot taken now would leave the parity of its stripe row on a die that the row already holds (R189). -/
def rowBlocked (b : Band) : Bool :=
  let held := nextDie b :: (stripeSlots b).map (·.die)
  held.contains (nextDie (advancePos b))

/-- The stripe row is full, or it closes short before it would hold two slots on one die: the next slot is its parity (R188, R189). -/
def closeStripeIfDue (s : State) (force : Bool) (b : Band) : Band :=
  let cur := stripeSlots b
  if cur.isEmpty then b
  else if force || stripeWidth s b ≤ cur.length || rowBlocked b then { addSlot true [] b with stripe := b.stripe + 1 }
  else b

/-! ### Threshold tracking (R179, R180) -/

/-- The page type of a codeword: its page within the word line. -/
def pageType (die unit : Nat) : Nat := unit / 16 % (slotCws die / 16)

def bandOf (s : State) (die unit : Nat) : Option (Nat × Band) :=
  s.ftl.bands.find? (fun e => e.2.slots.any (fun t => t.die == die && t.unit ≤ unit && unit < t.unit + slotCws die))

/-- The tracking group (Q, A) of a band, as Q · 2 + A (R196): Q the quarter of the rated endurance in which its mean erase count
lies, A whether it was closed a day ago or longer; an open band's A is 0. -/
def bandGroup (s : State) (b : Band) : Nat :=
  let mean := (b.members.foldl (fun a e => a + eraseCount (getDie s e.1) e.2) 0) / max 1 b.members.length
  let e := max 1 (Config.ratedCycles (nextDie b))
  min 3 (mean * 4 / e) * 2 + bit (!b.isOpen && b.closedAt + 86400000000 / s.time.period ≤ s.time.stroke)

/-- The key of a (group, page type) in a die's tracking. -/
def trackKey (group ptype : Nat) : Nat := group * 4 + ptype

/-- A pinned level keeps its offset: with every level of a page type pinned alike in the model, a valid pin of the
(die, group) at the page type's level holds it (R180). -/
def pinned (s : State) (die group level : Nat) : Option Nat :=
  (List.range 64).find? (fun i => flagF s (LDP_PIN_VALID i) && getF s (LDP_PIN_DIE i) == die &&
    getF s (LDP_PIN_GROUP i) == group && getF s (LDP_PIN_LEVEL i) == level)

/-- The levels that a page type reads: a die of p pages to a word line has 2^p − 1 levels (notes/assumptions/127). -/
def levelsOf (die ptype : Nat) : List Nat :=
  let pages := slotCws die / 16
  (List.range (2 ^ pages - 1)).filter (fun l => Config.levelPage die l % pages == ptype)

/-- The key of a (group, level) offset. -/
def levelKey (group level : Nat) : Nat := group * 16 + level

def clamp64 (v : Int) : Int := if v > 64 then 64 else if v < -64 then -64 else v

/-- Move every unpinned level of a page type by some steps, once a stroke for a (die, group). -/
def moveLevels (die group ptype : Nat) (k : Int) (s : State) : State :=
  if mget (getDie s die).trackAt group = some s.time.stroke then s
  else
    (levelsOf die ptype).foldl (fun a l =>
      if (pinned a die group l).isSome then a
      else
        updDie die (fun x =>
          let v := clamp64 ((mget x.offsets (levelKey group l)).getD 0 + k)
          { x with offsets := mset x.offsets (levelKey group l) v }) a)
      (updDie die (fun y => { y with trackAt := mset y.trackAt group s.time.stroke }) s)

/-- A signed byte. -/
def signed8 (v : Nat) : Int := if v < 128 then (v : Int) else (v : Int) - 256

/-- A signed byte of the LDP_RETRY list (R181). -/
def retryShift (s : State) (i : Nat) : Int :=
  signed8 (if i < 4 then bits (getF s LDP_RETRY_LO) (8 * i + 7) (8 * i)
           else bits (getF s LDP_RETRY_HI) (8 * (i - 4) + 7) (8 * (i - 4)))

/-- The group of a codeword's band; 0 for one that no band holds. -/
def groupOf (s : State) (die unit : Nat) : Nat :=
  match bandOf s die unit with
  | some e => bandGroup s e.2
  | none => 0

/-- The shift of a try: none for the first, the retry entries in order after it. DEDUCED (notes/assumptions/144): an entry is a shift of
the offset in force, as R180 says for a pinned level. -/
def shiftOf (s : State) (tries : Nat) : Int := if tries = 0 then 0 else retryShift s (tries - 1)

/-- The offsets at which a try reads a codeword, level by level of its page type (R174, R180). -/
def readOffsets (s : State) (die unit tries : Nat) : List Int :=
  let group := groupOf s die unit
  (levelsOf die (pageType die unit)).map (fun l =>
    let base := match pinned s die group l with
      | some i => signed8 (getF s (LDP_PIN_OFFSET i))
      | none => (mget (getDie s die).offsets (levelKey group l)).getD 0
    clamp64 (base + shiftOf s tries))

/-- The member that a codeword lies in. -/
def memberOf (die unit : Nat) : Nat := unit / slotCws die / Config.bandRows

/-! ### Die queues (R168 to R172) -/

/-- The operation to start: the lowest position, the earliest of that position. -/
def firstOp : List QueuedOp → Option QueuedOp
  | [] => none
  | q :: t => match firstOp t with
    | none => some q
    | some r => if q.pos ≤ r.pos then some q else some r

def opCode : NandOp → Nat
  | .read _ _ => 1
  | .readSoft _ => 2
  | .program _ _ => 4
  | .erase _ _ => 5

def opAddr : NandOp → Nat
  | .read u _ => u
  | .readSoft u => u
  | .program _ k => k
  | .erase m _ => m

def opCounter (d : Nat) : NandOp → Fld
  | .program _ _ => MED_PROGRAMS (d / 16)
  | .erase _ _ => MED_ERASES (d / 16)
  | _ => MED_READS (d / 16)

/-- The codeword at which a read begins. -/
def NandOp.readAt : NandOp → Option Nat
  | .read u _ | .readSoft u => some u
  | _ => none

/-- The codewords that a read has to decode. -/
def QueuedOp.cws (q : QueuedOp) : List Nat :=
  q.left.getD (match q.op with
    | .read u n => (List.range n).map (u + ·)
    | .readSoft u => [u]
    | _ => [])

/-- An operation that is under way keeps a codeword from being read (R170, R172). -/
def underOp (s : State) (d u : Nat) (q : QueuedOp) : Option OpStatus :=
  match q.op with
  | .erase m _ => if memberOf d u = m then some .eraseBusy else none
  | .program id i => ((mget s.ftl.bands id).bind (fun b => b.slots[i]?)).bind (fun t =>
      if t.unit ≤ u && u < t.unit + slotCws d then some .programBusy else none)
  | _ => none

/-- Why an operation is refused, if it is (R163, R170). -/
def opRefusal (s : State) (d : Nat) (q : QueuedOp) : Option OpStatus :=
  let x := getDie s d
  if x.st != 1 then some .fenced
  else match q.op.readAt with
    | none => none
    | some u =>
      if x.units.any (fun n => decide (n ≤ u)) then some .address
      else (x.running.toList ++ x.suspended.toList).findSome? (underOp s d u)

def refuseOp (d : Nat) (q : QueuedOp) (st : OpStatus) (s : State) : State :=
  { s with ftl := { s.ftl with refused := s.ftl.refused ++ [(d, q, st)] } }

/-- An operation takes its place in the queue of 32, or waits for one. -/
def Die.push (q : QueuedOp) (x : Die) : Die :=
  if x.queue.length < 32 then { x with queue := x.queue ++ [q] } else { x with backlog := x.backlog ++ [q] }

/-- The queue with only the operations that satisfy `p`, filled up from those that wait for a place. -/
def Die.keep (p : QueuedOp → Bool) (x : Die) : Die :=
  let q := x.queue.filter p
  let b := x.backlog.filter p
  { x with queue := q ++ b.take (32 - q.length), backlog := b.drop (32 - q.length) }

/-- An operation leaves the queue. -/
def Die.pull (q : QueuedOp) (x : Die) : Die := { x with queue := dropFirst (fun z => z == q) x.queue }.keep (fun _ => true)

/-- The reads of a codeword range that a program or an erase has begun to change are refused (R172). -/
def refuseReads (d : Nat) (s : State) : State :=
  let x := getDie s d
  let bad (q : QueuedOp) : Option OpStatus := match q.op.readAt with
    | none => none
    | some u => (x.running.toList ++ x.suspended.toList).findSome? (underOp s d u)
  (x.queue ++ x.backlog).foldl (fun a q => match bad q with
    | some st => refuseOp d q st a
    | none => a) (updDie d (Die.keep (fun q => (bad q).isNone)) s)

/-- Die time slots of positions 4 and 5 are capped in a stroke: the operations that may start (R42, R169). -/
def offered (s : State) (d : Nat) (x : Die) : List QueuedOp :=
  if (mget s.ftl.slots (d / 16)).any (· == 0) then x.queue.filter (fun q => q.pos ≤ 3) else x.queue

/-- An operation of position 4 or 5 takes a slot. -/
def takeSlot (d : Nat) (q : QueuedOp) (s : State) : State :=
  if q.pos ≤ 3 then s else { s with ftl := { s.ftl with slots := mupd s.ftl.slots (d / 16) (· - 1) } }

/-- The program of a slot of a copy band. -/
def isCopyOp (s : State) (q : QueuedOp) : Bool :=
  match q.op with
  | .program id _ => (mget s.ftl.bands id).any (·.copy)
  | _ => false

/-- The operation to start: in tier 3 copy programs alternate with the Inkwell programs of position 1, one each (R197). -/
def nextQueued (s : State) (d : Nat) (x : Die) : Option QueuedOp :=
  let ops := offered s d x
  (if getF s FTL_STATUS_GC_TIER = 3 then ops.find? (fun q => q.pos == 1 && isCopyOp s q == x.copyNext) else none).or (firstOp ops)

/-- The offsets of a retry or a soft read go to the die first (R174). -/
def sendOffsets (d : Nat) (q : QueuedOp) (s : State) : State :=
  match q.op with
  | .readSoft u => emit (.nandOffsets (d / 16) d (readOffsets s d u 0)) s
  | .read u _ => if q.tries = 0 then s else emit (.nandOffsets (d / 16) d (readOffsets s d u q.tries)) s
  | _ => s

/-- A die runs an operation. -/
def runOp (d : Nat) (q : QueuedOp) (s : State) : State :=
  incF (opCounter d q.op) 1 (emit (.nand (d / 16) d (opCode q.op) (opAddr q.op)) (sendOffsets d q
    (takeSlot d q (updDie d (fun y => { y with running := some q, startedAt := now s }) s))))

/-- An idle die starts the first queued operation in the order of R169; a fenced die takes none (R163), and in SEAL and HALT
none starts (R215). -/
def startDie (d : Nat) (s : State) : State :=
  let x := getDie s d
  if x.st != 1 || x.running.isSome || x.suspended.isSome || s.mode.cur == .seal || s.mode.cur == .halt then s
  else match nextQueued s d x with
    | none => s
    | some q =>
      refuseReads d (runOp d q (updDie d (fun y => { (y.pull q) with suspends := 0, copyNext := !isCopyOp s q }) s))

/-- An operation is issued to a die: it is refused, or it takes its place in the queue. -/
def queueOp (d : Nat) (q : QueuedOp) (s : State) : State :=
  match opRefusal s d q with
  | some st => refuseOp d q st s
  | none => startDie d (updDie d (Die.push q) s)

/-- A new stroke: the channels have their die time slots again, and the dies go on (R42). -/
def slotBoundary (s : State) : State :=
  s.ftl.dies.foldl (fun a e => startDie e.1 a)
    { s with ftl := { s.ftl with slots := (List.range 16).map (fun c => (c, Config.bulkSlots c)) } }

/-! ### Placement (R43, R187, R190, R198) -/

/-- The position of R169 at which a slot of a band is programmed. -/
def programPos (s : State) (b : Band) : Nat :=
  if b.copy && getF s FTL_STATUS_GC_TIER != 3 then 4 else 1

/-- Data slots of a stripe row have all passed program (or are void), so its parity may be programmed (R190). -/
def stripeReady (b : Band) (row : Nat) : Bool :=
  b.slots.all (fun t => t.row != row || t.parity || t.st != .filled)

/-- Index of a stripe row's parity slot that is formed and not programmed. -/
def parityIndex (b : Band) (row : Nat) : Option Nat :=
  (List.range b.slots.length).find? (fun i => match b.slots[i]? with
    | some t => t.row == row && t.parity && t.st == .filled
    | none => false)

/-- Queue the parity program of a stripe row once its data has passed. -/
def queueParity (id row : Nat) (s : State) : State :=
  match mget s.ftl.bands id with
  | none => s
  | some b =>
    match parityIndex b row with
    | none => s
    | some i =>
      if stripeReady b row then
        match b.slots[i]? with
        | none => s
        | some t => queueOp t.die { pos := programPos s b, op := .program id i } s
      else s

/-- A band whose rows are used up closes (R187). -/
def closeBandIfFull (id : Nat) (s : State) : State :=
  match mget s.ftl.bands id with
  | none => s
  | some b =>
    if b.isOpen && Config.bandRows ≤ b.row then
      setF FTL_BANDS_OPEN ((openBands s).length - 1)
        (journalAdd (.band id b.kind b.dies false)
          (updBand id (fun y => { y with isOpen := false, closedAt := s.time.stroke }) s))
    else s

/-- One slot of data: it goes to the next slot of the band, and its program is queued. -/
def formSlot (id : Nat) (items : List Nat) (s : State) : State :=
  match mget s.ftl.bands id with
  | none => s
  | some b =>
    let b1 := closeStripeIfDue s false b
    let d := nextDie b1
    let b2 := addSlot false items b1
    let s1 := { s with ftl := { s.ftl with
      bands := mset s.ftl.bands id b2,
      staged := s.ftl.staged.map (fun x => if items.contains x.id then { x with placed := true } else x) } }
    let s2 := queueOp d { pos := programPos s b, op := .program id (b2.slots.length - 1) } s1
    closeBandIfFull id (if b1.stripe = b.stripe then s2 else queueParity id b.stripe s2)

/-- The first units of a list that fill `n` codewords. -/
def takeCws (n : Nat) : List Staged → List Staged
  | [] => []
  | x :: t => if n < x.data.length / 4096 then [] else x :: takeCws (n - x.data.length / 4096) t

def cwsOf (xs : List Staged) : Nat := xs.foldl (fun a x => a + x.data.length / 4096) 0

/-- Place one slot for the feed of the oldest unplaced unit that can fill one; `force` pads a part-filled slot
(KIND 4h, R185, R415). -/
def placeOne (force : Bool) (s : State) : State :=
  let un := s.ftl.staged.filter (fun x => !x.placed)
  match un.find? (fun x =>
      let k := feedOf s x
      let mine := un.filter (fun y => feedOf s y == k)
      force || (match findBand s k with
        | some e => slotCws (nextDie e.2) ≤ cwsOf mine
        | none => 64 ≤ cwsOf mine)) with
  | none => s
  | some x =>
    let k := feedOf s x
    let mine := un.filter (fun y => feedOf s y == k)
    let s1 := if (findBand s k).isSome then s else openBand k.1 k.2.1 k.2.2 s
    match findBand s1 k with
    | none => s1
    | some e =>
      let items := takeCws (slotCws (nextDie e.2)) mine
      let s2 := formSlot e.1 (items.map (·.id)) s1
      if k.1 = .plain && !k.2.1 || k.1 = .sealed && !k.2.1 then
        { s2 with ftl := { s2.ftl with placed := s2.ftl.placed + cwsOf items } }
      else s2

/-- Place as long as slots fill: `fuel` bounds the rounds by the units staged. -/
def placeAll (force : Bool) (fuel : Nat) (s : State) : State :=
  match fuel with
  | 0 => s
  | k + 1 => if s.ftl.staged.any (fun x => !x.placed) then placeAll force k (placeOne force s) else s

/-- Data may be placed on the media: in PARK only inside a burst (R415). -/
def mayPlace (s : State) : Bool := s.mode.cur.seals && (s.mode.cur != .park || flagF s PWR_STATUS_BURST)

/-- The translation layer takes data into bands as soon as slots fill (R43). -/
def place (s : State) : State := if mayPlace s then placeAll false s.ftl.staged.length s else s

/-- A flush to the media: padded slots, and each open stripe row closed short with its parity (R415, R416). -/
def placeForced (s : State) : State :=
  let s1 := placeAll true s.ftl.staged.length s
  (openBands s1).foldl (fun a e =>
    match mget a.ftl.bands e.1 with
    | none => a
    | some b =>
      let b1 := closeStripeIfDue a true b
      queueParity e.1 b.stripe (updBand e.1 (fun _ => b1) a)) s1

/-! ### The results of programs (R170, R190, R198, R199) -/

/-- The codewords of a staged unit on the media, encrypted (R185, R300). -/
def codewordsOf (s : State) (x : Staged) : List Codeword :=
  let raw := stagedRaw s x
  (List.range (x.data.length / 4096)).map (fun i => {
    kind := x.kind, nsid := x.nsid, lba := x.lba, seq := x.seq, copy := x.source.isSome, data := slice raw (4096 * i) 4096,
    pos := x.pos, wrote := x.origin.getD { fn := x.fn, sqid := x.sqid, cid := x.cid, doneAt := x.doneAt, stroke := x.stroke } })

/-- A pad codeword of a part-filled slot (R185). -/
def padCw (s : State) : Codeword :=
  { kind := .pad, nsid := 0, lba := 0, seq := 0, copy := false, data := encUnit s .pad 0 0 (zeros 4096) }

/-- Bytewise XOR. -/
def xorBytes (a b : Bytes) : Bytes := List.zipWith (fun x y => x ^^^ y) a b

/-- The parity codeword of a stripe: the XOR of the data codewords and of their metadata (R186, R188). -/
def parityCw (cs : List Codeword) : Codeword :=
  { kind := .pad, nsid := 0, lba := 0, seq := 0, copy := false,
    data := cs.foldl (fun a c => xorBytes a (fixLen 4096 c.data)) (zeros 4096),
    raw := some (cs.foldl (fun a c => xorBytes a (metaBytes c)) (zeros 16)) }

/-- The codewords at one offset of the data slots of a stripe row that have passed (R188, R190). -/
def stripeAt (s : State) (b : Band) (row off : Nat) : List Codeword :=
  (b.slots.filter (fun t => t.row == row && !t.parity && t.st == .passed)).filterMap (fun t => mediaAt s t.die (t.unit + off))

def writeCws (die unit : Nat) (cs : List Codeword) (s : State) : State :=
  match cs with
  | [] => s
  | c :: t => writeCws die (unit + 1) t
      { s with ftl := { s.ftl with media := mset s.ftl.media die (mset ((mget s.ftl.media die).getD []) unit c) } }

/-- One unit of a slot that passed: the map takes its media place. A copy applies only if the entry still names its
source, and is journaled as a MOVE (R198, R222). -/
def settleUnit (die unit : Nat) (x : Staged) (s : State) : State :=
  let s1 := writeCws die unit (codewordsOf s x) s
  let u := match getNs s x.nsid with
    | some n => x.lba / n.unitBlocks
    | none => 0
  match x.source with
  | none =>
    updNs x.nsid (fun n => if mget n.map u = some (.inkwell x.id) then { n with map := mset n.map u (.media die unit) } else n) s1
  | some src =>
    let s2 := updNs x.nsid (fun n =>
      if mget n.map u = some (.media src.1 src.2) then { n with map := mset n.map u (.media die unit) } else n) s1
    journalAdd (.move x.nsid x.lba src (die, unit) x.seq) s2

/-- Pad codewords from `unit` up to the end of the slot. -/
def padSlot (die unit end_ : Nat) (s : State) : State := writeCws die unit (List.replicate (end_ - unit) (padCw s)) s

/-- Settle the units of a slot one after another, and free their Inkwell space; pad codewords fill the rest of it. -/
def settleSlot (die unit end_ : Nat) (ids : List Nat) (s : State) : State :=
  match ids with
  | [] => padSlot die unit end_ s
  | id :: t =>
    match findStaged s id with
    | none => settleSlot die unit end_ t s
    | some x =>
      let s1 := settleUnit die unit x s
      let s2 := { s1 with ftl := { s1.ftl with
        staged := s1.ftl.staged.filter (fun y => y.id != id),
        journal := s1.ftl.journal.map (fun e => { e with waits := e.waits.filter (· != id) }) } }
      settleSlot die (unit + x.data.length / 4096) end_ t s2

def updSlot (id i : Nat) (g : Slot → Slot) (s : State) : State :=
  updBand id (fun b => { b with slots := lupd b.slots i g }) s

/-- Units programmed since the first format (R208), at FTL_MEDIA_UNITS. -/
def addUnits (lo hi : Fld) (n : Nat) (s : State) : State :=
  let v := getF s lo + getF s hi * 2 ^ 32 + n
  setF lo (v % 2 ^ 32) (setF hi (v / 2 ^ 32 % 2 ^ 32) s)

/-- A slot passes program. -/
def slotPass (d id i : Nat) (s : State) : State :=
  match mget s.ftl.bands id with
  | none => s
  | some b =>
    match b.slots[i]? with
    | none => s
    | some t =>
      let s1 := addUnits FTL_MEDIA_UNITS_LO FTL_MEDIA_UNITS_HI (slotCws d) (updSlot id i (fun y => { y with st := .passed }) s)
      if t.parity then writeCws d t.unit ((List.range (slotCws d)).map (fun k => parityCw (stripeAt s1 b t.row k))) s1
      else queueParity id t.row (settleSlot d t.unit (t.unit + slotCws d) t.items s1)

/-- A member is retired and its die leaves the band's list from the next row (R190). -/
def retireMember (d id : Nat) (s : State) : State :=
  match mget s.ftl.bands id with
  | none => s
  | some b =>
    let m := (mget b.members d).getD 0
    updDie d (fun x => { x with retired := x.retired ++ [m], grownBad := satAdd x.grownBad 4 65535 })
      (updBand id (fun y => { y with leaving := y.leaving ++ [d] }) s)

/-- A slot fails program (R190): a data slot is void and its units are placed again; a failed parity slot is programmed
again into the next slot. -/
def slotFail (d id i : Nat) (s : State) : State :=
  match mget s.ftl.bands id with
  | none => s
  | some b =>
    match b.slots[i]? with
    | none => s
    | some t =>
      let s1 := blot 0x0403 2 d (le 1 4 ++ le 4 ((mget b.members d).getD 0))
        (updDie d (fun x => { x with progFails := satAdd x.progFails 1 65535 })
          (retireMember d id (updSlot id i (fun y => { y with st := .voided }) s)))
      if t.parity then
        match mget s1.ftl.bands id with
        | none => s1
        | some b1 =>
          let b2 := addSlot true [] b1
          let b3 := { b2 with slots := lupd b2.slots (b2.slots.length - 1) (fun y => { y with row := t.row }) }
          queueParity id t.row (updBand id (fun _ => b3) s1)
      else queueParity id t.row (formSlot id t.items s1)

/-! ### Validity and garbage collection (R184, R197, R199) -/

/-- The leaf table of a pruned root, in ink addresses: what lies after its first 168 payload bytes and the entry of stream 0 is not
kept (R138). -/
def prunedSpan (r : StrokeRoot) : Nat × Nat :=
  let root := r.inkAddr + (r.recs.map (fun x => x.bytes.length)).sum + 64 + 168
  if bitAt r.flags 5 then (root + entrySize r.hashSel, root + r.count * entrySize r.hashSel) else (root, root)

/-- A page of the ink log holds something that is kept: it lies not wholly in the pruned part of a leaf table (R138, R184). -/
def inkValid (s : State) (pos : Nat) : Bool :=
  s.chain.roots.all (fun r => pos * 4096 < (prunedSpan r).1 || (prunedSpan r).2 < pos * 4096 + 16384)

/-- A codeword that the map still names, at its unit's first codeword. -/
def unitValid (s : State) (die unit : Nat) (c : Codeword) : Bool :=
  match c.kind with
  | .plain | .sealed => match getNs s c.nsid with
    | some n => mget n.map (c.lba / n.unitBlocks) == some (.media die unit)
    | none => false
  | .inkLog => inkValid s c.pos
  | .journal => s.ftl.journal.any (fun e => e.first ≤ c.pos / 4 && c.pos / 4 ≤ e.last)
  | .pad => false

/-- The first codewords of the units in a passed slot. -/
def slotUnits (s : State) (t : Slot) : List (Nat × Codeword) :=
  (List.range (slotCws t.die)).filterMap (fun i =>
    match mediaAt s t.die (t.unit + i) with
    | some c => if i % c.kind.cws = 0 then some (t.unit + i, c) else none
    | none => none)

/-- Valid units of a band: die, unit, codeword. -/
def bandValid (s : State) (b : Band) : List (Nat × Nat × Codeword) :=
  (b.slots.filter (fun t => !t.parity && t.st == .passed)).flatMap (fun t =>
    (slotUnits s t).filterMap (fun e => if unitValid s t.die e.1 e.2 then some (t.die, e.1, e.2) else none))

/-- Units of a die under rebuild that have not moved (R192, R208): valid, and not lost beyond the stripe. -/
def rebuildUnits (s : State) (die : Nat) : Nat :=
  ((s.ftl.bands.flatMap (fun e => bandValid s e.2)).filter (fun u => u.1 == die && !u.2.2.lost)).length

def validCws (s : State) (b : Band) : Nat := (bandValid s b).foldl (fun a e => a + e.2.2.kind.cws) 0

def dataCws (b : Band) : Nat :=
  b.slots.foldl (fun a t => if !t.parity && t.st == .passed then a + slotCws t.die else a) 0

/-- The closed band of the lowest valid fraction: compared as fractions over the data codewords. -/
def victim (s : State) : Option (Nat × Band) :=
  (s.ftl.bands.filter (fun e => !e.2.isOpen && !e.2.intent && e.2.kind != .inkLog && e.2.kind != .journal)).foldl
    (fun a e => match a with
      | none => some e
      | some v => if validCws s e.2 * dataCws v.2 < validCws s v.2 * dataCws e.2 then some e else a) none

/-- The closed band of the lowest mean erase count, every fourth victim under WEAR_OVERRIDE with STATIC_EN (R195). -/
def staticVictim (s : State) : Option (Nat × Band) :=
  let wear (b : Band) := (b.members.foldl (fun a e => a + eraseCount (getDie s e.1) e.2) 0) / max 1 b.members.length
  (s.ftl.bands.filter (fun e => !e.2.isOpen && !e.2.intent && e.2.kind != .inkLog && e.2.kind != .journal)).foldl
    (fun a e => match a with
      | none => some e
      | some v => if wear e.2 < wear v.2 then some e else a) none

def gcVictim (s : State) : Option (Nat × Band) :=
  if flagF s FTL_STATUS_WEAR_OVERRIDE && flagF s FTL_WEAR_STATIC_EN && s.ftl.gcCount % 4 == 3 then staticVictim s
  else victim s

/-- The tier that FREE selects (R197). -/
def gcTier (s : State) : Nat :=
  let f := getF s FTL_BANDS_FREE
  if getF s FTL_GC_SOFT_BANDS < f then (if flagF s FTL_GC_IDLE then 1 else 0)
  else if getF s FTL_GC_HARD_BANDS < f then 2
  else 3

/-- Codewords to copy in the stroke (R197): u × v/(1 − v), doubled in tier 3; in tier 1 the valid data of one band, after a
stroke that granted no write bytes. -/
def gcWork (s : State) (tier : Nat) (b : Band) : Nat :=
  let v := validCws s b
  let d := dataCws b
  let base := s.ftl.placedLast * v / max 1 (d - v)
  match tier with
  | 0 => 0
  | 1 => if s.ftl.grantedLast = 0 && 2 * v ≤ d then v else 0
  | 2 => base
  | _ => 2 * base

/-- Copy reads for the first `n` codewords of a victim's valid units (R198). -/
def copyReads (why pos n : Nat) (us : List (Nat × Nat × Codeword)) (s : State) : State :=
  match us with
  | [] => s
  | (d, u, c) :: t =>
    if n = 0 then s
    else copyReads why pos (n - c.kind.cws) t (queueOp d { pos := pos, op := .read u c.kind.cws, why := why } s)

/-- BAND_ERASE_INTENT (R199, R225): a closed band with nothing valid, whose moves are all on the media, gets its
ERASE_INTENT; the erase is queued once the intent has passed program. -/
def reclaimBand (id : Nat) (s : State) : State :=
  match mget s.ftl.bands id with
  | none => s
  | some b =>
    if b.isOpen || !(bandValid s b).isEmpty then s
    else if !b.intent then
      if journalPassed s (fun r => match r with
          | .move _ _ src _ _ => b.members.any (fun e => e.1 == src.1)
          | _ => false) then
        journalAdd (.eraseIntent id) (updBand id (fun y => { y with intent := true }) s)
      else s
    else if s.ftl.journal.any (fun e => e.rec_ == .eraseIntent id && e.passed) then
      b.members.foldl (fun a e =>
        let x := getDie a e.1
        let busy := (x.queue ++ x.running.toList ++ x.suspended.toList).any (fun q => q.op == .erase e.2 id)
        if busy || x.st != 1 then a else queueOp e.1 { pos := 4, op := .erase e.2 id } a) s
    else s

/-- GC_TIER_SELECT (R197): FREE, the tier and the stroke's copies. -/
def gcBoundary (s : State) : State :=
  let s1 := setF FTL_BANDS_FREE (min 65535 (freeBands s)) s
  let tier := gcTier s1
  let s2 := setF FTL_STATUS_GC_TIER tier s1
  let s3 := match (gcVictim s2).filter (fun _ => mayPlace s2) with
    | none => s2
    | some e =>
      let n := gcWork s2 tier e.2
      if n = 0 then s2
      else copyReads 1 5 n (bandValid s2 e.2) { s2 with ftl := { s2.ftl with gcCount := s2.ftl.gcCount + 1 } }
  s3.ftl.bands.foldl (fun a e => reclaimBand e.1 a) s3

/-! ### Wear, refresh, tilling, spare pool (R195, R203 to R207) -/

/-- WEAR_OVERRIDE: set above the spread limit on any die, cleared below three quarters of it (R195). -/
def wearBoundary (s : State) : State :=
  let spread (d : Nat) : Nat :=
    let x := getDie s d
    let n := max 1 (Config.membersPerDie d)
    let mean := (x.erases.foldl (fun a e => a + e.2) 0) / n
    let top := x.erases.foldl (fun a e => max a e.2) 0
    (top - mean) * 100
  let lim (d : Nat) : Nat := getF s FTL_WEAR_SPREAD_PCT * Config.ratedCycles d
  if (usableDies s).any (fun d => lim d < spread d) then setF FTL_STATUS_WEAR_OVERRIDE 1 s
  else if (usableDies s).all (fun d => spread d * 4 < lim d * 3) then setF FTL_STATUS_WEAR_OVERRIDE 0 s
  else s

/-- A block is scheduled for refresh (R203). -/
def scheduleRefresh (d member : Nat) (s : State) : State :=
  if s.ftl.refreshQ.contains (d, member) then s
  else
    let n := s.ftl.refreshQ.length + 1
    setF FTL_REFRESH_QUEUED (min n 65535)
      (updDie d (fun x => { x with refreshes := x.refreshes + 1,
                                   refreshed := mset x.refreshed member ((mget x.refreshed member).getD 0 + 1) })
        { s with ftl := { s.ftl with refreshQ := s.ftl.refreshQ ++ [(d, member)] } })

/-- Refresh starts at a boundary unless tier 3 holds: copies of the block's valid units, ahead of victims (R203). -/
def refreshBoundary (s : State) : State :=
  if getF s FTL_STATUS_GC_TIER = 3 then s
  else
    let s1 := s.ftl.refreshQ.foldl (fun a e =>
      a.ftl.bands.foldl (fun b p =>
        if mget p.2.members e.1 = some e.2 then
          copyReads 2 4 (2 ^ 20) ((bandValid b p.2).filter (fun u => u.1 == e.1)) b
        else b) a) s
    setF FTL_REFRESH_QUEUED 0 { s1 with ftl := { s1.ftl with refreshQ := [] } }

/-- Programmed pages that hold data or parity: die and first codeword. -/
def programmedPages (s : State) : List (Nat × Nat) :=
  s.ftl.bands.flatMap (fun e => (e.2.slots.filter (fun t => t.st == .passed)).flatMap (fun t =>
    (List.range (slotCws t.die / 4)).map (fun i => (t.die, t.unit + 4 * i))))

/-- Strokes in a tilling pass of DAYS days. -/
def tillStrokes (s : State) : Nat := getF s FTL_TILL_DAYS * 86400000000 / s.time.period

/-- Credit units in a byte: 86,400,000,000 × 360,360, which every number of days from 3 to 14 divides. -/
def tillUnit : Nat := 86400000000 * 360360

/-- Read pages while the credit reaches 16,384 bytes. -/
def tillReads (pages : List (Nat × Nat)) (fuel : Nat) (s : State) : State :=
  match fuel with
  | 0 => s
  | k + 1 =>
    if s.ftl.tillCredit < 16384 * tillUnit || pages.isEmpty then s
    else
      let i := s.ftl.tillAt % pages.length
      let s1 := match pages[i]? with
        | some p => queueOp p.1 { pos := 5, op := .read p.2 4, why := 3 } s
        | none => s
      let wrap := pages.length ≤ i + 1
      tillReads pages k { s1 with ftl := { s1.ftl with
        tillCredit := s1.ftl.tillCredit - 16384 * tillUnit, tillAt := if wrap then 0 else i + 1,
        tillFrom := if wrap then s.time.stroke else s1.ftl.tillFrom } }

/-- TILL_CREDIT (R204): in RUN and LEAN only; up to twice the pace while the pass lags. -/
def tillBoundary (s : State) : State :=
  if s.mode.cur != .run && s.mode.cur != .lean then s
  else
    let pages := programmedPages s
    let total := pages.length
    let all := tillStrokes s
    let gone := s.time.stroke - s.ftl.tillFrom
    let lag := s.ftl.tillAt * all < gone * total
    let add := total * 16384 * s.time.period * (360360 / getF s FTL_TILL_DAYS)
    let s1 := { s with ftl := { s.ftl with tillCredit := s.ftl.tillCredit + (if lag then 2 * add else add) } }
    let s2 := tillReads pages (s1.ftl.tillCredit / (16384 * tillUnit)) s1
    setF FTL_TILL_PROGRESS (if total = 0 then 0 else s2.ftl.tillAt * 1000 / total)
      (setF FTL_STATUS_TILL_BEHIND (bit (2 * total * (all - gone) < (total - s.ftl.tillAt) * all)) s2)

/-- Raw capacity in 4 KiB units that is usable: members not retired of the usable dies. -/
def usableUnits (s : State) : Nat :=
  (usableDies s).foldl (fun a d =>
    a + (Config.membersPerDie d - (getDie s d).retired.length) * Config.bandRows * slotCws d) 0

/-- The spare pool in 4 KiB units (R206): usable data space less the namespaces, HARD_BANDS bands and the ink-log and
journal space with the SEAL reserve (R214). -/
def sparePool (s : State) : Int :=
  let w := getF s FTL_CFG_WIDTH
  let space : Int := (usableUnits s * w / (w + 1) : Nat)
  let caps : Int := (s.nss.foldl (fun a e => a + e.2.ncap * e.2.blk / 4096) 0 : Nat)
  let hard : Int := (getF s FTL_GC_HARD_BANDS
    * (usableDies s).foldl (fun a d => a + Config.bandRows * slotCws d) 0 : Nat)
  let logs : Int := ((s.ftl.bands.filter (fun e => e.2.kind == .inkLog || e.2.kind == .journal)).foldl
    (fun a e => a + dataCws e.2) 0 : Nat)
  let reserve : Int := ((usableDies s).foldl (fun a d => a + Config.bandRows * slotCws d) 0 : Nat)
  space - caps - hard - logs - reserve

/-- A rebuilt unit of a fenced die finds no member to be written to (R207). -/
def rebuildStuck (s : State) : Bool :=
  (openDies s).length < 3 && s.ftl.staged.any (fun x =>
    !x.placed && x.source.any (fun u => s.ftl.rebuildDie.contains u.1) && (findBand s (feedOf s x)).isNone)

/-- READ_ONLY_REQUEST (R207): the condition holds at a pool of 0 or below, or when a die rebuild finds no member, and ends
above one band. -/
def spareBoundary (s : State) : State :=
  let p := sparePool s
  let band : Int := ((usableDies s).foldl (fun a d => a + Config.bandRows * slotCws d) 0 : Nat)
  let ro := if p ≤ 0 || rebuildStuck s then true else if band < p then false else s.mode.readOnlyCond
  let pct := if s.ftl.poolFirst = 0 then 0 else (p.toNat * 100 / s.ftl.poolFirst)
  let on := ro && s.ftl.formatted
  setF FTL_SPARE_AVAIL_PCT (min 255 pct) (setF FTL_STATUS_READ_ONLY (bit on)
    { s with mode := { s.mode with readOnlyCond := on } })

/-- FTL_WA: the amplification of the last 1,024 strokes (R200). -/
def waBoundary (s : State) : State :=
  let host := getF s FTL_HOST_UNITS_LO + getF s FTL_HOST_UNITS_HI * 2 ^ 32
  let media := getF s FTL_MEDIA_UNITS_LO + getF s FTL_MEDIA_UNITS_HI * 2 ^ 32
  let w := (s.ftl.waWindow ++ [(host, media)]).drop (s.ftl.waWindow.length + 1 - 1025)
  let first := w.headD (host, media)
  let s1 := { s with ftl := { s.ftl with waWindow := w } }
  if host = first.1 then s1 else setF FTL_WA_X100 (min 65535 ((media - first.2) * 100 / (host - first.1))) s1

/-- Map segments of a namespace: 8,192 entries each (R222). -/
def segmentsOf (nsid : Nat) (x : Ns) (seq : Nat) : List JournalRec :=
  let firsts := (x.map.map (fun e => e.1 / 8192)).eraseDups
  firsts.map (fun f => .segment nsid (f * 8192) (x.map.filter (fun e => e.1 / 8192 == f)) seq)

/-- Every map segment is flushed. -/
def flushSegments (s : State) : State :=
  s.nss.foldl (fun a e => (segmentsOf e.1 e.2 s.ftl.seq).foldl (fun b r => journalAdd r b) a) s

/-- What a CHECKPOINT holds (R223). -/
def checkpointRec (s : State) : JournalRec :=
  .checkpoint s.time.stroke s.ftl.seq s.ftl.journalPages
    ((s.ftl.bands.filter (fun e => e.2.listed)).map (fun e => (e.1, e.2.slots.length)))
    ((s.ftl.dies.filter (fun e => e.2.st == 2 || e.2.st == 3)).map (·.1)) (getF s FTL_CFG_WIDTH, getF s FTL_CFG_RESERVE)
    (s.ftl.dies.map (fun e => (e.1, e.2.erases, e.2.reads))) ((s.ftl.bands.filter (fun e => e.2.intent)).map (·.1))

/-- JOURNAL_CHECKPOINT (R222 to R224): above three quarters of the cap the segments go first; a STROKE record at every boundary; after 64 strokes or 4 MiB the segments are
flushed, closed bands leave the list, and a CHECKPOINT is written. -/
def journalBoundary (s : State) : State :=
  let early := 3 * (usableDies s).length * 268435456 < 4 * listedBytes s
  let s0 := if early then flushSegments s else s
  let s1 := journalAdd (.stroke s.time.stroke s.ftl.seq ((s0.mode.uncommitted.filter (fun e => s.time.stroke ≤ e.2 + 1)).map (·.1))) s0
  let due := 64 ≤ s1.ftl.sinceCheckpoint + 1 || 4194304 ≤ s1.ftl.journalBytes
  let s2 :=
    if due then
      let seg := if early then s1 else flushSegments s1
      let s3 := { seg with ftl := { seg.ftl with
        bands := seg.ftl.bands.map (fun e => if e.2.isOpen then e else (e.1, { e.2 with listed := false })),
        journal := seg.ftl.journal.filter (fun e => !e.passed || (match e.rec_ with | .eraseIntent _ => true | _ => false)),
        dies := seg.ftl.dies.map (fun e => (e.1, { e.2 with readsSaved := e.2.reads })),
        sinceCheckpoint := 0, journalBytes := 0 } }
      journalAdd (checkpointRec s3) s3
    else { s1 with ftl := { s1.ftl with sinceCheckpoint := s1.ftl.sinceCheckpoint + 1 } }
  journalFlush s2

/-- Whole pages of the ink log are staged; `force` pads the last one. Their SEQ is given as they are laid out (R186, R187). -/
def stageInk (force : Bool) (s : State) : State :=
  let t := s.chain.inkTail
  let n := if force then (t.length + 16383) / 16384 else t.length / 16384
  let s1 := { s with chain := { s.chain with inkTail := t.drop (n * 16384) } }
  (List.range n).foldl (fun a i =>
    bumpSeq (stage {
      id := 0, kind := .inkLog, nsid := 0, lba := 0, seq := a.ftl.seq + 1, pos := (s.chain.inkAddr - t.length) / 16384 * 4 + 4 * i,
      data := fixLen 16384 (slice t (i * 16384) 16384), stroke := s.time.stroke } a)) s1

/-- What the translation layer does at a boundary. -/
def ftlBoundary (s : State) : State :=
  let s1 := setF PWR_SEAL_EFF_LIMIT_KIB (effLimitKib s)
    { s with ftl := { s.ftl with placedLast := s.ftl.placed, placed := 0 } }
  place (spareBoundary (waBoundary (tillBoundary (gcBoundary (refreshBoundary (wearBoundary (journalBoundary (stageInk false
    (slotBoundary s1)))))))))

end Sys2Proof.Machine
end

