-- ==== Sys2Proof/Machine/Proof.lean ====
section
/-!
DEFINITION. Proofs and verification (spec/07_sealing_and_evidence.md R138, R147, R150 to R154): the bytes of a sealed
namespace, its strokes, freeing, the outputs of PROOF READ and the checks of VERIFY RANGE.
-/

namespace Sys2Proof.Machine

/-! ### The bytes and the strokes of a sealed namespace -/

/-- Bytes `[pos, pos + n)` of the map units. -/
def unitBytesAt (s : State) (x : Ns) (pos n : Nat) : Bytes :=
  if n = 0 then []
  else
    let ub := x.unitBytes
    let u0 := pos / ub
    let k := (pos + n - 1) / ub + 1 - u0
    slice ((List.range k).map (fun i => unitData s x (u0 + i))).flatten (pos % ub) n

/-- Bytes `[pos, pos + n)` of a sealed namespace: what lies below its write pointer, and its held tail after that (R119). -/
def nsBytes (s : State) (x : Ns) (pos n : Nat) : Bytes :=
  let stop := x.wp * x.blk
  let k := if pos < stop then min n (stop - pos) else 0
  unitBytesAt s x pos k ++ slice x.tail (pos + k - stop) (n - k)

/-- The runs of a stroke, and of one stream in it. -/
def strokeRuns (x : Ns) (n : Nat) : List SealedRun := x.runs.filter (fun r => r.stroke == n)

def streamRuns (x : Ns) (n stream : Nat) : List SealedRun := (strokeRuns x n).filter (fun r => r.stream == stream)

/-- Insert a number into a rising list without repeats. -/
def insertNat (k : Nat) : List Nat → List Nat
  | [] => [k]
  | x :: t => if k < x then k :: x :: t else if k = x then x :: t else x :: insertNat k t

/-- The streams of a namespace that are active in a stroke, rising. -/
def strokeStreams (x : Ns) (n : Nat) : List Nat := (strokeRuns x n).foldl (fun a r => insertNat r.stream a) []

/-- A run touches blocks `[lba, lba + n)`. -/
def SealedRun.touches (r : SealedRun) (blk lba n : Nat) : Bool :=
  r.pos < (lba + n) * blk && lba * blk < r.pos + r.size

/-- The strokes whose data touches a range, rising (R154). -/
def touchedStrokes (x : Ns) (lba n : Nat) : List Nat :=
  x.runs.foldl (fun a r => if r.touches x.blk lba n then insertNat r.stroke a else a) []

/-- Blocks of a run, first and count. -/
def SealedRun.blocks (r : SealedRun) (blk : Nat) : Nat × Nat :=
  (r.pos / blk, (r.pos + r.size - 1) / blk + 1 - r.pos / blk)

/-- A read of blocks `[lba, lba + n)` meets a block at or above the write pointer, or a unit whose data has been freed
(R147, R152). -/
def unwrittenIn (x : Ns) (lba n : Nat) : Bool :=
  x.sealed && (x.wp < lba + n || (unitsOf x lba n).any (fun u => !mhas x.map u))

/-! ### Freeing (R138, R150, R152) -/

/-- A hold covers a stroke (R149). -/
def heldStroke (x : Ns) (n : Nat) : Bool := x.holds.any (fun h => h.2.first ≤ n && n ≤ h.2.last)

/-- Units that lie wholly in freed runs: every run that touches the unit is freed, and the unit is below the write
pointer. -/
def freeUnit (x : Ns) (u : Nat) : Bool :=
  (u + 1) * x.unitBlocks ≤ x.wp &&
    x.runs.all (fun r => r.freed || !r.touches x.blk (u * x.unitBlocks) x.unitBlocks)

/-- The data of a stream in a stroke has been freed, by release or retention: a namespace still has its runs, each freed. -/
def dataFreed (s : State) (n stream : Nat) : Bool :=
  s.nss.any (fun e => !(streamRuns e.2 n stream).isEmpty && (streamRuns e.2 n stream).all (·.freed))

/-- The leaf table of a root whose streams other than stream 0 have all been freed by release or retention is pruned to the entry of
stream 0 (R138). The data of a deleted or sanitized namespace was not freed so: its leaves stay. -/
def pruneRoot (s : State) (r : StrokeRoot) : StrokeRoot :=
  let ls := r.leaves.map (fun l => { l with freed := l.freed || dataFreed s r.n l.stream })
  let others := ls.filter (fun l => l.stream != 0)
  if others.isEmpty || bitAt r.flags 5 || !others.all (·.freed) then { r with leaves := ls }
  else { r with leaves := ls.filter (fun l => l.stream == 0), flags := r.flags + 32 }

def pruneRoots (s : State) : State := { s with chain := { s.chain with roots := s.chain.roots.map (pruneRoot s) } }

/-- The data of the chosen strokes is freed: whole units that no other stroke shares (R152). -/
def freeStrokes (nsid : Nat) (p : Nat → Bool) (s : State) : State :=
  pruneRoots (updNs nsid (fun (x : Ns) =>
    let x1 : Ns := { x with runs := x.runs.map (fun (r : SealedRun) => if p r.stroke then { r with freed := true } else r) }
    let live := x1.runs.filter (fun (r : SealedRun) => !r.freed)
    let first := match live with
      | r :: _ => r.stroke
      | [] => x.oldest
    { x1 with
      map := x1.map.filter (fun e => !freeUnit x1 e.1),
      oldest := live.foldl (fun a r => min a r.stroke) first }) s)

/-- A RETAIN record: NSID, strokes freed, first and last LBA freed (R137, R150). -/
def retainRec (nsid strokes first last : Nat) (s : State) : State :=
  addRec 0x19 (fixLen 32 (Config.packRecord 0x19 [nsid, strokes, first, last])) s

/-- RETENTION_FREE of one namespace at a flourish boundary (R150). -/
def retainNs (nsid : Nat) (s : State) : State :=
  match getNs s nsid with
  | none => s
  | some x =>
    let old (n : Nat) : Bool := n + x.retain < s.time.stroke && !heldStroke x n
    let rs := x.runs.filter (fun r => !r.freed && old r.stroke)
    match rs with
    | [] => s
    | r :: t =>
      if x.retain = 0 then s
      else
        let strokes := (rs.foldl (fun a r => insertNat r.stroke a) []).length
        let first := t.foldl (fun a r => min a (r.blocks x.blk).1) (r.blocks x.blk).1
        let last := rs.foldl (fun a r => max a ((r.blocks x.blk).1 + (r.blocks x.blk).2 - 1)) 0
        retainRec nsid strokes first last (freeStrokes nsid old s)

def retainBoundary (s : State) : State :=
  if s.time.stroke % flInterval s != 0 then s
  else s.nss.foldl (fun a e => if e.2.sealed then retainNs e.1 a else a) s

/-! ### PROOF READ (R153) -/

def findRoot (s : State) (n : Nat) : Option StrokeRoot := s.chain.roots.find? (fun r => r.n == n)

def findFlourish (s : State) (n : Nat) : Option (Flourish × Bytes) :=
  s.chain.flourishes.find? (fun f => f.1.first ≤ n && n ≤ f.1.last)

/-- The index of the first element that satisfies `p`. -/
def indexOf {α : Type} (p : α → Bool) : List α → Nat
  | [] => 0
  | x :: t => if p x then 0 else indexOf p t + 1

/-- The bits of a list, the first the least significant. -/
def bitsOf : List Bool → Nat
  | [] => 0
  | b :: t => bit b + 2 * bitsOf t

/-- A stream's leaf-table entry, path header and siblings. -/
def leafPath (r : StrokeRoot) (stream : Nat) : Bytes :=
  let i := indexOf (fun l => l.stream == stream) r.leaves
  match r.leaves[i]? with
  | none => []
  | some l =>
    let path := merklePath r.hashSel r.leaves.length (r.leaves.map (·.leaf)) i
    leafBytes l ++ le 1 path.length ++ zeros 3 ++ le 4 (bitsOf (path.map (·.1))) ++ (path.map (·.2)).flatten

/-- What PROOF READ returns for a stroke; an error says whether the leaf table is pruned. -/
def proofOut (s : State) (nsid stroke kind : Nat) : Except Bool Bytes :=
  match findRoot s stroke with
  | none => .error false
  | some r =>
    match kind with
    | 0 =>
      if bitAt r.flags 5 then .error true
      else
        let head := slice (rootBytes r) 0 232
        if nsid = 0 then .ok (head ++ leafPath r 0 ++ (r.recs.map (·.bytes)).flatten)
        else match getNs s nsid with
          | none => .error false
          | some x => .ok (head ++ ((strokeStreams x stroke).map (leafPath r)).flatten)
    | 1 => .ok (rootBytes r)
    | 2 => match findFlourish s stroke with
      | none => .error false
      | some f => .ok f.2
    | _ => match findFlourish s stroke with
      | none => .error false
      | some f => .ok ((s.chain.roots.filter (fun q => stroke ≤ q.n && q.n ≤ f.1.last)).map
          (fun q => le 8 q.n ++ q.t)).flatten

/-! ### VERIFY RANGE (R154) -/

/-- The last leaf of a stream, as a leaf-table entry names it. -/
def prevLeaf (s : State) (stream : Nat) (l : Leaf) (h : Nat) : Option Bytes :=
  match l.prev with
  | none => some (zeros (digestLen h))
  | some p => match findRoot s p with
    | none => none
    | some r => (r.leaves.find? (fun x => x.stream == stream)).map (·.leaf)

/-- A block of the run is lost (R84, R154). -/
def runLost (x : Ns) (r : SealedRun) : Bool :=
  x.lost.any (fun e => e.1 < (r.blocks x.blk).1 + (r.blocks x.blk).2 && (r.blocks x.blk).1 < e.1 + e.2)

/-- D and L of a stream in a stroke, recomputed and compared. A previous leaf that has been pruned leaves the comparison
open (notes/assumptions/16). -/
def streamGood (s : State) (x : Ns) (r : StrokeRoot) (stream : Nat) : Bool :=
  let rs := streamRuns x r.n stream
  let d := digest r.hashSel (rs.map (fun k => nsBytes s x (k.pos + k.skip) k.bytes)).flatten
  !rs.any (runLost x) &&
    match r.leaves.find? (fun l => l.stream == stream) with
    | none => false
    | some l => match prevLeaf s stream l r.hashSel with
      | none => Config.prunedLeafOk r.n stream
      | some p => decide (leafHash r.hashSel r.device stream r.n d p = l.leaf)

def strokeGood (s : State) (x : Ns) (r : StrokeRoot) : Bool := (strokeStreams x r.n).all (streamGood s x r)

/-- T and C of a root, recomputed from its table and from C_PREV. -/
def rootGood (r : StrokeRoot) : Bool :=
  (bitAt r.flags 5 || decide (merkle r.hashSel r.leaves.length (r.leaves.map (·.leaf)) = r.t)) &&
    decide (chainHash r.hashSel r.n r.t r.cPrev = r.c)

/-- The first root of a list that fails on its own or does not follow the one before it. -/
def chainFail (prev : Option Bytes) : List StrokeRoot → Option Nat
  | [] => none
  | r :: t =>
    if !rootGood r || (match prev with | some c => r.prevSealed.isSome && c != r.cPrev | none => false) then some r.n
    else chainFail (some r.c) t

/-- The chain from a stroke up to the latest flourish, and that flourish's signature. -/
def chainCheck (s : State) (from_ : Nat) : Option Nat :=
  match s.chain.flourishes.getLast? with
  | none => none
  | some f =>
    match chainFail none (s.chain.roots.filter (fun r => from_ ≤ r.n && r.n ≤ f.1.last)) with
    | some n => some n
    | none =>
      if Config.sigVerifies f.1.alg (pubKey f.1.alg f.1.epoch) f.1.body (slice f.2 (64 + 256) (sigLen f.1.alg)) then none
      else some f.1.last

def minOpt (a b : Option Nat) : Option Nat :=
  match a, b with
  | none, y => y
  | x, none => x
  | some x, some y => some (min x y)

/-- Strokes checked and the first that fails. Strokes that are not sealed yet, or whose data is freed, are passed over. -/
def verifyStrokes (s : State) (x : Ns) (lba n : Nat) (chain : Bool) : Nat × Option Nat :=
  let ss := (touchedStrokes x lba n).filter (fun k => !(strokeRuns x k).any (·.freed))
  let rs := ss.filterMap (findRoot s)
  let bad := (rs.find? (fun r => !strokeGood s x r)).map (·.n)
  let cf := match rs with
    | r :: _ => if chain then chainCheck s r.n else none
    | [] => none
  (rs.length, minOpt bad cf)

end Sys2Proof.Machine
end

