-- ==== Sys2Proof/Machine/Qos.lean ====
section
/-!
DEFINITION. Grants and budgets (spec/05_qos_and_virtualisation.md R92 to R100, spec/02 R42, R45): capacity, the forming of
the grants at a boundary, charges, debt and spill.
-/

namespace Sys2Proof.Machine

/-- The three currencies of a grant. -/
inductive Currency where
  | cmds | rdBytes | wrBytes
  deriving DecidableEq, Repr

def grantOf (x : Fn) : Currency → Nat
  | .cmds => x.gCmd
  | .rdBytes => x.gRd
  | .wrBytes => x.gWr

def debtOf (x : Fn) : Currency → Nat
  | .cmds => x.dCmd
  | .rdBytes => x.dRd
  | .wrBytes => x.dWr

def setGrant (c : Currency) (g d : Nat) (x : Fn) : Fn :=
  match c with
  | .cmds => { x with gCmd := g, dCmd := d }
  | .rdBytes => { x with gRd := g, dRd := d }
  | .wrBytes => { x with gWr := g, dWr := d }

/-- QOS_FUNC of a function as it is in force (R455). -/
def qosOf (s : State) (f : Nat) : QosInForce := (mget s.qos f).getD {}

def guarantee (q : QosInForce) : Currency → Nat
  | .cmds => q.kcmd
  | .rdBytes => q.rd
  | .wrBytes => q.wr

/-- A function takes part in R96: online, D0, enabled and ready, no FLR in progress. -/
def qosEnabled (s : State) (f : Nat) : Bool :=
  let x := getFn s f
  online s f && !x.d3 && x.en && x.rdy && x.flr.isNone

/-- The currency whose budget a fetched command that is held waits for: read bytes if it reads, write bytes if it writes (R42, R92). -/
def Cmd.waitsFor (x : Cmd) (c : Currency) : Bool :=
  x.held && match x.kind with
    | .read _ _ _ | .compare _ _ _ _ | .verify _ _ _ | .verifyRange _ _ _ _ => c == .rdBytes
    | _ => c == .wrBytes

/-- The same of a command that has moved no data yet. -/
def LateCmd.waitsFor (x : LateCmd) (c : Currency) : Bool :=
  match x with
  | .proof _ _ _ _ | .bundle _ _ _ _ _ _ _ _ _ => c == .rdBytes
  | .load _ _ _ _ _ | .free _ _ _ _ _ => c == .wrBytes
  | _ => false

/-- Fetched commands of a function wait for the currency, and for nothing else: neither the host side nor the dirty limit holds them. -/
def waitingFor (s : State) (c : Currency) (f : Nat) : Bool :=
  hostSide s f && !(getFn s f).d3 && !(c == .wrBytes && atDirtyLimit s) &&
    (s.cmds.any (fun x => x.fn == f && x.waitsFor c) || s.late.any (fun x => x.who.1 == f && x.waitsFor c))

/-- Unfetched entries, or fetched commands that wait for the currency (R96). -/
def hasDemand (s : State) (c : Currency) (f : Nat) : Bool :=
  (getFn s f).sqs.any (fun e => 0 < e.2.waiting) || waitingFor s c f

/-- Work of a function that waits for the currency now (R99): I/O entries for a command, fetched commands for bytes. -/
def hasWork (s : State) (c : Currency) (f : Nat) : Bool :=
  if c = .cmds then (getFn s f).sqs.any (fun e => e.1 != 0 && 0 < e.2.waiting) else waitingFor s c f

/-- The first of a list in round robin after `n`. -/
def roundNext (n : Nat) (l : List Nat) : Option Nat := (l.find? (n < ·)).or l.head?

/-- The spent function whose entry is fetched next (R99): of the first class that has work, by weight in round robin. -/
def spillTurn (s : State) : Option Nat :=
  let fs := allFns.filter (fun g => qosEnabled s g && (getFn s g).gCmd == 0 && hasWork s .cmds g)
  let cls := ([0, 1].find? (fun c => fs.any (fun g => (qosOf s g).cls == c))).getD 2
  let mine := fs.filter (fun g => min 2 (qosOf s g).cls == cls)
  match mget s.spill cls with
  | none => mine.head?
  | some t => if 0 < t.2 && mine.contains t.1 then some t.1 else roundNext t.1 mine

/-- A spent function has fetched an entry in its turn: a turn is as many entries as its weight, and one at least. -/
def noteSpill (f : Nat) (s : State) : State :=
  let cls := min 2 (qosOf s f).cls
  let left := match mget s.spill cls with
    | some t => if t.1 = f && 0 < t.2 then t.2 else max 1 (qosOf s f).weight
    | none => max 1 (qosOf s f).weight
  { s with spill := mset s.spill cls (f, left - 1) }

/-- Spill (R99): no other enabled function that still holds grant in the currency has work waiting for it; never write bytes in overrun;
fetch goes by turns. -/
def canSpill (s : State) (f : Nat) (c : Currency) : Bool :=
  flagF s QOS_CTL_SPILL && !(c == .wrBytes && flagF s STK_STATUS_OVERRUN) &&
    !allFns.any (fun g => g != f && qosEnabled s g && 0 < grantOf (getFn s g) c && hasWork s c g) &&
    (c != .cmds || spillTurn s == some f)

/-- Rounds over queues of items, each giving as many as its weight: `fuel` bounds the rounds. -/
def weightedRounds {α : Type} (fuel : Nat) (qs : List (Nat × List α)) : List α :=
  match fuel with
  | 0 => []
  | k + 1 => qs.flatMap (fun e => e.2.take e.1) ++ weightedRounds k (qs.map (fun e => (e.1, e.2.drop e.1)))

/-- Waiting items in the order in which the device serves them: by class, within a class by weight in round robin over the functions,
for one function in their own order (R99). -/
def serveOrder {α : Type} (s : State) (fn : α → Nat) (l : List α) : List α :=
  let fs := l.foldl (fun a x => insertNat (fn x) a) []
  [0, 1, 2].flatMap (fun c => weightedRounds l.length ((fs.filter (fun f => min 2 (qosOf s f).cls == c)).map
    (fun f => (max 1 (qosOf s f).weight, l.filter (fun x => fn x == f)))))

/-- A function may spend now: budget above zero, or spill (R42, R99). -/
def affords (s : State) (f : Nat) (c : Currency) : Bool := 0 < grantOf (getFn s f) c || canSpill s f c

/-- Charge an item: the excess over the budget left becomes debt; spill work carries no charge (R42, R99). -/
def charge (f : Nat) (c : Currency) (n : Nat) (s : State) : State :=
  let x := getFn s f
  let g := grantOf x c
  if g = 0 then (if c = .cmds then noteSpill f s else s)
  else if n ≤ g then setFn f (setGrant c (g - n) (debtOf x c) x) s
  else setFn f (setGrant c 0 (debtOf x c + (n - g)) x) s

/-- Active channels: those with a usable die (R94, R163). -/
def activeChannels (s : State) : Nat :=
  ((List.range 16).filter (fun c => (usableDies s).any (fun d => d / 16 == c))).length

/-- QOS_CAP_BW and QOS_CAP_CMD from the usable media (R94). -/
def setCapacity (s : State) : State :=
  let ch := activeChannels s
  let dies := (usableDies s).length
  setF QOS_CAP_BW_RD_MBPS (52000 * ch / 16) (setF QOS_CAP_BW_WR_MBPS (28000 * dies / 256)
    (setF QOS_CAP_CMD_KCMDS ((11000 * ch * 16 + 2600 * dies) / 256) s))

/-- The capacity of a stroke in a currency, before the scale (R93). -/
def strokeCap (s : State) : Currency → Nat
  | .cmds => getF s QOS_CAP_CMD_KCMDS * s.time.period / 1000
  | .rdBytes => getF s QOS_CAP_BW_RD_MBPS * s.time.period
  | .wrBytes => getF s QOS_CAP_BW_WR_MBPS * s.time.period

/-- A guarantee in the units of the currency for one stroke (R93). -/
def strokeGuarantee (s : State) (c : Currency) (f : Nat) : Nat :=
  match c with
  | .cmds => (qosOf s f).kcmd * s.time.period / 1000
  | k => guarantee (qosOf s f) k * s.time.period

/-- RATE_KBPS of a flow (R112). -/
def Flow.rate (x : Flow) : Nat := leAt x.desc 52 4

/-- The write capacity that bound flows reserve, in kB/s (R95, R112). -/
def reservedKbps (s : State) : Nat := s.ing.flows.foldl (fun a e => a + e.2.rate) 0

/-- RATE_KBPS that a bound flow counts with in the limits: the largest of its own and those of the modifies accepted for it (R113). -/
def flowRate (s : State) (fid : Nat) (x : Flow) : Nat :=
  s.ing.binds.foldl (fun a b => if b.op = 2 && b.flow = fid then max a (leAt b.desc 52 4) else a) x.rate

/-- What bound flows and accepted binds reserve, in kB/s (R95, R113). -/
def acceptedKbps (s : State) : Nat :=
  s.ing.binds.foldl (fun a b => if b.op = 0 then a + leAt b.desc 52 4 else a)
    (s.ing.flows.foldl (fun a e => a + flowRate s e.1 e.2) 0)

/-- Bytes that bound flows have reserved for the stroke (R96). -/
def ingestReserved (s : State) : Nat := reservedKbps s * s.time.period / 1000

/-- Grants of one class from what is left: its guarantees, or a fraction of each where they do not fit (R96). -/
def classGrants (s : State) (c : Currency) (cls left : Nat) : List (Nat × Nat) :=
  let fs := allFns.filter (fun f => qosEnabled s f && (qosOf s f).cls == cls)
  let want := fs.foldl (fun a f => a + strokeGuarantee s c f) 0
  fs.map (fun f => (f, if want ≤ left then strokeGuarantee s c f else strokeGuarantee s c f * left / max 1 want))

def grantSum (l : List (Nat × Nat)) : Nat := l.foldl (fun a e => a + e.2) 0

/-- The grants before debt, for one currency (R96). -/
def formGrants (s : State) (c : Currency) (e : Nat) : List (Nat × Nat) :=
  let l0 := if c = .wrBytes then e - min (ingestReserved s) e else e
  let g0 := classGrants s c 0 l0
  let l1 := l0 - grantSum g0
  let g1 := classGrants s c 1 l1
  let l2 := l1 - grantSum g1
  let g2 := classGrants s c 2 l2
  let l3 := l2 - grantSum g2
  let gs := g0 ++ g1 ++ g2
  let w := gs.foldl (fun a g => if hasDemand s c g.1 then a + (qosOf s g.1).weight else a) 0
  gs.map (fun g => (g.1, if w = 0 || !hasDemand s c g.1 then g.2 else g.2 + l3 * (qosOf s g.1).weight / w))

/-- The cut of overrun: interactive write grants are halved, bulk ones are zero (R98). -/
def overrunCut (s : State) (c : Currency) (f n : Nat) : Nat :=
  if c = .wrBytes && flagF s STK_STATUS_OVERRUN then
    (if (qosOf s f).cls = 1 then n / 2 else if (qosOf s f).cls = 2 then 0 else n)
  else n

/-- Some class receives less than its guarantees, after the cut of overrun and before any debt (QOS_STATUS.SHORT). -/
def grantsShort (s : State) (c : Currency) (gs : List (Nat × Nat)) : Bool :=
  [0, 1, 2].any (fun k =>
    let mine := gs.filter (fun g => (qosOf s g.1).cls == k)
    grantSum (mine.map (fun g => (g.1, overrunCut s c g.1 g.2))) < grantSum (mine.map (fun g => (g.1, strokeGuarantee s c g.1))))

/-- One function's new grant: the debt is subtracted, then the cut of overrun is made (R96, R98). -/
def applyGrant (c : Currency) (g : Nat × Nat) (s : State) : State :=
  let x := getFn s g.1
  let d := debtOf x c
  setFn g.1 (setGrant c (overrunCut s c g.1 (g.2 - d)) (d - g.2) x) s

/-- Unspent budget lapses (R42). -/
def lapseGrants (s : State) : State :=
  { s with fns := s.fns.map (fun e => (e.1, { e.2 with gCmd := 0, gRd := 0, gWr := 0 })) }

/-- QOS_FUNC takes effect at the boundary (R455). -/
def latchQos (s : State) : State :=
  { s with qos := allFns.map (fun f => (f, {
      rd := getF s (QOS_FUNC_RD_MBPS f), wr := getF s (QOS_FUNC_WR_MBPS f), kcmd := getF s (QOS_FUNC_KCMDS f),
      weight := getF s (QOS_FUNC_WEIGHT f), cls := getF s (QOS_FUNC_CLASS f) })) }

/-- The grants shown in QOS_FUNC (R107). -/
def showGrants (s : State) : State :=
  allFns.foldl (fun a f =>
    setF (QOS_FUNC_WR_GRANT_KIB f) (min (2 ^ 24 - 1) ((getFn a f).gWr / 1024))
      (setF (QOS_FUNC_RD_GRANT_KIB f) (min (2 ^ 24 - 1) ((getFn a f).gRd / 1024)) a)) s

/-- GRANT_FORMATION (R96 to R98): the scale is that of the stroke that has ended. -/
def qosBoundary (scale : Nat) (s : State) : State :=
  let s0 := setF QOS_STATUS_SCALE (min 511 scale) (setCapacity (latchQos (lapseGrants s)))
  let e (c : Currency) := strokeCap s0 c * scale / 256
  let gs (c : Currency) := formGrants s0 c (e c)
  let short := [Currency.cmds, .rdBytes, .wrBytes].any (fun c => grantsShort s0 c (gs c))
  let run (c : Currency) (a : State) : State := (gs c).foldl (fun b g => applyGrant c g b) a
  let s1 := run .wrBytes (run .rdBytes (run .cmds s0))
  showGrants (setF QOS_STATUS_SHORT (bit short) { s1 with ftl := { s1.ftl with
    grantedLast := s1.ftl.granted, granted := s1.fns.foldl (fun a e => a + e.2.gWr) 0 } })

/-- The sum rule of R95 for a QOS_FUNC entry that would hold these guarantees. -/
def sumRule (s : State) (f rd wr kcmd : Nat) : Bool :=
  let tot (g : Nat → Nat) (own : Nat) := allFns.foldl (fun a k => a + (if k = f then own else g k)) 0
  tot (fun k => getF s (QOS_FUNC_RD_MBPS k)) rd ≤ getF s QOS_CAP_BW_RD_MBPS &&
    tot (fun k => getF s (QOS_FUNC_WR_MBPS k)) wr * 1000 + acceptedKbps s ≤ getF s QOS_CAP_BW_WR_MBPS * 1000 &&
    tot (fun k => getF s (QOS_FUNC_KCMDS k)) kcmd ≤ getF s QOS_CAP_CMD_KCMDS

end Sys2Proof.Machine
end

