-- ==== Sys2Proof/Machine/Graph.lean ====
section
/-!
DEFINITION. Graphs and runs (spec/12_ductus_dataflow.md R269 to R277, R285, R286; spec/01 R18, R24, R25; spec/16 R372): the graph
image and its checks, ready lists, node states, the end of a node and of a run, and the result record.
-/

namespace Sys2Proof.Machine

/-! ### Capacity (R24, R25) -/

/-- The yield Y = w/(w+1) × (1 − r) is `yieldDen / yieldNum`, r counted in 1/32: the raw charge of a capacity is the capacity
times `yieldNum`, over `yieldDen` (R24). No charge is rounded. -/
def yieldNum (s : State) : Nat := (getF s FTL_CFG_WIDTH + 1) * 32

def yieldDen (s : State) : Nat := getF s FTL_CFG_WIDTH * (32 - getF s FTL_CFG_RESERVE)

/-- Capacity in bytes of the namespaces of a kind. -/
def capBytes (s : State) (sealed : Bool) : Nat :=
  s.nss.foldl (fun a e => if e.2.sealed == sealed then a + e.2.ncap * e.2.blk else a) 0

/-- The raw charge of these capacities exceeds the installed raw NAND (R24). -/
def rawExceeds (s : State) (plain sealed : Nat) : Bool := s.ftl.rawGib * 2 ^ 30 * yieldDen s < (plain + sealed) * yieldNum s

/-- need_gib of R25 for these capacities, in units of 1/(4,096 × `yieldDen`) byte: 1 GiB for each TiB of plain raw, a quarter of
that for sealed raw, and 2 GiB. -/
def needUnits (s : State) (plain sealed : Nat) : Nat :=
  (4 * plain + sealed) * yieldNum s + 2 * 2 ^ 30 * 4096 * yieldDen s

/-- Installed DRAM in bytes (R345). -/
def dramBytes (s : State) : Nat := 8 * 2 ^ getF s DRM_CFG_SIZE * 2 ^ 30

/-- need_gib exceeds the installed DRAM (R26). -/
def needExceeds (s : State) (plain sealed : Nat) : Bool := dramBytes s * 4096 * yieldDen s < needUnits s plain sealed

/-- DRAM above need_gib, in whole bytes: compute memory (R25). -/
def computeMemory (s : State) : Nat :=
  (dramBytes s * 4096 * yieldDen s - needUnits s (capBytes s false) (capBytes s true)) / (4096 * yieldDen s)

/-! ### Access -/

def getGraph (s : State) (h : Nat) : Option Graph := mget s.duct.graphs h

def updGraph (h : Nat) (g : Graph → Graph) (s : State) : State :=
  { s with duct := { s.duct with graphs := mupd s.duct.graphs h g } }

def updRun (h : Nat) (g : GRun → GRun) (s : State) : State := updGraph h (fun x => { x with run := x.run.map g }) s

def updNode (h n : Nat) (g : NodeRun → NodeRun) (s : State) : State :=
  updRun h (fun r => { r with nodes := lupd r.nodes n g }) s

def nodeDesc (s : State) (h n : Nat) : Option GNode := (getGraph s h).bind (fun g => g.nodes[n]?)

def nodeRun (s : State) (h n : Nat) : Option NodeRun := (getGraph s h).bind (fun g => g.run.bind (fun r => r.nodes[n]?))

def graphMemory (g : Graph) : Nat :=
  g.bufs.foldl (fun a b => a + b.size) 0 + g.images.foldl (fun a i => a + i.length) 0

def usedMemory (s : State) : Nat := s.duct.graphs.foldl (fun a e => a + graphMemory e.2) 0

def runLive (g : Graph) : Bool := match g.run with
  | some r => r.state == 0
  | none => false

def liveRuns (s : State) : Nat := (s.duct.graphs.filter (fun e => runLive e.2)).length

def nibCore (s : State) (k : Nat) : NibCore := (mget s.duct.cores k).getD {}

def setCore (k : Nat) (c : NibCore) (s : State) : State := { s with duct := { s.duct with cores := mset s.duct.cores k c } }

/-- Context slots in use: saved nodes (R278). -/
def contexts (s : State) : Nat :=
  s.duct.graphs.foldl (fun a e => match e.2.run with
    | some r => a + (r.nodes.filter (fun n => n.saved.isSome)).length
    | none => a) 0

/-- The DCT registers that show the lists and the runs (R288). -/
def showDuct (s : State) : State :=
  let n := s.duct.ready.length
  setF DCT_READY_ONCHIP (min n 65536) (setF DCT_SILT_SPILLED (n - 65536) (setF DCT_STATUS_SPILLING (bit (65536 < n))
    (setF DCT_STATUS_RUNS (liveRuns s) (setF DCT_GRAPHS_LOADED s.duct.graphs.length
      (setF DCT_SILT_CONTEXTS (contexts s) s)))))

/-! ### The image (R269, R270) -/

/-- A library image by ID: its directory entry in page 35 is valid and its CRC checks (R372). -/
def libraryImage (s : State) (id : Nat) : Option Bytes :=
  ((List.range 256).map (fun i => inkBytesAt s (35 * 131072 + 16 * i) 16)).findSome? (fun e =>
    let img := inkBytesAt s (byteAt e 4 * 131072) (leAt e 8 4)
    if leAt e 0 4 = id && id != 0 && leAt e 6 2 = 0 && leAt e 8 4 ≤ byteAt e 5 * 131072 && crc32 img = leAt e 12 4 then
      some img else none)

def kindOf (k : Nat) : Option NodeKind :=
  match k with
  | 1 => some .nib
  | 2 => some .digest
  | 3 => some .cipher
  | 4 => some .sign
  | 5 => some .compress
  | 6 => some .decompress
  | 7 => some .sieve
  | 8 => some .mediaRead
  | 9 => some .mediaWrite
  | 10 => some .dramCopy
  | 11 => some .hostIn
  | 12 => some .hostOut
  | 13 => some .join
  | _ => none

/-- Header fields of an image. -/
structure GHdr where
  nodes : Nat
  nodeOff : Nat
  edgeOff : Nat
  edges : Nat
  bindOff : Nat
  bufs : Nat
  bufOff : Nat
  imgOff : Nat
  imgs : Nat
  timeout : Nat
  coreUs : Nat
  engineKib : Nat
  binds : Nat
  deriving DecidableEq, Repr

def hdrOf (m : Bytes) : GHdr :=
  { nodes := leAt m 2 2, nodeOff := leAt m 8 4, edgeOff := leAt m 12 4, edges := leAt m 16 4, bindOff := leAt m 20 4,
    bufs := leAt m 26 2, bufOff := leAt m 28 4, imgOff := leAt m 32 4, imgs := leAt m 36 2, timeout := leAt m 38 2,
    coreUs := leAt m 40 4, engineKib := leAt m 44 4, binds := leAt m 48 4 }

def nodeBytes (m : Bytes) (h : GHdr) (i : Nat) : Bytes := slice m (h.nodeOff + 64 * i) 64

def edgeAt (m : Bytes) (h : GHdr) (i : Nat) : Nat := leAt m (h.edgeOff + 4 * i) 4

def bindAt (m : Bytes) (h : GHdr) (i : Nat) : Bytes := slice m (h.bindOff + 8 * i) 8

def bufEntry (m : Bytes) (h : GHdr) (i : Nat) : Bytes := slice m (h.bufOff + 16 * i) 16

def imgEntry (m : Bytes) (h : GHdr) (i : Nat) : Bytes := slice m (h.imgOff + 16 * i) 16

def succsOf (m : Bytes) (h : GHdr) (i : Nat) : List (Nat × Bool) :=
  let b := nodeBytes m h i
  (List.range (leAt b 6 2)).map (fun k =>
    let e := edgeAt m h (leAt b 4 2 + k)
    (e % 4096, bitAt e 12))

def bindsOf (m : Bytes) (h : GHdr) (i : Nat) : List GBind :=
  let b := nodeBytes m h i
  (List.range (byteAt b 14)).map (fun k =>
    let e := bindAt m h (leAt b 12 2 + k)
    { buf := leAt e 0 2, slot := byteAt e 2, write := bitAt (byteAt e 3) 0, off := leAt e 4 4 })

def parseNode (m : Bytes) (h : GHdr) (i : Nat) : GNode :=
  let b := nodeBytes m h i
  { kind := (kindOf (byteAt b 0)).getD .join, flags := byteAt b 1, succs := succsOf m h i, affinity := byteAt b 8,
    fallback := byteAt b 9, timeout := leAt b 10 2, binds := bindsOf m h i, image := leAt b 16 2,
    entry := leAt b 18 2, xpage := byteAt b 20, params := slice b 24 32 }

/-! ### Checks (R274): the reason and the first failing node -/

/-- Reason 02h for the header, the parts and the tables. -/
def headerBad (m : Bytes) (h : GHdr) (len : Nat) : Bool :=
  byteAt m 0 != 0x30 || byteAt m 1 != 1 || h.nodes == 0 || 4096 < h.nodes || 65536 < h.edges || 1024 < h.bufs ||
    64 < h.imgs || 65536 < h.binds || leAt m 24 2 != 0 || !allZero (slice m 52 12) || len < h.nodeOff + 64 * h.nodes ||
    len < h.edgeOff + 4 * h.edges || len < h.bindOff + 8 * h.binds || len < h.bufOff + 16 * h.bufs ||
    len < h.imgOff + 16 * h.imgs

def nodeBad (m : Bytes) (h : GHdr) (i : Nat) : Bool :=
  let b := nodeBytes m h i
  32 ≤ byteAt b 1 || leAt b 2 2 != 0 || byteAt b 15 != 0 || !allZero (slice b 21 3) || !allZero (slice b 56 8) ||
    bits (byteAt b 8) 6 5 != 0 || bitAt (byteAt b 20) 7 || h.edges < leAt b 4 2 + leAt b 6 2 ||
    h.binds < leAt b 12 2 + byteAt b 14 ||
    (List.range (leAt b 6 2)).any (fun k => 8192 ≤ edgeAt m h (leAt b 4 2 + k)) ||
    (List.range (byteAt b 14)).any (fun k =>
      let e := bindAt m h (leAt b 12 2 + k)
      2 ≤ byteAt e 3 || leAt e 4 4 % 2 == 1)

def bufBad (m : Bytes) (h : GHdr) (len i : Nat) : Bool :=
  let e := bufEntry m h i
  leAt e 0 4 == 0 || 2 ^ 30 < leAt e 0 4 || 8 ≤ byteAt e 4 || !allZero (slice e 5 3) || !allZero (slice e 12 4) ||
    (bitAt (byteAt e 4) 2 && len < leAt e 8 4 + leAt e 0 4)

def imgBad (m : Bytes) (h : GHdr) (i : Nat) : Bool :=
  let e := imgEntry m h i
  2 ≤ byteAt e 0 || !allZero (slice e 1 3) || !allZero (slice e 8 8)

/-- RESULT buffers take 64 KiB in all at most (R285). -/
def resultBytes (m : Bytes) (h : GHdr) : Nat :=
  (List.range h.bufs).foldl (fun a i =>
    let e := bufEntry m h i
    if bitAt (byteAt e 4) 1 then a + ceilDiv (leAt e 0 4) 4 * 4 else a) 0

/-- Nodes all of whose predecessors are in `done` join it, until nothing changes: `fuel` rounds. -/
def topo (edges : List (Nat × Nat)) (n fuel : Nat) (done : List Nat) : List Nat :=
  match fuel with
  | 0 => done
  | k + 1 =>
    let more := (List.range n).filter (fun i => !done.contains i && edges.all (fun e => e.2 != i || done.contains e.1))
    if more.isEmpty then done else topo edges n k (done ++ more)

def allEdges (m : Bytes) (h : GHdr) : List (Nat × Nat) :=
  (List.range h.nodes).flatMap (fun i => (succsOf m h i).map (fun e => (i, e.1)))

/-- Reason 03h: an edge to an index beyond NODES, or a cycle. -/
def edgeBad (m : Bytes) (h : GHdr) (i : Nat) : Bool := (succsOf m h i).any (fun e => h.nodes ≤ e.1)

def cyclic (m : Bytes) (h : GHdr) : Bool := (topo (allEdges m h) h.nodes h.nodes []).length < h.nodes

/-- Reason 04h. -/
def bindBad (m : Bytes) (h : GHdr) (i : Nat) : Bool :=
  let b := nodeBytes m h i
  let bs := bindsOf m h i
  let nib := byteAt b 0 == 1
  (kindOf (byteAt b 0)).isNone || 16 < byteAt b 14 || bs.any (fun x => h.bufs ≤ x.buf || (if nib then 16 else 4) ≤ x.slot) ||
    (nib && (h.imgs ≤ leAt b 16 2 || (bs.map (·.slot)).eraseDups.length != bs.length))

/-- Reason 05h: a namespace that is not attached to the function, or a write to a sealed one (R18, R274). -/
def mediaBad (s : State) (fn : Nat) (m : Bytes) (h : GHdr) (i : Nat) : Bool :=
  let b := nodeBytes m h i
  if byteAt b 0 = 8 || byteAt b 0 = 9 then
    match getNs s (leAt b 24 4) with
    | none => true
    | some n => !n.attached.contains fn || (byteAt b 0 == 9 && n.sealed)
  else false

/-- The bytes of image `i` of the image table. -/
def imageBytes (s : State) (m : Bytes) (h : GHdr) (i : Nat) : Option Bytes :=
  let e := imgEntry m h i
  let img := if byteAt e 0 = 0 then (if leAt e 4 4 < m.length then some (m.drop (leAt e 4 4)) else none)
    else libraryImage s (leAt e 4 4)
  img.filter Config.gyoneOk

/-- The first node that satisfies a check. -/
def firstNode (n : Nat) (p : Nat → Bool) : Option Nat := (List.range n).find? p

/-- Why an image is refused: reason and node; none where it loads. `p4` and `p5` are the checks of the nodes' PARAMS and of
the slots and partitions they name. -/
def loadError (s : State) (fn : Nat) (m : Bytes) (p4 p5 : Nat → Bool) : Option (Nat × Nat) :=
  let h := hdrOf m
  let pick (r : Nat) (o : Option Nat) (rest : Option (Nat × Nat)) : Option (Nat × Nat) := match o with
    | some i => some (r, i)
    | none => rest
  let flag (b : Bool) : Option Nat := if b then some 0 else none
  pick 2 (flag (headerBad m h m.length || (List.range h.bufs).any (bufBad m h m.length) ||
      (List.range h.imgs).any (imgBad m h) || 65536 < resultBytes m h))
    (pick 2 (firstNode h.nodes (nodeBad m h))
      (pick 3 (firstNode h.nodes (edgeBad m h))
        (pick 3 (flag (cyclic m h))
          (pick 4 (firstNode h.nodes (fun i => bindBad m h i || p4 i))
            (pick 5 (firstNode h.nodes (fun i => mediaBad s fn m h i || p5 i))
              (pick 6 (flag ((List.range h.imgs).any (fun i => (imageBytes s m h i).isNone))) none))))))

/-- The buffers of a graph, the INIT ones loaded. -/
def loadBufs (m : Bytes) (h : GHdr) : List GBuf :=
  (List.range h.bufs).map (fun i =>
    let e := bufEntry m h i
    let init := if bitAt (byteAt e 4) 2 then slice m (leAt e 8 4) (leAt e 0 4) else []
    { size := leAt e 0 4, zero := bitAt (byteAt e 4) 0, result := bitAt (byteAt e 4) 1,
      data := ssetBytes (fun _ => 0) [] 0 init })

def buildGraph (s : State) (fn : Nat) (m : Bytes) : Graph :=
  let h := hdrOf m
  { fn := fn, nodes := (List.range h.nodes).map (parseNode m h), bufs := loadBufs m h,
    images := (List.range h.imgs).map (fun i => (imageBytes s m h i).getD []), timeout := h.timeout, coreUs := h.coreUs,
    engineKib := h.engineKib }

/-- DCT_LOAD_ERR (R274). -/
def loadRefused (fn reason node : Nat) (s : State) : State :=
  setF DCT_LOAD_ERR_REASON reason (setF DCT_LOAD_ERR_FUNCTION fn (setF DCT_LOAD_ERR_NODE (node % 4096)
    (setF DCT_LOAD_ERR_VALID 1 s)))

/-! ### Ready lists and node states (R276, R278) -/

/-- The class of the graph's function (R93, R275). -/
def graphClass (s : State) (h : Nat) : Nat :=
  match getGraph s h with
  | some g => (qosOf s g.fn).cls
  | none => 2

def makeReady (h n : Nat) (s : State) : State :=
  showDuct (updNode h n (fun x => { x with st := 1, readyAt := now s, waited := 0 })
    { s with duct := { s.duct with ready := s.duct.ready ++ [(graphClass s h, h, n)] } })

/-- Predecessors that hold back a node are all DONE. -/
def predsDone (g : Graph) (r : GRun) (n : Nat) : Bool :=
  (List.range g.nodes.length).all (fun i =>
    match g.nodes[i]?, r.nodes[i]? with
    | some d, some x => !d.succs.contains (n, false) || x.st == 5
    | _, _ => true)

/-- The core that holds a node. -/
def coreOfNode (s : State) (h n : Nat) : Option Nat :=
  (List.range 32).find? (fun k => getF s (NIB_CORE_GRAPH k) == h && h != 0 && getF s (NIB_CORE_NODE k) == n &&
    (getF s (NIB_CORE_STATE k) == 2 || getF s (NIB_CORE_STATE k) == 3))

/-- An event for a core: a core in WAIT issues again (R282). -/
def wakeCore (k : Nat) (s : State) : State :=
  if getF s (NIB_CORE_STATE k) = 3 then
    updNode (getF s (NIB_CORE_GRAPH k)) (getF s (NIB_CORE_NODE k)) (fun x => { x with st := 2, waited := 0 })
      (setF (NIB_CORE_STATE k) 2 s)
  else s

/-- NOTIFY for a node (R282): on its core, in its saved context, or pending until it runs. -/
def notifyNode (h n : Nat) (s : State) : State :=
  match coreOfNode s h n with
  | some k => wakeCore k (setCore k { nibCore s k with notify := true } s)
  | none => updNode h n (fun x => { x with notify := true, saved := x.saved.map (fun c => { c with notify := true }) }) s

/-- The core is free: idle, holding no node; its image stays resident. -/
def freeCore (k : Nat) (s : State) : State :=
  setF (NIB_CORE_STATE k) 1 (setF (NIB_CORE_GRAPH k) 0 (setF (NIB_CORE_NODE k) 0 (setF (NIB_CORE_RUN k) 0
    (setCore k { nibCore s k with bundle := [], windows := [], grant4 := false, tick := false, notify := false,
                                  preempt := false } s))))

/-- Core-microseconds are charged to a node and its graph's grant (R280). -/
def payCore (us h n : Nat) (s : State) : State :=
  updNode h n (fun x => { x with used := x.used + us })
    (updRun h (fun r => { r with coreUs := r.coreUs + us, dCore := r.dCore + (us - r.gCore), gCore := r.gCore - us }) s)

/-- The core-microseconds since the node was dispatched or resumed that are not charged yet are charged (R271, R280). -/
def chargeCore (k h n : Nat) (s : State) : State :=
  let c := nibCore s k
  let total := (now s - c.since) * s.time.period / 65536
  payCore (total - c.paid) h n (setCore k { c with paid := max c.paid total } s)

/-- Every core that holds a node is charged up to now. -/
def chargeCores (s : State) : State :=
  (List.range 32).foldl (fun a k =>
    if getF a (NIB_CORE_STATE k) == 2 || getF a (NIB_CORE_STATE k) == 3 then
      chargeCore k (getF a (NIB_CORE_GRAPH k)) (getF a (NIB_CORE_NODE k)) a else a) s

/-- A NIB node leaves its core. -/
def leaveCore (h n : Nat) (s : State) : State :=
  match coreOfNode s h n with
  | some k => freeCore k (chargeCore k h n s)
  | none => s

/-! ### The shared engines (R19, R297, R298, R330) -/

/-- A byte or a field of PARAMS, by its place in the descriptor. -/
def pByte (d : GNode) (off : Nat) : Nat := byteAt d.params (off - 24)
def pField (d : GNode) (off n : Nat) : Nat := leAt d.params (off - 24) n

/-- The registers that show the engines at work and the contexts that are held (R315, R316, R343): the pipelines in use are shown as
the lowest ones. -/
def showContexts (s : State) : State :=
  let n := s.crypt.contexts.length
  let on (e : Nat) : Nat := (engQ s e).on.length
  setF DIG_CONTEXTS_IN_USE n (setF CIP_USAGE_GCM_CTX s.crypt.gcm.length (setF CIP_STATUS_PIPE_BUSY (2 ^ min 4 (on 1) - 1)
    (setF CMP_STATUS_LINE_BUSY (bit (on 2 != 0)) (setF CMP_STATUS_LEVELS_BUSY (bit (on 3 != 0))
      (if getF s DIG_CONTEXTS_PEAK < n then setF DIG_CONTEXTS_PEAK n s else s)))))

def setEng (e : Nat) (q : EngQ) (s : State) : State :=
  showContexts { s with crypt := { s.crypt with engs := mset s.crypt.engs e q } }

/-- A job's contexts are zeroised and freed (R297, R298). -/
def freeContext (h n : Nat) (s : State) : State :=
  showContexts { s with crypt := { s.crypt with
    contexts := s.crypt.contexts.filter (fun c => c.1 != h || c.2.1 != n), gcm := s.crypt.gcm.filter (fun c => c != (h, n)) } }

def spendEng (e c n : Nat) (s : State) : State :=
  setEng e { engQ s e with allot := spendAllot (engQ s e).allot c n } s

/-- Instances of an engine (R19, R20). -/
def engWidth (s : State) (e : Nat) : Nat := if e = 0 then getF s DIG_STATUS_LANES else if e = 1 then 4 else 1

/-- What an engine can do in a stroke at full speed: lane-nanoseconds, bytes, or operations of the signature unit (R19, R289,
R299, R309). -/
def engCap (s : State) (e : Nat) : Nat :=
  let p := s.time.period
  match e with
  | 0 => getF s DIG_STATUS_LANES * p * 1000
  | 1 => 102400 * p
  | 2 => 16000 * p
  | 3 => 4000 * p
  | _ => max 1 (ceilDiv p 500)

/-- Instances that sealing's part takes, which is lent to no other user (R19). -/
def sealHeld (s : State) (e : Nat) : Nat := ceilDiv ((engQ s e).allot.sealing * engWidth s e) (max 1 (engCap s e))

/-- The waiting job that an engine serves next: of the highest class with allotment left, the first to arrive (R19). -/
def nextJob (s : State) (e : Nat) : Option (Nat × Nat) :=
  let q := engQ s e
  [0, 1, 2].findSome? (fun c => if allotLeft q.allot c then q.wait.find? (fun j => graphClass s j.1 == c) else none)

/-- A job takes an instance; a context that it held is freed. -/
def takeTurn (e : Nat) (j : Nat × Nat) (s : State) : State :=
  let q := engQ s e
  freeContext j.1 j.2 (setEng e { q with on := q.on ++ [j], wait := dropFirst (· == j) q.wait } s)

/-- Idle instances go to waiting jobs: `fuel` bounds their number. -/
def fillFrom (fuel e : Nat) (s : State) : State :=
  match fuel with
  | 0 => s
  | k + 1 =>
    if engWidth s e ≤ (engQ s e).on.length + sealHeld s e then s
    else match nextJob s e with
      | none => s
      | some j => fillFrom k e (takeTurn e j s)

def fillEng (e : Nat) (s : State) : State := fillFrom 16 e s

/-- A job comes to an engine. -/
def joinEng (e : Nat) (j : Nat × Nat) (s : State) : State :=
  fillEng e (setEng e { engQ s e with wait := (engQ s e).wait ++ [j] } s)

/-- A job gives up its instance and waits for another turn. -/
def leaveTurn (e : Nat) (j : Nat × Nat) (s : State) : State :=
  let q := engQ s e
  setEng e { q with on := dropFirst (· == j) q.on, wait := q.wait ++ [j] } s

/-- Why a running job must yield at a boundary (R298): 0 it goes on, 1 sealing needs the instance, 2 a class that ranks higher waits,
3 a job of its own class waits, 4 its class has spent its allotment. -/
def yieldWhy (s : State) (e : Nat) (j : Nat × Nat) : Nat :=
  let q := engQ s e
  let c := graphClass s j.1
  if engWidth s e < q.on.length + sealHeld s e then 1
  else if !allotLeft q.allot c then 4
  else if q.wait.any (fun w => graphClass s w.1 < c && allotLeft q.allot (graphClass s w.1)) then 2
  else if q.wait.any (fun w => graphClass s w.1 == c) then 3
  else 0

/-- The jobs of a graph that satisfy `p` leave the engines; their contexts and their signature operations go (R277, R286, R298). -/
def dropJobs (p : Nat × Nat → Bool) (s : State) : State :=
  let gone (u : SignUse) : Bool := match u with
    | .job h n => p (h, n)
    | _ => false
  let keep (q : EngQ) : EngQ := { q with on := q.on.filter (fun j => !p j), wait := q.wait.filter (fun j => !p j) }
  let s1 := { s with crypt := { s.crypt with
    engs := s.crypt.engs.map (fun e => (e.1, keep e.2)), contexts := s.crypt.contexts.filter (fun c => c.1 == 0 || !p (c.1, c.2.1)),
    gcm := s.crypt.gcm.filter (fun c => !p c), blocks := s.crypt.blocks.filter (fun b => !p (b.1, b.2.1)),
    signing := s.crypt.signing.filter (fun u => !gone u), signQ := s.crypt.signQ.filter (fun u => !gone u) } }
  showContexts ([0, 1, 2, 3].foldl (fun a e => fillEng e a) s1)

/-! ### The result record (R285) -/

def nodeItem (n : Nat) (x : NodeRun) : Bytes :=
  le 2 n ++ le 1 x.st ++ le 1 x.code ++ le 4 x.bytes ++ le 4 x.used ++ le 2 x.core ++ le 2 0

def bufBytes (b : GBuf) : Bytes := sgetBytes (fun _ => 0) b.data 0 b.size

/-- The items of the REPORT nodes. -/
def reportItems (g : Graph) (r : GRun) : Bytes :=
  ((List.range g.nodes.length).map (fun i => match g.nodes[i]?, r.nodes[i]? with
    | some d, some x => if bitAt d.flags 0 then nodeItem i x else []
    | _, _ => [])).flatten

def resultBufs (g : Graph) : Bytes :=
  ((g.bufs.filter (·.result)).map (fun b => fixLen (ceilDiv b.size 4 * 4) (bufBytes b))).flatten

def resultRecord (h : Nat) (g : Graph) (r : GRun) : Bytes :=
  let tail := reportItems g r ++ resultBufs g
  let st (k : Nat) := (r.nodes.filter (fun x => x.st == k)).length
  le 2 h ++ le 2 r.id ++ le 4 r.tag ++ le 1 r.state ++ le 1 0 ++ le 2 r.status.code ++ le 2 r.failing ++ le 2 r.tcause
    ++ le 4 r.tpc ++ le 4 (64 + tail.length) ++ le 8 r.start ++ le 8 r.stop ++ le 4 r.coreUs ++ le 4 r.engine
    ++ le 2 (st 5) ++ le 2 (st 7) ++ zeros 12 ++ tail

/-- A GRAPH RESULT writes the record, cut to the transfer length, and completes with the run's status. -/
def writeResult (f sqid cid h len : Nat) (g : Graph) (r : GRun) (s : State) : State :=
  complete f sqid cid r.status 0 0 (hostOut f cid ((resultRecord h g r).take len) s)

/-- The GRAPH RESULTs that waited for the run complete. -/
def finishResults (h : Nat) (s : State) : State :=
  s.cmds.foldl (fun a c =>
    match c.kind with
    | .graphResult g id len =>
      if g = h then
        match getGraph a h with
        | some x => match x.run with
          | some r => if r.id = id then writeResult c.fn c.sqid c.cid h len x r (dropCmd c.fn c.sqid c.cid a) else a
          | none => a
        | none => a
      else a
    | _ => a) s

/-! ### The end of a run (R277) -/

/-- Nodes that never ran are SKIPPED; those that held a core or an engine end with their output discarded. -/
def stopNode (lost : Bool) (x : NodeRun) : NodeRun :=
  if x.st ≤ 1 || (lost && x.st ≤ 4) then { x with st := 7, saved := none, slot := none, job := {} } else if x.st ≤ 4 then { x with st := 6, saved := none, slot := none, job := {} } else x

/-- The run stops: its cores are freed, its ready entries removed. -/
def stopRun (h : Nat) (s : State) : State :=
  let s1 := (List.range 32).foldl (fun a k =>
    if getF a (NIB_CORE_GRAPH k) == h && (getF a (NIB_CORE_STATE k) == 2 || getF a (NIB_CORE_STATE k) == 3) then
      freeCore k (chargeCore k h (getF a (NIB_CORE_NODE k)) a) else a) s
  dropJobs (fun j => j.1 == h) { s1 with duct := { s1.duct with ready := s1.duct.ready.filter (fun e => e.2.1 != h) } }

/-- A run ends with a state, a status and the failing node; `lost` says that its entries or contexts are gone, so that its nodes are
SKIPPED (R358). -/
def endRunBy (lost : Bool) (h state : Nat) (status : Status) (failing : Nat) (s : State) : State :=
  let s1 := stopRun h s
  finishResults h (showDuct (updRun h (fun r => { r with
    state := state, status := status, failing := failing, stop := now s, nodes := r.nodes.map (stopNode lost) }) s1))

def endRun (h state : Nat) (status : Status) (failing : Nat) (s : State) : State := endRunBy false h state status failing s

/-- An uncorrectable read in the silt area ends a run (R358). -/
def loseRun (h : Nat) (s : State) : State := endRunBy true h 3 .internalError 0xFFFF s

/-- A node fails: the run ends (R277). HALT of 80h to FFh gives success with RUN_STATE ABORTED. -/
def failNode (h n code : Nat) (state : Nat) (status : Status) (s : State) : State :=
  endRun h state status n (updNode h n (fun x => { x with st := 6, code := code, job := {} }) (leaveCore h n s))

/-- Successors of a node that ended: NOTIFY along LATE edges, READY along the others. -/
def readySuccs (h n : Nat) (s : State) : State :=
  match nodeDesc s h n with
  | none => s
  | some d => d.succs.foldl (fun a e =>
      if e.2 then notifyNode h e.1 a
      else match getGraph a h with
        | none => a
        | some g => match g.run with
          | none => a
          | some r => if (r.nodes[e.1]?).any (fun x => x.st == 0) && predsDone g r e.1 then makeReady h e.1 a else a) s

/-- A node ends with a result code (R276): DONE below 80h. -/
def endNode (h n code bytes : Nat) (s : State) : State :=
  if 128 ≤ code then failNode h n code 2 .success s
  else
    let s1 := readySuccs h n (updNode h n (fun x => { x with st := 5, code := code, bytes := bytes, endAt := now s, job := {} })
      (leaveCore h n s))
    match getGraph s1 h with
    | none => s1
    | some g => match g.run with
      | none => s1
      | some r => if r.nodes.all (fun x => x.st == 5 || x.st == 7) then endRun h 1 .success 0xFFFF s1 else s1

/-- A graph is released with whatever runs in it (R286). -/
def releaseGraph (h : Nat) (s : State) : State :=
  let s1 := if (getGraph s h).any runLive then endRun h 3 .success 0xFFFF s else s
  let s2 := (List.range 32).foldl (fun a k => if getF a (NIB_CORE_IMG_GRAPH k) = h then setF (NIB_CORE_IMG_GRAPH k) 0 a else a) s1
  showDuct { s2 with duct := { s2.duct with graphs := merase s2.duct.graphs h } }

/-- The function's graphs are released, its partial image discarded (R80, R286); a waiting GRAPH RESULT goes with its
function's other commands. -/
def releaseGraphs (f : Nat) (s : State) : State :=
  let s0 := { s with cmds := s.cmds.filter (fun c => match c.kind with
    | .graphResult _ _ _ => c.fn != f
    | _ => true) }
  let s1 := s0.duct.graphs.foldl (fun a e => if e.2.fn = f then releaseGraph e.1 a else a) s0
  { s1 with duct := { s1.duct with partials := merase s1.duct.partials f,
                                   starts := s1.duct.starts.filter (fun t => t.fn != f) } }

/-- Every run ends and every graph is released (R232, R286). -/
def releaseAllGraphs (s : State) : State := allFns.foldl (fun a f => releaseGraphs f a) s

end Sys2Proof.Machine
end

