-- ==== Sys2Proof/Machine/Sieve.lean ====
section
/-!
DEFINITION. The Sieve (spec/14_compression_and_sieve.md R334 to R344): matching, winners, entry operations with their holes,
the background scan, the register-path lookup and the SIEVE nodes.
-/

namespace Sys2Proof.Machine

/-- Size of a partition in entries, as taken at BOOT; 16 K and 8 K for partitions 0 and 1 (R335). -/
def partSize (s : State) (p : Nat) : Nat := (mget s.sieve.sizes p).getD (if p = 1 then 8192 else 16384)

/-- First absolute index of a partition: they are packed in order. -/
def partBase (s : State) (p : Nat) : Nat := (List.range p).foldl (fun a q => a + partSize s q) 0

def partEntries (s : State) (p : Nat) : Map SieveEntry := (mget s.sieve.parts p).getD []

/-- The pre-filter byte of an entry: its value under its care mask, and the mask (R334, R337). -/
def ghostOf (e : SieveEntry) : Nat × Nat := ((e.value &&& e.care) / 2 ^ 136, e.care / 2 ^ 136)

/-- The maps keep the bits of the entries that leave, by bank of the array. -/
def addGhosts (p : Nat) (m : Map SieveEntry) (s : State) : Map (List (Nat × Nat)) :=
  ((partEntries s p).filter (fun e => mget m e.1 != some e.2)).foldl (fun g e =>
    let b := (partBase s p + e.1) / 1024
    mset g b (insertNew (ghostOf e.2) ((mget g b).getD []))) s.sieve.ghosts

def setPart (p : Nat) (m : Map SieveEntry) (s : State) : State :=
  let s1 := { s with sieve := { s.sieve with parts := mset s.sieve.parts p m, ghosts := addGhosts p m s } }
  if p = 0 then setF SIV_HAZARD_USED m.length s1
  else if p = 1 then setF SIV_FLOW_USED m.length s1
  else s1

/-- An entry matches a key (R336). -/
def SieveEntry.hits (e : SieveEntry) (key : Nat) : Bool := (key ^^^ e.value) &&& e.care == 0

/-- The pre-filter byte values of an entry (R337): the key's byte 17 agrees with the cared bits of the entry's. -/
def preFilter (g : Nat × Nat) (key : Nat) : Bool := ((key / 2 ^ 136) ^^^ g.1) &&& g.2 == 0

/-- Order of winners: class descending, then index ascending. -/
def insertHit (x : Nat × SieveEntry) : List (Nat × SieveEntry) → List (Nat × SieveEntry)
  | [] => [x]
  | y :: t => if y.2.cls < x.2.cls then x :: y :: t else y :: insertHit x t

/-- Every match of a key in winner order: entries come by rising index, so equal classes keep that order. -/
def matchesOf (s : State) (p key : Nat) : List (Nat × SieveEntry) :=
  ((partEntries s p).filter (fun e => e.2.hits key)).foldl (fun a e => insertHit e a) []

/-- Banks of a partition that a lookup skips: their maps, which keep the bits of entries that left until the scan passes, do not hold
the key's pre-filter byte (R337). -/
def skippedBanks (s : State) (p key : Nat) : Nat :=
  let banks := partSize s p / 1024
  banks - ((List.range banks).filter (fun b =>
    (partEntries s p).any (fun e => e.1 / 1024 == b && preFilter (ghostOf e.2) key) ||
      ((mget s.sieve.ghosts (partBase s p / 1024 + b)).getD []).any (fun g => preFilter g key))).length

/-- Counters of one lookup. -/
def countLookup (p key : Nat) (s : State) : State :=
  incF SIV_SKIPPED_BANKS (skippedBanks s p key) (incF SIV_LOOKUPS 1 s)

def suspect (s : State) (p : Nat) : Bool := bitAt (getF s SIV_SUSPECT) p

/-- A write of the logged index clears the partition's SUSPECT bit (R340). -/
def clearSuspect (p i : Nat) (s : State) : State :=
  if flagF s SIV_PARITY_LOG_VALID && getF s SIV_PARITY_LOG_PART == p && getF s SIV_PARITY_LOG_INDEX == i && suspect s p then
    setF SIV_SUSPECT (getF s SIV_SUSPECT - 2 ^ p) s
  else s

/-- Invalidate, write, validate as one step (R339): an entry whose VALID is 0 leaves the index free. -/
def sieveWrite (p i : Nat) (e : Option SieveEntry) (s : State) : State :=
  clearSuspect p i (match e with
  | some x => setPart p (mset (partEntries s p) i x) s
  | none => setPart p (merase (partEntries s p) i) s)

/-- A hole index: one in every 2^k (R338). The hole is the last index of each group. -/
def isHole (s : State) (p i : Nat) : Bool :=
  let k := getF s (SIV_PART_HOLE_LOG2 p)
  k != 0 && i % 2 ^ k == 2 ^ k - 1

/-- The nearest free index at or above `i` within the partition. -/
def freeAbove (s : State) (p i : Nat) : Option Nat :=
  let j := mfree ((partEntries s p).filter (fun e => i ≤ e.1)) i
  if j < partSize s p then some j else none

/-- INSERT at index `i` (R338): entries up to the nearest free index move up by one; none where there is none. -/
def sieveInsert (p i : Nat) (e : SieveEntry) (s : State) : Option State :=
  match freeAbove s p i with
  | none => none
  | some j =>
    let m := partEntries s p
    let moved := m.map (fun x => if i ≤ x.1 && x.1 < j then (x.1 + 1, x.2) else x)
    some (clearSuspect p i (setPart p (mset moved i e) s))

/-! ### The background scan (R340) -/

/-- A parity error of an entry is logged: it is invalidated; a firmware partition is rewritten from its master copy, a
compute partition becomes suspect. -/
def parityError (p i : Nat) (s : State) : State :=
  let s1 := setF SIV_PARITY_LOG_INDEX i (setF SIV_PARITY_LOG_PART p (setF SIV_PARITY_LOG_VALID 1
    (incF SIV_STATUS_PARITY 1 s)))
  if p ≤ 1 then blot 0x0603 1 p (le 4 i) s1
  else
    setF SIV_SUSPECT (getF s1 SIV_SUSPECT ||| 2 ^ p) (blot 0x0603 1 p (le 4 i) (setPart p (merase (partEntries s1 p) i) s1))

/-- The partition and relative index of an absolute index. -/
def partOf (s : State) (i : Nat) : Option (Nat × Nat) :=
  ((List.range 16).find? (fun p => partBase s p ≤ i && i < partBase s p + partSize s p)).map (fun p => (p, i - partBase s p))

/-- SIEVE_SCAN (R340): the scan reads the next entry. -/
def execSieveScan (parityBad : Bool) (s : State) : Result :=
  .next (if flagF s SIV_SCAN_EN then
      let i := s.sieve.scanAt
      let s1 := { s with sieve := { s.sieve with
        scanAt := (i + 1) % 262144, ghosts := if i % 1024 = 1023 then merase s.sieve.ghosts (i / 1024) else s.sieve.ghosts } }
      match partOf s i with
      | some e => if parityBad && mhas (partEntries s e.1) e.2 then parityError e.1 e.2 s1 else s1
      | none => s1
    else s)

/-! ### The register path (R344) -/

/-- The 144-bit key of the KEY registers. -/
def regKey (s : State) : Nat := (List.range 5).foldl (fun a i => a + getReg s (0x31080 + 4 * i) * 2 ^ (32 * i)) 0 % 2 ^ 144

/-- The RES registers show the current match, if any. -/
def showHit (p : Nat) (hits : List (Nat × SieveEntry)) (multi : Bool) (s : State) : State :=
  let s1 := setF SIV_RES_MULTI (bit multi) (setF SIV_RES_SUSPECT (bit (suspect s p))
    { s with sieve := { s.sieve with hits := hits } })
  match hits with
  | [] => setF SIV_RES_HIT 0 (setF SIV_RES_INDEX 0 (setF SIV_RES_CLASS 0 (setF SIV_RESULT 0 s1)))
  | e :: _ => setF SIV_RES_HIT 1 (setF SIV_RES_INDEX e.1 (setF SIV_RES_CLASS e.2.cls (setF SIV_RESULT e.2.result s1)))

/-- A lookup checks parity on the winning entry (R340): where it fails, the lookup goes on without the entry, or with the rewritten one. -/
def lookupParity (p key : Nat) (bad : Bool) (s : State) : State :=
  match (matchesOf s p key).head?.filter (fun _ => bad) with
  | some e => parityError p e.1 s
  | none => s

def sieveGo (part : Nat) (parityBad : Bool) (s : State) : State :=
  let p := part % 16
  let s1 := lookupParity p (regKey s) parityBad s
  let hs := matchesOf s1 p (regKey s)
  showHit p hs (1 < hs.length) (countLookup p (regKey s) (setF SIV_CMD_PART p s1))

/-- SIEVE_GO (R340, R344): a lookup on the register path. -/
def execSieveGo (go : LookupGo) (s : State) : Result := .next (sieveGo go.part go.parityBad s)

def sieveNext (s : State) : State :=
  let p := getF s SIV_CMD_PART
  showHit p (s.sieve.hits.drop 1) (flagF s SIV_RES_MULTI) s

/-- SIEVE_NEXT: the next match in winner order; after the last, HIT reads 0. -/
def execSieveNext (s : State) : Result := .next (sieveNext s)

/-! ### Partitions (R335, R342) -/

def clearPart (p : Nat) (s : State) : State := setPart p [] s

/-- The partitions of a function are cleared at its reset (R342). -/
def clearOwned (f : Nat) (s : State) : State :=
  (List.range 14).foldl (fun a i => if getF a (SIV_PART_OWNER (i + 2)) = f then clearPart (i + 2) a else a) s

/-- At BOOT the sizes are taken and partitions 2 to 15 are cleared; BASE_K follows (R335, R342). -/
def sieveBoot (s : State) : State :=
  let sizes := (List.range 16).map (fun p =>
    (p, if p = 0 then 16384 else if p = 1 then 8192 else getF s (SIV_PART_SIZE_K p) * 1024))
  let s1 := (List.range 14).foldl (fun a i => clearPart (i + 2) a) { s with sieve := { s.sieve with sizes := sizes, hits := [] } }
  (List.range 16).foldl (fun a p => setF (SIV_PART_BASE_K p) (partBase a p / 1024) a) s1

/-- A function may use a partition (R342). -/
def maySieve (s : State) (f p : Nat) : Bool := getF s (SIV_PART_OWNER p) == f || flagF s (SIV_PART_ANY p)

end Sys2Proof.Machine
end

