-- ==== Sys2Proof/Machine/Crypto.lean ====
section
/-!
DEFINITION. Digests on the register path, lane contexts, key slots, the media key table and key blobs
(spec/13_digest_cipher_engines.md R289 to R308, R315, R316).
-/

namespace Sys2Proof.Machine

/-! ### Saved contexts (R297, R298) -/

/-- A context of the pool a yield may use is free: 0 to 238 for compute, 240 to 255 for a yield to sealing. -/
def contextFree (s : State) (sealing : Bool) : Bool :=
  (s.crypt.contexts.filter (fun c => c.2.2 == sealing && c.1 != 0)).length < (if sealing then 16 else 239)

/-- A job of one of these kinds needs a saved context to yield: a digest job one of the lanes', a GCM job one of its own 64; XTS and
CTR carry their state in the job (R297). -/
def isGcm (d : GNode) : Bool := d.kind == .cipher && (pByte d 24 == 3 || pByte d 24 == 4)

/-- The job finds the context it must take to yield; `sealing` says that it yields to sealing. -/
def mayYield (s : State) (d : GNode) (sealing : Bool) : Bool :=
  if d.kind == .digest then contextFree s sealing else !isGcm d || s.crypt.gcm.length < 64

/-- The context of a job that yields is saved. -/
def saveContext (h n : Nat) (d : GNode) (sealing : Bool) (s : State) : State :=
  showContexts (if d.kind == .digest then
      { s with crypt := { s.crypt with contexts := s.crypt.contexts ++ [(h, n, sealing)] } }
    else if isGcm d then { s with crypt := { s.crypt with gcm := s.crypt.gcm ++ [(h, n)] } }
    else s)

/-- A job yields its lane or pipeline at a group boundary, or keeps it for want of a context (R298). -/
def yieldJob (e h n : Nat) (d : GNode) (sealing : Bool) (s : State) : State :=
  if mayYield s d sealing then incF DIG_YIELDS 1 (fillEng e (leaveTurn e (h, n) (saveContext h n d sealing s)))
  else incF DIG_NO_CONTEXT 1 s

/-- Nanoseconds that a lane takes for a block group (R289). -/
def groupNs (alg : Nat) : Nat :=
  match alg with
  | 1 => 5120
  | 4 => 3600
  | 5 => 4710
  | _ => 3200

/-- Bytes of a block group (R289). -/
def groupBytes (alg : Nat) : Nat := if alg = 4 then 16320 else if alg = 5 then 16328 else 16384

/-- What a job takes of its engine's allotment at a group boundary: the lane's nanoseconds for a group, or the group's bytes
(R19, R289, R297). -/
def groupCost (d : GNode) : Nat := if d.kind == .digest then groupNs (pByte d 24) else 16384

/-- DIGEST_GROUP_DONE (R297, R298): a job on a lane or a pipeline reaches a group boundary. Its class is charged for the group, and
the job yields where R298 says so. -/
def execDigestGroupDone (frac graph node : Nat) (s : State) : Result :=
  let s := atFrac frac s
  .next (match nodeDesc s graph node with
  | none => s
  | some d =>
    let e := if d.kind == .digest then 0 else 1
    if (d.kind != .digest && d.kind != .cipher) || !(engQ s e).on.contains (graph, node) then s
    else
      let s1 := spendEng e (graphClass s graph) (groupCost d) s
      let why := yieldWhy s1 e (graph, node)
      if why = 0 then s1 else yieldJob e graph node d (why == 1) s1)

/-! ### Key slots (R304) -/

def keySlot (s : State) (k : Nat) : Option KeySlot := mget s.crypt.slots k

/-- A job of function `f` may use the slot for a USE. -/
def slotFits (s : State) (f k : Nat) (uses : List Nat) : Bool :=
  (keySlot s k).any (fun x => uses.contains x.use && (x.owner == f || x.any))

/-- SLOT_INFO shows the selected slot, USAGE the number of slots that hold keys. -/
def showSlots (s : State) : State :=
  let x := keySlot s (getF s CIP_SLOT_SEL)
  let put (f : Fld) (g : KeySlot → Nat) (a : State) : State := setF f ((x.map g).getD 0) a
  setF CIP_USAGE_SLOTS_USED s.crypt.slots.length (put CIP_SLOT_INFO_VALID (fun _ => 1) (put CIP_SLOT_INFO_USE (·.use)
    (put CIP_SLOT_INFO_OWNER (·.owner) (put CIP_SLOT_INFO_ANY (fun y => bit y.any)
      (put CIP_SLOT_INFO_KEY_LEN (·.key.length) s)))))

def setSlot (k : Nat) (x : KeySlot) (s : State) : State :=
  showSlots { s with crypt := { s.crypt with slots := mset s.crypt.slots k x } }

def clearSlot (k : Nat) (all : Bool) (s : State) : State :=
  showSlots { s with crypt := { s.crypt with slots := if all then [] else merase s.crypt.slots k } }

/-- SLOT_CLEAR (R304, R316). -/
def execSlotClear (slot : Nat) (all : Bool) (s : State) : Result := .next (clearSlot (slot % 1024) all s)

/-! ### The register path (R292, R293, R315) -/

def setFeed (f : Option Feed) (s : State) : State :=
  let n := (f.map (·.count)).getD (getF s DIG_FEED_COUNT_LO + getF s DIG_FEED_COUNT_HI * 2 ^ 32)
  setF DIG_FEED_STATUS_OPEN (bit (f.any (fun x => !x.closed))) (setF DIG_FEED_COUNT_LO (n % 2 ^ 32)
    (setF DIG_FEED_COUNT_HI (n / 2 ^ 32) { s with crypt := { s.crypt with feed := f } }))

def clearResult (s : State) : State := (List.range 16).foldl (fun a i => setF (DIG_FEED_RESULT i) 0 a) s

/-- The feed's context 239 is held or freed; the contexts of compute jobs stand beside it. -/
def holdFeed (on : Bool) (s : State) : State :=
  showContexts { s with crypt := { s.crypt with contexts :=
    if on then s.crypt.contexts ++ [(0, 0, false)] else s.crypt.contexts.filter (fun c => c.1 != 0) } }

/-- A write of FEED_OPEN. -/
def feedOpen (v : Nat) (s : State) : State :=
  let alg := bits v 2 0
  let hmac := bitAt v 3
  let trunc := bits v 9 5
  let slot := bits v 25 16
  if s.crypt.feed.isSome then setF DIG_FEED_STATUS_BUSY 1 s
  else if alg == 0 || 6 ≤ alg || (hmac && (3 < alg || !slotFits s 0 slot [5])) ||
      (trunc != 0 && (trunc < 4 || digestLen alg < 4 * trunc)) then setF DIG_FEED_STATUS_BAD 1 s
  else
    let f : Feed := { alg := alg, hmac := hmac, compare := bitAt v 4, trunc := if trunc = 0 then digestLen alg else 4 * trunc,
                      key := ((keySlot s slot).map (·.key)).getD [],
                      len := getF s DIG_FEED_LEN_LO + getF s DIG_FEED_LEN_HI * 2 ^ 32 }
    holdFeed true (setFeed (some f) s)

def execFeedOpen (value : Nat) (s : State) : Result := .next (feedOpen value s)

/-- A feed's block groups are absorbed by a lane in the class of the PF, whose allotment they take (R292). -/
def spendFeed (alg groups : Nat) (s : State) : State := spendEng 0 (qosOf s 0).cls (groups * groupNs alg) s

/-- A write of FEED_DATA: a word that would pass FEED_LEN is ignored, and the feed ends in a mismatch. -/
def feedData (w : Nat) (s : State) : State :=
  match s.crypt.feed with
  | none => s
  | some f =>
    if f.closed then s
    else if f.len < f.count + 4 then setFeed (some { f with tooLong := true }) s
    else
      let s1 := setFeed (some { f with count := f.count + 4, data := f.data ++ le 4 w }) s
      if (f.count + 4) % groupBytes f.alg = 0 then spendFeed f.alg 1 s1 else s1

def execFeedData (word : Nat) (s : State) : Result := .next (feedData word s)

/-- A write of FEED_LAST: the count is checked against FEED_LEN. -/
def feedLast (w : Nat) (s : State) : State :=
  match s.crypt.feed with
  | none => s
  | some f =>
    if f.closed then s
    else
      let v := getF s DIG_FEED_LASTV
      let n := f.count + v
      let s1 := setF DIG_FEED_COUNT_LO (n % 2 ^ 32) (setF DIG_FEED_COUNT_HI (n / 2 ^ 32) s)
      if f.tooLong || n != f.len then setF DIG_FEED_STATUS_MISMATCH 1 (clearResult (holdFeed false (setFeed none s1)))
      else setFeed (some { f with count := n, data := f.data ++ (le 4 w).take v, closed := true }) s1

def execFeedLast (word : Nat) (s : State) : Result := .next (feedLast word s)

def feedAbort (s : State) : State := if s.crypt.feed.isSome then holdFeed false (setFeed none s) else s

def execFeedAbort (s : State) : Result := .next (feedAbort s)

/-- The digest or HMAC of a feed. -/
def feedDigest (f : Feed) : Bytes :=
  if f.hmac then fixLen (digestLen f.alg) (Config.rawHmac f.alg f.key f.data) else digest f.alg f.data

/-- The value written to FEED_EXPECT. -/
def expectBytes (s : State) : Bytes :=
  ((List.range 16).map (fun i => le 4 ((mget s.crypt.expect i).getD 0).toNat)).flatten

/-- A faulty compare flag pair (R295): no result, and a blot. -/
def compareFault (engine flags : Nat) (s : State) : State := blot 0x0702 2 engine (le 1 flags) s

/-- EQ and EQ_N read 0 while DONE is 0 (R315). -/
def dropEq (s : State) : State :=
  if flagF s DIG_FEED_STATUS_DONE then s else setF DIG_FEED_STATUS_EQ 0 (setF DIG_FEED_STATUS_EQ_N 0 s)

/-- FEED_DONE (R292, R294, R295): the result of a closed feed; `flags` other than 0 is a faulty flag pair. -/
def execFeedDone (flags : Nat) (s : State) : Result :=
  .next (match s.crypt.feed with
  | none => s
  | some f =>
    if !f.closed then s
    else
      let s1 := setF DIG_FEED_STATUS_DONE 1 (holdFeed false (setFeed none (spendFeed f.alg 1 s)))
      let d := feedDigest f
      if !f.compare then
        setF DIG_FEED_STATUS_EQ 0 (setF DIG_FEED_STATUS_EQ_N 0 ((List.range 16).foldl
          (fun a i => setF (DIG_FEED_RESULT i) (leAt d (4 * i) 4) a) s1))
      else if flags != 0 then compareFault 0 flags (dropEq (setF DIG_FEED_STATUS_DONE 0 (setF DIG_FEED_STATUS_FAULT 1 (clearResult s1))))
      else
        let eq := d.take f.trunc == (expectBytes s).take f.trunc
        setF DIG_FEED_STATUS_EQ (bit eq) (setF DIG_FEED_STATUS_EQ_N (bit (!eq)) (clearResult s1)))

/-! ### Media keys and key blobs (R303, R305, R307, R308) -/

/-- A fresh key for a namespace (R305). -/
def newMediaKey (nsid : Nat) (s : State) : State :=
  { s with crypt := { s.crypt with
      mediaKeys := mset s.crypt.mediaKeys nsid (fixLen 64 (Config.randomKey s.crypt.keyCount)),
      keyCount := s.crypt.keyCount + 1 } }

/-- Key lengths of a USE (R307). -/
def useLenOk (use n : Nat) : Bool :=
  match use with
  | 1 => n == 64
  | 2 => n == 16
  | 3 => n == 32
  | 4 => n == 32
  | 5 => 16 ≤ n && n ≤ 128
  | 6 => n == 32
  | 7 => n == 48
  | 8 => n == 32
  | _ => false

/-- The public half of the import key pair. -/
def importPub : Bytes := fixLen 65 (Config.rawPublicKey 1 (rootSecret (ascii "NB7640 IMPORT")))

def showImport (s : State) : State :=
  (List.range 17).foldl (fun a i => setF (CIP_IMPORT_PUB i) (leAt importPub (4 * i) 4) a) s

/-- The key-encryption key of a blob. -/
def blobKek (s : State) (b : Bytes) : Bytes :=
  if byteAt b 4 = 0 then
    digest 1 (le 1 5 ++ Config.rawEcdh 1 (rootSecret (ascii "NB7640 IMPORT")) (slice b 16 65) ++ slice b 16 65 ++ slice b 0 16)
  else ((keySlot s (leAt b 6 2)).map (·.key)).getD []

/-- The unwrapped key of a blob. -/
def blobKey (s : State) (wrap : Nat) (b : Bytes) : Option Bytes := Config.rawUnwrap wrap (blobKek s b) (b.drop 96)

/-- Bytes of key material that a wrapped string of `n` bytes holds: n − 8 for RFC 3394; RFC 5649 pads. -/
def wrappedOk (wrap n : Nat) : Bool := 16 < n && n % 8 == 0 && (wrap == 1 || 24 ≤ n)

/-- The second row of R308. -/
def blobFieldsBad (s : State) (nsid slot wrap : Nat) (b : Bytes) : Bool :=
  byteAt b 0 != 0x20 || byteAt b 1 != 1 || 2 ≤ byteAt b 4 || byteAt b 5 == 0 || 9 ≤ byteAt b 5 || 2 ≤ wrap ||
    bitAt (byteAt b 8) 7 || 2 ≤ byteAt b 9 || !allZero (slice b 10 6) || !allZero (slice b 81 15) || 1024 ≤ leAt b 6 2 ||
    (byteAt b 4 == 0 && leAt b 6 2 != 0) || (byteAt b 4 == 1 && !allZero (slice b 16 65)) ||
    (byteAt b 4 == 1 && !(keySlot s (leAt b 6 2)).any (fun x => x.use == 4)) || !wrappedOk wrap (b.length - 96) ||
    (wrap == 0 && !useLenOk (byteAt b 5) (b.length - 104)) ||
    (nsid != 0 && (byteAt b 5 != 1 || byteAt b 8 != 0 || byteAt b 9 != 0 || slot != 0))

/-- The rows of R308 that need no unwrap. -/
def blobForm (s : State) (nsid numd slot wrap : Nat) (b : Bytes) : Option Status :=
  firstError [
    (leAt b 2 2 != (numd + 1) * 4, .lengthMismatch),
    (blobFieldsBad s nsid slot wrap b, .invalidField),
    (nsid != 0 && (getNs s nsid).any (fun n => !n.map.isEmpty), .commandSequenceError)]

/-- The checks of R308 in order. -/
def blobError (s : State) (nsid numd slot wrap : Nat) (b : Bytes) : Option Status :=
  (blobForm s nsid numd slot wrap b).or <| firstError [
    (byteAt b 4 == 0 && !Config.pointValid 1 (slice b 16 65), .keyUnwrapFail),
    ((blobKey s wrap b).isNone, .keyUnwrapFail),
    (!(blobKey s wrap b).any (fun k => useLenOk (byteAt b 5) k.length), .invalidField)]

/-- A key blob that passes takes its slot, or the namespace's entry of the media key table. -/
def applyBlob (nsid slot wrap : Nat) (b : Bytes) (s : State) : State :=
  match blobKey s wrap b with
  | none => s
  | some k =>
    if nsid != 0 then { s with crypt := { s.crypt with mediaKeys := mset s.crypt.mediaKeys nsid k } }
    else setSlot slot { use := byteAt b 5, owner := byteAt b 8, any := bitAt (byteAt b 9) 0, key := k } s

end Sys2Proof.Machine
end

