-- ==== Sys2Proof/Machine/Media.lean ====
section
/-!
DEFINITION. What the dies return (spec/08_flash_media.md R163 to R180, spec/09 R190 to R192, R199 to R205, spec/04 R84 to R86):
reads and their decoding, programs, erases, timeouts, suspends, rebuilds and deferred errors.
-/

namespace Sys2Proof.Machine

/-! ### Deferred errors (R84 to R86) -/

/-- The 64 bytes of an entry of log C2h (R86). -/
def lossBytes (e : LossEntry) : Bytes :=
  le 8 e.id ++ le 4 e.nsid ++ le 2 e.fn ++ le 2 e.sqid ++ le 8 e.lba ++ le 4 e.count ++ le 2 e.cid ++ le 1 e.cause
    ++ le 1 (bit e.sealed) ++ le 8 e.doneAt ++ le 8 e.stroke ++ zeros 16

/-- Data whose completion was posted is lost (R84): the log, the LOSS record, the blot, the event, and the next command
of each attached function to the namespace. -/
def deferredError (e : LossEntry) (s : State) : State :=
  let e1 := { e with id := s.ftl.lossId }
  let s1 := { s with ftl := { s.ftl with losses := (e1 :: s.ftl.losses).take 256, lossId := s.ftl.lossId + 1 } }
  let s2 := updNs e.nsid (fun n => { n with lost := n.lost ++ [(e.lba, e.count)] }) s1
  let s3 := blot 0x0404 3 e.nsid (le 8 e1.id) s2
  let s4 := addRec 0x15 (fixLen 64 (fixLen 48 (lossBytes e1))) s3
  let fs := match getNs s e.nsid with
    | some n => n.attached
    | none => []
  vendorEvent 1 (fs.foldl (fun a f => updFn f (fun x => { x with deferred := if x.deferred.contains e.nsid then x.deferred else x.deferred ++ [e.nsid] }) a) s4)

/-! ### Completing reads (R42, R51, R87) -/

/-- The class position of a function's reads in a die queue (R93, R169). -/
def readPos (s : State) (f : Nat) : Nat :=
  match (qosOf s f).cls with
  | 0 => 2
  | 1 => 3
  | _ => 5

/-- Data goes to the host's memory. -/
def hostWrite (f cid : Nat) (data : Bytes) (s : State) : State :=
  if f = 0 && follower s then oxvTo ((headOf s).getD 0) 10 (proxyPayload 4 [cid] data) s
  else hostOut f cid data s

/-- Read bytes that a Read still has to transfer. Compare, Verify and VERIFY RANGE are charged as their own transfers are scheduled,
before the media reads (R92). -/
def readCost (c : Cmd) : Nat :=
  match c.kind with
  | .read _ _ data => data.length
  | _ => 0

/-- The command reads, and its map is resolved. -/
def Cmd.reads (c : Cmd) : Bool :=
  match c.kind with
  | .read _ _ _ | .compare _ _ _ _ | .verify _ _ _ | .verifyRange _ _ _ _ => !c.blocked
  | _ => false

/-- The completion of a command whose reads are all in. -/
def endRead (c : Cmd) (s : State) : State :=
  match c.kind with
  | .read _ _ data => complete c.fn c.sqid c.cid .success 0 0 (hostWrite c.fn c.cid data s)
  | .compare _ _ host data =>
    complete c.fn c.sqid c.cid (if host = data then .success else .compareFailure) 0 0 s
  | .verify _ _ _ => complete c.fn c.sqid c.cid .success 0 0 s
  | .verifyRange lba n chain _ =>
    match getNs s c.nsid with
    | none => s
    | some x =>
      let r := verifyStrokes s x lba n chain
      complete c.fn c.sqid c.cid (if r.2.isSome then .compareFailure else .success) r.1 (r.2.getD 0) s
  | _ => s

/-- A command whose reads are all in ends: a Read's bytes are charged as its transfer is scheduled, and with the budget spent it
waits (R42, R92); so it does while its function may not write to the host (R60). The others have nothing left to transfer, and their
completion waits for no grant (R100); the signature that CHAIN checks waits for the signature unit (R309). A codeword that no rebuild
recovers ends a command with Unrecovered Read Error (R91); VERIFY RANGE counts it as a failing stroke. -/
def finishCmd (c : Cmd) (s : State) : State :=
  let cls := (qosOf s c.fn).cls
  let ends (a : State) : State := endRead c (dropCmd c.fn c.sqid c.cid a)
  let lost := c.failed && (match c.kind with | .verifyRange _ _ _ _ => false | _ => true)
  if lost then complete c.fn c.sqid c.cid .unrecoveredRead 0 0 (dropCmd c.fn c.sqid c.cid s)
  else match c.kind with
  | .read _ _ _ =>
    if !mayWriteHost s c.fn || (0 < readCost c && !affords s c.fn .rdBytes) then
      updCmd c.fn c.sqid c.cid (fun x => { x with held := true }) s
    else ends (charge c.fn .rdBytes (readCost c) s)
  | .verifyRange _ _ true _ =>
    if signFree s cls then ends (spendSign cls s) else pushSign (.cmd (.check c.fn c.sqid c.cid)) s
  | _ => ends s

/-- A codeword a command waits for has come (or is lost). -/
def deliver (f sqid cid die unit : Nat) (ok : Bool) (s : State) : State :=
  let s1 := updCmd f sqid cid (fun c => { c with
    wants := c.wants.filter (· != (die, unit)), failed := c.failed || !ok }) s
  match findCmd s1 f sqid cid with
  | none => s1
  | some c => if c.wants.isEmpty && c.reads then finishCmd c s1 else s1

/-- Reads that wait for a budget or for the host side go on (R42, R60). -/
def resumeReads (s : State) : State :=
  (serveOrder s (·.fn) s.cmds).foldl (fun a c => if c.held && c.reads && c.wants.isEmpty then finishCmd { c with held := false }
    (updCmd c.fn c.sqid c.cid (fun x => { x with held := false }) a) else a) s

/-! ### Threshold tracking (R179) -/

/-- A step-1 success: the counters, and a step after 64 codewords. A (die, group) changes at most once a stroke. -/
def trackHard (die unit : Nat) (r : DecodeRes) (s : State) : State :=
  if !flagF s LDP_CTL_TRACK_EN then s
  else
    let group := groupOf s die unit
    let key := trackKey group (pageType die unit)
    let x := getDie s die
    let c := (mget x.track key).getD (0, 0, 0)
    let c1 := (c.1 + r.up, c.2.1 + r.down, c.2.2 + 1)
    if c1.2.2 < 64 then updDie die (fun y => { y with track := mset y.track key c1 }) s
    else
      let s1 := updDie die (fun y => { y with track := mset y.track key (0, 0, 0) }) s
      let sum := c1.1 + c1.2.1
      let step := if c1.1 * 8 + sum < c1.2.1 * 8 then some (-1) else if c1.2.1 * 8 + sum < c1.1 * 8 then some 1 else none
      match step with
      | some k => moveLevels die group (pageType die unit) k s1
      | none => s1

/-- A step-2 success sets the offsets of the page type to those at which it was read. -/
def trackRetry (die unit tries : Nat) (s : State) : State :=
  if flagF s LDP_CTL_TRACK_EN then moveLevels die (groupOf s die unit) (pageType die unit) (shiftOf s tries) s else s

/-! ### Reads (R172, R174, R175, R191, R203, R205) -/

/-- The end of a read for the node that waits for it (R271). -/
def deliverNode (h n die unit : Nat) (ok : Bool) (s : State) : State :=
  updNode h n (fun x => { x with job := { x.job with
    wants := x.job.wants.filter (· != (die, unit)), lost := x.job.lost || !ok } }) s

/-- A member of a stripe has been read for a rebuild (R191). -/
def deliverMember (die unit : Nat) (ok : Bool) (s : State) : State :=
  { s with ftl := { s.ftl with rebuilds := s.ftl.rebuilds.map (fun r =>
    if r.waits.contains (die, unit) then { r with waits := r.waits.filter (· != (die, unit)), lost := r.lost + bit (!ok) } else r) } }

/-- The end of a read for its requester: a host command, a node, a stripe rebuild, a copy, or none. -/
def deliverOp (die : Nat) (q : QueuedOp) (ok : Bool) (s : State) : State :=
  match q.op with
  | .read unit count =>
    (match q.who, q.node with
    | some w, _ => deliver w.1 w.2.1 w.2.2 die unit ok s
    | none, some n => deliverNode n.1 n.2 die unit ok s
    | none, none =>
      if q.why = 6 then deliverMember die unit ok s
      else if (q.why = 1 || q.why = 2 || q.why = 4) && ok then
        match mediaAt s die unit with
        | none => s
        | some c =>
          if unitValid s die unit c then
            stage { id := 0, kind := c.kind, nsid := c.nsid, lba := c.lba, seq := c.seq, data := mediaRaw s die unit count,
                    stroke := s.time.stroke, source := some (die, unit), origin := some c.wrote, pos := c.pos, enc := true } s
          else s
      else s)
  | _ => s

/-- Corrected bits beyond CORR_PCT percent of 120 schedule a refresh (R203). -/
def refreshCheck (die unit bitsCorr : Nat) (s : State) : State :=
  if getF s FTL_REFRESH_CORR_PCT * 120 < bitsCorr * 100 then scheduleRefresh die (memberOf die unit) s else s

/-- DISTURB: a block's reads since its erase; above the limit the whole block is tilled at once (R205). -/
def countRead (die unit : Nat) (s : State) : State :=
  let m := memberOf die unit
  let n := (mget (getDie s die).reads m).getD 0 + 1
  if getF s FTL_DISTURB_READS_K * 1000 < n then
    let pages := (programmedPages s).filter (fun p => p.1 == die && memberOf die p.2 == m)
    pages.foldl (fun a p => queueOp die { pos := 5, op := .read p.2 4, why := 3 } a)
      (updDie die (fun x => { x with reads := mset x.reads m 0 }) s)
  else updDie die (fun x => { x with reads := mset x.reads m n }) s

/-- The suspended operation goes on (R171). -/
def resumeDie (d : Nat) (q : QueuedOp) (s : State) : State :=
  emit (.nand (d / 16) d 6 1) (updDie d (fun y => { y with running := some q, suspended := none, served := 0, startedAt := now s }) s)

/-- The die takes its next operation: inside a suspend reads only, up to 8, and then the resume (R171). -/
def nextOp (d : Nat) (s : State) : State :=
  let x := getDie s d
  match x.suspended with
  | none => startDie d s
  | some q =>
    match firstOp ((offered s d x).filter (fun z => z.op.readAt.isSome)) with
    | some r =>
      if x.served < 8 then runOp d r (updDie d (fun y => { (y.pull r) with served := y.served + 1 }) s) else resumeDie d q s
    | none => resumeDie d q s

def idleDie (d : Nat) (s : State) : State := nextOp d (updDie d (fun x => { x with running := none }) s)

/-- A stripe member that no read can return: its die is fenced or was cleared, or it is lost (R191). -/
def memberGone (s : State) (t : Slot) (off : Nat) : Bool :=
  t.st == .gone || (getDie s t.die).st != 1 || (mediaAt s t.die (t.unit + off)).any (·.lost)

/-- Step 4 of R174: the other members of the stripe are read, each through steps 1 to 3 (R191); a codeword that no stripe holds has
lost its members. -/
def startRebuild (d unit : Nat) (q : QueuedOp) (s : State) : State :=
  let slot := (bandOf s d unit).bind (fun e => (e.2.slots.find? (fun t => t.die == d && t.unit ≤ unit && unit < t.unit + slotCws d)).map
    (fun t => (e.2, t)))
  match slot with
  | none => { s with ftl := { s.ftl with rebuilds := s.ftl.rebuilds ++ [{ die := d, unit := unit, req := q, waits := [], lost := 1 }] } }
  | some (b, t) =>
    let off := unit - t.unit
    let peers := b.slots.filter (fun x => x.row == t.row && x.die != d && (x.st == .passed || x.st == .gone))
    let good := peers.filter (fun x => !memberGone s x off)
    good.foldl (fun a x => queueOp x.die { pos := q.pos, op := .read (x.unit + off) 1, why := 6 } a)
      { s with ftl := { s.ftl with rebuilds := s.ftl.rebuilds ++ [{
        die := d, unit := unit, req := q, waits := good.map (fun x => (x.die, x.unit + off)), lost := peers.length - good.length }] } }

/-- Every codeword that a read has left is rebuilt. -/
def rebuildRead (d : Nat) (q : QueuedOp) (s : State) : State :=
  q.cws.foldl (fun a u => startRebuild d u q a) { s with ftl := { s.ftl with fixing := s.ftl.fixing ++ [{ die := d, req := q, left := q.cws }] } }

/-- A read whose data cannot come from this die: it is rebuilt on demand (R192); tilling and the members of a rebuild go no further
(R191, R204). -/
def readLost (d : Nat) (q : QueuedOp) (s : State) : State :=
  if q.why = 3 || q.why = 6 then deliverOp d q false s else rebuildRead d q s

/-- A codeword is recovered by step 3 or 4, or lost; with the last one of a read the read ends. -/
def recovered (die unit : Nat) (ok : Bool) (s : State) : State :=
  match s.ftl.fixing.find? (fun f => f.die == die && f.left.contains unit) with
  | none => s
  | some f =>
    let f1 := { f with left := f.left.filter (· != unit), lost := f.lost || !ok }
    let rest := dropFirst (fun g => g == f) s.ftl.fixing
    if f1.left.isEmpty then place (deliverOp die f.req (!f1.lost) { s with ftl := { s.ftl with fixing := rest } })
    else { s with ftl := { s.ftl with fixing := f1 :: rest } }

/-! ### Refused operations (R163, R170, R172) -/

/-- The map entry that a codeword's unit has now. -/
def entryNow (s : State) (d u : Nat) : Option Loc :=
  (mediaAt s d u).bind (fun c => (getNs s c.nsid).bind (fun x => mget x.map (c.lba / x.unitBlocks)))

/-- A requester waits for another place. -/
def retarget (q : QueuedOp) (old new : Nat × Nat) (s : State) : State :=
  let swap (l : List (Nat × Nat)) : List (Nat × Nat) := l.map (fun w => if w == old then new else w)
  match q.who, q.node with
  | some w, _ => updCmd w.1 w.2.1 w.2.2 (fun c => { c with wants := swap c.wants }) s
  | none, some n => updNode n.1 n.2 (fun x => { x with job := { x.job with wants := swap x.job.wants } }) s
  | none, none => s

/-- A read of a block that is being erased, or of a page that is being programmed: the entry is resolved again, and the read is issued at
the new copy; what is in the Inkwell comes from there (R17, R172). -/
def reissue (d u count : Nat) (q : QueuedOp) (s : State) : State :=
  if q.who.isNone && q.node.isNone then deliverOp d q false s
  else match entryNow s d u with
    | some (.media d2 u2) =>
      if d2 = d && u2 = u then deliverOp d q true s
      else queueOp d2 { q with op := .read u2 count, tries := 0, left := none } (retarget q (d, u) (d2, u2) s)
    | _ => deliverOp d q true s

/-- What the translation layer does with an operation that came back (R170). -/
def answerOp (d : Nat) (q : QueuedOp) (st : OpStatus) (s : State) : State :=
  match q.op, st with
  | .read u n, .eraseBusy | .read u n, .programBusy => reissue d u n q s
  | .read _ _, .fenced => readLost d q s
  | .read _ _, .address => deliverOp d q false s
  | .readSoft u, _ => if q.why = 3 || q.why = 6 then recovered d u false s else startRebuild d u q s
  | .program id i, _ => slotFail d id i s
  | .erase _ id, _ => updBand id (fun b => { b with members := merase b.members d }) s

/-- Refused operations go back to their requesters. -/
def answerRound (s : State) : State :=
  s.ftl.refused.foldl (fun a r => answerOp r.1 r.2.1 r.2.2 a) { s with ftl := { s.ftl with refused := [] } }

/-- What they issue in their place may be refused in its turn: a read moves to a new copy, and then to a rebuild. -/
def settleOps (s : State) : State := answerRound (answerRound (answerRound s))

/-! ### Steps 1 to 3 (R174 to R178) -/

/-- Step 1 or 2 decodes a codeword: 120 errors within 20 iterations for certain (R175). -/
def hardOk (s : State) (r : DecodeRes) : Bool := r.decoded || (r.up + r.down ≤ 120 && getF s LDP_CTL_HARD_ITER == 20)

/-- A codeword that is decoded at step 1 or 2. -/
def hardDone (die tries : Nat) (s : State) (e : Nat × DecodeRes) : State :=
  let s1 := refreshCheck die e.1 (e.2.up + e.2.down) s
  if tries = 0 then trackHard die e.1 e.2 (incF LDP_HARD_OK 1 s1) else trackRetry die e.1 tries (incF LDP_RETRY_OK 1 s1)

/-- The next try of a read; inside a suspend it counts as one of the 8 reads, and with those served it waits for the resume (R172). -/
def retryRead (die : Nat) (q : QueuedOp) (s : State) : State :=
  let x := getDie s die
  if x.suspended.isSome && 8 ≤ x.served then idleDie die (updDie die (fun y => { y with queue := q :: y.queue }) s)
  else runOp die q (updDie die (fun y => { y with served := y.served + bit y.suspended.isSome }) s)

/-- The codewords that no retry decodes take READ_SOFT, one at a time. -/
def softReads (die : Nat) (q : QueuedOp) (left : List Nat) (s : State) : State :=
  left.foldl (fun a u => queueOp die { q with op := .readSoft u, tries := 0, left := none } a)
    { s with ftl := { s.ftl with fixing := s.ftl.fixing ++ [{ die := die, req := q, left := left }] } }

/-- What the results of a READ lead to: the next try for those that failed while LDP_CTL.RETRIES lasts, then step 3 (R174). -/
def readResults (die : Nat) (q : QueuedOp) (res : List DecodeRes) (s : State) : State :=
  let rs := q.cws.zip res
  let left := q.cws.filter (fun u => !rs.any (fun e => e.1 == u && hardOk s e.2))
  let s1 := (rs.filter (fun e => hardOk s e.2)).foldl (hardDone die q.tries) s
  if left.isEmpty then idleDie die (place (deliverOp die { q with tries := 0, left := none } true s1))
  else if q.tries < getF s LDP_CTL_RETRIES then retryRead die { q with tries := q.tries + 1, left := some left } s1
  else idleDie die (softReads die q left s1)

/-- NAND_READ_DONE (R174, R175, R179, R203): the results of the codewords of a READ in their order; a READ_SOFT hands its codeword to the
deep decoder. -/
def execNandReadDone (die : Nat) (res : List DecodeRes) (s : State) : Result :=
  .next (match (getDie s die).running with
  | some q =>
    match q.op with
    | .read unit _ => settleOps (readResults die q res (countRead die unit s))
    | .readSoft u =>
      let w : DeepWait := { die := die, unit := u, cls := q.pos - 2, waited := 0, req := q }
      settleOps (idleDie die { s with ftl := { s.ftl with deepQ := s.ftl.deepQ ++ [w] } })
    | _ => s
  | none => s)

/-- The class a waiting codeword counts as: aged ones count as evidence-real-time (R178). -/
def deepClass (s : State) (w : DeepWait) : Nat := if getF s LDP_DEEP_AGE_STROKES ≤ w.waited then 0 else min w.cls 2

/-- The key of an allotment: channel and class. -/
def deepKey (channel cls : Nat) : Nat := channel * 4 + cls

/-- DEEP_DECODER_ALLOT (R177, R178): the capacity in class order; within a class each channel's share in proportion to
its waiting count. -/
def deepBoundary (scale : Nat) (s : State) : State :=
  let cap := 2197 * s.time.period / 1000 * scale / 256
  let q := s.ftl.deepQ.map (fun w => { w with waited := w.waited + 1 })
  let s0 := { s with ftl := { s.ftl with deepQ := q } }
  let count (ch cls : Nat) := (q.filter (fun w => w.die / 16 == ch && deepClass s0 w == cls)).length
  let total (cls : Nat) := (q.filter (fun w => deepClass s0 w == cls)).length
  let step (a : Nat × Map Nat) (cls : Nat) : Nat × Map Nat :=
    let n := total cls
    let given := min n a.1
    let share (ch : Nat) := count ch cls * given / max 1 n
    (a.1 - ((List.range 16).map share).sum, (List.range 16).foldl (fun m ch =>
      if count ch cls = 0 then m else mset m (deepKey ch cls) (share ch)) a.2)
  let r := [0, 1, 2].foldl step (cap, [])
  setF LDP_DEEP_CAPACITY cap { s0 with ftl := { s0.ftl with deepAllot := r.2, deepSpare := r.1 } }

/-- What is left of the allotment that a waiting codeword draws on. -/
def deepLeft (s : State) (w : DeepWait) : Nat := (mget s.ftl.deepAllot (deepKey (w.die / 16) (deepClass s w))).getD 0

/-- A waiting codeword stands before another: by class, then by the round robin over the channels (R178). -/
def deepBefore (s : State) (a b : DeepWait) : Bool :=
  let turn (w : DeepWait) : Nat := (w.die / 16 + 15 - s.ftl.deepLast) % 16
  decide (deepClass s a < deepClass s b) || (deepClass s a == deepClass s b && decide (turn a < turn b))

/-- The codeword that the decoder takes next, if one has allotment. -/
def nextDeep (s : State) : Option DeepWait :=
  (s.ftl.deepQ.filter (fun w => 0 < deepLeft s w || 0 < s.ftl.deepSpare)).foldl (fun a w => match a with
    | none => some w
    | some v => if deepBefore s w v then some w else a) none

/-- A codeword has passed the deep decoder: it leaves the queue, its allotment is charged, and its block is scheduled for refresh (R203). -/
def chargeDeep (w : DeepWait) (s : State) : State :=
  let k := deepKey (w.die / 16) (deepClass s w)
  let left := deepLeft s w
  scheduleRefresh w.die (memberOf w.die w.unit)
    (updDie w.die (fun x => { x with deepCw := satAdd x.deepCw 1 (2 ^ 32 - 1) }) { s with ftl := { s.ftl with
      deepQ := dropFirst (fun x => x == w) s.ftl.deepQ, deepLast := w.die / 16,
      deepAllot := if left = 0 then s.ftl.deepAllot else mset s.ftl.deepAllot k (left - 1),
      deepSpare := if left = 0 then s.ftl.deepSpare - 1 else s.ftl.deepSpare } })

/-- DEEP_DECODE_DONE (R174, R175, R178): 360 errors are corrected for certain; a failure goes to the rebuild. -/
def execDeepDecodeDone (frac : Nat) (res : DecodeRes) (s : State) : Result :=
  let s := atFrac frac s
  .next (match nextDeep s with
  | none => s
  | some w =>
    let s1 := chargeDeep w s
    settleOps (if res.decoded || res.up + res.down ≤ 360 then recovered w.die w.unit true (incF LDP_DEEP_OK 1 s1)
    else if w.req.why = 3 || w.req.why = 6 then recovered w.die w.unit false (incF LDP_DEEP_FAIL 1 s1)
    else startRebuild w.die w.unit w.req (incF LDP_DEEP_FAIL 1 s1)))

/-- The writer and the arrival of a codeword's data that is lost beyond the stripe (R84, R86, R191). -/
def loseCodeword (die unit : Nat) (c : Codeword) (s : State) : State :=
  let m := mset ((mget s.ftl.media die).getD []) unit { c with lost := true }
  let s1 := { s with ftl := { s.ftl with media := mset s.ftl.media die m } }
  if c.lost || !unitValid s die unit c then s1
  else
    let blocks := match getNs s c.nsid with
      | some n => n.unitBlocks
      | none => 1
    deferredError {
      id := 0, nsid := c.nsid, fn := c.wrote.fn, sqid := c.wrote.sqid, lba := c.lba, count := blocks, cid := c.wrote.cid, cause := 2,
      sealed := c.kind == .sealed, doneAt := c.wrote.doneAt, stroke := c.wrote.stroke } s1

/-- STRIPE_REBUILD_DONE (R191): the members have all been read; rebuilt where none of them is lost, and queued for relocation;
otherwise lost. -/
def execStripeRebuildDone (frac die unit : Nat) (s : State) : Result :=
  let s := atFrac frac s
  .next (match s.ftl.rebuilds.find? (fun r => r.die == die && r.unit == unit && r.waits.isEmpty) with
  | none => s
  | some r =>
    let s1 := { s with ftl := { s.ftl with rebuilds := dropFirst (fun x => x == r) s.ftl.rebuilds } }
    settleOps (if r.lost = 0 then recovered die unit true (scheduleRefresh die (memberOf die unit) s1)
    else recovered die unit false (match mediaAt s1 die unit with
      | some c => loseCodeword die unit c s1
      | none => s1)))

/-! ### Programs, erases, timeouts, suspends -/

/-- NAND_PROGRAM_DONE (R161, R170, R190, R198): a QLC die that takes two passes runs the second after the first. -/
def execNandProgramDone (die : Nat) (pass : Bool) (s : State) : Result :=
  .next (match (getDie s die).running with
  | some q =>
    match q.op with
    | .program id i =>
      if pass && slotCws die == 64 && Config.twoPass die && q.tries == 0 then runOp die { q with tries := 1 } s
      else idleDie die (if pass then slotPass die id i s else slotFail die id i s)
    | _ => s
  | none => s)

/-- A member is erased: it is free again, its counts restart (R205), and when the band has no member left to erase it is
gone, with ERASE_DONE (R222). -/
def memberErased (die member id : Nat) (s : State) : State :=
  let s1 := updDie die (fun x => { x with
    freeMembers := if 3 ≤ (mget x.refreshed member).getD 0 then x.freeMembers else x.freeMembers ++ [member],
    retired := if 3 ≤ (mget x.refreshed member).getD 0 then x.retired ++ [member] else x.retired,
    erases := mset x.erases member (eraseCount x member + 1), reads := merase x.reads member,
    refreshed := merase x.refreshed member }) s
  let s2 := match mget s1.ftl.bands id with
    | some b =>
      let kept := ((mget s1.ftl.media die).getD []).filter (fun e =>
        !b.slots.any (fun t => t.die == die && t.unit ≤ e.1 && e.1 < t.unit + slotCws die))
      { s1 with ftl := { s1.ftl with media := mset s1.ftl.media die kept } }
    | none => s1
  let s3 := updBand id (fun b => { b with members := merase b.members die }) s2
  match mget s3.ftl.bands id with
  | some b => if b.members.isEmpty then
      journalAdd (.eraseDone id) { s3 with ftl := { s3.ftl with
        bands := merase s3.ftl.bands id,
        journal := s3.ftl.journal.filter (fun e => e.rec_ != .eraseIntent id) } }
    else s3
  | none => s3

/-- NAND_ERASE_DONE (R170, R199): a failed erase retires the member and loses nothing. -/
def execNandEraseDone (die : Nat) (pass : Bool) (s : State) : Result :=
  .next (match (getDie s die).running with
  | some q =>
    match q.op with
    | .erase m id =>
      if pass then idleDie die (memberErased die m id s)
      else
        let s1 := updDie die (fun x => { x with eraseFails := satAdd x.eraseFails 1 65535,
                                                retired := x.retired ++ [m],
                                                grownBad := satAdd x.grownBad 4 65535 }) s
        idleDie die (blot 0x0403 2 die (le 1 5 ++ le 4 m) (updBand id (fun b => { b with members := merase b.members die }) s1))
    | _ => s
  | none => s)

/-- The valid units of a fenced die are rebuilt (R192). -/
def startDieRebuild (die : Nat) (s : State) : State :=
  let lost := (s.ftl.bands.flatMap (fun e => bandValid s e.2)).filter (fun u => u.1 == die)
  lost.foldl (fun a u => rebuildRead die { pos := 4, op := .read u.2.1 u.2.2.kind.cws, why := 4 } a) s

/-- A die is fenced, at bring-up (2) or at runtime (3): its operations come back as FENCED, and its units are rebuilt (R163, R165,
R170, R192). -/
def isolateDie (die st code : Nat) (s : State) : State :=
  let x := getDie s die
  let s1 := (x.queue ++ x.backlog ++ x.running.toList ++ x.suspended.toList).foldl (fun a q => refuseOp die q .fenced a)
    (updDie die (fun y => { y with st := st, fence := code, queue := [], backlog := [], running := none, suspended := none }) s)
  let s2 := setF (MED_FENCE_DIES (die / 16)) (getF s1 (MED_FENCE_DIES (die / 16)) ||| 2 ^ (die % 16)) s1
  startDieRebuild die (setF FTL_STATUS_REBUILD 1 { s2 with ftl := { s2.ftl with rebuildDie := s2.ftl.rebuildDie ++ [die] } })

/-- A runtime fence writes its FAULT record. -/
def fenceDie (die code : Nat) (s : State) : State := faultRec 0x100 die s.time.stroke code (isolateDie die 3 code s)

/-- An operation of a die that was reset: a program or erase fails as by FAIL, a read goes to the rebuild (R165, R174). -/
def opTimedOut (die : Nat) (q : QueuedOp) (s : State) : State :=
  match q.op with
  | .program id i => slotFail die id i s
  | .erase m id => updBand id (fun b => { b with members := merase b.members die })
      (updDie die (fun x => { x with retired := x.retired ++ [m] }) s)
  | .read _ _ => readLost die q s
  | .readSoft u => if q.why = 3 || q.why = 6 then recovered die u false s else startRebuild die u q s

/-- NAND_TIMEOUT (R165): the die is reset, and the operation fails with what it had suspended; a second timeout within 1,024 strokes
fences the die, and with every usable die of the channel timed out in one stroke the channel is fenced with code 9. -/
def execNandTimeout (die : Nat) (s : State) : Result :=
  let x := getDie s die
  .next (match x.running with
  | none => s
  | some q =>
    let again : Bool := match x.timeoutAt with
      | some t => decide (s.time.stroke ≤ t + 1024)
      | none => false
    let s1 := emit (.nand (die / 16) die 8 0)
      (updDie die (fun y => { y with running := none, suspended := none, served := 0, timeoutAt := some s.time.stroke }) s)
    let s2 := x.suspended.toList.foldl (fun a p => opTimedOut die p a)
      (blot 0x0402 2 die (le 1 (opCode q.op) ++ le 1 (if again then 1 else 0)) (opTimedOut die q s1))
    let chan := (usableDies s2).filter (fun d => d / 16 == die / 16)
    settleOps (if chan.all (fun d => (getDie s2 d).timeoutAt == some s.time.stroke) && !chan.isEmpty then
      setF (MED_STATUS_CH_FENCED (die / 16)) 1 (setF (MED_FAULT_CODE (die / 16)) 9
        (chan.foldl (fun a d => fenceDie d 9 a) s2))
    else if again then fenceDie die 1 s2
    else startDie die s2))

/-- The limit of suspends of an operation, and how long it runs between them in microseconds (R171). -/
def suspendRule (s : State) (die : Nat) (q : QueuedOp) : Nat × Nat :=
  let c := die / 16
  match q.op with
  | .erase _ _ => (min (getF s (MED_SUSP_ERS_MAX c)) (Config.eraseSuspendLimit die), getF s (MED_SUSP_ERS_SLICE_US c))
  | .program _ _ => (if Config.programSuspends die then min (getF s (MED_SUSP_PGM_MAX c)) (Config.programSuspendLimit die) else 0,
      getF s (MED_SUSP_PGM_SLICE_US c))
  | _ => (0, 0)

/-- Microseconds that the running operation has run since it started or resumed. -/
def ranUs (s : State) (die : Nat) : Nat := (now s - (getDie s die).startedAt) * s.time.period / 65536

/-- OPERATION_SUSPEND (R171): an erase or program that has run its slice gives way to a queued read of position 2 or 3, while its
suspend count lasts. -/
def execOperationSuspend (at_ : DieAt) (s0 : State) : Result :=
  let die := at_.die
  let s := atFrac at_.frac s0
  let x := getDie s die
  .next (match x.running with
  | none => s
  | some q =>
    let r := suspendRule s die q
    let wanted := x.queue.any (fun z => (z.pos == 2 || z.pos == 3) && z.op.readAt.isSome)
    if x.suspends < r.1 && r.2 ≤ ranUs s die && wanted && x.suspended.isNone then
      nextOp die (incF (MED_SUSPENDS (die / 16)) 1 (emit (.nand (die / 16) die 6 0)
        (updDie die (fun y => { y with running := none, suspended := some q, suspends := y.suspends + 1, served := 0 }) s)))
    else s)

/-- NAND_STATUS_POLL (R167): the sequencer polls the status of the LUN. -/
def execNandStatusPoll (die : Nat) (s : State) : Result :=
  .next (if (getDie s die).running.isSome then emit (.nand (die / 16) die 7 0) s else s)

/-- The temperature of a channel: that of the nearest sensor, in quarters of a degree (R166, R429). -/
def chanTemp (s : State) (c : Nat) : Int :=
  let v := getF s (MON_TEMP_VALUE (8 + c / 4))
  if v < 2048 then (v : Int) else (v : Int) - 4096

def getChan (s : State) (c : Nat) : Chan := (mget s.ftl.chans c).getD {}

/-- The channel temperature has moved by MED_DRIFT.TEMP_C since the last training. -/
def drifted (s : State) (c : Nat) : Bool :=
  decide (4 * (getF s (MED_DRIFT_TEMP_C c) : Int) ≤ chanTemp s c - (getChan s c).temp) ||
    decide (4 * (getF s (MED_DRIFT_TEMP_C c) : Int) ≤ (getChan s c).temp - chanTemp s c)

/-- DQS_RECENTER (R166): the DQS of one chip enable is re-centred between the operations of its dies, in a media slot of the channel; with
the last of the four the channel counts as trained at this temperature. -/
def execDqsRecenter (channel ce : Nat) (s : State) : Result :=
  let k := getChan s channel
  let busy := (List.range 4).any (fun l => (getDie s (channel * 16 + ce % 4 * 4 + l)).running.isSome)
  .next (if flagF s (MED_STATUS_TRAINED channel) && !flagF s (MED_STATUS_CH_FENCED channel) && drifted s channel && !busy &&
      !k.ces.contains (ce % 4) then
    let ces := k.ces ++ [ce % 4]
    let k1 : Chan := if ces.length = 4 then { k with temp := chanTemp s channel, ces := [] } else { k with ces := ces }
    emit (.nand channel (channel * 16 + ce % 4 * 4) 9 (ce % 4)) { s with ftl := { s.ftl with chans := mset s.ftl.chans channel k1 } }
  else s)

/-- DIE_REBUILD_DONE (R192, R207): every valid unit of a fenced die has been moved. -/
def execDieRebuildDone (die : Nat) (s : State) : Result :=
  .next (if s.ftl.rebuildDie.contains die && rebuildUnits s die == 0 then
      let rest := s.ftl.rebuildDie.filter (· != die)
      faultRec 0x101 die s.time.stroke 0 (setF FTL_STATUS_REBUILD (bit (!rest.isEmpty))
        { s with ftl := { s.ftl with rebuildDie := rest } })
    else s)

/-! ### Deallocation (R201) -/

/-- The SEQ at which a unit was last written. -/
def unitSeq (s : State) (x : Ns) (u : Nat) : Nat :=
  match mget x.map u with
  | some (.inkwell id) => ((findStaged s id).map (·.seq)).getD 0
  | some (.media d k) => ((mediaAt s d k).map (·.seq)).getD 0
  | _ => 0

/-- DEALLOCATE_PASS (R201): the oldest queued range is cleared where its units are older than the deallocation. -/
def execDeallocatePass (s : State) : Result :=
  .next (match s.ftl.deallocs with
  | [] => s
  | d :: rest =>
    let s1 := { s with ftl := { s.ftl with deallocs := rest } }
    updNs d.nsid (fun x => { x with map := (List.range d.count).foldl (fun m i =>
      if unitSeq s x (d.unit + i) < d.seq then merase m (d.unit + i) else m) x.map }) s1)

end Sys2Proof.Machine
end

