-- ==== Sys2Proof/Machine/Apply.lean ====
section
/-!
DEFINITION. Applying a write (spec/04 R78, spec/09 R183, R186, R194, R208): the units it touches are staged whole in the
Inkwell with one SEQ, and the map names them.
-/

namespace Sys2Proof.Machine

/-- A transition that names the namespace has been accepted and not committed; a Sanitize names every one (R105, R106). -/
def nsPending (s : State) (nsid : Nat) : Bool :=
  s.trans.any (fun t => t.unit == .ns nsid || (match t.kind with | .sanitize _ => true | _ => false))

/-- Why a namespace that is being formatted, sanitized or converted runs no command (R69, R106). -/
def NsBusy.status : NsBusy → Option Status
  | .none => .none
  | .formatting => some .formatInProgress
  | .sanitizing => some .sanitizeInProgress
  | .converting => some .namespaceNotReady

/-- Who wrote, for the loss record (R86). -/
structure Writer where
  fn : Nat := 0
  sqid : Nat := 0
  cid : Nat := 0xFFFF
  directive : Nat := 0
  deriving DecidableEq, Repr

/-- The highest dirty level of the stroke (R46). -/
def notePeak (s : State) : State :=
  { s with chain := { s.chain with peakKib := max s.chain.peakKib (dirtyBytes s / 1024) } }

/-- One map unit of a write: its old bytes with the new ones laid over them. -/
def writeUnit (nsid : Nat) (x : Ns) (lba : Nat) (data : Bytes) (w : Writer) (s : State) (u : Nat) : State :=
  let base := u * x.unitBlocks
  let lo := max base lba
  let hi := min (base + x.unitBlocks) (lba + data.length / x.blk)
  let part := slice data ((lo - lba) * x.blk) ((hi - lo) * x.blk)
  stageUnit {
    id := 0, kind := if x.sealed then .sealed else .plain, nsid := nsid, lba := base, seq := s.ftl.seq,
    data := splice (unitData s x u) ((lo - base) * x.blk) part, stroke := s.time.stroke, fn := w.fn, sqid := w.sqid,
    cid := w.cid, doneAt := now s, directive := w.directive } u s

/-- Blocks that are written again are no longer lost (R84). -/
def unlose (lba n : Nat) (l : List (Nat × Nat)) : List (Nat × Nat) :=
  l.flatMap (fun e =>
    let before := if e.1 < lba then [(e.1, min e.2 (lba - e.1))] else []
    let stop := e.1 + e.2
    let after := if lba + n < stop then [(max e.1 (lba + n), stop - max e.1 (lba + n))] else []
    if lba + n ≤ e.1 || stop ≤ lba then [e] else before ++ after)

/-- A write is applied: one SEQ for all its units (R186), then placement as slots fill (R43). -/
def applyWrite (nsid lba : Nat) (data : Bytes) (w : Writer) (s : State) : State :=
  match getNs s nsid with
  | none => s
  | some x =>
    let n := data.length / x.blk
    let us := unitsOf x lba n
    let s1 := us.foldl (fun a u => writeUnit nsid x lba data w a u) (bumpSeq s)
    let s2 := addUnits FTL_HOST_UNITS_LO FTL_HOST_UNITS_HI (us.length * (x.unitBytes / 4096)) s1
    notePeak (place (updNs nsid (fun y => { y with lost := unlose lba n y.lost }) s2))

/-- A read of blocks meets a block that is lost, on the media or by a deferred error (R84, R87). -/
def lostIn (s : State) (x : Ns) (lba n : Nat) : Bool :=
  x.lost.any (fun e => e.1 < lba + n && lba < e.1 + e.2) ||
    (unitsOf x lba n).any (fun u => match mget x.map u with
      | some (.media d k) => (List.range (if x.sealed then 4 else 1)).any (fun i =>
          (mediaAt s d (k + i)).any (·.lost))
      | _ => false)

end Sys2Proof.Machine
end

