-- ==== Sys2Proof/Machine/Flags.lean ====
section
/-!
DEFINITION. Results and flags of the A and M units of a Nib core (spec/11_nib_instruction_set.md R241, R246, R249 to R252) and
the branch conditions (R254).
-/

namespace Sys2Proof.Machine

abbrev W16 := BitVec 16

/-- What an operation writes of Z, N, C and V (none: not named), and whether it sets Q. -/
structure FlagW where
  z : Option Bool := none
  n : Option Bool := none
  c : Option Bool := none
  v : Option Bool := none
  q : Bool := false
  deriving DecidableEq, Repr

/-- Z, N, C and V as they stood before the bundle. -/
structure FlagsIn where
  z : Bool
  n : Bool
  c : Bool
  v : Bool
  deriving DecidableEq, Repr

/-- An integer fits 16 signed bits. -/
def fits16 (v : Int) : Bool := -32768 ≤ v && v ≤ 32767

def fits32 (v : Int) : Bool := -2147483648 ≤ v && v ≤ 2147483647

/-- Saturation to 7FFFh or 8000h. -/
def sat16 (v : Int) : W16 := if v > 32767 then 0x7FFF#16 else if v < -32768 then 0x8000#16 else BitVec.ofInt 16 v

def sat32 (v : Int) : BitVec 32 :=
  if v > 2147483647 then 0x7FFFFFFF#32 else if v < -2147483648 then 0x80000000#32 else BitVec.ofInt 32 v

def zn (r : W16) : FlagW := { z := some (r == 0), n := some r.msb }

def zn32 (r : BitVec 32) : FlagW := { z := some (r == 0), n := some r.msb }

/-- A + B + C: the sum, its carry and its signed overflow. -/
def addW (a b : W16) (cin : Bool) : W16 × Bool × Bool :=
  let u := a.toNat + b.toNat + bit cin
  (BitVec.ofNat 16 u, decide (65536 ≤ u), !fits16 (a.toInt + b.toInt + (bit cin : Nat)))

/-- A − B − C: the difference, its borrow and its signed overflow. -/
def subW (a b : W16) (cin : Bool) : W16 × Bool × Bool :=
  (BitVec.ofInt 16 (a.toInt - b.toInt - (bit cin : Nat)), decide (a.toNat < b.toNat + bit cin),
    !fits16 (a.toInt - b.toInt - (bit cin : Nat)))

/-- Z N C V of an addition or subtraction. -/
def arith (r : W16 × Bool × Bool) : W16 × FlagW := (r.1, { zn r.1 with c := some r.2.1, v := some r.2.2 })

/-- The chained Z of R249. -/
def chainZ (zin : Bool) (r : W16 × FlagW) : W16 × FlagW := (r.1, { r.2 with z := some (zin && r.1 == 0) })

/-- A saturating sum or difference: C is that of the unsaturated operation. -/
def satArith (exact : Int) (c : Bool) : W16 × FlagW :=
  let r := sat16 exact
  let v := !fits16 exact
  (r, { zn r with c := some c, v := some v, q := v })

def popcount16 (a : W16) : Nat := (List.range 16).foldl (fun n i => n + bit (bitAt a.toNat i)) 0

def clz16 (a : W16) : Nat := ((List.range 16).takeWhile (fun i => !bitAt a.toNat (15 - i))).length

/-- Result and flags of an A-unit operation on A and B/K (R249). NOP, MOVF, MOVT and LDI are not here: they compute
nothing. -/
def aluA (op : Nat) (fl : FlagsIn) (a b : W16) : W16 × FlagW :=
  match op with
  | 0x01 => arith (addW a b false)
  | 0x02 => chainZ fl.z (arith (addW a b fl.c))
  | 0x03 => satArith (a.toInt + b.toInt) (addW a b false).2.1
  | 0x04 => arith (subW a b false)
  | 0x05 => chainZ fl.z (arith (subW a b fl.c))
  | 0x06 => satArith (a.toInt - b.toInt) (subW a b false).2.1
  | 0x07 => let r := -a
            (r, { zn r with c := some (a != 0), v := some (a == 0x8000#16) })
  | 0x08 => let s := a == 0x8000#16
            let r := if s then 0x7FFF#16 else -a
            (r, { zn r with v := some s, q := s })
  | 0x09 => let r := if a.msb then -a else a
            (r, { zn r with v := some (a == 0x8000#16) })
  | 0x0A => let s := a == 0x8000#16
            let r := if s then 0x7FFF#16 else if a.msb then -a else a
            (r, { zn r with v := some s, q := s })
  | 0x0B => arith (subW a b false)
  | 0x0C => chainZ fl.z (arith (subW a b fl.c))
  | 0x0D => (a &&& b, zn (a &&& b))
  | 0x0E => (a ||| b, zn (a ||| b))
  | 0x0F => (a ^^^ b, zn (a ^^^ b))
  | 0x10 => (a &&& ~~~b, zn (a &&& ~~~b))
  | 0x11 => (~~~a, zn (~~~a))
  | 0x12 => (b, {})
  | 0x13 => let r := if a.toInt ≤ b.toInt then a else b
            (r, zn r)
  | 0x14 => let r := if a.toInt ≤ b.toInt then b else a
            (r, zn r)
  | 0x15 => let r := if a.toNat ≤ b.toNat then a else b
            (r, zn r)
  | 0x16 => let r := if a.toNat ≤ b.toNat then b else a
            (r, zn r)
  | 0x17 => (if fl.z then a else b, {})
  | 0x18 => let r := BitVec.ofNat 16 (if 128 ≤ a.toNat % 256 then a.toNat % 256 + 0xFF00 else a.toNat % 256)
            (r, zn r)
  | 0x19 => let r := BitVec.ofNat 16 (a.toNat % 256)
            (r, zn r)
  | 0x1A => let r := BitVec.ofNat 16 (clz16 a)
            (r, { z := some (r == 0) })
  | 0x1B => let r := BitVec.ofNat 16 (popcount16 a)
            (r, { z := some (r == 0) })
  | 0x1C => (a &&& b, zn (a &&& b))
  | _ => (0, {})

/-! ### Shifts (R251), for a width of 16 or 32 -/

/-- Logical left: result and last bit out. -/
def shlN (w v c : Nat) : Nat × Bool :=
  if c = 0 then (v, false)
  else if c < w then ((v * 2 ^ c) % 2 ^ w, bitAt v (w - c))
  else if c = w then (0, bitAt v 0)
  else (0, false)

def shrN (w v c : Nat) : Nat × Bool :=
  if c = 0 then (v, false)
  else if c < w then (v / 2 ^ c, bitAt v (c - 1))
  else if c = w then (0, bitAt v (w - 1))
  else (0, false)

/-- All ones in the top `c` bits of `w`. -/
def topOnes (w c : Nat) : Nat := 2 ^ w - 2 ^ (w - c)

def sarN (w v c : Nat) : Nat × Bool :=
  let sgn := bitAt v (w - 1)
  if c = 0 then (v, false)
  else if c < w then (v / 2 ^ c + (if sgn then topOnes w c else 0), bitAt v (c - 1))
  else (if sgn then 2 ^ w - 1 else 0, sgn)

/-- V of ASL: the value shifted back arithmetically differs from A. -/
def aslV (w v c : Nat) : Bool :=
  if c = 0 then false
  else if c < w then (sarN w (shlN w v c).1 c).1 != v
  else v != 0

def rolN (v c : Nat) : Nat × Bool :=
  let k := c % 16
  if k = 0 then (v, false)
  else
    let r := (v * 2 ^ k) % 65536 + v / 2 ^ (16 - k)
    (r, bitAt r 0)

def rorN (v c : Nat) : Nat × Bool :=
  let k := c % 16
  if k = 0 then (v, false)
  else
    let r := v / 2 ^ k + (v * 2 ^ (16 - k)) % 65536
    (r, bitAt r 15)

/-- A 16-bit shift result with Z, N and C. -/
def shiftRes (r : Nat × Bool) : W16 × FlagW :=
  let v := BitVec.ofNat 16 r.1
  (v, { zn v with c := some r.2 })

/-! ### The M unit (R250, R252) -/

/-- The field of EXTU and EXTS: bits above bit 15 of A read as 0. -/
def fieldOf (a k : Nat) : Nat := (a / 2 ^ bits k 3 0) % 2 ^ (bits k 7 4 + 1)

def signField (v n : Nat) : Nat := if bitAt v (n - 1) then v + (65536 - 2 ^ n) else v

/-- A saturating Q15 product. -/
def mulq (a b : W16) (round : Int) : W16 × FlagW :=
  let s := a == 0x8000#16 && b == 0x8000#16
  let r := if s then 0x7FFF#16 else BitVec.ofInt 16 ((a.toInt * b.toInt + round) / 32768)
  (r, { zn r with v := some s, q := s })

/-- 16-bit results of the M unit. -/
def mulM (op : Nat) (a b : W16) : W16 × FlagW :=
  match op with
  | 0x01 => let r := BitVec.ofInt 16 (a.toInt * b.toInt)
            (r, { zn r with v := some (!fits16 (a.toInt * b.toInt)) })
  | 0x04 => mulq a b 0
  | 0x05 => mulq a b 0x4000
  | 0x08 => shiftRes (shlN 16 a.toNat b.toNat)
  | 0x09 => shiftRes (shrN 16 a.toNat b.toNat)
  | 0x0A => shiftRes (sarN 16 a.toNat b.toNat)
  | 0x0B => let r := shiftRes (shlN 16 a.toNat b.toNat)
            (r.1, { r.2 with v := some (aslV 16 a.toNat b.toNat) })
  | 0x0C => shiftRes (rolN a.toNat b.toNat)
  | 0x0D => shiftRes (rorN a.toNat b.toNat)
  | 0x13 => let r := BitVec.ofNat 16 (fieldOf a.toNat b.toNat)
            (r, zn r)
  | 0x14 => let r := BitVec.ofNat 16 (signField (fieldOf a.toNat b.toNat) (bits b.toNat 7 4 + 1))
            (r, zn r)
  | _ => (0, {})

/-- 32-bit results of the M unit: `p` is the pair Dp, or Ap for the pair shifts. -/
def pairM (op : Nat) (p : BitVec 32) (a b : W16) : BitVec 32 × FlagW :=
  match op with
  | 0x02 => let r := BitVec.ofInt 32 (a.toInt * b.toInt)
            (r, zn32 r)
  | 0x03 => let r := BitVec.ofNat 32 (a.toNat * b.toNat)
            (r, zn32 r)
  | 0x06 => let e := p.toInt + a.toInt * b.toInt
            let r := BitVec.ofInt 32 e
            (r, { zn32 r with v := some (!fits32 e) })
  | 0x07 => let e := p.toInt + a.toInt * b.toInt
            let r := sat32 e
            (r, { zn32 r with v := some (!fits32 e), q := !fits32 e })
  | 0x10 => let s := shlN 32 p.toNat b.toNat
            (BitVec.ofNat 32 s.1, { zn32 (BitVec.ofNat 32 s.1) with c := some s.2 })
  | 0x11 => let s := shrN 32 p.toNat b.toNat
            (BitVec.ofNat 32 s.1, { zn32 (BitVec.ofNat 32 s.1) with c := some s.2 })
  | 0x12 => let s := sarN 32 p.toNat b.toNat
            (BitVec.ofNat 32 s.1, { zn32 (BitVec.ofNat 32 s.1) with c := some s.2 })
  | _ => (0, {})

/-- DIVS: quotient and remainder, with Z N V from the quotient (R250, R252). -/
def divS (a b : W16) : W16 × W16 × FlagW :=
  if b = 0 then
    let q := if a.msb then 0x8000#16 else 0x7FFF#16
    (q, a, { zn q with v := some true })
  else
    let e := a.toInt.tdiv b.toInt
    let q := BitVec.ofInt 16 e
    (q, BitVec.ofInt 16 (a.toInt.tmod b.toInt), { zn q with v := some (!fits16 e) })

def divU (a b : W16) : W16 × W16 × FlagW :=
  if b = 0 then (0xFFFF#16, a, { zn 0xFFFF#16 with v := some true })
  else
    let q := BitVec.ofNat 16 (a.toNat / b.toNat)
    (q, BitVec.ofNat 16 (a.toNat % b.toNat), { zn q with v := some false })

/-! ### Conditions (R254) -/

def condHolds (cond : Nat) (fl : FlagsIn) : Bool :=
  match cond with
  | 0x0 => true
  | 0x1 => fl.z
  | 0x2 => !fl.z
  | 0x3 => fl.n != fl.v
  | 0x4 => fl.n == fl.v
  | 0x5 => fl.z || fl.n != fl.v
  | 0x6 => !fl.z && fl.n == fl.v
  | 0x7 => fl.c
  | 0x8 => !fl.c
  | 0x9 => fl.c || fl.z
  | 0xA => !fl.c && !fl.z
  | 0xB => fl.n
  | 0xC => !fl.n
  | 0xD => fl.v
  | 0xE => !fl.v
  | _ => false

end Sys2Proof.Machine
end

