-- ==== Sys2Proof/Machine/Operands.lean ====
section
/-!
DEFINITION. The operand forms of the Nib operations (spec/11_nib_instruction_set.md R243, R248 to R250, R253, R256): which
fields an operation uses, the immediate it takes, and the subcause of ILLEGAL_OP that its fields raise. The 23 bits below
OP keep the bit numbers of R243.
-/

namespace Sys2Proof.Machine

def opD (f : Nat) : Nat := bits f 22 18
def opA (f : Nat) : Nat := bits f 17 13
def opI (f : Nat) : Bool := bitAt f 12
def opB (f : Nat) : Nat := bits f 11 7
def opK12 (f : Nat) : Nat := bits f 11 0
def opK16 (f : Nat) : Nat := bits f 15 0
def opCond (f : Nat) : Nat := bits f 22 19

/-- A K12, sign-extended to 16 bits or zero-extended (R243). -/
def ext12 (signed : Bool) (k : Nat) : Nat := if signed && 2048 ≤ k then k + 0xF000 else k

/-- The operand shapes of R249, R250 and R253. -/
inductive NibForm where
  /-- No operand: NOP, RET, RETT, WAIT, BAR. -/
  | plain
  /-- D, A. -/
  | da
  /-- D, A, B/K; the flag says that K is sign-extended. -/
  | dab (signed : Bool)
  /-- A, B/K, with D 0. -/
  | ab (signed : Bool)
  /-- D, B/K, with A 0. -/
  | db (signed : Bool)
  /-- D, a fixed register in B. -/
  | movf
  /-- A fixed register in D, A. -/
  | movt
  /-- Format W. -/
  | ldi
  /-- Dp, A, B/K: D even. -/
  | pab (signed : Bool)
  /-- Dp, A, B: register operands only. -/
  | pdiv
  /-- Dp, Ap, B/K: D and A even. -/
  | ppb
  /-- D, A, K of EXTU and EXTS. -/
  | field
  /-- [A] and D with post-increment: D = A reserved. -/
  | post
  /-- Format J with COND, or with COND 0. -/
  | branch
  | jump
  /-- A and K12[0]. -/
  | far
  /-- REPI: K, or A. -/
  | repi
  /-- A count, code or index in the low `n` bits of K. -/
  | code (n : Nat)
  /-- D or A, and a control-register index in K[3:0]. -/
  | mfc
  | mtc
  deriving DecidableEq, Repr

/-- Units: 0 A0, 1 A1, 2 M, 3 L (R243). The form of an operation code, none where it is reserved (R248). K12 is
sign-extended for signed and arithmetic operations and zero-extended for unsigned, logical, shift and field operations;
SEL, MOV and the address offsets of L take the signed form (notes/assumptions/10). -/
def formOf (unit op : Nat) : Option NibForm :=
  if unit ≤ 1 then
    match op with
    | 0x00 => some .plain
    | 0x01 | 0x02 | 0x03 | 0x04 | 0x05 | 0x06 => some (.dab true)
    | 0x07 | 0x08 | 0x09 | 0x0A => some .da
    | 0x0B | 0x0C => some (.ab true)
    | 0x0D | 0x0E | 0x0F | 0x10 => some (.dab false)
    | 0x11 => some .da
    | 0x12 => some (.db true)
    | 0x13 | 0x14 => some (.dab true)
    | 0x15 | 0x16 => some (.dab false)
    | 0x17 => some (.dab true)
    | 0x18 | 0x19 | 0x1A | 0x1B => some .da
    | 0x1C => some (.ab false)
    | 0x1D => some .movf
    | 0x1E => some .movt
    | 0x1F => some .ldi
    | _ => none
  else if unit = 2 then
    match op with
    | 0x00 => some .plain
    | 0x01 => some (.dab true)
    | 0x02 => some (.pab true)
    | 0x03 => some (.pab false)
    | 0x04 | 0x05 => some (.dab true)
    | 0x06 | 0x07 => some (.pab true)
    | 0x08 | 0x09 | 0x0A | 0x0B | 0x0C | 0x0D => some (.dab false)
    | 0x0E | 0x0F => some .pdiv
    | 0x10 | 0x11 | 0x12 => some .ppb
    | 0x13 | 0x14 => some .field
    | _ => none
  else
    match op with
    | 0x00 => some .plain
    | 0x01 | 0x02 => some (.dab true)
    | 0x03 | 0x04 => some .post
    | 0x05 | 0x06 => some (.dab true)
    | 0x07 | 0x08 => some (.pab true)
    | 0x09 => some .branch
    | 0x0A => some .jump
    | 0x0B | 0x0C => some .far
    | 0x0D | 0x0E => some .plain
    | 0x0F => some .repi
    | 0x10 => some (.code 6)
    | 0x11 => some (.code 8)
    | 0x12 => some .mfc
    | 0x13 => some .mtc
    | 0x14 => some (.code 8)
    | 0x15 | 0x16 => some .plain
    | _ => none

/-- Format R with I = 0 has bits [6:0] zero. -/
def lowClear (f : Nat) : Bool := opI f || bits f 6 0 == 0

/-- No bit in a field that the format reserves or the operation does not use (R248): false raises subcause 2. -/
def fieldsClear (form : NibForm) (f : Nat) : Bool :=
  match form with
  | .plain => f == 0
  | .da => bits f 12 0 == 0
  | .dab _ | .pab _ | .ppb | .post => lowClear f
  | .ab _ => opD f == 0 && lowClear f
  | .db _ => opA f == 0 && lowClear f
  | .movf => opA f == 0 && !opI f && bits f 6 0 == 0
  | .movt => bits f 12 0 == 0
  | .ldi => bits f 17 16 == 0
  | .pdiv => !opI f && bits f 6 0 == 0
  | .field => !opI f || bits f 11 8 == 0
  | .branch => bits f 18 16 == 0
  | .jump => bits f 22 16 == 0
  | .far => opD f == 0 && (!opI f || bits f 11 1 == 0)
  | .repi => opD f == 0 && (if opI f then opA f == 0 else bits f 11 0 == 0)
  | .code n => opD f == 0 && opA f == 0 && (!opI f || opK12 f < 2 ^ n)
  | .mfc => opA f == 0 && (!opI f || bits f 11 4 == 0)
  | .mtc => opD f == 0 && (!opI f || bits f 11 4 == 0)

/-- No reserved value (R248): false raises subcause 3. MTC to a read-only register, and index 15, are such values
(R242). -/
def valuesLegal (form : NibForm) (f : Nat) : Bool :=
  match form with
  | .pab _ | .pdiv => opD f % 2 == 0
  | .ppb => opD f % 2 == 0 && opA f % 2 == 0
  | .movf => opB f < 8
  | .movt => opD f < 8
  | .field => opI f
  | .post => opD f != opA f
  | .branch => opCond f != 15
  | .far | .code _ => opI f
  | .mfc => opI f && bits f 3 0 != 15
  | .mtc => opI f && (bits f 3 0 ≤ 3 || (6 ≤ bits f 3 0 && bits f 3 0 ≤ 8))
  | _ => true

/-- The subcause of ILLEGAL_OP that an operation's own bits raise. -/
def illegalOp (unit op f : Nat) : Option Nat :=
  match formOf unit op with
  | none => some 1
  | some form => if !fieldsClear form f then some 2 else if !valuesLegal form f then some 3 else none

/-- The immediate of a B/K operand. -/
def immOf (unit op f : Nat) : Nat :=
  match formOf unit op with
  | some (.dab s) | some (.ab s) | some (.db s) | some (.pab s) => ext12 s (opK12 f)
  | some .post => ext12 true (opK12 f)
  | _ => opK12 f

end Sys2Proof.Machine
end

