-- ==== Sys2Proof/Machine/NibCore.lean ====
section
/-!
DEFINITION. A Nib core (spec/11_nib_instruction_set.md R233 to R268): the window and its slides, memory spaces, bundles and
their checks, traps, repeats, and the execution of a bundle. A command delivers the operation word that the core fetches
at its address; words that the instruction memory or the Inkstone holds there must be that word (notes/assumptions/9).
-/

namespace Sys2Proof.Machine

/-! ### Registers (R238 to R242) -/

/-- Index of wk in the register file. -/
def regIx (c : NibCore) (k : Nat) : Nat := 16 * ((c.win + k / 16) % 64) + k % 16

def zero16 (_ : Nat) : W16 := 0

def wGet (c : NibCore) (k : Nat) : W16 := sget zero16 c.w (regIx c k)

def fGet (c : NibCore) (i : Nat) : W16 := sget zero16 c.f i

def fSet (i : Nat) (v : W16) (c : NibCore) : NibCore := { c with f := sset zero16 c.f i v }

/-- f2 as it reads: PCH shows the half of the current bundle (R241). -/
def f2Of (c : NibCore) : Nat := setBits (fGet c 2).toNat 10 10 (bit c.xip)

def f2Bit (c : NibCore) (i : Nat) : Bool := bitAt (fGet c 2).toNat i

def setF2 (i : Nat) (b : Bool) (c : NibCore) : NibCore := fSet 2 (BitVec.ofNat 16 (setBits (fGet c 2).toNat i i (bit b))) c

def fiQ : Nat := 4
def fiDZT : Nat := 5
def fiIE : Nat := 6
def fiTH : Nat := 7
def fiRA : Nat := 8
def fiLH : Nat := 9

def flagsIn (c : NibCore) : FlagsIn := { z := f2Bit c 0, n := f2Bit c 1, c := f2Bit c 2, v := f2Bit c 3 }

/-- The bits of f2 that a MOVT writes (R241). -/
def movtF2 (c : NibCore) (v : W16) : W16 := ((fGet c 2) &&& ~~~0x027F#16) ||| (v &&& 0x027F#16)

/-- Writes of 16-bit registers by index in the register file. -/
def putRegs (ws : List (Nat × W16)) (c : NibCore) : NibCore :=
  { c with w := ws.foldl (fun m e => sset zero16 m e.1 e.2) c.w }

/-! ### Local data memory -/

/-- A local word; one never written returns undefined data: a free value (R266). -/
def dmemGet (c : NibCore) (free : W16) (a : Nat) : W16 := (mget c.dmem (a % 65536)).getD free

/-- A word store writes the word and its check bits (R265). -/
def dmemSet (a : Nat) (v : W16) (c : NibCore) : NibCore :=
  { c with dmem := mset c.dmem (a % 65536) v, badD := c.badD.filter (· != a % 65536) }

/-- Free words for one bundle, by slot (notes/assumptions/2). -/
def freeW (s : State) (i : Nat) : W16 := BitVec.ofNat 16 (Config.freeNat (s.freeCount + i))

def freeSlots : Nat := 64

/-! ### The window (R239) -/

/-- Half `h` spilled to local words from f0. -/
def spillHalf (h : Nat) (c : NibCore) : NibCore :=
  let f0 := (fGet c 0).toNat
  (List.range 16).foldl (fun a i => dmemSet (f0 + i) (sget zero16 c.w (16 * h + i)) a) c

/-- Slide up by one half, spilling the oldest where 64 are resident; none where the check fails. -/
def slideUp (c : NibCore) : Option NibCore :=
  if c.depth < 64 then some { c with win := (c.win + 1) % 64, depth := c.depth + 1 }
  else
    let f0 := (fGet c 0).toNat
    if c.splim < f0 + 16 then none
    else
      let c1 := fSet 0 (BitVec.ofNat 16 (f0 + 16)) (spillHalf c.oldest c)
      some { c1 with win := (c.win + 1) % 64, oldest := (c.oldest + 1) % 64 }

/-- Slide back by one half, filling half b − 1 where it is not resident; none where the check fails. -/
def slideDown (free : Nat → W16) (c : NibCore) : Option NibCore :=
  if 2 < c.depth then some { c with win := (c.win + 63) % 64, depth := c.depth - 1 }
  else
    let f0 := (fGet c 0).toNat
    if f0 < c.spbase + 16 then none
    else
      let h := (c.win + 63) % 64
      let c1 := putRegs ((List.range 16).map (fun i => (16 * h + i, dmemGet c (free i) (f0 - 16 + i)))) c
      some { fSet 0 (BitVec.ofNat 16 (f0 - 16)) c1 with win := h, oldest := h }

def slideDown2 (free : Nat → W16) (c : NibCore) : Option NibCore :=
  (slideDown free c).bind (slideDown (fun i => free (16 + i)))

/-- A slide back fills from local memory. -/
def fills (c : NibCore) : Bool := c.depth == 2

/-! ### Segment accesses (R234, R235) -/

/-- Where a segment access goes. -/
inductive SegTo where
  | local_ (a : Nat)
  | shared (a : Nat)
  | dram (win : NibWindow) (off : Nat)
  | lib (a : Nat)
  | cmd (off : Nat)
  deriving DecidableEq, Repr

/-- The checks of R235 and the place, for offset `off` in the segment f4. -/
def segCheck (c : NibCore) (store : Bool) (off : Nat) : Except Nat SegTo :=
  let f4 := (fGet c 4).toNat
  let page := bits f4 11 0
  match bits f4 15 12 with
  | 0 => if page != 0 then .error 1 else .ok (.local_ off)
  | 1 => if 8 ≤ page then .error 1 else .ok (.shared (65536 * page + off))
  | 2 =>
    if 16 ≤ page then .error 1
    else match mget c.windows page with
      | none => .error 2
      | some w => if w.words ≤ off then .error 3 else if store && !w.write then .error 4 else .ok (.dram w off)
  | 3 =>
    if 128 ≤ page then .error 1
    else if !libraryPage page then .error 3
    else if store then .error 4
    else .ok (.lib (131072 * page + 2 * off))
  | 4 => if page != 0 then .error 1 else if !c.grant4 then .error 2 else if 255 < off then .error 3 else .ok (.cmd off)
  | _ => .error 1

/-! ### What a bundle writes and reads -/

def wUnits (ws : List NibWord) (u : Nat) : Option NibWord := ws.find? (fun x => x.unit == u)

/-- The operation is CMP, CMPC or TST: it writes no register. -/
def flagsOnly (op : Nat) : Bool := op == 0x0B || op == 0x0C || op == 0x1C

/-- The operation writes a pair. -/
def pairOp (unit op : Nat) : Bool :=
  (unit == 2 && (op == 2 || op == 3 || op == 6 || op == 7 || (0x0E ≤ op && op ≤ 0x12))) || (unit == 3 && op == 7)

/-- Registers that R247 counts as written by an operation, A and D of LDPI and STPI included: wk as k, fk as 100 + k. A reserved OP
writes none. -/
def writesOf (x : NibWord) : List Nat :=
  let d := opD x.f
  if (formOf x.unit x.op).isNone then []
  else if x.unit ≤ 1 then
    if x.op == 0 || flagsOnly x.op then [] else if x.op == 0x1E then [100 + d] else [d]
  else if x.unit == 2 then (if x.op == 0 then [] else if pairOp 2 x.op then [d, d + 1] else [d])
  else match x.op with
    | 0x01 | 0x05 | 0x12 => [d]
    | 0x03 | 0x04 => [d, opA x.f].eraseDups
    | 0x07 => [d, d + 1]
    | _ => []

/-- The operation writes flags of its own (R246, R249, R250). -/
def writesFlags (x : NibWord) : Bool :=
  if (formOf x.unit x.op).isNone then false
  else if x.unit ≤ 1 then x.op != 0 && x.op != 0x12 && x.op != 0x17 && !(0x1D ≤ x.op && x.op ≤ 0x1F)
  else x.unit == 2 && x.op != 0

def movtTo (x : NibWord) (regs : List Nat) : Bool := x.unit ≤ 1 && x.op == 0x1E && regs.contains (opD x.f)

/-- RETT, REPI, REPN, TRAP, HALT and WAIT stand alone. -/
def aloneOp (x : NibWord) : Bool :=
  x.unit == 3 && (x.op == 0x0E || x.op == 0x0F || x.op == 0x10 || x.op == 0x11 || x.op == 0x14 || x.op == 0x15)

/-- Operations that a repeated bundle must not contain (R257). -/
def repeatBad (repN : Bool) (x : NibWord) : Bool :=
  movtTo x [2, 3] ||
    (x.unit == 3 && ((0x09 ≤ x.op && x.op ≤ 0x11) || x.op == 0x13 || x.op == 0x14 || x.op == 0x15 ||
      (repN && !(x.op ≤ 4 || x.op == 7 || x.op == 8))))

def hasDup (l : List Nat) : Bool := l.eraseDups.length != l.length

/-- The subcause of ILLEGAL_BUNDLE (R247), the lowest that applies. -/
def illegalBundle (c : NibCore) (ws : List NibWord) : Option Nat :=
  if hasDup (ws.map (·.unit)) then some 1
  else if ws.length == 4 && !(ws.getLast?.any (·.stop)) then some 2
  else if hasDup (ws.flatMap writesOf) then some 3
  else if ws.any (fun x => movtTo x [1, 2, 3]) &&
      ws.any (fun x => writesFlags x || (x.unit == 3 && (x.op == 0x0A || x.op == 0x0B || x.op == 0x0F || x.op == 0x10)))
    then some 4
  else if 1 < ws.length && ws.any aloneOp then some 5
  else if f2Bit c fiRA && ws.any (repeatBad c.repN) then some 6
  else none

/-- The value of B or K. -/
def opBK (c : NibCore) (x : NibWord) : W16 :=
  if opI x.f then BitVec.ofNat 16 (immOf x.unit x.op x.f) else wGet c (opB x.f)

/-- A trap that a bundle meets: code, subcause, TINFO. -/
structure NibTrap where
  code : Nat
  sub : Nat
  info : Nat
  deriving DecidableEq, Repr

/-- Position of an operation in its bundle. -/
def posOf (ws : List NibWord) (u : Nat) : Nat := (ws.findIdx? (fun x => x.unit == u)).getD 0

/-- ILLEGAL_OP of one operation; a REPI count above 4,096 is a reserved value. -/
def illegalAt (c : NibCore) (x : NibWord) : Option Nat :=
  match illegalOp x.unit x.op x.f with
  | some k => some k
  | none => if x.unit == 3 && x.op == 0x0F && !opI x.f && 4096 < (wGet c (opA x.f)).toNat then some 3 else none

/-- The first unit's ILLEGAL_OP (R248, R261). -/
def illegalOps (c : NibCore) (ws : List NibWord) : Option NibTrap :=
  [0, 1, 2, 3].findSome? (fun u => (wUnits ws u).bind (fun x =>
    (illegalAt c x).map (fun k => { code := 1, sub := k, info := posOf ws u })))

/-- The data offset of an L operation that reads or writes memory. -/
def dataOff (c : NibCore) (x : NibWord) : Nat :=
  if x.op == 3 || x.op == 4 then (wGet c (opA x.f)).toNat
  else ((wGet c (opA x.f)).toNat + (opBK c x).toNat) % 65536

/-- Window checks of CALL, CALLX and RET (R239). -/
def windowTrap (c : NibCore) (x : NibWord) : Option NibTrap :=
  if x.op == 0x0A || x.op == 0x0B then
    (if (slideUp c).isNone then some { code := 9, sub := 0, info := 0 } else none)
  else if x.op == 0x0D then
    (if (slideDown zero16 c).isNone then some { code := 10, sub := 0, info := 0 } else none)
  else none

/-- SEG_FAULT of LDS and STS (R235). -/
def segTrap (c : NibCore) (x : NibWord) : Option NibTrap :=
  if x.op == 5 || x.op == 6 then
    match segCheck c (x.op == 6) (dataOff c x) with
    | .error k => some { code := 6, sub := k, info := dataOff c x }
    | .ok _ => none
  else none

/-- MEM_UE of a local or shared read, a fill included (R265). -/
def memTrap (c : NibCore) (x : NibWord) : Option NibTrap :=
  if x.data != .uncorrectable then none
  else if x.op == 1 || x.op == 3 || x.op == 7 then some { code := 4, sub := 0, info := dataOff c x }
  else if x.op == 0x0D && fills c then some { code := 4, sub := 0, info := ((fGet c 0).toNat + 65520) % 65536 }
  else if x.op == 5 then
    match segCheck c false (dataOff c x) with
    | .ok (.local_ _) => some { code := 4, sub := 0, info := dataOff c x }
    | .ok (.shared _) => some { code := 4, sub := 0, info := dataOff c x }
    | _ => none
  else none

/-- BUS_FAULT of an LDS from DRAM or the Inkstone (R260, R368). -/
def busTrap (s : State) (c : NibCore) (x : NibWord) : Option NibTrap :=
  if x.op != 5 then none
  else match segCheck c false (dataOff c x) with
    | .ok (.dram _ off) => if x.data == .uncorrectable then some { code := 7, sub := 1, info := off } else none
    | .ok (.lib a) =>
      if bankBusy s (a / 2 ^ 23) then some { code := 7, sub := 2, info := dataOff c x }
      else if x.data == .uncorrectable then some { code := 7, sub := 3, info := dataOff c x }
      else none
    | _ => none

/-- DIV_ZERO with DZT (R252). -/
def divTrap (c : NibCore) (x : NibWord) : Option NibTrap :=
  if (x.op == 0x0E || x.op == 0x0F) && f2Bit c fiDZT && wGet c (opB x.f) == 0 then some { code := 3, sub := 0, info := 0 }
  else none

/-- The one trap that a bundle reports, in the order of R261. -/
def bundleTrap (s : State) (c : NibCore) (ws : List NibWord) : Option NibTrap :=
  match illegalBundle c ws with
  | some k => some { code := 2, sub := k, info := 0 }
  | none =>
    match illegalOps c ws with
    | some t => some t
    | none =>
      let l := wUnits ws 3
      ((l.bind (windowTrap c)).or ((l.bind (segTrap c)).or ((l.bind (memTrap c)).or ((l.bind (busTrap s c)).or
        ((wUnits ws 2).bind (divTrap c))))))

/-! ### Memory spaces -/

/-- A word of a graph buffer, little-endian (R236). -/
def dramGet (s : State) (h buf off : Nat) : W16 :=
  match (getGraph s h).bind (fun g => g.bufs[buf]?) with
  | some b => BitVec.ofNat 16 (fromLe (sgetBytes (fun _ => 0) b.data off 2))
  | none => 0

def dramSetBytes (h buf off : Nat) (bs : Bytes) (s : State) : State :=
  updGraph h (fun g => { g with bufs := lupd g.bufs buf (fun b =>
    { b with data := ssetBytes (fun _ => 0) b.data off (bs.take (b.size - off)) }) }) s

def sharedGet (s : State) (k a : Nat) (free : W16) : W16 := (mget ((mget s.duct.shared (k / 8)).getD []) a).getD free

def sharedSet (k a : Nat) (v : W16) (s : State) : State :=
  { s with duct := { s.duct with
    shared := mset s.duct.shared (k / 8) (mset ((mget s.duct.shared (k / 8)).getD []) a v),
    sharedBad := s.duct.sharedBad.filter (· != (k / 8, a)) } }

/-- The value of an LDS. -/
def segLoad (s : State) (k : Nat) (c : NibCore) (off : Nat) : W16 :=
  match segCheck c false off with
  | .ok (.local_ a) => dmemGet c (freeW s 0) a
  | .ok (.shared a) => sharedGet s k a (freeW s 0)
  | .ok (.dram w o) => dramGet s (getF s (NIB_CORE_GRAPH k)) w.buf (w.off + 2 * o)
  | .ok (.lib a) => BitVec.ofNat 16 (fromLe (inkBytesAt s a 2))
  | .ok (.cmd o) => BitVec.ofNat 16 (winRead s k o)
  | .error _ => 0

/-- An STS outside the core's own local memory. -/
def segStore (k off : Nat) (c : NibCore) (v : W16) (chk : Chk) (s : State) : State :=
  match segCheck c true off with
  | .ok (.shared a) => sharedSet k a v s
  | .ok (.dram w o) => dramSetBytes (getF s (NIB_CORE_GRAPH k)) w.buf (w.off + 2 * o) (le 2 v.toNat) s
  | .ok (.cmd o) => winWrite k o v.toNat chk s
  | _ => s

/-! ### Check bits (R265) -/

/-- Local data words that an operation reads, fills included. -/
def localReads (c : NibCore) (x : NibWord) : List Nat :=
  match x.op with
  | 0x01 | 0x03 => [dataOff c x]
  | 0x07 => [dataOff c x, (dataOff c x + 1) % 65536]
  | 0x0D => if fills c then (List.range 16).map (fun i => ((fGet c 0).toNat + 65520 + i) % 65536) else []
  | 0x0E =>
    let n := 16 * (4 - c.depth)
    if (slideDown2 (fun _ => 0) c).isSome then (List.range n).map (fun i => ((fGet c 0).toNat + 65536 - n + i) % 65536) else []
  | 0x05 => match segCheck c false (dataOff c x) with
    | .ok (.local_ a) => [a]
    | _ => []
  | _ => []

/-- The cluster shared word that an operation reads. -/
def sharedRead (c : NibCore) (x : NibWord) : Option Nat :=
  if x.op != 5 then none
  else match segCheck c false (dataOff c x) with
    | .ok (.shared a) => some a
    | _ => none

/-- The Inkstone address that an operation reads. -/
def libRead (c : NibCore) (x : NibWord) : Option Nat :=
  if x.op != 5 then none
  else match segCheck c false (dataOff c x) with
    | .ok (.lib a) => some a
    | _ => none

/-- The L operation with what its read meets: a bad copy that an earlier correction left is corrected again. -/
def withBad (s : State) (k : Nat) (c : NibCore) (x : NibWord) : NibWord :=
  if x.data == .good && ((localReads c x).any (fun a => c.badD.contains a) ||
      (sharedRead c x).any (fun a => s.duct.sharedBad.contains (k / 8, a)) || (libRead c x).any (fun a => inkBadIn s a 2)) then { x with data := .corrected }
  else x

/-- The word of several read whose correction a count stands for is open (notes/assumptions/2). -/
def badLocal (s : State) (c : NibCore) (x : NibWord) : Nat :=
  let as := localReads c x
  (as[Config.freeNat (s.freeCount + 4) % max 1 as.length]?).getD 0

/-- A corrected data read is counted, and the memory keeps the bad copy until it is written again, in the Inkstone until its sector is
erased (R265, R365). `f` is what the operand word itself met. -/
def countData (s0 : State) (k : Nat) (c : NibCore) (f : Chk) (x : NibWord) (s : State) : State :=
  if x.data != .corrected then s
  else match sharedRead c x, libRead c x with
  | some a, _ => incF (NIB_CLUSTER_SHARED_CE (k / 8)) 1
      { s with duct := { s.duct with sharedBad := insertNew (k / 8, a) s.duct.sharedBad } }
  | none, some a => inkKeepBad a 2 f s
  | none, none =>
    if (localReads c x).isEmpty then s
    else incF (NIB_CORE_DATA_CE k) 1 (if f == .corrected then
        setCore k { nibCore s k with badD := insertNew (badLocal s0 c x) (nibCore s k).badD } s else s)

/-! ### Control registers (R242) -/

def mfcValue (s : State) (k : Nat) (c : NibCore) (i : Nat) : Nat :=
  match i with
  | 0 => c.tvbase
  | 1 => c.tpc
  | 2 => c.tpcx
  | 3 => c.tflags
  | 4 => c.tcause
  | 5 => c.tinfo
  | 6 => c.spbase
  | 7 => c.splim
  | 8 => c.xpage
  | 9 => c.depth
  | 10 => k
  | 11 => (freeW s 2).toNat
  | 12 => c.cycHi
  | 13 => s.time.stroke % 65536
  | _ => s.time.frac % 65536

def mtc (i v : Nat) (c : NibCore) : NibCore :=
  match i with
  | 0 => { c with tvbase := bits v 15 7 * 128 + v % 2 }
  | 1 => { c with tpc := v }
  | 2 => { c with tpcx := v % 4 }
  | 3 => { c with tflags := v }
  | 6 => { c with spbase := v }
  | 7 => { c with splim := v }
  | _ => { c with xpage := v % 128 }

/-! ### Effects of the operations of a bundle -/

/-- The register writes of an operation, as indexes in the register file of the window before the bundle. -/
def regEffect (s : State) (k : Nat) (c : NibCore) (x : NibWord) : List (Nat × W16) :=
  let d := opD x.f
  let a := wGet c (opA x.f)
  let b := opBK c x
  let one (v : W16) : List (Nat × W16) := [(regIx c d, v)]
  let pair (v : BitVec 32) : List (Nat × W16) :=
    [(regIx c d, v.setWidth 16), (regIx c (d + 1), (v >>> 16).setWidth 16)]
  if x.unit ≤ 1 then
    if x.op == 0 || flagsOnly x.op || x.op == 0x1E then []
    else if x.op == 0x1D then
      one (if opB x.f == 2 then BitVec.ofNat 16 (f2Of c) else fGet c (opB x.f))
    else if x.op == 0x1F then one (BitVec.ofNat 16 (opK16 x.f))
    else one (aluA x.op (flagsIn c) a b).1
  else if x.unit == 2 then
    if x.op == 0 then []
    else if x.op == 0x0E then [(regIx c d, (divS a b).1), (regIx c (d + 1), (divS a b).2.1)]
    else if x.op == 0x0F then [(regIx c d, (divU a b).1), (regIx c (d + 1), (divU a b).2.1)]
    else if pairOp 2 x.op then
      let base := if 0x10 ≤ x.op then opA x.f else d
      pair (pairM x.op ((wGet c (base + 1)) ++ (wGet c base)) a b).1
    else one (mulM x.op a b).1
  else match x.op with
    | 0x01 => one (dmemGet c (freeW s 0) (dataOff c x))
    | 0x03 => [(regIx c d, dmemGet c (freeW s 0) (dataOff c x)), (regIx c (opA x.f), a + b)]
    | 0x04 => [(regIx c (opA x.f), a + b)]
    | 0x05 => one (segLoad s k c (dataOff c x))
    | 0x07 => [(regIx c d, dmemGet c (freeW s 0) (dataOff c x)),
               (regIx c (d + 1), dmemGet c (freeW s 1) (dataOff c x + 1))]
    | 0x12 => one (BitVec.ofNat 16 (mfcValue s k c (bits x.f 3 0)))
    | _ => []

/-- The flags of an operation. -/
def flagEffect (c : NibCore) (x : NibWord) : FlagW :=
  let a := wGet c (opA x.f)
  let b := opBK c x
  if x.unit ≤ 1 then (aluA x.op (flagsIn c) a b).2
  else if x.op == 0x0E then (divS a b).2.2
  else if x.op == 0x0F then (divU a b).2.2
  else if pairOp 2 x.op then
    let base := if 0x10 ≤ x.op then opA x.f else opD x.f
    (pairM x.op ((wGet c (base + 1)) ++ (wGet c base)) a b).2
  else (mulM x.op a b).2

def putFlag (i : Nat) (o : Option Bool) (c : NibCore) : NibCore := match o with
  | some b => setF2 i b c
  | none => c

/-- Flags of a bundle (R246): from the first writer in the order A0, A1, M; Q from any. -/
def bundleFlags (old : NibCore) (ws : List NibWord) (c : NibCore) : NibCore :=
  let writers := ([0, 1, 2].filterMap (wUnits ws)).filter writesFlags
  match writers with
  | [] => c
  | x :: _ =>
    let e := flagEffect old x
    let c1 := putFlag 0 e.z (putFlag 1 e.n (putFlag 2 e.c (putFlag 3 e.v c)))
    if writers.any (fun y => (flagEffect old y).q) then setF2 fiQ true c1 else c1

/-- MOVT of a bundle. -/
def bundleFixed (old : NibCore) (ws : List NibWord) (c : NibCore) : NibCore :=
  ws.foldl (fun a x =>
    if x.unit ≤ 1 && x.op == 0x1E then
      let v := wGet old (opA x.f)
      if opD x.f == 2 then fSet 2 (movtF2 a v) a else fSet (opD x.f) v a
    else a) c

/-- Local stores of the L operation. -/
def localStores (old : NibCore) (x : NibWord) (c : NibCore) : NibCore :=
  match x.op with
  | 0x02 => dmemSet (dataOff old x) (wGet old (opD x.f)) c
  | 0x04 => dmemSet (dataOff old x) (wGet old (opD x.f)) c
  | 0x08 => dmemSet (dataOff old x + 1) (wGet old (opD x.f + 1)) (dmemSet (dataOff old x) (wGet old (opD x.f)) c)
  | 0x06 => match segCheck old true (dataOff old x) with
    | .ok (.local_ a) => dmemSet a (wGet old (opD x.f)) c
    | _ => c
  | _ => c

/-- The address after a bundle of `n` operations, within its half (R244). -/
def nextPc (c : NibCore) (n : Nat) : Nat := (c.pc + 2 * n) % 65536

/-- Bundle address plus the sign-extended OFF16 (R255). -/
def branchTo (c : NibCore) (f : Nat) : Nat := (c.pc + opK16 f) % 65536

/-- CALL and CALLX: the link, the slide, the target (R253). -/
def callTo (old : NibCore) (n target : Nat) (xip : Bool) (c : NibCore) : NibCore :=
  let c1 := setF2 fiLH old.xip (fSet 1 (BitVec.ofNat 16 (nextPc old n)) c)
  { (slideUp c1).getD c1 with pc := target, xip := xip }

/-- The control part of the L operation: where the core goes on, and its slide. `c` holds what the other operations
wrote; `old` is the core before the bundle. -/
def control (s : State) (old : NibCore) (n : Nat) (x : NibWord) (c : NibCore) : NibCore :=
  let c0 := { c with pc := nextPc old n }
  match x.op with
  | 0x09 => if condHolds (opCond x.f) (flagsIn old) then { c with pc := branchTo old x.f } else c0
  | 0x0A => callTo old n (branchTo old x.f) old.xip c
  | 0x0B => callTo old n (wGet old (opA x.f)).toNat (bitAt x.f 0) c
  | 0x0C => { c with pc := (wGet old (opA x.f)).toNat, xip := bitAt x.f 0 }
  | 0x0D => { (slideDown (fun i => freeW s (16 + i)) c).getD c with pc := (fGet old 1).toNat, xip := f2Bit old fiLH }
  | 0x0F =>
    let cnt := if opI x.f then opK12 x.f + 1 else (wGet old (opA x.f)).toNat
    { setF2 fiRA true (fSet 3 (BitVec.ofNat 16 cnt) c0) with repN := false, repAt := old.pc }
  | 0x10 => { setF2 fiRA true (fSet 3 (BitVec.ofNat 16 (opK12 x.f + 1)) c0) with
      repN := true, repAt := old.pc }
  | 0x12 => if bits x.f 3 0 = 11 then { c0 with cycHi := (freeW s 3).toNat } else c0
  | 0x13 => mtc (bits x.f 3 0) (wGet old (opA x.f)).toNat c0
  | _ => c0

/-- The end of an iteration of a repeat (R256). -/
def endIteration (old : NibCore) (n : Nat) (c : NibCore) : NibCore :=
  if !f2Bit old fiRA then c
  else
    let left := (fGet c 3).toNat - 1
    let c1 := fSet 3 (BitVec.ofNat 16 left) c
    if left = 0 then { setF2 fiRA false c1 with pc := nextPc old n }
    else { c1 with pc := old.pc }

/-- A bundle without a trap, on the core (R245, R246). -/
def runBundle (s : State) (k : Nat) (old : NibCore) (ws : List NibWord) : NibCore :=
  let c1 := putRegs (ws.flatMap (regEffect s k old)) old
  let c2 := bundleFixed old ws (bundleFlags old ws c1)
  match wUnits ws 3 with
  | none => endIteration old ws.length { c2 with pc := nextPc old ws.length }
  | some x => endIteration old ws.length (control s old ws.length x (localStores old x c2))

/-! ### Traps (R260 to R264) -/

/-- The core stops and its node fails (R264). -/
def nibStop (k cause tpc : Nat) (s : State) : State :=
  let h := getF s (NIB_CORE_GRAPH k)
  let n := getF s (NIB_CORE_NODE k)
  failNode h n 0 3 .programTrap (updRun h (fun r => { r with tcause := cause, tpc := tpc }) s)

/-- Two slides up for a trap entry. -/
def slideUp2 (c : NibCore) : Option NibCore := (slideUp c).bind slideUp

/-- TCAUSE of a trap of `n` operations. -/
def tcauseOf (c : NibCore) (t : NibTrap) (n : Nat) : Nat :=
  t.code + 256 * (n % 8) + 2048 * bit (f2Bit c fiRA) + 4096 * t.sub

/-- TRAP_ENTRY (R262, R264): `at_` is the bundle that TPC names. RA is 0 in the handler: TPCX and TFLAGS hold it. -/
def trapEntry (k : Nat) (t : NibTrap) (n at_ : Nat) (xip : Bool) (s : State) : State :=
  let c := { nibCore s k with bundle := [] }
  let cause := tcauseOf c t n
  if c.tvbase % 2 = 0 then nibStop k cause (at_ + 65536 * bit xip) (setCore k c s)
  else if f2Bit c fiTH then nibStop k (cause + 0x80) (at_ + 65536 * bit xip) (setCore k c s)
  else
    match slideUp2 c with
    | none => nibStop k (tcauseOf c { t with code := 0x89, sub := 0 } n) (at_ + 65536 * bit xip) (setCore k c s)
    | some c1 =>
      let c2 := setF2 fiRA false (setF2 fiIE false (setF2 fiTH true c1))
      setCore k { c2 with
        trapRepN := c.repN, trapRepAt := c.repAt,
        tpc := at_, tpcx := bit xip + 2 * bit (f2Bit c fiRA), tcause := cause, tinfo := t.info, tflags := f2Of c,
        pc := bits c.tvbase 15 7 * 128 + 8 * t.code, xip := false } s

/-- RETT (R263): f2 comes back from TFLAGS, with TH 0 and the repeat resumed as TPCX[1] says; a fill or check that fails is a double trap (R264). -/
def retTrap (k : Nat) (data : Chk) (s : State) : State :=
  let c := { nibCore s k with bundle := [] }
  let s1 := { s with freeCount := s.freeCount + freeSlots }
  if data == .uncorrectable && c.depth ≤ 3 then
    nibStop k (tcauseOf c { code := 0x84, sub := 0, info := 0 } 1) (c.pc + 65536 * bit c.xip)
      (incF (NIB_CORE_UE k) 1 (setCore k c s1))
  else
    match slideDown2 (fun i => freeW s (16 + i)) c with
    | none => nibStop k (tcauseOf c { code := 0x8A, sub := 0, info := 0 } 1) (c.pc + 65536 * bit c.xip) (setCore k c s1)
    | some c1 =>
      let c2 := setF2 fiRA (bitAt c.tpcx 1) (setF2 fiTH false (fSet 2 (BitVec.ofNat 16 (c.tflags % 1024)) c1))
      setCore k { c2 with pc := c.tpc, xip := bitAt c.tpcx 0, repN := c.trapRepN, repAt := c.trapRepAt } s1

/-! ### Interrupts (R259, R281, R282) -/

/-- A core between bundles that accepts an interrupt: IE = 1, TH = 0, not inside a REPN. -/
def accepts (c : NibCore) : Bool :=
  f2Bit c fiIE && !f2Bit c fiTH && c.bundle.isEmpty && !(f2Bit c fiRA && c.repN)

/-- Pending events in TCAUSE: bit 12 TICK, 13 NOTIFY, 14 pre-emption. -/
def eventSub (c : NibCore) : Nat := bit c.tick + 2 * bit c.notify + 4 * bit c.preempt

/-- The core takes its pending events as one INTERRUPT. -/
def takeInterrupt (k : Nat) (s : State) : State :=
  let c := nibCore s k
  trapEntry k { code := 12, sub := eventSub c, info := 0 } 0 c.pc c.xip
    (setCore k { c with tick := false, notify := false, preempt := false } s)

/-! ### Issue -/

/-- The words at a bundle word's address: those the memory holds, where it holds them. -/
def heldWord (s : State) (c : NibCore) : Option Nat :=
  let a := (c.pc + 2 * c.bundle.length) % 65536
  if c.xip then
    some (fromLe (inkBytesAt s (131072 * c.xpage + 2 * a) 2) * 65536
      + fromLe (inkBytesAt s (131072 * c.xpage + 2 * ((a + 1) % 65536)) 2))
  else match mget c.imem a, mget c.imem ((a + 1) % 65536) with
    | some hi, some lo => some (hi.toNat * 65536 + lo.toNat)
    | _, _ => none

/-- A fetch that fails (R255, R260, R261, R267). -/
def fetchTrap (s : State) (c : NibCore) (fetch : Chk) : Option NibTrap :=
  if fetch == .uncorrectable then some { code := 5, sub := 0, info := 0 }
  else if c.xip && libraryPage c.xpage && bankBusy s (c.xpage / 64) then some { code := 8, sub := 0, info := 0 }
  else if c.xip && !libraryPage c.xpage then some { code := 6, sub := 3, info := 0 }
  else none

/-- The word that enters the bundle: the delivered one where memory does not hold another; a held word of a reserved
operation stands for itself; with any other held word the command cannot arise. -/
def fetched (s : State) (c : NibCore) (x : NibWord) : Option NibWord :=
  let w := 2 ^ 31 * bit x.stop + 2 ^ 29 * x.unit + 2 ^ 23 * x.op + x.f
  match heldWord s c with
  | none => some x
  | some v =>
    if v = w then some x
    else if (formOf (bits v 30 29) (bits v 28 23)).isNone then
      some { unit := bits v 30 29, op := bits v 28 23, f := bits v 22 0, stop := bitAt v 31, data := .good }
    else none

/-- A whole bundle (passed over where a repeat has no iterations to run, R256): the trap it meets, or its effect, stores outside the core, and the operations that act on the core's
node. -/
def nibBundle (k : Nat) (ws : List NibWord) (s : State) : State :=
  let c := { nibCore s k with bundle := [] }
  let n := ws.length
  if f2Bit c fiRA && fGet c 3 == 0 then setCore k { setF2 fiRA false c with pc := nextPc c n } s
  else match bundleTrap s c ws with
  | some t =>
    let s1 := if t.code = 4 then incF (NIB_CORE_UE k) 1 s else s
    let s2 := if t.code = 4 && (wUnits ws 3).any (fun x => x.op == 5 && bits (fGet c 4).toNat 15 12 == 1) then
        incF (NIB_CLUSTER_SHARED_UE (k / 8)) 1 s1 else s1
    let s3 := if t.code = 7 && t.sub = 3 then incF INK_ECC_UE 1 s2 else s2
    trapEntry k t n (if t.code = 2 && t.sub = 6 then c.repAt else c.pc) c.xip (setCore k c s3)
  | none =>
    match wUnits ws 3 with
    | none => setCore k (runBundle s k c ws) s
    | some y =>
      if y.op == 0x0E then retTrap k y.data (countData s k c y.data (withBad s k c y) (setCore k c s))
      else
        let x := withBad s k c y
        let s1 := countData s k c y.data x (setCore k (runBundle s k c ws) { s with freeCount := s.freeCount + freeSlots })
        match x.op with
        | 0x06 => segStore k (dataOff c x) c (wGet c (opD x.f)) x.data s1
        | 0x11 => trapEntry k { code := 11, sub := 0, info := opK12 x.f % 256 } n (nextPc c n) c.xip s1
        | 0x14 => endNode (getF s1 (NIB_CORE_GRAPH k)) (getF s1 (NIB_CORE_NODE k)) (opK12 x.f % 256) 0 s1
        | 0x15 =>
          if c.tick || c.notify || c.preempt then s1
          else updNode (getF s1 (NIB_CORE_GRAPH k)) (getF s1 (NIB_CORE_NODE k)) (fun y => { y with st := 3, waited := 0 })
            (setF (NIB_CORE_STATE k) 3 s1)
        | _ => s1

/-- Local instruction words at which a corrected fetch found an error: the first or the second of the operation, which is open. -/
def badFetch (s : State) (c : NibCore) : Nat := (c.pc + 2 * c.bundle.length + Config.freeNat s.freeCount % 2) % 65536

/-- What the fetch of an operation meets: a bad copy that an earlier correction left is corrected again (R265). -/
def fetchChk (s : State) (c : NibCore) (f : Chk) : Chk :=
  let a := (c.pc + 2 * c.bundle.length) % 65536
  if f == .good && (if c.xip then inkBadIn s (131072 * c.xpage + 2 * a) 4
      else c.badI.contains a || c.badI.contains ((a + 1) % 65536)) then .corrected else f

/-- A corrected fetch is counted; local memory keeps the bad copy, the Inkstone counts its own correction (R265, R365). -/
def countFetch (k : Nat) (c : NibCore) (f : Chk) (s : State) : State :=
  if fetchChk s c f != .corrected then s
  else if c.xip then inkKeepBad (131072 * c.xpage + 2 * ((c.pc + 2 * c.bundle.length) % 65536)) 4 f s
  else incF (NIB_CORE_INSTR_CE k) 1 (if f == .corrected then
      setCore k { c with badI := insertNew (badFetch s c) c.badI } { s with freeCount := s.freeCount + 1 } else s)

/-- A running core fetches one operation word; at S = 1, or at a fourth operation, the bundle runs (R243, R244). A core that
is not running fetches nothing. -/
def nibIssue (unit op : Nat) (o : NibOp) (s : State) : State :=
  let k := o.core
  let c := nibCore s k
  if 32 ≤ k || getF s (NIB_CORE_STATE k) != 2 then s
  else match fetchTrap s c o.fetch with
  | some t =>
    let s0 := if t.code = 5 then incF (NIB_CORE_UE k) 1 s else s
    let s1 := if t.code = 5 && c.xip then incF INK_ECC_UE 1 s0 else s0
    trapEntry k t c.bundle.length c.pc c.xip s1
  | none =>
    match fetched s c { unit := unit, op := op, f := o.body.toNat, stop := o.stop, data := o.data } with
    | none => s
    | some x =>
      let s1 := countFetch k c o.fetch s
      let ws := c.bundle ++ [x]
      if x.stop || 4 ≤ ws.length then nibBundle k ws s1 else setCore k { nibCore s1 k with bundle := ws } s1

end Sys2Proof.Machine
end

