-- ==== Sys2Proof/Machine/Engine.lean ====
section
/-!
DEFINITION. Engine nodes (spec/12 R271, R291; spec/13 R291 to R302, R311 to R313; spec/14 R317 to R333, R341): each job reads its
slots, and ends with its output written or its node failed. PARAMS are bytes 24 to 55 of the descriptor.
-/

namespace Sys2Proof.Machine


def slotBind (d : GNode) (k : Nat) : Option GBind := d.binds.find? (fun b => b.slot == k)

def bufOf (s : State) (h : Nat) (i : Nat) : Option GBuf := (getGraph s h).bind (fun g => g.bufs[i]?)

/-- Bytes of a slot from its binding's offset. -/
def slotRead (s : State) (h : Nat) (d : GNode) (k off n : Nat) : Bytes :=
  match slotBind d k with
  | none => zeros n
  | some b => match bufOf s h b.buf with
    | none => zeros n
    | some x => sgetBytes (fun _ => 0) x.data (b.off + off) n

/-- Bytes from a slot's offset to the end of its buffer. -/
def slotRoom (s : State) (h : Nat) (d : GNode) (k : Nat) : Nat :=
  match slotBind d k with
  | none => 0
  | some b => ((bufOf s h b.buf).map (·.size)).getD 0 - b.off

def slotWrite (h : Nat) (d : GNode) (k : Nat) (bs : Bytes) (s : State) : State :=
  match slotBind d k with
  | none => s
  | some b => dramSetBytes h b.buf b.off bs s

/-- LEN_FROM_PRED (R291): bytes produced by the predecessor that last wrote the input buffer. -/
def predBytes (s : State) (h n : Nat) (d : GNode) : Nat :=
  match getGraph s h, slotBind d 0 with
  | some g, some b =>
    match g.run with
    | none => 0
    | some r =>
      ((List.range g.nodes.length).foldl (fun a i => match g.nodes[i]?, r.nodes[i]? with
        | some e, some x =>
          if x.st == 5 && e.succs.any (fun q => q.1 == n) && e.binds.any (fun y => y.buf == b.buf && y.write) && a.1 ≤ x.endAt
          then (x.endAt, x.bytes) else a
        | _, _ => a) (0, 0)).2
  | _, _ => 0

/-- A job leaves its engine, which serves the next (R330). -/
def leaveEng (h n : Nat) (s : State) : State := dropJobs (fun j => j == (h, n)) s

/-- A job ends DONE. -/
def jobDone (h n produced : Nat) (s : State) : State := endNode h n 0 produced (leaveEng h n s)

/-- A job ends FAILED with an engine's status (R277). -/
def jobFail (h n code : Nat) (st : Status) (s : State) : State :=
  let s1 := if st = .engineLimit then incF CIP_LIMITS 1 s else if st = .authFail then incF CIP_AUTH_FAILS 1 s else s
  failNode h n code 3 st (leaveEng h n s1)

/-- What the job took at its dispatch. -/
def jobHold (s : State) (h n : Nat) : JobHold := ((nodeRun s h n).map (·.job)).getD {}

/-- The function that owns the graph. -/
def jobFn (s : State) (h : Nat) : Nat := ((getGraph s h).map (·.fn)).getD 0

/-- The input ends before the declared count: the lane's count differs from BYTES when the source ends (R291, R293). -/
def sourceShort (s : State) (h : Nat) (d : GNode) (n : Nat) : Bool := slotRoom s h d 0 < n

/-! ### DIGEST, SIGN (R311, R313) -/

def digestJob (h n : Nat) (d : GNode) (res : JobRes) (s : State) : State :=
  let alg := pByte d 24
  let x := jobHold s h n
  if res.countBad || sourceShort s h d x.len then jobFail h n 0 .lengthMismatch s
  else
    let m := slotRead s h d 0 0 x.len
    let full := if bitAt (pByte d 25) 0 then fixLen (digestLen alg) (Config.rawHmac alg x.key m) else digest alg m
    let t := if pField d 30 2 = 0 then digestLen alg else pField d 30 2
    let out := full.take t
    let eq := out == slotRead s h d 2 0 t
    match pByte d 26 with
    | 0 => jobDone h n t (slotWrite h d 1 out s)
    | 1 => if res.flagFault then jobFail h n 0 .compareFault (compareFault 1 0 s)
           else jobDone h n 4 (slotWrite h d 1 (le 4 (bit eq)) s)
    | _ => if res.flagFault then jobFail h n 0 .compareFault (compareFault 1 0 s)
           else if eq then jobDone h n 0 s else jobFail h n 0 .compareFailure s

def signJob (h n : Nat) (d : GNode) (res : JobRes) (s : State) : State :=
  let alg := pByte d 25
  let m := slotRead s h d 0 0 (pField d 32 4)
  if sourceShort s h d (pField d 32 4) then jobFail h n 0 .lengthMismatch s
  else if pByte d 24 = 1 then
    let sg := fixLen (sigLen alg) (Config.rawSign alg (jobHold s h n).key m)
    jobDone h n (sigLen alg) (slotWrite h d 1 sg (incF SGN_COUNT_SIGNED 1 s))
  else if res.flagFault then jobFail h n 0 .compareFault (compareFault 3 0 s)
  else
    let ok := Config.sigVerifies alg (slotRead s h d 2 0 (pubLen alg)) m (slotRead s h d 2 (pubLen alg) (sigLen alg))
    if pByte d 24 = 2 then
      let s1 := if ok then s else incF CIP_AUTH_FAILS 1 s
      jobDone h n 4 (slotWrite h d 1 (le 4 (bit ok)) s1)
    else if ok then jobDone h n 0 s
    else jobFail h n 0 .authFail s

/-! ### CIPHER (R299 to R302, R312) -/

/-- The limits of R301. -/
def cipherLimit (s : State) (d : GNode) (len : Nat) : Bool :=
  let w := pField d 40 4
  match pByte d 24 with
  | 1 | 2 => w < 16 || 16777216 < w || len % max 1 w != 0
  | 3 => 2 ^ 36 - 32 < len
  | 4 => 2 ^ 36 - 32 < len ||
    (1048576 < len && !(bitAt (pByte d 25) 0 && flagF s CIP_CTL_STREAM_EN))
  | 5 => 2 ^ 32 < w + ceilDiv len 16
  | 6 => len < 24 || 136 < len || len % 8 != 0
  | _ => len < 16 || 136 < len || len % 8 != 0

def cipherUses (mode : Nat) : List Nat := if mode ≤ 2 then [1] else if mode ≤ 5 then [2, 3] else [4]

/-- The target slot of an unwrap is empty or held by the graph's function (R312). -/
def targetBad (s : State) (h : Nat) (d : GNode) : Bool := (keySlot s (pField d 30 2 % 1024)).any (fun x => x.owner != jobFn s h)

/-- The key-unwrap node: the target slot takes the key (R312). -/
def unwrapJob (h n : Nat) (d : GNode) (x : JobHold) (s : State) : State :=
  if targetBad s h d then jobFail h n 0 .invalidField s
  else match Config.rawUnwrap (pByte d 24 - 6) x.key (slotRead s h d 0 0 x.len) with
    | none => jobFail h n 0 .keyUnwrapFail (incF CIP_UNWRAP_FAILS 1 s)
    | some k =>
      if !useLenOk (pByte d 27) k.length then jobFail h n 0 .engineLimit s
      else jobDone h n 0 (setSlot (pField d 30 2 % 1024) { use := pByte d 27, owner := jobFn s h, any := false, key := k } s)

/-- The GCM decrypt (R302): staged plaintext reaches the output only after the tag; released plaintext is zero-filled. -/
def gcmOpen (h n len : Nat) (d : GNode) (res : JobRes) (key iv aad c : Bytes) (s : State) : State :=
  let plain := fixLen len (Config.rawCipher 1 false key iv c)
  let tag := slotRead s h d 2 0 (pByte d 26)
  let good := fixLen (pByte d 26) (Config.rawGcmTag key iv aad c) == tag
  let zeroed (a : State) : State :=
    if 1048576 < len then incF CIP_ZEROED_KIB (ceilDiv len 1024) (slotWrite h d 1 (zeros len) a) else a
  if res.flagFault then jobFail h n 0 .compareFault (compareFault 2 0 (zeroed s))
  else if good then jobDone h n len (slotWrite h d 1 plain s)
  else jobFail h n 0 .authFail (zeroed s)

/-- AAD_BYTES of a GCM job. -/
def gcmAad (d : GNode) : Nat := if isGcm d then pField d 40 4 else 0

/-- A decrypt under STREAM_RELEASE writes its plaintext as it goes (R302): how much stands in the output buffer before the tag check is a
free value (notes/assumptions/2). -/
def streamOut (h n : Nat) (d : GNode) (s : State) : State :=
  let x := jobHold s h n
  if d.kind != .cipher || pByte d 24 != 4 || x.len ≤ 1048576 then s
  else
    let r := takeFree s
    let plain := fixLen x.len (Config.rawCipher 1 false x.key (slice d.params 20 12) (slotRead s h d 0 (gcmAad d) x.len))
    slotWrite h d 1 (plain.take (r.1 % (x.len + 1))) r.2

def cipherJob (h n : Nat) (d : GNode) (res : JobRes) (s : State) : State :=
  let x := jobHold s h n
  let iv := slice d.params 20 12
  let word := pField d 40 4
  let plain := slotRead s h d 0 0 x.len
  if res.countBad || sourceShort s h d (x.len + gcmAad d) then jobFail h n 0 .lengthMismatch s
  else match pByte d 24 with
    | 1 => jobDone h n x.len (slotWrite h d 1 (fixLen x.len (Config.rawCipher 0 true x.key (iv ++ le 4 word) plain)) s)
    | 2 => jobDone h n x.len (slotWrite h d 1 (fixLen x.len (Config.rawCipher 0 false x.key (iv ++ le 4 word) plain)) s)
    | 3 =>
      let aad := slotRead s h d 0 0 word
      let c := fixLen x.len (Config.rawCipher 1 true x.key iv (slotRead s h d 0 word x.len))
      jobDone h n (x.len + pByte d 26) (slotWrite h d 1 (c ++ fixLen (pByte d 26) (Config.rawGcmTag x.key iv aad c)) s)
    | 4 => gcmOpen h n x.len d res x.key iv (slotRead s h d 0 0 word) (slotRead s h d 0 word x.len) s
    | 5 => jobDone h n x.len (slotWrite h d 1 (fixLen x.len (Config.rawCipher 2 true x.key (iv ++ be 4 word) plain)) s)
    | _ => unwrapJob h n d x s

/-! ### Output chains (R324, R325) -/

/-- The ranges of a job's output: the slot's rest, or the chain list. -/
def outRanges (s : State) (h : Nat) (d : GNode) (chain : Bool) : List (Nat × Nat × Nat) :=
  match slotBind d 1 with
  | none => []
  | some b =>
    if !chain then [(b.buf, b.off, slotRoom s h d 1)]
    else
      let es := (List.range 16).map (fun i =>
        let e := slotRead s h d 1 (16 * i) 16
        (leAt e 0 2, leAt e 4 4, leAt e 8 4))
      es.takeWhile (fun e => e.2.2 != 0)

/-- The check of a chain list against the graph's buffers and the input range. -/
def rangesBad (s : State) (h : Nat) (d : GNode) (len : Nat) (rs : List (Nat × Nat × Nat)) : Bool :=
  rs.any (fun r => match bufOf s h r.1 with
    | none => true
    | some x => x.size < r.2.1 + r.2.2 || (slotBind d 0).any (fun b =>
        b.buf == r.1 && r.2.1 < b.off + len && b.off < r.2.1 + r.2.2))

def roomOf (rs : List (Nat × Nat × Nat)) : Nat := rs.foldl (fun a r => a + r.2.2) 0

/-- Write bytes through the ranges in order. -/
def scatter (h : Nat) (rs : List (Nat × Nat × Nat)) (bs : Bytes) (s : State) : State :=
  match rs with
  | [] => s
  | r :: t => if bs.isEmpty then s else scatter h t (bs.drop r.2.2) (dramSetBytes h r.1 r.2.1 (bs.take r.2.2) s)

/-- Pieces that fit, whole, in the room left. -/
def takeFit (room : Nat) : List Bytes → List Bytes
  | [] => []
  | p :: t => if p.length ≤ room then p :: takeFit (room - p.length) t else []

/-! ### COMPRESS (R318 to R326, R331, R332) -/

def cutBlocks (bs : Bytes) (size fuel : Nat) : List Bytes :=
  match fuel with
  | 0 => []
  | k + 1 => if bs.isEmpty then [] else bs.take size :: cutBlocks (bs.drop size) size k

/-- A block is stored raw where compression does not shrink it. -/
def isRaw (method level : Nat) (b : Bytes) : Bool := b.length ≤ (Config.rawCompress (method - 1) level [] b).length

/-- One block: its header and body; `keep` stores it raw whatever its compressed form (R320, R343). -/
def blockPiece (method level : Nat) (keep : Bool) (b : Bytes) : Bytes :=
  let raw := keep || isRaw method level b
  let body := if raw then b else Config.rawCompress (method - 1) level [] b
  le 1 (if raw then 0 else method) ++ zeros 3 ++ le 4 body.length ++ le 4 b.length ++ le 4 (crc32 b) ++ body

def streamHead (method level log2 orig blocks : Nat) : Bytes :=
  let h := [0x40#8, 0x01#8] ++ le 1 method ++ le 1 level ++ le 1 log2 ++ zeros 3 ++ le 8 orig ++ le 4 blocks ++ zeros 8
  h ++ le 4 (crc32 h)

/-- Stream offsets of the blocks. -/
def blockOffsets (at_ : Nat) : List Bytes → List Nat
  | [] => []
  | p :: t => at_ :: blockOffsets (at_ + p.length) t

/-- The blocks of a stream in order; those of `kept` are stored raw. -/
def blockList (method level log2 : Nat) (kept : List Nat) (bs : Bytes) : List Bytes :=
  (cutBlocks bs (2 ^ log2) (bs.length + 1)).mapIdx (fun i b => blockPiece method level (kept.contains i) b)

def streamTrailer (indexOff : Nat) (orig index : Bytes) : Bytes := le 8 indexOff ++ le 4 (crc32 orig) ++ le 4 (crc32 index)

/-- A whole stream, as EXPORT writes it (R321, R323). -/
def wholeStream (method level log2 : Nat) (bs : Bytes) : Bytes :=
  let ps := blockList method level log2 [] bs
  let index := ((blockOffsets 32 ps).map (le 8)).flatten
  streamHead method level log2 bs.length ps.length ++ ps.flatten ++ index ++ streamTrailer (32 + ps.flatten.length) bs index

def resumeRecord (st method level log2 next crc inOff outOff : Nat) : Bytes :=
  [0x41#8, 0x01#8] ++ le 1 st ++ le 1 method ++ le 1 level ++ le 1 log2 ++ zeros 2 ++ le 4 next ++ le 4 crc ++ le 8 inOff
    ++ le 8 outOff

/-- The checks of a resume record against the job (R326): `orig` are the original bytes before its NEXT_BLOCK. -/
def recordOk (r : Bytes) (method level log2 inOff : Nat) (orig : Bytes) : Bool :=
  byteAt r 0 == 0x41 && byteAt r 1 == 1 && byteAt r 2 == 1 && byteAt r 3 == method && byteAt r 4 == level && byteAt r 5 == log2 &&
    leAt r 6 2 == 0 && leAt r 16 8 == inOff && leAt r 12 4 == crc32 orig

/-- The end of a job whose output is `took` of the pieces `rest` (R325, R326): with RESUMABLE the record says where it stopped. -/
def emitPieces (h n : Nat) (d : GNode) (rs : List (Nat × Nat × Nat)) (flags : Nat) (took rest : List Bytes) (record : Bytes)
    (s : State) : State :=
  let s1 := scatter h rs took.flatten s
  let s2 := if bitAt flags 2 then slotWrite h d 2 record s1 else s1
  if took.length == rest.length || bitAt flags 2 then jobDone h n took.flatten.length s2 else jobFail h n 0 .outputExhausted s2

/-- A resumed job that has written every block finds its index written too: OUT_OFFSET is not the end of the last block, which begins
at the last entry. -/
def indexWritten (method level out lastAt : Nat) (last : Bytes) : Bool :=
  out != lastAt + (blockPiece method level false last).length && out != lastAt + 16 + last.length

/-- A COMPRESS job from block `next` and output offset `out` on: earlier index entries stand in slot 3 (R325). -/
def compressFrom (h n : Nat) (d : GNode) (x : JobHold) (bs : Bytes) (next out : Nat) (s : State) : State :=
  let method := pByte d 24
  let level := pByte d 25
  let log2 := pByte d 27
  let all := blockList method level log2 x.kept bs
  let mine := all.drop next
  let head := if next = 0 then streamHead method level log2 bs.length all.length else []
  let index := slotRead s h d 3 0 (8 * next) ++ ((blockOffsets (out + head.length) mine).map (le 8)).flatten
  let written := next == all.length &&
    indexWritten method level out (leAt index (8 * (next - 1)) 8) (bs.drop ((next - 1) * 2 ^ log2))
  let tailAt := if written then out - 8 * all.length else out + head.length + mine.flatten.length
  let rest := (match mine with
    | [] => []
    | p :: t => (head ++ p) :: t) ++ (if written then [] else [index]) ++ [streamTrailer tailAt bs index]
  let took := takeFit (roomOf x.ranges) rest
  let made := next + min mine.length took.length
  let inOff := min bs.length (made * 2 ^ log2)
  emitPieces h n d x.ranges (pByte d 26) took rest
    (resumeRecord (bit (took.length != rest.length)) method level log2 made (crc32 (bs.take inOff)) inOff
      (out + took.flatten.length)) (slotWrite h d 3 (index.take (8 * made)) s)

def compressJob (h n : Nat) (d : GNode) (res : JobRes) (s : State) : State :=
  let log2 := pByte d 27
  let x := jobHold s h n
  if res.countBad || sourceShort s h d x.len then jobFail h n 0 .lengthMismatch s
  else
    let bs := slotRead s h d 0 0 x.len
    let next := leAt x.record 8 4
    let inOff := min x.len (next * 2 ^ log2)
    if !bitAt (pByte d 26) 3 then compressFrom h n d x bs 0 0 s
    else if recordOk x.record (pByte d 24) (pByte d 25) log2 inOff (bs.take inOff) && next ≤ ceilDiv x.len (2 ^ log2) then
      compressFrom h n d x bs next (leAt x.record 24 8) s
    else jobFail h n 0 .invalidField s

/-! ### DECOMPRESS (R327 to R331, R333) -/

/-- The outcome of decoding: the blocks that checked, the input offset before each and after the last, and the error that stopped it
(code and block number). -/
structure Decoded where
  blocks : List Bytes := []
  offs : List Nat := []
  err : Option (Nat × Nat) := none
  next : Nat := 0
  deriving DecidableEq, Repr

/-- One block at `off`: its bytes and the offset after it, or the code of R328. -/
def decodeBlock (m : Bytes) (method log2 off : Nat) : Except Nat (Bytes × Nat) :=
  if m.length < off + 16 then .error 5
  else
    let bm := byteAt m off
    let cl := leAt m (off + 4) 4
    let ol := leAt m (off + 8) 4
    if leAt m (off + 1) 3 != 0 || (bm != 0 && bm != method) then .error 1
    else if ol == 0 || 2 ^ log2 < ol || 66560 < cl then .error 6
    else if m.length < off + 16 + cl then .error 5
    else
      let body := slice m (off + 16) cl
      if bm = 0 then
        (if cl != ol then .error 3 else if crc32 body != leAt m (off + 12) 4 then .error 4 else .ok (body, off + 16 + cl))
      else match Config.rawDecompress (method - 1) [] body with
        | .error e => .error e
        | .ok b =>
          if ol < b.length then .error 3 else if b.length < ol then .error 5
          else if crc32 b != leAt m (off + 12) 4 then .error 4 else .ok (b, off + 16 + cl)

def decodeBlocks (m : Bytes) (method log2 off blk count : Nat) (acc : Decoded) : Decoded :=
  match count with
  | 0 => { acc with offs := acc.offs ++ [off], next := off }
  | k + 1 => match decodeBlock m method log2 off with
    | .error e => { acc with offs := acc.offs ++ [off], err := some (e, blk), next := off }
    | .ok r => decodeBlocks m method log2 r.2 (blk + 1) k { acc with blocks := acc.blocks ++ [r.1], offs := acc.offs ++ [off] }

/-- The header checks of a stream. -/
def headError (m : Bytes) : Option Nat :=
  if m.length < 32 then some 5
  else if byteAt m 0 != 0x40 || byteAt m 1 != 1 || leAt m 5 3 != 0 || !allZero (slice m 20 8) || byteAt m 2 == 0 ||
    2 < byteAt m 2 then some 1
  else if byteAt m 4 < 12 || 16 < byteAt m 4 then some 6
  else if crc32 (m.take 28) != leAt m 28 4 then some 4
  else none

/-- The index and the trailer of a stream, at the end of the input. -/
def streamIndex (m : Bytes) (blocks : Nat) : Bytes := slice m (m.length - 16 - 8 * blocks) (8 * blocks)

def decodeStream (m : Bytes) (first count : Nat) : Decoded :=
  match headError m with
  | some e => { err := some (e, 0) }
  | none =>
    let blocks := leAt m 16 4
    let idx := streamIndex m blocks
    let icrcBad := crc32 idx != leAt m (m.length - 4) 4
    let start := if first = 0 then 32 else leAt idx (8 * first) 8
    let k := if count = 0 then blocks - first else count
    if first != 0 && (m.length < 48 + 8 * blocks || blocks ≤ first) then { err := some (5, first) }
    else if first != 0 && icrcBad then { err := some (4, first) }
    else
      let r := decodeBlocks m (byteAt m 2) (byteAt m 4) start first k {}
      match r.err with
      | some _ => r
      | none =>
        if first != 0 || (count != 0 && count != blocks) then r
        else if m.length < r.next + 8 * blocks + 16 then { r with err := some (5, blocks) }
        else if crc32 (slice m r.next (8 * blocks)) != leAt m (r.next + 8 * blocks + 12) 4 ||
            crc32 r.blocks.flatten != leAt m (r.next + 8 * blocks + 8) 4 then { r with err := some (4, blocks) }
        else if leAt m 8 8 != r.blocks.flatten.length then { r with err := some (5, blocks) }
        else r

/-- A raw LZ4 block or zlib stream. -/
def decodeRaw (cls : Nat) (m : Bytes) (orig : Nat) : Decoded :=
  match Config.rawDecompress cls [] m with
  | .error e => { err := some (e, 0) }
  | .ok b => if orig < b.length then { err := some (6, 0) } else if b.length < orig then { err := some (5, 0) }
      else { blocks := [b], offs := [0, m.length] }

def cmpErrCount (code : Nat) : Fld :=
  match code with
  | 1 => CMP_ERR_COUNT1
  | 2 => CMP_ERR_COUNT2
  | 3 => CMP_ERR_COUNT3
  | 4 => CMP_ERR_COUNT4
  | 5 => CMP_ERR_COUNT5
  | _ => CMP_ERR_COUNT6

/-- An error stops the job (R329): what it wrote is zero-filled, the code is reported. -/
def decompError (h n code block : Nat) (rs : List (Nat × Nat × Nat)) (written : Nat) (s : State) : State :=
  let s1 := scatter h rs (zeros written) s
  jobFail h n code .decompError
    (setF CMP_LAST_ERR_CODE code (setF CMP_LAST_ERR_NODE n (setF CMP_LAST_ERR_GRAPH h (setF CMP_LAST_ERR_VALID 1
      (setF CMP_ERR_BLOCK block (incF (cmpErrCount code) 1 s1))))))

/-- A DECOMPRESS job whose first `skip` blocks were produced in earlier parts: blocks are written while they fit, and an error counts
only where every block before it has been written (R325, R328, R329). `first` is FIRST_BLOCK. -/
def decompressFrom (h n : Nat) (d : GNode) (x : JobHold) (method level log2 first skip : Nat) (r : Decoded) (s : State) : State :=
  let rest := r.blocks.drop skip
  let took := takeFit (roomOf x.ranges) rest
  let made := skip + took.length
  let orig := (r.blocks.take made).flatten
  match r.err.filter (fun _ => took.length == rest.length) with
  | some e => decompError h n e.1 e.2 x.ranges took.flatten.length s
  | none => emitPieces h n d x.ranges (pByte d 26) took rest (resumeRecord (bit (took.length != rest.length)) method level log2
      (first + made) (crc32 orig) ((r.offs[made]?).getD 0) orig.length) s

def decompressJob (h n : Nat) (d : GNode) (res : JobRes) (s : State) : State :=
  let fmt := pByte d 24
  let x := jobHold s h n
  if res.countBad || sourceShort s h d x.len then jobFail h n 0 .lengthMismatch s
  else
    let m := slotRead s h d 0 0 x.len
    let first := pField d 28 4
    let r := if fmt = 0 then decodeStream m first (pField d 40 4) else decodeRaw (fmt - 1) m (pField d 44 4)
    let method := if fmt = 0 then byteAt m 2 else fmt
    let level := if fmt = 0 then byteAt m 3 else 0
    let log2 := if fmt = 0 then byteAt m 4 else 16
    let skip := leAt x.record 8 4 - first
    let before := (r.blocks.take skip).flatten
    if !bitAt (pByte d 26) 3 then decompressFrom h n d x method level log2 first 0 r s
    else if recordOk x.record method level log2 ((r.offs[skip]?).getD 0) before && first ≤ leAt x.record 8 4 &&
        skip ≤ r.blocks.length && leAt x.record 24 8 == before.length then
      decompressFrom h n d x method level log2 first skip r s
    else jobFail h n 0 .invalidField s

/-- Blocks that this part of a job has done. -/
def blocksDone (s : State) (h n : Nat) : Nat :=
  ((s.crypt.blocks.find? (fun e => e.1 == h && e.2.1 == n)).map (·.2.2)).getD 0

/-- The count of done blocks with one more of a job. -/
def countBlock (s : State) (h n : Nat) : List (Nat × Nat × Nat) :=
  (h, n, blocksDone s h n + 1) :: s.crypt.blocks.filter (fun e => e.1 != h || e.2.1 != n)

/-- The block that a job is at: those of this part, after the ones of earlier parts (R326). -/
def blockAt (s : State) (h n : Nat) (d : GNode) : Nat :=
  blocksDone s h n + (if bitAt (pByte d 26) 3 then leAt (jobHold s h n).record 8 4 else 0)

/-- COMPRESS_BLOCK_DONE (R330, R343): a block of a running job is done; its class may switch to another user. With
CMP_CTL.VERIFY a block whose check fails is stored raw and a blot, of a code the spec does not state, is recorded. -/
def execCompressBlockDone (graph node : Nat) (verifyBad : Bool) (s : State) : Result :=
  .next (match nodeDesc s graph node with
  | none => s
  | some d =>
    let e := ((jobHold s graph node).eng).getD 0
    if (d.kind != .compress && d.kind != .decompress) || !(engQ s e).on.contains (graph, node) then s
    else
      let k := blockAt s graph node d
      let line := e == 2
      let b := slotRead s graph d 0 (k * 2 ^ pByte d 27) (min (2 ^ pByte d 27) ((jobHold s graph node).len - k * 2 ^ pByte d 27))
      let kib := if d.kind == .compress then ceilDiv b.length 1024 else 64
      let bad := d.kind == .compress && verifyBad && flagF s CMP_CTL_VERIFY
      let raw := d.kind == .compress && (isRaw (pByte d 24) (pByte d 25) b || bad)
      let s1 := incF (if line then CMP_LINE_KIB else CMP_LEVELS_KIB) kib
        { s with crypt := { s.crypt with blocks := countBlock s graph node } }
      let s2 := if raw then incF CMP_RAW_BLOCKS 1 s1 else s1
      let s3 := if bad then
          let f := takeFree s2
          blot (f.1 % 65536) 1 node [] (updNode graph node (fun y => { y with job := { y.job with kept := y.job.kept ++ [k] } }) f.2)
        else s2
      let s4 := spendEng e (graphClass s3 graph) (kib * 1024) s3
      if yieldWhy s4 e (graph, node) = 0 then s4 else fillEng e (leaveTurn e (graph, node) s4))

/-! ### SIEVE nodes (R341) -/

/-- The results of one lookup of a node. -/
def lookupRecord (s : State) (p key max_ : Nat) : Bytes :=
  let hs := matchesOf s p key
  let shown := hs.take max_
  let item (e : Nat × SieveEntry) : Bytes := le 4 (e.1 + e.2.cls * 2 ^ 24) ++ le 4 e.2.result
  le 2 shown.length ++ le 1 (bit (1 < hs.length) + 2 * bit (suspect s p)) ++ zeros 5 ++ (shown.map item).flatten
    ++ (List.replicate (max_ - shown.length) (le 4 (2 ^ 32 - 1) ++ le 4 0)).flatten

def entryOf (r : Bytes) : SieveEntry := { value := leAt r 0 18, care := leAt r 18 18, cls := byteAt r 40 % 16, result := leAt r 36 4 }

/-- A READ record of an index. -/
def entryRecord (s : State) (p i : Nat) : Bytes :=
  match mget (partEntries s p) i with
  | some e => le 18 e.value ++ le 18 e.care ++ le 4 e.result ++ le 1 e.cls ++ le 1 1 ++ zeros 2 ++ le 4 i
  | none => zeros 42 ++ zeros 2 ++ le 4 i

def sieveRecSize (op : Nat) : Nat := if op = 1 then 32 else if op = 2 || op = 3 then 48 else 4

/-- What the records of a SIEVE node have done: why they stopped, the output, and the operations performed. -/
structure SieveRun where
  state : State
  stop : Option Status := none
  out : Bytes := []
  ops : Nat := 0
  deriving DecidableEq, Repr

/-- Entry operations of an INSERT at `i`: its moves and the write (R338, R341). -/
def insertOps (s : State) (p i : Nat) : Nat := ((freeAbove s p i).getD i) - i + 1

/-- Records of one node are applied in order, each whole; a bad index or a full partition stops it (R338, R339, R341). `bad` are the
records of a LOOKUP whose winning entry fails its parity. -/
def sieveRecords (h n : Nat) (d : GNode) (op p k : Nat) (bad : List Nat) (r0 : SieveRun) (count : Nat) : SieveRun :=
  match count with
  | 0 => r0
  | c + 1 =>
    let s := r0.state
    let size := sieveRecSize op
    let r := slotRead s h d 0 (k * size) size
    let i := if op = 2 || op = 3 then leAt r 44 4 else leAt r 0 4
    let next (a : State) (ops : Nat) (out : Bytes) : SieveRun :=
      sieveRecords h n d op p (k + 1) bad { r0 with state := a, ops := r0.ops + ops, out := r0.out ++ out } c
    if op = 1 then
      let key := leAt r 0 18
      let s1 := lookupParity p key (bad.contains k) s
      next (countLookup p key s1) 1 (lookupRecord s1 p key (pByte d 26))
    else if partSize s p ≤ i then { r0 with stop := some .invalidField }
    else match op with
      | 2 =>
        let e := if bitAt (byteAt r 41) 0 then some (entryOf r) else none
        next (if isHole s p i && e.isSome && !mhas (partEntries s p) i then s else sieveWrite p i e s) 1 []
      | 3 => match sieveInsert p i (entryOf r) s with
        | some s1 => next s1 (insertOps s p i) []
        | none => { r0 with stop := some .engineLimit }
      | 4 => next (sieveWrite p i none s) 1 []
      | _ => next s 1 (entryRecord s p i)

/-- The moves of INSERTs are charged beside the records that the dispatch charged (R341). -/
def chargeMoves (h n ops : Nat) (s : State) : State :=
  let u := ceilDiv ops 1024 - ceilDiv (jobHold s h n).len 1024
  updNode h n (fun y => { y with used := y.used + u })
    (updRun h (fun q => { q with engine := q.engine + u, gEng := q.gEng - u, dEng := q.dEng + (u - q.gEng) }) s)

def sieveJob (h n : Nat) (d : GNode) (bad : List Nat) (s : State) : State :=
  let r := sieveRecords h n d (pByte d 24) (pByte d 25) 0 bad { state := s } (jobHold s h n).len
  let s1 := slotWrite h d 1 r.out (chargeMoves h n r.ops r.state)
  match r.stop with
  | some st => jobFail h n 0 st s1
  | none => jobDone h n r.out.length s1

/-- The operation of a SIEVE node that runs, where it is the node's. -/
def sieveOp (op h n : Nat) (bad : List Nat) (s : State) : State :=
  match nodeDesc s h n with
  | none => s
  | some d => if d.kind == .sieve && pByte d 24 == op && (nodeRun s h n).any (fun x => x.st == 2) then sieveJob h n d bad s else s

/-- SIEVE_LOOKUP (R336, R340). -/
def execSieveLookup (graph : Nat) (node : LookupNode) (s : State) : Result := .next (sieveOp 1 graph node.node node.bad s)

/-- SIEVE_WRITE. -/
def execSieveWrite (graph node : Nat) (s : State) : Result := .next (sieveOp 2 graph node [] s)

/-- SIEVE_INSERT. -/
def execSieveInsert (graph node : Nat) (s : State) : Result := .next (sieveOp 3 graph node [] s)

/-- SIEVE_INVALIDATE. -/
def execSieveInvalidate (graph node : Nat) (s : State) : Result := .next (sieveOp 4 graph node [] s)

/-- SIEVE_READ. -/
def execSieveRead (graph node : Nat) (s : State) : Result := .next (sieveOp 5 graph node [] s)

/-! ### Media, DRAM and host nodes (R271, R277) -/

/-- A namespace that the node's function reaches. -/
def nodeNs (s : State) (h : Nat) (d : GNode) : Option Ns :=
  (getNs s (pField d 24 4)).filter (fun x => x.attached.contains (jobFn s h))

def mediaReadJob (h n : Nat) (d : GNode) (s : State) : State :=
  let x := jobHold s h n
  if x.lost then jobFail h n 0 .unrecoveredRead s
  else jobDone h n x.media.length (slotWrite h d 1 x.media s)

/-- A MEDIA_WRITE is applied as one Write (R78, R271). -/
def mediaWriteJob (h n : Nat) (d : GNode) (s : State) : State :=
  match nodeNs s h d with
  | none => jobFail h n 0 .invalidNamespaceOrFormat s
  | some x =>
    let k := pField d 36 4 + 1
    if s.mode.cur == .readOnly then jobFail h n 0 .readOnlyMedia s
    else jobDone h n (k * x.blk)
      (applyWrite (pField d 24 4) (pField d 28 8) (slotRead s h d 0 0 (k * x.blk)) { fn := jobFn s h } s)

def copyJob (h n : Nat) (d : GNode) (s : State) : State :=
  let len := pField d 24 4
  jobDone h n len (slotWrite h d 1 (slotRead s h d 0 0 len) s)

def hostInJob (h n : Nat) (d : GNode) (res : JobRes) (s : State) : State :=
  let len := pField d 32 4
  if res.dmaError then jobFail h n 0 .dataTransferError s
  else jobDone h n len (slotWrite h d 1 (fixLen len res.hostData) s)

def hostOutJob (h n : Nat) (d : GNode) (res : JobRes) (s : State) : State :=
  let len := pField d 32 4
  if res.dmaError then jobFail h n 0 .dataTransferError s
  else jobDone h n len (hostOut (((getGraph s h).map (·.fn)).getD 0) 0xFFFF (slotRead s h d 0 0 len) s)

/-! ### Dispatch of a job (R78, R271, R286, R291, R293, R298, R301, R304, R312, R324, R326, R331, R341) -/

/-- LEN_FROM_PRED. -/
def fromPred (d : GNode) : Bool := match d.kind with
  | .digest | .cipher => bitAt (pByte d 25) 1
  | .compress | .decompress => bitAt (pByte d 26) 0
  | .sieve => bitAt (pByte d 27) 0
  | _ => false

/-- Bytes of a job, or records of a SIEVE node: declared, or those the predecessor produced. -/
def jobLen (s : State) (h n : Nat) (d : GNode) : Nat := match d.kind with
  | .digest | .cipher | .compress | .decompress => if fromPred d then predBytes s h n d else pField d 32 8
  | .sieve => if fromPred d then predBytes s h n d / sieveRecSize (pByte d 24) else pField d 28 4
  | _ => pField d 32 4

/-- The slot whose key a job copies. -/
def jobKey (s : State) (d : GNode) : Bytes := ((keySlot s (pField d 28 2 % 1024)).map (·.key)).getD []

/-- A media node's range, its namespace found. -/
def mediaError (s : State) (h : Nat) (d : GNode) : Option Status :=
  match nodeNs s h d with
  | none => some .invalidNamespaceOrFormat
  | some x =>
    let write := d.kind == .mediaWrite
    if x.busy.status.isSome then x.busy.status
    else if write && x.sealed then some .sealedRange
    else if write && s.mode.cur == .readOnly then some .readOnlyMedia
    else if x.ncap < pField d 28 8 + (pField d 36 4 + 1) then some .lbaOutOfRange
    else none

/-- Why a job fails at its dispatch, before any output. -/
def dispatchError (s : State) (h n : Nat) (d : GNode) : Option Status :=
  let len := jobLen s h n d
  let fn := jobFn s h
  let slot := pField d 28 2 % 1024
  let tooLong := fromPred d && slotRoom s h d 0 < len
  match d.kind with
  | .digest =>
    if tooLong then some .lengthMismatch
    else if 2 ^ 61 ≤ len then some .engineLimit
    else if bitAt (pByte d 25) 0 && !slotFits s fn slot [5] then some .invalidField
    else none
  | .cipher =>
    if tooLong then some .lengthMismatch
    else if cipherLimit s d len then some .engineLimit
    else if !slotFits s fn slot (cipherUses (pByte d 24)) || (6 ≤ pByte d 24 && targetBad s h d) then some .invalidField
    else none
  | .sign =>
    if pByte d 25 = 3 && 1048576 < len then some .engineLimit
    else if pByte d 24 = 1 && !slotFits s fn slot [5 + pByte d 25] then some .invalidField
    else none
  | .compress =>
    if tooLong then some .lengthMismatch
    else if len == 0 || 2 ^ 30 < len || !(slotBind d 3).any (·.write) || slotRoom s h d 3 < 8 * ceilDiv len (2 ^ pByte d 27) then
      some .engineLimit
    else if bitAt (pByte d 26) 1 && rangesBad s h d len (outRanges s h d true) then some .invalidField
    else none
  | .decompress =>
    if tooLong then some .lengthMismatch
    else if len == 0 || 2 ^ 30 < len || (pByte d 24 != 0 && (pField d 44 4 == 0 || 65536 < pField d 44 4)) then some .engineLimit
    else if bitAt (pByte d 26) 1 && rangesBad s h d len (outRanges s h d true) then some .invalidField
    else none
  | .sieve => if fromPred d && predBytes s h n d % sieveRecSize (pByte d 24) != 0 then some .lengthMismatch else none
  | .mediaRead | .mediaWrite => mediaError s h d
  | _ => none

/-- The shared engine that serves a node (R19): a stream's METHOD selects the class of a DECOMPRESS node (R327). -/
def engOf (s : State) (h : Nat) (d : GNode) : Option Nat :=
  let method := if d.kind == .decompress && pByte d 24 == 0 then byteAt (slotRead s h d 0 2 1) 0 else pByte d 24
  match d.kind with
  | .digest => some 0
  | .cipher => some 1
  | .compress | .decompress => some (if method = 1 then 2 else 3)
  | _ => none

/-- What the job takes with it. -/
def takeJob (s : State) (h n : Nat) (d : GNode) : JobHold :=
  let hold : JobHold := { len := jobLen s h n d, eng := engOf s h d }
  match d.kind with
  | .digest | .cipher | .sign => { hold with key := jobKey s d }
  | .compress | .decompress =>
    { hold with ranges := outRanges s h d (bitAt (pByte d 26) 1), record := slotRead s h d 2 0 32 }
  | .mediaRead => match nodeNs s h d with
    | none => hold
    | some x => { hold with media := blockData s x (pField d 28 8) (pField d 36 4 + 1),
                            wants := mediaUnits x (pField d 28 8) (pField d 36 4 + 1),
                            lost := lostIn s x (pField d 28 8) (pField d 36 4 + 1) }
  | _ => hold

/-- The media reads of a job go to the dies, in the class of the function that owns the graph (R168, R177). -/
def startMedia (h n : Nat) (d : GNode) (s : State) : State :=
  let cws := if (nodeNs s h d).any (·.sealed) then 4 else 1
  settleOps ((jobHold s h n).wants.foldl (fun a w => queueOp w.1 {
    pos := readPos a (jobFn s h), op := .read w.2 cws, why := 5, node := some (h, n) } a) s)

/-- The job of an engine node ends. -/
def engineEnd (h n : Nat) (d : GNode) (res : JobRes) (s : State) : State :=
  match d.kind with
  | .nib => s
  | .digest => digestJob h n d res s
  | .cipher => cipherJob h n d res s
  | .sign => signJob h n d res s
  | .compress => compressJob h n d res s
  | .decompress => decompressJob h n d res s
  | .sieve => sieveJob h n d [] s
  | .mediaRead => mediaReadJob h n d s
  | .mediaWrite => mediaWriteJob h n d s
  | .dramCopy => copyJob h n d s
  | .hostIn => hostInJob h n d res s
  | .hostOut => hostOutJob h n d res s
  | .join => jobDone h n 0 s

/-- The job has what it needs to end: an instance of its shared engine, the signature unit, or its media reads (R19, R174, R309). -/
def served (s : State) (h n : Nat) (d : GNode) : Bool :=
  if d.kind == .sign then s.crypt.signing == some (.job h n)
  else match (jobHold s h n).eng with
    | some e => (engQ s e).on.contains (h, n)
    | none => (jobHold s h n).wants.isEmpty

/-- What the last group of a job takes of its engine's allotment; blocks are charged as they end (R297, R330). -/
def chargeLast (h n : Nat) (d : GNode) (s : State) : State :=
  match (jobHold s h n).eng with
  | some e => if e ≤ 1 then spendEng e (graphClass s h) (if e = 0 then groupCost d else min 16384 (jobHold s h n).len) s else s
  | none => s

/-- A running engine node's job completes (R276, R277). A NIB node ends by its HALT. -/
def nodeEnd (graph node : Nat) (res : JobRes) (s : State) : State :=
  match nodeDesc s graph node with
  | none => s
  | some d =>
    if (nodeRun s graph node).any (fun x => x.st == 2) && served s graph node d then
      engineEnd graph node d res (chargeLast graph node d s)
    else s

end Sys2Proof.Machine
end

