-- ==== Sys2Proof/Machine/Duct.lean ====
section
/-!
DEFINITION. The Ductus (spec/12_ductus_dataflow.md R275 to R286): checks of a node's PARAMS, dispatch, budgets, pre-emption,
events and wait limits.
-/

namespace Sys2Proof.Machine

/-! ### PARAMS (R311 to R313, R332, R333, R341) -/

/-- Bytes of PARAMS that a kind leaves reserved are 0. -/
def zeroAt (d : GNode) (off n : Nat) : Bool := allZero (slice d.params (off - 24) n)

def paramsBad (d : GNode) : Bool :=
  match d.kind with
  | .digest =>
    let alg := pByte d 24
    let t := pField d 30 2
    alg == 0 || 6 ≤ alg || 4 ≤ pByte d 25 || (bitAt (pByte d 25) 0 && 3 < alg) || 3 ≤ pByte d 26 || pByte d 27 != 0 ||
      1024 ≤ pField d 28 2 || (t != 0 && (t < 16 || digestLen alg < t)) || !zeroAt d 40 16
  | .cipher =>
    let m := pByte d 24
    m == 0 || 8 ≤ m || 4 ≤ pByte d 25 || (bitAt (pByte d 25) 0 && m != 4) ||
      (if m == 3 || m == 4 then pByte d 26 < 12 || 16 < pByte d 26 else pByte d 26 != 0) ||
      (if 6 ≤ m then pByte d 27 == 0 || 9 ≤ pByte d 27 else pByte d 27 != 0) || 1024 ≤ pField d 28 2 ||
      (if 6 ≤ m then 1024 ≤ pField d 30 2 else pField d 30 2 != 0) || (6 ≤ m && !zeroAt d 40 16) ||
      (m ≤ 2 && !zeroAt d 52 4)
  | .sign =>
    let op := pByte d 24
    op == 0 || 4 ≤ op || pByte d 25 == 0 || 4 ≤ pByte d 25 || !zeroAt d 26 2 || 1024 ≤ pField d 28 2 ||
      (op != 1 && pField d 28 2 != 0) || !zeroAt d 30 2 || !zeroAt d 36 20
  | .compress =>
    let m := pByte d 24
    m == 0 || 3 ≤ m || (if m == 2 then pByte d 25 == 0 || 10 ≤ pByte d 25 else pByte d 25 != 0) || 16 ≤ pByte d 26 ||
      pByte d 27 < 12 || 16 < pByte d 27 || !zeroAt d 28 4 || !zeroAt d 40 16 ||
      (bitAt (pByte d 26) 2 && !(slotBind d 2).any (·.write))
  | .decompress =>
    let f := pByte d 24
    3 ≤ f || pByte d 25 != 0 || 16 ≤ pByte d 26 || pByte d 27 != 0 || (f != 0 && (pField d 28 4 != 0 || pField d 40 4 != 0)) ||
      (f == 0 && pField d 44 4 != 0) || !zeroAt d 48 8 || (bitAt (pByte d 26) 2 && !(slotBind d 2).any (·.write))
  | .sieve =>
    let op := pByte d 24
    op == 0 || 6 ≤ op || pByte d 25 < 2 || 16 ≤ pByte d 25 ||
      (if op == 1 then pByte d 26 == 0 || 17 ≤ pByte d 26 else pByte d 26 != 0) || 2 ≤ pByte d 27 || !zeroAt d 32 24
  | _ => false

/-- Key slots and Sieve partitions that the function may not use (R304, R342). -/
def objectsBad (s : State) (fn : Nat) (d : GNode) : Bool :=
  match d.kind with
  | .digest => bitAt (pByte d 25) 0 && !slotFits s fn (pField d 28 2) [5]
  | .cipher => !slotFits s fn (pField d 28 2) (cipherUses (pByte d 24))
  | .sign => pByte d 24 == 1 && !slotFits s fn (pField d 28 2) [5 + pByte d 25]
  | .sieve => !maySieve s fn (pByte d 25)
  | _ => false

/-- A whole image is parsed: the graph takes the lowest free handle, or is refused with its reason (R272, R274). -/
def loadGraph (fn : Nat) (m : Bytes) (s : State) : Except Status Nat × State :=
  let h := hdrOf m
  let node (i : Nat) : GNode := parseNode m h i
  if leAt m 4 4 != m.length then (.error .lengthMismatch, s)
  else match loadError s fn m (fun i => paramsBad (node i)) (fun i => objectsBad s fn (node i)) with
  | some e => (.error .invalidField, loadRefused fn e.1 e.2 s)
  | none =>
    let g := buildGraph s fn m
    let id := mfree s.duct.graphs 1
    if computeMemory s < usedMemory s + graphMemory g then (.error .invalidField, loadRefused fn 7 0 s)
    else if 256 ≤ s.duct.graphs.length || 64 ≤ (s.duct.graphs.filter (fun e => e.2.fn == fn)).length then
      (.error .invalidField, loadRefused fn 8 0 s)
    else (.ok id, showDuct { s with duct := { s.duct with graphs := mset s.duct.graphs id g } })

/-! ### Dispatch (R279, R280) -/

/-- Modes in which nodes are dispatched: not PARK, DROWSE, ACTIVATE, HIBERNATE, SEAL (R286). -/
def Mode.dispatches : Mode → Bool
  | .run | .lean | .readOnly | .sanitize => true
  | _ => false

/-- LEAN powers the clusters that R414 leaves on: clusters 0 and 1 (cores 0 to 15). -/
def powered (s : State) (k : Nat) : Bool := s.mode.cur != .lean || k < 16

def coreEnabled (s : State) (k : Nat) : Bool := bitAt (getF s (NIB_CLUSTER_CORE_EN (k / 8))) (k % 8) && powered s k

def coreIdle (s : State) (k : Nat) : Bool := k < 32 && getF s (NIB_CORE_STATE k) == 1 && coreEnabled s k

def usSinceReady (s : State) (x : NodeRun) : Nat := (now s - x.readyAt) * s.time.period / 65536

def holdsImage (s : State) (h i k : Nat) : Bool := getF s (NIB_CORE_IMG_GRAPH k) == h && getF s (NIB_CORE_IMG_INDEX k) == i

/-- The core that R279 gives a NIB node now. -/
def chooseCore (s : State) (h : Nat) (d : GNode) (x : NodeRun) : Option Nat :=
  let idle (p : Nat → Bool) : Option Nat := (List.range 32).find? (fun k => coreIdle s k && p k)
  if bitAt d.affinity 7 then (idle (holdsImage s h d.image)).or (idle (fun _ => true))
  else
    let pref := d.affinity % 32
    if coreIdle s pref then some pref
    else if d.fallback = 255 || usSinceReady s x < d.fallback then none
    else (idle (fun k => k / 8 == pref / 8)).or (if bitAt d.flags 3 then idle (fun _ => true) else none)

/-- The graph's grant in the node's currency is above zero; JOIN needs none. -/
def granted (g : GRun) (d : GNode) : Bool :=
  match d.kind with
  | .nib => 0 < g.gCore
  | .join => true
  | _ => 0 < g.gEng

/-- A ready entry that could be dispatched now: a media node waits while its namespace has a transition pending (R283). -/
def dispatchable (s : State) (h n : Nat) : Bool :=
  match (getGraph s h).bind (·.run), nodeDesc s h n, nodeRun s h n with
  | some g, some d, some x => g.state == 0 && granted g d && (d.kind != .nib || (chooseCore s h d x).isSome) &&
      !((d.kind == .mediaRead || d.kind == .mediaWrite) && nsPending s (pField d 24 4))
  | _, _, _ => false

/-- No dispatchable entry stands before this one: classes in order, arrival within a class (R279). -/
def firstInLine (s : State) (h n : Nat) : Bool :=
  let cls := graphClass s h
  let mine := (s.duct.ready.findIdx? (fun e => e.2.1 == h && e.2.2 == n)).getD 0
  (List.range s.duct.ready.length).all (fun i => match s.duct.ready[i]? with
    | some e => !((e.1 < cls || (e.1 == cls && i < mine)) && dispatchable s e.2.1 e.2.2)
    | none => true)

/-- Engine units charged at dispatch (R271). -/
def unitsFor (s : State) (h n : Nat) (d : GNode) : Nat :=
  let kib (b : Nat) : Nat := ceilDiv b 1024
  let blk := ((getNs s (pField d 24 4)).map (·.blk)).getD 4096
  match d.kind with
  | .nib | .join => 0
  | .digest | .compress | .decompress => kib (jobLen s h n d)
  | .cipher => kib (jobLen s h n d + gcmAad d)
  | .sign => 64
  | .sieve => ceilDiv (jobLen s h n d) 1024
  | .mediaRead | .mediaWrite => kib ((pField d 36 4 + 1) * blk)
  | .dramCopy => kib (pField d 24 4)
  | .hostIn | .hostOut => kib (pField d 32 4)

def windowsOf (g : Graph) (d : GNode) : Map NibWindow :=
  d.binds.foldl (fun m b =>
    let size := ((g.bufs[b.buf]?).map (·.size)).getD 0
    mset m b.slot { buf := b.buf, off := b.off, words := min 131072 (size - b.off) / 2, write := b.write }) []

/-- The start state of a NIB node (R268, R279): a core reset, then PARAMS, the run tag (low word in w8), the node index and
the image's sections. -/
def startCore (s : State) (h n k : Nat) (g : Graph) (r : GRun) (d : GNode) : NibCore :=
  let old := nibCore s k
  let img := (g.images[d.image]?).getD []
  let sp := Config.gyoneSpill img
  let ws := (List.range 8).map (fun i => (i, BitVec.ofNat 16 (leAt d.params (2 * i) 2)))
    ++ [(8, BitVec.ofNat 16 r.tag), (9, BitVec.ofNat 16 (r.tag / 65536)), (10, BitVec.ofNat 16 n)]
  let held := holdsImage s h d.image k
  let c0 : NibCore := {
    imem := if held then old.imem else (Config.gyoneInstr img).foldl (fun m e => mset m (e.1 % 65536) e.2) old.imem
    badI := if held then old.badI else old.badI.filter (fun a => !(Config.gyoneInstr img).any (fun e => e.1 % 65536 == a))
    badD := old.badD.filter (fun a => !(Config.gyoneData img).any (fun e => e.1 % 65536 == a))
    dmem := (Config.gyoneData img).foldl (fun m e => mset m (e.1 % 65536) e.2) old.dmem
    pc := d.entry, tvbase := 1, spbase := sp.1 % 65536, splim := sp.2 % 65536, xpage := d.xpage % 128,
    windows := windowsOf g d, grant4 := bitAt d.flags 4, since := now s }
  setF2 fiIE true (fSet 0 (BitVec.ofNat 16 sp.1) (putRegs ws c0))

/-- The registers that show what a core holds (R287). -/
def showCore (k st h n run img : Nat) (s : State) : State :=
  setF (NIB_CORE_STATE k) st (setF (NIB_CORE_GRAPH k) h (setF (NIB_CORE_NODE k) n (setF (NIB_CORE_RUN k) run
    (setF (NIB_CORE_IMG_GRAPH k) h (setF (NIB_CORE_IMG_INDEX k) img s)))))

/-- A NIB node is placed on a core: started, or resumed with its saved context, in its WAIT where no event ended that. -/
def placeNode (h n k : Nat) (g : Graph) (r : GRun) (d : GNode) (x : NodeRun) (s : State) : State :=
  let c := match x.saved with
    | some c => { c with since := now s, paid := 0, preempt := false }
    | none => { startCore s h n k g r d with notify := x.notify }
  let st := if c.inWait && !c.tick && !c.notify then 3 else 2
  updNode h n (fun y => { y with st := st, core := k, saved := none, slot := none, notify := false,
                                 waited := if st = 3 then y.waited else 0 })
    (showCore k st h n r.id d.image (setCore k { c with inWait := false } s))

/-- The job of a dispatched node comes to its shared engine, or to the signature unit's queue (R19, R309). -/
def joinJob (h n : Nat) (d : GNode) (s : State) : State :=
  if d.kind == .sign then { s with crypt := { s.crypt with signQ := s.crypt.signQ ++ [.job h n] } }
  else match (jobHold s h n).eng with
    | some e => joinEng e (h, n) s
    | none => s

/-- NODE_DISPATCH (R279, R280): the first dispatchable entry leaves its list. `core` is the core R279 chooses; engine nodes
ignore it. A job that breaks a check of its dispatch fails with no output and no charge (R286, R293, R301, R304, R324, R331). -/
def nodeDispatch (graph node core : Nat) (s : State) : State :=
  (match getGraph s graph, nodeDesc s graph node, nodeRun s graph node with
  | some g, some d, some x =>
    match g.run with
    | none => s
    | some r =>
      if !s.mode.cur.dispatches || !s.duct.ready.contains (graphClass s graph, graph, node) || !dispatchable s graph node ||
          !firstInLine s graph node then s
      else
        let s1 := { s with duct := { s.duct with ready := dropFirst (fun e => e.2.1 == graph && e.2.2 == node) s.duct.ready } }
        if d.kind == .nib then
          (if chooseCore s graph d x == some core then showDuct (placeNode graph node core g r d x s1) else s)
        else match dispatchError s graph node d with
          | some st => showDuct (jobFail graph node 0 st s1)
          | none =>
            let u := unitsFor s graph node d
            showDuct (startMedia graph node d (streamOut graph node d (joinJob graph node d (updNode graph node (fun y => { y with
                st := 2, used := y.used + u, waited := 0, job := takeJob s graph node d })
              (updRun graph (fun q => { q with engine := q.engine + u, gEng := q.gEng - u, dEng := q.dEng + (u - q.gEng) }) s1)))))
  | _, _, _ => s)

/-! ### Pre-emption and events (R281, R282) -/

/-- Whole core-microseconds of a context's copy to the silt area, or back: 133,184 bytes at 16 GB/s (R278, R281). -/
def saveUs : Nat := 8

/-- A running node is saved into the silt area, and its core is free. `slot` is the core's mode-entry slot, or none for a
pre-emption slot. -/
def saveNode (k : Nat) (slot : Option Nat) (s : State) : State :=
  let h := getF s (NIB_CORE_GRAPH k)
  let n := getF s (NIB_CORE_NODE k)
  let s0 := payCore saveUs h n (chargeCore k h n s)
  let c := { nibCore s0 k with badI := [], badD := [], inWait := getF s (NIB_CORE_STATE k) == 3 }
  let s1 := freeCore k s0
  showDuct (updNode h n (fun x => { x with st := 4, saved := some c, slot := slot, readyAt := now s, waited := 0 })
    { s1 with duct := { s1.duct with ready := s1.duct.ready ++ [(graphClass s1 h, h, n)] } })

/-- A core takes its pending events; a pre-emption then saves it before the vector bundle issues. -/
def deliverEvents (k : Nat) (s : State) : State :=
  let c := nibCore s k
  if !(c.tick || c.notify || c.preempt) || !accepts c then s
  else
    let s1 := takeInterrupt k s
    if c.preempt && getF s1 (NIB_CORE_STATE k) == 2 then incF DCT_PREEMPTS 1 (saveNode k none s1) else s1

/-- NIB_INTERRUPT (R259, R282): a running core takes its pending events between bundles. -/
def execNibInterrupt (frac core : Nat) (s : State) : Result :=
  let s := atFrac frac s
  .next (if core < 32 && getF s (NIB_CORE_STATE core) == 2 then deliverEvents core s else s)

/-- A pre-emption slot is free, and not promised to a pre-emption that waits for its core (R278, R281). -/
def slotFree (s : State) : Bool :=
  s.duct.graphs.foldl (fun a e => match e.2.run with
    | some r => a + (r.nodes.filter (fun x => x.saved.isSome && x.slot.isNone)).length
    | none => a) 0 + ((List.range 32).filter (fun k => (nibCore s k).preempt)).length < 256

/-- A waiting entry may be placed on the core, once its fallback wait has passed (R279). -/
def mayUse (d : GNode) (k : Nat) : Bool :=
  bitAt d.affinity 7 || k == d.affinity % 32 || (d.fallback != 255 && (k / 8 == d.affinity % 32 / 8 || bitAt d.flags 3))

/-- A ready NIB node finds no core and may use this one. -/
def wantsCore (s : State) (h n k : Nat) : Bool :=
  match nodeDesc s h n, nodeRun s h n with
  | some d, some x => d.kind == .nib && (chooseCore s h d x).isNone && mayUse d k
  | _, _ => false

/-- The fallback wait of a ready node has passed; a node with no preference has none to wait for. -/
def fellBack (s : State) (h n : Nat) : Bool :=
  match nodeDesc s h n, nodeRun s h n with
  | some d, some x => bitAt d.affinity 7 || (d.fallback != 255 && d.fallback ≤ usSinceReady s x)
  | _, _ => false

/-- The reasons of R281 to take the core from its node: a READY NIB node of a class that ranks higher has passed its fallback wait
and found no core, or the graph's core grant is spent and another node waits for the core. -/
def preemptReason (s : State) (k : Nat) : Bool :=
  let h := getF s (NIB_CORE_GRAPH k)
  let spent := ((getGraph s h).bind (·.run)).any (fun r => r.gCore == 0)
  s.duct.ready.any (fun e => wantsCore s e.2.1 e.2.2 k &&
    ((e.1 < graphClass s h && fellBack s e.2.1 e.2.2) || spent))

/-- The core's node may be pre-empted: pre-emption is on, the node allows it and has run long enough, and there is a reason. -/
def candidate (s : State) (k : Nat) : Bool :=
  let ran := (now s - (nibCore s k).since) * s.time.period / 65536
  getF s (NIB_CORE_STATE k) == 2 && flagF s DCT_CTL_PREEMPT_EN &&
    (nodeDesc s (getF s (NIB_CORE_GRAPH k)) (getF s (NIB_CORE_NODE k))).any (fun d => !bitAt d.flags 1) &&
    getF s DCT_CTL_MIN_US ≤ ran && preemptReason s k

/-- Among candidates the device chooses the lowest class, then the most recent dispatch. -/
def chosenVictim (s : State) (k : Nat) : Bool :=
  let cls (j : Nat) : Nat := graphClass s (getF s (NIB_CORE_GRAPH j))
  candidate s k && (List.range 32).all (fun j => !(candidate s j &&
    (cls k < cls j || (cls k == cls j && (nibCore s k).since < (nibCore s j).since))))

/-- NODE_PREEMPT (R281). -/
def execNodePreempt (frac core : Nat) (s : State) : Result :=
  let s := chargeCores (atFrac frac s)
  .next (if core < 32 && slotFree s && chosenVictim s core then
      deliverEvents core (setCore core { nibCore s core with preempt := true } s)
    else s)

/-- NIB_MACHINE_CHECK (R264, R286): the core stops until the next BOOT, its node fails. -/
def execNibMachineCheck (frac core : Nat) (s : State) : Result :=
  let s := atFrac frac s
  let c := nibCore s core
  .next (if 32 ≤ core || getF s (NIB_CORE_STATE core) == 0 || getF s (NIB_CORE_STATE core) == 6 then s
    else
      let tpc := c.pc + 65536 * bit c.xip
      let s1 := blot 0x0701 3 core (le 2 0xFF ++ le 4 tpc) s
      let s2 := if getF s1 (NIB_CORE_GRAPH core) != 0 then nibStop core 0xFF tpc s1 else s1
      setF (NIB_CORE_STATE core) 6 s2)

/-- A mode entry saves every running NIB node into its core's slot, at a bundle boundary (R278, R281). -/
def saveAllNodes (s : State) : State :=
  (List.range 32).foldl (fun a k =>
    if getF a (NIB_CORE_STATE k) == 2 || getF a (NIB_CORE_STATE k) == 3 then
      saveNode k (some k) (setCore k { nibCore a k with bundle := [] } a) else a) s

/-! ### Wait limits (R283, R284) -/

/-- The limit of a node: its own, the start's override, or the header's. -/
def nodeLimit (g : Graph) (r : GRun) (d : GNode) : Nat :=
  if d.timeout != 0 then d.timeout else if r.limit != 0 then r.limit else g.timeout

/-- NODE_WAIT_TIMEOUT (R284). -/
def execNodeWaitTimeout (graph node : Nat) (s : State) : Result :=
  .next (match getGraph s graph, nodeDesc s graph node, nodeRun s graph node with
  | some g, some d, some x =>
    match g.run with
    | none => s
    | some r =>
      let lim := nodeLimit g r d
      if r.state == 0 && (x.st == 1 || x.st == 3 || x.st == 4) && lim != 0 && lim < x.waited then
        incF DCT_TIMEOUTS 1 (failNode graph node 0 3 .graphTimeout s)
      else s
  | _, _, _ => s)

/-- A boundary counts for every waiting node, but not in PARK, DROWSE or ACTIVATE. -/
def countWaits (s : State) : State :=
  match s.mode.cur with
  | .park | .drowse | .activate => s
  | _ => { s with duct := { s.duct with graphs := s.duct.graphs.map (fun e => (e.1, { e.2 with
      run := e.2.run.map (fun r => { r with nodes := r.nodes.map (fun x =>
        if x.st == 1 || x.st == 3 || x.st == 4 then { x with waited := x.waited + 1 } else x) }) })) } }

/-! ### The boundary (R275, R280, R282) -/

/-- NIB_TICK: a TICK event for each node that sets the flag. -/
def tickNodes (s : State) : State :=
  s.duct.graphs.foldl (fun a e => match e.2.run with
    | none => a
    | some r => (List.range r.nodes.length).foldl (fun b n =>
        if (e.2.nodes[n]?).any (fun d => d.kind == .nib && bitAt d.flags 2) then
          match coreOfNode b e.1 n with
          | some k => deliverEvents k (wakeCore k (setCore k { nibCore b k with tick := true } b))
          | none => updNode e.1 n (fun x => { x with saved := x.saved.map (fun c => { c with tick := true }) }) b
        else b) a) s

/-- A start applies (R275): the ZERO buffers are zero-filled, nodes that nothing holds back become READY. -/
def applyStart (t : GStart) (s : State) : State :=
  match getGraph s t.graph with
  | none => s
  | some g =>
    let id := (g.nextRun + 1) % 65536
    let r : GRun := { id := id, tag := t.tag, limit := t.limit, start := now s, nodes := g.nodes.map (fun _ => {}),
                      dCore := (g.run.map (·.dCore)).getD 0, dEng := (g.run.map (·.dEng)).getD 0 }
    let s1 := updGraph t.graph (fun x => { x with
      run := some r, nextRun := id, bufs := x.bufs.map (fun b => if b.zero then { b with data := [] } else b) }) s
    let first := (List.range g.nodes.length).filter (fun n => predsDone g r n)
    complete t.fn t.sqid t.cid .success id 0 (showDuct (first.foldl (fun a n => makeReady t.graph n a) s1))

/-- Accepted at least 20 µs before this boundary (R105). -/
def due20 (s : State) (at_ : Nat) : Bool := 20 * 65536 ≤ (now s - at_) * s.time.period

def applyStarts (s : State) : State :=
  let run := s.duct.starts.filter (fun t => due20 s t.at_)
  run.foldl (fun a t => applyStart t a) { s with duct := { s.duct with starts := s.duct.starts.filter (fun t => !due20 s t.at_) } }

/-- Cores that are enabled and powered are idle; others are off (R286, R287). -/
def setCores (s : State) : State :=
  (List.range 32).foldl (fun a k =>
    let st := getF a (NIB_CORE_STATE k)
    let on := coreEnabled a k && (a.mode.cur.dispatches || a.mode.cur == .activate)
    if st == 0 && on then setF (NIB_CORE_STATE k) 1 a
    else if st == 1 && !on then setF (NIB_CORE_STATE k) 0 a
    else a) s

def enabledCores (s : State) : Nat := ((List.range 32).filter (coreEnabled s)).length

/-- Core grants (R280): as R96 for one currency with requests as guarantees, class by class, no surplus; then the cuts of an
overrun and the debt. -/
def classCoreGrants (s : State) (cls left : Nat) : List (Nat × Nat) :=
  let gs := s.duct.graphs.filter (fun e => runLive e.2 && (qosOf s e.2.fn).cls == cls)
  let want := gs.foldl (fun a e => a + e.2.coreUs) 0
  gs.map (fun e => (e.1, if want ≤ left then e.2.coreUs else e.2.coreUs * left / max 1 want))

def cutOverrun (s : State) (cls v : Nat) : Nat :=
  if !flagF s STK_STATUS_OVERRUN then v else if cls = 1 then v / 2 else if cls = 2 then 0 else v

/-- DUCTUS_GRANT: the debt is taken from the grant, then the cut of an overrun (R96, R98). -/
def ductGrants (s : State) : State :=
  let cap := enabledCores s * s.time.period
  let g0 := classCoreGrants s 0 cap
  let g1 := classCoreGrants s 1 (cap - grantSum g0)
  let g2 := classCoreGrants s 2 (cap - grantSum g0 - grantSum g1)
  let s1 := setF DCT_CAP_CORE_US cap (setF DCT_CAP_CORES (enabledCores s) s)
  (g0 ++ g1 ++ g2).foldl (fun a e =>
    let cls := graphClass s e.1
    let k := ((getGraph s e.1).map (·.engineKib)).getD 0
    updRun e.1 (fun r => { r with gCore := cutOverrun s cls (e.2 - r.dCore), dCore := r.dCore - e.2,
                                  gEng := cutOverrun s cls (k - r.dEng), dEng := r.dEng - k }) a) s1

/-! ### The allotment of the shared engines (R19, R42, R43, R45) -/

/-- Work that a job brings to its engine: lane-nanoseconds, or bytes. -/
def jobCost (s : State) (j : Nat × Nat) : Nat :=
  let len := (jobHold s j.1 j.2).len
  match nodeDesc s j.1 j.2 with
  | some d => if d.kind == .digest then ceilDiv len (groupBytes (pByte d 24)) * groupNs (pByte d 24) else len
  | none => 0

/-- What a class asks of an engine. -/
def classDemand (s : State) (e cls : Nat) : Nat :=
  if e = 4 then
    (s.crypt.signQ.filter (fun u => match u with
      | .job h _ => graphClass s h == cls
      | .cmd c => (qosOf s c.who.1).cls == cls
      | .flourish => false)).length
  else ((((engQ s e).on ++ (engQ s e).wait).filter (fun j => graphClass s j.1 == cls)).map (jobCost s)).sum

/-- Bytes that the closed stroke's streams and records have absorbed. -/
def closedBytes (s : State) : Nat :=
  match s.chain.closed.getLast? with
  | some c => (c.parts.map (fun e => e.2.data.length)).sum + (c.recs.map (fun r => r.bytes.length)).sum
  | none => 0

/-- What sealing takes first, as measured at the boundary (R19, R42): the lanes' time for the bytes of the stroke that has closed, at
the rate of its H (R289); the pipelines' bytes for the codewords placed in it; the unit for a flourish. -/
def sealDemand (s : State) (e : Nat) : Nat :=
  match e with
  | 0 => if s.chain.hashSel = 2 then ceilDiv (closedBytes s * 25) 128 else ceilDiv (closedBytes s * 5) 16
  | 1 => 4096 * s.ftl.placed
  | 4 => bit (!s.chain.flPending.isEmpty || s.chain.flFrom.isSome)
  | _ => 0

/-- One engine is allotted for the new stroke: sealing first, then the classes in order, each as much as it asks for; what nobody asks
for is left to those that come in the stroke. In overrun the compute lanes get nothing (R45). -/
def allotEng (scale e : Nat) (s : State) : State :=
  let cap := if e = 4 then engCap s e else engCap s e * scale / 256
  let sl := min (sealDemand s e) cap
  let c0 := min (classDemand s e 0) (cap - sl)
  let c1 := min (classDemand s e 1) (cap - sl - c0)
  let c2 := min (classDemand s e 2) (cap - sl - c0 - c1)
  let all : Allot := { sealing := sl, cls := [(0, c0), (1, c1), (2, c2)], spare := cap - sl - c0 - c1 - c2 }
  fillEng e (setEng e { engQ s e with
    allot := if e = 0 && flagF s STK_STATUS_OVERRUN then { sealing := sl } else all } s)

def allotEngines (scale : Nat) (s : State) : State := [0, 1, 2, 3, 4].foldl (fun a e => allotEng scale e a) s

/-- What the Ductus does at a boundary. -/
def ductBoundary (s : State) : State := tickNodes (ductGrants (applyStarts (countWaits (setCores (chargeCores s)))))

end Sys2Proof.Machine
end

