-- ==== Sys2Proof/Machine/Dram.lean ====
section
/-!
DEFINITION. The DRAM controller (spec/15_dram_and_memory_integrity.md R346 to R355) and uncorrectable Inkwell reads (R361).
-/

namespace Sys2Proof.Machine

/-! ### Operating points (R346, R347, R349) -/

/-- Rate of a point in MT/s. -/
def rateOf (p : Nat) : Nat :=
  match p with
  | 0 => 8533
  | 1 => 6400
  | 2 => 3200
  | _ => 1600

/-- An unavailable point is served at the next lower available one (R347). -/
def servedPoint (s : State) (p : Nat) : Nat :=
  ([p, p + 1, p + 2, p + 3].find? (fun q => q ≤ 3 && bitAt (getF s DRM_STATUS_AVAIL) q)).getD 3

/-- The point a mode requests (R346). -/
def modePoint (s : State) : Mode → Nat
  | .run | .readOnly | .sanitize | .activate => getF s DRM_CTL_POINT_RUN
  | .lean => getF s DRM_CTL_POINT_LEAN
  | _ => 3

/-- A request for a point (R349): it replaces a pending one; the current point clears it. -/
def requestPoint (p : Nat) (s : State) : State :=
  let q := servedPoint s (p % 4)
  if q = getF s DRM_STATUS_POINT then setF DRM_STATUS_PENDING 0 (setF DRM_STATUS_PENDING_POINT 0 s)
  else setF DRM_STATUS_PENDING 1 (setF DRM_STATUS_PENDING_POINT q s)

/-- DRAM_FREQ_REQUEST. -/
def execDramFreqRequest (point : Nat) (s : State) : Result := .next (requestPoint point s)

/-! ### Retraining (R348) -/

/-- DRAM_RETRAIN_GATHER: every PERIOD_MS, or when the memory's temperature has moved by DRIFT_C; never while a change is
pending. The count of the memory's error check and scrub, summed over the ranks, is read then (R357). -/
def execDramRetrainGather (frac : Nat) (reading : DramReading) (s : State) : Result :=
  let s := atFrac frac s
  let ms := (now s - s.dram.lastTrain) * s.time.period / 65536 / 1000
  let due := getF s DRM_TRAIN_PERIOD_MS ≤ ms || getF s DRM_TRAIN_DRIFT_C ≤ (reading.temp - s.dram.lastTemp).natAbs
  let modeOk := s.mode.cur == .run || s.mode.cur == .lean || s.mode.cur == .park
  .next (if modeOk && due && !flagF s DRM_STATUS_PENDING && !flagF s DRM_STATUS_GATHERING then
      setF DRM_STATUS_GATHERING 1 <| setF DRM_ECS_COUNT (min (2 ^ 32 - 1) reading.scrub)
        { s with dram := { s.dram with lastTemp := reading.temp } }
    else s)

/-- DRAM_GATHER_END: the delays wait for the next boundary. -/
def execDramGatherEnd (frac : Nat) (s : State) : Result :=
  let s := atFrac frac s
  .next (if flagF s DRM_STATUS_GATHERING then
      setF DRM_STATUS_GATHERING 0 { s with dram := { s.dram with applyDue := true, lastTrain := now s } }
    else s)

/-! ### Refresh (R351) -/

/-- The code of a multiplier. -/
def multCode (m : Nat) : Nat := if 4 ≤ m then 2 else if 2 ≤ m then 1 else 0

/-- Each channel's multiplier: what its memory asked for, raised where FORCE_2X is in force. -/
def showRefresh (s : State) : State :=
  let one (i : Nat) : Nat := max ((s.dram.need[i]?).getD 0) (if s.dram.force2x then 1 else 0)
  setF DRM_STATUS_REFRESH_X ((List.range 4).foldl (fun a i => a + one i * 4 ^ i) 0) s

/-- DRAM_REFRESH_POLL: the multiplier each channel's memory requires, and the ranks above their limit (channel, rank). -/
def execDramRefreshPoll (mult : List Nat) (hot : List (Nat × Nat)) (s : State) : Result :=
  .next (hot.foldl (fun a e => blot 0x0302 2 e.1 (le 1 e.2) (setF DRM_STATUS_HOT 1 a))
    (showRefresh { s with dram := { s.dram with need := mult.map multCode } }))

/-! ### Classes (R352 to R354) -/

/-- Percent of the peak rate that the worst channel's refresh leaves. -/
def effPct (s : State) : Nat :=
  let x := getF s DRM_STATUS_REFRESH_X
  let w := (List.range 4).foldl (fun a i => max a (x / 4 ^ i % 4)) 0
  if w = 0 then 85 else if w = 1 then 82 else 76

/-- Capacity of a stroke in bytes at the current point. -/
def dramCap (s : State) : Nat := rateOf (getF s DRM_STATUS_POINT) * 8 * s.time.period * effPct s / 100

/-- DRAM_CAPACITY_SET (R353): the capacity and the class budgets of the new stroke. -/
def dramBudgets (s : State) : State :=
  let cap := dramCap s
  let share (p : Nat) : Nat := cap * p / 100
  let rt := share (getF s DRM_SHARE_RT_PCT)
  let cm := share (getF s DRM_SHARE_CMD_PCT)
  let bg := share (getF s DRM_SHARE_BG_PCT)
  setF DRM_CAP_BYTES (cap % 2 ^ 32) { s with dram := { s.dram with
    rt := rt, cmd := cm - s.dram.cmdDebt, bg := bg, cmdDebt := 0, bulkDebt := 0,
    bulk := if flagF s STK_STATUS_OVERRUN then 0 else cap - rt - cm - bg - s.dram.bulkDebt } }

/-- DRAM_FREQ_CHANGE and DRAM_TRAINING_APPLY at a boundary (R348, R349): a pending point waits for a gathering. -/
def dramBoundary (s : State) : State :=
  let s1 := { s with dram := { s.dram with applyDue := false } }
  let s2 := if flagF s1 DRM_STATUS_PENDING && !flagF s1 DRM_STATUS_GATHERING then
      setF DRM_STATUS_POINT (getF s1 DRM_STATUS_PENDING_POINT) (setF DRM_STATUS_PENDING 0 (setF DRM_STATUS_PENDING_POINT 0 s1))
    else s1
  dramBudgets s2

/-- What is left of a budget after one request, and the excess that the next refill loses (R42). A spent class issues in the cycles that
no class with budget asks for, at no charge (R353). -/
def spendDram (left bytes : Nat) : Nat × Nat := (left - bytes, if left = 0 then 0 else bytes - left)

/-- DRAM_REQUEST_PROMOTE (R354): a request of BG (3) or BULK (2) that has waited AGE_US issues one class higher and is
charged there. -/
def execDramRequestPromote (cls waitedUs bytes : Nat) (s : State) : Result :=
  let b := spendDram s.dram.bulk bytes
  let c := spendDram s.dram.cmd bytes
  .next (if waitedUs < getF s DRM_AGE_AGE_US then s
    else if cls = 3 then { s with dram := { s.dram with bulk := b.1, bulkDebt := s.dram.bulkDebt + b.2 } }
    else if cls = 2 then { s with dram := { s.dram with cmd := c.1, cmdDebt := s.dram.cmdDebt + c.2 } }
    else s)

/-- A panic source is raised or cleared (R355). -/
def setPanic (src : Nat) (on : Bool) (s : State) : State :=
  let l := s.dram.panics.filter (· != src)
  let l1 := if on then l ++ [src] else l
  setF DRM_STATUS_PANIC (bit (!l1.isEmpty)) { s with dram := { s.dram with panics := l1 } }

/-! ### Uncorrectable Inkwell reads (R361) -/

/-- Runs of consecutive numbers in a rising list: first and count. -/
def runsOf : List Nat → List (Nat × Nat)
  | [] => []
  | x :: t => match runsOf t with
    | [] => [(x, 1)]
    | r :: rs => if r.1 = x + 1 then (x, r.2 + 1) :: rs else (x, 1) :: r :: rs

/-- The 4 KiB parts of a staged unit are lost: one entry for each contiguous run of LBAs. -/
def loseParts (id : Nat) (parts : List Nat) (s : State) : State :=
  match findStaged s id with
  | none => s
  | some x =>
    let blk := ((getNs s x.nsid).map (·.blk)).getD 4096
    let per := 4096 / blk
    (runsOf parts).foldl (fun a r => deferredError {
      id := 0, nsid := x.nsid, fn := x.fn, sqid := x.sqid, lba := x.lba + r.1 * per, count := r.2 * per, cid := x.cid,
      cause := 1, sealed := x.kind == .sealed, doneAt := x.doneAt, stroke := x.stroke } a) s

/-- The row of R361. -/
def wellRow : WellHit → Nat
  | .corrected => 0
  | .staged _ _ => 1
  | .programmed => 2
  | .parity => 3
  | .streamState _ => 4
  | .pounce => 5
  | .recompute _ _ => 6

/-- INKWELL_UE (R359, R361): a correctable error is corrected and counted, at each read of its byte until the byte is rewritten. -/
def execInkwellUe (offset : Nat) (hit : WellHit) (s : State) : Result :=
  let s1 := incF DRM_INKWELL_UE 1 (blot 0x0602 3 0 (le 4 offset ++ le 1 (wellRow hit)) s)
  .next (match hit with
  | .corrected => incF DRM_INKWELL_CE 1 s
  | .staged id parts => loseParts id parts s1
  | .programmed => s1
  | .parity => s1
  | .streamState lane => laneFail lane s1
  | .pounce => faultRec 1 0 s.time.stroke 0 s1
  | .recompute id parts => loseParts id parts s1)

end Sys2Proof.Machine
end

