-- ==== Sys2Proof/Machine/Frames.lean ====
section
/-!
DEFINITION. The parser of the Ethernet ports (spec/06_stream_ingest.md R117, R120): frames, IPv4 and IPv6, UDP, RTP, and the NAL
units of H.264 and H.265. Network headers are big-endian (spec/00 R4).
-/

namespace Sys2Proof.Machine

/-- A UDP datagram that has passed the transport rules. -/
structure Pkt where
  v6 : Bool
  vlan : Option Nat
  src : Nat
  dst : Nat
  sport : Nat
  dport : Nat
  udp : Bytes
  deriving DecidableEq, Repr

/-- What the transport rules make of a frame (R117). -/
inductive FrameRes where
  | bad | unmatched | pkt (p : Pkt)
  deriving DecidableEq, Repr

/-! ### Internet checksums -/

/-- The sum of 16-bit big-endian words. -/
def sum16 : Bytes → Nat
  | [] => 0
  | [a] => a.toNat * 256
  | a :: b :: t => a.toNat * 256 + b.toNat + sum16 t

/-- The ones' complement fold of a sum. -/
def fold16 (n : Nat) : Nat :=
  let m := n % 65536 + n / 65536
  m % 65536 + m / 65536

/-- The pseudo-header's part of a UDP or ICMPv6 checksum. -/
def pseudoSum (v6 : Bool) (src dst proto len : Nat) : Nat :=
  let n := if v6 then 16 else 4
  sum16 (be n src) + sum16 (be n dst) + proto + len

/-! ### UDP, IPv4, IPv6 -/

def parseUdp (v6 : Bool) (vlan : Option Nat) (src dst : Nat) (p : Bytes) : FrameRes :=
  let n := beAt p 4 2
  if n < 8 || p.length < n then .bad
  else
    let d := p.take n
    let c := beAt d 6 2
    let good := if c = 0 then !v6 else fold16 (pseudoSum v6 src dst 17 n + sum16 d) == 65535
    if good then
      .pkt { v6 := v6, vlan := vlan, src := src, dst := dst, sport := beAt d 0 2, dport := beAt d 2 2, udp := d.drop 8 }
    else .bad

def parseV4 (vlan : Option Nat) (b : Bytes) : FrameRes :=
  let hl := byteAt b 0 % 16 * 4
  let tot := beAt b 2 2
  if byteAt b 0 / 16 != 4 || hl < 20 || tot < hl || fold16 (sum16 (slice b 0 hl)) != 65535 then .bad
  else if b.length < tot then .bad
  else if beAt b 6 2 % 16384 != 0 then .bad
  else if byteAt b 9 != 17 then .unmatched
  else parseUdp false vlan (beAt b 12 4) (beAt b 16 4) (slice b hl (tot - hl))

/-- Extension headers of IPv6 that the parser does not accept (notes/assumptions/20). -/
def otherExt (nh : Nat) : Bool := [44, 50, 51, 135, 139, 140, 253, 254].contains nh

/-- The headers after the IPv6 header, from `off` on; at most 64 bytes of them. -/
def walkV6 (vlan : Option Nat) (b : Bytes) (stop fuel nh off : Nat) : FrameRes :=
  match fuel with
  | 0 => .bad
  | k + 1 =>
    if nh = 17 then parseUdp true vlan (beAt b 8 16) (beAt b 24 16) (slice b off (stop - off))
    else if nh = 0 || nh = 43 || nh = 60 then
      let n := (byteAt b (off + 1) + 1) * 8
      if 104 < off + n || stop < off + n then .bad else walkV6 vlan b stop k (byteAt b off) (off + n)
    else if otherExt nh then .bad
    else .unmatched

def parseV6 (vlan : Option Nat) (b : Bytes) : FrameRes :=
  let n := beAt b 4 2
  if byteAt b 0 / 16 != 6 then .bad
  else if b.length < 40 + n || n = 0 then .bad
  else walkV6 vlan b (40 + n) 10 (byteAt b 6) 40

/-- A frame without its FCS; `maxFrame` counts the FCS. -/
def parseFrame (maxFrame : Nat) (fcsBad : Bool) (f : Bytes) : FrameRes :=
  if fcsBad || f.length + 4 < 64 || maxFrame < f.length + 4 then .bad
  else
    let et := beAt f 12 2
    let tag := et == 0x8100
    let et2 := if tag then beAt f 16 2 else et
    let vlan := if tag then some (beAt f 14 2 % 4096) else none
    let b := f.drop (if tag then 18 else 14)
    if et2 = 0x0800 then parseV4 vlan b
    else if et2 = 0x86DD then parseV6 vlan b
    else .unmatched

/-! ### RTP -/

structure Rtp where
  mark : Bool
  pt : Nat
  seq : Nat
  ts : Nat
  ssrc : Nat
  payload : Bytes
  deriving DecidableEq, Repr

/-- The RTP packet of a UDP payload; none where an RTP rule is broken (LENGTH). -/
def parseRtp (u : Bytes) : Option Rtp :=
  let b0 := byteAt u 0
  let off := 12 + 4 * (b0 % 16)
  if u.length < 12 || b0 / 64 != 2 || u.length < off then none
  else
    let x := bitAt b0 4
    let off2 := if x then off + 4 + 4 * beAt u (off + 2) 2 else off
    if u.length < off2 || (x && u.length < off + 4) then none
    else
      let pad := if bitAt b0 5 then byteAt u (u.length - 1) else 0
      if bitAt b0 5 && (pad = 0 || u.length - off2 < pad) then none
      else some { mark := bitAt (byteAt u 1) 7, pt := byteAt u 1 % 128, seq := beAt u 2 2, ts := beAt u 4 4,
                  ssrc := beAt u 8 4, payload := slice u off2 (u.length - off2 - pad) }

/-! ### NAL units (R120) -/

/-- NAL types found in a payload, whether it is MALFORMED, and whether a fragment has been started. -/
structure Nals where
  types : List Nat
  bad : Bool
  frag : Bool
  deriving DecidableEq, Repr

/-- An FU header at `i`: the type when S is 1. -/
def fragUnit (p : Bytes) (i mask : Nat) (frag : Bool) : Nals :=
  let h := byteAt p i
  let st := bitAt h 7
  let en := bitAt h 6
  if p.length ≤ i then { types := [], bad := false, frag := false }
  else if st && en then { types := [], bad := true, frag := false }
  else if st then { types := [h % mask], bad := false, frag := true }
  else if !frag then { types := [], bad := true, frag := false }
  else { types := [], bad := false, frag := !en }

/-- The units of an aggregation from `i` on; with DONL, 2 bytes come before the first unit and 1 before each later one. -/
def aggUnits (p : Bytes) (typ : Nat → Nat) (donl first : Bool) (fuel i : Nat) : List Nat × Bool :=
  match fuel with
  | 0 => ([], false)
  | k + 1 =>
    if p.length ≤ i then ([], false)
    else
      let j := if donl then (if first then i + 2 else i + 1) else i
      let n := beAt p j 2
      if p.length < j + 2 || p.length < j + 2 + n then ([], true)
      else
        let r := aggUnits p typ donl false k (j + 2 + n)
        ((if n = 0 then [] else [typ (byteAt p (j + 2))]) ++ r.1, r.2)

def aggregate (p : Bytes) (i : Nat) (typ : Nat → Nat) (donl : Bool) : Nals :=
  let r := aggUnits p typ donl true p.length i
  { types := r.1, bad := r.2, frag := false }

/-- NAL units of a payload: 1 H.264, 2 H.265; nothing is looked into otherwise. -/
def nalUnits (payload : Nat) (donl frag : Bool) (p : Bytes) : Nals :=
  if payload = 1 && !p.isEmpty then
    let t := byteAt p 0 % 32
    if t = 28 then fragUnit p 1 32 frag
    else if t = 24 then aggregate p 1 (fun b => b % 32) false
    else { types := if 1 ≤ t && t ≤ 23 then [t] else [], bad := false, frag := false }
  else if payload = 2 && 2 ≤ p.length then
    let t := byteAt p 0 / 2 % 64
    if t = 49 then fragUnit p 2 64 frag
    else if t = 48 then aggregate p 2 (fun b => b / 2 % 64) donl
    else { types := if t ≤ 47 then [t] else [], bad := false, frag := false }
  else { types := [], bad := false, frag := frag }

def keyNal (payload t : Nat) : Bool := if payload = 1 then t == 5 else payload == 2 && 16 ≤ t && t ≤ 21

def paramNal (payload t : Nat) : Bool := if payload = 1 then t == 7 || t == 8 else payload == 2 && 32 ≤ t && t ≤ 34

end Sys2Proof.Machine
end

