-- ==== Sys2Proof/Machine/Ingest.lean ====
section
/-!
DEFINITION. Stream ingest (spec/06_stream_ingest.md R108 to R129): ports, bound flows and their Sieve entries, received
frames, sequence tracking, the layout of runs, gap records and the summary ring.
-/

namespace Sys2Proof.Machine

/-! ### Descriptors and Sieve keys (R112, R116) -/

def Flow.port (x : Flow) : Nat := byteAt x.desc 4 % 4
def Flow.flag (x : Flow) (i : Nat) : Bool := bitAt (byteAt x.desc 5) i
def Flow.learns (x : Flow) : Bool := x.flag 2
def Flow.parks (x : Flow) : Bool := x.flag 5
def Flow.payload (x : Flow) : Nat := byteAt x.desc 6
def Flow.prio (x : Flow) : Nat := byteAt x.desc 14 % 16
def Flow.reorder (x : Flow) : Nat := leAt x.desc 62 2

/-- The XOR of the four 32-bit words of an IPv6 address. -/
def xorWords (a : Nat) : Nat :=
  bits a 127 96 ^^^ bits a 95 64 ^^^ bits a 63 32 ^^^ bits a 31 0

/-- A source or destination address of a descriptor, as a number. -/
def descAddr (d : Bytes) (off : Nat) : Nat := if bitAt (byteAt d 5) 0 then beAt d off 16 else beAt d off 4

def keyAddr (v6 : Bool) (a : Nat) : Nat := if v6 then xorWords a else a

/-- The value and the care mask of a flow's entry; without an SSRC its bits are not cared for (R116). -/
def flowKey (d : Bytes) (ssrc : Option Nat) : Nat × Nat :=
  let v6 := bitAt (byteAt d 5) 0
  let vlan := bitAt (byteAt d 5) 1
  let pre := byteAt d 15
  let vid := if vlan then leAt d 8 2 % 4096 else 0
  let smask := if v6 then (if pre = 128 then 2 ^ 32 - 1 else 0) else (2 ^ pre - 1) * 2 ^ (32 - pre)
  let value := (if v6 then 0x12 else 0x11) * 2 ^ 136 + byteAt d 4 % 4 * 2 ^ 134 + bit vlan * 2 ^ 133 + vid * 2 ^ 121
    + (keyAddr v6 (descAddr d 20) &&& smask) * 2 ^ 89 + keyAddr v6 (descAddr d 36) * 2 ^ 57 + beAt d 10 2 * 2 ^ 41
    + ssrc.getD 0 * 2 ^ 9
  let care := 255 * 2 ^ 136 + 3 * 2 ^ 134 + 2 ^ 133 + (if vlan then 4095 * 2 ^ 121 else 0) + smask * 2 ^ 89
    + (2 ^ 32 - 1) * 2 ^ 57 + 65535 * 2 ^ 41 + (if ssrc.isSome then (2 ^ 32 - 1) * 2 ^ 9 else 0) + 511
  (value, care)

/-- Two keys overlap when they agree on every bit for which both care. -/
def keysOverlap (a b : Nat × Nat) : Bool := (a.1 ^^^ b.1) &&& a.2 &&& b.2 == 0

/-- The SSRC that a descriptor names; none with SSRC_LEARN. -/
def descSsrc (d : Bytes) : Option Nat := if bitAt (byteAt d 5) 2 then none else some (beAt d 16 4)

/-- TYPE, VERSION, PAYLOAD, PREFIX, PT, REORDER and the reserved bits of a flow descriptor are valid, and DONL comes only
with H.265 (R112, R113 reason 0001h). -/
def descValid (d : Bytes) : Bool :=
  let f := byteAt d 5
  let v6 := bitAt f 0
  byteAt d 0 == 1 && byteAt d 1 == 1 && leAt d 2 2 == 64 && byteAt d 4 < 4 && f < 64 && byteAt d 6 < 3 &&
    (byteAt d 7 < 128 || byteAt d 7 == 255) && byteAt d 9 < 16 && byteAt d 14 < 16 &&
    byteAt d 15 ≤ (if v6 then 128 else 32) && leAt d 62 2 ≤ 64 && !(bitAt f 4 && byteAt d 6 != 2) &&
    (v6 || (allZero (slice d 24 12) && allZero (slice d 40 12)))

/-! ### Limits (R113) -/

/-- A bind or modify of R113 that has been accepted and not committed. -/
def isBind (b : BindReq) : Bool := b.op == 0

/-- Flows of a function, accepted binds among them. -/
def flowCount (s : State) (f : Nat) : Nat :=
  (s.ing.flows.filter (fun e => e.2.fn == f)).length + (s.ing.binds.filter (fun b => isBind b && b.fn == f)).length

def flowTotal (s : State) : Nat := s.ing.flows.length + (s.ing.binds.filter isBind).length

/-- The descriptor that a flow counts with in the other limits: that of the last modify accepted for it, as if it were committed. -/
def limitDesc (s : State) (fid : Nat) (x : Flow) : Bytes :=
  s.ing.binds.foldl (fun d b => if b.op = 2 && b.flow = fid then b.desc else d) x.desc

/-- Its SSRC there: a modify that sets SSRC_LEARN re-arms learning. -/
def limitSsrc (s : State) (fid : Nat) (x : Flow) : Option Nat :=
  if s.ing.binds.any (fun b => b.op == 2 && b.flow == fid && bitAt (byteAt b.desc 5) 2) then none else x.ssrc

/-- RATE_KBPS of the flows (and accepted binds) whose port satisfies `p`, but for flow `skip`. -/
def rateSum (s : State) (p : Nat → Bool) (skip : Option Nat) : Nat :=
  s.ing.flows.foldl (fun a e => if p e.2.port && skip != some e.1 then a + flowRate s e.1 e.2 else a) 0
    + s.ing.binds.foldl (fun a b => if isBind b && p (byteAt b.desc 4 % 4) then a + leAt b.desc 52 4 else a) 0

/-- The line rate of R108 for the MODE that ING_PORT CFG holds, in kB/s; SGMII at the rate its PHY last signalled. -/
def lineRate (s : State) (p : Nat) : Nat :=
  match getF s (ING_PORT_MODE p) with
  | 0 => 3125000
  | 1 => 1250000
  | 2 => 125000
  | _ => match ((mget s.ing.ports p).getD {}).sgmii with
    | some m => 125 * m
    | none => 125000 / 10 ^ (Config.sgmiiStep p % 3)

/-- The ingest reservation fits beside the guarantees (R95). -/
def reservationFits (s : State) (rate : Nat) (skip : Option Nat) : Bool :=
  let g := allFns.foldl (fun a f => a + getF s (QOS_FUNC_WR_MBPS f)) 0
  g * 1000 + rateSum s (fun _ => true) skip + rate ≤ getF s QOS_CAP_BW_WR_MBPS * 1000

def portFits (s : State) (port rate : Nat) (skip : Option Nat) : Bool :=
  rateSum s (fun p => p == port) skip + rate ≤ lineRate s port

/-- The key overlaps one of the same PRIO, bound or accepted. -/
def keyTaken (s : State) (d : Bytes) (ssrc : Option Nat) (skip : Option Nat) : Bool :=
  let k := flowKey d ssrc
  let prio := byteAt d 14 % 16
  s.ing.flows.any (fun e =>
      let o := limitDesc s e.1 e.2
      skip != some e.1 && byteAt o 14 % 16 == prio && keysOverlap k (flowKey o (limitSsrc s e.1 e.2))) ||
    s.ing.binds.any (fun b => isBind b && byteAt b.desc 14 % 16 == prio && keysOverlap k (flowKey b.desc (descSsrc b.desc)))

/-- Flows that carry PARK, with the accepted binds and modifies as if committed. -/
def parkCount (s : State) (skip : Option Nat) : Nat :=
  (s.ing.flows.filter (fun e => skip != some e.1 && bitAt (byteAt (limitDesc s e.1 e.2) 5) 5)).length
    + (s.ing.binds.filter (fun b => isBind b && bitAt (byteAt b.desc 5) 5)).length

/-- A sealed namespace attached to the function. -/
def sealedNs (s : State) (f nsid : Nat) : Bool :=
  match getNs s nsid with
  | some x => x.sealed && x.attached.contains f
  | none => false

/-- A flow is bound to the namespace (R115). -/
def flowsOn (s : State) (nsid : Nat) : Bool := s.ing.flows.any (fun e => e.2.nsid == nsid)

/-- The namespace is the target of an active mirror pair (R400). -/
def mirrorTarget (s : State) (nsid : Nat) : Bool :=
  (List.range 16).any (fun i => flagF s (OXV_MIRROR_ACTIVE i) && flagF s (OXV_MIRROR_ROLE i) && getF s (OXV_MIRROR_NSID i) == nsid)

/-- A flow of one of the functions is bound to the namespace, or accepted to be (R113, R147). -/
def flowsHeld (s : State) (nsid : Nat) (p : Nat → Bool) : Bool :=
  s.ing.flows.any (fun e => e.2.nsid == nsid && p e.2.fn) || s.ing.binds.any (fun b => isBind b && b.nsid == nsid && p b.fn)

/-! ### Registers and records -/

/-- FLOWS_BOUND of the device and of each function, and the reservation, are shown (R67, R107, R129). -/
def showFlows (s : State) : State :=
  let s1 := setF ING_STATUS_FLOWS_BOUND s.ing.flows.length
    (setF QOS_CAP_CMD_INGEST_MBPS (min 65535 (reservedKbps s / 1000)) s)
  allFns.foldl (fun a f =>
    setF (FN_FUNC_FLOWS_BOUND f) ((s.ing.flows.filter (fun e => e.2.fn == f)).length) a) s1

/-- A BIND record (R114, R137). -/
def bindRec (fid : Nat) (x : Flow) (action : Nat) (s : State) : State :=
  addRec 0x12 (le 2 fid ++ le 2 x.stream ++ le 4 x.nsid ++ slice x.desc 4 60 ++ le 1 action ++ zeros 3) s

def setFlow (fid : Nat) (x : Flow) (s : State) : State :=
  { s with ing := { s.ing with flows := mset s.ing.flows fid x } }

def updFlow (fid : Nat) (g : Flow → Flow) (s : State) : State :=
  { s with ing := { s.ing with flows := mupd s.ing.flows fid g } }

/-- The flow's entry in the Sieve's flow partition, at the index of its flow ID (R116). -/
def writeFlowEntry (fid : Nat) (x : Flow) (s : State) : State :=
  let k := flowKey x.desc x.ssrc
  sieveWrite 1 fid (some { value := k.1, care := k.2, cls := x.prio, result := fid }) s

/-- STROKE_BYTES of a flow (R112). -/
def strokeBytes (s : State) (x : Flow) : Nat :=
  if leAt x.desc 56 4 = 0 then 8 * x.rate * s.time.period / 1000 else leAt x.desc 56 4

/-- The lowest stream ID that no namespace and no bound flow holds (R114). -/
def freeStream (s : State) : Nat :=
  let used := (s.nss.filter (fun e => e.2.sealed)).foldl (fun a e => insertNat e.2.stream a)
    (s.ing.flows.foldl (fun a e => insertNat e.2.stream a) [])
  mfree (used.map (fun k => (k, ()))) 1

/-! ### The layout of a stroke (R119) -/

/-- The stream's previous active stroke, as the AUX of a RUN record gives it. -/
def prevActive (s : State) (stream : Nat) : Option Nat :=
  if s.chain.openGenesis.isSome then none
  else
    let cs := s.chain.closed.filter (fun c => c.parts.any (fun e => e.1 == stream))
    match cs.getLast? with
    | some c => some c.n
    | none => if s.chain.closed.any (fun c => c.genesis.isSome) then none else (mget s.chain.streams stream).map (·.1)

/-- The bytes of a key-frame index entry (R121, R126); PHASE is 0. -/
def keyItemBytes (k : KeyItem) : Bytes :=
  le 1 2 ++ le 1 (bit k.frame.params) ++ zeros 2 ++ le 2 k.flow ++ le 2 k.stream ++ le 4 k.frame.ts ++ le 4 k.nsid
    ++ le 8 k.frame.lba ++ le 2 k.frame.off ++ zeros 2 ++ le 4 k.frame.arr

/-- The place of a frame's start unit, once the run is laid out at byte `pos`. -/
def placeFrame (blk pos : Nat) (units : List Bytes) (f : Frame) : Frame :=
  match f.idx with
  | none => f
  | some i =>
    let p := pos + 64 + ((units.take i).map (·.length)).foldl (· + ·) 0
    { f with idx := none, lba := p / blk, off := p % blk }

/-- Lay out the run of one flow: its RUN record, D(s,n), its place, its key frames. The bytes are returned. -/
def layFlow (x : Ns) (base : Nat) (a : Bytes × State) (fid : Nat) : Bytes × State :=
  match mget a.2.ing.flows fid with
  | none => a
  | some fl =>
    let s := a.2
    let data := fl.units.flatten
    let pos := base + a.1.length
    let aux := (prevActive s fl.stream).getD (2 ^ 48 - 1)
    let rec_ := inkBytes s 0x01 fl.stream (recFlags s) (s.time.stroke * 65536) s.chain.rseq aux data
    let run : SealedRun := { stroke := s.time.stroke, stream := fl.stream, pos := pos, skip := 64, bytes := data.length,
                             size := rec_.length }
    let s1 := absorb fl.stream fl.nsid (pos / x.blk) (pos % x.blk) data
      { s with chain := { s.chain with rseq := s.chain.rseq + 1 } }
    let s2 := updNs fl.nsid (fun n => { n with runs := n.runs ++ [run] }) s1
    let keys := s2.ing.keys.map (fun k =>
      if k.flow = fid then { k with frame := placeFrame x.blk pos fl.units k.frame } else k)
    let fresh := (keys.filter (fun k => k.flow == fid)).map keyItemBytes
    let ix := fl.index ++ fresh
    let s3 := updFlow fid (fun y => { y with
      units := [], frame := y.frame.map (placeFrame x.blk pos fl.units), index := ix.drop (ix.length - 1024) })
      { s2 with ing := { s2.ing with keys := keys } }
    (a.1 ++ rec_, s3)

/-- Flow IDs of a namespace with units, by rising stream ID. -/
def flowsByStream (s : State) (nsid : Nat) : List Nat :=
  let m := s.ing.flows.foldl (fun a e =>
    if e.2.nsid = nsid && !e.2.units.isEmpty then mset a e.2.stream e.1 else a) ([] : Map Nat)
  m.map (·.2)

/-- Whole blocks are appended at the write pointer. -/
def appendBlocks (nsid : Nat) (data : Bytes) (s : State) : State :=
  match getNs s nsid with
  | none => s
  | some x =>
    if data.length < x.blk then s
    else applyWrite nsid x.wp data {} (updNs nsid (fun n => { n with wp := n.wp + data.length / n.blk }) s)

/-- STROKE_LAYOUT of one namespace (R119). -/
def layNs (nsid : Nat) (s : State) : State :=
  match getNs s nsid with
  | none => s
  | some x =>
    let fids := flowsByStream s nsid
    if fids.isEmpty then s
    else
      let r := fids.foldl (layFlow x (x.wp * x.blk)) (x.tail, s)
      let k := r.1.length / x.blk * x.blk
      notePeak (appendBlocks nsid (slice r.1 0 k) (updNs nsid (fun n => { n with tail := r.1.drop k }) r.2))

def layAll (s : State) : State :=
  if strokeOpen s then s.nss.foldl (fun a e => layNs e.1 a) s else s

/-- The held tail is padded with zeros and appended (R119). -/
def flushTail (nsid : Nat) (s : State) : State :=
  match getNs s nsid with
  | none => s
  | some x =>
    if x.tail.isEmpty then s
    else appendBlocks nsid (fixLen x.blk x.tail) (updNs nsid (fun n => { n with tail := [] }) s)

def flushTails (s : State) : State := s.nss.foldl (fun a e => flushTail e.1 a) s

/-! ### Gaps and sequence tracking (R122, R123) -/

def u16 (n : Nat) : Nat := n % 65536

/-- `a − b` modulo 65,536. -/
def sub16 (a b : Nat) : Nat := (a + 65536 - b % 65536) % 65536

/-- One event of a kind enters the flow's record of the stroke (R123). -/
def gapAdd (kind : Nat) (q : Option Nat) (packets bytes dt : Nat) (x : Flow) : Flow :=
  let g := (mget x.gaps kind).getD { dtime := dt }
  let g1 := match q with
    | none => g
    | some n => { g with
        first := if g.runs = 0 then n else g.first, last := n,
        runs := if g.runs = 0 || n != u16 (g.last + 1) then min 65535 (g.runs + 1) else g.runs }
  { x with gaps := mset x.gaps kind { g1 with
      packets := satAdd g1.packets packets (2 ^ 32 - 1), bytes := satAdd g1.bytes bytes (2 ^ 32 - 1) } }

def cnt32 (n : Nat) : Nat := satAdd n 1 (2 ^ 32 - 1)

/-- A pending number is declared lost: a SEQ record. -/
def loseSeq (p : Nat × Nat × Nat) (x : Flow) : Flow := gapAdd 1 (some p.1) 1 0 p.2.2 { x with lost := cnt32 x.lost }

/-- Every pending number is declared lost. -/
def loseAll (x : Flow) : Flow := { x.pend.foldl (fun a p => loseSeq p a) x with pend := [] }

/-- Numbers whose REORDER later packets have come are declared lost. -/
def loseLate (x : Flow) : Flow :=
  let old := x.pend.filter (fun p => x.reorder ≤ x.count - p.2.1)
  { old.foldl (fun a p => loseSeq p a) x with pend := x.pend.filter (fun p => !(x.reorder ≤ x.count - p.2.1)) }

/-- The history keeps the numbers within 64 behind E. -/
def trimHist (x : Flow) : Flow :=
  match x.e with
  | none => x
  | some e => { x with hist := x.hist.filter (fun q => 0 < sub16 e q && sub16 e q ≤ 64) }

/-- SEQUENCE_TRACK (R122): the packet's number is applied; the flags of a stored unit, or none for a DUP. -/
def seqTrack (q dt : Nat) (stored : Bool) (x : Flow) : Option Nat × Flow :=
  match x.e with
  | none => (some 0, { x with e := some (u16 (q + 1)), hist := [q], count := x.count + 1 })
  | some e =>
    let d := sub16 q e
    let back := sub16 e q
    let n := x.count + 1
    let done (f : Nat) (y : Flow) : Option Nat × Flow := (some f, loseLate (trimHist { y with count := n }))
    if d < 32768 then
      let new := (List.range d).map (fun i => (u16 (e + i), n, dt))
      done 0 { x with pend := x.pend ++ new, e := some (u16 (q + 1)), hist := x.hist ++ [q] }
    else if x.pend.any (fun p => p.1 == q) then
      done 32 { x with pend := x.pend.filter (fun p => p.1 != q), hist := x.hist ++ [q] }
    else if back ≤ 64 then
      if x.hist.contains q then (none, x)
      else
        let y := { x with hist := x.hist ++ [q] }
        done 64 (if stored then gapAdd 4 (some q) 0 0 dt { y with late := cnt32 y.late } else y)
    else
      let y := loseAll x
      let g := (mget y.gaps 11).getD { first := e, dtime := dt }
      let y1 := if stored then { y with gaps := mset y.gaps 11 { g with last := q, runs := min 65535 (g.runs + 1) } } else y
      done 128 { y1 with e := some (u16 (q + 1)), hist := [q] }

/-! ### Received frames (R111, R116 to R121, R124, R125) -/

/-- The Sieve key of a packet. -/
def pktKey (port : Nat) (p : Pkt) (ssrc : Nat) : Nat :=
  (if p.v6 then 0x12 else 0x11) * 2 ^ 136 + port * 2 ^ 134 + bit p.vlan.isSome * 2 ^ 133 + p.vlan.getD 0 * 2 ^ 121
    + keyAddr p.v6 p.src * 2 ^ 89 + keyAddr p.v6 p.dst * 2 ^ 57 + p.dport * 2 ^ 41 + ssrc * 2 ^ 9

/-- The confirmation of a match against the flow's record; no PT without a complete RTP header. -/
def confirms (x : Flow) (p : Pkt) : Bool :=
  let pre := byteAt x.desc 15
  let addr := !p.v6 || (beAt x.desc 36 16 == p.dst && (beAt x.desc 20 16 ^^^ p.src) / 2 ^ (128 - pre) == 0)
  let port := !x.flag 3 || beAt x.desc 12 2 == p.sport
  let pt := p.udp.length < 12 || byteAt x.desc 7 == 255 || byteAt x.desc 7 == byteAt p.udp 1 % 128
  addr && port && pt

/-- The flow of a packet (R116). A packet without a complete RTP header that hits several entries is unmatched before any of them is
confirmed: DESIGN CHOICE (notes/assumptions/141). -/
def classify (s : State) (port : Nat) (p : Pkt) : Option (Nat × Flow) :=
  let short := p.udp.length < 12
  let hits :=
    if short then (partEntries s 1).filter (fun e =>
      { e.2 with care := e.2.care - (bits e.2.care 40 9) * 2 ^ 9 }.hits (pktKey port p 0))
    else matchesOf s 1 (pktKey port p (beAt p.udp 8 4))
  match hits with
  | [] => none
  | h :: t =>
    if short && !t.isEmpty then none
    else match mget s.ing.flows h.2.result with
      | none => none
      | some x => if confirms x p then some (h.2.result, x) else none

def getPort (s : State) (p : Nat) : Port := (mget s.ing.ports p).getD {}

def updPort (p : Nat) (g : Port → Port) (s : State) : State :=
  { s with ing := { s.ing with ports := mset s.ing.ports p (g (getPort s p)) } }

/-- A packet of a flow is refused: a record of its kind, and its number is applied as if it had been stored. -/
def refusePkt (fid kind bytes : Nat) (q : Option Nat) (s : State) : State :=
  updFlow fid (fun x =>
    let x1 := gapAdd kind q 1 bytes (now s) { x with touched := true, seen := true, silent := false, idle := 0 }
    let x2 := match kind with
      | 2 => { x1 with rateN := cnt32 x1.rateN }
      | 3 => { x1 with overN := cnt32 x1.overN }
      | 5 => { x1 with bufN := cnt32 x1.bufN }
      | 6 => { x1 with lenN := cnt32 x1.lenN }
      | _ => x1
    match q with
    | some n => (seqTrack n (now s) false x2).2
    | none => x2) s

/-- Bytes that a namespace's flows have stored in the open stroke, their RUN headers included. -/
def pendingBytes (s : State) (nsid : Nat) : Nat :=
  s.ing.flows.foldl (fun a e => if e.2.nsid = nsid && !e.2.units.isEmpty then a + 64 + e.2.sBytes else a) 0

/-- The namespace has no room for one more unit of a flow (R119). -/
def nsFull (s : State) (x : Flow) (len : Nat) : Bool :=
  match getNs s x.nsid with
  | none => true
  | some n => n.nsze * n.blk < n.wp * n.blk + n.tail.length + pendingBytes s x.nsid
      + (if x.units.isEmpty then 64 else 0) + 16 + len

/-- A packet is stored as a packet unit (R118, R120, R121). -/
def storeUnit (fid : Nat) (r : Rtp) (flags0 : Nat) (x : Flow) (s : State) : State :=
  let nal := nalUnits x.payload (x.flag 4) x.frag r.payload
  let types := if nal.bad then [] else nal.types
  let start := x.lastTs != some r.ts || x.lastMark
  let arr := now s % 2 ^ 32
  let fr : Frame := if start then { ts := r.ts, arr := arr, idx := some x.units.length }
    else x.frame.getD { ts := r.ts, arr := arr, idx := some x.units.length }
  let params := types.any (paramNal x.payload)
  let key := types.any (keyNal x.payload)
  let fr1 := { fr with params := fr.params || params, keyed := fr.keyed || key }
  let flags := flags0 + bit r.mark + 2 * bit start + 4 * bit key + 8 * bit params + 16 * bit nal.bad
  let n := 16 + r.payload.length
  let unit := le 2 r.payload.length ++ le 2 r.seq ++ le 4 r.ts ++ le 4 arr ++ le 1 flags ++ le 1 r.pt ++ zeros 2 ++ r.payload
  let item : KeyItem := { flow := fid, stream := x.stream, nsid := x.nsid, fn := x.fn, frame := fr1 }
  let newKey := key && !fr.keyed
  let y := { x with
    units := x.units ++ [unit], lastTs := some r.ts, lastMark := r.mark, frag := nal.frag, frame := some fr1,
    left := x.left - n, debt := x.debt + (n - x.left), sUnits := x.sUnits + 1, sBytes := x.sBytes + n,
    bytes := satAdd x.bytes n (2 ^ 64 - 1), stored := cnt32 x.stored, keyN := if newKey then cnt32 x.keyN else x.keyN,
    lastStroke := s.time.stroke % 2 ^ 32, touched := true, seen := true, silent := false, idle := 0 }
  let s1 := setFlow fid y s
  if newKey then { s1 with ing := { s1.ing with keys := s1.ing.keys ++ [item] } } else s1

/-- A classified packet, where the ports store: the refusals in turn, then the sequence rules (R42, R45, R117, R119,
R122, R124). -/
def takePkt (fid : Nat) (x : Flow) (p : Pkt) (noRoom : Bool) (s : State) : State :=
  let q := if p.udp.length < 4 then none else some (beAt p.udp 2 2)
  let n := p.udp.length
  if atDirtyLimit s then refusePkt fid 3 n q s
  else if noRoom then refusePkt fid 5 n q s
  else match parseRtp p.udp with
    | none => refusePkt fid 6 n q s
    | some r =>
      if nsFull s x r.payload.length then refusePkt fid 10 n q s
      else if x.left = 0 then refusePkt fid 2 n q s
      else
        let t := seqTrack r.seq (now s) true x
        match t.1 with
        | none => setFlow fid { x with dup := cnt32 x.dup, touched := true, seen := true, silent := false, idle := 0 } s
        | some fl => storeUnit fid r fl t.2 s

/-- The SSRC of the first matching packet is noted for the next boundary (R116). -/
def learnSsrc (x : Flow) (p : Pkt) : Flow :=
  if x.learns && x.ssrc.isNone && x.learned.isNone && 12 ≤ p.udp.length then { x with learned := some (beAt p.udp 8 4) } else x

/-- An IEEE 1588 event message (R111): message types 0 to 3 over EtherType 88F7h, or UDP port 319. -/
def ptpEvent (f : Bytes) (r : FrameRes) : Bool :=
  match r with
  | .bad => false
  | .pkt p => p.dport == 319
  | .unmatched =>
    let tag := beAt f 12 2 == 0x8100
    beAt f (if tag then 16 else 12) 2 == 0x88F7 && byteAt f (if tag then 18 else 14) % 16 < 4

/-- FRAME_RECEIVED (R111, R117, R124, R125): a frame on a running port with its link up. An event message on the PTP port goes to the
stroke generator and is not stored (PTP_MESSAGE). Packets dropped in READ-ONLY, and those that PARK does not store, count as unmatched
and leave their flow as it was: DESIGN CHOICE (notes/assumptions/141). -/
def receiveFrame (port : Nat) (frame : Bytes) (fcsBad noRoom : Bool) (s : State) : State :=
  let unmatched (a : State) : State := updPort port (fun y => { y with unmatched := cnt32 y.unmatched }) a
  let s1 := updPort port (fun y => { y with frames := cnt32 y.frames }) s
  let r := parseFrame (getF s (ING_PORT_MAX_FRAME port)) fcsBad frame
  if port = getF s STK_CTL_PTP_PORT && ptpEvent frame r then s1
  else match r with
  | .bad => updPort port (fun y => { y with bad := cnt32 y.bad }) s1
  | .unmatched => unmatched s1
  | .pkt p =>
    let short := p.udp.length < 12
    let s2 := if short then incF SIV_LOOKUPS 1 s1 else countLookup 1 (pktKey port p (beAt p.udp 8 4)) s1
    match classify s2 port p with
    | none => unmatched s2
    | some (fid, x) =>
      if s.mode.cur = .readOnly || (s.mode.cur = .park && !x.parks) then unmatched s2
      else
        let x1 := learnSsrc x p
        takePkt fid x1 p noRoom (setFlow fid x1 s2)

def execFrameReceived (frac port : Nat) (frame : Bytes) (fcsBad noRoom : Bool) (levelKib : Nat) (s : State) : Result :=
  let s := atFrac frac s
  let p := port % 4
  .next (if !(getPort s p).running || !flagF s (ING_PORT_LINK p) || s.ing.paused then s
    else
      let s1 := setF (ING_PORT_LEVEL_KIB p) (min 256 levelKib) s
      receiveFrame p frame fcsBad noRoom (setPanic p (getF s (ING_PORT_PANIC_KIB p) < levelKib) s1))

/-- SILENT_TIMEOUT (R122): one SILENT record for a flow that has been silent for SILENT_STROKES strokes, unless its link is
down, or the mode holds its port or the flow stopped. -/
def execSilentTimeout (frac flow : Nat) (s : State) : Result :=
  let s := atFrac frac s
  .next (match mget s.ing.flows flow with
  | none => s
  | some x =>
    let thr := getF s ING_CTL_SILENT_STROKES
    if thr = 0 || x.idle < thr || x.silent || !flagF s (ING_PORT_LINK x.port) || (s.mode.cur == .park && !x.parks) then s
    else setFlow flow { gapAdd 9 none 0 0 (now s) x with
        silent := true,
        gaps := mset x.gaps 9 { first := x.e.getD 0, dtime := now s } } s)

/-! ### The boundary (R116, R122, R123, R127) -/

/-- The 32 bytes of a gap record. -/
def gapBytes (kind port flow stream : Nat) (g : Gap) : Bytes :=
  le 1 kind ++ le 1 port ++ le 2 flow ++ le 2 stream ++ le 2 g.first ++ le 2 g.last ++ le 2 g.runs ++ le 4 g.packets
    ++ le 4 g.bytes ++ zeros 4 ++ le 8 g.dtime

/-- A gap record as a gap item of a summary entry (R126). -/
def gapItem (r : Bytes) : Bytes := le 1 3 ++ slice r 0 2 ++ zeros 1 ++ slice r 2 18 ++ zeros 2 ++ slice r 24 8

/-- LINK events of the stroke: at most one record for each port and kind, of the first event. -/
def firstLinks : List (Nat × Nat × Nat) → List (Nat × Nat × Nat)
  | [] => []
  | l :: t => l :: (firstLinks t).filter (fun m => !(m.1 == l.1 && m.2.1 == l.2.1))

/-- Gap records of the ending stroke: function (none for a port record), port, DTIME and bytes. -/
def gapRecords (s : State) : List (Option Nat × Nat × Nat × Bytes) :=
  (firstLinks s.ing.links).map (fun l => (none, l.1, l.2.2, gapBytes l.2.1 l.1 0xFFFF 0 { dtime := l.2.2 }))
    ++ s.ing.flows.flatMap (fun e => e.2.gaps.map (fun g =>
      (some e.2.fn, e.2.port, g.2.dtime, gapBytes g.1 e.2.port e.1 e.2.stream g.2)))

/-- The summary entry of a function for the ending stroke, if it is due one (R127). Its key items stand before its gap items, so gap
items are dropped first: DESIGN CHOICE (notes/assumptions/141). -/
def summaryOf (s : State) (stroke f : Nat) (recs : List (Option Nat × Nat × Nat × Bytes)) : Option RingPost :=
  match (getFn s f).ring with
  | none => none
  | some r =>
    let flows := s.ing.flows.filter (fun e => e.2.fn == f)
    let act := flows.filter (fun e => 0 < e.2.sUnits)
    let mine := recs.filter (fun g => g.1 == some f || (g.1.isNone && flows.any (fun e => e.2.port == g.2.1)))
    if act.isEmpty && !mine.any (fun g => g.1.isNone) then none
    else
      let keys := if bitAt r.items 0 then (s.ing.keys.filter (fun k => k.fn == f)).map keyItemBytes else []
      let gaps := if bitAt r.items 1 then mine.map (fun g => gapItem g.2.2.2) else []
      some { fn := f, stroke := stroke, flows := act.length, bytes := act.foldl (fun a e => a + e.2.sBytes) 0,
             lost := mine.foldl (fun a g => if byteAt g.2.2.2 0 = 1 then a + leAt g.2.2.2 12 4 else a) 0,
             gaps := mine.length, packets := act.foldl (fun a e => a + e.2.sUnits) 0, items := keys ++ gaps }

/-- The SSRC is latched by invalidate-write-validate, and the next packet sets E (R116, R122). -/
def latchSsrc (fid : Nat) (x : Flow) (s : State) : State :=
  match x.learned with
  | none => s
  | some v =>
    let y := { x with ssrc := some v, learned := none, e := none, hist := [], pend := [] }
    writeFlowEntry fid y (setFlow fid y s)

/-- The flow's part of a new stroke: its counts restart, its idle strokes are counted, its budget is refilled pro rata
(R42, R96, R122). -/
def flowStroke (s : State) (r reserved : Nat) (x : Flow) : Flow :=
  let base := strokeBytes s x
  let b := if reserved = 0 || reserved ≤ r then base else base * r / reserved
  let stopped := !flagF s (ING_PORT_LINK x.port) || (s.mode.cur == .park && !x.parks)
  { x with gaps := [], sUnits := 0, sBytes := 0, touched := false, left := b - x.debt, debt := x.debt - b,
           idle := if x.touched || stopped then 0 else x.idle + 1 }

/-- What ingest does once the stroke has turned: pending numbers are lost, gap records enter stream 0 of the new stroke,
summary entries are formed, SSRCs latched, budgets refilled. `ended` is the stroke that ended, `wr` the write capacity of
the new one. -/
def ingestBoundary (ended wr : Nat) (s : State) : State :=
  let s1 := { s with ing := { s.ing with flows := s.ing.flows.map (fun e => (e.1, loseAll e.2)) } }
  let recs := gapRecords s1
  let s2 := recs.foldl (fun a g => addRecAt 0x11 g.2.2.1 g.2.2.2 a) s1
  let posts := allFns.filterMap (fun f => summaryOf s1 ended f recs)
  let s3 := s2.ing.flows.foldl (fun a e => latchSsrc e.1 e.2 a) s2
  let res := ingestReserved s3
  { s3 with ing := { s3.ing with
      flows := s3.ing.flows.map (fun e => (e.1, flowStroke s3 (min res wr) res e.2)), links := [], keys := [],
      posts := s3.ing.posts ++ posts } }

/-! ### The summary ring (R59, R126, R127) -/

/-- A summary entry has been written for a vector (R59, R127): it is covered by the signal of that instant. -/
def noteSummary (f v : Nat) (s : State) : State :=
  let x := getFn s f
  if !coalesced x v || !flagF s (FN_FUNC_ALIGN f) then noteCompletion f v s
  else if (getVec x v).spent then updVec f v (fun w => { w with count := w.count + 1 }) s
  else signal f v (updVec f v (fun w => { w with count := w.fresh, spent := true }) s)

/-- Write slots one after another. -/
def writeSlots (f : Nat) (bs : List Bytes) (s : State) : State :=
  match bs with
  | [] => s
  | b :: t =>
    match (getFn s f).ring with
    | none => s
    | some r =>
      let s1 := emit (.ringEntry f r.prod (splice b 3 (le 1 r.phase))) s
      let wrap := r.slots ≤ r.prod + 1
      writeSlots f t (updFn f (fun x => { x with ring := some { r with
        prod := if wrap then 0 else r.prod + 1, phase := if wrap then 1 - r.phase else r.phase } }) s1)

/-- One summary entry is posted, as far as it fits (R127). -/
def postSummary (cons : List (Nat × Nat)) (p : RingPost) (s : State) : State :=
  match (getFn s p.fn).ring with
  | none => s
  | some r =>
    let lost (a : State) : State := updFn p.fn (fun x => { x with ring := some { r with lost := satAdd r.lost 1 (2 ^ 32 - 1) } }) a
    if !hostSide s p.fn || (getFn s p.fn).d3 || (getFn s p.fn).flr.isSome then lost s
    else
      let c := (mget cons p.fn).getD 0 % r.slots
      let free := r.slots - 1 - (r.prod + r.slots - c) % r.slots
      if free = 0 then lost s
      else
        let k := min p.items.length (min (free - 1) 255)
        let head := le 1 1 ++ le 1 k ++ le 1 (min 255 (p.items.length - k)) ++ zeros 1 ++ le 4 r.lost ++ le 8 p.stroke
          ++ le 4 p.flows ++ le 4 (min (2 ^ 32 - 1) p.bytes) ++ le 2 (min 65535 p.lost) ++ le 2 (min 65535 p.gaps)
          ++ le 4 p.packets
        noteSummary p.fn r.vector (writeSlots p.fn (head :: p.items.take k)
          (updFn p.fn (fun x => { x with ring := some { r with lost := 0 } }) s))

/-- SUMMARY_POST (R127): `cons` gives, by function, what the device reads at CONS_ADDR. -/
def execSummaryPost (cons : List (Nat × Nat)) (s : State) : Result :=
  .next (s.ing.posts.foldl (fun a p => postSummary cons p a) { s with ing := { s.ing with posts := [] } })

/-- VECTOR_SIGNAL (R58, R59): an aligned vector signals for the completions written before the boundary; another one at the
end of its aggregation time. -/
def execVectorSignal (fn vec : Nat) (s : State) : Result :=
  let x := getFn s fn
  let w := getVec x vec
  .next (if !coalesced x vec || w.count = 0 then s
    else if flagF s (FN_FUNC_ALIGN fn) then
      if w.spent || w.count ≤ w.fresh then s
      else signal fn vec (updVec fn vec (fun y => { y with count := y.fresh, spent := true }) s)
    else signal fn vec (updVec fn vec (fun y => { y with count := 0, fresh := 0 }) s))

end Sys2Proof.Machine
end

