-- ==== Sys2Proof/Machine/Nvm.lean ====
section
/-!
DEFINITION. The I/O commands of the NVM command set and SEALED APPEND (spec/04_command_queueing.md R75 to R91, spec/07 R147,
R148, spec/09 R201, R202, spec/02 R42, R45): fetch, the checks, order groups and their hazards, the transfer of data and the
instant at which a command is applied.
-/

namespace Sys2Proof.Machine

/-! ### Fetch and the checks every command takes (R75, R87, R88, R105) -/

/-- Complete the command of an entry. -/
def done (q : Sqe) (st : Status) (dw0 dw1 : Nat) (s : State) : State := complete q.fn q.sqid q.cid st dw0 dw1 s

/-- A write-type command that is not applied. -/
def Cmd.writes (c : Cmd) : Bool :=
  match c.kind with
  | .write _ _ _ _ | .append _ _ _ _ _ | .zeroes _ _ | .dealloc _ => true
  | _ => false

/-- The hazard partition of the Sieve has an entry for each write-type command in flight (R77). -/
def hazardRoom (s : State) : Bool := (s.cmds.filter Cmd.writes).length < 16384

/-- A function may fetch I/O entries now: it may spend a command (R42, R92); the head fetches for its proxies without a charge. -/
def mayFetchIo (s : State) (f : Nat) : Bool := (proxyOf s f).isSome || affords s f .cmds

/-- Queues of a function whose next entry may be fetched (R75). -/
def readyQueues (s : State) (f : Nat) : List Nat :=
  (((getFn s f).sqs.filter (fun e => 0 < e.2.waiting && (e.1 == 0 || mayFetchIo s f))).map (·.1))

/-- It is the queue's turn (R75). While the hazard partition is full, entries that are no writes go on past those that are, so any queue
may give one (R77; notes/assumptions/138). -/
def queueTurn (s : State) (f sqid : Nat) : Bool :=
  !hazardRoom s || arbPick (getFn s f) (readyQueues s f) == some sqid

/-- An I/O entry can be fetched: its queue has one and has its turn, and its function may spend a command (R42, R75, R92). -/
def ioGate (q : Sqe) (s : State) : Bool :=
  q.sqid != 0 && canFetch s q.fn q.sqid && mayFetchIo s q.fn && queueTurn s q.fn q.sqid

/-- Fetch an I/O entry, charge it, and go on; a proxy's entry goes to its follower (R398); an unassigned opcode ends there (R88). -/
def ioFetch (q : Sqe) (k : State → State) (s : State) : Result :=
  .next (if ioGate q s then
      (match proxyOf s q.fn with
      | some d => toFollower d q.fn q.sqid q.cid q.nsid (takeEntry q.fn q.sqid s)
      | none =>
        let a := charge q.fn .cmds 1 (takeEntry q.fn q.sqid s)
        if q.badOpcode then done q .invalidOpcode 0 0 a else k a)
    else s)

/-- A reserved bit, a fused command or PSDT 11b (R87, R88). -/
def badEntry (q : Sqe) : Bool := q.reservedSet || q.fuse != 0 || q.xfer.psdt == 3

def attachedNs (s : State) (f nsid : Nat) : Option Ns :=
  match getNs s nsid with
  | some x => if x.attached.contains f then some x else none
  | none => none

/-- NSID FFFFFFFFh: every namespace. -/
def allNs : Nat := 0xFFFFFFFF

/-- The command is the first that its function sends, after a deferred error, to a namespace that it is attached to (R84). -/
def deferredHit (s : State) (q : Sqe) : Bool := (getFn s q.fn).deferred.any (fun n => n == q.nsid || q.nsid == allNs)

/-- The deferred errors that the command has met are told. -/
def takeDeferred (q : Sqe) (s : State) : State :=
  updFn q.fn (fun y => { y with deferred := y.deferred.filter (fun n => !(n == q.nsid || q.nsid == allNs)) }) s

/-- The conversion of NB5210-format media runs on the namespace: no command meets it, whatever it is attached to (R69). -/
def converting (s : State) (nsid : Nat) : Bool := (getNs s nsid).any (fun x => x.busy == .converting)

/-- The checks of a command to a namespace: the entry, the NSID, a deferred error, a pending transition, a busy namespace
(R84, R88, R105). -/
def onNs (q : Sqe) (needSealed : Bool) (k : Ns → State → State) (s : State) : State :=
  if badEntry q then done q .invalidField 0 0 s
  else if converting s q.nsid then done q .namespaceNotReady 0 0 s
  else match attachedNs s q.fn q.nsid with
  | none => done q .invalidNamespaceOrFormat 0 0 s
  | some x =>
    if needSealed && !x.sealed then done q .invalidNamespaceOrFormat 0 0 s
    else if deferredHit s q then done q .deferredMedia 0 0 (takeDeferred q s)
    else if nsPending s q.nsid then done q .statePending 0 0 s
    else match x.busy.status with
      | some st => done q st 0 0 s
      | none => k x s

/-- The refusals of a write-type command: on a sealed namespace, and in READ-ONLY (R89, R91). -/
def writeRefused (s : State) (x : Ns) : Option Status :=
  if x.sealed then some .sealedRange else if s.mode.cur = .readOnly then some .readOnlyMedia else none

/-- The length rows of R87 for blocks `[slba, slba + n)`; the MDTS row binds only a command that transfers data. -/
def lengthError (q : Sqe) (x : Ns) (slba n : Nat) (transfers : Bool) : Option Status :=
  if transfers && 2097152 < n * x.blk then some .invalidField
  else if x.nsze < slba + n then some .lbaOutOfRange
  else if transfers then xferError q.xfer false (n * x.blk)
  else none

/-- End the command with the error, if there is one. -/
def orElse (q : Sqe) (e : Option Status) (k : State → State) (s : State) : State :=
  match e with
  | some st => done q st 0 0 s
  | none => k s

/-! ### Order groups and hazards (R76, R77) -/

/-- The order group of a queue: the queue itself, or the whole function. -/
def orderGroup (s : State) (f sqid : Nat) : Nat × Nat := (f, if (getFn s f).feats.groupMode then 0 else sqid)

/-- Appends of a namespace that are not applied, in fetch order. -/
def appendsOf (s : State) (nsid : Nat) : List Cmd :=
  s.cmds.filter (fun c => c.nsid == nsid && (match c.kind with | .append _ _ _ _ _ => true | _ => false))

def Cmd.blocks (c : Cmd) : Nat :=
  match c.kind with
  | .append n _ _ _ _ => n
  | _ => 0

/-- The first LBA that a waiting append will take: the write pointer and the appends before it (R148). -/
def appendBase (s : State) (c : Cmd) : Nat :=
  ((appendsOf s c.nsid).filter (fun d => d.order < c.order)).foldl (fun a d => a + d.blocks)
    (((getNs s c.nsid).map (·.wp)).getD 0)

/-- The ranges of a command that the hazard check compares. -/
def cmdRanges (s : State) (c : Cmd) : List (Nat × Nat) :=
  match c.kind with
  | .write a n _ _ => [(a, n)]
  | .append n _ _ _ _ => [(appendBase s c, n)]
  | .zeroes a n => [(a, n)]
  | .dealloc rs => rs
  | .read a n _ => [(a, n)]
  | .compare a n _ _ => [(a, n)]
  | .verify a n _ => [(a, n)]
  | _ => []

/-- A Read, Compare or Verify that has not resolved its map. -/
def Cmd.unresolved (c : Cmd) : Bool :=
  match c.kind with
  | .read _ _ _ | .compare _ _ _ _ | .verify _ _ _ => c.blocked
  | _ => false

def rangesMeet (a b : List (Nat × Nat)) : Bool :=
  a.any (fun x => b.any (fun y => x.1 < y.1 + y.2 && y.1 < x.1 + x.2))

/-- HAZARD_CHECK (R77): an earlier command of the order group on the namespace overlaps and stands in the way. -/
def hazard (s : State) (c : Cmd) : Bool :=
  s.cmds.any (fun d => d.order < c.order && d.nsid == c.nsid && orderGroup s d.fn d.sqid == orderGroup s c.fn c.sqid &&
    (d.writes || (c.writes && d.unresolved)) && rangesMeet (cmdRanges s d) (cmdRanges s c))

def showHazards (s : State) : State := setF SIV_HAZARD_USED (s.cmds.filter Cmd.writes).length s

/-! ### Applying and resolving (R77, R78, R148, R183, R201, R202) -/

/-- A namespace has had writes applied since the last committed stroke (R231). -/
def markWrite (nsid : Nat) (s : State) : State :=
  { s with mode := { s.mode with uncommitted := mset s.mode.uncommitted nsid s.time.stroke } }

/-- Bytes that a sealed append transfers, and that D covers (R148). -/
def appendBytes (nblk lastBytes : Nat) : Nat := if lastBytes = 0 then nblk * 4096 else nblk * 4096 - (4096 - lastBytes)

/-- A part of a range is written with zeros by read-modify-write; a whole unit is set to zeroed (R202). -/
def zeroUnit (nsid : Nat) (x : Ns) (lba n : Nat) (w : Writer) (s : State) (u : Nat) : State :=
  let lo := max (u * x.unitBlocks) lba
  let hi := min ((u + 1) * x.unitBlocks) (lba + n)
  if hi - lo = x.unitBlocks then updNs nsid (fun y => { y with map := mset y.map u .zeroed }) s
  else writeUnit nsid x lo (zeros ((hi - lo) * x.blk)) w s u

/-- Write Zeroes is applied (R78, R202), and journaled (R222). -/
def applyZeroes (nsid lba n : Nat) (w : Writer) (s : State) : State :=
  match getNs s nsid with
  | none => s
  | some x =>
    let us := unitsOf x lba n
    let s1 := us.foldl (fun a u => zeroUnit nsid x lba n w a u) (bumpSeq s)
    notePeak (place (journalAdd (.zero nsid lba us.length s1.ftl.seq)
      (updNs nsid (fun y => { y with lost := unlose lba n y.lost }) s1)))

/-- A deallocation is applied: the units it wholly covers are queued with the SEQ of the instant (R201). -/
def applyDealloc (nsid : Nat) (ranges : List (Nat × Nat)) (s : State) : State :=
  match getNs s nsid with
  | none => s
  | some x =>
    let s1 := bumpSeq s
    let ub := x.unitBlocks
    let qs := ranges.filterMap (fun r =>
      let lo := ceilDiv r.1 ub
      let hi := (r.1 + r.2) / ub
      if lo < hi then some ({ nsid := nsid, unit := lo, count := hi - lo, seq := s1.ftl.seq } : Dealloc) else none)
    { s1 with ftl := { s1.ftl with deallocs := s1.ftl.deallocs ++ qs } }

def writerOf (c : Cmd) (directive : Nat) : Writer := { fn := c.fn, sqid := c.sqid, cid := c.cid, directive := directive }

/-- An append is applied (R148): it enters D of its stream in the open stroke, and the write pointer moves. -/
def applyAppend (c : Cmd) (nblk lastBytes : Nat) (data : Bytes) (s : State) : State :=
  match getNs s c.nsid with
  | none => s
  | some x =>
    let n := appendBytes nblk lastBytes
    let body := fixLen n data
    let run : SealedRun := { stroke := s.time.stroke, stream := x.stream, pos := x.wp * x.blk, bytes := n, size := nblk * x.blk }
    let s1 := absorb x.stream c.nsid x.wp 0 body s
    let s2 := applyWrite c.nsid x.wp (fixLen (nblk * 4096) body) (writerOf c 0)
      (updNs c.nsid (fun y => { y with wp := y.wp + nblk, runs := y.runs ++ [run] }) s1)
    markWrite c.nsid s2

/-- Blocks of a range that are read from the media. -/
def mediaBlocks (x : Ns) (lba n : Nat) : Nat :=
  (unitsOf x lba n).foldl (fun a u => match mget x.map u with
    | some (.media _ _) => a + (min ((u + 1) * x.unitBlocks) (lba + n) - max (u * x.unitBlocks) lba)
    | _ => a) 0

/-- The runs that a VERIFY RANGE reads: those of the strokes that touch the range and are not freed. -/
def verifyRuns (x : Ns) (lba n : Nat) : List SealedRun :=
  let ss := touchedStrokes x lba n
  x.runs.filter (fun r => !r.freed && ss.contains r.stroke)

/-- Media units of a list of runs, each once. -/
def runUnits (x : Ns) (rs : List SealedRun) : List (Nat × Nat) :=
  rs.foldl (fun a r => (mediaUnits x (r.blocks x.blk).1 (r.blocks x.blk).2).foldl
    (fun b w => if b.contains w then b else b ++ [w]) a) []

/-- Queue the reads that a command waits for; with none it ends at once. -/
def startReads (c : Cmd) (x : Ns) (wants : List (Nat × Nat)) (kind : CmdKind) (s : State) : State :=
  let c1 := { c with kind := kind, blocked := false, wants := wants }
  let s1 := updCmd c.fn c.sqid c.cid (fun _ => c1) s
  let cws := if x.sealed then 4 else 1
  let s2 := wants.foldl (fun a w => queueOp w.1 {
    pos := readPos a c.fn, op := .read w.2 cws, who := some (c.fn, c.sqid, c.cid) } a) s1
  if wants.isEmpty then finishCmd c1 s2 else settleOps s2

/-- A function may move data now. -/
def mayMove (s : State) (f : Nat) : Bool := hostSide s f && !(getFn s f).d3

/-- Read bytes charged before the media reads (R92): what a Compare takes from the host, and what Verify and VERIFY RANGE read from the
media. -/
def startCost (x : Ns) (c : Cmd) : Nat :=
  match c.kind with
  | .compare _ n _ _ => n * x.blk
  | .verify lba n _ => mediaBlocks x lba n * x.blk
  | .verifyRange lba n _ _ =>
    (verifyRuns x lba n).foldl (fun a r => a + mediaBlocks x (r.blocks x.blk).1 (r.blocks x.blk).2 * x.blk) 0
  | _ => 0

/-- The reads of a command are scheduled, once its function has budget for them; until then it is held (R42). -/
def schedule (c : Cmd) (x : Ns) (wants : List (Nat × Nat)) (kind : CmdKind) (s : State) : State :=
  let cost := startCost x c
  let takes := match c.kind with
    | .compare _ _ _ _ => true
    | _ => false
  if (0 < cost && !affords s c.fn .rdBytes) || (takes && !mayMove s c.fn) then
    updCmd c.fn c.sqid c.cid (fun d => { d with held := true }) s
  else startReads { c with held := false, moved := c.moved || takes } x wants kind (charge c.fn .rdBytes cost s)

/-- A VERIFY RANGE reads the runs of its strokes (R154). -/
def resolveVerify (c : Cmd) (lba n : Nat) (chain : Bool) (s : State) : State :=
  match getNs s c.nsid with
  | none => complete c.fn c.sqid c.cid .invalidNamespaceOrFormat 0 0 (dropCmd c.fn c.sqid c.cid s)
  | some x => schedule c x (runUnits x (verifyRuns x lba n)) (.verifyRange lba n chain (startCost x c)) s

/-- A read resolves its map at one instant (R17, R78, R147). -/
def resolveRead (c : Cmd) (lba n : Nat) (kind : Bytes → Nat → CmdKind) (s : State) : State :=
  match getNs s c.nsid with
  | none => complete c.fn c.sqid c.cid .invalidNamespaceOrFormat 0 0 (dropCmd c.fn c.sqid c.cid s)
  | some x =>
    if unwrittenIn x lba n then
      complete c.fn c.sqid c.cid .deallocatedOrUnwritten 0 0 (dropCmd c.fn c.sqid c.cid s)
    else if lostIn s x lba n then
      complete c.fn c.sqid c.cid .unrecoveredRead 0 0 (dropCmd c.fn c.sqid c.cid s)
    else schedule c x (mediaUnits x lba n) (kind (blockData s x lba n) (startCost x c)) s

/-! ### Transfers (R42, R45, R60, R148) -/

def holdCmd (c : Cmd) (s : State) : State :=
  updCmd c.fn c.sqid c.cid (fun d => { d with held := true, kind := match d.kind with
    | .append n l e st none => if atDirtyLimit s then .append n l e st (some s.time.stroke) else d.kind
    | k => k }) s

/-- The transfer of a write starts, if budget and space allow; otherwise the command is held. -/
def startTransfer (c : Cmd) (bytes : Nat) (s : State) : State :=
  if atDirtyLimit s || !affords s c.fn .wrBytes || !mayMove s c.fn then holdCmd c s
  else updCmd c.fn c.sqid c.cid (fun d => { d with held := false, moved := true }) (charge c.fn .wrBytes bytes s)

/-- The start of an append's transfer, with the checks made there (R115, R148). -/
def startAppend (c : Cmd) (nblk lastBytes expected : Nat) (s : State) : State :=
  match getNs s c.nsid with
  | none => s
  | some x =>
    let fail (st : Status) : State := complete c.fn c.sqid c.cid st 0 0 (dropCmd c.fn c.sqid c.cid s)
    if atDirtyLimit s || !affords s c.fn .wrBytes || !mayMove s c.fn then holdCmd c s
    else if flowsOn s c.nsid || mirrorTarget s c.nsid then fail .sealedRange
    else if expected != 2 ^ 64 - 1 && expected != x.wp then fail .sealedRange
    else if x.nsze < x.wp + nblk then fail .capacityExceeded
    else
      updCmd c.fn c.sqid c.cid (fun d => { d with held := false, moved := true, kind := match d.kind with
        | .append n l e _ h => .append n l e (some x.wp) h
        | k => k }) (charge c.fn .wrBytes (appendBytes nblk lastBytes) s)

/-- The append is the next of its namespace (R148). -/
def headAppend (s : State) (c : Cmd) : Bool :=
  match appendsOf s c.nsid with
  | d :: _ => d.order == c.order
  | [] => false

/-- One command goes as far as it can: its transfer starts, it is applied, its map is resolved, or a Flush ends. -/
def advanceCmd (c : Cmd) (s : State) : State :=
  let out (a : State) : State := complete c.fn c.sqid c.cid .success 0 0 (dropCmd c.fn c.sqid c.cid a)
  match c.kind with
  | .write lba _ dir (some data) =>
    if hazard s c then s else out (markWrite c.nsid (applyWrite c.nsid lba data (writerOf c dir) s))
  | .write _ n _ none =>
    if c.moved then s else startTransfer c (n * ((getNs s c.nsid).map (·.blk)).getD 4096) s
  | .append n l e _ _ =>
    if c.moved then s else if headAppend s c then startAppend c n l e s else if atDirtyLimit s then holdCmd c s else s
  | .zeroes lba n => if hazard s c then s else out (markWrite c.nsid (applyZeroes c.nsid lba n (writerOf c 0) s))
  | .dealloc rs => if hazard s c then s else out (markWrite c.nsid (applyDealloc c.nsid rs s))
  | .read lba n _ => if !c.blocked || hazard s c then s else resolveRead c lba n (fun d _ => .read lba n d) s
  | .compare lba n h _ => if !c.blocked || hazard s c then s else resolveRead c lba n (fun d _ => .compare lba n h d) s
  | .verify lba n _ => if !c.blocked || hazard s c then s else resolveRead c lba n (fun _ k => .verify lba n k) s
  | .verifyRange lba n chain _ => if !c.blocked then s else resolveVerify c lba n chain s
  | .flush waits => if s.cmds.any (fun d => waits.contains d.order) then s else out s
  | _ => s

/-- Every outstanding command goes as far as it can: those of one function in fetch order. -/
def advanceAll (s : State) : State :=
  showHazards ((serveOrder s (·.fn) s.cmds).foldl (fun a c => match findCmd a c.fn c.sqid c.cid with
    | some d => advanceCmd d a
    | none => a) s)

/-- Held commands go on: reads that wait for budget or the host side, writes that wait for space as well (R42, R45, R60). -/
def resumeHeld (s : State) : State := advanceAll (resumeReads s)

/-- A command that has passed its checks becomes outstanding. -/
def enlist (q : Sqe) (kind : CmdKind) (blocked : Bool) (s : State) : State :=
  advanceAll (addCmd { fn := q.fn, sqid := q.sqid, cid := q.cid, nsid := q.nsid, order := 0, kind := kind, blocked := blocked } s)

/-! ### The commands -/

/-- READ (R17, R77, R78, R87). -/
def execReadCmd (q : Sqe) (slba nlb : Nat) (s : State) : Result :=
  ioFetch q (onNs q false (fun x => orElse q (lengthError q x slba (nlb % 65536 + 1) true)
    (enlist q (.read slba (nlb % 65536 + 1) []) true))) s

/-- COMPARE (R77, R87, R89). -/
def execCompareCmd (q : Sqe) (slba nlb : Nat) (host : Bytes) (s : State) : Result :=
  ioFetch q (onNs q false (fun x => orElse q (lengthError q x slba (nlb % 65536 + 1) true)
    (enlist q (.compare slba (nlb % 65536 + 1) (fixLen ((nlb % 65536 + 1) * x.blk) host) []) true))) s

/-- VERIFY (R87): no data moves. -/
def execVerifyCmd (q : Sqe) (slba nlb : Nat) (s : State) : Result :=
  ioFetch q (onNs q false (fun x => orElse q (lengthError q x slba (nlb % 65536 + 1) false)
    (enlist q (.verify slba (nlb % 65536 + 1) 0) true))) s

/-- A directive stream that the namespace has allocated, under a number of its own in the device; none otherwise (R193, R194). -/
def directiveOf (q : Sqe) (x : Ns) (dtype dspec : Nat) : Nat :=
  if dtype = 1 && x.dirStreams.contains dspec then q.nsid * 16 + dspec else 0

/-- WRITE (R45, R77, R78, R87, R89, R194). -/
def execWriteCmd (q : Sqe) (slba nlb dtype dspec : Nat) (s : State) : Result :=
  if hazardRoom s then
    ioFetch q (onNs q false (fun x a => orElse q (writeRefused a x) (orElse q (lengthError q x slba (nlb % 65536 + 1) true)
      (enlist q (.write slba (nlb % 65536 + 1) (directiveOf q x dtype dspec) none) false)) a)) s
  else .next s

/-- WRITE ZEROES (R78, R202). -/
def execWriteZeroes (q : Sqe) (slba nlb : Nat) (_deac : Bool) (s : State) : Result :=
  if hazardRoom s then
    ioFetch q (onNs q false (fun x a => orElse q (writeRefused a x) (orElse q (lengthError q x slba (nlb % 65536 + 1) false)
      (enlist q (.zeroes slba (nlb % 65536 + 1)) true)) a)) s
  else .next s

/-- DATASET MANAGEMENT (R87, R201): without deallocate it is a hint with no effect. -/
def execDatasetManagement (q : Sqe) (ad : Bool) (ranges : List (Nat × Nat)) (s : State) : Result :=
  let rs := (ranges.take 256).filter (fun r => r.2 != 0)
  if hazardRoom s || !ad then
    ioFetch q (onNs q false (fun x a => orElse q (if ad then writeRefused a x else none)
      (orElse q (xferError q.xfer false (16 * max 1 (ranges.take 256).length))
        (orElse q (if rs.any (fun r => x.nsze < r.1 + r.2) then some .lbaOutOfRange else none)
          (fun b => if ad then enlist q (.dealloc rs) true b else done q .success 0 0 b))) a)) s
  else .next s

/-- Write-type commands of the Flush's order group fetched before it, on its namespaces. -/
def flushWaits (s : State) (q : Sqe) : List Nat :=
  (s.cmds.filter (fun c => c.writes && orderGroup s c.fn c.sqid == orderGroup s q.fn q.sqid &&
    (q.nsid == allNs || c.nsid == q.nsid))).map (·.order)

/-- FLUSH (R80): NSID FFFFFFFFh names every attached namespace. -/
def execFlushCmd (q : Sqe) (s : State) : Result :=
  ioFetch q (fun a =>
    if q.nsid = allNs then
      if badEntry q then done q .invalidField 0 0 a
      else if deferredHit a q then done q .deferredMedia 0 0 (takeDeferred q a)
      else if a.nss.any (fun e => e.2.attached.contains q.fn && nsPending a e.1) then done q .statePending 0 0 a
      else enlist q (.flush (flushWaits a q)) false a
    else onNs q false (fun _ b => enlist q (.flush (flushWaits b q)) false b) a) s

/-- SEALED APPEND (R45, R90, R148). -/
def execSealedAppend (q : Sqe) (nlb lastBytes expected : Nat) (s : State) : Result :=
  let n := nlb % 65536 + 1
  if hazardRoom s then
    ioFetch q (onNs q true (fun _ a =>
      orElse q (if 4096 < lastBytes || 2097152 < n * 4096 then some .invalidField
          else if a.mode.cur = .readOnly then some .readOnlyMedia
          else xferError q.xfer false (appendBytes n lastBytes))
        (enlist q (.append n lastBytes expected none none) false) a)) s
  else .next s

/-! ### Data and faults of transfers (R14, R64, R78) -/

/-- Bytes that the transfer of a write-type command still takes. -/
def writeLen (s : State) (c : Cmd) : Nat :=
  match c.kind with
  | .write _ n _ none => n * ((getNs s c.nsid).map (·.blk)).getD 4096
  | .append n l _ _ _ => appendBytes n l
  | _ => 0

/-- The last byte of a write-type command is in the Inkwell; where the host has returned fewer bytes than the device asked for, the
command ends (R64, R87). -/
def dataArrived (fn sqid cid : Nat) (data : Bytes) (s : State) : State :=
  match findCmd s fn sqid cid with
  | none => s
  | some c =>
    if !c.moved || !mayMove s fn then s
    else if data.length < writeLen s c then
      advanceAll (complete fn sqid cid .dataTransferError 0 0 (dropCmd fn sqid cid s))
    else match c.kind with
      | .write lba n dir none =>
        advanceAll (updCmd fn sqid cid (fun x => { x with kind := .write lba n dir (some (fixLen (writeLen s c) data)) }) s)
      | .append n l _ st _ =>
        if flowsOn s c.nsid || mirrorTarget s c.nsid then
          advanceAll (complete fn sqid cid .sealedRange 0 0 (dropCmd fn sqid cid s))
        else advanceAll (complete fn sqid cid .success (s.time.stroke % 2 ^ 32) (st.getD 0 % 2 ^ 32)
          (dropCmd fn sqid cid (applyAppend c n l data s)))
      | _ => s

/-- WRITE_DATA_ARRIVED (R14, R77, R78). -/
def execWriteDataArrived (fn sqid cid : Nat) (data : Bytes) (s : State) : Result := .next (dataArrived fn sqid cid data s)

/-- AER of a function logs an error of its transfers, or a completion timeout (R64). -/
def logAer (fn : Nat) (timeout : Bool) (s : State) : State :=
  emit (.aer fn timeout) (updFn fn (fun x => { x with aerErr := x.aerErr || !timeout, aerTimeout := x.aerTimeout || timeout }) s)

/-- A transfer of write data fails: the command completes and applies nothing, and AER logs it (R64). -/
def failTransfer (timeout : Bool) (fn sqid cid : Nat) (s : State) : State :=
  match findCmd s fn sqid cid with
  | none => s
  | some c =>
    let open_ := match c.kind with
      | .write _ _ _ none => c.moved
      | .append _ _ _ _ _ => c.moved
      | .compare _ _ _ _ => true
      | _ => false
    if open_ then advanceAll (complete fn sqid cid .dataTransferError 0 0 (dropCmd fn sqid cid (logAer fn timeout s))) else s

/-- DMA_READ_FAULT (R64): a poisoned TLP, UR or CA on a read of write data. -/
def execDmaReadFault (fn sqid cid : Nat) (s : State) : Result := .next (failTransfer false fn sqid cid s)

/-- COMPLETION_TIMEOUT (R64). -/
def execCompletionTimeout (fn sqid cid : Nat) (s : State) : Result := .next (failTransfer true fn sqid cid s)

/-- DMA_WRITE_REJECTED (R64): the host rejects a write of read data; the transfer stops and the command completes. -/
def execDmaWriteRejected (fn sqid cid : Nat) (s : State) : Result :=
  .next (match findCmd s fn sqid cid with
  | none => s
  | some c => match c.kind with
    | .read _ _ _ => if c.blocked then s
      else advanceAll (complete fn sqid cid .dataTransferError 0 0 (dropCmd fn sqid cid (logAer fn false s)))
    | _ => s)

/-- APPEND_HOLD_EXPIRY (R45): HOLD_STROKES boundaries since the append was first held. -/
def execAppendHoldExpiry (fn sqid cid : Nat) (s : State) : Result :=
  .next (match findCmd s fn sqid cid with
  | none => s
  | some c => match c.kind with
    | .append _ _ _ _ (some t) =>
      let n := getF s STK_OVR_CTL_HOLD_STROKES
      if n != 0 && c.held && t + n ≤ s.time.stroke then
        advanceAll (complete fn sqid cid .strokeOverrun 0 0 (dropCmd fn sqid cid s))
      else s
    | _ => s)

/-! ### Abandoning commands (R64, R80, R148) -/

/-- A TORN record (R137, R148): the bytes received are a free value, for no command says them. -/
def tornRec (c : Cmd) (declared : Nat) (s : State) : State :=
  let r := takeFree s
  addRec 0x1B (fixLen 32 (Config.packRecord 0x1B [c.nsid, c.fn, c.sqid, c.cid, r.1 % (declared + 1), declared])) r.2

/-- One command is abandoned: applied data is kept, incomplete data is discarded, a torn append is recorded. With a status
the commands that are not applied complete with it, and applied ones with success. -/
def abandonCmd (st : Option Status) (c : Cmd) (s : State) : State :=
  let s1 := dropCmd c.fn c.sqid c.cid s
  let fin (ok : Bool) (a : State) : State := match st with
    | some e => complete c.fn c.sqid c.cid (if ok then .success else e) 0 0 a
    | none => a
  match c.kind with
  | .write lba _ dir (some data) => fin true (markWrite c.nsid (applyWrite c.nsid lba data (writerOf c dir) s1))
  | .append n l _ _ _ => fin false (if c.moved then tornRec c (appendBytes n l) s1 else s1)
  | _ => fin false s1

/-- Every outstanding command of a function and queue that satisfy `p` is abandoned, in fetch order, and those that wait for a byte
budget or for the signature unit. -/
def abandonCmds (p : Nat → Nat → Bool) (st : Option Status) (s : State) : State :=
  let mine (c : LateCmd) : Bool := p c.who.1 c.who.2.1 && (match c with
    | .check _ _ _ => false
    | _ => true)
  let end_ (a : State) (c : LateCmd) : State := match st with
    | some e => complete c.who.1 c.who.2.1 c.who.2.2 e 0 0 a
    | none => a
  advanceAll ((s.cmds.filter (fun c => p c.fn c.sqid)).foldl (fun a c => abandonCmd st c a)
    (((lateCmds s).filter mine).foldl end_ (dropLate (fun w => p w.1 w.2.1) s)))

/-! ### Requests that wait for a boundary (R105, R106) -/

/-- Commands that have been accepted and complete at a boundary, on the queues that satisfy `p`. -/
def waitingReqs (p : Nat → Nat → Bool) (s : State) : List (Nat × Nat × Nat) :=
  (s.trans.map (fun t => (t.fn, t.sqid, t.cid)) ++ s.ing.binds.map (fun b => (b.fn, b.sqid, b.cid))
    ++ s.duct.starts.map (fun t => (t.fn, t.sqid, t.cid))).filter (fun w => w.2.1 < miQueue && p w.1 w.2.1)

/-- The requesting commands are discarded: what they have asked for still commits at its boundary, and posts nothing (R106). -/
def forgetReqs (p : Nat → Nat → Bool) (s : State) : State :=
  let gone (f q : Nat) : Bool := q < miQueue && p f q
  let mute (f q : Nat) : Nat := if gone f q then silentQueue else q
  { s with
    trans := s.trans.map (fun t => { t with sqid := mute t.fn t.sqid }),
    ing := { s.ing with binds := s.ing.binds.map (fun b => { b with sqid := mute b.fn b.sqid }) },
    duct := { s.duct with starts := s.duct.starts.map (fun t => { t with sqid := mute t.fn t.sqid }) },
    fw := { s.fw with commit := s.fw.commit.map (fun c => (c.1, mute c.1 c.2.1, c.2.2)) },
    oxv := { s.oxv with coord := s.oxv.coord.map (fun k => { k with sqid := mute k.fn k.sqid }) },
    mode := { s.mode with modeReqs := s.mode.modeReqs.filter (fun r => !gone 0 r.sqid) } }

end Sys2Proof.Machine
end

