-- ==== Sys2Proof/Machine/Bind.lean ====
section
/-!
DEFINITION. STREAM BIND and the ports (spec/06_stream_ingest.md R108 to R115, R125, R126, R128): binding, modifying and unbinding
flows, the summary ring, bringing a port up, the frames a port transmits, and log C5h.
-/

namespace Sys2Proof.Machine

/-! ### Binds (R113, R114) -/

/-- The data of a vendor command: NUMD + 1 dwords. -/
def numdData (numd : Nat) (data : Bytes) : Bytes := fixLen ((numd + 1) * 4) data

/-- The checks of a vendor I/O command on its entry and on what its NSID names, where it names something (R84, R87, R88,
R105). -/
def vendorGate (q : Sqe) (numd : Nat) (data : Bytes) (k : State → State) (s : State) : State :=
  let len := (numd + 1) * 4
  if badEntry q then done q .invalidField 0 0 s
  else
    let named := (attachedNs s q.fn q.nsid).isSome
    if named && deferredHit s q then done q .deferredMedia 0 0 (takeDeferred q s)
    else if converting s q.nsid then done q .namespaceNotReady 0 0 s
    else if named && nsPending s q.nsid then done q .statePending 0 0 s
    else orElse q ((xferError q.xfer false len).or (shortData len data)) k s

/-- Reasons of R113 as DW0 gives them. -/
def bindReason (r : Nat) : Nat := 0xFFFF + r * 65536

/-- The first row of R113 that fails, with its reason; 0 where the row names none. -/
def bindError : List (Bool × Status × Nat) → Option (Status × Nat)
  | [] => none
  | (bad, st, r) :: t => if bad then some (st, if r = 0 then 0 else bindReason r) else bindError t

/-- A bind request is accepted, or completes with its error. -/
def takeBind (q : Sqe) (op flow : Nat) (desc : Bytes) (e : Option (Status × Nat)) (s : State) : State :=
  match e with
  | some x => done q x.1 x.2 0 s
  | none => { s with ing := { s.ing with binds := s.ing.binds ++ [{
      op := op, fn := q.fn, sqid := q.sqid, cid := q.cid, nsid := q.nsid, flow := flow, desc := desc, at_ := now s }] } }

/-- The rows of R113 for a bind. -/
def bindRows (s : State) (q : Sqe) (numd : Nat) (d : Bytes) : List (Bool × Status × Nat) :=
  let rate := leAt d 52 4
  [(leAt d 2 2 != (numd + 1) * 4, .lengthMismatch, 0),
   (!descValid d, .invalidField, 1),
   (getF s (FN_FUNC_FLOW_QUOTA q.fn) ≤ flowCount s q.fn, .invalidField, 2),
   (4096 ≤ flowTotal s, .invalidField, 3),
   (!reservationFits s rate none, .invalidField, 4),
   (!portFits s (byteAt d 4 % 4) rate none, .invalidField, 5),
   (keyTaken s d (descSsrc d) none, .invalidField, 6),
   (bitAt (byteAt d 5) 5 && 16 ≤ parkCount s none, .invalidField, 10),
   (!sealedNs s q.fn q.nsid, .invalidNamespaceOrFormat, 0),
   (mirrorTarget s q.nsid, .sealedRange, 0)]

/-- FLOW_BIND. -/
def execFlowBind (q : Sqe) (numd : Nat) (desc : Bytes) (s : State) : Result :=
  ioFetch q (vendorGate q numd desc (fun a =>
    let d := numdData numd desc
    takeBind q 0 0 d (bindError (bindRows a q numd d)) a)) s

/-- A flow that the function has bound. -/
def ownFlow (s : State) (f flow : Nat) : Option Flow := (mget s.ing.flows flow).filter (fun x => x.fn == f)

/-- FLOW_UNBIND: the descriptor is its first 4 bytes. -/
def execFlowUnbind (q : Sqe) (numd flow : Nat) (desc : Bytes) (s : State) : Result :=
  ioFetch q (vendorGate q numd desc (fun a =>
    let d := numdData numd desc
    takeBind q 1 (flow % 65536) d (bindError [
      (leAt d 2 2 != (numd + 1) * 4, .lengthMismatch, 0),
      (byteAt d 0 != 1 || byteAt d 1 != 1 || numd != 0, .invalidField, 1),
      ((ownFlow a q.fn (flow % 65536)).isNone, .invalidField, 7),
      (!sealedNs a q.fn q.nsid, .invalidNamespaceOrFormat, 0)]) a)) s

/-- Bytes 4 to 51 of a descriptor without PRIO and PARK. -/
def fixedPart (d : Bytes) : Bytes :=
  slice d 4 1 ++ le 1 (setBits (byteAt d 5) 5 5 0) ++ slice d 6 8 ++ slice d 15 37

/-- The rows of R113 for a modify. -/
def modifyRows (s : State) (q : Sqe) (numd flow : Nat) (d : Bytes) : List (Bool × Status × Nat) :=
  let old := ownFlow s q.fn flow
  let rate := max (leAt d 52 4) ((old.map (flowRate s flow)).getD 0)
  [(leAt d 2 2 != (numd + 1) * 4, .lengthMismatch, 0),
   (!descValid d, .invalidField, 1),
   (!reservationFits s rate (some flow), .invalidField, 4),
   (!portFits s (byteAt d 4 % 4) rate (some flow), .invalidField, 5),
   (keyTaken s d (descSsrc d) (some flow), .invalidField, 6),
   (old.isNone, .invalidField, 7),
   (old.any (fun x => fixedPart x.desc != fixedPart d), .invalidField, 8),
   (bitAt (byteAt d 5) 5 && 16 ≤ parkCount s (some flow), .invalidField, 10),
   (!sealedNs s q.fn q.nsid, .invalidNamespaceOrFormat, 0)]

/-- FLOW_MODIFY. -/
def execFlowModify (q : Sqe) (numd flow : Nat) (desc : Bytes) (s : State) : Result :=
  ioFetch q (vendorGate q numd desc (fun a =>
    let d := numdData numd desc
    takeBind q 2 (flow % 65536) d (bindError (modifyRows a q numd (flow % 65536) d)) a)) s

/-- An unbound flow is gone: its entry, and the tail of a namespace it was the last flow of (R114, R119). -/
def removeFlow (fid : Nat) (x : Flow) (s : State) : State :=
  let s1 := sieveWrite 1 fid none { s with ing := { s.ing with flows := merase s.ing.flows fid } }
  showFlows (if flowsOn s1 x.nsid then s1 else flushTail x.nsid s1)

/-- One accepted request commits, with its BIND record and its completion (R114). -/
def commitBind (b : BindReq) (s : State) : State :=
  let fin (st : Status) (dw0 : Nat) (a : State) : State := complete b.fn b.sqid b.cid st dw0 0 a
  match b.op with
  | 0 =>
    let fid := mfree s.ing.flows 0
    let x : Flow := { fn := b.fn, nsid := b.nsid, stream := freeStream s, desc := b.desc, ssrc := descSsrc b.desc }
    let x1 : Flow := { x with left := strokeBytes s x }
    fin .success (fid + x.stream * 65536) (bindRec fid x1 0 (showFlows (writeFlowEntry fid x1 (setFlow fid x1 s))))
  | 1 => match mget s.ing.flows b.flow with
    | none => fin .invalidField (bindReason 7) s
    | some x => fin .success (b.flow + x.stream * 65536) (removeFlow b.flow x (bindRec b.flow x 1 s))
  | _ => match mget s.ing.flows b.flow with
    | none => fin .invalidField (bindReason 7) s
    | some x =>
      let y : Flow := { x with desc := b.desc, ssrc := if bitAt (byteAt b.desc 5) 2 then none else x.ssrc,
                               learned := if bitAt (byteAt b.desc 5) 2 then none else x.learned }
      fin .success (b.flow + x.stream * 65536) (bindRec b.flow y 2 (showFlows (writeFlowEntry b.flow y (setFlow b.flow y s))))

/-- Accepted at least 20 µs before the boundary that opened the present stroke (R105). -/
def dueAt (s : State) (at_ : Nat) : Bool := 20 * 65536 ≤ (s.time.stroke * 65536 - at_) * s.time.period

/-- BIND_COMMIT (R113, R114): the requests that are due commit in the order accepted. -/
def execBindCommit (s : State) : Result :=
  let run := s.ing.binds.filter (fun b => dueAt s b.at_)
  .next (run.foldl (fun a b => commitBind b a)
    { s with ing := { s.ing with binds := s.ing.binds.filter (fun b => !dueAt s b.at_) } })

/-! ### The summary ring (R126) -/

/-- SLOTS is a power of two from 64 to 65,536. -/
def slotsOk (n : Nat) : Bool := (List.range 11).any (fun i => n == 64 * 2 ^ i)

/-- Reason 0001h of a ring descriptor. -/
def ringBad (action : Nat) (d : Bytes) : Bool :=
  action != 0 || byteAt d 0 != 2 || byteAt d 1 != 1 || leAt d 2 2 != 32 || !slotsOk (leAt d 4 4) ||
    leAt d 8 8 % 4096 != 0 || leAt d 16 8 % 4 != 0 || 4 ≤ byteAt d 26 || !allZero (slice d 27 5)

/-- The checks that a ring bind and a ring removal share, before their own (R88, R90, R126). -/
def ringGate (q : Sqe) (numd flow : Nat) (desc : Bytes) (k : Bytes → State → State) (s : State) : Result :=
  ioFetch q (fun a =>
    if badEntry q || flow != 0 then done q .invalidField 0 0 a
    else if q.nsid != 0 then done q .invalidNamespaceOrFormat 0 0 a
    else orElse q ((xferError q.xfer false ((numd + 1) * 4)).or (shortData ((numd + 1) * 4) desc)) (fun b =>
      let d := numdData numd desc
      if leAt d 2 2 != (numd + 1) * 4 then done q .lengthMismatch 0 0 b else k d b) a) s

/-- RING_BIND: the ring takes effect as the command completes. -/
def execRingBind (q : Sqe) (numd action flow : Nat) (desc : Bytes) (s : State) : Result :=
  ringGate q numd flow desc (fun d a =>
    if ringBad action d then done q .invalidField (bindReason 1) 0 a
    else if vectors a q.fn ≤ leAt d 24 2 then done q .invalidInterruptVector 0 0 a
    else
      let r : Ring := { slots := leAt d 4 4, addr := leAt d 8 8, cons := leAt d 16 8, vector := leAt d 24 2,
                        items := byteAt d 26 }
      done q .success 0 0 (updFn q.fn (fun x => { x with ring := some r }) a)) s

/-- RING_REMOVE. -/
def execRingRemove (q : Sqe) (numd flow : Nat) (desc : Bytes) (s : State) : Result :=
  ringGate q numd flow desc (fun d a =>
    if byteAt d 0 != 2 || byteAt d 1 != 1 || numd != 0 then done q .invalidField (bindReason 1) 0 a
    else done q .success 0 0 (updFn q.fn (fun x => { x with ring := none }) a)) s

/-! ### Ports (R108, R109, R125) -/

/-- A LINK record of the stroke: KIND 7 down, 8 up (R122, R123). -/
def linkRec (port kind : Nat) (s : State) : State :=
  { s with ing := { s.ing with links := s.ing.links ++ [(port, kind, now s)] } }

/-- A port begins bring-up under its MODE and FEC. A start by a mode change takes the written values as an enable does: DESIGN CHOICE
(notes/assumptions/141). -/
def startPort (p : Nat) (quiet : Bool) (s : State) : State :=
  updPort p (fun x => { x with running := true, quiet := quiet, mode := getF s (ING_PORT_MODE p), fec := getF s (ING_PORT_FEC p) })
    s

/-- The link of a port falls. -/
def dropLink (p : Nat) (s : State) : State :=
  incF (ING_PORT_DOWN_COUNT p) 1 (setF (ING_PORT_LINK p) 0 (setF (ING_PORT_LOCK p) 0 (setF (ING_PORT_AN_DONE p) 0 s)))

/-- A port stops; its LINK falls, with a record unless a mode change stops it. DOWN_COUNT does not count that fall either: DESIGN CHOICE
(notes/assumptions/141). -/
def stopPort (p : Nat) (quiet : Bool) (s : State) : State :=
  let s1 := updPort p (fun x => { x with running := false }) s
  if !flagF s (ING_PORT_LINK p) then s1
  else if quiet then setF (ING_PORT_LINK p) 0 (setF (ING_PORT_LOCK p) 0 (setF (ING_PORT_AN_DONE p) 0 s1))
  else linkRec p 7 (dropLink p s1)

/-- The port runs in the present mode (R125, R414). -/
def portWanted (s : State) (p : Nat) : Bool :=
  bitAt (getF s ING_CTL_PORT_EN) p && (match s.mode.cur with
    | .run | .lean | .readOnly | .activate => true
    | .park => p == getF s ING_CTL_PARK_PORT
    | _ => false)

/-- A mode change stops and starts ports. -/
def setPorts (s : State) : State :=
  [0, 1, 2, 3].foldl (fun a p =>
    let on := portWanted a p
    let runs := (getPort a p).running
    if on && !runs then startPort p true a
    else if !on && runs then stopPort p true a
    else a) s

/-- A change of PORT_EN by the host (R109). -/
def applyPortEn (s : State) : State :=
  [0, 1, 2, 3].foldl (fun a p =>
    let on := portWanted a p
    let runs := (getPort a p).running
    if on && !runs then startPort p false a
    else if !on && runs then stopPort p false a
    else a) s

/-- PORT_ENABLE (R109): a PORT_EN bit goes from 0 to 1. -/
def execPortEnable (port : Nat) (s : State) : Result :=
  let p := port % 4
  let v := getF s ING_CTL_PORT_EN
  .next (if bitAt v p then s else applyPortEn (setF ING_CTL_PORT_EN (v + 2 ^ p) s))

/-- PORT_LINK_UP (R109, R122). -/
def execPortLinkUp (frac port : Nat) (up : PortUp) (s : State) : Result :=
  let s := atFrac frac s
  let p := port % 4
  let x := getPort s p
  .next (if !x.running || flagF s (ING_PORT_LINK p) then s
    else
      let s1 := setF (ING_PORT_LINK p) 1 (setF (ING_PORT_LOCK p) 1 (setF (ING_PORT_RX_INV p) (bit up.rxInv)
        (setF (ING_PORT_AN_DONE p) (bit (2 ≤ x.mode)) (setF (ING_PORT_REMOTE_FAULT p) 0
          (updPort p (fun y => { y with quiet := false, sgmii := if x.mode = 3 then some up.mbps else y.sgmii }) s)))))
      if x.quiet then s1 else linkRec p 8 s1)

/-- PORT_LINK_LOST (R109, R122): the port goes on to bring its link up again. -/
def execPortLinkLost (frac port : Nat) (s : State) : Result :=
  let s := atFrac frac s
  let p := port % 4
  .next (if flagF s (ING_PORT_LINK p) then linkRec p 7 (dropLink p s) else s)

/-- TX_POLARITY_TOGGLE (R109, step 5): every 100 ms without link, under TX_INV_AUTO, while the partner reports remote fault or
auto-negotiation does not complete. Step 2 has ended: its lock and the polarity it found are shown. -/
def execTxPolarityToggle (port : Nat) (look : PortTry) (s : State) : Result :=
  let p := port % 4
  let x := getPort s p
  .next (if !x.running || flagF s (ING_PORT_LINK p) then s
    else
      let s0 := setF (ING_PORT_LOCK p) 1 (setF (ING_PORT_RX_INV p) (bit look.rxInv) s)
      let s1 := if x.mode ≤ 1 then setF (ING_PORT_REMOTE_FAULT p) (bit look.remoteFault) s0 else s0
      if flagF s (ING_PORT_TX_INV_AUTO p) && (2 ≤ x.mode || look.remoteFault) then
        setF (ING_PORT_TX_INV p) (1 - getF s (ING_PORT_TX_INV p)) s1
      else s1)

/-! ### What a port transmits (R110) -/

def portMac (s : State) (p : Nat) : Nat := getF s (ING_PORT_MAC_HI p) * 2 ^ 32 + getF s (ING_PORT_MAC_LO p)

def portIpv6 (s : State) (p : Nat) : Nat :=
  getF s (ING_PORT_IPV6_0 p) * 2 ^ 96 + getF s (ING_PORT_IPV6_1 p) * 2 ^ 64 + getF s (ING_PORT_IPV6_2 p) * 2 ^ 32
    + getF s (ING_PORT_IPV6_3 p)

/-- An Ethernet frame, padded to 60 bytes, with its FCS. -/
def etherFrame (dst src type : Nat) (body : Bytes) : Bytes :=
  let b := be 6 dst ++ be 6 src ++ be 2 type ++ body
  let f := if b.length < 60 then fixLen 60 b else b
  f ++ le 4 (crc32 f)

/-- ARP_REQUEST (R110). -/
def execArpRequest (port senderMac senderIp targetIp : Nat) (s : State) : Result :=
  let p := port % 4
  let ip := getF s (ING_PORT_IPV4 p)
  .next (if flagF s (ING_PORT_LINK p) && flagF s (ING_PORT_ARP_EN p) && ip != 0 && targetIp == ip then
      emit (.frame p (etherFrame senderMac (portMac s p) 0x0806 (be 2 1 ++ be 2 0x0800 ++ be 1 6 ++ be 1 4 ++ be 2 2
        ++ be 6 (portMac s p) ++ be 4 ip ++ be 6 senderMac ++ be 4 senderIp))) s
    else s)

/-- The body of a neighbour advertisement with its checksum. -/
def neighbourAdv (mac ip dst : Nat) (solicited : Bool) : Bytes :=
  let body (ck : Nat) : Bytes := be 1 136 ++ be 1 0 ++ be 2 ck ++ be 4 (if solicited then 0x60000000 else 0x20000000)
    ++ be 16 ip ++ be 1 2 ++ be 1 1 ++ be 6 mac
  body (65535 - fold16 (pseudoSum true ip dst 58 32 + sum16 (body 0)))

/-- NEIGHBOUR_SOLICITATION (R110): to an unspecified sender the answer goes to all nodes. -/
def execNeighbourSolicitation (port senderMac senderIp targetIp : Nat) (s : State) : Result :=
  let p := port % 4
  let ip := portIpv6 s p
  let dst := if senderIp = 0 then 0xFF020000000000000000000000000001 else senderIp
  let mac := if senderIp = 0 then 0x333300000001 else senderMac
  .next (if flagF s (ING_PORT_LINK p) && flagF s (ING_PORT_NDP_EN p) && ip != 0 && targetIp == ip then
      emit (.frame p (etherFrame mac (portMac s p) 0x86DD (be 4 0x60000000 ++ be 2 32 ++ be 1 58 ++ be 1 255 ++ be 16 ip
        ++ be 16 dst ++ neighbourAdv (portMac s p) ip dst (senderIp != 0)))) s
    else s)

/-! ### Log C5h (R128) -/

/-- The state byte of an entry. -/
def flowState (s : State) (x : Flow) : Nat :=
  if s.mode.cur == .park && !x.parks then 4 else if !x.seen then 1 else if x.silent then 3 else 2

def flowEntry (s : State) (fid : Nat) (x : Flow) : Bytes :=
  le 2 fid ++ le 2 x.stream ++ le 1 (flowState s x) ++ le 1 x.port ++ le 2 x.fn ++ le 4 x.nsid ++ be 4 (x.ssrc.getD 0)
    ++ le 8 x.bytes ++ le 4 x.stored ++ le 4 x.lost ++ le 4 x.late ++ le 4 x.dup ++ le 4 x.rateN ++ le 4 x.overN
    ++ le 4 x.bufN ++ le 4 x.lenN ++ le 4 x.keyN ++ le 4 x.lastStroke

/-- Log page C5h as a function reads it. The entry of a flow ID that is not bound reads 0 throughout, its flow ID field too: DESIGN CHOICE
(notes/assumptions/141). -/
def flowLog (s : State) (f : Nat) : Bytes :=
  let port (p : Nat) : Bytes :=
    let x := getPort s p
    le 4 x.frames ++ le 4 x.bad ++ le 4 x.unmatched
  let ports := if f = 0 then port 0 ++ port 1 ++ port 2 ++ port 3 else zeros 48
  let own := s.ing.flows.filter (fun e => f == 0 || e.2.fn == f)
  le 8 (now s) ++ le 4 own.length ++ zeros 4 ++ ports
    ++ ((List.range 4096).map (fun i => match mget own i with
      | some x => flowEntry s i x
      | none => zeros 64)).flatten

end Sys2Proof.Machine
end

