-- ==== Sys2Proof/Machine/Evidence.lean ====
section
/-!
DEFINITION. The evidence commands (spec/07_sealing_and_evidence.md R149 to R155, spec/14 R323): VERIFY RANGE, PROOF READ, HOLD,
RELEASE and EXPORT with its resume states.
-/

namespace Sys2Proof.Machine

/-! ### VERIFY RANGE (R92, R154) -/

/-- VERIFY_RANGE. -/
def execVerifyRange (q : Sqe) (slba nlb : Nat) (chain : Bool) (s : State) : Result :=
  let n := nlb % 2 ^ 32 + 1
  ioFetch q (onNs q true (fun x => orElse q (lengthError q x slba n false) (enlist q (.verifyRange slba n chain 0) true))) s

/-! ### PROOF READ (R153) -/

/-- A function's transfer to the host must wait: for its read budget, or for the host side (R42, R60). -/
def readWaits (s : State) (f : Nat) : Bool := !affords s f .rdBytes || !mayWriteHost s f

/-- What the device answers, for an NSID that has passed its checks. -/
def answerProof (q : Sqe) (stroke kind numd : Nat) (s : State) : State :=
  match proofOut s q.nsid (stroke % 2 ^ 48) kind with
  | .error _ => done q .invalidField 0 0 s
  | .ok bs =>
    if (numd + 1) * 4 < bs.length then done q .invalidField bs.length 0 s
    else if readWaits s q.fn then pushLate (.proof q stroke kind numd) s
    else done q .success bs.length 0 (hostWrite q.fn q.cid bs (charge q.fn .rdBytes bs.length s))

/-- PROOF_READ: fetched, it waits for the read budget to transfer its answer (R42, R92). -/
def execProofRead (q : Sqe) (stroke kind numd : Nat) (s : State) : Result :=
  let go := orElse q (if 4 ≤ kind then some .invalidField else xferError q.xfer false ((numd + 1) * 4))
    (answerProof q stroke kind numd)
  if q.nsid = 0 then
    ioFetch q (fun a =>
      if badEntry q then done q .invalidField 0 0 a
      else if q.fn != 0 then done q .invalidNamespaceOrFormat 0 0 a
      else go a) s
  else ioFetch q (onNs q true (fun _ => go)) s

/-! ### HOLD (R149) -/

/-- Both bounds all ones. -/
def wholeNs (first last : Nat) : Bool := first == 2 ^ 48 - 1 && last == 2 ^ 48 - 1

/-- First and last stroke that a hold covers. -/
def holdBounds (first last : Nat) : Nat × Nat := if wholeNs first last then (0, 2 ^ 48 - 1) else (first, last)

/-- A transition is accepted for the next boundary that is due (R105). -/
def addTrans (unit : UnitId) (kind : TransKind) (q : Sqe) (s : State) : State :=
  { s with trans := s.trans ++ [{ unit := unit, kind := kind, at_ := now s, fn := q.fn, sqid := q.sqid, cid := q.cid }] }

/-- HOLD_PLACE: at most 16 holds on a namespace. -/
def execHoldPlace (q : Sqe) (first last tag : Nat) (s : State) : Result :=
  ioFetch q (onNs q true (fun x a =>
    if 16 ≤ x.holds.length then done q .invalidField 0 0 a
    else addTrans (.ns q.nsid) (.hold (mfree x.holds 0) (first % 2 ^ 48) (last % 2 ^ 48) (tag % 2 ^ 32)) q a)) s

/-- HOLD_QUERY. -/
def execHoldQuery (q : Sqe) (first last : Nat) (s : State) : Result :=
  let b := holdBounds (first % 2 ^ 48) (last % 2 ^ 48)
  ioFetch q (onNs q true (fun x =>
    done q .success (((x.holds.find? (fun h => h.2.first ≤ b.2 && b.1 ≤ h.2.last)).map (·.1)).getD 0xFFFF) 0)) s

/-- PNC_HOLDS shows the holds of the device. -/
def showHolds (s : State) : State := setF PNC_HOLDS_ACTIVE (s.nss.foldl (fun a e => a + e.2.holds.length) 0) s

/-- A hold commits, with its record (R137, R149). -/
def commitHold (nsid index first last tag : Nat) (s : State) : State :=
  let b := holdBounds first last
  addRec 0x17 (fixLen 32 (Config.packRecord 0x17 [nsid, index, first, last, tag]))
    (showHolds (updNs nsid (fun x => { x with holds := mset x.holds index { first := b.1, last := b.2, tag := tag } }) s))

/-! ### RELEASE (R151, R152) -/

/-- Reserved bytes of a token that are not 0. -/
def tokenReserved (t : Bytes) : Bool :=
  leAt t 6 2 != 0 || leAt t 30 2 != 0 || leAt t 38 2 != 0 || leAt t 56 8 != 0 || 512 ≤ leAt t 4 2

/-- The token does not name this device, its key, the namespace and its authority, is too old, or its signature fails. -/
def tokenRefused (s : State) (nsid : Nat) (x : Ns) (t : Bytes) : Bool :=
  x.rakAlg == 0 || byteAt t 21 != x.rakAlg || leAt t 4 2 != deviceId s ||
    slice t 8 8 != keyId s.chain.hashSel s.chain.alg s.chain.keyEpoch || leAt t 16 4 != nsid || leAt t 40 8 ≤ x.lastNonce ||
    leAt t 48 8 < now s || !Config.sigVerifies x.rakAlg x.rak (slice t 0 64) (t.drop 64)

/-- A hold other than the named one covers a stroke of the token's range. -/
def otherHold (x : Ns) (t : Bytes) : Bool :=
  x.holds.any (fun h => h.1 != leAt t 22 2 && h.2.first ≤ leAt t 32 6 && leAt t 24 6 ≤ h.2.last)

/-- The rows of R151 that look at no key: the length and the form of the token. -/
def tokenForm (numd : Nat) (t : Bytes) : Option Status :=
  firstError [
    (leAt t 2 2 != (numd + 1) * 4 || leAt t 2 2 != (if byteAt t 21 = 2 then 160 else 128), .lengthMismatch),
    (byteAt t 0 != 0x10 || byteAt t 1 != 1 || byteAt t 20 == 0 || 4 ≤ byteAt t 20 || tokenReserved t, .invalidField)]

/-- The rows of R151 before DRYRUN, in order. -/
def tokenError (s : State) (nsid numd : Nat) (x : Ns) (t : Bytes) : Option Status :=
  (tokenForm numd t).or (firstError [
    (tokenRefused s nsid x t, .authFail),
    (byteAt t 20 == 2 && otherHold x t, .holdActive)])

/-- The check of a token: one that is refused is counted (R157); one that passes goes on. -/
def checkToken (q : Sqe) (numd : Nat) (token : Bytes) (dryrun : Bool) (s : State) : State :=
  let t := numdData numd token
  match getNs s q.nsid with
  | none => done q .invalidNamespaceOrFormat 0 0 s
  | some x =>
    match tokenError s q.nsid numd x t with
    | some .authFail => done q .authFail 0 0 (incF SGN_VERIFY_FAIL_COUNT 1 s)
    | some st => done q st 0 0 s
    | none =>
      if dryrun then done q .success 0 0 s
      else addTrans (.ns q.nsid)
        (.release (byteAt t 20) (leAt t 22 2) (leAt t 24 6) (leAt t 32 6) (leAt t 40 8) (slice t 0 64)) q s

/-- A token whose form is right takes the signature unit, or waits for it (R309). -/
def startToken (q : Sqe) (numd : Nat) (token : Bytes) (dryrun : Bool) (s : State) : State :=
  if (tokenForm numd (numdData numd token)).isSome then checkToken q numd token dryrun s
  else if !signIdle s then pushSign (.cmd (.token q numd token dryrun)) s
  else checkToken q numd token dryrun (spendSign (qosOf s q.fn).cls s)

def release (q : Sqe) (numd : Nat) (token : Bytes) (dryrun : Bool) (s : State) : Result :=
  ioFetch q (onNs q true (fun _ => orElse q ((xferError q.xfer false ((numd + 1) * 4)).or (shortData ((numd + 1) * 4) token))
    (startToken q numd token dryrun))) s

/-- RELEASE. -/
def execReleaseCmd (q : Sqe) (numd : Nat) (token : Bytes) (s : State) : Result := release q numd token false s

/-- RELEASE_DRYRUN: the token is verified only. -/
def execReleaseDryrun (q : Sqe) (numd : Nat) (token : Bytes) (s : State) : Result := release q numd token true s

/-- A release commits: the hold is lifted and the strokes are freed at one boundary, with the RELEASE record. -/
def commitRelease (nsid action hold first last nonce : Nat) (token : Bytes) (s : State) : State :=
  let s1 := updNs nsid (fun x => { x with
    lastNonce := nonce, holds := if action = 2 then x.holds else merase x.holds hold }) s
  let s2 := if action = 1 then s1 else freeStrokes nsid (fun n => first ≤ n && n ≤ last) s1
  addRec 0x18 token (showHolds s2)

/-! ### EXPORT (R155, R323) -/

/-- A section: its header and its body. -/
def section_ (type flags stroke : Nat) (body : Bytes) : Bytes :=
  le 1 type ++ le 1 flags ++ zeros 2 ++ le 4 body.length ++ le 8 stroke ++ body

/-- The namespace bytes of a stroke: its runs that are not freed, in order. -/
def strokeData (s : State) (x : Ns) (n : Nat) : Bytes :=
  ((strokeRuns x n).filter (fun r => !r.freed)).foldl (fun a r => a ++ nsBytes s x r.pos r.size) []

/-- Streams that have held data of the namespace, its own among them. -/
def nsStreams (x : Ns) : List Nat := x.runs.foldl (fun a r => insertNat r.stream a) [x.stream]

/-- A stream-0 record names the namespace or one of its streams. Records whose layout the spec does not give are asked of
`Config.recordNames`. -/
def recNames (nsid : Nat) (streams : List Nat) (r : InkRec) : Bool :=
  let p := r.bytes.drop 64
  match r.type with
  | 0x11 => streams.contains (leAt p 4 2)
  | 0x12 => leAt p 4 4 == nsid || streams.contains (leAt p 2 2)
  | 0x15 => leAt p 8 4 == nsid
  | 0x18 => leAt p 16 4 == nsid
  | 0x17 | 0x19 | 0x1B | 0x1C => Config.recordNames r.type nsid p
  | _ => false

/-- Sealed strokes of a range. -/
def rootsIn (s : State) (first last : Nat) : List StrokeRoot := s.chain.roots.filter (fun r => first ≤ r.n && r.n ≤ last)

def proofBytes (s : State) (nsid n kind : Nat) : Bytes :=
  match proofOut s nsid n kind with
  | .ok b => b
  | .error _ => []

/-- The sections of one stroke. -/
def strokeSections (s : State) (nsid : Nat) (x : Ns) (comp level : Nat) (proofs : Bool) (n : Nat) : Bytes :=
  let d := strokeData s x n
  let body := if comp = 0 then d else wholeStream comp level 16 d
  section_ 2 (bit (comp != 0)) n body ++ (if proofs then section_ 3 0 n (proofBytes s nsid n 0) else [])

/-- Every section before the tail. -/
def bundleHead (s : State) (nsid : Nat) (x : Ns) (first last comp level : Nat) (proofs : Bool) : Bytes :=
  let roots := rootsIn s first last
  let head := section_ 1 0 0 (Config.packHead [nsid, x.stream, first, last, comp, level, deviceId s,
    fromLe (keyId s.chain.hashSel s.chain.alg s.chain.keyEpoch), s.chain.hashSel])
  let sys := (s.chain.roots.flatMap (·.recs)).filter (recNames nsid (nsStreams x))
  let fls := s.chain.flourishes.filter (fun f => first ≤ f.1.last && f.1.first ≤ last)
  let extra := if proofs then
      section_ 6 0 0 (sys.map (·.bytes)).flatten ++ (fls.map (fun f => section_ 4 0 0 f.2)).flatten
        ++ section_ 5 0 0 (proofBytes s nsid last 3)
    else []
  head ++ (roots.map (fun r => strokeSections s nsid x comp level proofs r.n)).flatten ++ extra

/-- The tail: the bundle's bytes, H over every earlier byte, and the device's signature over that digest. -/
def bundleTail (s : State) (sign : Bool) (b : Bytes) : Bytes :=
  let d := chainH s b
  let sig := if sign then signWith s.chain.alg s.chain.keyEpoch d else []
  section_ 15 0 0 (le 8 (b.length + 16 + 8 + d.length + sig.length) ++ d ++ sig)

/-- A cookie that no resume state holds, and is not 0: which one is a free value. -/
def freshCookie (used : List Nat) (v : Nat) : Nat :=
  ((List.range 65).map (fun i => (v + i) % (2 ^ 32 - 1) + 1)).find? (fun k => !used.contains k) |>.getD 1

/-- The state that goes when all 64 are held: the least recently used of the function, else of any. -/
def stalest (es : List ExportSt) : Option ExportSt :=
  es.foldl (fun a e => match a with
    | none => some e
    | some b => if e.used < b.used then some e else a) none

def dropExport (f : Nat) (es : List ExportSt) : List ExportSt :=
  if es.length < 64 then es
  else match (stalest (es.filter (fun e => e.fn == f))).or (stalest es) with
    | some v => es.filter (fun e => e.cookie != v.cookie)
    | none => es

/-- Bytes go to the host as far as the buffers reach; the rest waits under a cookie. -/
def writeBundle (q : Sqe) (numd : Nat) (b : Bytes) (s : State) : State :=
  let room := (numd + 1) * 4
  let out := b.take room
  let s1 := hostWrite q.fn q.cid out (charge q.fn .rdBytes out.length s)
  if b.length ≤ room then done q .success out.length 0 s1
  else
    let r := takeFree s1
    let es := dropExport q.fn s1.exports
    let k := freshCookie (es.map (·.cookie)) r.1
    done q .outputExhausted k 0 { r.2 with exports := es ++ [{
      cookie := k, fn := q.fn, nsid := q.nsid, used := s.time.stroke, rest := b.drop room }] }

/-- COMP and LEVEL as R323 allows them. -/
def compOk (comp level : Nat) : Bool := if comp = 2 then 1 ≤ level && level ≤ 9 else comp < 2 && level == 0

/-- The last stroke that a flourish covers. -/
def coveredTo (s : State) : Option Nat := s.chain.flourishes.getLast?.map (fun f => f.1.last)

/-- A new bundle, or the next part of one. -/
def exportPart (q : Sqe) (x : Ns) (first last comp level : Nat) (proofs sign : Bool) (numd resume : Nat) (s : State) : State :=
  if resume != 0 then
    match s.exports.find? (fun e => e.cookie == resume && e.fn == q.fn && e.nsid == q.nsid) with
    | none => done q .invalidField 0 0 s
    | some e => writeBundle q numd e.rest { s with exports := s.exports.filter (fun y => y.cookie != resume) }
  else if last < first || (proofs && !(coveredTo s).any (fun n => last ≤ n)) then done q .invalidField 0 0 s
  else
    let b := bundleHead s q.nsid x first last comp level proofs
    writeBundle q numd (b ++ bundleTail s sign b) (if sign then incF SGN_COUNT_SIGNED 1 s else s)

/-- A fetched EXPORT goes on: it waits for the read budget, and for the signature unit where a new bundle is to be signed (R42, R309);
`mine` says that the unit has taken it up. -/
def startExport (q : Sqe) (first last comp level : Nat) (proofs sign : Bool) (numd resume : Nat) (mine : Bool) (s : State) : State :=
  let c : LateCmd := .bundle q first last comp level proofs sign numd resume
  let cls := (qosOf s q.fn).cls
  match getNs s q.nsid with
  | none => done q .invalidNamespaceOrFormat 0 0 s
  | some x =>
    if readWaits s q.fn then pushLate c s
    else if sign && resume == 0 && !mine && !signFree s cls then pushSign (.cmd c) s
    else exportPart q x first last comp level proofs sign numd resume (if sign && resume == 0 then spendSign cls s else s)

/-- EXPORT (R155, R323). -/
def execExportBundle (q : Sqe) (first last comp level : Nat) (proofs sign : Bool) (numd resume : Nat) (s : State) : Result :=
  ioFetch q (onNs q true (fun _ =>
    orElse q (if !compOk comp level then some .invalidField else xferError q.xfer false ((numd + 1) * 4))
      (startExport q (first % 2 ^ 48) (last % 2 ^ 48) comp level proofs sign numd (resume % 2 ^ 32) false))) s

/-- EXPORT_COOKIE_LAPSE: cookies that have not been used for 1,024 strokes lapse. -/
def execExportCookieLapse (s : State) : Result :=
  .next { s with exports := s.exports.filter (fun e => s.time.stroke < e.used + 1024) }

/-- The cookies of a function lapse at its reset. -/
def dropCookies (f : Nat) (s : State) : State := { s with exports := s.exports.filter (fun e => e.fn != f) }

end Sys2Proof.Machine
end

