-- ==== Sys2Proof/Machine/Pcie.lean ====
section
/-!
DEFINITION. What a host reads of a function over PCIe (spec/03_pcie_functions_interrupts.md R50, R52, R53, R57, R65, spec/04 R68): its
configuration space, the controller registers and doorbells of BAR0, and the MSI-X table and pending bits of BAR4. The offsets and
layouts of controller registers and of MSI-X entries are those of the NVMe and PCIe base specifications (notes/assumptions/136).
-/

namespace Sys2Proof.Machine

/-- The MSI-X Table Size of every function (R57). -/
def msixTableSize : Nat := 1024

/-- CAP.MPSMAX (R68). -/
def mpsMax : Nat := 4

/-- The largest queue that CAP.MQES allows (R68). -/
def mqes : Nat := 4095

/-- A base address register: its number, size in bytes, whether it is prefetchable. All are 64 bits wide (R53). -/
structure BarView where
  bar : Nat
  size : Nat
  prefetchable : Bool := false
  deriving DecidableEq, Repr

/-- What configuration space of a function shows (R50, R52, R53, R57). -/
structure ConfigView where
  vendor : Nat
  device : Nat
  subVendor : Nat
  subsystem : Nat
  revision : Nat
  classCode : Nat
  bars : List BarView
  /-- Sizes in bytes: the largest payload supported, the payload and the read request in force. -/
  maxPayload : Nat
  payload : Nat
  readReq : Nat
  tagBits : Nat
  relaxed : Bool
  idOrdering : Bool
  ari : Bool
  /-- ASPM: L1 with its two substates, L0p, and L0s, which is not supported. -/
  aspmL1 : Bool
  l0p : Bool
  l0s : Bool
  pmeD3cold : Bool
  aer : Bool
  ecrc : Bool
  aerErr : Bool
  aerTimeout : Bool
  /-- Code of the completion timeout; 0 is the default of 50 ms. -/
  timeout : Nat
  ats : Bool
  pri : Bool
  pasid : Bool
  rom : Bool
  msixTable : Nat
  busMaster : Bool
  d3hot : Bool
  /-- SR-IOV: TotalVFs, InitialVFs, NumVFs, First VF Offset, VF Stride; on the PF. -/
  sriov : Option (Nat × Nat × Nat × Nat × Nat)
  deriving DecidableEq, Repr

/-- BARs of a function (R53): a VF has no BAR2. -/
def barsOf (f : Nat) : List BarView :=
  [{ bar := 0, size := 16384 }] ++ (if f = 0 then [{ bar := 2, size := 262144 }] else []) ++ [{ bar := 4, size := 32768 }]

/-- Configuration requests are answered while the link is up (R65), for the PF and the VFs within NumVFs. -/
def configView (s : State) (f : Nat) : Option ConfigView :=
  let x := getFn s f
  if !linkUp s || s.mode.perst || s.numVfs < f then none
  else some {
    vendor := Config.vendorIds % 65536, device := if f = 0 then 0x7640 else 0x7641,
    subVendor := Config.vendorIds / 65536 % 65536, subsystem := Config.subsystemId % 65536, revision := Config.revisionId % 256,
    classCode := 0x010802, bars := barsOf f, maxPayload := 512, payload := 128 * 2 ^ x.dev.payload, readReq := 128 * 2 ^ x.dev.readReq,
    tagBits := if getF s FN_LINK_STATUS_SPEED = 6 then 14 else 10, relaxed := x.dev.relaxed, idOrdering := true, ari := true,
    aspmL1 := true, l0p := true, l0s := false, pmeD3cold := true, aer := true, ecrc := true, aerErr := x.aerErr,
    aerTimeout := x.aerTimeout, timeout := x.dev.timeout, ats := false, pri := false, pasid := false, rom := false,
    msixTable := msixTableSize, busMaster := x.bme, d3hot := x.d3,
    sriov := if f = 0 then some (127, 127, s.numVfs, 1, 1) else none }

/-- Non-posted requests that may be outstanding over all functions (R50). -/
def outstandingMax : Nat := 1024

/-! ### BAR0 (R53, R68) -/

/-- CAP: MQES, CQR, AMS, TO, CSS and MPSMAX; the other fields, DSTRD and MPSMIN among them, are 0. -/
def capReg : Nat :=
  mqes + 2 ^ 16 + 2 ^ 17 + 40 * 2 ^ 24 + 2 ^ 37 + mpsMax * 2 ^ 52

/-- CC as it was written. -/
def ccReg (x : Fn) : Nat := bit x.en + x.mps * 2 ^ 7 + x.ams * 2 ^ 11

/-- CSTS: RDY, CFS and PP. -/
def cstsReg (x : Fn) : Nat := bit x.rdy + 2 * bit x.cfs + 32 * bit x.pp

/-- The admin queue pair: AQA, ASQ and ACQ. -/
def adminSq (x : Fn) : Sq := (mget x.sqs 0).getD { size := 1, base := 0, cqid := 0, prio := 0 }

def adminCq (x : Fn) : Cq := (mget x.cqs 0).getD { size := 1, base := 0, vector := 0, ien := true }

/-- A dword of the controller registers of a function. CMBLOC, CMBSZ and PMRCAP are 0, as is every register that the table does not
list. -/
def ctrlReg (s : State) (f off : Nat) : Nat :=
  let x := getFn s f
  match off with
  | 0x00 => capReg % 2 ^ 32
  | 0x04 => capReg / 2 ^ 32
  | 0x08 => 0x00020000
  | 0x14 => ccReg x
  | 0x1C => cstsReg x
  | 0x24 => (adminSq x).size - 1 + ((adminCq x).size - 1) * 65536
  | 0x28 => (adminSq x).base % 2 ^ 32
  | 0x2C => (adminSq x).base / 2 ^ 32 % 2 ^ 32
  | 0x30 => (adminCq x).base % 2 ^ 32
  | 0x34 => (adminCq x).base / 2 ^ 32 % 2 ^ 32
  | _ => 0

/-- The doorbell at an offset of BAR0: whether it is a completion queue's, and the queue (R53: DSTRD 0, from 1000h to 3007h). -/
def doorbellAt (off : Nat) : Option (Bool × Nat) :=
  if 0x1000 ≤ off && off < 0x3008 && off % 4 == 0 then some (off % 8 == 4, (off - 0x1000) / 8) else none

/-! ### BAR4 (R53, R57) -/

/-- A dword of BAR4: the MSI-X table, sixteen bytes to an entry, and the pending bits from 4000h. -/
def msixReg (s : State) (f off : Nat) : Nat :=
  let x := getFn s f
  if off < 16 * msixTableSize then
    let w := getVec x (off / 16)
    match off % 16 / 4 with
    | 0 => w.addr % 2 ^ 32
    | 1 => w.addr / 2 ^ 32 % 2 ^ 32
    | 2 => w.data % 2 ^ 32
    | _ => bit w.masked
  else if 0x4000 ≤ off && off < 0x4000 + msixTableSize / 8 then
    (List.range 32).foldl (fun a i => a + bit (getVec x ((off - 0x4000) / 4 * 32 + i)).pend * 2 ^ i) 0
  else 0

end Sys2Proof.Machine
end

