-- ==== Sys2Proof/Machine/Ctrl.lean ====
section
/-!
DEFINITION. The PCIe side and the controllers of the functions (spec/03_pcie_functions_interrupts.md R48 to R66,
spec/04 R74, R75, R80, spec/05 R101, R102): the link, hot reset and PERST_N, attention codes and RDYBSY_N, MSI-X, D-states,
CC.EN, function-level resets, and the completion queue doorbell.
-/

namespace Sys2Proof.Machine

/-! ### RDYBSY_N (R61) -/

/-- The pin follows the mode: low in BOOT, SEAL and ACTIVATE and under FORCE_LOW, high impedance in HALT. -/
def showBusy (s : State) : State :=
  let low := s.mode.cur != .halt && (s.mode.cur == .boot || s.mode.cur == .seal || s.mode.cur == .activate ||
    flagF s FN_RDYBSY_FORCE_LOW)
  let s1 := setF FN_RDYBSY_LEVEL (1 - bit low) s
  if low = s.mode.busyLow then s1 else emit (.rdybsy low) { s1 with mode := { s1.mode with busyLow := low } }

/-! ### Resources and counts of the FN registers (R54, R67) -/

def showFn (f : Nat) (s : State) : State :=
  setF (FN_FUNC_QUEUES f) (queuePairs s f) (setF (FN_FUNC_VECTORS f) (vectors s f)
    (setF (FN_FUNC_NS_ATTACHED f) (s.nss.filter (fun e => e.2.attached.contains f)).length s))

def showFns (s : State) : State := allFns.foldl (fun a f => showFn f a) s

/-! ### The controller reset (R80) -/

/-- A vector after a controller reset: the MSI-X table stays, the coalescing of the queues is gone. -/
def Vec.settled (w : Vec) : Vec := { w with pend := false, cd := false, count := 0, fresh := 0, spent := false }

/-- CC.EN 1 to 0 (R80): unfetched entries, incomplete data and reads go; applied data stays; the function's graphs, ring,
cookies and partitions are cleared; queues, Features and events are reset. -/
def controllerReset (f : Nat) (s : State) : State :=
  let s1 := dropCookies f (clearOwned f (releaseGraphs f (abandonCmds (fun g _ => g == f) none (forgetReqs (fun g _ => g == f) s))))
  updFn f (fun x => { x with
      en := false, rdy := false, pp := false, cfs := false, ams := 0, mps := 0, feats := {}, sqs := [], cqs := [],
      vecs := x.vecs.map (fun e => (e.1, e.2.settled)), aers := [], events := [], unarmed := [], ring := none,
      arb := {}, resetAtLink := false }) s1

/-- The functions whose controller is enabled. -/
def enabledFns (s : State) : List Nat := allFns.filter (fun f => (getFn s f).en)

/-- Functions enabled before BOOT ended become ready (R65). -/
def readyAll (s : State) : State :=
  (enabledFns s).foldl (fun a f => updFn f (fun x => { x with rdy := !x.cfs }) a) s

/-- Registers of the functions can be written: the link is up, the mode serves the PCIe side, no reset holds it. -/
def hostReaches (s : State) (f : Nat) : Bool :=
  ((linkUp s && !s.mode.perst) || viaHead s f) && s.mode.cur != .seal && s.mode.cur != .halt && (getFn s f).flr.isNone && online s f

/-- Configuration requests are answered from L0 onwards (R65), of the PF and of each VF within NumVFs, online or not (R52). -/
def configReaches (s : State) (f : Nat) : Bool :=
  ((linkUp s && !s.mode.perst) || viaHead s f) && s.mode.cur != .seal && s.mode.cur != .halt && (getFn s f).flr.isNone && f ≤ s.numVfs

/-- CC.AMS and CC.MPS hold values that CAP offers (R68): round robin or weighted round robin, pages of 4 KiB to 64 KiB. -/
def ccOffered (ams mps : Nat) : Bool := ams ≤ 1 && mps ≤ mpsMax

/-- CC_EN_SET (R65): the controller becomes ready, or becomes ready when BOOT ends; the admin queue pair exists. A value that CAP does
not offer leaves the controller not ready, with CSTS.CFS set: PRESUMED, the base specification's fatal status (notes/assumptions/137). -/
def execCcEnSet (fn ams mps asqBase asqSize acqBase acqSize : Nat) (s : State) : Result :=
  let x := getFn s fn
  .next (if !hostReaches s fn || x.d3 || x.en then s
    else setFn fn { x with
      en := true, rdy := s.mode.cur != .boot && ccOffered ams mps, cfs := !ccOffered ams mps, ams := ams, mps := mps,
      idleFrom := s.time.stroke,
      sqs := mset x.sqs 0 { size := asqSize, base := asqBase, cqid := 0, prio := 0 },
      cqs := mset x.cqs 0 { size := acqSize, base := acqBase, vector := 0, ien := true } } s)

/-- CC_EN_CLEAR (R80). -/
def execCcEnClear (frac fn : Nat) (s : State) : Result :=
  let s := atFrac frac s
  .next (if hostReaches s fn && (getFn s fn).en then controllerReset fn s else s)

/-! ### The link (R48, R49, R64, R67) -/

/-- Lanes of FN_LINK_CTL.MAX_WIDTH. -/
def maxWidth (s : State) : Nat :=
  match getF s FN_LINK_CTL_MAX_WIDTH with
  | 0 => 8
  | 1 => 4
  | 2 => 2
  | _ => 1

/-- A rate and width that training can end in (R48, R49). -/
def trainable (s : State) (speed width : Nat) : Bool :=
  (speed == 1 || (4 ≤ speed && speed ≤ getF s FN_LINK_CTL_MAX_SPEED)) &&
    (width == 1 || width == 2 || width == 4 || width == 8) && width ≤ maxWidth s

/-- LINK_TRAINED (R48, R49, R64): `fault` says that a failed lane or equalisation bounds the width or the rate. -/
def execLinkTrained (frac speed width : Nat) (reversed : Bool) (polarity : Nat) (fault : Bool) (s : State) : Result :=
  let s := atFrac frac s
  .next (if s.mode.perst || s.mode.cur == .halt || follower s || !trainable s speed width then s
    else
      let degraded := fault || speed == 1
      let s1 := setF FN_LINK_STATUS_SPEED speed (setF FN_LINK_STATUS_WIDTH width (setF FN_LINK_STATUS_REVERSED (bit reversed)
        (setF FN_LINK_STATUS_POLARITY (polarity % 256) (setF FN_LINK_STATUS_DEGRADED (bit degraded)
          (setF FN_LINK_STATUS_UP 1 (setF FN_ATTN_LINK 0 s))))))
      let s2 := if degraded then blot 0x0201 2 0 (le 1 speed ++ le 1 width) s1 else s1
      allFns.foldl (fun a f => if (getFn a f).resetAtLink then controllerReset f a else a) s2)

/-- The link is gone: every command of the host is abandoned, and each controller will be reset when the link returns
(R64). -/
def linkLoss (s : State) : State :=
  let s1 := setF FN_LINK_STATUS_SPEED 0 (setF FN_LINK_STATUS_WIDTH 0 (setF FN_LINK_STATUS_UP 0 s))
  let s2 := abandonCmds (fun _ _ => true) none s1
  (enabledFns s2).foldl (fun a f => updFn f (fun x => { x with resetAtLink := true }) a) s2

/-- LINK_DOWN (R64). -/
def execLinkDown (frac : Nat) (s : State) : Result :=
  let s := atFrac frac s
  .next (if !linkUp s then s
    else linkLoss (blot 0x0202 1 0 (le 1 s.mode.cur.code)
      (setF FN_LINK_EVENTS_LINK_DOWN 1 (incF FN_LINK_EVENTS_DOWN_COUNT 1 s))))

/-- Configuration space and MSI-X table of a function at their reset values. -/
def Fn.configReset (x : Fn) : Fn :=
  { x with d3 := false, bme := false, msixEn := false, fmask := false, dev := {}, aerErr := false, aerTimeout := false, vecs := [] }

/-- Configuration space of every function at its reset values, NumVFs among them (R64); the FN fields stay (R67). -/
def configReset (s : State) : State :=
  { allFns.foldl (fun a f => if mhas a.fns f then updFn f Fn.configReset a else a) s with numVfs := 0 }

/-- HOT_RESET (R64): as a link going down, and the link retrains at once. -/
def execHotReset (frac : Nat) (s : State) : Result :=
  let s := atFrac frac s
  .next (if !linkUp s then s
    else configReset (linkLoss (blot 0x0203 1 0 (le 1 s.mode.cur.code) (setF FN_LINK_EVENTS_HOT_RESET 1 s))))

/-- The PCIe side is held in reset. -/
def holdPerst (s : State) : State :=
  configReset (linkLoss (setF FN_LINK_EVENTS_PERST 1 { s with mode := { s.mode with perst := true, perstSeal := false } }))

/-- PERST_ASSERT (R64): the PCIe side is held in reset until PERST_N rises; SEAL takes it up when it ends. -/
def execPerstAssert (frac : Nat) (s : State) : Result :=
  let s := atFrac frac s
  .next (match s.mode.cur with
    | .seal => blot 0x0205 1 0 [] (if follower s then s else { s with mode := { s.mode with perstSeal := true } })
    | m =>
      if follower s then s
      else holdPerst (if m = .boot || m = .activate || m = .sanitize then s else blot 0x0204 1 0 (le 1 m.code) s))

/-- RETRAIN (R67): a retrain starts under the current limits. -/
def execRetrain (s : State) : Result :=
  .next (if linkUp s then incF FN_LINK_EVENTS_RETRAIN_COUNT 1 s else s)

/-! ### Attention codes (R62) -/

/-- LINK_ATTN_TIMEOUT: the link has been down for more than 10 ms in RUN, LEAN or PARK. -/
def execLinkAttnTimeout (s : State) : Result :=
  .next (if !linkUp s && !follower s && (s.mode.cur == .run || s.mode.cur == .lean || s.mode.cur == .park) then setF FN_ATTN_LINK 1 s else s)

/-- A signal of this function is prevented: a pending vector, a completion that waits, or entries the host has not taken
while MSI-X is disabled. -/
def signalBlocked (s : State) (f : Nat) : Bool :=
  let x := getFn s f
  x.en && ((List.range (vectors s f)).any (fun v => (getVec x v).pend) ||
    ((!x.bme || !x.msixEn) && x.cqs.any (fun e => !e.2.waiting.isEmpty || e.2.head != e.2.tail)))

/-- NO_IRQ_TIMEOUT: an event or completion has waited more than 10 ms for a signal. -/
def execNoIrqTimeout (s : State) : Result :=
  .next (if allFns.any (signalBlocked s) then setF FN_ATTN_NO_IRQ 1 s else s)

/-- Code 2 clears when the signals have been sent. -/
def clearNoIrq (s : State) : State := if allFns.any (signalBlocked s) then s else setF FN_ATTN_NO_IRQ 0 s

/-- The conditions pending in FN_ATTN, as codes in rising order. -/
def attnCodes (s : State) : List Nat := (List.range 5).filterMap (fun i => if bitAt (getReg s FN_ATTN_LINK.off) i then some (i + 1) else none)

/-- ATTENTION_BURST: in the device's slot of 64 strokes, the lowest code first, the others in following slots. -/
def execAttentionBurst (s : State) : Result :=
  let codes := attnCodes s
  .next (if !flagF s FN_RDYBSY_PULSE_EN || s.mode.busyLow || s.mode.cur == .halt || s.time.stroke % 64 != deviceId s % 64 then s
    else match (codes.find? (fun c => s.mode.attnLast < c)).orElse (fun _ => codes.head?) with
    | none => { s with mode := { s.mode with attnLast := 0 } }
    | some c => emit (.attention c) { s with mode := { s.mode with attnLast := c } })

/-! ### MSI-X, D-states and Bus Master Enable (R57, R60, R66) -/

/-- Pending vectors that nothing masks any more signal once. -/
def signalPending (f : Nat) (s : State) : State :=
  let x := getFn s f
  if !x.msixEn || signalHeld s f then s
  else clearNoIrq ((List.range (vectors s f)).foldl (fun a v =>
    let w := getVec (getFn a f) v
    if w.pend && !w.masked then emit (.msix f v) (updVec f v (fun w => { w with pend := false }) a) else a) s)

/-- MSIX_UNMASK (R57, R60): the table entries and the control word of a function. -/
def execMsixUnmask (fn : Nat) (w : MsixWrite) (s : State) : Result :=
  .next (if !configReaches s fn then s
    else signalPending fn (match w with
      | .control e m => updFn fn (fun x => { x with msixEn := e, fmask := m }) s
      | .entry v a d m =>
        if msixTableSize ≤ v then s else updVec fn v (fun y => { y with addr := a, data := d, masked := m }) s))

/-- The function moves data again: waiting completions are posted, held transfers go on (R60, R66). -/
def resumeFn (f : Nat) (s : State) : State := resumeHeld (drainFn f (signalPending f s))

/-- BUS_MASTER_ENABLE (R50, R51, R60): Bus Master Enable, or the Device Control registers of the same configuration space. -/
def execBusMasterEnable (fn : Nat) (w : CfgWrite) (s : State) : Result :=
  .next (if !configReaches s fn then s
    else match w with
    | .command en => resumeFn fn (updFn fn (fun x => { x with bme := en }) s)
    | .device ro p r t => updFn fn (fun x => { x with dev := { relaxed := ro, payload := p % 8, readReq := r % 8, timeout := t % 16 } }) s)

/-- D_STATE_CHANGE (R66). -/
def execDStateChange (fn : Nat) (d3 : Bool) (s : State) : Result :=
  .next (if !configReaches s fn then s
    else resumeFn fn (updFn fn (fun x => { x with d3 := d3 }) s))

/-- The device is in D3cold: the PF is in D3 and the link is off (R66); HALT keeps what it was entered in, for its functions are
unpowered. -/
def d3cold (s : State) : Bool := if s.mode.cur = .halt then s.mode.cold else (getFn s 0).d3 && !linkUp s

/-! ### Function-level reset (R55, R101, R102) -/

/-- The sequence of R101 from its request: no fetch, work abandoned, unspent grants to spill, debt cleared. -/
def startFlr (f after : Nat) (s : State) : State :=
  if (getFn s f).flr.isSome then updFn f (fun x => { x with afterFlr := max x.afterFlr after }) s
  else
    let s1 := releaseGraphs f (abandonCmds (fun g _ => g == f) none (forgetReqs (fun g _ => g == f) s))
    setF (FN_FUNC_FLR_ACTIVE f) 1 (updFn f (fun x => { x with
      flr := some (s.time.stroke, s.time.frac), afterFlr := after,
      gCmd := 0, gRd := 0, gWr := 0, dCmd := 0, dRd := 0, dWr := 0 }) s1)

def onlineVfs (s : State) : List Nat := allFns.filter (fun f => f != 0 && online s f)

/-- FLR_INITIATE: ignored in SEAL and while one runs; the PF's clears VF Enable and takes every online VF along (R102). -/
def execFlrInitiate (frac fn : Nat) (s : State) : Result :=
  let s := atFrac frac s
  .next (if s.mode.cur == .seal || s.mode.cur == .halt || (getFn s fn).flr.isSome || !online s fn || !(linkUp s || viaHead s fn) then s
    else if fn = 0 then
      let s1 := startFlr 0 0 s
      { (onlineVfs s1).foldl (fun a f => startFlr f 1 a) s1 with numVfs := 0 }
    else startFlr fn 0 s)

/-- Microseconds since the reset was requested. -/
def flrUs (s : State) (t : Nat × Nat) : Nat := (now s - (t.1 * 65536 + t.2)) * s.time.period / 65536

/-- A VF goes offline, keeping its resources or returning them to the pool. -/
def takeOffline (f : Nat) (returns : Bool) (s : State) : State :=
  setF (FN_FUNC_ONLINE f) 0
    (if returns then updFn f (fun x => { x with flexQ := 0, flexV := 0 }) s else s)

/-- The reset commits: queues, controller registers, Features and the MSI-X table are reset; a Virtualization Management
command that waits for it completes. -/
def commitFlr (f : Nat) (s : State) : State :=
  let after := (getFn s f).afterFlr
  let s1 := updFn f (fun x => { x.configReset with flr := none, afterFlr := 0 }) (controllerReset f s)
  let s2 := setF (FN_FUNC_FLR_ACTIVE f) 0 s1
  let s3 := if after = 0 then s2 else takeOffline f (after == 2) s2
  let mine := s3.trans.filter (fun t => t.unit == .func f && t.kind == .offline)
  let s4 := { s3 with trans := s3.trans.filter (fun t => !(t.unit == .func f && t.kind == .offline)) }
  showFn f (mine.foldl (fun a t => complete t.fn t.sqid t.cid .success 0 0 a) s4)

/-- FLR_COMMIT (R101): at the first boundary at least 50 µs after the request. -/
def execFlrCommit (s : State) : Result :=
  .next (if s.time.frac != 0 then s
    else allFns.foldl (fun a f => match (getFn a f).flr with
      | some t => if 50 ≤ flrUs a t then commitFlr f a else a
      | none => a) s)

/-- NUMVFS_WRITE (R52, R55): online VFs above the new value are taken offline and return their resources. -/
def execNumvfsWrite (n : Nat) (s : State) : Result :=
  .next (if 127 < n || !hostReaches s 0 then s
    else ((onlineVfs s).filter (fun f => n < f)).foldl (fun a f => startFlr f 2 a) { s with numVfs := n })

/-! ### Doorbells (R74, R75) -/

/-- The event of R74: Invalid Doorbell Register, or Invalid Doorbell Write Value. -/
def doorbellError (f info : Nat) (s : State) : State := raiseEvent f { type := 0, info := info, log := 1 } s

/-- Doorbells of the function are heard: it is enabled, and no reset runs (R101). -/
def hearsDoorbell (s : State) (f : Nat) : Bool := hostReaches s f && (getFn s f).en && !(getFn s f).d3

end Sys2Proof.Machine
end

