-- ==== Sys2Proof/Machine/Setup.lean ====
section
/-!
DEFINITION. Writes of setup registers that more than one field decides (spec/20_register_map.md R450 to R455; the rules R30,
R32, R40, R47, R95, R129, R156, R209, R362, R427, R443), and what a reset leaves in the register file (R374, R375, R420).
-/

namespace Sys2Proof.Machine

/-- Members of the domain this device belongs to (R403); 0 with no domain. -/
def domainMembers (s : State) : Nat := if s.oxv.tag = 0 then 0 else leAt s.oxv.cfg 2 2

/-- The device is the domain root, or has no domain (R30). -/
def isRoot (s : State) : Bool := s.oxv.tag == 0 || deviceId s == s.oxv.root

def inDomain (s : State) : Bool := 1 < domainMembers s

/-! ### Fields and groups that a write leaves as they are (R450) -/

def thermOk (t1 t2 t3 : Nat) : Bool :=
  70 ≤ t1 && t1 ≤ 105 && 75 ≤ t2 && t2 ≤ 108 && 80 ≤ t3 && t3 ≤ 110 && t1 < t2 && t2 < t3

def gcOk (soft hard floor : Nat) : Bool :=
  2 ≤ floor && floor ≤ 32 && floor + 1 < hard && hard + 1 < soft && soft ≤ 64

def shareOk (rt cmd bg : Nat) : Bool := 10 ≤ rt && rt ≤ 50 && rt + cmd + bg ≤ 90

/-- FEC options of a MODE (R108). -/
def fecOk (mode fec : Nat) : Bool := if mode = 0 then fec ≤ 2 else if mode = 1 then fec ≤ 1 else fec == 0

/-- A limit of 88 % to 95 % of the nominal voltage (R443). -/
def uvOk (nom uv : Nat) : Bool := nom * 88 ≤ uv * 100 && uv * 100 ≤ nom * 95

/-- The checks that a dword's fields make together, also of a loaded settings copy (R374): the bits that fall back. -/
def groupBad (s : State) (off v : Nat) : List (Nat × Nat) :=
  if off = 0x02004 then
    if bits v 27 16 != 0 && bits v 27 16 ≤ bits v 11 0 then [(27, 0)] else []
  else if off = 0x02028 then
    if thermOk (bits v 6 0) (bits v 14 8) (bits v 22 16) then [] else [(22, 0)]
  else if off = 0x23008 then
    if gcOk (bits v 7 0) (bits v 15 8) (bits v 23 16) then [] else [(23, 0)]
  else if off = 0x32014 then
    if shareOk (bits v 6 0) (bits v 14 8) (bits v 22 16) then [] else [(22, 0)]
  else if off = 0x0A028 then
    let d := if 4 ≤ bits v 5 0 && bits v 5 0 ≤ 30 then bits v 5 0 else getF s STK_OVR_CTL_DIRTY_LIMIT_MIB
    if bits v 13 8 < d then [] else [(13, 8)]
  else if 0x0C100 ≤ off && off < 0x0C200 && off % 64 = 0 then
    if fecOk (bits v 1 0) (bits v 3 2) then [] else [(3, 0)]
  else if 0x03204 ≤ off && off < 0x03300 && off % 8 = 4 then
    if uvOk (nominalMv ((off - 0x03204) / 8) % 4096) (bits v 11 0) then [] else [(11, 0)]
  else []

/-- The conditions of R30, R32, R95, R156 and R209 under which a write of a field is accepted: the bits that keep their
value. -/
def notAccepted (s : State) (off v : Nat) : List (Nat × Nat) :=
  let old := getReg s off
  if off = 0x0A000 then
    let p := bits v 15 0
    if !isRoot s || (getF s STK_CTL_SRC = 2 && (p = 0 || 1000000 % p != 0)) then [(15, 0)] else []
  else if off = 0x0A004 then
    let pend := getF s STK_PENDING_MICROS
    if bits v 2 0 = 2 && (1000000 % s.time.period != 0 || (flagF s STK_PENDING_VALID && 1000000 % pend != 0)) then [(2, 0)]
    else []
  else if off = 0x10000 then
    let fl := inDomain s && bits v 3 0 != bits old 3 0
    let h := bits v 5 5 != bits old 5 5 && (!s.chain.provisional || inDomain s)
    (if fl then [(3, 0)] else []) ++ (if h then [(5, 5)] else [])
  else if 0x31048 ≤ off && off < 0x31080 then
    let p := (off - 0x31040) / 4
    let sum := (List.range 14).foldl (fun a i => if i + 2 = p then a else a + getF s (SIV_PART_SIZE_K (i + 2))) (bits v 7 0)
    if sum ≤ 232 then [] else [(7, 0)]
  else if off = 0x23000 then
    if s.nss.isEmpty then [] else [(31, 0)]
  else if 0x08800 ≤ off && off < 0x09000 then
    let f := (off - 0x08800) / 16
    if off % 16 = 0 then
      if sumRule s f (bits v 15 0) (bits v 31 16) (getF s (QOS_FUNC_KCMDS f)) then [] else [(31, 0)]
    else if off % 16 = 4 then
      if sumRule s f (getF s (QOS_FUNC_RD_MBPS f)) (getF s (QOS_FUNC_WR_MBPS f)) (bits v 15 0) then [] else [(31, 0)]
    else []
  else []

/-- The bits named keep the value they had. -/
def keepBits (old v : Nat) (bad : List (Nat × Nat)) : Nat := bad.foldl (fun a b => setBits a b.1 b.2 (bits old b.1 b.2)) v

/-- A host write of one dword: fields and groups that refuse their value keep it, and the block's CFG_ERR is set. IO_OUT stays
0 while SRC is 4h (R40). -/
def guardedWrite (off v : Nat) (s : State) : State :=
  let bad := groupBad s off v ++ notAccepted s off v
  let v1 := keepBits (getReg s off) v bad
  let s1 := plainWrite off v1 s
  let io := off == 0x0A004 && getF s1 STK_CTL_SRC == 4 && flagF s1 STK_CTL_IO_OUT
  let s2 := if io then setF STK_CTL_IO_OUT 0 s1 else s1
  if bad.isEmpty && !io then s2 else cfgErr off s2

/-! ### The register file after a reset (R6, R374, R375, R420) -/

/-- Dwords that a device reset keeps: retained state (GLB_MODE, GLB_RESET_CAUSE, LOG), and what reads from media or key state
(fence lists, FTL_CFG, the write counters, the device ID, the settings SEQ). -/
def keptDword (off : Nat) : Bool :=
  off == 0x00004 || off == 0x00010 || (0x04000 ≤ off && off < 0x05000) || off == 0x23000 ||
    (0x23028 ≤ off && off ≤ 0x23034) || off == 0x35008 || off == 0x34024 ||
    (0x12000 ≤ off && off < 0x22000 && off % 0x1000 == 0x00C)

/-- The newest settings copy whose CRC checks (R374). -/
def newestCopy : List SettingsCopy → Option SettingsCopy
  | [] => none
  | c :: t => match newestCopy t with
    | none => if c.good then some c else none
    | some d => if c.good && d.seq < c.seq then some c else some d

/-- One Stored field of a loaded dword: its value, or its default with a blot 0804h. -/
def loadField (off v : Nat) (bad : List (Nat × Nat)) (s : State) (e : FieldDesc × Nat) : State :=
  let d := e.1
  let x := bits v d.hi d.lo
  if !d.stored then s
  else if d.valid.ok x && !bad.any (fun b => b.2 ≤ d.lo && d.hi ≤ b.1) then setF ⟨off, d.hi, d.lo⟩ x s
  else
    let base := off / 0x1000 * 0x1000
    blot 0x0804 1 (off / 0x1000) (le 4 (off - base) ++ le 4 x) (setF ⟨off, d.hi, d.lo⟩ (fieldReset d e.2 % 2 ^ (d.hi + 1 - d.lo)) s)

/-- The groups of a loaded dword that break their check; every field of such a group takes its default (R374, R450). -/
def groupLost (s : State) (off v : Nat) : List (Nat × Nat) :=
  if off = 0x0A028 then (if bits v 13 8 < bits v 5 0 then [] else [(13, 0)]) else groupBad s off v

def loadDword (s : State) (e : Nat × Word32) : State :=
  let bad := groupLost s e.1 e.2.toNat
  (fieldsAt e.1).foldl (loadField e.1 e.2.toNat bad) s

/-- A dword of the identity block: the port MAC addresses (R129, R375). -/
def identityDword (off : Nat) : Bool :=
  0x0C100 ≤ off && off < 0x0C200 && (off % 64 == 4 || off % 64 == 8)

/-- BOOT loads the settings (R374, R375): of a copy of another FORMAT only the identity block is taken; it records a blot, and
the next save writes the new FORMAT. -/
def loadSettings (s : State) : State :=
  match newestCopy s.ink.copies with
  | none => setF INK_SET_FORMAT 0 (setF FWU_FORMAT_STORED 0 { s with ink := { s.ink with vpd := [] } })
  | some c =>
    let s1 := setF INK_SET_FORMAT c.format (setF FWU_FORMAT_STORED c.format (setF INK_SET_SEQ c.seq
      { s with ink := { s.ink with vpd := c.vpd } }))
    if c.format != getF s FWU_FORMAT_EXPECTED then
      blot 0x0801 1 0 (le 2 c.format ++ le 2 (getF s FWU_FORMAT_EXPECTED))
        ((c.values.filter (fun e => identityDword e.1)).foldl loadDword { s1 with ink := { s1.ink with storedAt := some (now s) } })
    else c.values.foldl loadDword s1

/-- The running firmware's own registers (R386): volatile, and given by what runs. -/
def firmwareDword (off : Nat) : Bool := 0x36000 ≤ off && off < 0x37000

/-- Volatile fields take their power-on values; Stored ones those of the last settings copy. -/
def resetRegs (s : State) : State :=
  loadSettings { s with regs := s.regs.filter (fun e => keptDword e.1 || firmwareDword e.1), latch := [], heldWrites := [] }

/-- The dword of a stored QOS_FUNC field, back at its default, with its blot (R374). -/
def dropQosDword (off : Nat) (s : State) : State := (fieldsAt off).foldl (loadField off (getReg s off) [(31, 0)]) s

/-- A loaded QOS_FUNC entry that breaks the sum rule of R95 with those of the lower functions takes its defaults (R374, R450).
The capacity it is held against is known once the mount has counted the media (notes/assumptions/131). -/
def checkQosEntry (s : State) (f : Nat) : State :=
  let sum (fld : Nat → Fld) : Nat := (List.range (f + 1)).foldl (fun a k => a + getF s (fld k)) 0
  if sum QOS_FUNC_RD_MBPS ≤ getF s QOS_CAP_BW_RD_MBPS &&
      sum QOS_FUNC_WR_MBPS * 1000 + acceptedKbps s ≤ getF s QOS_CAP_BW_WR_MBPS * 1000 &&
      sum QOS_FUNC_KCMDS ≤ getF s QOS_CAP_CMD_KCMDS then s
  else dropQosDword (0x08804 + 16 * f) (dropQosDword (0x08800 + 16 * f) s)

def checkQos (s : State) : State := allFns.foldl checkQosEntry s

/-- The firmware registers at a BOOT: an incomplete or rejected package is gone, a complete one stays staged (R380, R381). -/
def firmwareBoot (s : State) : State :=
  let s1 := setF FWU_STATUS_REASON 0 (setF FWU_ACT_US 0 (setF FWU_COPY_MS 0 s))
  let st := getF s FWU_STATUS_STAGE
  if st = 3 || st = 4 then s1
  else (List.range 4).foldl (fun a c => setF (FWU_STAGED_REV c) 0 a) (setF FWU_STATUS_STAGE 0 (setF FWU_RECEIVED 0 s1))

end Sys2Proof.Machine
end

