-- ==== Sys2Proof/Machine/Power.lean ====
section
/-!
DEFINITION. Clock domains, supply requests, SEAL, and the resets that end in BOOT (spec/10_power_loss_and_recovery.md R210 to
R221, spec/18_modes_resets_power.md R413 to R422, R426, spec/21_electrical_and_package.md R461 to R463, spec/01 R12, R22).
-/

namespace Sys2Proof.Machine

/-! ### Clock domains (R22, R414, R415, R421, R422) -/

/-- The fraction of the thermal step and of a droop halving (R421, R422), on the domains of the system PLL. -/
def scaledMhz (s : State) (mhz : Nat) : Nat :=
  mhz * (4 - getF s CLK_STATUS_THERM_STEP) / (4 * (if flagF s CLK_STATUS_HALVED then 2 else 1))

/-- Rate in MT/s of a trained NAND channel (R181). -/
def nandRate (c : Nat) : Nat :=
  match c with
  | 0 => 800
  | 1 => 1200
  | 2 => 1600
  | 3 => 2400
  | 4 => 3200
  | 5 => 3600
  | _ => 0

/-- A channel PHY is powered in the present mode (R415, R416). -/
def channelOn (s : State) (c : Nat) : Bool :=
  flagF s (MED_STATUS_TRAINED c) && (match s.mode.cur with
    | .park => bitAt (getF s PWR_PARK_KEEP_CH) c || flagF s PWR_STATUS_BURST
    | .drowse | .hibernate | .halt | .safe => false
    | _ => true)

/-- MHz of a port's SerDes clock by its MODE; only the 25GBASE-R value is the spec's (R22; notes/assumptions/40). -/
def portMhz (m : Nat) : Nat := if m = 0 then 390 else if m = 1 then 156 else 125

/-- MHz of a clock domain in the present mode; 0 where it is gated (R22, R346, R414 to R416). -/
def domainMhz (s : State) (i : Nat) : Nat :=
  let m := s.mode.cur
  if i < 16 then
    let r := nandRate (getF s (MED_STATUS_RATE i))
    if channelOn s i then (if m = .lean then min r 1600 else r) / 2 else 0
  else if i < 20 then
    if m = .drowse || m = .hibernate || m = .halt || s.dram.selfRefresh then 0 else rateOf (getF s DRM_STATUS_POINT) / 8
  else if i < 24 then (if (getPort s (i - 20)).running then portMhz (getPort s (i - 20)).mode else 0)
  else if i < 26 then 1000
  else if i = 26 then 1000
  else if i < 31 then
    match m with
    | .run | .readOnly | .sanitize | .activate => scaledMhz s s.mode.nibMhz
    | .lean => if i < 29 then scaledMhz s (min 800 s.mode.nibMhz) else 0
    | _ => 0
  else if i = 31 then scaledMhz s (if m = .lean then 1000 else if m = .park then 500 else 2000)
  else if i = 32 then scaledMhz s (if m = .lean then 600 else if m = .park then 150 else 1200)
  else if i = 33 then scaledMhz s (if m = .lean then 800 else if m = .park then 400 else 1600)
  else if i = 34 then (if m = .park then 0 else if m = .lean then scaledMhz s 1125 / 2 else scaledMhz s 1125)
  else if i = 35 then scaledMhz s (if m = .lean then 500 else 1000)
  else if i = 36 then 25
  else if i = 37 then 400
  else if i = 38 then 100
  else 50

/-- The fabric clock in kHz (R97, R414, R415, R421, R422). -/
def fabricKhz (s : State) : Nat :=
  (if s.mode.cur = .lean then 600000 else if s.mode.cur = .park then 150000 else 1200000)
    * (4 - getF s CLK_STATUS_THERM_STEP) / (4 * (if flagF s CLK_STATUS_HALVED then 2 else 1))

/-- CLK_DOMAIN shows the clocks; the fabric clock enters the stroke's scale. While the compute die's registers are only held
(DROWSE, HIBERNATE, HALT) the last values stay. -/
def showClocks (s : State) : State :=
  match s.mode.cur with
  | .drowse | .hibernate | .halt => s
  | _ =>
    let s1 := (List.range 40).foldl (fun a i =>
      let f := domainMhz a i
      setF (CLK_DOMAIN_MHZ i) f (setF (CLK_DOMAIN_GATED i) (bit (f == 0)) a)) s
    setFabricKhz (fabricKhz s1) s1

/-! ### Supply requests (R461) -/

/-- The requests that are high in a mode: bit 0 core, 1 DRAM, 2 NAND. -/
def requestsOf : Mode → Nat
  | .halt | .hibernate => 0
  | .seal => 5
  | _ => 7

/-- Monitors of the supplies that the requests leave off are masked (R431): the compute and I/O groups, and NVCC_SENSE (R459). -/
def maskMonitors (r : Nat) (s : State) : State :=
  ((List.range 24) ++ [30, 31]).foldl (fun a i =>
    setF (MON_VMON_MASKED i) (bit (!bitAt r (if i = 30 then 2 else 0))) a) s

/-- Drive the requests; NAND and DRAM fall before core (R463), core rises before them (R462). -/
def setReqs (r : Nat) (s : State) : State :=
  let order := if bitAt r 0 then [0, 1, 2] else [2, 1, 0]
  let s1 := order.foldl (fun a i =>
    if bitAt r i == bitAt s.mode.reqs i then a else emit (.power i (bitAt r i)) a) s
  maskMonitors r { s1 with mode := { s1.mode with reqs := r } }

/-! ### Entering a mode -/

/-- What follows a change of CURRENT: attention code 3 (R62), the supplies, the cores, the ports, RDYBSY_N and the clocks. -/
def enterModeWith (reqs : Nat) (m : Mode) (s : State) : State :=
  let s1 := { s with mode := { s.mode with cur := m, target := m, trans := none, enteredAt := s.time.stroke } }
  let s2 := if m = .readOnly && s.mode.cur != .readOnly then setF FN_ATTN_READ_ONLY 1 s1 else s1
  showClocks (showBusy (setPorts (setCores (setReqs reqs s2))))

def enterMode (m : Mode) (s : State) : State := enterModeWith (requestsOf m) m s

/-- Strokes since the last sealed one in which nothing was sealed. -/
def spanCount (s : State) : Nat :=
  match s.chain.lastSealed with
  | some n => s.time.stroke - n - 1
  | none => 0

/-- A span record for the strokes that were not sealed since the last sealed one (R41, R221, R231); a return from DROWSE or HIBERNATE
writes it always. -/
def spanRec (s : State) : State := anchorRec 6 (spanCount s) s

/-- GLB_MODE.CAUSE of the last transition (R410). -/
def setCause (c : Nat) (s : State) : State := setF GLB_MODE_CAUSE c s

/-! ### SEAL (R210 to R216, R221) -/

/-- Running and suspended erases are cut for a fresh erase, suspended programs resume, and what waits goes to the SEAL band
(R215). -/
def sealDie (x : Die) : Die :=
  let prog (q : Option QueuedOp) : Option QueuedOp := q.filter (fun y => match y.op with
    | .program _ _ => true
    | _ => false)
  { x with queue := [], backlog := [], running := (prog x.running).or (prog x.suspended), suspended := none, served := 0,
           timeoutAt := none }

/-- What the sequencer of a die does at the entry to SEAL: it resets a LUN whose erase runs or is suspended, and resumes a suspended
program (R173, R215). -/
def sealOut (e : Nat × Die) (s : State) : State :=
  let erases (q : QueuedOp) : Bool := match q.op with
    | .erase _ _ => true
    | _ => false
  if e.2.running.any erases || e.2.suspended.any erases then emit (.nand (e.1 / 16) e.1 8 0) s
  else if e.2.suspended.isSome then emit (.nand (e.1 / 16) e.1 6 1) s
  else s

/-- Compute stops: every run ends, key slots and the register feed are zeroised (R286, R292, R304). -/
def stopCompute (s : State) : State := feedAbort (clearSlot 0 true (releaseAllGraphs s))

/-- SEAL begins in a mode that R221 names: the stroke is laid out and closed, and nothing more is taken in. `cause` is that of
the MODE record, `boot` that of the BOOT to come. -/
def enterSeal (source rail cause boot : Nat) (s : State) : State :=
  let old := s.mode.cur
  let s1 := blot 0x0102 1 0 (le 1 source ++ le 1 rail) s
  let s2 := { s1 with
    mode := { s1.mode with
      fetchStop := true, stop := none, stopping := false, modeReqs := [], wantActivate := false, wantSanitize := none,
      sealSource := source, sealLater := [], bootCause := boot,
      sanitizePaused := if old = .sanitize then some s1.mode.sanitizeState else s1.mode.sanitizePaused },
    ing := { s1.ing with paused := true },
    dram := { s1.dram with selfRefresh := false },
    cmds := s1.cmds.filter (fun c => match c.kind with
      | .append _ _ _ _ _ => false
      | _ => true) }
  let s3 := abandonCmds (fun _ _ => true) none s2
  let s4 := enterMode .seal s3
  let s5 := if old = .drowse then spanRec (openNow s4) else s4
  let s6 := modeRec old.code 8 cause 0xFF [] (setCause cause s5)
  let s7 := inkSeal (stopCompute (journalFlush (flushTails (layAll s6))))
  let s8 := closeStroke true (s7.ftl.dies.foldl (fun a e => sealOut e a)
    { s7 with ftl := { s7.ftl with dies := s7.ftl.dies.map (fun e => (e.1, sealDie e.2)), fixing := [], rebuilds := [], deepQ := [] } })
  { s8 with
    chain := { s8.chain with noOpen := true },
    ftl := { s8.ftl with journal := s8.ftl.journal ++ [{ rec_ := .stroke (s8.time.stroke + 1) s8.ftl.seq [] }] } }

/-- A source trips, or a device reset passes through SEAL (R210, R211, R221, R419). -/
def trip (source rail cause boot : Nat) (s : State) : State :=
  match s.mode.cur with
  | .hibernate | .halt | .safe => s
  | .seal => { s with mode := { s.mode with sealLater := s.mode.sealLater ++ [source] } }
  | .boot => if s.mode.mounted then enterSeal source rail cause boot s else s
  | _ => enterSeal source rail cause boot s

/-- PFAIL_TRIP (R210). -/
def execPfailTrip (frac : Nat) (s : State) : Result := .next (trip 1 0 5 2 (setF PWR_PFAIL_LEVEL 0 (atFrac frac s)))

/-- PFAIL_GLITCH (R210): a pulse shorter than the filter. -/
def execPfailGlitch (frac width : Nat) (s : State) : Result :=
  let s := atFrac frac s
  .next (if width < getF s PWR_PFAIL_FILT_US then blot 0x0101 0 0 (le 2 width) s else s)

/-- HOLD_SENSE_TRIP (R210): below TRIP_MV for 5 µs. -/
def execHoldSenseTrip (frac mv : Nat) (s : State) : Result :=
  let s1 := setF PWR_HOLD_STATUS_SENSE_MV (min mv 4095) (atFrac frac s)
  .next (if mv < getF s1 PWR_HOLD_TRIP_MV then trip 2 0 5 2 s1 else s1)

/-- A voltage monitor that its own check or the mode masks cannot trip (R431). -/
def vmonMasked (s : State) (i : Nat) : Bool := flagF s (MON_VMON_MASKED i) || flagF s (MON_VMON_FAILED i)

/-- RAIL_UNDERVOLTAGE (R210, R431). -/
def execRailUndervoltage (frac mon mv : Nat) (s : State) : Result :=
  let s := atFrac frac s
  .next (if 32 ≤ mon || vmonMasked s mon || getF s (MON_VMON_UV_MV mon) ≤ mv then s else trip 3 mon 5 2 s)

/-- DIE_LINK_FAIL (R12): a frame is not delivered after 8 retries. -/
def execDieLinkFail (frac : Nat) (s : State) : Result :=
  .next (trip 4 0 5 6 (blot 0x0104 3 0 (le 1 8) (atFrac frac s)))

/-- HOLD_ARM_CHANGE (R212): HOLD_SENSE has been at or above ARM_MV for 1 ms, or is not. -/
def execHoldArmChange (frac mv : Nat) (s : State) : Result :=
  let s := setF PWR_HOLD_STATUS_SENSE_MV (min mv 4095) (atFrac frac s)
  let on := getF s PWR_HOLD_ARM_MV ≤ mv
  .next (if on == armed s then setF PWR_HOLD_STATUS_ARMED (bit on) s
    else resumeHeld (blot 0x0103 1 0 (le 1 (bit on) ++ le 2 mv) (setF PWR_HOLD_STATUS_ARMED (bit on) s)))

/-- SEAL_INFLIGHT_DEADLINE (R215): at 2,100 µs every die still busy is reset; its data is in the Inkwell. -/
def execSealInflightDeadline (s : State) : Result :=
  .next (if s.mode.cur != .seal then s
    else s.ftl.dies.foldl (fun a e => if e.2.running.isSome then emit (.nand (e.1 / 16) e.1 8 0) a else a)
      { s with ftl := { s.ftl with dies := s.ftl.dies.map (fun e => (e.1, { e.2 with running := none })) } })

/-- SEAL commits what has closed, in order: `fuel` bounds the strokes. -/
def sealCommit (fuel : Nat) (s : State) : State :=
  match fuel with
  | 0 => s
  | k + 1 => if s.chain.closed.isEmpty then s else sealCommit k (pounce 2 2 0 false s)

/-! ### What a reset keeps (R419, R420) -/

/-- A bound flow after a reset (R10, R121, R128, R232): what the journal holds of it stays; SSRC_LEARN learns again, the counters and
the key-frame index are volatile. -/
def Flow.rebound (x : Flow) : Flow :=
  { fn := x.fn, nsid := x.nsid, stream := x.stream, desc := x.desc, ssrc := if x.learns then none else x.ssrc }

/-- The flow's entry is written anew: every SSRC matches until it is learned again (R116). -/
def relearn (flows : Map Flow) (p : Map SieveEntry) : Map SieveEntry :=
  flows.foldl (fun a e =>
    let k := flowKey e.2.desc e.2.rebound.ssrc
    if mhas a e.1 then mset a e.1 { value := k.1, care := k.2, cls := e.2.prio, result := e.1 } else a) p

/-- A die's threshold tracking starts anew, and its counts of reads are those of the last checkpoint (R179, R205). -/
def Die.rebooted (x : Die) : Die := { x with offsets := [], track := [], trackAt := [], reads := x.readsSaved, copyNext := false }

/-- Count one more BOOT since always-on power was applied (R425). -/
def nextBoots (s : State) : Nat := satAdd (getF s GLB_RESET_CAUSE_BOOTS) 1 65535

/-- The MCTP transmission unit of SMBus is 64 bytes, whatever I3C has negotiated (R103). -/
def bootMtu (s : State) : State :=
  if s.mode.miI3c then s else { s with mon := { s.mon with miMtu := 64 } }

/-- The self-test of a half that failed before this BOOT: whether it passes is a free value (R144). -/
def selfTestHalf (failed : Nat) (bit_ : Nat) (s : State) : State :=
  if !bitAt failed bit_ then s
  else
    let r := takeFree s
    if r.1 % 2 = 0 then r.2
    else setF PNC_STATUS_DEGRADED 1 (setF PNC_STATUS_HALF_FAILED (getF r.2 PNC_STATUS_HALF_FAILED ||| 2 ^ bit_) r.2)

/-- The values of the endpoint's Configuration Set stay through every reset (DESIGN CHOICE, notes/assumptions/67). BOOT begins (R419, R420): volatile state and function state are lost, stored settings come from their last copy, media,
key and retained state stay. After HALT the generator has been off (R407). The MODE record waits for the first sealed stroke
(R410). The core rail may still have to come up: `stage` says where the sequence of R462 begins. -/
def reboot (stage : PowerStage) (cause modeCause : Nat) (s0 : State) : State :=
  let s := inkDrop true (modeRec s0.mode.cur.code 1 modeCause 0xFF [] (setCause modeCause s0))
  let boots := nextBoots s
  let wasHalt := s.mode.cur == .halt
  let lock := if wasHalt then 0 else lockState s
  let dom := s.oxv
  let s1 : State := { s with
    fns := [], numVfs := 0, cmds := [], late := [], spill := [], trans := [], exports := [], qos := [], stats := [], duct := {}, dram := {},
    sieve := { parts := (match mget s.sieve.parts 1 with | some p => [(1, relearn s.ing.flows p)] | none => []) },
    crypt := { mediaKeys := s.crypt.mediaKeys, keyCount := s.crypt.keyCount },
    ing := { flows := s.ing.flows.map (fun e => (e.1, e.2.rebound)), keys := s.ing.keys, posts := [] },
    oxv := { tag := dom.tag, rings := dom.rings, root := dom.root, cfg := dom.cfg, mirrors := dom.mirrors.map (fun e =>
      (e.1, { e.2 with agreed := false, fit := false, next := e.2.ackNext, stroke := none, part := [] })) },
    ink := { s.ink with wins := [], storedAt := none, saveNow := false }, chain := { s.chain with anchorA := none, anchorB := none },
    fw := { s.fw with commit := none },
    ftl := { s.ftl with
      dies := s.ftl.dies.map (fun e => (e.1, e.2.rebooted)), refreshQ := [], placed := 0, placedLast := 0, granted := 0,
      grantedLast := 0, waWindow := [], deepAllot := [], deepSpare := 0, deepQ := [],
      deepLast := 15, fixing := [], rebuilds := [], refused := [], slots := [] },
    mon := { s.mon with evts := (List.range 8).map (fun i => (i, {})), overVolts := [], drifted := [], selfTest := 0, tunnels := [] },
    mode := { stage := s.mode.stage, reqs := s.mode.reqs, uncommitted := s.mode.uncommitted, unclean := s.mode.unclean,
              lostFrom := s.mode.lostFrom, aonLost := s.mode.aonLost, sanitizePaused := s.mode.sanitizePaused,
              sanitizeState := s.mode.sanitizeState, bootSafe := s.mode.bootSafe, perst := s.mode.perst, wakeLow := s.mode.wakeLow, sealSource := s.mode.sealSource, sealLater := s.mode.sealLater,
              bootCause := cause, readOnlyCond := s.mode.readOnlyCond, cur := s.mode.cur, busyLow := s.mode.busyLow } }
  let s2 := firmwareBoot (resetRegs s1)
  let s3 := { s2 with time := { s2.time with
    period := getF s2 STK_PERIOD_MICROS, src := getF s2 STK_CTL_SRC, bootWait := true, realign := false, misses := 0, below := 0,
    offsetNs := if wasHalt then 0 else s.time.offsetNs, flLog2 := getF s2 PNC_CTL_FLOURISH_LOG2 } }
  let s4 := setF FN_RDYBSY_SLOT (deviceId s3 % 64) <| setF STK_STATUS_ROOT (bit (dom.tag != 0 && deviceId s3 == dom.root)) <|
    setF STK_STATUS_STATE lock (setF GLB_RESET_CAUSE_CAUSE cause (setF GLB_RESET_CAUSE_BOOTS boots s3))
  let reqs := if stage = .alwaysOn then 0 else if stage = .resetDone then 1 else 7
  let s5 := enterModeWith reqs .boot { s4 with mode := { s4.mode with
    stage := stage, head := flagF s4 OXV_CTL_HEAD, miI3c := flagF s4 QOS_MI_TRANSPORT, nibMhz := getF s4 CLK_NIB_MAX_MHZ } }
  let failed := getF s PNC_STATUS_HALF_FAILED
  selfTestHalf failed 1 (selfTestHalf failed 0 (showFlows (showHolds (showInk (showImport (showKey (bootMtu s5)))))))

/-- What SEAL writes of the Inkwell: nothing for namespaces that are being sanitized (R221). -/
def sealData (s : State) : List Staged :=
  s.ftl.staged.filter (fun x => !(s.mode.sanitizePaused.isSome && x.kind.ofNs))

/-- Units in groups that fill one SLC program unit of 16 codewords (R161): `fuel` bounds their number. -/
def sealGroups (fuel : Nat) (xs : List Staged) : List (List Nat) :=
  match fuel with
  | 0 => []
  | k + 1 =>
    let g := takeCws 16 xs
    if g.isEmpty then [] else g.map (·.id) :: sealGroups k (xs.drop g.length)

/-- The slots of the SEAL band: rows over the usable dies, each stripe row with its parity (R188, R189, R214). -/
def sealSlots (s : State) (xs : List Staged) : List Slot :=
  let b0 : Band := { kind := .journal, copy := false, feed := 0, dies := usableDies s, members := [] }
  let b := (sealGroups xs.length xs).foldl (fun b g => addSlot false g (closeStripeIfDue s false b)) b0
  (closeStripeIfDue s true b).slots

/-- The programs of the SEAL band and of the summary, one copy on each of three dies (R215). -/
def sealPrograms (slots : List Slot) (s : State) : State :=
  let s1 := slots.foldl (fun a t => emit (.nand (t.die / 16) t.die 4 t.row) a) s
  ((usableDies s).take 3).foldl (fun a d => emit (.nand (d / 16) d 4 0) a) s1

/-- The Inkwell's content, the summary and the log's snapshot go to the SEAL band; the last two may fail to program (R215, R216,
R440). -/
def sealLand (summaryOk snapshotOk : Bool) (s : State) : State :=
  let slots := sealSlots s (sealData s)
  let sum : SealSummary := { stroke := s.chain.lastSealed, seq := s.ftl.seq, source := s.mode.sealSource,
                             later := s.mode.sealLater, slots := slots, rseq := s.chain.rseq - 1 }
  setF LOG_STATUS_SNAPSHOT (bit snapshotOk) (sealPrograms slots { s with
    ftl := { s.ftl with
      sealBand := s.ftl.sealBand ++ (sealData s).map (fun x => { x with data := stagedRaw s x, enc := true }), staged := [],
      summary := if summaryOk then some sum else none,
      dies := s.ftl.dies.map (fun e => (e.1, { e.2 with running := none })) },
    mon := { s.mon with sealLog := if snapshotOk then some (s.mon.blots.take 512, getF s LOG_NEXT_SEQ) else none },
    mode := { s.mode with unclean := !summaryOk, lostFrom := (s.chain.lastSealed.map (· + 1)).getD 0 } })

/-- SEAL_END (R211, R215, R216): the strokes are committed, the closing flourish is signed, the Inkwell's content stands in the
SEAL band. `clear` says that every source has been clear for 10 ms, the others whether the summary and the snapshot passed
program. -/
def execSealEnd (frac : Nat) (clear summaryOk snapshotOk : Bool) (s : State) : Result :=
  let s := atFrac frac s
  .next (if s.mode.cur != .seal then s
    else
      let s1 := sealLand summaryOk snapshotOk (signPending (fixFlourish true (sealCommit s.chain.closed.length s)))
      let s2 := if clear then reboot .computeGood s1.mode.bootCause (getF s1 GLB_MODE_CAUSE) (setF PWR_PFAIL_LEVEL 1 s1)
        else enterMode .halt { s1 with fns := [], numVfs := 0, mode := { s1.mode with stage := .up, cold := d3cold s } }
      if s.mode.perstSeal then holdPerst s2 else s2)

/-! ### Power-up and loss of always-on power (R419, R440, R462, R463) -/

/-- The always-on log is not valid (R440): it is restored from the SEAL band's snapshot, or starts empty. -/
def restoreLog (s : State) : State :=
  if !s.mode.aonLost then s
  else
    match s.mon.sealLog with
    | some (bs, next) =>
      blot 0x0002 1 0 (le 4 bs.length) (setF LOG_STATUS_RESTORED 1 (setF LOG_STATUS_ENTRIES bs.length (setF LOG_NEXT_SEQ next
        { s with mon := { s.mon with blots := bs } })))
    | none => blot 0x0003 2 0 [] { s with mon := { s.mon with blots := [] } }

/-- ALWAYS_ON_POWER_APPLIED (R413, R419): BOOT, with every request low until the reset ends. -/
def execAlwaysOnPowerApplied (s : State) : Result :=
  .next (if s.mode.stage != .off then s
    else
      setF GLB_RESET_CAUSE_BOOTS 0 (reboot .alwaysOn 1 0x0B s))

/-- ALWAYS_ON_RESET_END (R462): 2 ms after the supplies. -/
def execAlwaysOnResetEnd (s : State) : Result :=
  .next (if s.mode.stage != .alwaysOn then s
    else setReqs 1 (restoreLog { s with mode := { s.mode with stage := .resetDone } }))

/-- COMPUTE_RAILS_GOOD (R462): the compute die leaves reset. -/
def execComputeRailsGood (s : State) : Result :=
  .next (if s.mode.stage != .resetDone then s else setReqs 7 { s with mode := { s.mode with stage := .computeGood } })

/-- POWER_UP_TIMEOUT (R462): 50 ms without the compute rails. -/
def execPowerUpTimeout (s : State) : Result :=
  .next (if s.mode.stage != .resetDone then s
    else enterMode .halt { s with mode := { s.mode with stage := .up } })

/-- The part of the ink log that has passed program, in bytes from its start (R187). -/
def inkDurable (s : State) : Nat :=
  s.ftl.staged.foldl (fun a x => if x.kind = .inkLog then min a (x.pos * 4096) else a) (s.chain.inkAddr - s.chain.inkTail.length)

/-- The committed strokes that the mount will find after an unclean stop (R226, R231). -/
def rootsFound (s : State) : List StrokeRoot :=
  s.chain.roots.filter (fun r => r.inkAddr + (strokeInk r).length ≤ inkDurable s)

/-- Supply is gone without SEAL: what only the Inkwell held is lost, and the chain ends at the last stroke found (R231). The records
that wait for the first sealed stroke are not discarded (R474). -/
def dropPower (s : State) : State :=
  let roots := rootsFound s
  let last := roots.getLast?
  let fl := s.chain.flourishes.filter (fun f => roots.any (fun r => r.recs.any (fun x => x.bytes == f.2)))
  let n := match last with
    | some r => r.n + 1
    | none => 0
  let end_ := match last with
    | some r => r.inkAddr + (strokeInk r).length
    | none => 0
  { s with
    ftl := { s.ftl with
      staged := [], journalNew := [], journal := s.ftl.journal.filter (·.passed),
      bands := s.ftl.bands.map (fun e => (e.1, { e.2 with
        intent := e.2.intent && s.ftl.journal.any (fun j => j.rec_ == .eraseIntent e.1 && j.passed) })), dies := s.ftl.dies.map (fun e => (e.1, { e.2 with
      queue := [], backlog := [], running := none, suspended := none, timeoutAt := none })) },
    chain := { s.chain with
      roots := roots, flourishes := fl, closed := [], openRecs := [], openParts := [], inkTail := [],
      inkAddr := end_, noOpen := true, flPending := [], lastSealed := last.map (·.n), genesis := last.isSome,
      lastC := (last.map (·.c)).getD [], lastHash := (last.map (·.hashSel)).getD s.chain.lastHash,
      rseq := s.chain.held.foldl (fun a r => max a (r.rseq + 1)) ((last.map (fun r => r.rseq + 1)).getD 1), genRseq := if last.isSome then none else some 0,
      streams := roots.foldl (fun m r => r.leaves.foldl (fun m2 l => mset m2 l.stream (r.n, l.leaf)) m) [],
      flIndex := fl.length, fdPrev := (fl.getLast?.map (fun f => f.1.fd)).getD [],
      flFrom := (roots.find? (fun r => !fl.any (fun f => f.1.first ≤ r.n && r.n ≤ f.1.last))).map (·.n) },
    mode := { s.mode with unclean := true, lostFrom := n } }

/-- A mode in which the stop is orderly, or nothing on the media has changed since the last one (R221, R231). -/
def Mode.settled (m : Mode) (mounted : Bool) : Bool :=
  match m with
  | .halt | .hibernate | .safe => true
  | .boot => !mounted
  | _ => false

/-- ALWAYS_ON_POWER_LOST (R420, R437, R463): retained state is lost, and outside HALT and HIBERNATE the stop is unclean. -/
def execAlwaysOnPowerLost (s : State) : Result :=
  .next (if s.mode.stage == .off then s
    else
      let s0 := if s.mode.cur = .halt then s else inkDrop (s.mode.cur == .seal) s
      let s1 := if s.mode.cur.settled s.mode.mounted then s0 else dropPower s0
      let s2 : State := { s1 with
        regs := s1.regs.filter (fun e => !(0x04000 ≤ e.1 && e.1 < 0x05000)),
        mon := { s1.mon with blots := [], blotTotal := 0, queue := [] },
        time := { s1.time with stroke := 0, frac := 0, onOscillator := false },
        ftl := { s1.ftl with losses := [], lossId := 0 },
        mode := { s1.mode with aonLost := true } }
      let s3 := enterMode .halt s2
      { s3 with mode := { s3.mode with stage := .off } })

end Sys2Proof.Machine
end

