-- ==== Sys2Proof/Machine/Mount.lean ====
section
/-!
DEFINITION. Bring-up of the media and the DRAM, and the mount that ends BOOT (spec/08_flash_media.md R162 to R164,
spec/15_dram_and_memory_integrity.md R345 to R347, spec/10_power_loss_and_recovery.md R218, R219, R226 to R232).
-/

namespace Sys2Proof.Machine

/-! ### SAFE -/

/-- BOOT ends in SAFE (R413, R417): functions that were enabled become ready, and the capacity is that of the media found (R94). -/
def enterSafe (cause : Nat) (s : State) : State :=
  let s1 := modeRec s.mode.cur.code 2 cause 0xFF [] (setCause cause s)
  setCapacity (readyAll (enterMode .safe { s1 with mode := { s1.mode with stage := .up, bootSafe := false, fetchStop := false } }))

/-! ### Bring-up of the channels (R162 to R164) -/

/-- Faults that fence a whole channel (R163). -/
def channelFault (code : Nat) : Bool := (1 ≤ code && code ≤ 5) || code == 8

/-- A channel on which nothing is observed: no LUN answers. -/
def silentChannel (c : Nat) : ChanUp :=
  { channel := c, stuck := [], joined := [], silent := [], control := true, luns := [], trains := [] }

/-- The parameter page that a LUN is accepted with: two of its three copies agree and have a correct CRC (R162). -/
def acceptedPage (l : LunUp) : Option DieParam :=
  let good := ((l.copies.take 3).filter (·.1)).map (·.2)
  good.find? (fun p => 2 ≤ (good.filter (· == p)).length)

/-- The maximum accepted of each time, in nanoseconds (R167). -/
def timeLimits : List Nat := [200000, 400000, 10000000, 30000000, 100000, 100000, 1000, 400, 1000, 400, 10000]

/-- A die that the part supports: the page (R160) and the times (R167) that it declares. -/
def supportedPage (p : DieParam) : Bool :=
  16384 ≤ p.data && 1760 ≤ p.spare && p.times.length == 11 && (p.times.zip timeLimits).all (fun e => e.1 ≤ e.2)

def lunOf (u : ChanUp) (i : Nat) : Option LunUp := (u.luns.find? (fun e => e.1 == i)).map (·.2)

/-- The chip enables on which a unique ID answers. -/
def cesOf (u : ChanUp) (uid : Nat) : List Nat :=
  (List.range 4).filter (fun ce => u.luns.any (fun e => e.1 / 4 == ce && e.2.uid == uid))

/-- The dies of a chip enable. -/
def ceMask (ce : Nat) : Nat := 15 * 16 ^ ce

/-- Faults of the line test and of the patterns (steps 1 and 2): code, LINE and the dies fenced (R163). -/
def lineFaults (expect : Nat) (u : ChanUp) : List (Nat × Nat × Nat) :=
  u.stuck.map (fun l => (1, l, 0xFFFF)) ++ u.joined.map (fun l => (2, l, 0xFFFF)) ++ u.silent.map (fun l => (3, l, 0xFFFF)) ++
    (if !u.control || (expect != 0 && u.luns.isEmpty) then [(4, 0, 0xFFFF)] else [])

/-- Chip enables that answer with one another's unique ID. -/
def ceFaults (u : ChanUp) : List (Nat × Nat × Nat) :=
  let shared := (u.luns.map (fun e => cesOf u e.2.uid)).eraseDups
  if shared.any (fun l => l.length == 4) then [(5, 0, 0xFFFF)]
  else (shared.filter (fun l => 2 ≤ l.length)).map (fun l => (6, l.headD 0, (l.map ceMask).sum))

/-- Expected chip enables and LUNs that do not answer, and dies whose parameter page fails or declares what the part does not take. -/
def lunFaults (expect : Nat) (u : ChanUp) : List (Nat × Nat × Nat) :=
  (List.range 4).flatMap (fun ce =>
    let mine := (List.range 4).map (ce * 4 + ·)
    if mine.all (fun i => (lunOf u i).isNone) then (if expect / 16 ^ ce % 16 = 0 then [] else [(7, ce, ceMask ce)])
    else (mine.filter (fun i => bitAt expect i && !((lunOf u i).bind acceptedPage).any supportedPage)).map (fun i => (7, ce, 2 ^ i)))

/-- The rate at which a channel trains: the highest that MED_CFG.MAX_RATE, the rates declared and the training allow (R158). -/
def trainedRate (max_ : Nat) (u : ChanUp) : Option Nat :=
  let top := (u.luns.filterMap (fun e => (acceptedPage e.2).map (·.rate))).foldl min max_
  (List.range (top + 1)).foldl (fun a r => if u.trains.contains r then some r else a) none

/-- What bring-up finds on a channel: the faults of steps 1 to 3, and of step 5 where they leave the channel in use. -/
def chanFaults (expect max_ : Nat) (u : ChanUp) : List (Nat × Nat × Nat) :=
  let a := lineFaults expect u
  if !a.isEmpty then a
  else
    let b := ceFaults u ++ lunFaults expect u
    if b.any (fun f => channelFault f.1) || expect = 0 || (trainedRate max_ u).isSome then b else b ++ [(8, 0, 0xFFFF)]

/-- The members of a die that a band still holds. -/
def heldMembers (d : Nat) (s : State) : List Nat := s.ftl.bands.filterMap (fun e => mget e.2.members d)

/-- A die that enters use: its erased members are those that are neither retired nor in a band (R164, R187). -/
def usableDie (d : Nat) (s : State) : Die :=
  let all := List.range (Config.membersPerDie d)
  let units := some (Config.membersPerDie d * Config.bandRows * slotCws d)
  match mget s.ftl.dies d with
  | none => { freeMembers := all, factoryBad := Config.factoryBlocks d, units := units }
  | some y =>
    if y.st = 1 then { y with units := units }
    else { y with st := 1, fence := 0, units := units,
                  freeMembers := all.filter (fun m => !y.retired.contains m && !(heldMembers d s).contains m) }

def putDie (d : Nat) (x : Die) (s : State) : State := { s with ftl := { s.ftl with dies := mset s.ftl.dies d x } }

/-- A band lets go of a member of a cleared die that holds nothing valid: its slots are gone, and its codewords with them (R164). -/
def leaveBand (d : Nat) (s : State) (e : Nat × Band) : State :=
  let b := e.2
  if (mget b.members d).isNone || (bandValid s b).any (fun u => u.1 == d) then s
  else
    let mine (t : Slot) : Bool := t.die == d
    let kept := ((mget s.ftl.media d).getD []).filter (fun c =>
      !b.slots.any (fun t => mine t && t.unit ≤ c.1 && c.1 < t.unit + slotCws d))
    let b1 := { b with members := merase b.members d, dies := b.dies.filter (· != d),
                       slots := b.slots.map (fun t => if mine t && t.st != .voided then { t with st := .gone } else t) }
    { s with ftl := { s.ftl with
        media := mset s.ftl.media d kept,
        bands := if b1.members.isEmpty then merase s.ftl.bands e.1 else mset s.ftl.bands e.1 b1 } }

/-- A die that host software cleared enters use as empty capacity (R164). What it still holds of valid data stays readable in its place
until the die rebuild has moved it (notes/assumptions/145). -/
def clearDie (d : Nat) (s : State) : State :=
  let s1 := s.ftl.bands.foldl (leaveBand d) s
  putDie d (usableDie d s1) s1

/-- One die after bring-up: `faults` are those found now, `old` the dies of the fence list, `cleared` those taken off it. -/
def bringUpDie (u : ChanUp) (faults : List (Nat × Nat × Nat)) (old cleared : Nat) (s : State) (i : Nat) : State :=
  let d := u.channel * 16 + i
  let x := (mget s.ftl.dies d).getD { st := 0 }
  match faults.find? (fun f => bitAt f.2.2 i) with
  | some f => if bitAt old i then putDie d { x with st := 3 } s else isolateDie d 2 f.1 (putDie d x s)
  | none =>
    if !bitAt (getF s (MED_POP_EXPECT u.channel)) i then putDie d { x with st := 0 } s
    else if bitAt old i then putDie d { x with st := 3 } s
    else if bitAt cleared i then clearDie d s
    else putDie d (usableDie d s) s

/-- The operations of bring-up: RESET of every chip enable, IDENT of every LUN, and FEATURES of those that answer, with the interface
and the rate (R158, R162). -/
def bringUpOps (c proto rate : Nat) (u : ChanUp) (s : State) : State :=
  let s1 := (List.range 4).foldl (fun a ce => emit (.nand c (c * 16 + ce * 4) 8 0) a) s
  let s2 := (List.range 16).foldl (fun a i => emit (.nand c (c * 16 + i) 10 0) a) s1
  u.luns.foldl (fun a e => emit (.nand c (c * 16 + e.1 % 16) 9 (proto * 16 + rate)) a) s2

/-- Bring-up of a channel. The protocol is that of MED_CFG.PROTO at BOOT (R181). -/
def bringUpChannel (u : ChanUp) (s : State) : State :=
  let c := u.channel
  let boot := s.mode.cur == .boot
  if (if boot then !flagF s (MED_CFG_ENABLE c) else (getDie s (c * 16)).st == 4) then
    (List.range 16).foldl (fun a i => putDie (c * 16 + i) { getDie a (c * 16 + i) with st := 4 } a) s
  else
    let proto := if boot then getF s (MED_CFG_PROTO c) else (getChan s c).proto
    let before := getF s (MED_FENCE_DIES c)
    let clear := boot && flagF s (MED_FENCE_CLEAR_REQ c)
    let s1 := if clear then
        setF (MED_FENCE_CLEAR_REQ c) 0 (setF (MED_FENCE_DIES c) 0 { s with ink := { s.ink with storedAt := some (now s) } })
      else s
    let old := getF s1 (MED_FENCE_DIES c)
    let max_ := getF s (MED_CFG_MAX_RATE c)
    let faults := chanFaults (getF s (MED_POP_EXPECT c)) max_ u
    let dead := faults.any (fun f => channelFault f.1)
    let rate := if dead then none else trainedRate max_ u
    let s2 := faults.foldl (fun a f => setF (MED_FAULT_CODE c) f.1 (setF (MED_FAULT_LINE c) f.2.1
      (blot 0x0401 2 c (le 1 f.1 ++ le 1 f.2.1 ++ le 2 f.2.2) a))) (bringUpOps c proto (rate.getD 15) u s1)
    let s3 := setF (MED_STATUS_RATE c) (rate.getD 15) (setF (MED_STATUS_TRAINED c) (bit rate.isSome)
      (setF (MED_STATUS_PRESENT c) ((List.range 16).foldl (fun a i => if (lunOf u i).isSome then a + 2 ^ i else a) 0)
        (setF (MED_STATUS_CH_FENCED c) (bit dead) s2)))
    let s4 := { s3 with ftl := { s3.ftl with chans := mset s3.ftl.chans c { proto := proto, temp := chanTemp s c, ces := [] } } }
    settleOps ((List.range 16).foldl (bringUpDie u faults old (if clear then before else 0)) s4)

/-! ### DRAM (R345 to R347) -/

/-- A total that R345 accepts, as DRM_CFG.SIZE codes it. -/
def dramSize (gib : Nat) : Option Nat :=
  match gib with
  | 8 => some 0
  | 16 => some 1
  | 32 => some 2
  | 64 => some 3
  | _ => none

/-- Population and training; true where BOOT is to end in SAFE. -/
def trainDram (d : DramUp) (s : State) : State × Bool :=
  match (dramSize d.gib).filter (fun _ => d.alike) with
  | none => (blot 0x0604 3 0 [] s, true)
  | some z =>
    let s1 := setF DRM_CFG_SIZE z (setF DRM_CFG_RANKS2 (bit d.ranks2) (setF DRM_CFG_VENDOR d.vendor
      (setF DRM_STATUS_AVAIL 15 (setF DRM_STATUS_POINT 3 s))))
    let s2 := d.failed.foldl (fun a f => setF DRM_STATUS_AVAIL (setBits (getF a DRM_STATUS_AVAIL) (f.2 % 4) (f.2 % 4) 0)
      (blot 0x0604 3 f.1 (le 1 f.2) a)) s1
    ({ s2 with dram := { s2.dram with lastTrain := now s } }, d.failed.any (fun f => f.2 == 3))

/-- MEDIA_BRINGUP_START (R306, R462): at BOOT, and at the return from HIBERNATE. `rawGib` is the raw NAND that the parameter
pages give, `entropyOk` the result of the entropy health test of BOOT. The boot copy
comes first (R381). -/
def execMediaBringupStart (chans : List ChanUp) (dram : DramUp) (rawGib : Nat) (entropyOk : Bool) (s : State) : Result :=
  .next (if s.mode.stage != .computeGood || (s.mode.cur == .boot && flagF s FWU_STATUS_COPY_DUE) then s
    else
      let s0 := if s.mode.cur = .boot then setF CIP_STATUS_DRBG_OK (bit entropyOk) s else s
      let s := { s0 with ftl := { s0.ftl with rawGib := rawGib } }
      let s1 := (List.range 16).foldl (fun a c =>
        bringUpChannel ((chans.find? (fun u => u.channel == c)).getD (silentChannel c)) a) s
      let r := trainDram dram s1
      if s.mode.cur != .boot then { r.1 with mode := { r.1.mode with stage := .up } }
      else if r.2 then enterSafe 0x0C r.1
      else if s.mode.bootSafe then enterSafe 2 r.1
      else showClocks { r.1 with mode := { r.1.mode with stage := .bringUp } })

/-! ### PREDICT_US and ENERGY_MJ (R218, R219) -/

/-- Record rounds for the fixed part: 256 KiB of stream-0 records, two stroke roots of 4,097 leaves, the closing flourish, and
parity (notes/assumptions/42). -/
def recordRounds (s : State) : Nat :=
  let w := getF s FTL_CFG_WIDTH
  let bytes := 262144 + 2 * (232 + 4097 * entrySize s.chain.hashSel) + 416
  max 1 (ceilDiv (bytes * (w + 1)) (max 1 (w * 65536 * (usableDies s).length)))

def predictUs (s : State) : Nat :=
  let slc := (usableDies s).foldl (fun a d => max a (Config.slcProgUs d)) 0
  2100 + (8 + recordRounds s) * max 400 (slc + 20)

def energyMj (s : State) : Nat := ceilDiv (12 * max 6000 (predictUs s) * 10240 + 86875 * (effLimitKib s + 2048)) 10240000

def showSeal (s : State) : State :=
  setF PWR_SEAL_EFF_LIMIT_KIB (effLimitKib s) (setF PWR_SEAL_PREDICT_US (min 65535 (predictUs s))
    (setF PWR_SEAL2_ENERGY_MJ (min 65535 (energyMj s)) s))

/-! ### The mount (R226, R227, R231) -/

/-- Units of a namespace on the media, at their first codewords: LBA, SEQ, die, codeword. -/
def scannedUnits (s : State) (nsid : Nat) : List (Nat × Nat × Nat × Nat) :=
  s.ftl.media.flatMap (fun e => e.2.filterMap (fun c =>
    let cw := c.2
    let again := c.1 != 0 && (mget e.2 (c.1 - 1)).any (fun p => p.nsid == cw.nsid && p.lba == cw.lba && p.seq == cw.seq)
    if cw.nsid == nsid && (cw.kind == .plain || cw.kind == .sealed) && !again then some (cw.lba, cw.seq, e.1, c.1) else none))

/-- The SEQ high-water of the last committed stroke, from the STROKE and CHECKPOINT records found (R222, R231). -/
def highWater (s : State) : Nat :=
  s.ftl.journal.foldl (fun a e => match e.rec_ with
    | .stroke n q _ => if n ≤ s.mode.lostFrom then max a q else a
    | .checkpoint n q _ _ _ _ _ _ => if n ≤ s.mode.lostFrom then max a q else a
    | _ => a) 0

/-- The candidate with the highest SEQ not above the high-water (R227, R231). -/
def bestUnit (hw : Nat) : List (Nat × Nat × Nat × Nat) → Option (Nat × Nat × Nat × Nat)
  | [] => none
  | c :: t => match bestUnit hw t with
    | none => if c.2.1 ≤ hw then some c else none
    | some b => if c.2.1 ≤ hw && b.2.1 < c.2.1 then some c else some b

/-- The map and the write pointer of a namespace after an unclean stop: what the high-water covers (R231). -/
def rollbackNs (s : State) (hw nsid : Nat) (x : Ns) : Ns :=
  let us := scannedUnits s nsid
  let found (u : Nat) : Option Loc :=
    (bestUnit hw (us.filter (fun c => c.1 / x.unitBlocks == u && x.born < c.2.1))).map (fun c => .media c.2.2.1 c.2.2.2)
  let loc (e : Nat × Loc) : Option Loc := match e.2 with
    | .inkwell id => if s.ftl.sealBand.any (fun y => y.id == id && y.seq ≤ hw) then some e.2 else found e.1
    | .media d c => if (mediaAt s d c).any (fun y => y.seq ≤ hw) then some e.2 else found e.1
    | .zeroed => some e.2
  let runs := x.runs.filter (fun r => r.stroke < s.mode.lostFrom)
  { x with
    map := x.map.filterMap (fun e => (loc e).map (fun l => (e.1, l))), runs := runs, tail := [],
    wp := if x.sealed then runs.foldl (fun a r => max a (ceilDiv (r.pos + r.size) x.blk)) 0 else x.wp }

/-- Namespaces that an unclean stop reports: those of the uncommitted map, or every one if always-on power was lost too. -/
def reportedNs (s : State) : List Nat :=
  if s.mode.aonLost then s.nss.map (·.1)
  else (s.mode.uncommitted.filter (fun e => s.mode.lostFrom ≤ e.2 && mhas s.nss e.1)).map (·.1)

/-- The log C2h entry and LOSS record of R231; the blocks of the namespace count as lost. -/
def reportLost (nsid : Nat) (s : State) : State :=
  match getNs s nsid with
  | none => s
  | some x =>
    let s1 := deferredError { id := 0, nsid := nsid, fn := 0, sqid := 0, lba := 0, count := 0xFFFFFFFF, cid := 0xFFFF, cause := 3,
                              sealed := x.sealed, doneAt := 0, stroke := s.mode.lostFrom } s
    updNs nsid (fun y => { y with lost := [(0, if y.sealed then y.wp else y.nsze)] }) s1

def uncleanMount (s : State) : State :=
  let hw := highWater s
  let s1 := { s with
    nss := s.nss.map (fun e => (e.1, rollbackNs s hw e.1 e.2)),
    ftl := { s.ftl with sealBand := s.ftl.sealBand.filter (fun y => y.seq ≤ hw) } }
  (reportedNs s).foldl (fun a n => reportLost n a) s1

/-- The SEAL band's content is copied into ordinary bands, and what was in flight at the stop is placed again (R226). -/
def restoreBands (s : State) : State :=
  let void (b : Band) : Band :=
    { b with slots := b.slots.map (fun t => if t.st == .filled && !t.parity then { t with st := .voided } else t) }
  let s1 := { s with
    ftl := { s.ftl with
      staged := s.ftl.sealBand.map (fun (y : Staged) => { y with placed := false }), sealBand := [], summary := none,
      bands := s.ftl.bands.map (fun (e : Nat × Band) => (e.1, void e.2)) } }
  s1.ftl.bands.foldl (fun (a : State) (e : Nat × Band) => (List.range (e.2.stripe + 1)).foldl (fun b r => queueParity e.1 r b) a) s1

/-- The mode that BOOT ends in, and its cause (R409, R413). -/
def mountMode (s : State) : Mode × Nat :=
  if s.mode.sanitizePaused.isSome then (.sanitize, 7) else (if s.mode.readOnlyCond then .readOnly else .run, 0x0D)

/-- The stroke in which the device goes on counting (R36). -/
def mountCount (s : State) : State :=
  if s.time.bootWait || s.chain.lastSealed.any (fun n => s.time.stroke ≤ n) then
    { s with time := { s.time with stroke := bootCount s, bootWait := false } }
  else s

/-- The base mode begins: the first sealed stroke opens with the MODE record, the boot anchor, and a span record for the strokes
that were not sealed (R41, R231, R232, R410). -/
def startSealing (s : State) : State :=
  let m := mountMode s
  let s1 := openNow (enterMode m.1 { s with
    mode := { s.mode with
      mounted := true, fetchStop := false, sanitizeState := s.mode.sanitizePaused.getD s.mode.sanitizeState, sanitizePaused := none } })
  let s2 := anchorRec 5 0 (modeRec 1 m.1.code m.2 0xFF [] (setCause m.2 s1))
  if spanCount s2 = 0 then s2 else spanRec s2

/-- FTL_CFG as the journal gives it; on media that holds no journal the defaults 16 and 4 (R209). -/
def loadCfg (s : State) : State :=
  if s.ftl.formatted then s else setF FTL_CFG_WIDTH 16 (setF FTL_CFG_RESERVE 4 s)

/-- The PNC registers show the chain that the mount has found (R156). -/
def showChain (s : State) : State :=
  let n := s.chain.lastSealed.getD 0
  let k := s.chain.flIndex - 1
  setF PNC_SEALED_LO_STROKE (n % 2 ^ 32) (setF PNC_SEALED_HI_STROKE (n / 2 ^ 32 % 65536)
    (setF PNC_FLOURISH_LO_INDEX (k % 2 ^ 32) (setF PNC_FLOURISH_HI_INDEX (k / 2 ^ 32 % 2 ^ 32) s)))

/-- What the mount does once the media has been read. -/
def finishMount (s0 : State) : State :=
  let s := loadCfg s0
  let s1 := if s.mode.unclean then uncleanMount s else s
  let s2 := mountCount (restoreBands { s1 with
    mode := { s1.mode with unclean := false, uncommitted := [], aonLost := false, stage := .up },
    ing := { s1.ing with paused := false, flows := s1.ing.flows.map (fun e => (e.1, { e.2 with left := strokeBytes s1 e.2 })) } })
  let s3 := startSealing (s2.ftl.rebuildDie.foldl (fun a d => settleOps (startDieRebuild d a)) (sieveBoot (setF CIP_STATUS_MEDIA_KEYS 1 (setF FTL_STATUS_REBUILD (bit (!s2.ftl.rebuildDie.isEmpty)) (showSeal (showChain (latchQos (checkQos (setCapacity s2)))))))))
  readyAll (showFns (place (requestPoint (modePoint s3 s3.mode.cur) s3)))

/-- The namespaces of NB5210 media, not ready until the scan has ended (R69, R229). -/
def oldNs (s : State) (n : Nat × Nat × Nat) : State :=
  { s with nss := mset s.nss n.1 { sealed := false, nsze := n.2.2, ncap := n.2.2, blk := n.2.1, busy := .converting } }

/-- MOUNT_COMPLETE (R226, R229): the device leaves BOOT. -/
def execMountComplete (frac : Nat) (media : MountMedia) (s : State) : Result :=
  let s := atFrac frac s
  .next (if s.mode.cur != .boot || s.mode.stage != .bringUp || (s.time.bootWait && s.time.src != 0) then s
    else match media with
    | .native =>
      let s1 := finishMount s
      if s1.ftl.formatted then s1
      else { s1 with ftl := { s1.ftl with formatted := true, poolFirst := (sparePool s1).toNat } }
    | .nb5210 gib nss =>
      if s.ftl.formatted then s
      else if 8192 < gib then enterSafe 0x0C (blot 0x0802 3 0 (le 4 gib) s)
      else finishMount (nss.foldl oldNs s))

/-! ### The conversion of NB5210 media (R229) -/

/-- One unit of old data stays in place; the map names it. -/
def adoptUnit (s : State) (u : OldUnit) : State :=
  match getNs s u.nsid with
  | none => s
  | some x =>
    let y : Staged := { id := 0, kind := .plain, nsid := u.nsid, lba := u.unit * x.unitBlocks, seq := s.ftl.seq + 1,
                        data := fixLen x.unitBytes u.data, stroke := s.time.stroke }
    updNs u.nsid (fun n => { n with map := mset n.map u.unit (.media u.die u.cw) }) (writeCws u.die u.cw (codewordsOf s y) (bumpSeq s))

/-- The closed plain band of the members with one number that hold old data. -/
def adoptBand (units : List OldUnit) (s : State) (m : Nat) : State :=
  let mine := units.filter (fun u => memberOf u.die u.cw == m)
  let dies := mine.foldl (fun a u => insertNat u.die a) []
  let keys := (mine.map (fun u => (u.die, u.cw / slotCws u.die))).eraseDups
  let slots : List Slot := keys.map (fun k => {
    die := k.1, unit := k.2 * slotCws k.1, row := 0, parity := false, items := [], st := .passed })
  let b : Band := { kind := .plain, copy := false, feed := 0, dies := dies, members := dies.map (fun d => (d, m)), isOpen := false,
                    closedAt := s.time.stroke, slots := slots }
  let s1 := dies.foldl (fun a d => updDie d (fun x => { x with freeMembers := x.freeMembers.filter (· != m) }) a) s
  journalAdd (.band s1.ftl.nextBand .plain dies false)
    { s1 with ftl := { s1.ftl with bands := mset s1.ftl.bands s1.ftl.nextBand b, nextBand := s1.ftl.nextBand + 1 } }

/-- NB5210_SCAN_COMPLETE: the namespaces become plain namespaces, and the checkpoint that converts the media is due. Adopting them does
not end the provisional chain; the first Namespace Management create does (R135): DESIGN CHOICE (notes/assumptions/142). -/
def execNb5210ScanComplete (units : List OldUnit) (s : State) : Result :=
  let old := (s.nss.filter (fun e => e.2.busy == .converting)).map (·.1)
  .next (if old.isEmpty || !s.mode.cur.seals then s
    else
      let mine := units.filter (fun u => old.contains u.nsid)
      let s1 := mine.foldl adoptUnit s
      let s2 := ((mine.map (fun u => memberOf u.die u.cw)).eraseDups).foldl (adoptBand mine) s1
      let s3 := old.foldl (fun a n => journalAdd (.nspace n) (namespaceRec n 0 0 (updNs n (fun x => { x with busy := .none }) a))) s2
      { s3 with ftl := { s3.ftl with formatted := true, poolFirst := (sparePool s3).toNat, sinceCheckpoint := 64 } })

end Sys2Proof.Machine
end

