-- ==== Sys2Proof/Machine/AdminGate.lean ====
section
/-!
DEFINITION. What every admin command shares (spec/04_command_queueing.md R73, R87, R88, spec/05 R105, spec/18 R417): its fetch
and the checks that precede its own.
-/

namespace Sys2Proof.Machine

/-- A transition of the function, its reset among them, has been accepted and not committed: its admin queue answers STATE_PENDING
(R105, R106). -/
def fnPending (s : State) (f : Nat) : Bool :=
  (getFn s f).flr.isSome || s.trans.any (fun t => t.unit == .func f && (t.kind == .online || t.kind == .offline))

/-- What an admin command asks for: it is one of R73, which only the PF sends; SAFE serves it (R381, R417); NSID must be 0; the
bytes of its data transfer. -/
structure AdminRow where
  pfOnly : Bool := false
  safeOk : Bool := false
  nsid0 : Bool := false
  len : Nat := 0
  /-- The head carries the command out for its proxies itself: the queues of a proxy are its own (R398; notes/assumptions/61). -/
  atHead : Bool := false
  /-- NSID names a namespace that the command acts on or reads (R84). -/
  toNs : Bool := false
  /-- Bytes that the host has returned for the transfer, where the command takes data (R87). -/
  got : Option Nat := none

/-- The first check of R73, R87, R88, R106 and R417 that refuses an admin command. -/
def adminError (r : AdminRow) (q : Sqe) (s : State) : Option Status :=
  firstError [
    (s.mode.cur == .safe && !r.safeOk, .commandSequenceError),
    (q.badOpcode || (r.pfOnly && q.fn != 0), .invalidOpcode),
    (badEntry q || q.xfer.psdt != 0 || (r.nsid0 && q.nsid != 0), .invalidField),
    (r.len != 0 && (xferError q.xfer true r.len).isSome, .prpOffsetInvalid),
    (fnPending s q.fn, .statePending),
    (r.got.any (· < r.len), .dataTransferError)]

/-- The command itself, once it has been fetched. -/
def adminRun (r : AdminRow) (q : Sqe) (k : State → State) (s : State) : State :=
  match adminError r q s with
  | some st => done q st 0 0 s
  | none => if r.toNs && deferredHit s q then done q .deferredMedia 0 0 (takeDeferred q s) else k s

/-- An admin entry is fetched from queue 0 and runs; a proxy's goes to its follower (R398). -/
def adminFetch (r : AdminRow) (q : Sqe) (k : State → State) (s : State) : Result :=
  .next (if q.sqid = 0 && canFetch s q.fn 0 && queueTurn s q.fn 0 then
      (match if r.atHead then none else proxyOf s q.fn with
      | some d => toFollower d q.fn 0 q.cid q.nsid (takeEntry q.fn 0 s)
      | none => adminRun r q k (takeEntry q.fn 0 s))
    else s)

/-- Data that an admin command returns: to the host, or in the answer of the management endpoint (R104). -/
def adminData (q : Sqe) (data : Bytes) (s : State) : State :=
  if data = [] then s else if q.sqid = miQueue then emit (.mi 0 data) s else hostWrite q.fn q.cid data s

/-- The command completes, with data where it returns some. -/
def answer (q : Sqe) (data : Bytes) (dw0 : Nat) (s : State) : State := done q .success dw0 0 (adminData q data s)

end Sys2Proof.Machine
end

