-- ==== Sys2Proof/Machine/Modes.lean ====
section
/-!
DEFINITION. The mode machine (spec/18_modes_resets_power.md R407 to R420, spec/04 R82, R83, spec/15 R358): the power target, the
transitions that begin at a boundary and complete later, the orderly stop, wakes, PARK bursts, and the resets that commands and
faults ask for.
-/

namespace Sys2Proof.Machine

/-! ### The power target (R82, R409, R411, R412) -/

def baseMode (s : State) : Mode := if s.mode.readOnlyCond then .readOnly else .run

/-- The mode of a power state. -/
def psMode (s : State) : Nat → Mode
  | 0 => baseMode s
  | 1 => .lean
  | 2 => .park
  | 3 => .drowse
  | _ => .hibernate

/-- The power state that a mode stands for; 0 for the base mode and the modes of full power. -/
def Mode.ps : Mode → Nat
  | .lean => 1
  | .park => 2
  | .drowse => 3
  | .hibernate => 4
  | _ => 0

/-- The highest-power state that any online function requests. -/
def powerPs (s : State) : Nat := (allFns.filter (online s)).foldl (fun a f => min a ((getFn s f).feats.power % 32)) 4

def powerTarget (s : State) : Mode := psMode s (powerPs s)

/-- What last changed the power target: cause, function, note (R410). -/
def notePower (cause fn : Nat) (note : Bytes) (s : State) : State :=
  { s with mode := { s.mode with powCause := cause, powFn := fn, powNote := note } }

/-- One function's power state changes. -/
def setPower (f ps cause : Nat) (s : State) : State :=
  notePower cause f [] (updFn f (fun x => { x with feats := { x.feats with power := ps } }) s)

/-- Every online function's power state changes. -/
def setPowers (ps cause fn : Nat) (note : Bytes) (s : State) : State :=
  notePower cause fn note ((allFns.filter (online s)).foldl (fun a f =>
    updFn f (fun x => { x with feats := { x.feats with power := ps } }) a) s)

/-- The modes that the power target moves between. -/
def Mode.powered : Mode → Bool
  | .run | .readOnly | .lean | .park | .drowse | .hibernate => true
  | _ => false

/-- DROWSE and HIBERNATE: no stroke is sealed, the Inkwell is clean. -/
def Mode.deep : Mode → Bool
  | .drowse | .hibernate => true
  | _ => false

/-! ### Mode requests that wait (R411) -/

/-- The requests that satisfy `p` complete. -/
def completeReqs (p : Mode → Bool) (s : State) : State :=
  let go := s.mode.modeReqs.filter (fun r => p r.mode)
  let s1 := { s with mode := { s.mode with modeReqs := s.mode.modeReqs.filter (fun r => !p r.mode) } }
  go.foldl (fun a r => complete 0 r.sqid r.cid .success 0 0 a) s1

/-- A request for HALT or SAFE. -/
def Mode.stops : Mode → Bool
  | .halt | .safe => true
  | _ => false

/-! ### Beginning a transition (R408, R416) -/

/-- The Inkwell is made clean: what is held is laid out, tails are appended, slots are padded, stripe rows close short, the
journal and the ink log are staged. -/
def flushAll (s : State) : State :=
  placeForced (stageInk true (journalFlush (flushTails (layAll { s with ing := { s.ing with paused := true } }))))

/-- A transition begins at this boundary; a mode entry requests its DRAM point (R349). -/
def beginTrans (dest : Mode) (cause fn : Nat) (note : Bytes) (s : State) : State :=
  let s1 := { s with mode := { s.mode with
    target := dest, begunAt := some s.time.stroke, lastOp := if dest.deep && !s.mode.cur.deep then s.mode.cur else s.mode.lastOp,
    trans := some { dest := dest, cause := cause, fn := fn, note := note } } }
  requestPoint (modePoint s1 dest) s1

/-- The power target is entered: a lower state is prepared, and a return from HIBERNATE powers the compute die. -/
def beginPower (s : State) : State :=
  let dest := powerTarget s
  let s1 := completeReqs (fun m => !m.stops) (beginTrans dest s.mode.powCause s.mode.powFn s.mode.powNote s)
  if dest.deep && !s1.mode.cur.deep then flushAll s1
  else if s1.mode.cur = .hibernate then setReqs 1 { s1 with mode := { s1.mode with stage := .resetDone } }
  else s1

/-- One boundary long: RUN to READ-ONLY and back (R207), ACTIVATE, SANITIZE. The MODE record falls in the open stroke. -/
def switchMode (m : Mode) (cause : Nat) (s : State) : State :=
  let s1 := modeRec s.mode.cur.code m.code cause 0xFF [] (setCause cause s)
  let s2 := enterMode m { s1 with mode := { s1.mode with begunAt := some s1.time.stroke } }
  requestPoint (modePoint s2 m) s2

/-! ### The orderly stop (R417) -/

/-- Fetched commands have completed: the entry to HIBERNATE makes the Inkwell clean. -/
def advanceStop (s : State) : State :=
  if s.mode.stopping && quiet s && s.mode.cur.seals && !s.ing.paused then flushAll s else s

/-- The stop begins: fetch stops for every function, and the requests for it complete. -/
def beginStop (dest : Mode) (cause fn : Nat) (note : Bytes) (s : State) : State :=
  let s1 := completeReqs Mode.stops (beginTrans .halt cause fn note s)
  advanceStop { s1 with mode := { s1.mode with
    stopping := true, stop := some (dest, cause, fn, note), fetchStop := true, bootSafe := dest == .safe,
    sanitizePaused := if s1.mode.cur = .sanitize then some s1.mode.sanitizeState else s1.mode.sanitizePaused } }

/-- Modes in which an orderly stop can begin. -/
def Mode.stoppable : Mode → Bool
  | .seal | .boot | .halt => false
  | _ => true

/-- A transition may begin at this boundary: none runs, and none has begun here. -/
def mayBegin (s : State) : Bool := s.time.frac == 0 && s.mode.trans.isNone && s.mode.begunAt != some s.time.stroke

/-- The base modes and LEAN, from which ACTIVATE and SANITIZE are entered. -/
def Mode.working : Mode → Bool
  | .run | .readOnly | .lean => true
  | _ => false

/-- SANITIZE begins on the namespaces that the command has put under it. -/
def beginSanitize (action : Nat) (s : State) : State :=
  let s1 := switchMode .sanitize 7 s
  { s1 with mode := { s1.mode with wantSanitize := none, sanitizeState := action } }

/-- ACTIVATE begins: fetch stops, CSTS.PP reads 1 (R80, R379). -/
def beginActivate (s : State) : State :=
  let s1 := switchMode .activate 8 s
  { s1 with
    mode := { s1.mode with wantActivate := false, fetchStop := true, lastOp := if s.mode.cur = .lean then .lean else .run },
    fns := s1.fns.map (fun e => (e.1, { e.2 with pp := e.2.en })) }

/-- The wanted transition of the highest rank begins (R408). -/
def beginNext (s : State) : State :=
  if !mayBegin s then s
  else match s.mode.stop.filter (fun _ => !s.mode.stopping && s.mode.cur.stoppable) with
  | some t => beginStop t.1 t.2.1 t.2.2.1 t.2.2.2 s
  | none =>
    if s.mode.wantActivate && s.mode.cur.working then beginActivate s
    else match s.mode.wantSanitize.filter (fun _ => s.mode.cur.working) with
    | some a => beginSanitize a s
    | none =>
      if s.mode.cur = .run && s.mode.readOnlyCond then switchMode .readOnly 6 s
      else if s.mode.cur = .readOnly && !s.mode.readOnlyCond then switchMode .run 6 s
      else if s.mode.cur.powered then
        (if powerTarget s = s.mode.cur then completeReqs (fun m => !m.stops) s else beginPower s)
      else s

/-- MODE_TRANSITION_BEGIN (R408). -/
def execModeTransitionBegin (s : State) : Result := .next (beginNext s)

/-- ORDERLY_STOP (R417): the stop begins at a boundary, and its entry to HIBERNATE begins when the fetched commands are done. -/
def execOrderlyStop (s : State) : Result :=
  .next (if s.mode.stopping then advanceStop s
    else if mayBegin s && s.mode.cur.stoppable then
      (match s.mode.stop with
      | some t => beginStop t.1 t.2.1 t.2.2.1 t.2.2.2 s
      | none => s)
    else s)

/-- ORDERLY_STOP_DRAIN_TIMEOUT (R417): commands still outstanding are treated as by CC.EN 1 to 0. -/
def execOrderlyStopDrainTimeout (frac : Nat) (s : State) : Result :=
  let s := atFrac frac s
  .next (if s.mode.stopping then advanceStop (abandonCmds (fun _ _ => true) none s) else s)

/-! ### Completing a transition (R140, R374, R408, R410, R416) -/

/-- Every journal record stands on the media. -/
def finalCheckpoint (s : State) : State :=
  let s1 := journalAdd (checkpointRec s) s
  { s1 with ftl := { s1.ftl with
    journal := (s1.ftl.journal.map (fun e => { e with waits := [] })) ++ s1.ftl.journalNew.map (fun r => { rec_ := r }),
    journalNew := [], sinceCheckpoint := 0, journalBytes := 0 } }

/-- The record of entry falls in the last sealed stroke, which closes here and is committed with the strokes before it; a
flourish covers them (R140, R410, R416). -/
def closeChain (s : State) : State :=
  let s1 := closeStroke false s
  let s2 := sealCommit s1.chain.closed.length { s1 with chain := { s1.chain with noOpen := true } }
  let s3 := signPending (fixFlourish true s2)
  { s3 with chain := { s3.chain with inkTail := [] } }

/-- Graphs, cookies and key slots do not outlast HIBERNATE (R286, R420). -/
def dropObjects (s : State) : State := clearSlot 0 true (releaseAllGraphs { s with exports := [] })

/-- The MODE record of a transition, and GLB_MODE.CAUSE. -/
def transRec (t : ModeTrans) (s : State) : State :=
  modeRec s.mode.cur.code t.dest.code t.cause t.fn t.note (setCause t.cause s)

/-- Entry to DROWSE or HIBERNATE, from a mode that seals or from one another. HIBERNATE takes the DRAM's power, and with it the key-frame
indexes (R121, R416). -/
def enterDeep (t : ModeTrans) (s : State) : State :=
  let s1 := transRec t s
  let s2 := if s.mode.cur.seals then saveSettings (closeChain s1) else s1
  if t.dest = .drowse then
    let s3 := saveAllNodes s2
    enterMode .drowse { s3 with dram := { s3.dram with selfRefresh := true } }
  else
    let s3 := finalCheckpoint (dropObjects s2)
    enterMode .hibernate { s3 with
      dram := { s3.dram with selfRefresh := false },
      ing := { s3.ing with flows := s3.ing.flows.map (fun e => (e.1, { e.2 with index := [] })) } }

/-- The memory after DROWSE, at once at its mode's point and gathering; after HIBERNATE its training left point 3, and the
mode's point is requested (R346, R349, R350). -/
def wakeDram (old dest : Mode) (s : State) : State :=
  if old = .drowse then
    setF DRM_STATUS_POINT (servedPoint s (modePoint s dest)) (setF DRM_STATUS_PENDING 0 (setF DRM_STATUS_PENDING_POINT 0
      (setF DRM_STATUS_GATHERING 1 s)))
  else requestPoint (modePoint s dest) s

/-- Return from DROWSE or HIBERNATE to a mode that seals: the running stroke opens, with the record and the span anchor (R41,
R350, R410). -/
def leaveDeep (t : ModeTrans) (s : State) : State :=
  let old := s.mode.cur
  let s1 := enterMode t.dest s
  let s2 := openNow { s1 with
    ing := { s1.ing with paused := false }, dram := { s1.dram with selfRefresh := false } }
  let s3 := spanRec (modeRec old.code t.dest.code t.cause t.fn t.note (setCause t.cause s2))
  wakeDram old t.dest s3

/-- A transition between modes that seal; at the entry to PARK the held tails are appended, a flourish is written, the settings are
saved and the running nodes are saved (R119, R140, R281, R374). -/
def changeAwake (t : ModeTrans) (s : State) : State :=
  let s1 := transRec t s
  let s2 := if t.dest = .park then saveAllNodes (saveSettings (fixFlourish true (flushTails s1))) else s1
  enterMode t.dest (setF PWR_STATUS_BURST 0 s2)

/-- The stop is complete: HALT, or BOOT that ends in SAFE. -/
def finishStop (t : ModeTrans) (s : State) : State :=
  let s1 := transRec t s
  let s2 := if s.mode.cur.seals then saveSettings (closeChain s1) else s1
  let s3 := finalCheckpoint (dropObjects s2)
  let s4 := enterMode .halt { s3 with
    fns := [], numVfs := 0, mode := { s3.mode with stage := .up, stop := none, stopping := false, modeReqs := [], cold := d3cold s } }
  if s4.mode.bootSafe then reboot .resetDone 3 2 s4 else s4

/-- The transition that runs completes: an entry from a mode that seals once the Inkwell is clean, a return from HIBERNATE once
the DRAM is trained. -/
def finishTrans (s : State) : State :=
  match s.mode.trans with
  | none => s
  | some t =>
    if s.mode.stopping then
      (if quiet s && s.ftl.staged.isEmpty && (s.ing.paused || !s.mode.cur.seals) then finishStop t s else s)
    else if s.mode.cur = .hibernate && s.mode.stage != .up then s
    else
      let s1 :=
        if t.dest.deep then (if s.mode.cur.deep || s.ftl.staged.isEmpty then enterDeep t s else s)
        else if s.mode.cur.deep then leaveDeep t s
        else changeAwake t s
      if s1.mode.trans.isSome then s1 else resumeHeld (place (completeReqs (fun m => m == s1.mode.cur) s1))

/-! ### Commands that arrive (R75, R83) -/

/-- The entry is abandoned: the mode stays, the ports store again. -/
def abandonEntry (s : State) : State :=
  requestPoint (modePoint s s.mode.cur) { s with
    mode := { s.mode with trans := none, target := s.mode.cur }, ing := { s.ing with paused := false } }

/-- A function's command wakes the device to the last operational state. -/
def wakeByCommand (f : Nat) (s : State) : State := setF PWR_WAKE_LAST 5 (setPower f s.mode.lastOp.ps 4 s)

/-- The point of no return of an entry cannot have passed (R82, R416): LEAN has none, and that of DROWSE or HIBERNATE comes after the
Inkwell has been made clean. -/
def beforePoint (t : ModeTrans) (s : State) : Bool := t.dest == .lean || (t.dest.deep && !s.mode.cur.deep && !s.ftl.staged.isEmpty)

/-- The entry to a lower state that a command meets: whether the later step that is its point of no return has come is a free value
(R82; notes/assumptions/2). -/
def meetEntry (t : ModeTrans) (f : Nat) (s : State) : State :=
  let r := if beforePoint t s then (0, s) else takeFree s
  let s1 := if t.dest.deep then wakeByCommand f r.2 else r.2
  if r.1 % 2 = 0 then abandonEntry s1 else { s1 with mode := { s1.mode with trans := some { t with committed := true } } }

/-- What a command's arrival does to the mode. -/
def commandArrives (f : Nat) (s : State) : State :=
  match s.mode.trans with
  | some t =>
    if s.mode.stopping || t.committed || t.dest.ps ≤ s.mode.cur.ps then s else meetEntry t f s
  | none => if s.mode.cur.deep then wakeByCommand f s else s

/-- CQ_HEAD_DOORBELL (R75, R83). -/
def execCqHeadDoorbell (fn cqid head : Nat) (s : State) : Result :=
  .next (if !hearsDoorbell s fn then s
    else match mget (getFn s fn).cqs cqid with
    | none => doorbellError fn 0 s
    | some q =>
      if q.size ≤ head then doorbellError fn 1 s
      else commandArrives fn
        (drainCq fn cqid q.waiting.length (updFn fn (fun x => { x with cqs := mset x.cqs cqid { q with head := head } }) s)))

/-- SQ_TAIL_DOORBELL (R74, R75, R83). -/
def execSqTailDoorbell (frac fn sqid tail : Nat) (s : State) : Result :=
  let s := atFrac frac s
  .next (if !hearsDoorbell s fn then s
    else match mget (getFn s fn).sqs sqid with
    | none => doorbellError fn 0 s
    | some q =>
      if q.size ≤ tail then doorbellError fn 1 s
      else commandArrives fn (updFn fn (fun x => { x with
        sqs := mset x.sqs sqid { q with tail := tail }, idleFrom := s.time.stroke }) s))

/-! ### MODE REQUEST (R411) -/

/-- The mode of a code that MODE REQUEST takes. -/
def requestedMode : Nat → Option Mode
  | 0 => some .halt
  | 2 => some .safe
  | 3 => some .run
  | 4 => some .lean
  | 5 => some .park
  | 6 => some .drowse
  | 7 => some .hibernate
  | _ => none

/-- A request for a power state: every online function's state is set. It completes when its transition begins, at once where
the device is in that mode. -/
def requestPower (q : Sqe) (m : Mode) (note : Option Bytes) (s : State) : State :=
  let s1 := setPowers m.ps 2 q.fn (fixLen 16 (note.getD [])) s
  if s1.mode.trans.isNone && s1.mode.cur = psMode s1 m.ps then done q .success 0 0 s1
  else { s1 with mode := { s1.mode with modeReqs := s1.mode.modeReqs ++ [{
    sqid := q.sqid, cid := q.cid, mode := psMode s1 m.ps, moved := note.isSome,
    before := (allFns.filter (online s)).map (fun f => (f, (getFn s f).feats.power)) }] } }

/-- A request for an orderly stop. -/
def requestStop (q : Sqe) (m : Mode) (note : Option Bytes) (s : State) : State :=
  { s with mode := { s.mode with
    stop := s.mode.stop.or (some (m, 2, q.fn, fixLen 16 (note.getD []))),
    modeReqs := s.mode.modeReqs ++ [{ sqid := q.sqid, cid := q.cid, mode := m, moved := note.isSome }] } }

def modeRow (note : Option Bytes) : AdminRow :=
  { pfOnly := true, nsid0 := true, len := if note.isSome then 16 else 0, got := note.map (·.length) }

/-- What the command does. -/
def modeRequest (q : Sqe) (target : Nat) (note : Option Bytes) (s : State) : State :=
  match requestedMode target with
  | none => done q .invalidField 0 0 s
  | some m => if m.stops then requestStop q m note s else requestPower q m note s

/-- A request that waits is withdrawn (R81): the functions it has put in its power state return to theirs, a stop that nothing else has
asked for is not made. -/
def withdrawReq (r : ModeReq) (s : State) : State :=
  let rest := dropFirst (· == r) s.mode.modeReqs
  let s1 := r.before.foldl (fun a e =>
    if (getFn a e.1).feats.power = r.mode.ps then updFn e.1 (fun x => { x with feats := { x.feats with power := e.2 } }) a else a) s
  { s1 with mode := { s1.mode with
    modeReqs := rest,
    stop := if r.mode.stops && !s.mode.stopping && !rest.any (·.mode.stops) then s.mode.stop.filter (·.2.1 != 2) else s.mode.stop } }

/-- MODE_REQUEST. -/
def execModeRequest (q : Sqe) (target : Nat) (note : Option Bytes) (s : State) : Result :=
  adminFetch (modeRow note) q (modeRequest q target note) s

/-! ### Autonomous transitions and ignition (R72, R409, R412) -/

/-- Milliseconds since a stroke. -/
def msSince (s : State) (n : Nat) : Nat := (s.time.stroke - n) * s.time.period / 1000

/-- AUTONOMOUS_POWER_STATE_TRANSITION: the function has been idle for the time of its present state's entry. -/
def execAutonomousPowerStateTransition (fn : Nat) (s : State) : Result :=
  let x := getFn s fn
  let busy := s.cmds.any (fun c => c.fn == fn) || (lateCmds s).any (fun c => c.who.1 == fn) || x.sqs.any (fun e => 0 < e.2.waiting)
  .next (match x.feats.apst[x.feats.power % 32]? with
    | some (ps, ms) =>
      if x.en && online s fn && x.feats.apstEn && !busy && ms != 0 && ms ≤ msSince s x.idleFrom && x.feats.power % 32 < ps then
        setPower fn ps 1 s
      else s
    | none => s)

/-- IGNITION_OFF_DELAY: the ignition input has read NORMAL for DELAY_S seconds. -/
def execIgnitionOffDelay (s : State) : Result :=
  .next (match s.mode.ignNormalSince with
  | some n =>
    if flagF s PWR_IGN_EN && !flagF s PWR_STATUS_IGN_OFF && getF s PWR_IGN_DELAY_S * 1000 ≤ msSince s n then
      setF PWR_STATUS_IGN_OFF 1 (setPowers 2 3 0xFF [] s)
    else s
  | none => s)

/-! ### Wakes (R66, R418) -/

/-- WAKE_N falls, and stays low until PERST_N rises. -/
def driveWake (s : State) : State :=
  if d3cold s && !s.mode.wakeLow then emit (.wakeN true) { s with mode := { s.mode with wakeLow := true } } else s

/-- A source wakes the device: from DROWSE and HIBERNATE the power target rises to `ps`, from HALT the device boots. -/
def wakeTo (src ps cause : Nat) (s : State) : State :=
  if s.mode.cur.deep then driveWake (setF PWR_WAKE_LAST src (setPowers ps cause 0xFF [] s))
  else if s.mode.cur = .halt && s.mode.stage = .up && src != 3 then
    setF PWR_WAKE_LAST src (reboot .resetDone 7 cause (driveWake s))
  else s

/-- A source of R418 fires: 1 EVT, 2 PERST, 3 TIMER. -/
def wake (src : Nat) (s : State) : State := wakeTo src s.mode.lastOp.ps 4 s

/-- Ignition ACTIVE (R412, R418): PS0 in every mode; it wakes where PWR_WAKE.IGN allows. -/
def ignitionOn (s : State) : State :=
  let s1 := setF PWR_STATUS_IGN_OFF 0 { s with mode := { s.mode with ignNormalSince := none } }
  if s1.mode.cur.deep || s1.mode.cur = .halt then (if flagF s1 PWR_WAKE_IGN then wakeTo 4 0 3 s1 else s1)
  else
    let s2 := setPowers 0 3 0xFF [] s1
    if s2.mode.cur = .park && flagF s2 PWR_WAKE_IGN then setF PWR_WAKE_LAST 4 s2 else s2

/-- WAKE_TIMER. -/
def execWakeTimer (s : State) : Result :=
  let n := getF s PWR_TIMER_STROKES
  .next (if s.mode.cur.deep && flagF s PWR_WAKE_TIMER && n != 0 && s.mode.enteredAt + n ≤ s.time.stroke then wake 3 s else s)

/-- PERST_DEASSERT (R65, R66, R418): the PCIe side leaves reset and WAKE_N is released. -/
def execPerstDeassert (frac : Nat) (s : State) : Result :=
  let s := atFrac frac s
  let s1 := { s with mode := { s.mode with perst := false, wakeLow := false } }
  let s2 := if s.mode.wakeLow then emit (.wakeN false) s1 else s1
  .next (if follower s then s else if flagF s2 PWR_WAKE_PERST then wake 2 s2 else s2)

/-! ### PARK bursts (R415) -/

/-- Stroke of the oldest byte that is not on the media. -/
def oldestDirty (s : State) : Option Nat :=
  (s.ftl.staged.filter (fun x => !x.placed)).foldl (fun a x => some (match a with
    | none => x.stroke
    | some n => min n x.stroke)) none

/-- PARK_BURST: at a boundary at which the dirty level or the oldest byte calls for it. -/
def execParkBurst (s : State) : Result :=
  let lim := min (getF s PWR_PARK_BURST_KIB) (effLimitKib s / 2) * 1024
  let old := (oldestDirty s).any (fun n => n + getF s PWR_PARK2_BURST_STROKES ≤ s.time.stroke)
  .next (if s.mode.cur = .park && s.time.frac = 0 && !flagF s PWR_STATUS_BURST && (lim ≤ dirtyBytes s || old) then
      showClocks (placeForced (journalFlush (setF PWR_STATUS_BURST 1 s)))
    else s)

/-- PARK_CHANNEL_IDLE: no die has had work for 100 µs. -/
def execParkChannelIdle (s : State) : Result :=
  let idle := s.ftl.dies.all (fun e => e.2.queue.isEmpty && e.2.running.isNone && e.2.suspended.isNone)
  .next (if s.mode.cur = .park && flagF s PWR_STATUS_BURST && idle then showClocks (setF PWR_STATUS_BURST 0 s) else s)

/-! ### Device resets (R358, R419) -/

/-- A device reset: through SEAL where the mode has one, else BOOT at once; SEAL and HALT ignore it. -/
def deviceReset (cause : Nat) (s : State) : State :=
  match s.mode.cur with
  | .seal | .halt => s
  | .safe => reboot .computeGood cause 0x0B s
  | .hibernate => reboot .resetDone cause 0x0B s
  | .boot => if s.mode.mounted then trip 0 0 0x0B cause s else reboot .computeGood cause 0x0B s
  | _ => trip 0 0 0x0B cause s

/-- DEVICE_RESET: the write of GLB_RESET with its key. -/
def execDeviceReset (s : State) : Result := .next (deviceReset 3 s)

/-- SCRIBE_WATCHDOG: two seconds without a heartbeat. -/
def execScribeWatchdog (core : Nat) (s : State) : Result := .next (deviceReset 5 (blot 0x0803 3 core [] s))

/-- The controlled restart of R358: every enabled controller is reset, with CSTS.CFS set. -/
def controlledRestart (s : State) : State :=
  let s1 := (enabledFns s).foldl (fun a f => updFn f (fun x => { x with cfs := true }) (controllerReset f a)) s
  match s1.mode.cur with
  | .seal | .halt => s1
  | .safe => reboot .computeGood 4 0x0A s1
  | .hibernate => reboot .resetDone 4 0x0A s1
  | .boot => if s1.mode.mounted then trip 0 0 0x0A 4 s1 else reboot .computeGood 4 0x0A s1
  | _ => trip 0 0 0x0A 4 s1

/-- SCRIBE_MEMORY_UE (R358). -/
def execScribeMemoryUe (core : Nat) (s : State) : Result := .next (controlledRestart (blot 0x0601 3 core [] s))

/-- The key-frame index entry is dropped; the sealed key flags stand. -/
def dropKeyEntry (stream item : Nat) (s : State) : State :=
  { s with ing := { s.ing with flows := s.ing.flows.map (fun e =>
      (e.1, if e.2.stream = stream then { e.2 with index := e.2.index.eraseIdx item } else e.2)) } }

/-- DRAM_UE (R357, R358): a multi-bit link error; a clean re-read makes it a correctable one. -/
def execDramUe (addr source cls : Nat) (hit : DramHit) (s : State) : Result :=
  let s1 := incF DRM_UE_COUNT 1 (setF DRM_ERR_ADDR_LO (addr % 2 ^ 32) (setF DRM_ERR_ADDR_HI (addr / 2 ^ 32)
    (setF DRM_ERR_SOURCE source (setF DRM_ERR_CLASS cls (setF DRM_ERR_VALID 1 s)))))
  .next (if hit.rereadClean then incF DRM_LINK_CE 1 s else match hit.target with
  | .deviceState => controlledRestart (blot 0x0601 3 source (le 8 addr) s1)
  | .keyIndex stream item => dropKeyEntry stream item s1
  | .silt graph => if ((getGraph s1 graph).bind (·.run)).any (fun r => r.state == 0) then loseRun graph s1 else s1
  | .nibWindow core =>
    let c := nibCore s1 core
    let r := takeFree s1
    if core < 32 && getF s1 (NIB_CORE_STATE core) == 2 then
      trapEntry core { code := 7, sub := 1, info := r.1 % 65536 } 0 c.pc c.xip r.2
    else s1
  | .engine graph node =>
    if (nodeRun s1 graph node).any (fun x => x.st == 2) then jobFail graph node 0 .internalError s1 else s1)

end Sys2Proof.Machine
end

