-- ==== Sys2Proof/Machine/AdminQueue.lean ====
section
/-!
DEFINITION. Admin commands on queues, events and Features (spec/04_command_queueing.md R68, R70, R72, R74, R76, R80, R81, R85;
spec/03 R54, R57, R58). What the base specification gives beyond these rules is in notes/assumptions/63.
-/

namespace Sys2Proof.Machine

/-! ### Queues (R54, R57, R68, R74) -/

/-- Highest I/O queue ID of a function: its pairs, or what Feature 07h has granted. -/
def queueLimit (s : State) (f : Nat) (ofCq : Bool) : Nat :=
  match (getFn s f).feats.queues with
  | none => queuePairs s f
  | some g => min (queuePairs s f) ((if ofCq then bits g 31 16 else bits g 15 0) + 1)

/-- Entries a queue may have (MQES). -/
def badSize (size : Nat) : Bool := size < 2 || 4096 < size

/-- CREATE_IO_CQ. -/
def createCq (q : Sqe) (cqid size base vector : Nat) (ien pc : Bool) (s : State) : State :=
  orElse q (firstError [
    (!pc, .invalidField),
    (cqid == 0 || queueLimit s q.fn true < cqid || mhas (getFn s q.fn).cqs cqid, .invalidQueueId),
    (badSize size, .invalidQueueSize),
    (vectors s q.fn ≤ vector, .invalidInterruptVector)])
    (fun a => done q .success 0 0 (updFn q.fn (fun x =>
      { x with cqs := mset x.cqs cqid { size := size, base := base, vector := vector, ien := ien } }) a)) s

def execCreateIoCq (q : Sqe) (cqid size base vector : Nat) (ien pc : Bool) (s : State) : Result :=
  adminFetch { nsid0 := true, atHead := true } q (createCq q cqid size base vector ien pc) s

/-- CREATE_IO_SQ. -/
def createSq (q : Sqe) (sqid size base cqid prio : Nat) (pc : Bool) (s : State) : State :=
  orElse q (firstError [
    (!pc, .invalidField),
    (cqid == 0 || !mhas (getFn s q.fn).cqs cqid, .completionQueueInvalid),
    (sqid == 0 || queueLimit s q.fn false < sqid || mhas (getFn s q.fn).sqs sqid, .invalidQueueId),
    (badSize size, .invalidQueueSize)])
    (fun a => done q .success 0 0 (updFn q.fn (fun x =>
      { x with sqs := mset x.sqs sqid { size := size, base := base, cqid := cqid, prio := prio % 4 } }) a)) s

def execCreateIoSq (q : Sqe) (sqid size base cqid prio : Nat) (pc : Bool) (s : State) : Result :=
  adminFetch { nsid0 := true, atHead := true } q (createSq q sqid size base cqid prio pc) s

/-- Commands of a queue that wait for a boundary complete as aborted; what they have asked for commits without them
(notes/assumptions/140). -/
def endReqs (p : Nat → Nat → Bool) (s : State) : State :=
  forgetReqs p ((waitingReqs p s).foldl (fun a w => complete w.1 w.2.1 w.2.2 .abortedSqDeletion 0 0 a) s)

/-- DELETE_IO_SQ (R80): applied commands complete, the others complete as aborted, entries not fetched are discarded. -/
def deleteSq (q : Sqe) (sqid : Nat) (s : State) : State :=
  let mine (f k : Nat) : Bool := f == q.fn && k == sqid
  orElse q (if sqid = 0 || !mhas (getFn s q.fn).sqs sqid then some .invalidQueueId else none)
    (fun a => done q .success 0 0
      (updFn q.fn (fun x => { x with sqs := merase x.sqs sqid })
        (abandonCmds mine (some .abortedSqDeletion) (endReqs mine a)))) s

def execDeleteIoSq (q : Sqe) (sqid : Nat) (s : State) : Result :=
  adminFetch { nsid0 := true, atHead := true } q (deleteSq q sqid) s

/-- DELETE_IO_CQ: not while a submission queue feeds it. -/
def deleteCq (q : Sqe) (cqid : Nat) (s : State) : State :=
  orElse q (firstError [
    (cqid == 0 || !mhas (getFn s q.fn).cqs cqid, .invalidQueueId),
    ((getFn s q.fn).sqs.any (fun e => e.2.cqid == cqid), .invalidQueueDeletion)])
    (fun a => done q .success 0 0 (updFn q.fn (fun x => { x with cqs := merase x.cqs cqid }) a)) s

def execDeleteIoCq (q : Sqe) (cqid : Nat) (s : State) : Result :=
  adminFetch { nsid0 := true, atHead := true } q (deleteCq q cqid) s

/-! ### Abort and events (R81, R85, R399) -/

/-- The command of the transition has moved data, or the transition runs already. -/
def TransKind.begun : TransKind → Bool
  | .nsCreate _ | .nsAttach _ | .nsDetach _ | .release _ _ _ _ _ _ | .offline => true
  | _ => false

/-- An accepted transition whose command has moved no data goes, with the others that the command has asked for. -/
def abortTrans (f sqid cid : Nat) (s : State) : Option State :=
  (s.trans.find? (fun t => t.fn == f && t.sqid == sqid && t.cid == cid && !t.kind.begun)).map (fun t =>
    { s with trans := s.trans.filter (fun u =>
      !(u.fn == f && u.cid == cid && u.at_ == t.at_ && (u.sqid == sqid || u.sqid == silentQueue))) })

/-- A GRAPH START that waits for its boundary. -/
def abortStart (f sqid cid : Nat) (s : State) : Option State :=
  let mine (t : GStart) : Bool := t.fn == f && t.sqid == sqid && t.cid == cid
  if s.duct.starts.any mine then some { s with duct := { s.duct with starts := s.duct.starts.filter (fun t => !mine t) } } else none

/-- A MODE REQUEST without a note, or a Firmware Commit, whose transition has not begun. -/
def abortMode (f sqid cid : Nat) (s : State) : Option State :=
  if f != 0 then none
  else match s.mode.modeReqs.find? (fun r => r.sqid == sqid && r.cid == cid && !r.moved) with
  | some r => some (withdrawReq r s)
  | none =>
    if s.mode.wantActivate && s.fw.commit == some (f, sqid, cid) then
      some { s with mode := { s.mode with wantActivate := false }, fw := { s.fw with commit := none } }
    else none

/-- A fetched command that has not begun to move data is no more, where there is one (R81). -/
def abortFetched (f sqid cid : Nat) (s : State) : Option State :=
  let late (a : State) : State := dropLate (· == (f, sqid, cid)) a
  match findCmd s f sqid cid with
  | some c => if c.moved then none else some (late (dropCmd f sqid cid s))
  | none =>
    if (lateCmds s).any (fun c => c.who == (f, sqid, cid) && !c.early) then some (late s)
    else ((abortTrans f sqid cid s).or (abortStart f sqid cid s)).or (abortMode f sqid cid s)

/-- ABORT: a fetched command that has not begun to move data completes as aborted, and DW0 bit 0 is 0. -/
def abortOne (q : Sqe) (sqid cid : Nat) (s : State) : State :=
  if sqid = 0 && (getFn s q.fn).aers.contains cid then
    done q .success 0 0 (complete q.fn 0 cid .abortRequested 0 0
      (updFn q.fn (fun x => { x with aers := dropFirst (· == cid) x.aers }) s))
  else match abortFetched q.fn sqid cid s with
    | none => done q .success 1 0 s
    | some a => done q .success 0 0 (advanceAll (complete q.fn sqid cid .abortRequested 0 0 a))

/-- The follower cannot be reached: the head aborts what it has sent (R399). -/
def abortProxied (q : Sqe) (sqid cid : Nat) (s : State) : State :=
  if s.oxv.proxied.contains (q.fn, sqid, cid) then
    done q .success 0 0 (complete q.fn sqid cid .abortRequested 0 0
      { s with oxv := { s.oxv with proxied := dropFirst (· == (q.fn, sqid, cid)) s.oxv.proxied } })
  else done q .success 1 0 s

def execAbortCmd (q : Sqe) (sqid cid : Nat) (s : State) : Result :=
  if (proxyOf s q.fn).any (fun d => !reachable s d) then
    adminFetch { nsid0 := true, atHead := true } q (abortProxied q sqid cid) s
  else adminFetch { nsid0 := true } q (abortOne q sqid cid) s

/-- The function receives an event: a vendor one only while its bit in Feature C1h is 1 (R85). -/
def eventOn (x : Fn) (e : AsyncEvent) : Bool := e.type != 7 || bitAt x.feats.vendorEvents e.info

/-- ASYNC_EVENT_REQUEST: an event that waits completes it at once; at most eight requests are held (AERL). -/
def takeRequest (q : Sqe) (s : State) : State :=
  let x := getFn s q.fn
  if 8 ≤ x.aers.length then done q .asyncEventLimitExceeded 0 0 s
  else
    let s1 := updFn q.fn (fun y => { y with aers := y.aers ++ [q.cid] }) s
    match x.events.find? (eventOn x) with
    | none => s1
    | some ev => raiseEvent q.fn ev (updFn q.fn (fun y => { y with events := dropFirst (· == ev) y.events }) s1)

def execAsyncEventRequest (q : Sqe) (s : State) : Result := adminFetch { nsid0 := true } q (takeRequest q) s

/-! ### Features (R72) -/

def hasIoSq (s : State) (f : Nat) : Bool := (getFn s f).sqs.any (fun e => e.1 != 0)

def featureIds : List Nat := [0x01, 0x02, 0x04, 0x07, 0x08, 0x09, 0x0A, 0x0B, 0x0C, 0xC0, 0xC1]

/-- The value of Feature 07h: what has been granted, or the pairs the function holds. -/
def queuesGranted (s : State) (f : Nat) : Nat :=
  (getFn s f).feats.queues.getD ((queuePairs s f - 1) + (queuePairs s f - 1) * 65536)

/-- What Set Features 07h grants: no more than the pairs, at least one. -/
def grantQueues (s : State) (f v : Nat) : Nat :=
  min (bits v 15 0) (queuePairs s f - 1) + min (bits v 31 16) (queuePairs s f - 1) * 65536

/-- Feature 04h selects the composite temperature and a threshold, or is refused. -/
def badThreshold (v : Nat) : Bool := bits v 19 16 != 0 || 2 ≤ bits v 21 20

/-- The 256 bytes of Feature 0Ch: for each power state the state to go to and the idle time. -/
def apstBytes (f : Features) : Bytes :=
  fixLen 256 ((f.apst.map (fun e => le 8 (e.1 % 32 * 8 + e.2 % 2 ^ 24 * 256))).flatten)

def apstOf (data : Bytes) : List (Nat × Nat) :=
  (List.range 5).map (fun i => (bits (leAt data (8 * i) 8) 7 3, bits (leAt data (8 * i) 8) 31 8))

/-- Reserved bits of the table of Feature 0Ch, entries for states the device lacks, and states that are not non-operational. -/
def badApst (data : Bytes) : Bool :=
  (List.range 32).any (fun i =>
    let e := leAt data (8 * i) 8
    bits e 2 0 != 0 || bits e 63 32 != 0 || (5 ≤ i && e != 0) || (bits e 31 8 != 0 && !(3 ≤ bits e 7 3 && bits e 7 3 ≤ 4)))

/-- The value that Get Features returns in DW0. -/
def featureValue (s : State) (f fid v : Nat) : Nat :=
  let x := getFn s f
  match fid with
  | 0x01 => x.feats.arbitration
  | 0x02 => x.feats.power
  | 0x04 => if bits v 21 20 = 1 then x.feats.tempUnder else x.feats.tempOver
  | 0x07 => queuesGranted s f
  | 0x08 => x.feats.coalesce
  | 0x09 => bits v 15 0 + bit (getVec x (bits v 15 0)).cd * 65536
  | 0x0A => x.feats.atomicity
  | 0x0B => x.feats.asyncCfg
  | 0x0C => bit x.feats.apstEn
  | 0xC0 => bit x.feats.groupMode
  | _ => x.feats.vendorEvents

/-- GET_FEATURES: Select is not supported. -/
def getFeatures (q : Sqe) (fid sel v : Nat) (s : State) : State :=
  orElse q (firstError [
    (!featureIds.contains fid || sel != 0, .invalidField),
    (fid == 0x04 && badThreshold v, .invalidField),
    (fid == 0x09 && vectors s q.fn ≤ bits v 15 0, .invalidField)])
    (fun a => answer q (if fid = 0x0C then apstBytes (getFn a q.fn).feats else []) (featureValue a q.fn fid v) a) s

def execGetFeatures (q : Sqe) (fid sel dw11 : Nat) (s : State) : Result :=
  adminFetch { len := if fid = 0x0C then 256 else 0 } q (getFeatures q fid sel dw11) s

/-- A value with a reserved bit set, or outside what the Feature takes. -/
def badFeature (s : State) (f fid v : Nat) (data : Bytes) : Bool :=
  match fid with
  | 0x01 => bits v 7 3 != 0
  | 0x02 => 4 < bits v 4 0 || bits v 31 8 != 0
  | 0x04 => badThreshold v || bits v 31 22 != 0
  | 0x07 => bits v 15 0 == 65535 || bits v 31 16 == 65535
  | 0x08 => bits v 31 16 != 0
  | 0x09 => bits v 31 17 != 0 || vectors s f ≤ bits v 15 0
  | 0x0A => bits v 31 1 != 0
  | 0x0B => bits v 31 10 != 0
  | 0x0C => bits v 31 1 != 0 || badApst data
  | 0xC0 => bits v 31 1 != 0
  | _ => bits v 31 2 != 0

def updFeats (f : Nat) (g : Features → Features) (s : State) : State := updFn f (fun x => { x with feats := g x.feats }) s

/-- The Feature takes its value. -/
def applyFeature (f fid v : Nat) (data : Bytes) (s : State) : State :=
  match fid with
  | 0x01 => updFeats f (fun x => { x with arbitration := v }) s
  | 0x02 => setPower f v 1 s
  | 0x04 =>
    if bits v 21 20 = 1 then updFeats f (fun x => { x with tempUnder := bits v 15 0 }) s
    else updFeats f (fun x => { x with tempOver := bits v 15 0 }) s
  | 0x07 => updFeats f (fun x => { x with queues := some (grantQueues s f v) }) s
  | 0x08 => updFeats f (fun x => { x with coalesce := v }) s
  | 0x09 => updVec f (bits v 15 0) (fun w => { w with cd := bitAt v 16 }) s
  | 0x0A => updFeats f (fun x => { x with atomicity := v }) s
  | 0x0B => updFeats f (fun x => { x with asyncCfg := v }) s
  | 0x0C => updFeats f (fun x => { x with apstEn := bitAt v 0, apst := apstOf data }) s
  | 0xC0 => updFeats f (fun x => { x with groupMode := bitAt v 0 }) s
  | _ => updFeats f (fun x => { x with vendorEvents := v }) s

/-- SET_FEATURES: Save is not supported; C0h and 07h are refused once the function has I/O queues (R76). -/
def setFeatures (q : Sqe) (fid : Nat) (save : Bool) (v : Nat) (data : Bytes) (s : State) : State :=
  let w := v % 2 ^ 32
  orElse q (firstError [
    (!featureIds.contains fid, .invalidField),
    (save, .featureNotSaveable),
    (badFeature s q.fn fid w data, .invalidField),
    ((fid == 0xC0 || fid == 0x07) && hasIoSq s q.fn, .commandSequenceError)])
    (fun a => done q .success (if fid = 0x07 then grantQueues a q.fn w else 0) 0 (applyFeature q.fn fid w data a)) s

def execSetFeatures (q : Sqe) (fid : Nat) (save : Bool) (dw11 : Nat) (data : Bytes) (s : State) : Result :=
  adminFetch { len := if fid = 0x0C then 256 else 0, got := if fid = 0x0C then some data.length else none } q
    (setFeatures q fid save dw11 data) s

end Sys2Proof.Machine
end

