-- ==== Sys2Proof/Machine/Monitors.lean ====
section
/-!
DEFINITION. Monitors, thermal steps and droop, event inputs and the clearing of the blot log (spec/18_modes_resets_power.md R412,
R421 to R423, spec/19_health_monitors_events.md R428 to R437, R445).
-/

namespace Sys2Proof.Machine

/-! ### Droop (R421) -/

/-- DROOP_TRIP: each region is counted; the clocks are halved once. -/
def execDroopTrip (frac : Nat) (regions : List Nat) (s : State) : Result :=
  let s := atFrac frac s
  let rs := regions.filter (· < 8)
  let s1 := rs.foldl (fun a r => incF (MON_DROOP_COUNT r) 1 a) s
  .next (if rs.isEmpty || flagF s1 CLK_STATUS_HALVED then s1
    else showClocks (incF CLK_DROOP_COUNT 1 (setF CLK_STATUS_HALVED 1 s1)))

/-- DROOP_RESTORE. -/
def execDroopRestore (frac : Nat) (s : State) : Result :=
  let s := atFrac frac s
  .next (if flagF s CLK_STATUS_HALVED then showClocks (setF CLK_STATUS_HALVED 0 s) else s)

/-! ### Temperature (R422, R423, R429, R430) -/

/-- A 12-bit signed value. -/
def signed12 (v : Nat) : Int := if 2048 ≤ v then (v : Int) - 4096 else v

/-- The thermal step changes. -/
def setStep (new : Nat) (s : State) : State :=
  let old := getF s CLK_STATUS_THERM_STEP
  if new = old then s
  else
    let s1 := blot 0x0301 1 (getF s MON_HOT_SENSOR) (le 1 old ++ le 1 new ++ le 2 (twos 16 (signed12 (getF s MON_HOT_TEMP)))) s
    let s2 := setF CLK_STATUS_THERM_STEP new { s1 with mode := { s1.mode with coolFrom := none } }
    showClocks (if new = 3 then setF FN_ATTN_THERMAL 1 s2 else if old = 3 then setF FN_ATTN_THERMAL 0 s2 else s2)

/-- Four failed sensors hold the step at 2 or above (R429). -/
def checkFailsafe (s : State) : State :=
  if 4 ≤ ((List.range 24).filter (fun i => flagF s (MON_TEMP_FAILED i))).length then
    setStep (max 2 (getF s CLK_STATUS_THERM_STEP)) (setF MON_STATUS_FAILSAFE 1 s)
  else s

def failSensor (i : Nat) (last : Int) (s : State) : State :=
  if 24 ≤ i || flagF s (MON_TEMP_FAILED i) then s
  else checkFailsafe (blot 0x0303 2 i (le 2 (twos 16 last)) (setF MON_STATUS_SENSOR_FAIL 1 (setF (MON_TEMP_FAILED i) 1 s)))

/-- SENSOR_FAIL (R429): no conversion for 1 ms, or a reading out of range. -/
def execSensorFail (sensor : Nat) (last : Int) (s : State) : Result := .next (failSensor sensor last s)

/-- One reading, in quarters of a degree. -/
def takeTemp (i : Nat) (v : Int) (s : State) : State :=
  if 24 ≤ i || flagF s (MON_TEMP_FAILED i) then s
  else if v < -220 || 620 < v then failSensor i v s
  else
    let s1 := setF (MON_TEMP_VALUE i) (twos 12 v) s
    if signed12 (getF s1 (MON_TEMP_MAX i)) < v then setF (MON_TEMP_MAX i) (twos 12 v) s1 else s1

/-- The hottest working sensor, if one works: its reading and index. -/
def hottest (s : State) : List Nat → Option (Int × Nat)
  | [] => none
  | i :: t => match hottest s t with
    | none => if flagF s (MON_TEMP_FAILED i) then none else some (signed12 (getF s (MON_TEMP_VALUE i)), i)
    | some b =>
      let v := signed12 (getF s (MON_TEMP_VALUE i))
      if !flagF s (MON_TEMP_FAILED i) && b.1 ≤ v then some (v, i) else some b

/-- Quarters of a degree in kelvin, rounded down (R430). -/
def kelvin (q : Int) : Nat := ((q * 25 + 27315) / 100).toNat

/-- The threshold of a step, in quarters of a degree. -/
def stepLimit (s : State) (k : Nat) : Int :=
  4 * (if k = 1 then getF s PWR_THERM_T1_C else if k = 2 then getF s PWR_THERM_T2_C else getF s PWR_THERM_T3_C : Nat)

/-- The step that a temperature calls for. -/
def stepFor (s : State) (q : Int) : Nat :=
  if stepLimit s 3 ≤ q then 3
  else if stepLimit s 2 ≤ q then 2
  else if stepLimit s 1 ≤ q || flagF s DRM_STATUS_HOT then 1
  else 0

/-- The condition under which the step in force is left has held since `coolFrom`. -/
def trackCooling (q : Int) (s : State) : State :=
  let k := getF s CLK_STATUS_THERM_STEP
  let cool := k != 0 && q ≤ stepLimit s k - 16 && !(k == 1 && flagF s DRM_STATUS_HOT)
  { s with mode := { s.mode with coolFrom := if cool then s.mode.coolFrom.or (some s.time.stroke) else none } }

/-- The composite temperature crosses a threshold of Feature 04h: a SMART event where Feature 0Bh enables it (R72, R430). -/
def tempEvents (old new : Nat) (s : State) : State :=
  (enabledFns s).foldl (fun a f =>
    let x := (getFn a f).feats
    let outside (k : Nat) : Bool := x.tempOver ≤ k || k ≤ x.tempUnder
    if bitAt x.asyncCfg 1 && outside new && !outside old then raiseEvent f { type := 1, info := 1, log := 2 } a else a) s

/-- An orderly stop is wanted for a cause other than a command. -/
def wantStop (cause : Nat) (s : State) : State :=
  if s.mode.cur.stoppable then { s with mode := { s.mode with stop := s.mode.stop.or (some (.halt, cause, 0xFF, [])) } } else s

/-- What the hottest reading does: the registers, a rising step, the orderly stop at 115 °C. -/
def applyTemp (s : State) : State :=
  match hottest s (List.range 24) with
  | none => s
  | some (q, i) =>
    let old := kelvin (signed12 (getF s MON_HOT_TEMP))
    let s1 := setF PWR_THERM_TEMP_C (twos 8 (q / 4)) (setF MON_HOT_SENSOR i (setF MON_HOT_TEMP (twos 12 q) s))
    let s2 := trackCooling q (setStep (max (stepFor s1 q) (getF s1 CLK_STATUS_THERM_STEP)) s1)
    let s3 := tempEvents old (kelvin q) s2
    if 460 ≤ q then wantStop 9 s3 else s3

/-- THERMAL_SAMPLE: the readings of sensors 0 to 23 in order, in quarters of a degree. -/
def execThermalSample (frac : Nat) (readings : List Int) (s : State) : Result :=
  .next (applyTemp ((List.range readings.length).foldl (fun a i => match readings[i]? with
    | some v => takeTemp i v a
    | none => a) (atFrac frac s)))

/-- THERMAL_STEP_DOWN: 16 strokes below, one step at a time; FAILSAFE holds step 2. -/
def execThermalStepDown (s : State) : Result :=
  let k := getF s CLK_STATUS_THERM_STEP
  .next (if k != 0 && s.mode.coolFrom.any (fun n => n + 16 ≤ s.time.stroke) && !(flagF s MON_STATUS_FAILSAFE && k ≤ 2) then
      setStep (k - 1) s
    else s)

/-! ### Voltage and process monitors (R431, R432) -/

/-- A reading above 108 % of the nominal voltage. -/
def overVolt (s : State) (i mv : Nat) : Bool := getF s (MON_VMON_NOM_MV i) * 108 < mv * 100

def takeVolt (i mv : Nat) (s : State) : State :=
  let v := min mv 4095
  let s1 := setF (MON_VMON_MV i) v s
  let s2 := if vmonMasked s1 i || getF s1 (MON_VMON_MIN_MV i) ≤ v then s1 else setF (MON_VMON_MIN_MV i) v s1
  if overVolt s2 i mv then s2 else { s2 with mon := { s2.mon with overVolts := s2.mon.overVolts.filter (· != i) } }

/-- VMON_SAMPLE: the readings of monitors 0 to 31 in order. -/
def execVmonSample (frac : Nat) (mv : List Nat) (s : State) : Result :=
  .next ((List.range (min 32 mv.length)).foldl (fun a i => takeVolt i ((mv[i]?).getD 0) a) (atFrac frac s))

/-- VMON_OVERVOLTAGE: one blot for an excursion. -/
def execVmonOvervoltage (mon mv : Nat) (s : State) : Result :=
  .next (if 32 ≤ mon || !overVolt s mon mv || s.mon.overVolts.contains mon then s
    else blot 0x0106 1 mon (le 2 mv) { s with mon := { s.mon with overVolts := s.mon.overVolts ++ [mon] } })

/-- VMON_SELF_CHECK: the monitors whose check is off by more than 2 %. -/
def execVmonSelfCheck (bad : List Nat) (s : State) : Result :=
  .next ((bad.filter (fun i => i < 32 && !flagF s (MON_VMON_FAILED i))).foldl (fun a i =>
    blot 0x0304 2 i (le 2 (getF a (MON_VMON_MV i))) (setF MON_STATUS_VMON_FAIL 1 (setF (MON_VMON_FAILED i) 1 a))) s)

/-- PMON_MEASURE: frequency in 0.1 MHz and drift in thousandths of monitors 0 to 15 in order. -/
def execPmonMeasure (freqs : List (Nat × Int)) (s : State) : Result :=
  .next ((List.range (min 16 freqs.length)).foldl (fun a i => match freqs[i]? with
    | none => a
    | some e =>
      let s1 := setF (MON_PMON_DRIFT i) (twos 16 e.2) (setF (MON_PMON_FREQ i) (min 65535 e.1) a)
      if 50 < e.2.natAbs && !s1.mon.drifted.contains i then
        blot 0x0305 1 i (le 2 (twos 16 e.2)) { s1 with mon := { s1.mon with drifted := s1.mon.drifted ++ [i] } }
      else s1) s)

/-! ### Event inputs (R412, R418, R433 to R437) -/

/-- The state that a kept sample decodes to: 0 NORMAL, 1 ACTIVE, 2 OPEN, 3 SHORT, 4 REVERSED (R434). -/
def decodeEvt (nc : Bool) (f b : Nat) : Nat :=
  if f < 800 || b < 800 then 3
  else if f < 3300 && 12000 ≤ b then (if nc then 0 else 1)
  else if f < 12000 && 12000 ≤ b then (if nc then 1 else 0)
  else if 12000 ≤ f && b < 12000 then 4
  else if 12000 ≤ f then 2
  else 3

/-- Ohms as the registers and records give them: FFFFFFFFh at 19 kΩ or more. -/
def ohms (r : Nat) : Nat := if 19000 ≤ r then 0xFFFFFFFF else r

def getEvt (s : State) (n : Nat) : EvtInput := (mget s.mon.evts n).getD {}

def setEvt (n : Nat) (x : EvtInput) (s : State) : State := { s with mon := { s.mon with evts := mset s.mon.evts n x } }

/-- An EVENT record of input `n` (R436), or one more lost change where the always-on queue is full (R437). -/
def eventRec (n old new dtime : Nat) (baseline : Bool) (s : State) : State :=
  let x := getEvt s n
  if !strokeOpen s && 64 ≤ s.mon.queue.length then incF EVT_STATUS_LOST 1 (setEvt n { x with lost := satAdd x.lost 1 65535 } s)
  else
    let flags := bit (flagF s (EVT_CFG_FOREIGN_V n)) + 4 * bit (x.lost != 0) + 8 * getF s (EVT_CFG_NC n) + 16 * bit baseline
    addRecAt 0x14 dtime (le 1 n ++ le 1 old ++ le 1 new ++ le 1 flags ++ le 2 x.lost ++ zeros 2
      ++ le 4 (getF s (EVT_CFG_FWD_OHM n)) ++ le 4 (getF s (EVT_CFG_REV_OHM n)) ++ le 8 (now s)
      ++ le 4 (getF s (EVT_CFG_CHANGES n)) ++ zeros 4) (setEvt n { x with lost := 0 } s)

/-- The ignition input declares a state (R412). -/
def ignition (n new : Nat) (s : State) : State :=
  if !flagF s PWR_IGN_EN || getF s PWR_IGN_INPUT != n then s
  else if new = 1 then ignitionOn s
  else { s with mode := { s.mode with ignNormalSince := if new = 0 then some s.time.stroke else none } }

/-- A new state is declared: the record, the blot, the ignition and the wake. -/
def declareEvt (n new : Nat) (s : State) : State :=
  let x := getEvt s n
  let old := getF s (EVT_CFG_STATE n)
  let s1 := setF (EVT_CFG_STATE n) new s
  let s2 := if x.baseline then s1 else incF (EVT_CFG_CHANGES n) 1 s1
  let s3 := eventRec n old new x.candAt x.baseline s2
  let s4 := setEvt n { getEvt s3 n with baseline := false } s3
  let s5 := if 2 ≤ new then
      blot 0x0901 2 n (le 1 new ++ le 4 (getF s4 (EVT_CFG_FWD_OHM n)) ++ le 4 (getF s4 (EVT_CFG_REV_OHM n))) s4
    else s4
  let s6 := ignition n new s5
  if bitAt (getF s6 PWR_WAKE_EVT) n then wake 1 s6 else s6

/-- One sample of one enabled input. -/
def sampleEvt (n : Nat) (e : EvtSample) (s : State) : State :=
  let x := getEvt s n
  let deb := getF s (EVT_CFG_DEBOUNCE_MS n)
  if !flagF s (EVT_CFG_EN n) then s
  else if 1000 < e.mv || e.mv < -1000 then
    let s1 := setEvt n { x with kept := 0 } s
    if flagF s1 (EVT_CFG_FOREIGN_V n) then s1
    else blot 0x0902 2 n (le 2 (twos 16 e.mv)) (setF (EVT_CFG_FOREIGN_V n) 1 s1)
  else
    let d := decodeEvt (flagF s (EVT_CFG_NC n)) e.fwd e.rev
    let y := if d = x.cand then { x with candCount := x.candCount + 1 } else { x with cand := d, candCount := 1, candAt := now s }
    let kept := min 255 (x.kept + 1)
    let s1 := setEvt n { y with kept := kept } (setF (EVT_CFG_FWD_OHM n) (ohms e.fwd) (setF (EVT_CFG_REV_OHM n) (ohms e.rev) s))
    let s2 := if deb ≤ kept then setF (EVT_CFG_FOREIGN_V n) 0 s1 else s1
    if deb ≤ y.candCount && d != getF s2 (EVT_CFG_STATE n) then declareEvt n d s2 else s2

/-- EVT_SAMPLE: the samples of inputs 0 to 7 in order. -/
def execEvtSample (frac : Nat) (samples : List EvtSample) (s : State) : Result :=
  .next ((List.range (min 8 samples.length)).foldl (fun a n => match samples[n]? with
    | some e => sampleEvt n e a
    | none => a) (atFrac frac s))

/-- An enabled input is disabled (R436): one BASELINE record with NEW 7h; a later enable declares its first state anew. -/
def disableEvt (n : Nat) (s : State) : State :=
  let old := getF s (EVT_CFG_STATE n)
  let s1 := eventRec n old 7 (now s) true s
  setF (EVT_CFG_STATE n) 7 (setF (EVT_CFG_FOREIGN_V n) 0 (setEvt n { lost := (getEvt s1 n).lost } s1))

/-! ### The blot log (R445) -/

/-- The log is emptied; the entry 0001h comes first, and SEQ goes on. -/
def clearLog (s : State) : State :=
  blot 0x0001 0 0 (le 4 (getF s LOG_STATUS_ENTRIES)) (setF LOG_STATUS_ENTRIES 0 { s with mon := { s.mon with blots := [] } })

/-- LOG_CLEAR. -/
def execLogClear (s : State) : Result := .next (clearLog s)

end Sys2Proof.Machine
end

