-- ==== Sys2Proof/Machine/Oxvia.lean ====
section
/-!
DEFINITION. The Oxvia links and what their frames do (spec/17_oxvia_link_and_domains.md R387 to R396, R399, spec/02 R38, R39,
spec/16 R384): training, receiving and forwarding, replay, marks, delays, FD and STATUS frames, members that cannot be reached.
-/

namespace Sys2Proof.Machine

/-! ### STATUS and HELLO (R389, R391) -/

def linkRev (s : State) : Nat := getF s FWU_LINK_REV

def linkMin (s : State) : Nat := getF s FWU_LINK_MIN

/-- Links that are up, as bits. -/
def upMask (s : State) : Nat := [0, 1, 2, 3].foldl (fun a l => a + getF s (OXV_LINK_UP l) * 2 ^ l) 0

/-- The largest mirror lag. -/
def maxLag (s : State) : Nat := (List.range 16).foldl (fun a i => max a (getF s (OXV_MIRROR_LAG i))) 0

def statusFields (mode attn rev min index lag ups : Nat) : List Nat := [mode, attn, rev, min, index, lag, ups]

/-- The device broadcasts its STATUS (R391). -/
def sendStatus (s : State) : State :=
  if s.oxv.tag = 0 then s
  else oxvFlood 7 (fixLen 32 (Config.packOxv 7 (statusFields s.mode.cur.code (getReg s FN_ATTN_LINK.off % 32) (linkRev s)
    (linkMin s) (s.chain.flIndex - 1) (maxLag s) (upMask s)) [])) s

def helloPayload (s : State) : Bytes :=
  fixLen 48 (Config.packOxv 4 [linkRev s, linkMin s, s.oxv.tag, deviceId s] (fixLen 20 Config.serialNumber))

/-! ### Link state (R387 to R389) -/

/-- The Oxvia domains run: the core supply is on. -/
def oxvPowered (s : State) : Bool := bitAt s.mode.reqs 0

/-- A link is enabled and present: sub-links 1 only with SPLIT (R388, R406). -/
def linkPresent (s : State) (l : Nat) : Bool :=
  l < 4 && bitAt (getF s OXV_CTL_EN) (l % 2) && (l < 2 || flagF s OXV_CTL_SPLIT)

/-- Each revision is at least the other's minimum (R384). -/
def revsAgree (s : State) (rev min : Nat) : Bool := linkMin s ≤ rev && min ≤ linkRev s

/-- OXV_LINK_UP (R389): the neighbour's HELLO has been received and its revision agrees. -/
def execOxvLinkUp (frac link width polarity laneMap : Nat) (s : State) : Result :=
  let s := atFrac frac s
  let top := if flagF s OXV_CTL_SPLIT then 2 else 4
  .next (match (getLink s link).hello with
  | none => s
  | some (rev, min, _, dev) =>
    if !oxvPowered s || !linkPresent s link || flagF s (OXV_LINK_UP link) || !revsAgree s rev min ||
        !(width == 1 || width == 2 || width == 4) || top < width then s
    else
      let s1 := setF (OXV_LINK_UP link) 1 (setF (OXV_LINK_WIDTH link) width (setF (OXV_LINK_POLARITY link) (polarity % 16)
        (setF (OXV_LINK_LANE_MAP link) (laneMap % 256) (setF (OXV_LINK_NARROWED link) (bit (width < top))
          (setF (OXV_LINK_REV_FAIL link) 0 (setF (OXV_LINK_REV link) (Nat.min rev (linkRev s))
            (setF (OXV_LINK_PEER link) (dev % 512) s)))))))
      sendStatus (faultRec 0x11 link s.time.stroke width s1))

/-- The link goes down (R389). -/
def oxvDown (link : Nat) (s : State) : State :=
  let width := getF s (OXV_LINK_WIDTH link)
  let s1 := incF (OXV_LINK_DOWN_COUNT link) 1 (setF (OXV_LINK_UP link) 0 (setF (OXV_LINK_WIDTH link) 0 s))
  sendStatus (faultRec 0x10 link s.time.stroke width (updLink link (fun k => { k with hello := none, delayAt := none, replays := 0 }) s1))

/-- OXV_LINK_DOWN. -/
def execOxvLinkDown (frac link : Nat) (s : State) : Result :=
  let s := atFrac frac s
  .next (if link < 4 && flagF s (OXV_LINK_UP link) then oxvDown link s else s)

/-- HELLO (R384, R389): the neighbour's revision, agreed or refused. -/
def execHelloFrame (link rev min tag dev : Nat) (s : State) : Result :=
  .next (if !oxvPowered s || !linkPresent s link then s
    else
      let s1 := updLink link (fun k => { k with hello := some (rev % 65536, min % 65536, tag, dev % 512) }) s
      let s2 := emit (.oxv link (oxvFrame 4 0 0 (deviceId s) 0 (getLink s link).txSeq (getLink s link).rxSeq (helloPayload s))) s1
      let ok := revsAgree s rev min
      setF (OXV_LINK_PEER link) (dev % 512) (setF (OXV_LINK_REV_FAIL link) (bit !ok)
        (if ok then setF (OXV_LINK_REV link) (Nat.min rev (linkRev s) % 65536) s2 else s2)))

/-! ### Receiving and forwarding (R390, R392, R394) -/

/-- A frame can arrive on the link. -/
def oxvAlive (s : State) (l : Nat) : Bool := l < 4 && flagF s (OXV_LINK_UP l) && oxvPowered s

/-- The entries after the one whose sequence is acknowledged. -/
def dropThrough (ack : Nat) : List (Nat × Bytes) → List (Nat × Bytes)
  | [] => []
  | x :: t => if x.1 = ack then t else dropThrough ack t

/-- ACK releases what it covers from the replay buffer of 256; frames that waited for room are sent. -/
def oxvAck (l ack : Nat) (s : State) : State :=
  let old := (getLink s l).replay
  if old.any (fun e => e.1 == ack) then
    let rest := dropThrough ack old
    let freed := old.length - rest.length
    ((rest.take 256).drop (256 - freed)).foldl (fun a e => emit (.oxv l e.2) a)
      (updLink l (fun k => { k with replay := rest, replays := 0 }) s)
  else s

/-- A frame that is dropped for its format. -/
def fmtErr (l : Nat) (s : State) : State := incF (OXV_LINK_FMT_ERR l) 1 s

/-- Ask for a replay from a sequence. -/
def sendNak (l seq : Nat) (s : State) : State := oxvSendOn l 0x0B 0 (getF s (OXV_LINK_PEER l)) (le 4 (seq % 65536)) s

/-- A broadcast goes out on every other link. -/
def floodOn (h : OxvHdr) (type : Nat) (payload : Bytes) (s : State) : State :=
  if 200 ≤ h.hops + 1 then fmtErr h.link s
  else [0, 1, 2, 3].foldl (fun a l =>
    if l = h.link then a else oxvPut l type (h.flags % 8) h.dst h.src (h.hops + 1) h.seq payload a) s

/-- A frame for another device goes on (R394). -/
def forwardOn (h : OxvHdr) (type : Nat) (payload : Bytes) (s : State) : State :=
  if 200 ≤ h.hops + 1 then fmtErr h.link s
  else match oxvRoute s (h.dst % 512) (some h.link) (bitAt h.flags 2) with
    | some (out, rev) => oxvPut out type (setBits (h.flags % 8) 2 2 (bit rev)) h.dst h.src (h.hops + 1) h.seq payload s
    | none => s

/-- A routed frame arrives: it is delivered by `k`, forwarded or dropped. A REL frame is taken in the order of the link; a
duplicate is dropped, a gap asks for a replay. -/
def oxvReceive (h : OxvHdr) (type : Nat) (payload : Bytes) (k : State → State) (s : State) : State :=
  if !oxvAlive s h.link then s
  else
    let s1 := oxvAck h.link h.ack s
    if bitAt h.flags 1 then
      if s1.oxv.seen.contains (h.src, h.seq) then s1
      else k (floodOn h type payload { s1 with oxv := { s1.oxv with seen := ((h.src, h.seq) :: s1.oxv.seen).take 1024 } })
    else
      let rx := (getLink s1 h.link).rxSeq
      let d := sub16 h.seq rx
      if oxvRel type && d != 1 then (if 1 < d && d < 32768 then sendNak h.link (rx + 1) s1 else s1)
      else
        let s2 := if oxvRel type then updLink h.link (fun k => { k with rxSeq := h.seq % 65536 }) s1 else s1
        if h.dst % 512 = deviceId s then k s2 else forwardOn h type payload s2

/-! ### Replay and faults (R392) -/

/-- Frames of the replay buffer are sent again; a frame replayed 8 times takes the link down. -/
def replayFrom (l : Nat) (fs : List (Nat × Bytes)) (s : State) : State :=
  if fs.isEmpty then s
  else
    let s1 := fs.foldl (fun a f => emit (.oxv l f.2) a) (incF (OXV_LINK_REPLAYS l) 1 (updLink l (fun k => { k with replays := k.replays + 1 }) s))
    if 8 ≤ (getLink s1 l).replays then oxvDown l s1 else s1

/-- NAK: the sender replays from the named sequence. -/
def execNakFrame (link seq : Nat) (s : State) : Result :=
  .next (if oxvAlive s link then replayFrom link (((getLink s link).replay.take 256).dropWhile (fun e => e.1 != seq)) s else s)

/-- REPLAY_TIMEOUT: 4 µs without an ACK. -/
def execReplayTimeout (link : Nat) (s : State) : Result :=
  .next (if oxvAlive s link then replayFrom link ((getLink s link).replay.take 256) s else s)

/-- MISSED_SYNC: `early` counts the attempts that each corrected the lock by one bit. -/
def execMissedSync (link early : Nat) (s : State) : Result :=
  .next (if oxvAlive s link then incF (OXV_LINK_SLIPS link) early (incF (OXV_LINK_MISSED_SYNC link) 1 s) else s)

/-- OXV_BAD_FRAME: a NAK answers a REL frame whose FCRC or inner length fails. -/
def execOxvBadFrame (link : Nat) (fault : FrameFault) (rel : Bool) (seq : Nat) (s : State) : Result :=
  .next (if !oxvAlive s link then s
    else match fault with
    | .length => fmtErr link s
    | .hops => fmtErr link s
    | .fcrc => (if rel then sendNak link seq else id) (incF (OXV_LINK_CRC_ERR link) 1 s)
    | .inner => sendNak link seq (fmtErr link s))

/-! ### Delay measurement (R38) -/

/-- DELAY_REQ. -/
def execDelayReq (link : Nat) (payload : Bytes) (s : State) : Result :=
  .next (if oxvAlive s link then
      oxvSendOn link 3 0 (getF s (OXV_LINK_PEER link)) (fixLen 16 (Config.packOxv 3 [now s] (fixLen 8 payload))) s
    else s)

/-- DELAY_RESP: `ns` is half the round trip. -/
def execDelayResp (link ns : Nat) (s : State) : Result :=
  .next (if !oxvAlive s link || (getLink s link).delayAt.isNone then s
    else
      let n := min ns 65535
      let s1 := updLink link (fun k => { k with delayAt := none }) (setF (OXV_LINK_DELAY_NS link) n s)
      if link = 0 then setF STK_DIST_OXA_NS n s1 else if link = 1 then setF STK_DIST_OXB_NS n s1 else s1)

/-- The measurement of every 64 strokes on each link. -/
def sendDelays (s : State) : State :=
  [0, 1, 2, 3].foldl (fun a l =>
    if oxvAlive a l then
      updLink l (fun k => { k with delayAt := some (now a) }) (oxvSendOn l 2 0 (getF a (OXV_LINK_PEER l)) (le 8 (now a)) a)
    else a) s

/-! ### Marks (R30, R36, R39, R395) -/

/-- The payload of a MARK. -/
def markPayload (count state flog2 period root corr tag : Nat) : Bytes :=
  le 6 count ++ le 1 state ++ le 1 flog2 ++ le 4 period ++ le 2 root ++ zeros 2 ++ le 4 corr ++ zeros 4 ++ le 8 tag

/-- The root's mark of a boundary, on every link. -/
def sendMark (s : State) : State :=
  if s.oxv.tag = 0 || deviceId s != s.oxv.root then s
  else oxvSendAll 1 0 0 (markPayload s.time.stroke (lockState s) s.time.flLog2 s.time.period s.oxv.root 0 s.oxv.tag) s

/-- The period of the root takes effect with its mark (R30). -/
def markPeriod (p : Nat) (s : State) : State :=
  if p = s.time.period || p < 250 || 40000 < p then s
  else anchorRec 4 0 (setF STK_PERIOD_MICROS p { s with time := { s.time with period := p } })

/-- The first valid mark of a stroke (R36, R39), which sets a boundary at its arrival less CORR, less the delay of its link (R38, R395):
`lateNs` is how late the boundary it sets falls after this device's own
boundary of the stroke that is open; at BOOT the root's count, phase and period are taken. -/
def takeMark (count period : Nat) (lateNs : Int) (s : State) : State :=
  if s.time.src != 3 then s
  else
    let s1 := { s with time := { s.time with sinceMark := 0 } }
    if s1.time.bootWait && s1.mode.cur == .boot then
      let s2 := markPeriod period s1
      let ref := ((count * strokeNs s2 + phaseNs s1 : Nat) : Int) - lateNs
      bootReference (ref.toNat / strokeNs s2) (ref.toNat % strokeNs s2) s2
    else markPeriod period (measure (((count : Int) - (s1.time.stroke : Int)) * (strokeNs s1 : Int) - lateNs) s1)

/-- MARK: a mark of another domain is counted; the first copy is taken, and forwarded with its CORR; the residence time is a
free value. `arrivalNs` is how long after this device's own boundary of the open stroke it arrives. -/
def execMarkFrame (frac : Nat) (h : OxvHdr) (count state flog2 period root corr tag : Nat) (arrivalNs : Int) (s : State) : Result :=
  let s := atFrac frac s
  .next (if !oxvAlive s h.link then s
    else if tag = 0 || tag != s.oxv.tag then incF OXV_STATUS_FOREIGN 1 s
    else if deviceId s = s.oxv.root || s.oxv.lastMark == some count then s
    else
      let r := takeFree s
      let c := (corr + r.1 + getF s (OXV_LINK_DELAY_NS h.link)) % 2 ^ 32
      let s1 := r.2
      let x := (mget s1.oxv.stats root).getD {}
      let s2 := { s1 with oxv := { s1.oxv with lastMark := some count, stats := mset s1.oxv.stats root { x with corr := corr, holdover := state == 3 } } }
      let s3 := if 200 ≤ h.hops + 1 then fmtErr h.link s2
        else [0, 1, 2, 3].foldl (fun a l =>
          if l = h.link then a
          else oxvPut l 1 (h.flags % 8) h.dst h.src (h.hops + 1) 0 (markPayload count state flog2 period root c tag) a) s2
      takeMark count period (arrivalNs - ((corr + getF s (OXV_LINK_DELAY_NS h.link) : Nat) : Int)) s3)

/-! ### Flourish digests (R142, R396) -/

/-- FD: from a neighbour; OXA0 and OXA1 fill slot A, OXB0 and OXB1 slot B. -/
def execFdFrame (h : OxvHdr) (dev index : Nat) (fd : Bytes) (s : State) : Result :=
  .next (if oxvAlive s h.link then takeFd (h.link % 2 == 1) (dev % 512) index (fixLen 48 fd) s else s)

/-! ### STATUS frames and reachability (R62, R394, R399) -/

/-- Followers of this head. -/
def followersOf (s : State) : List Nat :=
  ((membersOf s.oxv.cfg).map (·.1)).filter (fun d => ringOf d == ringOf (deviceId s) && d != deviceId s)

/-- Commands of a follower are outstanding. -/
def hasProxied (s : State) (d : Nat) : Bool := s.oxv.proxied.any (fun e => e.1 == placeIn d)

/-- Attention code 5: a follower has raised a code, or cannot be reached with commands outstanding. -/
def showDomainAttn (s : State) : State :=
  if !isHead s then s
  else
    setF FN_ATTN_DOMAIN (bit ((followersOf s).any (fun d => match mget s.oxv.stats d with
      | some m => m.attn % 16 != 0 || (m.lost && hasProxied s d)
      | none => false))) s

/-- Frames held for a member go out. -/
def sendHeld (d : Nat) (s : State) : State :=
  let mine := s.oxv.held.filter (fun e => e.1 == d)
  mine.foldl (fun a e => oxvTo e.1 e.2.1 e.2.2 a) { s with oxv := { s.oxv with held := s.oxv.held.filter (fun e => e.1 != d) } }

/-- A member's STATUS. -/
def takeStatus (h : OxvHdr) (mode attn rev min index lag ups : Nat) (s : State) : State :=
  if !isMember s h.src || h.src = deviceId s then s
  else
    let old := (mget s.oxv.stats h.src).getD {}
    let m : MemberStat := { mode := mode, attn := attn, rev := rev, min := min, index := index, lag := lag, ups := ups, dtime := now s,
                            hops := h.hops + 1, link := h.link, corr := old.corr, holdover := old.holdover, lost := false }
    showDomainAttn (sendHeld h.src { s with oxv := { s.oxv with stats := mset s.oxv.stats h.src m } })

/-- OXV_STATUS_FRAME. -/
def execOxvStatusFrame (h : OxvHdr) (mode attn rev min index lag ups : Nat) (s : State) : Result :=
  .next (oxvReceive h 7 (fixLen 32 (Config.packOxv 7 (statusFields mode attn rev min index lag ups) []))
    (takeStatus h mode attn rev min index lag ups) s)

/-- A follower loses its head (R399): commands sent to it are treated as when a link goes down; what it completed goes back when
the head is reached again, the rest as interrupted. -/
def loseHead (head : Nat) (s : State) : State :=
  let s1 := abandonCmds (fun f _ => f == 0) (some .commandInterrupted) s
  let s2 := s1.oxv.proxied.foldl (fun a e => oxvTo head 10 (proxyPayload 3 [e.2.1, e.2.2] []) a) s1
  updFn 0 (fun x => { x with sqs := x.sqs.map (fun e => (e.1, { e.2 with head := e.2.tail })) })
    { s2 with oxv := { s2.oxv with proxied := [] } }

/-- MEMBER_UNREACHABLE: no STATUS for 192 strokes. -/
def execMemberUnreachable (dev : Nat) (s : State) : Result :=
  let x := (mget s.oxv.stats dev).getD {}
  .next (if !isMember s dev || dev = deviceId s || x.lost || s.time.stroke < x.dtime / 65536 + 192 then s
    else
      let s1 := { s with oxv := { s.oxv with stats := mset s.oxv.stats dev { x with lost := true } } }
      let s2 := if flagF s1 OXV_REMOTE_BUSY && getF s1 OXV_REMOTE_DEVICE == dev then setF OXV_REMOTE_BUSY 0 (setF OXV_REMOTE_ERR 1 s1)
        else s1
      if follower s && headOf s == some dev then loseHead dev s2 else showDomainAttn s2)

/-! ### OXV_REMOTE (R397 to R399, R406) -/

/-- A write of OXV_REMOTE: its fields, and with GO a follower's register is read or written; head only. -/
def remoteWrite (value : Nat) (s : State) : State :=
  let s1 := plainWrite 0x35200 value s
  if !bitAt value 28 || !isHead s || flagF s OXV_REMOTE_BUSY then s1
  else
    let d := getF s1 OXV_REMOTE_DEVICE
    let off := getF s1 OXV_REMOTE_OFFSET / 4 * 4
    let wr := flagF s1 OXV_REMOTE_WRITE
    if (followersOf s).contains d && reachable s d then
      oxvTo d 10 (proxyPayload 5 [off, bit wr, getF s1 OXV_DATA] []) (setF OXV_REMOTE_BUSY 1 s1)
    else setF OXV_REMOTE_ERR 1 (if wr then s1 else setF OXV_DATA 0 s1)

/-- REMOTE_GO. -/
def execRemoteGo (value : Nat) (s : State) : Result :=
  .next (match s.mode.cur with
  | .seal | .halt | .boot => s
  | _ => remoteWrite (value % 2 ^ 32) s)

end Sys2Proof.Machine
end

