-- ==== Sys2Proof/Machine/Domain.lean ====
section
/-!
DEFINITION. DOMAIN CONFIGURE and the domain status log (spec/17_oxvia_link_and_domains.md R403 to R405, spec/02 R37), and mirror
pairs (R400 to R402).
-/

namespace Sys2Proof.Machine

/-! ### The structure of R403 -/

def cfgTag (c : Bytes) : Nat := leAt c 8 8

/-- Positions of a ring run from 0 without a gap. -/
def contiguous (ids : List Nat) (r : Nat) : Bool :=
  let ps := (ids.filter (fun d => ringOf d == r)).map placeIn
  (List.range ps.length).all (fun p => ps.contains p)

/-- Members of a ring. -/
def ringCount (ids : List Nat) (r : Nat) : Nat := (ids.filter (fun d => ringOf d == r)).length

/-- The topology's rings and counts (R393). -/
def topoOk (topo rings : Nat) (ids : List Nat) : Bool :=
  match topo with
  | 1 => rings == 1 && ids.all (fun d => d < 64) && contiguous ids 0
  | 2 => rings == 1 && ids.all (fun d => d < 64) && contiguous ids 0 && 3 ≤ ids.length
  | 3 => 2 ≤ rings && rings ≤ 8 && ids.all (fun d => ringOf d < rings) &&
      (List.range rings).all (fun r => contiguous ids r && 3 ≤ ringCount ids r)
  | _ => false

/-- Reserved bytes of the structure are 0. -/
def cfgReservedOk (c : Bytes) : Bool :=
  allZero (slice c 40 24) && (List.range (leAt c 2 2)).all (fun i =>
    leAt c (64 + 32 * i + 20) 2 < 512 && byteAt c (64 + 32 * i + 22) < 2 && allZero (slice c (64 + 32 * i + 23) 9))

/-- The checks of the structure itself (R403, R404). -/
def cfgOk (c : Bytes) : Bool :=
  let n := leAt c 2 2
  let ids := (membersOf c).map (·.1)
  byteAt c 0 == 0x60 && byteAt c 1 == 1 && 1 ≤ n && n ≤ 512 && leAt c 4 4 == 64 + 32 * n && cfgTag c != 0 &&
    (byteAt c 18 == 1 || byteAt c 18 == 2) && 8 ≤ byteAt c 19 && byteAt c 19 ≤ 14 && 250 ≤ leAt c 20 4 && leAt c 20 4 ≤ 40000 &&
    cfgReservedOk c && topoOk (byteAt c 16) (byteAt c 17) ids && ids.contains (leAt c 24 2)

/-- This device's place among the members, by its serial number. -/
def myIndex (c : Bytes) : Option Nat :=
  (List.range (leAt c 2 2)).find? (fun i => memberSn c i == fixLen 20 Config.serialNumber)

def idAt (c : Bytes) (i : Nat) : Nat := leAt c (64 + 32 * i + 20) 2 % 512

/-- A member's check of its own entry: a gateway needs SPLIT, a chain that is no longer provisional keeps its H, and the period
divides a second at a root on the pin PPS_IN. -/
def memberOk (s : State) (c : Bytes) (i : Nat) : Bool :=
  let d := idAt c i
  !(byteAt c 16 == 3 && placeIn d == 0 && !flagF s OXV_CTL_SPLIT) &&
    !(!s.chain.provisional && s.chain.hashSel != byteAt c 18) &&
    !(d == leAt c 24 2 && getF s STK_CTL_SRC == 2 && 1000000 % leAt c 20 4 != 0)

/-! ### The phases (R404) -/

/-- A CONTROL frame's payload: the phase (0 PREPARE, 1 ready, 2 busy, 3 refused, 4 COMMIT, 5 acknowledgement, 6 abort, 7 mirror
end), its numbers and its data. -/
def controlPayload (phase : Nat) (args : List Nat) (data : Bytes) : Bytes := Config.packOxv 6 (phase :: args) data

def mySn : Bytes := fixLen 20 Config.serialNumber

/-- The device's answer to a PREPARE; none in ACTIVATE or where it is not named. -/
def prepareReply (s : State) (src : Nat) (c : Bytes) : Option Nat :=
  match myIndex c with
  | none => none
  | some i =>
    if s.mode.cur = .activate then none
    else if s.oxv.prepared.any (fun p => p.2 != c || p.1 != src) then some 2
    else if memberOk s c i then some 1 else some 3

/-- All members by their place. -/
def allIn (c : Bytes) (l : List Nat) : Bool := (List.range (leAt c 2 2)).all (fun i => l.contains i)

/-- The first boundary at least 16 strokes ahead. -/
def commitStroke16 (s : State) : Nat := s.time.stroke + 16 + (if s.time.frac = 0 then 0 else 1)

/-- The coordinator ends the configuration with an error: abort is flooded. -/
def abortDomain (k : Coord) (st : Status) (s : State) : State :=
  complete k.fn k.sqid k.cid st 0 0
    (oxvFlood 6 (controlPayload 6 [cfgTag k.cfg] []) { s with oxv := { s.oxv with coord := none, prepared := none } })

/-- Every member is ready: COMMIT is flooded, and the coordinator acknowledges its own. -/
def sendCommit (k : Coord) (s : State) : State :=
  let n := commitStroke16 s
  let me := (myIndex k.cfg).map (fun i => [i])
  oxvFlood 6 (controlPayload 4 [cfgTag k.cfg, n] [])
    { s with oxv := { s.oxv with commitAt := some n, coord := some { k with commitAt := some n, acked := me.getD [] } } }

/-- The command completes once every member has acknowledged the COMMIT. -/
def checkAcked (s : State) : State :=
  match s.oxv.coord with
  | some k =>
    if k.commitAt.isSome && allIn k.cfg k.acked then
      complete k.fn k.sqid k.cid .success 0 0 { s with oxv := { s.oxv with coord := none } }
    else s
  | none => s

def checkReady (s : State) : State :=
  match s.oxv.coord with
  | some k => if k.commitAt.isNone && allIn k.cfg k.ready then checkAcked (sendCommit k s) else s
  | none => s

/-- The member of a serial number. -/
def indexOfSn (c : Bytes) (sn : Bytes) : Option Nat :=
  (List.range (leAt c 2 2)).find? (fun i => memberSn c i == fixLen 20 sn)

/-- A member of the new structure that an old one shows in ACTIVATE (R380). -/
def memberActivating (s : State) (c : Bytes) : Bool :=
  (List.range (leAt c 2 2)).any (fun i => match indexOfSn s.oxv.cfg (memberSn c i) with
    | some j => ((mget s.oxv.stats (idAt s.oxv.cfg j)).map (·.mode)).getD 0 == 11
    | none => false)

def domainRow (len : Nat) : AdminRow := { pfOnly := true, nsid0 := true, len := len }

/-- What DOMAIN CONFIGURE does at its coordinator. -/
def domainConfigure (q : Sqe) (numd : Nat) (data : Bytes) (s : State) : State :=
  let c := numdData numd data
  match firstError [
      (leAt c 4 4 != (numd + 1) * 4, .lengthMismatch),
      (!cfgOk c || (match myIndex c with | none => true | some i => !memberOk s c i), .invalidField),
      (s.oxv.prepared.isSome || s.oxv.coord.isSome, .statePending),
      (memberActivating s c, .domainUnreachable)] with
  | some st => done q st 0 0 s
  | none =>
    let k : Coord := { fn := q.fn, sqid := q.sqid, cid := q.cid, cfg := c, since := s.time.stroke,
                       ready := (myIndex c).toList }
    checkReady (oxvFlood 6 (controlPayload 0 [] c)
      { s with oxv := { s.oxv with coord := some k, prepared := some (deviceId s, c) } })

/-- DOMAIN_CONFIGURE. -/
def execDomainConfigure (q : Sqe) (numd : Nat) (data : Bytes) (s : State) : Result :=
  adminFetch { domainRow ((numd + 1) * 4) with got := some data.length } q (domainConfigure q numd data) s

/-- What ACTION 1 does (R37): the count goes to an ahead reference at the next boundary. -/
def domainRealign (q : Sqe) (s : State) : State :=
  if lockState s = 4 && 0 < s.time.offsetNs then done q .success 0 0 { s with time := { s.time with realign := true } }
  else done q .commandSequenceError 0 0 s

/-- DOMAIN_REALIGN. -/
def execDomainRealign (q : Sqe) (s : State) : Result := adminFetch (domainRow 0) q (domainRealign q) s

/-- DOMAIN_PREPARE_TIMEOUT: a member not ready within 64 strokes. -/
def execDomainPrepareTimeout (s : State) : Result :=
  .next (match s.oxv.coord with
  | some k => if k.commitAt.isNone && k.since + 64 ≤ s.time.stroke then abortDomain k .domainUnreachable s else s
  | none => s)

/-- The source of a member's count after the commit, with the source-change anchor (R41, R404, R475). -/
def commitSource (root : Bool) (s : State) : State :=
  let s1 := if root then s else setF STK_CTL_SRC 3 s
  if getF s1 STK_CTL_SRC = s1.time.src then anchorRec 3 0 s1 else sourceChange s1

/-- A root that runs free or on STROKE_IO starts its count at START_STROKE; it never falls. -/
def commitCount (root : Bool) (start : Nat) (s : State) : State :=
  if root && (s.time.src == 4 || lockState s == 0) then { s with time := { s.time with stroke := max s.time.stroke start } } else s

/-- The root's period changes under R30. -/
def commitPeriod (root : Bool) (p : Nat) (s : State) : State :=
  if root && p != s.time.period then setF STK_PERIOD_MICROS p (setF STK_PENDING_MICROS p (setF STK_PENDING_VALID 1 s)) else s

/-- A member takes its place in the domain (R404, step 4). -/
def joinDomain (c : Bytes) (i : Nat) (s : State) : State :=
  let id := idAt c i
  let root := id == leAt c 24 2
  let old := deviceId s
  let s1 := commitCount root (leAt c 26 6) s
  let s2 := { s1 with
    time := { s1.time with epochNs := leAt c 32 8 },
    chain := { s1.chain with restartTo := (commitRestarts s1).or s1.chain.restartTo },
    oxv := { s1.oxv with tag := cfgTag c, rings := byteAt c 17, root := leAt c 24 2, cfg := c, prepared := none, commitAt := none,
                         stats := [], lastMark := none } }
  let s3 := setF OXV_ID_DEVICE id (setF OXV_ID_TOPO (byteAt c 16) (setF FN_RDYBSY_SLOT (id % 64) (setF STK_STATUS_ROOT (bit root)
    (setF PNC_CTL_FLOURISH_LOG2 (byteAt c 19) (setF PNC_CTL_HASH_SEL (byteAt c 18 - 1) s2)))))
  faultRec 0x16 id s.time.stroke (old + id * 65536) (commitSource root (commitPeriod root (leAt c 20 4) s3))

/-- DOMAIN_COMMIT: at the boundary that the COMMIT named, or the first after it that this device reaches. A stroke that opened before
the COMMIT came carries the old chain on, so that a restart waits for the next one. -/
def execDomainCommit (s : State) : Result :=
  .next (match s.oxv.prepared, s.oxv.commitAt with
  | some (_, c), some n =>
    (match myIndex c with
    | some i => if s.time.frac = 0 && n ≤ s.time.stroke && !(strokeOpen s && (commitRestarts s).isSome) then joinDomain c i s else s
    | none => s)
  | _, _ => s)

/-! ### Mirror pairs: forming (R400) -/

def getPair (s : State) (i : Nat) : MirrorPair := (mget s.oxv.mirrors i).getD {}

def updPair (i : Nat) (g : MirrorPair → MirrorPair) (s : State) : State :=
  { s with oxv := { s.oxv with mirrors := mset s.oxv.mirrors i (g (getPair s i)) } }

def mirrorOn (s : State) (i : Nat) : Bool := flagF s (OXV_MIRROR_EN i)

/-- This end meets the conditions: a sealed namespace; at a target that forms a pair, nothing written and no flow bound. -/
def mirrorFit (s : State) (i : Nat) : Bool :=
  match getNs s (getF s (OXV_MIRROR_NSID i)) with
  | none => false
  | some x => x.sealed && !(getPair s i).full &&
      (!flagF s (OXV_MIRROR_ROLE i) || (getPair s i).formed || (x.wp == 0 && !flowsOn s (getF s (OXV_MIRROR_NSID i))))

/-- Tell the partner of this end. -/
def sendMirrorEnd (i : Nat) (s : State) : State :=
  oxvTo (getF s (OXV_MIRROR_PARTNER i)) 6 (controlPayload 7 [getF s (OXV_MIRROR_NSID i), getF s (OXV_MIRROR_PARTNER_NSID i),
    1 - getF s (OXV_MIRROR_ROLE i), bit (mirrorFit s i)] []) s

/-- The entry that names the other end. -/
def mirrorEntry (s : State) (src nsid partnerNsid : Nat) (source : Bool) : Option Nat :=
  (List.range 16).find? (fun i => mirrorOn s i && getF s (OXV_MIRROR_PARTNER i) == src && getF s (OXV_MIRROR_NSID i) == partnerNsid &&
    getF s (OXV_MIRROR_PARTNER_NSID i) == nsid && flagF s (OXV_MIRROR_ROLE i) == source)

/-- The target is full: mirroring of the pair stops, and LAG saturates at the source (R402). -/
def mirrorFull (i : Nat) (s : State) : State :=
  faultRec 0x12 i s.time.stroke 0 (setF (OXV_MIRROR_ACTIVE i) 0 (setF (OXV_MIRROR_LAG i)
    (if flagF s (OXV_MIRROR_ROLE i) then 0 else 65535) (updPair i (fun p => { p with full := true, agreed := false }) s)))

/-- A partner's end. An active source whose partner starts again goes back to what it has acknowledged (R402). -/
def takeMirrorEnd (src nsid partnerNsid : Nat) (source fit : Bool) (s : State) : State :=
  match mirrorEntry s src nsid partnerNsid source with
  | none => s
  | some i =>
    if flagF s (OXV_MIRROR_ACTIVE i) then
      if !fit && !flagF s (OXV_MIRROR_ROLE i) then mirrorFull i s
      else sendMirrorEnd i (updPair i (fun p => { p with next := p.ackNext, part := [] }) s)
    else updPair i (fun p => { p with agreed := true, fit := fit }) s

/-! ### CONTROL frames -/

/-- A member's or the coordinator's part of a phase. -/
def takeControl (h : OxvHdr) (m : ControlMsg) (s : State) : State :=
  match m with
  | .prepare c =>
    (match prepareReply s h.src c with
    | none => s
    | some r => oxvFlood 6 (controlPayload r [cfgTag c] mySn)
        (if r = 1 then { s with oxv := { s.oxv with prepared := some (h.src, c) } } else s))
  | .ready sn =>
    (match s.oxv.coord with
    | some k => checkReady { s with oxv := { s.oxv with coord := some { k with ready := k.ready ++ (indexOfSn k.cfg sn).toList } } }
    | none => s)
  | .busy sn =>
    (match s.oxv.coord with
    | some k => if k.commitAt.isNone && (indexOfSn k.cfg sn).isSome then abortDomain k .statePending s else s
    | none => s)
  | .refused sn =>
    (match s.oxv.coord with
    | some k => if k.commitAt.isNone && (indexOfSn k.cfg sn).isSome then abortDomain k .invalidField s else s
    | none => s)
  | .commit tag stroke =>
    (match s.oxv.prepared with
    | some (_, c) => if cfgTag c = tag then
        oxvFlood 6 (controlPayload 5 [tag] mySn) { s with oxv := { s.oxv with commitAt := some stroke } } else s
    | none => if s.oxv.tag = tag then oxvFlood 6 (controlPayload 5 [tag] mySn) s else s)
  | .ack sn =>
    (match s.oxv.coord with
    | some k => checkAcked { s with oxv := { s.oxv with coord := some { k with acked := k.acked ++ (indexOfSn k.cfg sn).toList } } }
    | none => s)
  | .abort => if s.oxv.commitAt.isNone then { s with oxv := { s.oxv with prepared := none } } else s
  | .mirrorEnd nsid partner source fit => takeMirrorEnd h.src nsid partner source fit s

/-- The payload that a message spells, to be forwarded. -/
def controlBytes : ControlMsg → Bytes
  | .prepare c => controlPayload 0 [] c
  | .ready sn => controlPayload 1 [] sn
  | .busy sn => controlPayload 2 [] sn
  | .refused sn => controlPayload 3 [] sn
  | .commit tag stroke => controlPayload 4 [tag, stroke] []
  | .ack sn => controlPayload 5 [] sn
  | .abort => controlPayload 6 [] []
  | .mirrorEnd a b src fit => controlPayload 7 [a, b, bit src, bit fit] []

/-- CONTROL. -/
def execControlFrame (h : OxvHdr) (m : ControlMsg) (s : State) : Result :=
  .next (oxvReceive h 6 (controlBytes m) (takeControl h m) s)

/-- A COMMIT is replayed until it is acknowledged. -/
def repeatCommit (s : State) : State :=
  match s.oxv.coord with
  | some k => (match k.commitAt with
    | some n => oxvFlood 6 (controlPayload 4 [cfgTag k.cfg, n] []) s
    | none => s)
  | none => s

/-! ### Mirror pairs: data (R401, R402) -/

/-- The inner header of a MIRROR frame is 16 bytes, so a block of 4,096 bytes goes in two frames (notes/assumptions/62). -/
def mirrorPayload (nsid stroke lba : Nat) (data : Bytes) : Bytes :=
  fixLen 16 (Config.packOxv 8 [nsid, stroke, lba, data.length] []) ++ data

/-- The source stroke of a block: the latest whose run touches it. -/
def blockStroke (x : Ns) (lba : Nat) : Nat := (x.runs.filter (fun r => r.touches x.blk lba 1)).foldl (fun a r => max a r.stroke) 0

/-- Data of a block whose runs have all been freed is gone. -/
def blockFreed (x : Ns) (lba : Nat) : Bool :=
  let rs := x.runs.filter (fun r => r.touches x.blk lba 1)
  !rs.isEmpty && rs.all (·.freed)

/-- One block goes out: zeros with a FAULT 12h where its data was freed before. -/
def sendBlock (i : Nat) (s : State) (lba : Nat) : State :=
  match getNs s (getF s (OXV_MIRROR_NSID i)) with
  | none => s
  | some x =>
    let gone := blockFreed x lba
    let d := if gone then zeros 4096 else fixLen 4096 (blockData s x lba 1)
    let partner := getF s (OXV_MIRROR_PARTNER i)
    let t := getF s (OXV_MIRROR_PARTNER_NSID i)
    let n := blockStroke x lba
    let s1 := if gone then faultRec 0x12 i s.time.stroke lba s else s
    oxvTo partner 8 (mirrorPayload t n lba (d.drop 2048)) (oxvTo partner 8 (mirrorPayload t n lba (d.take 2048)) s1)

/-- The mirror lag, with FAULT 12h above LAG_WARN and 13h when it is back at 2. -/
def mirrorLag (i : Nat) (s : State) : State :=
  let p := getPair s i
  let lag := (s.chain.lastSealed.getD 0) - (p.acked.getD 0)
  let s1 := setF (OXV_MIRROR_LAG i) (min lag 65535) s
  let away := !reachable s (getF s (OXV_MIRROR_PARTNER i))
  if !p.warned && (away || getF s OXV_CTL_LAG_WARN < lag) then
    faultRec 0x12 i s.time.stroke lag (updPair i (fun q => { q with warned := true }) s1)
  else if p.warned && !away && lag ≤ 2 then faultRec 0x13 i s.time.stroke lag (updPair i (fun q => { q with warned := false }) s1)
  else s1

/-- An active source sends its new blocks and names the stroke that follows them. -/
def mirrorSource (i : Nat) (s : State) : State :=
  match getNs s (getF s (OXV_MIRROR_NSID i)) with
  | none => s
  | some x =>
    let p := getPair s i
    let partner := getF s (OXV_MIRROR_PARTNER i)
    if !reachable s partner then mirrorLag i s
    else
      let s1 := ((List.range (x.wp - p.next)).map (· + p.next)).foldl (sendBlock i) s
      let s2 := oxvTo partner 8 (mirrorPayload (getF s (OXV_MIRROR_PARTNER_NSID i)) s.time.stroke x.wp []) s1
      mirrorLag i (updPair i (fun q => { q with next := max q.next x.wp }) s2)

/-- The pair forms or dissolves at a boundary. -/
def mirrorState (i : Nat) (s : State) : State :=
  let p := getPair s i
  if !mirrorOn s i then
    (if flagF s (OXV_MIRROR_ACTIVE i) || mhas s.oxv.mirrors i then
      setF (OXV_MIRROR_ACTIVE i) 0 (setF (OXV_MIRROR_LAG i) 0 { s with oxv := { s.oxv with mirrors := merase s.oxv.mirrors i } })
    else s)
  else if flagF s (OXV_MIRROR_ACTIVE i) then (if flagF s (OXV_MIRROR_ROLE i) then s else mirrorSource i s)
  else if p.agreed && p.fit && mirrorFit s i then
    setF (OXV_MIRROR_ACTIVE i) 1 (updPair i (fun q => { q with
      formed := true, agreed := false, next := q.ackNext, part := [], stroke := none,
      acked := if q.formed then q.acked else s.chain.lastSealed }) s)
  else if s.time.stroke % 64 = 0 && !p.full then sendMirrorEnd i s
  else s

/-- What a boundary does to the mirror pairs. -/
def mirrorBoundary (s : State) : State := (List.range 16).foldl (fun a i => mirrorState i a) s

/-- A block reaches the target: appended at its own LBA, in the stroke that is open (R401). -/
def mirrorAppend (nsid : Nat) (data : Bytes) (s : State) : State :=
  match getNs s nsid with
  | none => s
  | some x =>
    let run : SealedRun := { stroke := s.time.stroke, stream := x.stream, pos := x.wp * 4096, bytes := 4096, size := 4096 }
    let s1 := absorb x.stream nsid x.wp 0 data (updNs nsid (fun y => { y with runs := y.runs ++ [run] }) s)
    notePeak (appendBlocks nsid data s1)

/-- Stroke `n` of the source is complete in the target's Inkwell when a later one is named. -/
def mirrorAckOut (i n : Nat) (s : State) : State :=
  oxvTo (getF s (OXV_MIRROR_PARTNER i)) 9
    (fixLen 16 (Config.packOxv 9 [getF s (OXV_MIRROR_PARTNER_NSID i), n] [])) s

/-- A MIRROR frame at the target: blocks below the write pointer are dropped; a full target stops the pair. -/
def takeMirror (h : OxvHdr) (nsid stroke lba : Nat) (data : Bytes) (s : State) : State :=
  match (List.range 16).find? (fun i => mirrorOn s i && flagF s (OXV_MIRROR_ROLE i) && getF s (OXV_MIRROR_NSID i) == nsid &&
      getF s (OXV_MIRROR_PARTNER i) == h.src) with
  | none => fmtErr h.link s
  | some i =>
    if !flagF s (OXV_MIRROR_ACTIVE i) then s
    else
      let p := getPair s i
      let s1 := match p.stroke with
        | some n => if n < stroke then mirrorAckOut i (stroke - 1) s else s
        | none => s
      let s2 := updPair i (fun q => { q with stroke := some stroke }) s1
      match getNs s2 nsid with
      | none => s2
      | some x =>
        if data.isEmpty || lba != x.wp then s2
        else if x.nsze ≤ x.wp then sendMirrorEnd i (mirrorFull i s2)
        else
          let blk := p.part ++ data
          if blk.length < 4096 then updPair i (fun q => { q with part := blk }) s2
          else mirrorAppend nsid (fixLen 4096 blk) (updPair i (fun q => { q with part := [] }) s2)

/-- MIRROR. -/
def execMirrorFrame (h : OxvHdr) (nsid stroke lba : Nat) (data : Bytes) (s : State) : Result :=
  .next (oxvReceive h 8 (mirrorPayload nsid stroke lba data) (takeMirror h nsid stroke lba data) s)

/-- The LBA after the last block of the strokes up to `n`. -/
def blocksTo (x : Ns) (n : Nat) : Nat :=
  min x.wp ((x.runs.filter (fun r => r.stroke ≤ n)).foldl (fun a r => max a ((r.pos + r.size) / x.blk)) 0)

/-- An acknowledgement moves the source's position on. -/
def takeMirrorAck (h : OxvHdr) (nsid stroke : Nat) (s : State) : State :=
  match (List.range 16).find? (fun i => mirrorOn s i && !flagF s (OXV_MIRROR_ROLE i) && getF s (OXV_MIRROR_NSID i) == nsid &&
      getF s (OXV_MIRROR_PARTNER i) == h.src && flagF s (OXV_MIRROR_ACTIVE i)), getNs s nsid with
  | some i, some x =>
    mirrorLag i (updPair i (fun q => { q with acked := some (max stroke (q.acked.getD 0)), ackNext := max q.ackNext (blocksTo x stroke) }) s)
  | _, _ => s

/-- MIRROR_ACK. -/
def execMirrorAck (h : OxvHdr) (nsid stroke : Nat) (s : State) : Result :=
  .next (oxvReceive h 9 (fixLen 16 (Config.packOxv 9 [nsid, stroke] [])) (takeMirrorAck h nsid stroke) s)

/-! ### Log C4h (R405) -/

/-- The links that a member has in the topology. -/
def linksOf (s : State) (d : Nat) : List Nat :=
  match getF s OXV_ID_TOPO with
  | 1 => (if placeIn d + 1 < ringSize s 0 then [0] else []) ++ (if 0 < placeIn d then [1] else [])
  | 3 => if placeIn d = 0 then [0, 1, 2, 3] else [0, 1]
  | _ => [0, 1]

/-- A neighbour whose revision a link refuses. -/
def refusedPeer (s : State) (d : Nat) : Bool :=
  [0, 1, 2, 3].any (fun l => flagF s (OXV_LINK_REV_FAIL l) && getF s (OXV_LINK_PEER l) == d)

/-- What the log shows of a member: the device's own state for itself. -/
def statOfMember (s : State) (d : Nat) : MemberStat :=
  if d = deviceId s then
    { mode := s.mode.cur.code, rev := linkRev s, min := linkMin s, index := s.chain.flIndex - 1, lag := maxLag s, ups := upMask s,
      dtime := now s, holdover := lockState s == 3 }
  else (mget s.oxv.stats d).getD {}

/-- Entry byte 0. -/
def memberState (s : State) (d : Nat) : Nat :=
  let m := statOfMember s d
  if !isMember s d then 0 else if refusedPeer s d then 4 else if m.lost then 2 else if m.mode = 11 then 3 else 1

def memberEntry (s : State) (d : Nat) : Bytes :=
  if !isMember s d then zeros 32
  else
    let m := statOfMember s d
    let head := (membersOf s.oxv.cfg).any (fun e => e.1 == d && bitAt e.2 0)
    let flags := bit head + 2 * bit (getF s OXV_ID_TOPO == 3 && placeIn d == 0) + 4 * bit (d == s.oxv.root) + 8 * bit m.holdover
      + 16 * bit ((linksOf s d).all (fun l => bitAt m.ups l))
    le 1 (memberState s d) ++ le 1 m.hops ++ le 1 m.link ++ le 1 flags ++ le 2 m.rev ++ le 2 m.min ++ le 8 m.index ++ le 4 m.corr
      ++ le 4 m.lag ++ le 8 m.dtime

/-- The lowest value of a field among the members reached. -/
def lowest (l : List Nat) : Nat :=
  match l with
  | [] => 0
  | x :: t => t.foldl min x

/-- Header byte 26. -/
def domainPhase (s : State) : Nat :=
  if s.oxv.coord.any (fun k => k.commitAt.isSome) then 3
  else if s.oxv.prepared.isSome then 1
  else if s.oxv.tag = 0 then 0 else 2

def domainLog (s : State) : Bytes :=
  let ids := if s.oxv.tag = 0 then [] else (membersOf s.oxv.cfg).map (·.1)
  let live := ids.filter (fun d => memberState s d == 1 || memberState s d == 3)
  le 8 (now s) ++ le 8 s.oxv.tag ++ le 2 (deviceId s) ++ le 2 ids.length ++ le 1 (getF s OXV_ID_TOPO)
    ++ le 1 (if s.oxv.tag = 0 then 0 else s.oxv.rings) ++ le 2 s.oxv.root ++ le 2 live.length ++ le 1 (domainPhase s) ++ zeros 1
    ++ le 2 (lowest (live.map (fun d => (statOfMember s d).rev))) ++ le 2 (lowest (live.map (fun d => (statOfMember s d).min)))
    ++ zeros 32 ++ ((List.range 512).map (memberEntry s)).flatten

end Sys2Proof.Machine
end

