-- ==== Sys2Proof/Machine/Identify.lean ====
section
/-!
DEFINITION. Identify (spec/04_command_queueing.md R70, R71, R82, R87, spec/03 R54, spec/07 R146, R149). The offsets of the
structures are those of the base specification (notes/assumptions/64).
-/

namespace Sys2Proof.Machine

/-- A structure of `n` bytes from its fields, each at its offset; the other bytes are 0. -/
def lay (n : Nat) (fs : List (Nat × Bytes)) : Bytes := fs.foldl (fun a e => splice a e.1 e.2) (zeros n)

/-- Text padded with spaces. -/
def text (n : Nat) (x : String) : Bytes := (ascii x ++ List.replicate n 0x20#8).take n

/-- The power state descriptors of R82: power in 10 mW, non-operational, entry and exit latency in microseconds. -/
def powerStates : List (Nat × Nat × Nat × Nat) :=
  [(3400, 0, 0, 0), (1100, 0, 100, 100), (220, 0, 5000, 5000), (60, 1, 20000, 30000), (4, 1, 2000000, 4000000)]

def powerBytes (p : Nat × Nat × Nat × Nat) : Bytes :=
  le 2 p.1 ++ zeros 1 ++ le 1 (p.2.1 * 2) ++ le 4 p.2.2.1 ++ le 4 p.2.2.2 ++ zeros 20

/-- CNTLID: the function number; on a follower, the VF of the head that presents it (R398). -/
def controllerId (s : State) (f : Nat) : Nat := if f = 0 && follower s then placeIn (deviceId s) else f

/-- Identify Controller (R70). -/
def identifyController (s : State) (f : Nat) : Bytes :=
  lay 4096 [
    (0, le 2 (Config.vendorIds % 65536)), (2, le 2 (Config.vendorIds / 65536)), (4, fixLen 20 Config.serialNumber),
    (24, text 40 "Dvortin NB7640"), (64, fixLen 8 (Config.revText (getF s (FWU_REV 2)))), (72, le 1 6), (76, le 1 6),
    (77, le 1 9), (78, le 2 (controllerId s f)), (80, le 4 0x20000), (92, le 4 0x300), (96, le 4 0x10), (256, le 2 0xFE),
    (258, le 1 3), (259, le 1 7), (260, le 1 0x14), (261, le 1 6), (262, le 1 255), (263, le 1 4), (265, le 1 1),
    (266, le 2 378), (268, le 2 388), (270, le 2 10), (328, le 4 3), (340, le 2 1), (512, le 1 0x66), (513, le 1 0x44),
    (516, le 4 1024), (520, le 2 0x8D), (536, le 4 0x50001), (540, le 4 1024), (2048, (powerStates.map powerBytes).flatten)]

/-- The LBA formats of a kind of namespace, and what they imply (R71). -/
def formatFields (sealed : Bool) (blk : Nat) : List (Nat × Bytes) :=
  let nawun := if blk = 512 then 4095 else 511
  let npwg := if sealed then 3 else if blk = 512 then 7 else 0
  [(24, le 1 0x12), (25, le 1 (bit (!sealed))), (26, le 1 (bit (blk == 512))), (30, le 1 1), (34, le 2 nawun), (36, le 2 nawun),
   (64, le 2 npwg), (66, le 2 npwg), (102, le 2 1), (128, le 4 (12 * 65536)), (132, le 4 (if sealed then 0 else 9 * 65536))]

/-- Oldest stroke whose data a sealed namespace still holds (R146). -/
def oldestHeld (x : Ns) : Nat :=
  match (x.runs.filter (fun r => !r.freed)).map (·.stroke) with
  | [] => 0
  | n :: t => t.foldl min n

/-- The vendor bytes of a sealed namespace (R71, R146). -/
def sealedFields (x : Ns) : List (Nat × Bytes) :=
  if !x.sealed then []
  else [(3840, le 1 1), (3841, le 1 (bit (!x.holds.isEmpty))), (3842, le 2 x.stream), (3848, le 8 x.wp),
    (3856, le 6 x.retain), (3862, le 1 x.rakAlg), (3864, fixLen 104 x.rak), (3968, le 6 (oldestHeld x)), (3976, le 8 x.lastNonce)]

/-- Identify Namespace (R71). -/
def identifyNs (x : Ns) : Bytes :=
  lay 4096 ([(0, le 8 x.nsze), (8, le 8 x.ncap), (16, le 8 x.ncap)] ++ formatFields x.sealed x.blk ++ sealedFields x)

/-- What every namespace has in common: NSID FFFFFFFFh. -/
def identifyCommon : Bytes := lay 4096 (formatFields false 4096)

def nsList (ids : List Nat) : Bytes := fixLen 4096 ((ids.take 1024).map (le 4)).flatten

def controllerList (ids : List Nat) : Bytes := fixLen 4096 (le 2 ids.length ++ (ids.map (le 2)).flatten)

def flexOfVfs (s : State) (p : Fn → Nat) : Nat := allFns.foldl (fun a f => if f = 0 then a else a + p (getFn s f)) 0

/-- Primary controller capabilities (R54, R71). -/
def identifyPrimary (s : State) : Bytes :=
  lay 4096 [
    (4, le 1 3), (32, le 4 15872), (36, le 4 (flexOfVfs s (·.flexQ))), (40, le 2 (getFn s 0).flexQ), (42, le 2 512),
    (44, le 2 1024), (46, le 2 1), (64, le 4 4032), (68, le 4 (flexOfVfs s (·.flexV))), (72, le 2 (getFn s 0).flexV),
    (74, le 2 64), (76, le 2 1024), (78, le 2 1)]

def secondaryEntry (s : State) (k : Nat) : Bytes :=
  le 2 k ++ zeros 2 ++ le 1 (bit (online s k)) ++ zeros 3 ++ le 2 k ++ le 2 (queuePairs s k) ++ le 2 (vectors s k) ++ zeros 18

/-- Secondary controller list (R71). -/
def identifySecondary (s : State) (start : Nat) : Bytes :=
  let ks := allFns.filter (fun k => k != 0 && start ≤ k)
  fixLen 4096 (le 1 ks.length ++ zeros 31 ++ (ks.map (secondaryEntry s)).flatten)

/-- The structure that CNS selects, or why there is none. -/
def identifyData (s : State) (f nsid cns cntid : Nat) : Except Status Bytes :=
  let all := (s.nss.map (·.1)).filter (fun n => nsid < n)
  let listBad := 0xFFFFFFFE ≤ nsid
  match cns with
  | 0x00 =>
    if nsid = 0xFFFFFFFF then .ok identifyCommon
    else if nsid = 0 || 1024 < nsid then .error .invalidNamespaceOrFormat
    else .ok (((attachedNs s f nsid).map identifyNs).getD (zeros 4096))
  | 0x01 => .ok (identifyController s f)
  | 0x02 =>
    if listBad then .error .invalidNamespaceOrFormat
    else .ok (nsList (all.filter (fun n => (attachedNs s f n).isSome)))
  | 0x03 =>
    if (attachedNs s f nsid).isNone then .error .invalidNamespaceOrFormat else .ok (fixLen 4096 [4, 0, 0, 0, 1])
  | 0x06 => .ok (zeros 4096)
  | 0x10 => if listBad then .error .invalidNamespaceOrFormat else .ok (nsList all)
  | 0x11 => match getNs s nsid with
    | some x => .ok (identifyNs x)
    | none => .error .invalidNamespaceOrFormat
  | 0x12 => match getNs s nsid with
    | some x => .ok (controllerList (allFns.filter (fun k => cntid ≤ k && x.attached.contains k)))
    | none => .error .invalidNamespaceOrFormat
  | 0x13 => .ok (controllerList (allFns.filter (fun k => cntid ≤ k)))
  | 0x14 => .ok (identifyPrimary s)
  | 0x15 => .ok (identifySecondary s cntid)
  | _ => .error .invalidField

/-- CNS values whose structure is about the namespace of NSID. -/
def nsScoped (cns : Nat) : Bool := [0x00, 0x03, 0x11, 0x12].contains cns

/-- IDENTIFY: a pending transition of the namespace that it asks about answers STATE_PENDING (R105). -/
def identify (q : Sqe) (cns cntid : Nat) (s : State) : State :=
  if nsScoped cns && q.nsid != 0xFFFFFFFF && nsPending s q.nsid then done q .statePending 0 0 s
  else match identifyData s q.fn q.nsid cns cntid with
    | .error st => done q st 0 0 s
    | .ok b => answer q b 0 s

def execIdentify (q : Sqe) (cns cntid : Nat) (s : State) : Result :=
  adminFetch { safeOk := true, len := 4096, toNs := nsScoped (cns % 256) } q (identify q (cns % 256) (cntid % 65536)) s

end Sys2Proof.Machine
end

