-- ==== Sys2Proof/Machine/Logs.lean ====
section
/-!
DEFINITION. Get Log Page (spec/04_command_queueing.md R85 to R87, spec/02 R46, spec/06 R128, spec/09 R206 to R208, spec/16 R382,
spec/17 R405, spec/19 R430, R442). Bytes of the base specification's logs that no rule gives are free (notes/assumptions/65).
-/

namespace Sys2Proof.Machine

/-- Free bytes, and the state that has taken them. -/
def takeBytes (n : Nat) (s : State) : Bytes × State :=
  (fixLen n (Config.freeBytes s.freeCount), { s with freeCount := s.freeCount + 1 })

/-- A log of `n` bytes of which only some fields are given. -/
def openLog (n : Nat) (fs : List (Nat × Bytes)) (s : State) : Bytes × State :=
  let r := takeBytes n s
  (fs.foldl (fun a e => splice a e.1 e.2) r.1, r.2)

/-! ### The logs of the base specification -/

/-- The hottest of some sensors, in kelvin; 0 where none of them works (R430). -/
def hottestK (s : State) (is : List Nat) : Nat := ((hottest s is).map (fun e => kelvin e.1)).getD 0

def sensorGroups : List (List Nat) :=
  [(0, 8), (8, 4), (12, 4), (16, 4), (20, 4), (0, 20), (20, 4), (0, 24)].map
    (fun g => (List.range g.2).map (· + g.1))

def totalErases (s : State) (d : Nat) : Nat := (getDie s d).erases.foldl (fun a e => a + e.2) 0

/-- Percentage Used: the mean erase count of the usable dies over E, rounded up (R206). -/
def percentUsed (s : State) : Nat :=
  let ds := usableDies s
  let worn := ds.foldl (fun a d => a + totalErases s d) 0
  let rated := ds.foldl (fun a d => a + Config.membersPerDie d * Config.ratedCycles d) 0
  if rated = 0 then 0 else min 255 (ceilDiv (100 * worn) rated)

/-- Critical Warning (R206, R207, R422): spare low, temperature, media read-only. -/
def criticalWarning (s : State) (f : Nat) : Nat :=
  let k := hottestK s (List.range 24)
  let x := (getFn s f).feats
  bit (getF s FTL_SPARE_AVAIL_PCT < getF s FTL_SPARE_THRESH_PCT)
    + 2 * bit (getF s CLK_STATUS_THERM_STEP == 3 || x.tempOver ≤ k || k ≤ x.tempUnder) + 8 * bit s.mode.readOnlyCond

/-- The SMART log (02h). -/
def smartFields (s : State) (f : Nat) : List (Nat × Bytes) :=
  [(0, le 1 (criticalWarning s f)), (1, le 2 (hottestK s (List.range 24))), (3, le 1 (getF s FTL_SPARE_AVAIL_PCT)),
   (4, le 1 (getF s FTL_SPARE_THRESH_PCT)), (5, le 1 (percentUsed s)), (192, le 4 (s.mon.warnUs / 60000000)),
   (196, le 4 (s.mon.critUs / 60000000)),
   (200, (sensorGroups.map (fun g => le 2 (hottestK s g))).flatten)]

/-- The Firmware Slot Information log (03h; R382). -/
def slotLog (s : State) : Bytes :=
  let text (r : Nat) : Bytes := fixLen 8 (Config.revText r)
  let staged := getF s FWU_STATUS_STAGE == 3 || getF s FWU_STATUS_STAGE == 4
  lay 512 [(0, le 1 (getF s FWU_STATUS_ACTIVE_SLOT)), (8, text ((s.fw.bank0[2]?).getD 0)),
    (16, if staged then text (getF s (FWU_STAGED_REV 2)) else zeros 8)]

/-- Namespaces that have changed since the last read (04h). -/
def changedLog (x : Fn) : Bytes := nsList x.changed

def adminOpcodes : List Nat :=
  [0x00, 0x01, 0x02, 0x04, 0x05, 0x06, 0x08, 0x09, 0x0A, 0x0C, 0x0D, 0x10, 0x11, 0x14, 0x15, 0x19, 0x1A, 0x1C, 0x1D, 0x1E,
   0x80, 0x84, 0xC1, 0xC5, 0xC9]

def ioOpcodes : List Nat :=
  [0x00, 0x01, 0x02, 0x05, 0x08, 0x09, 0x0C, 0x81, 0x84, 0x86, 0x88, 0x8A, 0x8D, 0x91, 0x94, 0x96, 0x99]

def logIds : List Nat := [0x00, 0x01, 0x02, 0x03, 0x04, 0x05, 0x06, 0x09, 0x81, 0xC0, 0xC1, 0xC2, 0xC3, 0xC4, 0xC5]

/-- Bit 0 says that a code is supported; the other bits of a supported one are free. -/
def supportDwords (ids : List Nat) (free : Bytes) : Bytes :=
  ((List.range 256).map (fun i => if ids.contains i then le 4 (setBits (leAt free (4 * i) 4) 0 0 1) else zeros 4)).flatten

/-! ### The vendor logs -/

/-- The 32 bytes of an entry; one with an uncorrectable error is returned as read, with DAMAGED set (R439). -/
def blotBytes (b : Blot) : Bytes :=
  match b.damaged with
  | some m => splice (fixLen 32 m) 14 (le 1 (setBits (byteAt m 14) 7 7 1))
  | none => le 4 b.seq ++ le 8 b.dtime ++ le 2 b.code ++ le 1 b.severity ++ le 1 b.mode ++ le 2 b.unit ++ le 2 b.count
      ++ fixLen 12 b.arg

/-- A read of the blot log meets uncorrectable errors in the entries of these SEQs: what they hold now is free (R23; notes/assumptions/2). -/
def damageBlots (bad : List Nat) (s : State) : State :=
  if bad = [] then s
  else
    let m := fixLen 131072 (Config.freeBytes s.freeCount)
    { s with
      mon := { s.mon with blots := s.mon.blots.map (fun b =>
        if bad.contains b.seq && b.damaged.isNone then { b with damaged := some (slice m (b.seq % 4096 * 32) 32) } else b) },
      freeCount := s.freeCount + 1 }

/-- Log C0h (R442). -/
def blotLog (s : State) (f : Nat) : Bytes :=
  let bs := s.mon.blots
  lay 64 [(0, le 8 (now s)), (8, le 4 bs.length), (12, le 4 ((bs.head?.map (·.seq)).getD 0)), (16, le 4 s.mon.blotTotal),
      (20, le 1 (bit (flagF s LOG_STATUS_RESTORED) + 2 * bit (flagF s LOG_STATUS_SNAPSHOT)))]
    ++ fixLen 131072 (if f = 0 then (bs.map blotBytes).flatten else [])

def statBytes (t : StrokeStat) : Bytes :=
  le 6 t.stroke ++ zeros 2 ++ le 8 t.bytes ++ le 2 t.streams ++ le 2 t.gaps ++ le 4 t.pounceUs ++ le 4 t.peakKib ++ le 4 t.flags

/-- Streams that have absorbed data, stream 0 among them (R133). -/
def activeStreams (parts : Map StreamPart) : Nat := (parts.filter (fun e => !e.2.data.isEmpty)).length + 1

/-- Gap records among the records of a stroke. -/
def gapCount (recs : List InkRec) : Nat := (recs.filter (fun x => x.type == 0x11)).length

/-- The open stroke, of whose sealing nothing is known yet. -/
def openStat (s : State) : List StrokeStat :=
  if strokeOpen s then
    [{ stroke := s.time.stroke, streams := activeStreams s.chain.openParts, gaps := gapCount s.chain.openRecs,
       peakKib := s.chain.peakKib,
       flags := bit (flagF s STK_STATUS_OVERRUN) + 2 * bit (lockState s == 3) + 8 * bit (lockState s == 4) }]
  else []

/-- Closed strokes that the pounce unit has not finished, newest first. -/
def closedStats (s : State) : List StrokeStat :=
  s.chain.closed.reverse.map (fun c =>
    { stroke := c.n, streams := activeStreams c.parts, gaps := gapCount c.recs, peakKib := c.peakKib,
      flags := bit c.overrun + 2 * bit (c.lock == 3) + 4 * bit c.late + 8 * bit (c.lock == 4) })

/-- Log C1h (R46). -/
def strokeLog (s : State) : Bytes :=
  lay 64 [(0, le 8 (now s)), (8, le 1 (lockState s)), (9, le 1 s.time.src), (12, le 4 s.time.period),
      (16, le 4 (getF s STK_OVR_COUNT_COUNT)), (20, le 4 (getF s STK_LATE_MAX_MICROS)), (24, le 8 s.time.lastOverrun),
      (32, le 4 (offset32 s))]
    ++ fixLen 2048 ((((openStat s ++ closedStats s).foldl (fun a t => putStat t a) s.stats).take 64).map statBytes).flatten

/-- Log C2h (R86). -/
def lossLog (s : State) : Bytes :=
  lay 64 [(0, le 8 (now s)), (8, le 4 s.ftl.lossId), (12, le 4 s.ftl.losses.length)]
    ++ fixLen 16384 (s.ftl.losses.map lossBytes).flatten

/-- The entry of a die in log C3h. -/
def dieEntry (s : State) (d : Nat) : Bytes :=
  let x := getDie s d
  let most := x.erases.foldl (fun a e => max a e.2) 0
  if (mget s.ftl.dies d).isNone then zeros 32
  else le 1 x.st ++ le 1 x.fence ++ le 2 (min 65535 x.factoryBad) ++ le 2 (min 65535 x.grownBad) ++ le 2 (min 65535 x.progFails)
    ++ le 2 (min 65535 x.eraseFails) ++ zeros 2 ++ le 4 (totalErases s d / max 1 (Config.membersPerDie d)) ++ le 4 most
    ++ le 4 (Config.ratedCycles d) ++ le 4 (min (2 ^ 32 - 1) x.refreshes) ++ le 4 (min (2 ^ 32 - 1) x.deepCw)

/-- Log C3h (R208). -/
def mediaLog (s : State) : Bytes :=
  let fenced := (s.ftl.dies.filter (fun e => e.2.st == 2 || e.2.st == 3)).length
  lay 64 [(0, le 8 (now s)), (8, le 2 (usableDies s).length), (10, le 2 fenced), (12, le 4 (freeBands s)),
      (16, le 1 (getF s FTL_STATUS_GC_TIER)),
      (17, le 1 (bit s.mode.readOnlyCond + 2 * getF s FTL_STATUS_WEAR_OVERRIDE + 4 * getF s FTL_STATUS_REBUILD
        + 8 * getF s FTL_STATUS_TILL_BEHIND)),
      (18, le 1 (getF s FTL_SPARE_AVAIL_PCT)), (19, le 1 (getF s FTL_SPARE_THRESH_PCT)), (20, le 4 ((sparePool s).toNat / 256)),
      (24, le 4 (getF s FTL_WA_X100)), (28, le 4 s.ftl.refreshQ.length), (32, le 4 (getF s FTL_TILL_PROGRESS)),
      (36, le 4 (s.ftl.rebuildDie.foldl (fun a d => a + rebuildUnits s d) 0)), (40, le 4 (getF s FTL_HOST_UNITS_LO)), (44, le 4 (getF s FTL_HOST_UNITS_HI)),
      (48, le 4 (getF s FTL_MEDIA_UNITS_LO)), (52, le 4 (getF s FTL_MEDIA_UNITS_HI))]
    ++ ((List.range 256).map (dieEntry s)).flatten

/-! ### Get Log Page -/

/-- A log's bytes; none where there is no such log. -/
def logBytes (f lid : Nat) (s : State) : Option Bytes × State :=
  let opened (r : Bytes × State) : Option Bytes × State := (some r.1, r.2)
  match lid with
  | 0x00 => let r := takeBytes 1024 s; (some (supportDwords logIds r.1), r.2)
  | 0x01 => opened (openLog 16384 [] s)
  | 0x02 => opened (openLog 512 (smartFields s f) s)
  | 0x03 => (some (slotLog s), s)
  | 0x04 => (some (changedLog (getFn s f)), updFn f (fun x => { x with changed := [] }) s)
  | 0x05 => let r := takeBytes 4096 s
            (some (supportDwords adminOpcodes r.1 ++ supportDwords ioOpcodes (r.1.drop 1024) ++ zeros 2048), r.2)
  | 0x06 => opened (openLog 564 [(0, le 1 s.mon.selfTest)] s)
  | 0x09 => opened (openLog 512 [(0, le 1 (bit (getF s FTL_SPARE_AVAIL_PCT < getF s FTL_SPARE_THRESH_PCT)
              + 8 * bit s.mode.readOnlyCond)), (3, le 1 (getF s FTL_SPARE_AVAIL_PCT)), (4, le 1 (getF s FTL_SPARE_THRESH_PCT)),
              (5, le 1 (percentUsed s))] s)
  | 0x81 => opened (openLog 512 [(4, le 4 s.mode.sanitizeState)] s)
  | 0xC0 => (some (blotLog s f), s)
  | 0xC1 => (some (strokeLog s), s)
  | 0xC2 => (some (lossLog s), s)
  | 0xC3 => (some (mediaLog s), s)
  | 0xC4 => (some (domainLog s), s)
  | 0xC5 => (some (flowLog s f), s)
  | _ => (none, s)

/-- With RAE 0 a Get Log Page re-arms the events that name the log (R85). -/
def rearm (f lid : Nat) (s : State) : State :=
  updFn f (fun x => { x with unarmed := x.unarmed.filter (fun e => e.log != lid) }) s

/-- GET_LOG_PAGE: an offset beyond the end is refused, bytes beyond it read 0 (R87). -/
def getLogPage (q : Sqe) (lid lsp numd off : Nat) (rae : Bool) (bad : List Nat) (s : State) : State :=
  let n := (numd + 1) * 4
  let s := if lid = 0xC0 then damageBlots bad s else s
  let r := logBytes q.fn lid s
  match r.1 with
  | none => done q .invalidLogPage 0 0 s
  | some b =>
    if lsp != 0 || off % 4 != 0 || b.length ≤ off || 2097152 < n then done q .invalidField 0 0 s
    else
      let s1 := if rae then s else rearm q.fn lid r.2
      answer q (slice b off n) 0 { s1 with freeCount := r.2.freeCount }

/-- GET_LOG_PAGE (R85, R87). -/
def execGetLogPage (q : Sqe) (lid lsp numd off : Nat) (how : LogRead) (s : State) : Result :=
  let n := numd % 2 ^ 32
  adminFetch { safeOk := true, len := (n + 1) * 4 } q (getLogPage q (lid % 256) (lsp % 128) n off how.rae how.bad) s

end Sys2Proof.Machine
end

