-- ==== Sys2Proof/Machine/Names.lean ====
section
/-!
DEFINITION. Namespaces, secondary controllers and the commit of unit transitions (spec/05_qos_and_virtualisation.md R105, R106;
spec/01 R24 to R26; spec/03 R54, R55; spec/04 R70, R73, R89, R91; spec/07 R135, R146, R147; spec/13 R305, R306): Namespace Management
and Attachment, Virtualization Management, Format NVM and Sanitize.
-/

namespace Sys2Proof.Machine

/-! ### The create structure (R24 to R26, R71, R146) -/

def newSealed (d : Bytes) : Bool := byteAt d 3840 == 1

def newBlk (d : Bytes) : Nat := if byteAt d 26 = 1 then 512 else 4096

/-- The release-authority key of the structure is a valid point of its algorithm, and the bytes after it are 0. -/
def badKey (d : Bytes) : Bool :=
  let alg := byteAt d 3862
  let n := if alg = 0 then 0 else pubLen alg
  3 < alg || !allZero (slice d (3864 + n) (104 - n)) || (alg != 0 && !Config.pointValid alg (slice d 3864 n))

/-- Fields that no namespace can have. The capacity is NSZE: there is no thin provisioning (notes/assumptions/66). -/
def badCreate (d : Bytes) : Bool :=
  2 ≤ byteAt d 3840 || leAt d 0 8 == 0 || leAt d 0 8 < leAt d 8 8 ||
    (newSealed d && (2 ^ 32 < leAt d 0 8 || byteAt d 3863 != 0 || badKey d))

/-- LBA formats of the kind; no metadata, no protection information. -/
def badLbaFormat (d : Bytes) : Bool := byteAt d 29 != 0 || (if newSealed d then 1 else 2) ≤ byteAt d 26

/-- The raw charge or need_gib with the new namespace exceeds what is installed. -/
def noRoom (s : State) (d : Bytes) : Bool :=
  let add := leAt d 0 8 * newBlk d
  let plain := capBytes s false + (if newSealed d then 0 else add)
  let sealed := capBytes s true + (if newSealed d then add else 0)
  rawExceeds s plain sealed || needExceeds s plain sealed

def noPlace (s : State) (d : Bytes) : Bool :=
  1024 ≤ s.nss.length || (newSealed d && 256 ≤ (s.nss.filter (fun e => e.2.sealed)).length)

/-- Why a create is refused. -/
def createError (s : State) (d : Bytes) : Option Status :=
  firstError [
    (badCreate d, .invalidField),
    (badLbaFormat d, .invalidFormat),
    (!flagF s CIP_STATUS_DRBG_OK, .internalError),
    (noPlace s d, .namespaceIdUnavailable),
    (noRoom s d, .namespaceInsufficientCapacity)]

/-! ### What a change of a namespace does everywhere (R70, R137, R146) -/

/-- The functions learn of the change: log 04h, and the event where Feature 0Bh enables it. -/
def noteNs (nsid : Nat) (fs : List Nat) (s : State) : State :=
  fs.foldl (fun a f =>
    let b := updFn f (fun x => { x with changed := insertNat nsid x.changed }) a
    if bitAt (getFn b f).feats.asyncCfg 8 then raiseEvent f { type := 2, info := 0, log := 4 } b else b) s

/-- The NAMESPACE record of stream 0 and of the journal, at a commit. -/
def recordNs (nsid action stream : Nat) (s : State) : State :=
  showFns (namespaceRec nsid action stream (journalAdd (.nspace nsid) s))

/-- Data of the namespace that the Inkwell holds, and its queued deallocations, are dropped. -/
def dropData (nsid : Nat) (s : State) : State :=
  { s with ftl := { s.ftl with
      staged := s.ftl.staged.filter (fun x => !(x.nsid == nsid && (x.kind == .plain || x.kind == .sealed))),
      deallocs := s.ftl.deallocs.filter (fun e => e.nsid != nsid) } }

/-! ### Commits -/

/-- A namespace is created: the lowest free NSID, a stream for a sealed one, a fresh media key; the first one ends the
provisional chain. -/
def commitCreate (d : Bytes) (s : State) : State :=
  let nsid := mfree s.nss 1
  let sealed := newSealed d
  let alg := byteAt d 3862
  let x : Ns := {
    sealed := sealed, nsze := leAt d 0 8, ncap := leAt d 0 8, blk := newBlk d, stream := if sealed then freeStream s else 0,
    retain := if sealed then leAt d 3856 6 else 0, rakAlg := if sealed then alg else 0,
    rak := if sealed && alg != 0 then slice d 3864 (pubLen alg) else [], born := s.ftl.seq }
  recordNs nsid 0 x.stream (newMediaKey nsid { s with
    nss := mset s.nss nsid x, chain := { s.chain with provisional := false } })

def commitDelete (nsid : Nat) (s : State) : State :=
  match getNs s nsid with
  | none => s
  | some x =>
    let s1 := dropData nsid { s with
      nss := merase s.nss nsid,
      crypt := { s.crypt with mediaKeys := merase s.crypt.mediaKeys nsid },
      mode := { s.mode with uncommitted := merase s.mode.uncommitted nsid },
      fns := s.fns.map (fun e => (e.1, { e.2 with deferred := dropFirst (· == nsid) e.2.deferred })) }
    noteNs nsid x.attached (recordNs nsid 1 x.stream (showHolds (pruneRoots s1)))

def commitAttach (nsid : Nat) (fs : List Nat) (on : Bool) (s : State) : State :=
  match getNs s nsid with
  | none => s
  | some x =>
    let keep := if on then fs.foldl (fun a f => insertNat f a) x.attached else x.attached.filter (fun f => !fs.contains f)
    let s1 := updNs nsid (fun y => { y with attached := keep }) s
    let s2 := if on then s1 else fs.foldl (fun a f =>
      updFn f (fun y => { y with deferred := dropFirst (· == nsid) y.deferred }) a) s1
    noteNs nsid fs (recordNs nsid (if on then 2 else 3) x.stream s2)

/-- A format: the namespace holds nothing, in the new block size, until FORMAT_DONE it is busy. SES 2 also makes a new key. -/
def commitFormat (nsid lbaf ses : Nat) (s : State) : State :=
  match getNs s nsid with
  | none => s
  | some x =>
    let blk := if lbaf = 1 then 512 else 4096
    let n := x.nsze * x.blk / blk
    let s1 := dropData nsid (updNs nsid (fun y => { y with
      nsze := n, ncap := n, blk := blk, busy := .formatting, map := [], lost := [], dirStreams := [], born := s.ftl.seq }) s)
    noteNs nsid x.attached (recordNs nsid 4 x.stream (if ses = 2 then newMediaKey nsid s1 else s1))

/-- A sanitize of one namespace: nothing of it can be read again. A sealed namespace stays a log with its write pointer, every
stroke of it freed; the chain stays (R11, R135). -/
def sanitizeNs (action nsid : Nat) (s : State) : State :=
  match getNs s nsid with
  | none => s
  | some x =>
    let s1 := dropData nsid (updNs nsid (fun y => { y with
      busy := .sanitizing, map := [], lost := [], tail := [], runs := y.runs.map (fun r => { r with freed := true }),
      born := s.ftl.seq }) s)
    noteNs nsid x.attached (recordNs nsid 5 x.stream (if action = 4 then newMediaKey nsid s1 else s1))

def commitSanitize (action : Nat) (s : State) : State :=
  let s1 := pruneRoots (s.nss.foldl (fun a e => sanitizeNs action e.1 a) s)
  { s1 with mode := { s1.mode with wantSanitize := some action } }

/-- A VF goes online (R55). -/
def commitOnline (f : Nat) (s : State) : State := showFn f (setF (FN_FUNC_ONLINE f) 1 s)

/-- One transition commits, and its command completes. -/
def commitTrans (t : Transition) (s : State) : State :=
  let fin (st : Status) (dw0 : Nat) (a : State) : State := complete t.fn t.sqid t.cid st dw0 0 a
  match t.unit, t.kind with
  | .ns _, .nsCreate d => match createError s d with
    | some e => fin e 0 s
    | none => fin .success (mfree s.nss 1) (commitCreate d s)
  | .ns n, .nsDelete => fin .success 0 (commitDelete n s)
  | .ns n, .nsAttach fs => fin .success 0 (commitAttach n fs true s)
  | .ns n, .nsDetach fs => fin .success 0 (commitAttach n fs false s)
  | .ns n, .hold i a b tag => fin .success i (commitHold n i a b tag s)
  | .ns n, .release act h a b nonce tok => fin .success 0 (commitRelease n act h a b nonce tok s)
  | .ns n, .format lbaf ses => fin .success 0 (commitFormat n lbaf ses s)
  | .ns _, .sanitize act => fin .success 0 (commitSanitize act s)
  | .func f, .online => fin .success 0 (commitOnline f s)
  | _, _ => s

/-- A transition accepted at least 20 µs before this boundary; a VF that goes offline commits as its FLR does (R101). -/
def transDue (s : State) (t : Transition) : Bool :=
  t.kind != .offline && 20 * 65536 ≤ (now s - t.at_) * s.time.period

/-- The transitions that are due commit in the order in which they were accepted. -/
def commitDue (s : State) : State :=
  let go := s.trans.filter (transDue s)
  go.foldl (fun a t => commitTrans t a) { s with trans := s.trans.filter (fun t => !transDue s t) }

/-- UNIT_TRANSITION_COMMIT (R105). -/
def execUnitTransitionCommit (s : State) : Result := .next (if s.time.frac = 0 then commitDue s else s)

/-! ### Namespace Management and Attachment (R73, R106, R147) -/

/-- NAMESPACE_CREATE: checked here, and again at its commit. -/
def nsCreate (q : Sqe) (data : Bytes) (s : State) : State :=
  let d := fixLen 4096 data
  orElse q (createError s d) (addTrans (.ns 0) (.nsCreate d) q) s

def execNamespaceCreate (q : Sqe) (data : Bytes) (s : State) : Result :=
  adminFetch { pfOnly := true, nsid0 := true, len := 4096, got := some data.length } q (nsCreate q data) s

/-- The namespaces that a command names. -/
def namedNs (s : State) (nsid : Nat) : List Nat := if nsid = allNs then s.nss.map (·.1) else [nsid]

/-- The first error that some namespace of a list gives. -/
def firstBad (p : Nat → Option Status) : List Nat → Option Status
  | [] => none
  | n :: t => match p n with
    | some e => some e
    | none => firstBad p t

/-- Why a namespace cannot be deleted: the hold comes before the flows (R147). -/
def deleteError (s : State) (nsid : Nat) : Option Status :=
  match getNs s nsid with
  | none => some .invalidNamespaceOrFormat
  | some x => firstError [
    (x.busy == .converting, .namespaceNotReady),
    (nsPending s nsid, .statePending),
    (!x.holds.isEmpty, .holdActive),
    (flowsHeld s nsid (fun _ => true), .commandSequenceError)]

/-- One transition for each namespace; the last one posts the command's completion. -/
def addEach (kind : TransKind) (q : Sqe) : List Nat → State → State
  | [], s => done q .success 0 0 s
  | [n], s => addTrans (.ns n) kind q s
  | n :: t, s => addEach kind q t (addTrans (.ns n) kind { q with sqid := silentQueue } s)

def nsDelete (q : Sqe) (s : State) : State :=
  orElse q (firstBad (deleteError s) (namedNs s q.nsid)) (addEach .nsDelete q (namedNs s q.nsid)) s

def execNamespaceDelete (q : Sqe) (s : State) : Result := adminFetch { pfOnly := true, toNs := true } q (nsDelete q) s

/-- A controller list that names no controller, one twice, or one that there is not. -/
def badCtrls : List Nat → Bool
  | [] => true
  | l => l.any (fun c => 128 ≤ c) || l.eraseDups.length != l.length

def attachError (s : State) (nsid : Nat) (fs : List Nat) : Option Status :=
  match getNs s nsid with
  | none => some .invalidNamespaceOrFormat
  | some x => firstError [
    (badCtrls fs, .controllerListInvalid),
    (x.busy == .converting, .namespaceNotReady),
    (nsPending s nsid, .statePending),
    (fs.any x.attached.contains, .namespaceAlreadyAttached)]

/-- NAMESPACE_ATTACH. -/
def nsAttach (q : Sqe) (fs : List Nat) (s : State) : State :=
  orElse q (attachError s q.nsid fs) (addTrans (.ns q.nsid) (.nsAttach fs) q) s

def execNamespaceAttach (q : Sqe) (ctrls : List Nat) (s : State) : Result :=
  adminFetch { pfOnly := true, len := 4096, toNs := true } q (nsAttach q ctrls) s

def detachError (s : State) (nsid : Nat) (fs : List Nat) : Option Status :=
  match getNs s nsid with
  | none => some .invalidNamespaceOrFormat
  | some x => firstError [
    (badCtrls fs, .controllerListInvalid),
    (x.busy == .converting, .namespaceNotReady),
    (nsPending s nsid, .statePending),
    (!fs.all x.attached.contains, .namespaceNotAttached),
    (!x.holds.isEmpty, .holdActive),
    (flowsHeld s nsid fs.contains, .commandSequenceError)]

/-- NAMESPACE_DETACH. -/
def nsDetach (q : Sqe) (fs : List Nat) (s : State) : State :=
  orElse q (detachError s q.nsid fs) (addTrans (.ns q.nsid) (.nsDetach fs) q) s

def execNamespaceDetach (q : Sqe) (ctrls : List Nat) (s : State) : Result :=
  adminFetch { pfOnly := true, len := 4096, toNs := true } q (nsDetach q ctrls) s

/-! ### Format NVM and Sanitize (R89, R91, R106) -/

/-- A hold is named before the sealed range it stands on (notes/assumptions/66). -/
def formatError (s : State) (f lbaf ses nsid : Nat) : Option Status :=
  if converting s nsid then some .namespaceNotReady
  else match attachedNs s f nsid with
  | none => some .invalidNamespaceOrFormat
  | some x => firstError [
    (nsPending s nsid, .statePending),
    (!x.holds.isEmpty, .holdActive),
    (x.sealed, .sealedRange),
    (2 ≤ lbaf, .invalidFormat),
    (3 ≤ ses, .invalidField),
    (x.busy == .formatting, .formatInProgress),
    (x.busy == .sanitizing, .sanitizeInProgress)]

/-- FORMAT_NVM. -/
def formatNvm (q : Sqe) (lbaf ses : Nat) (s : State) : State :=
  orElse q (firstBad (formatError s q.fn lbaf ses) (namedNs s q.nsid)) (addEach (.format lbaf ses) q (namedNs s q.nsid)) s

def execFormatNvm (q : Sqe) (lbaf ses : Nat) (s : State) : Result := adminFetch { pfOnly := true, toNs := true } q (formatNvm q lbaf ses) s

/-- FORMAT_DONE: the namespace leaves Format In Progress. -/
def execFormatDone (nsid : Nat) (s : State) : Result :=
  .next (if (getNs s nsid).any (fun x => x.busy == .formatting) then updNs nsid (fun x => { x with busy := .none }) s else s)

def sanitizeError (s : State) : Option Status :=
  firstError [
    (s.mode.cur == .sanitize || s.mode.wantSanitize.isSome, .sanitizeInProgress),
    (s.nss.any (fun e => nsPending s e.1) || s.trans.any (fun t => match t.kind with | .sanitize _ => true | _ => false),
      .statePending),
    (s.nss.any (fun e => !e.2.holds.isEmpty), .holdActive)]

/-- Sanitize: 2 block erase, 4 crypto erase. -/
def sanitize (q : Sqe) (action : Nat) (s : State) : State :=
  orElse q (sanitizeError s) (addTrans (.ns 0) (.sanitize action) q) s

def execSanitizeCryptoErase (q : Sqe) (s : State) : Result := adminFetch { pfOnly := true, nsid0 := true } q (sanitize q 4) s

def execSanitizeBlockErase (q : Sqe) (s : State) : Result := adminFetch { pfOnly := true, nsid0 := true } q (sanitize q 2) s

/-- SANITIZE_DONE (R413): the namespaces are free again, and the device returns to the base mode at a boundary. -/
def execSanitizeDone (s : State) : Result :=
  .next (if s.mode.cur == .sanitize && mayBegin s then
      switchMode (baseMode s) 7 { s with
        nss := s.nss.map (fun e => (e.1, { e.2 with busy := if e.2.busy = .sanitizing then .none else e.2.busy })) }
    else s)

/-! ### Virtualization Management (R54, R55) -/

/-- Flexible resources that the other functions hold: queue pairs (0) or vectors. -/
def flexOthers (s : State) (f rt : Nat) : Nat :=
  s.fns.foldl (fun a e => if e.1 = f then a else a + (if rt = 0 then e.2.flexQ else e.2.flexV)) 0

def badResources (s : State) (f rt nr : Nat) : Bool :=
  let own := if f != 0 then 0 else if rt = 0 then 512 else 64
  1024 < own + nr || (if rt = 0 then 15872 else 4032) < flexOthers s f rt + nr

/-- VM_ASSIGN_RESOURCES: at once, without a boundary. -/
def vmAssign (q : Sqe) (cntlid : Nat) (primary : Bool) (rt nr : Nat) (s : State) : State :=
  orElse q (firstError [
    (if primary then cntlid != 0 else cntlid == 0 || 127 < cntlid, .invalidControllerId),
    (2 ≤ rt, .invalidField),
    (!primary && fnPending s cntlid, .statePending),
    (!primary && online s cntlid, .invalidSecondaryState),
    (badResources s cntlid rt nr, .invalidControllerResources)])
    (fun a => done q .success nr 0 (showFn cntlid (updFn cntlid (fun x =>
      if rt = 0 then { x with flexQ := nr } else { x with flexV := nr }) a))) s

def execVmAssignResources (q : Sqe) (cntlid : Nat) (primary : Bool) (rt nr : Nat) (s : State) : Result :=
  adminFetch { pfOnly := true, nsid0 := true } q (vmAssign q cntlid primary rt nr) s

/-- The head of a fan-out has no follower at the ring position of the VF (R397). -/
def noFollower (s : State) (f : Nat) : Bool := isHead s && f < 64 && (proxyOf s f).isNone && f != placeIn (deviceId s)

/-- VM_ONLINE. -/
def vmOnline (q : Sqe) (f : Nat) (s : State) : State :=
  orElse q (firstError [
    (f == 0 || 127 < f, .invalidControllerId),
    (fnPending s f, .statePending),
    (s.numVfs < f || noFollower s f, .invalidSecondaryState),
    (!online s f && (queuePairs s f == 0 || vectors s f == 0), .invalidControllerResources)])
    (fun a => if online a f then done q .success 0 0 a else addTrans (.func f) .online q a) s

def execVmOnline (q : Sqe) (cntlid : Nat) (s : State) : Result := adminFetch { pfOnly := true, nsid0 := true } q (vmOnline q cntlid) s

/-- VM_OFFLINE: the work of the VF is retired as by an FLR, whose commit completes the command (R102). -/
def vmOffline (q : Sqe) (f : Nat) (s : State) : State :=
  orElse q (firstError [
    (f == 0 || 127 < f, .invalidControllerId),
    (fnPending s f, .statePending)])
    (fun a => if online a f then startFlr f 1 (addTrans (.func f) .offline q a) else done q .success 0 0 a) s

def execVmOffline (q : Sqe) (cntlid : Nat) (s : State) : Result :=
  adminFetch { pfOnly := true, nsid0 := true } q (vmOffline q cntlid) s

/-! ### Device Self-test (R70) -/

/-- DEVICE_SELF_TEST: 1 short, 2 extended, Fh ends the one that runs. -/
def selfTest (q : Sqe) (stc : Nat) (s : State) : State :=
  let put (k : Nat) (a : State) : State := done q .success 0 0 { a with mon := { a.mon with selfTest := k } }
  if stc = 15 then put 0 s
  else if stc != 1 && stc != 2 then done q .invalidField 0 0 s
  else if s.mon.selfTest != 0 then done q .selfTestInProgress 0 0 s
  else put stc s

def execDeviceSelfTest (q : Sqe) (stc : Nat) (s : State) : Result := adminFetch {} q (selfTest q stc) s

/-! ### Directives (R194) -/

/-- Streams that the other namespaces have allocated; the device has 15. -/
def streamsTaken (s : State) (nsid : Nat) : Nat :=
  s.nss.foldl (fun a e => if e.1 = nsid then a else a + e.2.dirStreams.length) 0

/-- The parameters of R194, with what the namespace has allocated. SWS is the program unit of the first usable die. -/
def streamParams (s : State) (x : Ns) : Bytes :=
  le 2 15 ++ le 2 15 ++ le 2 0 ++ zeros 10 ++ le 4 (slotCws ((usableDies s).headD 0) * 4096 / x.blk)
    ++ le 2 (getF s FTL_CFG_WIDTH + 1) ++ le 2 x.dirStreams.length ++ zeros 8

/-- The checks of a directive command: its namespace, a transition of it, and for Streams that the function has it enabled. -/
def onDirective (q : Sqe) (streams : Bool) (k : Ns → State → State) (s : State) : State :=
  if converting s q.nsid then done q .namespaceNotReady 0 0 s
  else match attachedNs s q.fn q.nsid with
  | none => done q .invalidNamespaceOrFormat 0 0 s
  | some x =>
    if nsPending s q.nsid then done q .statePending 0 0 s
    else match x.busy.status with
      | some st => done q st 0 0 s
      | none => if streams && !x.dirOn.contains q.fn then done q .invalidField 0 0 s else k x s

/-- DIRECTIVE_SEND: Identify enables or disables Streams; Streams releases an identifier, or all that is allocated. -/
def directiveSend (q : Sqe) (dtype doper value : Nat) (s : State) : State :=
  onDirective q (dtype == 1) (fun _ a =>
    if dtype = 0 && doper = 1 && bits value 15 8 = 1 then
      done q .success 0 0 (updNs q.nsid (fun y =>
        if bitAt value 0 then { y with dirOn := insertNat q.fn y.dirOn }
        else { y with dirOn := y.dirOn.filter (· != q.fn), dirStreams := [] }) a)
    else if dtype = 1 && doper = 1 then done q .success 0 0 a
    else if dtype = 1 && doper = 2 then done q .success 0 0 (updNs q.nsid (fun y => { y with dirStreams := [] }) a)
    else done q .invalidField 0 0 a) s

def execDirectiveSend (q : Sqe) (dtype doper _dspec value : Nat) (s : State) : Result :=
  adminFetch { toNs := true } q (directiveSend q dtype doper value) s

/-- DIRECTIVE_RECEIVE: parameters, status, and the allocation of streams 1 to n. -/
def directiveReceive (q : Sqe) (dtype doper numd value : Nat) (s : State) : State :=
  let n := (numd + 1) * 4
  onDirective q (dtype == 1 && doper != 1) (fun x a =>
    if dtype = 0 && doper = 1 then
      answer q (fixLen n (lay 4096 [(0, le 1 3), (32, le 1 (1 + 2 * bit (x.dirOn.contains q.fn)))])) 0 a
    else if dtype = 1 && doper = 1 then answer q (fixLen n (streamParams a x)) 0 a
    else if dtype = 1 && doper = 2 then answer q (zeros n) 0 a
    else if dtype = 1 && doper = 3 then
      let k := min (bits value 15 0) (15 - streamsTaken a q.nsid)
      done q .success k 0 (updNs q.nsid (fun y => { y with dirStreams := (List.range k).map (· + 1) }) a)
    else done q .invalidField 0 0 a) s

def execDirectiveReceive (q : Sqe) (dtype doper numd value : Nat) (s : State) : Result :=
  let n := numd % 2 ^ 32
  adminFetch { len := if dtype = 1 && doper = 3 then 0 else (n + 1) * 4, toNs := true } q (directiveReceive q dtype doper n value) s

end Sys2Proof.Machine
end

