-- ==== Sys2Proof/Machine/Loads.lean ====
section
/-!
DEFINITION. The commands that load graphs and keys and that start and collect runs (spec/12_ductus_dataflow.md R272 to R275, R285;
spec/13 R307, R308; spec/04 R90, R92).
-/

namespace Sys2Proof.Machine

/-! ### GRAPH LOAD (R272 to R274) -/

/-- A vendor I/O command whose NSID must be 0: its entry, and a data transfer of `len` bytes. -/
def onZero (q : Sqe) (len : Nat) (k : State → State) (s : State) : State :=
  if badEntry q || q.nsid != 0 || 2097152 < len then done q .invalidField 0 0 s
  else orElse q (if len = 0 then none else xferError q.xfer false len) k s

/-- Bytes of the image that the function has sent. -/
def partialOf (s : State) (f : Nat) : Bytes := (mget s.duct.partials f).getD []

def setPartial (f : Nat) (b : Option Bytes) (s : State) : State :=
  { s with duct := { s.duct with partials := match b with
    | some x => mset s.duct.partials f x
    | none => merase s.duct.partials f } }

/-- The image is whole: it is parsed, and nothing of it is kept as a part. -/
def finishLoad (q : Sqe) (m : Bytes) (s : State) : State :=
  let r := loadGraph q.fn m (setPartial q.fn none s)
  match r.1 with
  | .ok h => done q .success h 0 r.2
  | .error e => done q e 0 0 r.2

/-- One part of an image. -/
def loadPart (q : Sqe) (numd off total : Nat) (data : Bytes) (s : State) : State :=
  let d := numdData numd data
  let have_ := if off = 0 then [] else partialOf s q.fn
  let drop (st : Status) (a : State) : State := done q st 0 0 (setPartial q.fn none a)
  if !affords s q.fn .wrBytes || !mayMove s q.fn then pushLate (.load q numd off total data) s
  else
  let s := charge q.fn .wrBytes d.length s
  if off != have_.length then drop .invalidField (loadRefused q.fn 1 0 s)
  else if 64 * 2 ^ 20 < total then drop .invalidField (loadRefused q.fn 2 0 s)
  else if total < off + d.length then drop .lengthMismatch s
  else if off + d.length = total then finishLoad q (have_ ++ d) s
  else done q .success 0 0 (setPartial q.fn (some (have_ ++ d)) s)

/-- GRAPH_LOAD: fetched, it waits for the write budget to transfer its data (R42, R92). -/
def execGraphLoad (q : Sqe) (numd off total : Nat) (data : Bytes) (s : State) : Result :=
  let n := numd % 2 ^ 32
  ioFetch q (onZero q ((n + 1) * 4) (orElse q (shortData ((n + 1) * 4) data)
    (loadPart q n (off % 2 ^ 32) (total % 2 ^ 32) data))) s

/-- A start of the graph has been accepted and not applied. -/
def startPending (s : State) (h : Nat) : Bool := s.duct.starts.any (fun t => t.graph == h)

/-- A graph of the function. -/
def ownGraph (s : State) (f h : Nat) : Option Graph := (getGraph s h).filter (fun g => g.fn == f)

/-- GRAPH_RELEASE (R273). -/
def releaseOne (q : Sqe) (numd off handle high : Nat) (s : State) : State :=
  if !affords s q.fn .wrBytes || !mayMove s q.fn then pushLate (.free q numd off handle high) s
  else
  let s := charge q.fn .wrBytes ((numd + 1) * 4) s
  if numd != 0 || off != 0 || high != 0 then done q .invalidField 0 0 s
  else match ownGraph s q.fn handle with
    | none => done q .invalidField 0 0 s
    | some g =>
      if runLive g || startPending s handle then done q .commandSequenceError 0 0 s
      else done q .success 0 0 (releaseGraph handle s)

def execGraphRelease (q : Sqe) (numd off handle high : Nat) (s : State) : Result :=
  let n := numd % 2 ^ 32
  ioFetch q (onZero q ((n + 1) * 4) (releaseOne q n (off % 2 ^ 32) (handle % 65536) (high % 65536))) s

/-! ### GRAPH START and GRAPH RESULT (R275, R285) -/

/-- GRAPH_START: the run applies at a boundary, which completes the command. -/
def startGraph (q : Sqe) (handle tag limit : Nat) (s : State) : State :=
  match ownGraph s q.fn handle with
  | none => done q .invalidField 0 0 s
  | some g =>
    if runLive g || startPending s handle then done q .commandSequenceError 0 0 s
    else { s with duct := { s.duct with starts := s.duct.starts ++ [{
      graph := handle, tag := tag, limit := limit, fn := q.fn, sqid := q.sqid, cid := q.cid, at_ := now s }] } }

def execGraphStart (q : Sqe) (handle tag limit : Nat) (s : State) : Result :=
  ioFetch q (onZero q 0 (startGraph q (handle % 65536) (tag % 2 ^ 32) (limit % 65536))) s

/-- With WAIT the command is held until the run ends; it may name a run whose start has not been applied yet. -/
def graphResult (q : Sqe) (handle run len : Nat) (wait : Bool) (s : State) : State :=
  let hold : State := addCmd { fn := q.fn, sqid := q.sqid, cid := q.cid, nsid := 0, order := 0,
                               kind := .graphResult handle run len } s
  match ownGraph s q.fn handle with
  | none => done q .invalidField 0 0 s
  | some g =>
    if startPending s handle && wait && run = (g.nextRun + 1) % 65536 then hold
    else match g.run.filter (fun r => r.id == run) with
      | none => done q .invalidField 0 0 s
      | some r => if wait && runLive g then hold else writeResult q.fn q.sqid q.cid handle len g r s

def execGraphResult (q : Sqe) (handle run numd : Nat) (wait : Bool) (s : State) : Result :=
  let len := (numd % 2 ^ 32 + 1) * 4
  ioFetch q (onZero q len (graphResult q (handle % 65536) (run % 65536) len wait)) s

/-! ### KEY BLOB LOAD (R307, R308) -/

/-- The integrity check of the unwrap fails, the checks before it having passed. -/
def unwrapFailed (s : State) (wrap : Nat) (b : Bytes) : Bool :=
  (byteAt b 4 != 0 || Config.pointValid 1 (slice b 16 65)) && (blobKey s wrap b).isNone

/-- The blob is unwrapped, or refused. -/
def loadBlob (q : Sqe) (numd slot wrap : Nat) (b : Bytes) (s : State) : State :=
  match blobError s q.nsid numd slot wrap b with
  | none => done q .success 0 0 (applyBlob q.nsid slot wrap b s)
  | some e => done q e 0 0 (if e = .keyUnwrapFail && unwrapFailed s wrap b then incF CIP_UNWRAP_FAILS 1 s else s)

/-- The blob meets its namespace and the checks that look at no key; with WRAPPER 0 it takes the signature unit for the ECDH, or waits
for it (R308, R309). -/
def startBlob (q : Sqe) (numd slot wrap : Nat) (b : Bytes) (s : State) : State :=
  let busy := ((getNs s q.nsid).map (fun x => x.busy.status)).getD none
  if q.nsid != 0 && (getNs s q.nsid).isNone then done q .invalidNamespaceOrFormat 0 0 s
  else if q.nsid != 0 && nsPending s q.nsid then done q .statePending 0 0 s
  else if q.nsid != 0 && busy.isSome then done q (busy.getD .namespaceNotReady) 0 0 s
  else if (blobForm s q.nsid numd slot wrap b).isNone && byteAt b 4 == 0 then
    (if signIdle s then loadBlob q numd slot wrap b (spendSign (qosOf s q.fn).cls s)
     else pushSign (.cmd (.blob q numd slot wrap b)) s)
  else loadBlob q numd slot wrap b s

/-- KEY_BLOB_LOAD. -/
def execKeyBlobLoad (q : Sqe) (numd slot wrap : Nat) (blob : Bytes) (s : State) : Result :=
  let n := numd % 2 ^ 32
  adminFetch { pfOnly := true, len := (n + 1) * 4, toNs := true, got := some blob.length } q
    (startBlob q n (slot % 1024) (wrap % 4) (numdData n blob)) s

end Sys2Proof.Machine
end

