-- ==== Sys2Proof/Machine/Sign.lean ====
section
/-!
DEFINITION. The signature unit takes up its uses in the order of R309 (spec/01_architecture.md R21,
spec/13_digest_cipher_engines.md R309), and fetched commands that waited for a byte budget go on (spec/02 R42).
-/

namespace Sys2Proof.Machine

/-- A command that waited goes on; `mine` says that the signature unit has taken it up. -/
def runLate (c : LateCmd) (mine : Bool) (s : State) : State :=
  match c with
  | .proof q stroke kind numd => answerProof q stroke kind numd s
  | .bundle q first last comp level proofs sign numd resume => startExport q first last comp level proofs sign numd resume mine s
  | .load q numd off total data => loadPart q numd off total data s
  | .free q numd off handle high => releaseOne q numd off handle high s
  | .token q numd token dryrun => checkToken q numd token dryrun s
  | .blob q numd slot wrap b => loadBlob q numd slot wrap b s
  | .check f sq cid => match findCmd s f sq cid with
    | some c => advanceAll (endRead c (dropCmd f sq cid s))
    | none => s

/-- Commands that waited for a byte budget go on; those that still lack it wait again. -/
def serveLate (s : State) : State :=
  (serveOrder s (fun c => c.who.1) s.late).foldl (fun a c => runLate c false a) { s with late := [] }

/-- The class that a use of the unit belongs to (R93). -/
def signClass (s : State) (u : SignUse) : Nat :=
  match u with
  | .flourish => 0
  | .job h _ => graphClass s h
  | .cmd c => (qosOf s c.who.1).cls

/-- A release-token check or an import. -/
def SignUse.early : SignUse → Bool
  | .cmd c => c.early
  | _ => false

/-- The use that comes next (R309): a flourish; release-token checks and imports in arrival order; the others by class, those of a
class with an operation left, in arrival order. -/
def nextSign (s : State) : Option SignUse :=
  if !s.chain.flPending.isEmpty then some .flourish
  else (s.crypt.signQ.find? (fun u => u.early)).or ([0, 1, 2].findSome? (fun c =>
    if allotLeft (engQ s 4).allot c then s.crypt.signQ.find? (fun u => !u.early && signClass s u == c) else none))

/-- The unit takes up a use: a signature or a SIGN node runs until its event; the model gives the operation of a command no time. -/
def takeUse (u : SignUse) (s : State) : State :=
  let s1 := spendSign (signClass s u) { s with crypt := { s.crypt with signQ := dropFirst (· == u) s.crypt.signQ } }
  match u with
  | .flourish => startFlourish s
  | .job _ _ => showSign { s1 with crypt := { s1.crypt with signing := some u } }
  | .cmd c => runLate c true s1

/-- The idle unit takes up what waits: `fuel` bounds the uses. -/
def signFrom (fuel : Nat) (s : State) : State :=
  match fuel with
  | 0 => s
  | k + 1 =>
    if s.crypt.signing.isSome then s
    else match nextSign s with
      | none => s
      | some u => signFrom k (takeUse u s)

def signTurn (s : State) : State := showSign (signFrom (s.crypt.signQ.length + 1) s)

/-- FLOURISH_SIGNED (R21, R141): the signature that runs completes, and the unit takes up the next use. -/
def execFlourishSigned (frac : Nat) (s : State) : Result :=
  let s := atFrac frac s
  .next (if s.crypt.signing == some .flourish then signTurn (signFlourish s) else s)

/-- NODE_END (R276, R277). -/
def execNodeEnd (frac graph node : Nat) (res : JobRes) (s : State) : Result :=
  .next (signTurn (nodeEnd graph node res (atFrac frac s)))

/-- NODE_DISPATCH (R279, R280). -/
def execNodeDispatch (frac graph node core : Nat) (s : State) : Result :=
  .next (signTurn (nodeDispatch graph node core (chargeCores (atFrac frac s))))

end Sys2Proof.Machine
end

