-- ==== Sys2Proof/Machine/Boundary.lean ====
section
/-!
DEFINITION. The stroke boundary (spec/02_stroke_and_domain_time.md R29 to R46, spec/04 R85, spec/05 R96, spec/07 R145,
spec/15 R348, R349, spec/18 R408, spec/19 R430): what falls at every boundary, in the order of R43.
-/

namespace Sys2Proof.Machine

/-! ### Overrun (R44, R45) -/

/-- A stroke is late, or the dirty level has reached the effective limit. -/
def mustOverrun (s : State) : Bool := s.chain.closed.any (·.late) || effLimitKib s * 1024 ≤ dirtyBytes s

def mayResume (s : State) : Bool :=
  !s.chain.closed.any (·.late) && dirtyBytes s ≤ getF s STK_OVR_CTL_RESUME_MIB * 2 ^ 20

/-- A stroke opens in overrun. -/
def countOverrun (s : State) : State :=
  incF STK_OVR_COUNT_COUNT 1 { s with time := { s.time with lastOverrun := s.time.stroke } }

/-- Entry to overrun, with its anchor and the vendor event; its end; another stroke of it. -/
def overrunStep (s : State) : State :=
  if flagF s STK_STATUS_OVERRUN then
    (if mayResume s then anchorRec 9 (getF s STK_LATE_MAX_MICROS) (setF STK_STATUS_OVERRUN 0 s) else countOverrun s)
  else if mustOverrun s then countOverrun (vendorEvent 0 (anchorRec 8 0 (setF STK_STATUS_OVERRUN 1 s)))
  else s

/-! ### Parts that no chapter of its own gives -/

/-- A new stroke begins for the vectors (R59). -/
def renewVectors (s : State) : State :=
  { s with fns := s.fns.map (fun e => (e.1, { e.2 with
      vecs := e.2.vecs.map (fun v => (v.1, { v.2 with fresh := 0, spent := false })) })) }

/-- Time at or above WCTEMP and CCTEMP (R430). -/
def countHot (s : State) : State :=
  let k := hottestK s (List.range 24)
  let add (lim : Nat) : Nat := if lim ≤ k then s.time.period else 0
  { s with mon := { s.mon with warnUs := s.mon.warnUs + add 378, critUs := s.mon.critUs + add 388 } }

/-- The spec gives a self-test no duration: whether it ends in a stroke is a free value (notes/assumptions/2). -/
def testRuns (s : State) : State :=
  if s.mon.selfTest = 0 then s
  else
    let r := takeFree s
    if r.1 % 2 = 0 then { r.2 with mon := { r.2.mon with selfTest := 0 } } else r.2

/-- What Oxvia sends at a boundary: the root's mark, and every 64 strokes STATUS, the delay measurement and a COMMIT that is not
acknowledged (R38, R39, R391, R404). -/
def oxvBoundary (s : State) : State :=
  if !oxvPowered s then s
  else
    let s1 := sendMark s
    if s.time.stroke % 64 = 0 then repeatCommit (sendDelays (sendStatus s1)) else s1

/-- While an entry makes the Inkwell clean, what a boundary adds to the journal goes to the media as well (R416). -/
def keepClean (s : State) : State := if s.ing.paused then placeForced (journalFlush s) else s

/-- CLK_NIB_MAX and DRM_CTL.FORCE_2X take effect (R455). -/
def latchClocks (s : State) : State :=
  showRefresh { s with
    mode := { s.mode with nibMhz := getF s CLK_NIB_MAX_MHZ }, dram := { s.dram with force2x := flagF s DRM_CTL_FORCE_2X } }

/-! ### The boundary -/

/-- The count turns and the generator acts: all that happens in the modes that seal nothing. -/
def turn (s : State) : State := oxvBoundary (strokeIoPulse (countHot (generatorBoundary (tickStroke (noteUnsealed (latchClocks s))))))

/-- The ending stroke closes, the next one opens, and the generator acts in it. -/
def turnSealing (s : State) : State :=
  countHot (generatorBoundary (openStroke (tickStroke (closeStroke false (noteUnsealed (layAll (latchClocks s)))))))

/-- The budgets of the new stroke (R42). A mode transition begins before a pending DRAM point is applied (R349). -/
def refill (ended scale : Nat) (s : State) : State :=
  let s0 := setCapacity s
  let s1 := renewVectors (ingestBoundary ended (strokeCap s0 .wrBytes * scale / 256) s0)
  let s2 := retainBoundary (flourishBoundary (keepClean (settleOps (ftlBoundary (allotEngines scale (deepBoundary scale (qosBoundary scale s1)))))))
  dramBoundary (beginNext (ductBoundary (signTurn (serveLate s2))))

/-- A boundary in a mode that seals. -/
def sealingBoundary (katFail : List Nat) (s : State) : State :=
  let s1 := overrunStep (markLate (turnSealing s))
  let s2 := mirrorBoundary (showClocks (testRuns (refill s.time.stroke (scaleOf s) s1)))
  resumeHeld (katFail.foldl (fun a l => laneFail l a) (strokeIoPulse (oxvBoundary s2)))

/-- STROKE_BOUNDARY (R29 to R31, R43): HALT has no generator; a mode that seals does all of it; SEAL has closed its last stroke and
opens none; in the others the count goes on. `katFail` are the digest lanes that fail the known-answer test. -/
def execStrokeBoundary (katFail : List Nat) (s : State) : Result :=
  .next (match s.mode.cur with
    | .halt => s
    | .boot => turn s
    | .seal => markLate (turn s)
    | .safe | .drowse | .hibernate => beginNext (turn s)
    | _ => sealingBoundary katFail s)

end Sys2Proof.Machine
end

