-- ==== Sys2Proof/Machine/Firmware.lean ====
section
/-!
DEFINITION. Firmware packages (spec/16_inkstone_and_firmware.md R376 to R384, spec/04 R80, spec/18 R417): the header, Firmware
Download, Firmware Commit, ACTIVATE and the boot copy. A package lies in the staging area of the Inkstone; FWU_RECEIVED says how
much of it has arrived.
-/

namespace Sys2Proof.Machine

/-! ### The package (R364, R376) -/

/-- First byte and length of the staging area: bank 1, sectors 28 to 171. -/
def stagingBase : Nat := 2 ^ 23 + 28 * 32768
def stagingSize : Nat := 144 * 32768

/-- First byte and length of the running copy of a component, 1 to 4, in bank 0. -/
def areaOf : Nat → Nat × Nat
  | 1 => (0, 8 * 32768)
  | 2 => (12 * 32768, 16 * 32768)
  | 3 => (28 * 32768, 96 * 32768)
  | _ => (124 * 32768, 16 * 32768)

/-- Bytes of the staged package. -/
def stagedAt (s : State) (off n : Nat) : Bytes := inkBytesAt s (stagingBase + off) n

/-- The header of the staged package. -/
def header (s : State) : Bytes := stagedAt s 0 1024

/-- The descriptors that a header carries, 128 bytes each. -/
def descriptors (h : Bytes) : List Bytes := (List.range (min 4 (byteAt h 2))).map (fun i => slice h (16 + 128 * i) 128)

/-- The descriptor of a component, if the package carries it. -/
def carried (h : Bytes) (comp : Nat) : Option Bytes := (descriptors h).find? (fun d => byteAt d 0 == comp)

def descRev (d : Bytes) : Nat := leAt d 4 4
def bodyOff (d : Bytes) : Nat := leAt d 8 4
def bodyLen (d : Bytes) : Nat := leAt d 12 4

/-- TOTAL. -/
def packageTotal (h : Bytes) : Nat := leAt h 4 4

/-! ### The checks of the header (R377) -/

/-- A descriptor with a reserved byte set, an unknown component, a field of the scribe firmware in another one, a body that is
longer than its area or outside the package. -/
def badDescriptor (total : Nat) (d : Bytes) : Bool :=
  let c := byteAt d 0
  c == 0 || 4 < c || byteAt d 1 != 0 || !allZero (slice d 20 4) || !allZero (slice d 56 8) || !allZero (slice d 112 16) ||
    leAt d (24 + 4 * (c - 1)) 4 != 0 || leAt d (40 + 4 * (c - 1)) 4 != 0 || (c != 3 && (leAt d 2 2 != 0 || leAt d 16 4 != 0)) ||
    (areaOf c).2 < bodyLen d || bodyOff d < 1024 || total < bodyOff d + bodyLen d

/-- Components that do not rise. -/
def outOfOrder : List Bytes → Bool
  | a :: b :: t => byteAt b 0 ≤ byteAt a 0 || outOfOrder (b :: t)
  | _ => false

def overlap (a b : Bytes) : Bool :=
  bodyOff a < bodyOff b + bodyLen b && bodyOff b < bodyOff a + bodyLen a && 0 < bodyLen a && 0 < bodyLen b

def anyOverlap : List Bytes → Bool
  | [] => false
  | a :: t => t.any (overlap a) || anyOverlap t

/-- The first line of the table of checks. -/
def badHeader (h : Bytes) : Bool :=
  let n := byteAt h 2
  let ds := descriptors h
  byteAt h 0 != 0x50 || byteAt h 1 != 1 || n == 0 || 4 < n || byteAt h 3 != 0 || stagingSize < packageTotal h ||
    !allZero (slice h 14 2) || !allZero (slice h (16 + 128 * n) (912 - 128 * n)) ||
    ds.any (badDescriptor (packageTotal h)) || outOfOrder ds || anyOverlap ds

/-- The revision that a component will have beside the package: the package's, else the running one. -/
def revBeside (s : State) (h : Bytes) (comp : Nat) : Nat := ((carried h comp).map descRev).getD (getF s (FWU_REV (comp - 1)))

/-- A REQ_MIN or REQ_MAX that is not met. -/
def unmet (s : State) (h d : Bytes) : Bool :=
  [1, 2, 3, 4].any (fun c => c != byteAt d 0 &&
    (revBeside s h c < leAt d (24 + 4 * (c - 1)) 4 || leAt d (40 + 4 * (c - 1)) 4 < revBeside s h c))

/-- Why a header is refused: the status and REASON. -/
def headerError (s : State) (h : Bytes) : Option (Status × Nat) :=
  let step := getF s GLB_ID_STEPPING
  if badHeader h then some (.invalidField, 1)
  else if !Config.sigVerifies 2 Config.packageKey (h.take 928) (slice h 928 96) then some (.authFail, 2)
  else if step < byteAt h 12 || byteAt h 13 < step then some (.invalidField, 3)
  else if leAt h 8 4 < getF s FWU_SVN then some (.invalidField, 4)
  else if (descriptors h).any (unmet s h) then some (.invalidField, 5)
  else none

/-! ### Firmware Download (R377) -/

def showStagedRevs (p : Nat → Nat) (s : State) : State := (List.range 4).foldl (fun a c => setF (FWU_STAGED_REV c) (p (c + 1)) a) s

/-- REASON, and a staged package that is discarded. -/
def reject (reason : Nat) (s : State) : State := setF FWU_STATUS_STAGE 5 (setF FWU_STATUS_REASON reason s)

def discard (reason : Nat) (s : State) : State := reject reason (showStagedRevs (fun _ => 0) (setF FWU_RECEIVED 0 s))

/-- A new package begins: the staging area is erased. -/
def newPackage (s : State) : State :=
  let in_ (a : Nat) : Bool := stagingBase ≤ a && a < stagingBase + stagingSize
  showStagedRevs (fun _ => 0) (setF FWU_RECEIVED 0 (setF FWU_STATUS_STAGE 1
    { s with ink := { s.ink with bytes := s.ink.bytes.filter (fun e => !in_ e.1) } }))

/-- The bodies' bytes of a part are absorbed by a digest lane, in the PF's class (R377). -/
def absorbBody (got : Nat) (part : Bytes) (s : State) : State :=
  spendEng 0 (qosOf s 0).cls (ceilDiv (got + part.length - max got 1024) (groupBytes 2) * groupNs 2) s

/-- The part is in the staging area; STAGE follows. -/
def takePart (q : Sqe) (got : Nat) (part : Bytes) (s : State) : State :=
  let have' := got + part.length
  let s1 := inkWriteBytes (stagingBase + got) part s
  let h := header s1
  if have' < 1024 then done q .success 0 0 (setF FWU_RECEIVED have' s1)
  else match (if got < 1024 then headerError s1 h else none) with
    | some e => done q e.1 0 0 (discard e.2 s1)
    | none =>
      if packageTotal h < have' then done q .invalidField 0 0 (setF FWU_STATUS_REASON 6 s)
      else
        done q .success 0 0 (setF FWU_RECEIVED have' (setF FWU_STATUS_STAGE (if have' = packageTotal h then 3 else 2)
          (showStagedRevs (fun c => ((carried h c).map descRev).getD 0) (absorbBody got part s1))))

/-- FIRMWARE_DOWNLOAD: `sectorLost` says that a staging sector has been retired with no spare. -/
def firmwareDownload (q : Sqe) (off : Nat) (part : Bytes) (sectorLost : Bool) (s : State) : State :=
  let got := getF s FWU_RECEIVED
  if off != 0 && off < got then done q .overlappingRange 0 0 s
  else if off != 0 && got < off then done q .invalidField 0 0 s
  else if flagF s FWU_STATUS_COPY_DUE then done q .commandSequenceError 0 0 s
  else
    let s1 := if off = 0 then newPackage s else s
    if sectorLost then done q .internalError 0 0 (discard 7 s1) else takePart q off part s1

def execFirmwareDownload (q : Sqe) (ofst numd : Nat) (data : Bytes) (sectorLost : Bool) (s : State) : Result :=
  let n := (numd % 2 ^ 32 + 1) * 4
  adminFetch { pfOnly := true, safeOk := true, nsid0 := true, len := n, got := some data.length } q (fun a =>
    if 2097152 < n then done q .invalidField 0 0 a
    else firmwareDownload q (ofst % 2 ^ 32 * 4) (fixLen n data) sectorLost a) s

/-! ### Firmware Commit (R378) -/

/-- The body of a descriptor has its DIGEST. -/
def bodyOk (s : State) (d : Bytes) : Bool := digest 2 (stagedAt s (bodyOff d) (bodyLen d)) == slice d 64 48

/-- The staged package is complete and every body has its digest. -/
def packageOk (s : State) : Bool :=
  let st := getF s FWU_STATUS_STAGE
  (st == 3 || st == 4) && (descriptors (header s)).all (bodyOk s)

/-- LINK_MIN of the package is above the lowest LINK_REV of the domain. -/
def linkTooNew (s : State) : Bool :=
  s.oxv.tag != 0 && ((carried (header s) 3).any (fun d => leAt (domainLog s) 28 2 < leAt d 18 2))

/-- The registers of the running firmware follow the package (R386). -/
def runPackage (s : State) : State :=
  (descriptors (header s)).foldl (fun a d =>
    let b := setF (FWU_REV (byteAt d 0 - 1)) (descRev d) a
    if byteAt d 0 = 3 then setF FWU_LINK_REV (leAt d 16 2) (setF FWU_LINK_MIN (leAt d 18 2) (setF FWU_FORMAT_EXPECTED (leAt d 2 2) b))
    else b) s

/-- The activation record is programmed: the boot copy is due. -/
def recordActivation (s : State) : State :=
  setF FWU_STATUS_COPY_DUE 1 (setF FWU_STATUS_ACTIVE_SLOT 2 { s with fw := { s.fw with record := some [] } })

/-- The commit activates: in SAFE it completes, and a device reset follows; else ACTIVATE begins at a boundary. -/
def activate (q : Sqe) (s : State) : State :=
  if s.mode.cur = .safe then deviceReset 3 (done q .success 0 0 (recordActivation (runPackage s)))
  else { s with mode := { s.mode with wantActivate := true }, fw := { s.fw with commit := some (q.fn, q.sqid, q.cid) } }

/-- FIRMWARE_COMMIT. A second activating commit while one waits is out of sequence (notes/assumptions/68). -/
def firmwareCommit (q : Sqe) (fs ca : Nat) (s : State) : State :=
  if fs = 1 || 2 < fs then done q .invalidFirmwareSlot 0 0 s
  else if 4 ≤ ca then done q .invalidField 0 0 s
  else if s.fw.commit.isSome then done q .commandSequenceError 0 0 s
  else if !packageOk s then done q .invalidFirmwareImage 0 0 (reject 8 s)
  else
    let s1 := setF FWU_STATUS_STAGE 4 s
    if ca = 0 then done q .success 0 0 s1
    else if s.mode.cur == .sanitize || linkTooNew s then done q .firmwareActivationProhibited 0 0 (setF FWU_STATUS_REASON 9 s)
    else activate q s1

def execFirmwareCommit (q : Sqe) (fs ca : Nat) (s : State) : Result :=
  adminFetch { pfOnly := true, safeOk := true, nsid0 := true } q (firmwareCommit q (fs % 8) (ca % 8)) s

/-! ### ACTIVATE (R379, R380, R383) -/

/-- ACTIVATE_BEGIN. -/
def execActivateBegin (s : State) : Result :=
  .next (if mayBegin s && s.mode.wantActivate && s.mode.cur.working && !s.mode.stop.isSome then beginActivate s else s)

/-- The components run: the settings wait for the next BOOT where the FORMAT changes. -/
def activated (s : State) : State :=
  let old := getF s FWU_FORMAT_EXPECTED
  let s1 := recordActivation (runPackage s)
  if getF s1 FWU_FORMAT_EXPECTED = old then s1 else setF INK_STATUS_SAVE_HELD 1 s1

/-- The notice to each function that has asked for it (Feature 0Bh bit 9). -/
def noticeAll (s : State) : State :=
  allFns.foldl (fun a f =>
    if online a f && bitAt (getFn a f).feats.asyncCfg 9 then raiseEvent f { type := 2, info := 1, log := 3 } a else a) s

/-- The commit completes. -/
def endCommit (st : Status) (s : State) : State :=
  match s.fw.commit with
  | none => s
  | some c => complete c.1 c.2.1 c.2.2 st 0 0 { s with fw := { s.fw with commit := none } }

/-- ACTIVATE_END: `ok` is the self-check, `us` the duration. -/
def execActivateEnd (frac : Nat) (ok : Bool) (us : Nat) (s : State) : Result :=
  let s := atFrac frac s
  .next (if s.mode.cur != .activate then s
    else
      let good := ok && packageOk s
      let s1 := setF FWU_ACT_US us (if good then activated s else reject 10 s)
      let s2 := switchMode (if s.mode.lastOp = .lean then .lean else baseMode s) 8 { s1 with
        mode := { s1.mode with fetchStop := false }, fns := s1.fns.map (fun e => (e.1, { e.2 with pp := false })) }
      if good then endCommit .success (noticeAll s2) else endCommit .invalidFirmwareImage s2)

/-! ### The boot copy (R381) -/

/-- A component of bank 0 is replaced by the staged one. -/
def copyBody (comp : Nat) (d : Bytes) (s : State) : State :=
  let a := areaOf comp
  let in_ (x : Nat) : Bool := a.1 ≤ x && x < a.1 + a.2
  inkWriteBytes a.1 (stagedAt s (bodyOff d) (bodyLen d)) { s with
    ink := { s.ink with bytes := s.ink.bytes.filter (fun e => !in_ e.1) },
    fw := { s.fw with bank0 := s.fw.bank0.set (comp - 1) (descRev d) } }

/-- The next component that the activation record does not show as done. -/
def nextCopy (s : State) : Option Bytes :=
  match s.fw.record with
  | none => none
  | some l => (descriptors (header s)).find? (fun d => !l.contains (byteAt d 0))

/-- The record shows one more component; after the last one the copy is no longer due. -/
def recordCopy (comp : Nat) (s : State) : State :=
  let s1 := { s with fw := { s.fw with record := s.fw.record.map (· ++ [comp]) } }
  if (nextCopy s1).isSome then s1
  else setF FWU_STATUS_COPY_DUE 0 (setF FWU_STATUS_ACTIVE_SLOT 1 { s1 with fw := { s1.fw with record := none } })

/-- BOOT_COPY_DONE: `ok` is the check of DIGEST in bank 0. A component that fails it is copied again where the staged one is
valid; else the device enters SAFE. -/
def execBootCopyDone (comp : Nat) (ok : Bool) (ms : Nat) (s : State) : Result :=
  .next (if s.mode.cur != .boot || s.mode.stage != .computeGood then s
    else if ok then
      match (nextCopy s).filter (fun d => byteAt d 0 == comp) with
      | none => s
      | some d => recordCopy comp (copyBody comp d (setF FWU_COPY_MS (getF s FWU_COPY_MS + ms) s))
    else if packageOk s && (carried (header s) comp).isSome then s
    else enterSafe 0x0C s)

end Sys2Proof.Machine
end

