-- ==== Sys2Proof/Machine/RegWrite.lean ====
section
/-!
DEFINITION. Accesses to BAR2 (spec/20_register_map.md R446 to R457): a read with its latching, a write with what it acts on, the
access by mode, and a follower's accesses for OXV_REMOTE and the other PROXY frames (spec/17 R397 to R399).
-/

namespace Sys2Proof.Machine

/-! ### Reads (R447, R452, R454) -/

/-- The offset in force of a level: the pin's where one holds it, otherwise the tracked one (R179, R180). -/
def levelOffset (s : State) (die group level : Nat) : Nat :=
  match pinned s die group level with
  | some i => getF s (LDP_PIN_OFFSET i)
  | none => twos 8 ((mget (getDie s die).offsets (levelKey group level)).getD 0)

/-- The deep decoder runs: a codeword waits with allotment left for it (R177, R178). -/
def deepRuns (s : State) : Bool :=
  s.ftl.deepQ.any (fun w => 0 < (mget s.ftl.deepAllot (deepKey (w.die / 16) (deepClass s w))).getD 0 || 0 < s.ftl.deepSpare)

/-- Offsets of the levels that LDP_TRACK_SEL selects, four to a dword (R179). -/
def trackVal (s : State) (k : Nat) : Nat :=
  let d := getF s LDP_TRACK_SEL_DIE
  let g := getF s LDP_TRACK_SEL_GROUP
  (List.range 4).foldl (fun a i =>
    if 4 * k + i < 15 then a + levelOffset s d g (4 * k + i) * 2 ^ (8 * i) else a) 0

/-- What a read returns; none where no completion is returned. -/
def busRead (s : State) (off : Nat) : Option Nat :=
  match readReg s off with
  | none => none
  | some v =>
    if s.mode.cur = .boot then some v
    else if 0x22024 ≤ off && off ≤ 0x22030 then some (trackVal s ((off - 0x22024) / 4))
    else if off = 0x22004 then some (setBits v 1 1 (bit (deepRuns s)))
    else if off = 0x34800 then some (dirtyBytes s / 1024 % 65536)
    else some v

/-- A read of LO latches HI (R452). -/
def latchHi (off : Nat) (s : State) : State :=
  match latchPair s off with
  | some (hi, v) => { s with latch := sset (fun _ => 0) s.latch hi (BitVec.ofNat 32 v) }
  | none => s

/-- A read of one dword over PCIe. -/
def readAccess (off : Nat) (s : State) : State :=
  match busRead s off with
  | some v => emit (.regRead off v) (if s.mode.cur = .boot then s else latchHi off s)
  | none => s

/-- BAR2 of the PF answers: the link is up, the PF is in D0 and no reset holds it. -/
def barOpen (s : State) : Bool := linkUp s && !s.mode.perst && !(getFn s 0).d3

/-- A dword-aligned offset inside the 256 KiB window (R446, R447). -/
def badOffset (off : Nat) : Bool := off % 4 != 0 || 0x40000 ≤ off

/-- LATCHED_READ_LO (R452): a read of a dword; of a LO register it latches HI. -/
def execLatchedReadLo (off : Nat) (s : State) : Result :=
  if badOffset off then .fault .noSuchAddress
  else .next (if barOpen s then readAccess off s else s)

/-! ### Settings of several dwords (R451) -/

/-- The dwords of the setting that `off` is the highest of, without it. -/
def lowerParts (off : Nat) : List Nat :=
  if 0x0C100 ≤ off && off < 0x0C200 then
    let b := off / 64 * 64
    if off % 64 = 0x08 then [b + 0x04] else if off % 64 = 0x1C then [b + 0x10, b + 0x14, b + 0x18] else []
  else if off = 0x2D024 then [0x2D020]
  else if 0x22100 ≤ off && off < 0x22300 && off % 8 = 4 then [off - 4]
  else if 0x35100 ≤ off && off < 0x35180 && off % 8 = 4 then [off - 4]
  else []

/-- The dword is held until the highest of its setting is written. -/
def isHeldDword (off : Nat) : Bool :=
  (0x0C100 ≤ off && off < 0x0C200 && (off % 64 == 0x04 || off % 64 == 0x10 || off % 64 == 0x14 || off % 64 == 0x18)) ||
    off == 0x2D020 || (0x22100 ≤ off && off < 0x22300 && off % 8 == 0) || (0x35100 ≤ off && off < 0x35180 && off % 8 == 0)

/-- The held dwords of a setting take effect. -/
def releaseParts (off : Nat) (s : State) : State :=
  (lowerParts off).foldl (fun a o => match mget a.heldWrites o with
    | some v => guardedWrite o v.toNat { a with heldWrites := merase a.heldWrites o }
    | none => a) s

/-! ### What a write acts on (R30, R61, R67, R109, R135, R287, R292, R304, R342, R344, R349, R370, R374, R436) -/

/-- A write to a Stored field waits to be saved (R374). -/
def noteStored (off : Nat) (s : State) : State :=
  if hasStored off then setF INK_STATUS_SAVE_PENDING 1 { s with ink := { s.ink with storedAt := some (now s) } } else s

/-- A retrain starts (R67). -/
def retrain (s : State) : State := if linkUp s then incF FN_LINK_EVENTS_RETRAIN_COUNT 1 s else s

/-- An accepted period `p` waits for its boundary, in the place of an earlier one (R30); a rejected write has left the register. -/
def periodWritten (p : Nat) (s : State) : State :=
  if !isRoot s || getF s STK_PERIOD_MICROS != p then s
  else setF STK_PENDING_VALID 1 (setF STK_PENDING_MICROS p s)

/-- A change of HASH_SEL while the chain is provisional restarts it at the next boundary (R135). -/
def hashWritten (s : State) : State :=
  let h := if flagF s PNC_CTL_HASH_SEL then 2 else 1
  if s.chain.genesis && s.chain.provisional then
    { s with chain := { s.chain with restartTo := if h = s.chain.hashSel then none else some h } }
  else s

/-- OXV_CTL.EN takes a port's links down. -/
def oxvEnWritten (s : State) : State :=
  [0, 1, 2, 3].foldl (fun a l => if flagF a (OXV_LINK_UP l) && !bitAt (getF a OXV_CTL_EN) (l % 2) then oxvDown l a else a) s

/-- What follows the write of `v` to a setting: `old` is the dword before it. -/
def afterWrite (off old v : Nat) (s : State) : State :=
  let new := getReg s off
  if off = 0x0A000 then periodWritten (bits v 15 0) s
  else if off = 0x0A028 then resumeHeld (showSeal s)
  else if off = 0x10000 then hashWritten s
  else if off = 0x0600C then showBusy s
  else if off = 0x0C000 then applyPortEn s
  else if 0x05100 ≤ off && off < 0x05180 && off % 16 = 0 then
    (if bitAt old 0 && !bitAt new 0 then disableEvt ((off - 0x05100) / 16) s else s)
  else if 0x24000 ≤ off && off < 0x24020 then setCores s
  else if off = 0x2D03C then dropEq s
  else if off = 0x2E008 then showSlots s
  else if 0x31048 ≤ off && off < 0x31080 then
    (if bits old 15 8 != bits new 15 8 then clearPart ((off - 0x31040) / 4) s else s)
  else if off = 0x32000 then
    (if old != new && s.mode.cur != .park && modePoint s s.mode.cur != 3 then requestPoint (modePoint s s.mode.cur) s else s)
  else if off = 0x35000 then oxvEnWritten s
  else s

/-- A write of a dword that holds settings. -/
def settingWrite (off v : Nat) (s : State) : State :=
  let s1 := releaseParts off s
  let old := getReg s1 off
  noteStored off (afterWrite off old v (guardedWrite off v s1))

def glbErr (s : State) : State := setF GLB_ERR_CFG_ERR 1 s

/-- A write of one dword in a mode that accepts writes. -/
def writeDword (off v : Nat) (s : State) : State :=
  if off = 0x0000C then (if bits v 15 8 != 0x9C then glbErr s else if bitAt v 0 then deviceReset 3 s else s)
  else if off = 0x04008 then (if bits v 15 8 != 0xA5 then glbErr s else if bitAt v 0 then clearLog s else s)
  else if off = 0x06000 then (if bitAt v 6 then retrain else id) (settingWrite off v s)
  else if 0x06810 ≤ off && off < 0x07000 && s.numVfs < (off - 0x06800) / 16 then s
  else if off = 0x2D028 then feedOpen v s
  else if off = 0x2D02C then feedData v s
  else if off = 0x2D030 then (if 4 < bits v 2 0 then setF DIG_FEED_STATUS_BAD 1 s else plainWrite off v s)
  else if off = 0x2D034 then feedLast v s
  else if off = 0x2D038 then (if bitAt v 0 then feedAbort s else s)
  else if 0x2D040 ≤ off && off < 0x2D080 then
    { s with crypt := { s.crypt with expect := mset s.crypt.expect ((off - 0x2D040) / 4) (BitVec.ofNat 32 v) } }
  else if off = 0x2E010 then clearSlot (bits v 9 0) (bitAt v 31) s
  else if off = 0x31094 then
    let s1 := plainWrite off v s
    let s2 := if bitAt v 4 then sieveGo (bits v 3 0) false s1 else s1
    if bitAt v 5 then sieveNext s2 else s2
  else if off = 0x32004 then (if bitAt v 2 then requestPoint (bits v 1 0) s else s)
  else if off = 0x34000 then (if bitAt v 0 then { s with ink := { s.ink with saveNow := true } } else s)
  else if off = 0x3400C then inkCommand 1 (bits v 1 0) (getF s INK_ADDR_ADDR) (pfData s) .good s
  else if off = 0x35200 then remoteWrite v s
  else if isHeldDword off then { s with heldWrites := mset s.heldWrites off (BitVec.ofNat 32 v) }
  else settingWrite off v s

/-- Blocks whose units run in DROWSE and HIBERNATE: GLB, CLK, PWR, MON, LOG, EVT and STK (R416, R446, R454). -/
def runsDeep (off : Nat) : Bool := off < 0x06000 || (0x0A000 ≤ off && off < 0x0C000)

/-- Dwords whose write only acts: nothing of it stays to be read. -/
def onlyActs (off : Nat) : Bool :=
  off == 0x2D028 || off == 0x2D02C || off == 0x2D034 || off == 0x2D038 || off == 0x2E010 || off == 0x32004 || off == 0x34000 ||
    off == 0x3400C || off == 0x35200 || (0x2D040 ≤ off && off < 0x2D080)

/-- A write that acts on a gated unit waits for the return; the register reads the written value at once, and a Stored field is saved
after the return (R454, R455). -/
def gatedWrite (off v : Nat) (s : State) : State :=
  let s1 := { s with mode := { s.mode with heldActs := s.mode.heldActs ++ [(off, v)] } }
  if onlyActs off || (0x06810 ≤ off && off < 0x07000 && s.numVfs < (off - 0x06800) / 16) then s1
  else if isHeldDword off then { s1 with heldWrites := mset s1.heldWrites off (BitVec.ofNat 32 v) }
  else noteStored off (guardedWrite off v (releaseParts off s1))

/-- The units run again: the writes that waited act, in their order. -/
def replayWrites (s : State) : State :=
  if s.mode.cur.deep then s
  else s.mode.heldActs.foldl (fun a e => writeDword e.1 e.2 a) { s with mode := { s.mode with heldActs := [] } }

/-- A write by mode (R454). -/
def busWrite (off v : Nat) (s : State) : State :=
  match s.mode.cur with
  | .seal | .halt => s
  | .boot => if off = 0x0000C then writeDword off v s else glbErr s
  | .drowse | .hibernate => (if runsDeep off then writeDword else gatedWrite) off (v % 2 ^ 32) s
  | _ => writeDword off (v % 2 ^ 32) s

/-- REGISTER_WRITE (R447, R450, R454): `full` says that the byte enables cover the dword. -/
def execRegisterWrite (off value : Nat) (full : Bool) (s : State) : Result :=
  if badOffset off then .fault .noSuchAddress
  else .next (if !barOpen s || s.mode.cur == .seal || s.mode.cur == .halt then s
    else if full then busWrite off value s else glbErr s)

/-! ### PROXY frames (R397 to R399) -/

/-- The payload that a message spells, to be forwarded. -/
def proxyBytes : ProxyMsg → Bytes
  | .command sqid cid => proxyPayload 1 [sqid, cid] []
  | .completion sqid cid st dw0 dw1 => proxyPayload 2 [sqid, cid, st, dw0, dw1] []
  | .interrupted sqid cid => proxyPayload 3 [sqid, cid] []
  | .data cid bytes => proxyPayload 4 [cid] bytes
  | .regAccess off write value => proxyPayload 5 [off, bit write, value] []
  | .regDone value => proxyPayload 6 [value] []

/-- An entry that the head has fetched for this follower stands in its queue, to be executed under its own budgets. -/
def takeEntryFrom (sqid cid : Nat) (s : State) : State :=
  let q := (mget (getFn s 0).sqs sqid).getD { size := 65536, base := 0, cqid := sqid, prio := 0 }
  commandArrives 0 (updFn 0 (fun x => { x with sqs := mset x.sqs sqid { q with tail := (q.tail + 1) % q.size } })
    { s with oxv := { s.oxv with proxied := s.oxv.proxied ++ [(0, sqid, cid)] } })

/-- A follower's answer to a command of a proxy. -/
def proxyDone (dev sqid cid : Nat) (st : Status) (dw0 dw1 : Nat) (s : State) : State :=
  let f := placeIn dev
  if s.oxv.proxied.contains (f, sqid, cid) then
    showDomainAttn (complete f sqid cid st dw0 dw1
      { s with oxv := { s.oxv with proxied := dropFirst (fun e => e == (f, sqid, cid)) s.oxv.proxied } })
  else s

/-- Data for a command of this follower. -/
def proxyData (cid : Nat) (bytes : Bytes) (s : State) : State :=
  match s.cmds.find? (fun c => c.fn == 0 && c.cid == cid) with
  | some c => dataArrived 0 c.sqid cid bytes s
  | none => s

/-- What a PROXY frame does at its destination. -/
def takeProxy (h : OxvHdr) (m : ProxyMsg) (s : State) : State :=
  match m with
  | .command sqid cid => if follower s then takeEntryFrom sqid cid s else s
  | .completion sqid cid st dw0 dw1 => if isHead s then proxyDone h.src sqid cid (.raw st) dw0 dw1 s else s
  | .interrupted sqid cid => if isHead s then proxyDone h.src sqid cid .commandInterrupted 0 0 s else s
  | .data cid bytes => if isHead s then hostWrite (placeIn h.src) cid bytes s else if follower s then proxyData cid bytes s else s
  | .regAccess off write value =>
    if !follower s || badOffset off then s
    else if write then oxvTo h.src 10 (proxyPayload 6 [value] []) (busWrite off value s)
    else oxvTo h.src 10 (proxyPayload 6 [(busRead s off).getD 0] []) (latchHi off s)
  | .regDone value =>
    if !isHead s || !flagF s OXV_REMOTE_BUSY then s
    else
      let s1 := setF OXV_REMOTE_BUSY 0 s
      if flagF s OXV_REMOTE_WRITE then s1 else setF OXV_DATA value s1

/-- PROXY. -/
def execProxyFrame (h : OxvHdr) (m : ProxyMsg) (s : State) : Result :=
  .next (oxvReceive h 10 (proxyBytes m) (takeProxy h m) s)

end Sys2Proof.Machine
end

