-- ==== Sys2Proof/Machine/Mi.lean ====
section
/-!
DEFINITION. The management endpoint (spec/05_qos_and_virtualisation.md R103, R104, spec/04 R70): NVMe-MI commands over MCTP and in
NVMe-MI Send and Receive, and tunnelled admin commands. The layouts and numbers of NVMe-MI are its own standard's
(notes/assumptions/67).
-/

namespace Sys2Proof.Machine

/-- What an NVMe-MI command answers: status, the three bytes of the management response, data, and the state after it. -/
structure MiAnswer where
  status : Nat
  response : Nat := 0
  data : Bytes := []
  after : State

def miInvalidOpcode : Nat := 3
def miInvalidParameter : Nat := 4

def miRefuse (s : State) : MiAnswer := { status := miInvalidParameter, after := s }

def miData (b : Bytes × State) : MiAnswer := { status := 0, response := b.1.length, data := b.1, after := b.2 }

/-- The endpoint acknowledges its address (R103). -/
def miHears (s : State) : Bool :=
  match s.mode.cur with
  | .halt | .seal | .hibernate => false
  | _ => true

/-! ### The commands (R104) -/

/-- Highest unit size of MCTP: 64 bytes on SMBus, 250 on I3C (R103). -/
def miMaxMtu (s : State) : Nat := if s.mode.miI3c then 250 else 64

/-- Read NVMe-MI Data Structure: 0 subsystem, 1 port, 2 controller list, 3 controller. -/
def miStructure (dtyp port ctrl : Nat) (s : State) : MiAnswer :=
  match dtyp with
  | 0 => miData (openLog 32 [(0, le 1 0), (1, le 1 1), (2, le 1 2)] s)
  | 1 =>
    if port != 0 then miRefuse s
    else miData (openLog 32 [(0, le 1 2), (2, le 2 (miMaxMtu s)), (10, le 1 (getF s QOS_MI_SMB_ADDR * 2))] s)
  | 2 =>
    let ks := allFns.filter (ctrl ≤ ·)
    miData (le 2 ks.length ++ (ks.map (le 2)).flatten, s)
  | 3 =>
    if 128 ≤ ctrl then miRefuse s
    else miData (openLog 32 [(0, le 1 0), (8, le 2 (Config.vendorIds % 65536))] s)
  | _ => miRefuse s

/-- Composite temperature in degrees, as a byte: 80h where no sensor works. -/
def miTemp (s : State) : Nat :=
  match hottest s (List.range 24) with
  | none => 0x80
  | some t => twos 8 (t.1 / 4)

/-- NVM Subsystem Health Status Poll: critical warnings inverted, so a 0 in bit 3 says media read-only. -/
def miSubsystem (clear : Bool) (s : State) : MiAnswer :=
  miData (openLog 8 [(1, le 1 (255 - criticalWarning s 0)), (2, le 1 (miTemp s)), (3, le 1 (percentUsed s))]
    (if clear then { s with mon := { s.mon with miHealth := 0 } } else s))

/-- The entry of one controller. -/
def miController (s : State) (f : Nat) : Bytes :=
  let x := getFn s f
  le 2 f ++ le 2 (bit x.rdy + 2 * bit x.cfs) ++ le 2 (hottestK s (List.range 24)) ++ le 1 (percentUsed s)
    ++ le 1 (getF s FTL_SPARE_AVAIL_PCT) ++ le 1 (criticalWarning s f) ++ zeros 7

/-- Controller Health Status Poll: up to `max` controllers from `first` on. -/
def miControllers (first max : Nat) (s : State) : MiAnswer :=
  let ks := (allFns.filter (first ≤ ·)).take max
  if 128 ≤ first then miRefuse s
  else { status := 0, response := ks.length * 65536, data := (ks.map (miController s)).flatten, after := s }

/-- Configuration Set: 1 SMBus frequency, 2 health status change, 3 MCTP transmission unit size. -/
def miSet (cid port value : Nat) (s : State) : MiAnswer :=
  let put (g : MonSt → MonSt) : MiAnswer := { status := 0, after := { s with mon := g s.mon } }
  match cid with
  | 1 =>
    if port != 0 || s.mode.miI3c || value = 0 || 3 < value then miRefuse s
    else put (fun m => { m with miFreq := value })
  | 2 => put (fun m => { m with miHealth := value % 2 ^ 32 })
  | 3 => if port != 0 || value < 64 || miMaxMtu s < value then miRefuse s else put (fun m => { m with miMtu := value })
  | _ => miRefuse s

/-- Configuration Get: the value stands in the management response. -/
def miGet (cid port : Nat) (s : State) : MiAnswer :=
  let give (v : Nat) : MiAnswer := { status := 0, response := v, after := s }
  match cid with
  | 1 => if port != 0 || s.mode.miI3c then miRefuse s else give s.mon.miFreq
  | 2 => give s.mon.miHealth
  | 3 => if port != 0 then miRefuse s else give s.mon.miMtu
  | _ => miRefuse s

/-- What a VPD byte reads before it has been written (notes/assumptions/67). -/
def vpdDefault (_ : Nat) : Byte := 0

def miVpdRead (off len : Nat) (s : State) : MiAnswer :=
  if 256 < off + len then miRefuse s else { status := 0, data := sgetBytes vpdDefault s.ink.vpd off len, after := s }

/-- VPD Write: the identity block of the settings (R375) changes, so a settings copy is due. -/
def miVpdWrite (off : Nat) (data : Bytes) (s : State) : MiAnswer :=
  if 256 < off + data.length then miRefuse s
  else { status := 0, after := setF INK_STATUS_SAVE_PENDING 1
          { s with ink := { s.ink with vpd := ssetBytes vpdDefault s.ink.vpd off data, storedAt := some (now s) } } }

/-! ### Over MCTP -/

/-- The answer leaves on the endpoint. -/
def miReply (k : State → MiAnswer) (s : State) : Result :=
  .next (if !miHears s then s
    else
      let a := k s
      emit (.mi a.status (le 3 a.response ++ a.data)) a.after)

def execMiReadDataStructure (dtyp port ctrl : Nat) (s : State) : Result := miReply (miStructure dtyp port ctrl) s

def execMiSubsystemHealthPoll (clear : Bool) (s : State) : Result := miReply (miSubsystem clear) s

def execMiControllerHealthPoll (first max : Nat) (s : State) : Result := miReply (miControllers first max) s

def execMiConfigurationSet (cid port value : Nat) (s : State) : Result := miReply (miSet cid port value) s

def execMiConfigurationGet (cid port : Nat) (s : State) : Result := miReply (miGet cid port) s

def execMiVpdRead (off len : Nat) (s : State) : Result := miReply (miVpdRead off len) s

def execMiVpdWrite (off : Nat) (data : Bytes) (s : State) : Result := miReply (miVpdWrite off data) s

/-- MI_RESET: NVM subsystem reset is not supported (R68). -/
def execMiReset (s : State) : Result := miReply miRefuse s

/-! ### In-band (R70) -/

/-- The commands that NVMe-MI Receive carries, with their two dwords. -/
def miReceive (op dw0 dw1 : Nat) (s : State) : MiAnswer :=
  match op with
  | 0 => miStructure (bits dw0 31 24) (bits dw0 23 16) (bits dw0 15 0) s
  | 1 => miSubsystem (bitAt dw1 31) s
  | 2 => miControllers (bits dw0 15 0) (bits dw0 23 16 + 1) s
  | 4 => miGet (bits dw0 7 0) (bits dw0 31 24) s
  | 5 => miVpdRead (bits dw0 15 0) (bits dw1 15 0) s
  | _ => { status := miInvalidOpcode, after := s }

/-- The commands that NVMe-MI Send carries. -/
def miSend (op dw0 dw1 : Nat) (data : Bytes) (s : State) : MiAnswer :=
  match op with
  | 3 =>
    let cid := bits dw0 7 0
    miSet cid (bits dw0 31 24) (if cid = 1 then bits dw0 11 8 else if cid = 3 then bits dw1 15 0 else dw1) s
  | 6 => miVpdWrite (bits dw0 15 0) (fixLen (bits dw1 15 0) data) s
  | 7 => miRefuse s
  | _ => { status := miInvalidOpcode, after := s }

/-- The command completes; DW0 holds the endpoint's status and response. -/
def miInBand (q : Sqe) (k : State → MiAnswer) (s : State) : State :=
  let a := k s
  let dw0 := a.status % 256 + a.response % 2 ^ 24 * 256
  if a.data = [] then done q .success dw0 0 a.after else answer q a.data dw0 a.after

def execNvmeMiSend (q : Sqe) (opcode dw0 dw1 : Nat) (data : Bytes) (s : State) : Result :=
  adminFetch { len := if opcode % 256 = 6 then bits dw1 15 0 else 0, got := if opcode % 256 = 6 then some data.length else none } q
    (miInBand q (miSend (opcode % 256) (dw0 % 2 ^ 32) (dw1 % 2 ^ 32) data)) s

def execNvmeMiReceive (q : Sqe) (opcode dw0 dw1 : Nat) (s : State) : Result :=
  let k := miReceive (opcode % 256) (dw0 % 2 ^ 32) (dw1 % 2 ^ 32)
  adminFetch { len := (k s).data.length } q (miInBand q k) s

/-! ### Tunnelled admin commands (R104) -/

/-- A tunnelled entry: no queue, no data pointer in host memory. -/
def tunnelSqe (ctrl nsid : Nat) : Sqe :=
  { fn := ctrl, sqid := miQueue, cid := 0, nsid := nsid, fuse := 0, reservedSet := false,
    xfer := { psdt := 0, prp1Off := 0, prpListOff := false, sglBytes := 0, sglCount := 0, sglBadType := false } }

/-- Bytes of data that a tunnelled command moves. -/
def tunnelLen : TunnelCmd → Nat
  | .identify .. | .namespaceCreate .. | .namespaceAttach .. | .namespaceDetach .. => 4096
  | .setFeatures fid .. => if fid = 0x0C then 256 else 0
  | .getFeatures fid .. => if fid = 0x0C then 256 else 0
  | .getLogPage _ _ _ numd .. => (numd % 2 ^ 32 + 1) * 4
  | .modeRequest _ note => if note.isSome then 16 else 0
  | .firmwareDownload _ numd .. => (numd % 2 ^ 32 + 1) * 4
  | .keyBlobLoad _ numd .. => (numd % 2 ^ 32 + 1) * 4
  | .domainConfigure numd _ => (numd + 1) * 4
  | _ => 0

/-- The row and the meaning of the admin command that the tunnel carries. -/
def tunnelled (ctrl : Nat) (c : TunnelCmd) (s : State) : State :=
  let run (r : AdminRow) (nsid : Nat) (k : Sqe → State → State) : State :=
    let q := tunnelSqe ctrl nsid
    adminRun r q (k q) s
  match c with
  | .identify nsid cns cntid =>
    run { safeOk := true, toNs := nsScoped (cns % 256) } nsid (fun q => identify q (cns % 256) (cntid % 65536))
  | .getFeatures fid sel v => run {} 0 (fun q => getFeatures q fid sel v)
  | .setFeatures fid save v data => run {} 0 (fun q => setFeatures q fid save v data)
  | .getLogPage nsid lid lsp numd off rae bad =>
    run { safeOk := true } nsid (fun q => getLogPage q (lid % 256) (lsp % 128) (numd % 2 ^ 32) off rae bad)
  | .namespaceCreate data => run { pfOnly := true, nsid0 := true } 0 (fun q => nsCreate q data)
  | .namespaceDelete nsid => run { pfOnly := true, toNs := true } nsid nsDelete
  | .namespaceAttach nsid ctrls => run { pfOnly := true, toNs := true } nsid (fun q => nsAttach q ctrls)
  | .namespaceDetach nsid ctrls => run { pfOnly := true, toNs := true } nsid (fun q => nsDetach q ctrls)
  | .vmAssign cntlid primary rt nr => run { pfOnly := true, nsid0 := true } 0 (fun q => vmAssign q cntlid primary rt nr)
  | .vmOnline cntlid => run { pfOnly := true, nsid0 := true } 0 (fun q => vmOnline q cntlid)
  | .vmOffline cntlid => run { pfOnly := true, nsid0 := true } 0 (fun q => vmOffline q cntlid)
  | .formatNvm nsid lbaf ses => run { pfOnly := true, toNs := true } nsid (fun q => formatNvm q lbaf ses)
  | .sanitize action => run { pfOnly := true, nsid0 := true } 0 (fun q => sanitize q action)
  | .selfTest stc => run {} 0 (fun q => selfTest q stc)
  | .modeRequest target note => run (modeRow none) 0 (fun q => modeRequest q target note)
  | .firmwareDownload ofst numd data lost =>
    run { pfOnly := true, safeOk := true, nsid0 := true } 0
      (fun q => firmwareDownload q (ofst % 2 ^ 32 * 4) (fixLen ((numd % 2 ^ 32 + 1) * 4) data) lost)
  | .firmwareCommit fs ca => run { pfOnly := true, safeOk := true, nsid0 := true } 0 (fun q => firmwareCommit q (fs % 8) (ca % 8))
  | .keyBlobLoad nsid numd slot wrap blob =>
    run { pfOnly := true, toNs := true } nsid
      (fun q => startBlob q (numd % 2 ^ 32) (slot % 1024) (wrap % 4) (numdData (numd % 2 ^ 32) blob))
  | .domainConfigure numd data => run (domainRow 0) 0 (fun q => domainConfigure q numd data)
  | .domainRealign => run (domainRow 0) 0 domainRealign

/-- A tunnelled command arrives: it meets an entry to a lower state, or wakes the device, as a function's own does (R83). -/
def tunnelArrives (ctrl : Nat) (s : State) : State := commandArrives (if online s ctrl then ctrl else 0) s

/-- The device is away: a command runs once it is back (R83). -/
def away (s : State) : Bool := s.mode.cur.deep || s.mode.trans.any (·.committed)

/-- Tunnelled commands that have waited run, in the order in which they came. -/
def serveTunnels (s : State) : State :=
  if away s then s
  else s.mon.tunnels.foldl (fun a c => tunnelled c.1 c.2 a) { s with mon := { s.mon with tunnels := [] } }

/-- MODE_TRANSITION_DONE (R408). -/
def execModeTransitionDone (frac : Nat) (s : State) : Result := .next (serveTunnels (replayWrites (finishTrans (advanceStop (atFrac frac s)))))

/-- The command runs, or waits. -/
def takeTunnel (ctrl : Nat) (cmd : TunnelCmd) (s : State) : State :=
  let a := tunnelArrives ctrl s
  if away a then { a with mon := { a.mon with tunnels := a.mon.tunnels ++ [(ctrl, cmd)] } } else tunnelled ctrl cmd a

/-- MI_ADMIN_TUNNEL: at most 4,096 bytes of data. -/
def execMiAdminTunnel (ctrl dlen : Nat) (cmd : TunnelCmd) (s : State) : Result :=
  .next (if !miHears s then s
    else if 128 ≤ ctrl then emit (.mi miInvalidParameter (zeros 3)) s
    else if 4096 < max dlen (tunnelLen cmd) then done (tunnelSqe ctrl 0) .invalidField 0 0 s
    else if s.mode.cur == .boot && !s.mode.mounted then done (tunnelSqe ctrl 0) .commandSequenceError 0 0 s
    else takeTunnel ctrl cmd s)

end Sys2Proof.Machine
end

