-- ==== Sys2Proof/Machine/Nib.lean ====
section
/-!
DEFINITION. The operations of a Nib core (spec/11_nib_instruction_set.md R249, R250, R253): each delivers its word to the bundle
that the core fetches (`nibIssue`); the bundle runs at its stop bit, with every operation read from `regEffect`,
`flagEffect` and `control`.
-/

namespace Sys2Proof.Machine

/-- NOP in any unit (R248). -/
def execNop (o : NibOp) (s : State) : Result := .next (nibIssue (o.unit % 4) 0x00 o s)

/-- ADD (R249): A + B. -/
def execAdd (o : NibOp) (s : State) : Result := .next (nibIssue (o.unit % 2) 0x01 o s)

/-- ADDC (R249): A + B + C, Z chained. -/
def execAddc (o : NibOp) (s : State) : Result := .next (nibIssue (o.unit % 2) 0x02 o s)

/-- ADDS (R249): signed A + B, saturated. -/
def execAdds (o : NibOp) (s : State) : Result := .next (nibIssue (o.unit % 2) 0x03 o s)

/-- SUB (R249): A − B; C is the borrow. -/
def execSub (o : NibOp) (s : State) : Result := .next (nibIssue (o.unit % 2) 0x04 o s)

/-- SUBB (R249): A − B − C, Z chained. -/
def execSubb (o : NibOp) (s : State) : Result := .next (nibIssue (o.unit % 2) 0x05 o s)

/-- SUBS (R249): signed A − B, saturated. -/
def execSubs (o : NibOp) (s : State) : Result := .next (nibIssue (o.unit % 2) 0x06 o s)

/-- NEG (R249): 0 − A. -/
def execNeg (o : NibOp) (s : State) : Result := .next (nibIssue (o.unit % 2) 0x07 o s)

/-- NEGS (R249): 0 − A, saturated. -/
def execNegs (o : NibOp) (s : State) : Result := .next (nibIssue (o.unit % 2) 0x08 o s)

/-- ABS (R249): the absolute value. -/
def execAbs (o : NibOp) (s : State) : Result := .next (nibIssue (o.unit % 2) 0x09 o s)

/-- ABSS (R249): the absolute value, saturated. -/
def execAbss (o : NibOp) (s : State) : Result := .next (nibIssue (o.unit % 2) 0x0A o s)

/-- CMP (R249): flags of A − B. -/
def execCmp (o : NibOp) (s : State) : Result := .next (nibIssue (o.unit % 2) 0x0B o s)

/-- CMPC (R249): flags of A − B − C, Z chained. -/
def execCmpc (o : NibOp) (s : State) : Result := .next (nibIssue (o.unit % 2) 0x0C o s)

/-- AND (R249): A AND B. -/
def execAndOp (o : NibOp) (s : State) : Result := .next (nibIssue (o.unit % 2) 0x0D o s)

/-- OR (R249): A OR B. -/
def execOrOp (o : NibOp) (s : State) : Result := .next (nibIssue (o.unit % 2) 0x0E o s)

/-- XOR (R249): A XOR B. -/
def execXor (o : NibOp) (s : State) : Result := .next (nibIssue (o.unit % 2) 0x0F o s)

/-- ANDN (R249): A AND NOT B. -/
def execAndn (o : NibOp) (s : State) : Result := .next (nibIssue (o.unit % 2) 0x10 o s)

/-- NOT (R249): NOT A. -/
def execNotOp (o : NibOp) (s : State) : Result := .next (nibIssue (o.unit % 2) 0x11 o s)

/-- MOV (R249): B or K. -/
def execMov (o : NibOp) (s : State) : Result := .next (nibIssue (o.unit % 2) 0x12 o s)

/-- MIN (R249): signed minimum. -/
def execMinOp (o : NibOp) (s : State) : Result := .next (nibIssue (o.unit % 2) 0x13 o s)

/-- MAX (R249): signed maximum. -/
def execMaxOp (o : NibOp) (s : State) : Result := .next (nibIssue (o.unit % 2) 0x14 o s)

/-- MINU (R249): unsigned minimum. -/
def execMinu (o : NibOp) (s : State) : Result := .next (nibIssue (o.unit % 2) 0x15 o s)

/-- MAXU (R249): unsigned maximum. -/
def execMaxu (o : NibOp) (s : State) : Result := .next (nibIssue (o.unit % 2) 0x16 o s)

/-- SEL (R249): A if Z = 1, otherwise B. -/
def execSel (o : NibOp) (s : State) : Result := .next (nibIssue (o.unit % 2) 0x17 o s)

/-- SEXT8 (R249): A[7:0] sign-extended. -/
def execSext8 (o : NibOp) (s : State) : Result := .next (nibIssue (o.unit % 2) 0x18 o s)

/-- ZEXT8 (R249): A[7:0] zero-extended. -/
def execZext8 (o : NibOp) (s : State) : Result := .next (nibIssue (o.unit % 2) 0x19 o s)

/-- CLZ (R249): leading zeros. -/
def execClz (o : NibOp) (s : State) : Result := .next (nibIssue (o.unit % 2) 0x1A o s)

/-- POPC (R249): bits set. -/
def execPopc (o : NibOp) (s : State) : Result := .next (nibIssue (o.unit % 2) 0x1B o s)

/-- TST (R249): flags of A AND B. -/
def execTst (o : NibOp) (s : State) : Result := .next (nibIssue (o.unit % 2) 0x1C o s)

/-- MOVF (R249): wD = fB. -/
def execMovf (o : NibOp) (s : State) : Result := .next (nibIssue (o.unit % 2) 0x1D o s)

/-- MOVT (R249): fD = wA. -/
def execMovt (o : NibOp) (s : State) : Result := .next (nibIssue (o.unit % 2) 0x1E o s)

/-- LDI (R249): K16. -/
def execLdi (o : NibOp) (s : State) : Result := .next (nibIssue (o.unit % 2) 0x1F o s)

/-- MUL (R250): low 16 bits of the signed product. -/
def execMul (o : NibOp) (s : State) : Result := .next (nibIssue 2 0x01 o s)

/-- MULL (R250): signed 32-bit product. -/
def execMull (o : NibOp) (s : State) : Result := .next (nibIssue 2 0x02 o s)

/-- MULLU (R250): unsigned 32-bit product. -/
def execMullu (o : NibOp) (s : State) : Result := .next (nibIssue 2 0x03 o s)

/-- MULQ (R250): Q15 product. -/
def execMulq (o : NibOp) (s : State) : Result := .next (nibIssue 2 0x04 o s)

/-- MULQR (R250): Q15 product, rounded. -/
def execMulqr (o : NibOp) (s : State) : Result := .next (nibIssue 2 0x05 o s)

/-- MAC (R250): Dp + signed A × B. -/
def execMac (o : NibOp) (s : State) : Result := .next (nibIssue 2 0x06 o s)

/-- MACS (R250): Dp + A × B, saturated. -/
def execMacs (o : NibOp) (s : State) : Result := .next (nibIssue 2 0x07 o s)

/-- SHL (R250): logical left. -/
def execShl (o : NibOp) (s : State) : Result := .next (nibIssue 2 0x08 o s)

/-- SHR (R250): logical right. -/
def execShr (o : NibOp) (s : State) : Result := .next (nibIssue 2 0x09 o s)

/-- SAR (R250): arithmetic right. -/
def execSar (o : NibOp) (s : State) : Result := .next (nibIssue 2 0x0A o s)

/-- ASL (R250): arithmetic left. -/
def execAsl (o : NibOp) (s : State) : Result := .next (nibIssue 2 0x0B o s)

/-- ROL (R250): rotate left. -/
def execRol (o : NibOp) (s : State) : Result := .next (nibIssue 2 0x0C o s)

/-- ROR (R250): rotate right. -/
def execRor (o : NibOp) (s : State) : Result := .next (nibIssue 2 0x0D o s)

/-- DIVS (R250): signed quotient and remainder. -/
def execDivs (o : NibOp) (s : State) : Result := .next (nibIssue 2 0x0E o s)

/-- DIVU (R250): unsigned quotient and remainder. -/
def execDivu (o : NibOp) (s : State) : Result := .next (nibIssue 2 0x0F o s)

/-- SHL32 (R250): pair logical left. -/
def execShl32 (o : NibOp) (s : State) : Result := .next (nibIssue 2 0x10 o s)

/-- SHR32 (R250): pair logical right. -/
def execShr32 (o : NibOp) (s : State) : Result := .next (nibIssue 2 0x11 o s)

/-- SAR32 (R250): pair arithmetic right. -/
def execSar32 (o : NibOp) (s : State) : Result := .next (nibIssue 2 0x12 o s)

/-- EXTU (R250): field, zero-extended. -/
def execExtu (o : NibOp) (s : State) : Result := .next (nibIssue 2 0x13 o s)

/-- EXTS (R250): field, sign-extended. -/
def execExts (o : NibOp) (s : State) : Result := .next (nibIssue 2 0x14 o s)

/-- LD (R253): load from local data memory. -/
def execLd (o : NibOp) (s : State) : Result := .next (nibIssue 3 0x01 o s)

/-- ST (R253): store to local data memory. -/
def execSt (o : NibOp) (s : State) : Result := .next (nibIssue 3 0x02 o s)

/-- LDPI (R253): local load with post-increment. -/
def execLdpi (o : NibOp) (s : State) : Result := .next (nibIssue 3 0x03 o s)

/-- STPI (R253): local store with post-increment. -/
def execStpi (o : NibOp) (s : State) : Result := .next (nibIssue 3 0x04 o s)

/-- LDS (R253): segment load (R234, R235). -/
def execLds (o : NibOp) (s : State) : Result := .next (nibIssue 3 0x05 o s)

/-- STS (R253): segment store (R234, R235). -/
def execSts (o : NibOp) (s : State) : Result := .next (nibIssue 3 0x06 o s)

/-- LDP (R253): pair load. -/
def execLdp (o : NibOp) (s : State) : Result := .next (nibIssue 3 0x07 o s)

/-- STP (R253): pair store. -/
def execStp (o : NibOp) (s : State) : Result := .next (nibIssue 3 0x08 o s)

/-- B (R253): branch on COND (R254, R255). -/
def execBranch (o : NibOp) (s : State) : Result := .next (nibIssue 3 0x09 o s)

/-- CALL (R253): call, with a slide (R239). -/
def execCall (o : NibOp) (s : State) : Result := .next (nibIssue 3 0x0A o s)

/-- CALLX (R253): call into either half. -/
def execCallx (o : NibOp) (s : State) : Result := .next (nibIssue 3 0x0B o s)

/-- JMPX (R253): jump into either half. -/
def execJmpx (o : NibOp) (s : State) : Result := .next (nibIssue 3 0x0C o s)

/-- RET (R253): return, with a slide back. -/
def execRet (o : NibOp) (s : State) : Result := .next (nibIssue 3 0x0D o s)

/-- RETT (R253): return from a trap (R263). -/
def execRett (o : NibOp) (s : State) : Result := .next (nibIssue 3 0x0E o s)

/-- REPI (R253): interruptible repeat (R256). -/
def execRepi (o : NibOp) (s : State) : Result := .next (nibIssue 3 0x0F o s)

/-- REPN (R253): uninterruptible repeat (R256). -/
def execRepn (o : NibOp) (s : State) : Result := .next (nibIssue 3 0x10 o s)

/-- TRAP (R253): SOFTWARE trap (R260). -/
def execTrap (o : NibOp) (s : State) : Result := .next (nibIssue 3 0x11 o s)

/-- MFC (R253): read a control register (R242). -/
def execMfc (o : NibOp) (s : State) : Result := .next (nibIssue 3 0x12 o s)

/-- MTC (R253): write a control register (R242). -/
def execMtc (o : NibOp) (s : State) : Result := .next (nibIssue 3 0x13 o s)

/-- HALT (R253): end the node with a result code. -/
def execHaltOp (o : NibOp) (s : State) : Result := .next (nibIssue 3 0x14 o s)

/-- WAIT (R253): stop issue until an event is pending (R282). -/
def execWait (o : NibOp) (s : State) : Result := .next (nibIssue 3 0x15 o s)

/-- BAR (R253): earlier segment stores are visible (R237): they are at once. -/
def execBar (o : NibOp) (s : State) : Result := .next (nibIssue 3 0x16 o s)

end Sys2Proof.Machine
end

