-- ==== Sys2Proof/Machine/Dispatch.lean ====
section
/-!
DEFINITION. One arm for each constructor of Instr: a direct call of its meaning, or a rejection by name.
-/

namespace Sys2Proof.Machine

def exec (i : Instr) (s : State) : Host.Outcome State Fault Refusal :=
  match i with
  | .strokeBoundary katFail => Sys2Proof.Machine.execStrokeBoundary katFail s
  | .summaryPost cons => Sys2Proof.Machine.execSummaryPost cons s
  | .vectorSignal fn vec => Sys2Proof.Machine.execVectorSignal fn vec s
  | .pounceCommit frac flag flag2 attempts loserB => Sys2Proof.Machine.execPounceCommit frac flag flag2 attempts loserB s
  | .flourishSigned frac => Sys2Proof.Machine.execFlourishSigned frac s
  | .laneParityFail frac check => Sys2Proof.Machine.execLaneParityFail frac check s
  | .referenceEdge frac edge offsetNs => Sys2Proof.Machine.execReferenceEdge frac edge offsetNs s
  | .referenceLost frac absent => Sys2Proof.Machine.execReferenceLost frac absent s
  | .acquireLocked frac => Sys2Proof.Machine.execAcquireLocked frac s
  | .holdoverLimit frac => Sys2Proof.Machine.execHoldoverLimit frac s
  | .ptpMessage frac port hdr msg => Sys2Proof.Machine.execPtpMessage frac port hdr msg s
  | .marksMissing frac => Sys2Proof.Machine.execMarksMissing frac s
  | .appendHoldExpiry fn sqid cid => Sys2Proof.Machine.execAppendHoldExpiry fn sqid cid s
  | .linkTrained frac speed width reversed polarity fault => Sys2Proof.Machine.execLinkTrained frac speed width reversed polarity fault s
  | .linkDown frac => Sys2Proof.Machine.execLinkDown frac s
  | .hotReset frac => Sys2Proof.Machine.execHotReset frac s
  | .perstAssert frac => Sys2Proof.Machine.execPerstAssert frac s
  | .perstDeassert frac => Sys2Proof.Machine.execPerstDeassert frac s
  | .retrain => Sys2Proof.Machine.execRetrain s
  | .linkAttnTimeout => Sys2Proof.Machine.execLinkAttnTimeout s
  | .noIrqTimeout => Sys2Proof.Machine.execNoIrqTimeout s
  | .attentionBurst => Sys2Proof.Machine.execAttentionBurst s
  | .msixUnmask fn w => Sys2Proof.Machine.execMsixUnmask fn w s
  | .dStateChange fn d3 => Sys2Proof.Machine.execDStateChange fn d3 s
  | .numvfsWrite n => Sys2Proof.Machine.execNumvfsWrite n s
  | .dmaReadFault fn sqid cid => Sys2Proof.Machine.execDmaReadFault fn sqid cid s
  | .completionTimeout fn sqid cid => Sys2Proof.Machine.execCompletionTimeout fn sqid cid s
  | .dmaWriteRejected fn sqid cid => Sys2Proof.Machine.execDmaWriteRejected fn sqid cid s
  | .writeDataArrived fn sqid cid data => Sys2Proof.Machine.execWriteDataArrived fn sqid cid data s
  | .sqTailDoorbell frac fn sqid tail => Sys2Proof.Machine.execSqTailDoorbell frac fn sqid tail s
  | .cqHeadDoorbell fn cqid head => Sys2Proof.Machine.execCqHeadDoorbell fn cqid head s
  | .ccEnSet fn ams mps asqBase asqSize acqBase acqSize => Sys2Proof.Machine.execCcEnSet fn ams mps asqBase asqSize acqBase acqSize s
  | .ccEnClear frac fn => Sys2Proof.Machine.execCcEnClear frac fn s
  | .flrInitiate frac fn => Sys2Proof.Machine.execFlrInitiate frac fn s
  | .flrCommit => Sys2Proof.Machine.execFlrCommit s
  | .identify q cns cntid => Sys2Proof.Machine.execIdentify q cns cntid s
  | .getFeatures q fid sel dw11 => Sys2Proof.Machine.execGetFeatures q fid sel dw11 s
  | .setFeatures q fid save dw11 data => Sys2Proof.Machine.execSetFeatures q fid save dw11 data s
  | .getLogPage q lid lsp numd off how => Sys2Proof.Machine.execGetLogPage q lid lsp numd off how s
  | .createIoSq q sqid size base cqid prio pc => Sys2Proof.Machine.execCreateIoSq q sqid size base cqid prio pc s
  | .createIoCq q cqid size base vector ien pc => Sys2Proof.Machine.execCreateIoCq q cqid size base vector ien pc s
  | .deleteIoSq q sqid => Sys2Proof.Machine.execDeleteIoSq q sqid s
  | .deleteIoCq q cqid => Sys2Proof.Machine.execDeleteIoCq q cqid s
  | .abortCmd q sqid cid => Sys2Proof.Machine.execAbortCmd q sqid cid s
  | .asyncEventRequest q => Sys2Proof.Machine.execAsyncEventRequest q s
  | .namespaceCreate q data => Sys2Proof.Machine.execNamespaceCreate q data s
  | .namespaceDelete q => Sys2Proof.Machine.execNamespaceDelete q s
  | .namespaceAttach q ctrls => Sys2Proof.Machine.execNamespaceAttach q ctrls s
  | .namespaceDetach q ctrls => Sys2Proof.Machine.execNamespaceDetach q ctrls s
  | .unitTransitionCommit => Sys2Proof.Machine.execUnitTransitionCommit s
  | .vmAssignResources q cntlid primary rt nr => Sys2Proof.Machine.execVmAssignResources q cntlid primary rt nr s
  | .vmOnline q cntlid => Sys2Proof.Machine.execVmOnline q cntlid s
  | .vmOffline q cntlid => Sys2Proof.Machine.execVmOffline q cntlid s
  | .formatNvm q lbaf ses => Sys2Proof.Machine.execFormatNvm q lbaf ses s
  | .formatDone nsid => Sys2Proof.Machine.execFormatDone nsid s
  | .sanitizeCryptoErase q => Sys2Proof.Machine.execSanitizeCryptoErase q s
  | .sanitizeBlockErase q => Sys2Proof.Machine.execSanitizeBlockErase q s
  | .sanitizeDone => Sys2Proof.Machine.execSanitizeDone s
  | .deviceSelfTest q stc => Sys2Proof.Machine.execDeviceSelfTest q stc s
  | .directiveSend q dtype doper dspec value => Sys2Proof.Machine.execDirectiveSend q dtype doper dspec value s
  | .directiveReceive q dtype doper numd value => Sys2Proof.Machine.execDirectiveReceive q dtype doper numd value s
  | .nvmeMiSend q opcode dw0 dw1 data => Sys2Proof.Machine.execNvmeMiSend q opcode dw0 dw1 data s
  | .nvmeMiReceive q opcode dw0 dw1 => Sys2Proof.Machine.execNvmeMiReceive q opcode dw0 dw1 s
  | .firmwareDownload q ofst numd data sectorLost => Sys2Proof.Machine.execFirmwareDownload q ofst numd data sectorLost s
  | .firmwareCommit q fs ca => Sys2Proof.Machine.execFirmwareCommit q fs ca s
  | .activateBegin => Sys2Proof.Machine.execActivateBegin s
  | .activateEnd frac ok us => Sys2Proof.Machine.execActivateEnd frac ok us s
  | .readCmd q slba nlb => Sys2Proof.Machine.execReadCmd q slba nlb s
  | .writeCmd q slba nlb dtype dspec => Sys2Proof.Machine.execWriteCmd q slba nlb dtype dspec s
  | .compareCmd q slba nlb host => Sys2Proof.Machine.execCompareCmd q slba nlb host s
  | .verifyCmd q slba nlb => Sys2Proof.Machine.execVerifyCmd q slba nlb s
  | .writeZeroes q slba nlb deac => Sys2Proof.Machine.execWriteZeroes q slba nlb deac s
  | .datasetManagement q ad ranges => Sys2Proof.Machine.execDatasetManagement q ad ranges s
  | .deallocatePass => Sys2Proof.Machine.execDeallocatePass s
  | .flushCmd q => Sys2Proof.Machine.execFlushCmd q s
  | .sealedAppend q nlb lastBytes expected => Sys2Proof.Machine.execSealedAppend q nlb lastBytes expected s
  | .verifyRange q slba nlb chain => Sys2Proof.Machine.execVerifyRange q slba nlb chain s
  | .proofRead q stroke kind numd => Sys2Proof.Machine.execProofRead q stroke kind numd s
  | .holdPlace q first last tag => Sys2Proof.Machine.execHoldPlace q first last tag s
  | .holdQuery q first last => Sys2Proof.Machine.execHoldQuery q first last s
  | .exportBundle q first last comp level proofs sign numd resume => Sys2Proof.Machine.execExportBundle q first last comp level proofs sign numd resume s
  | .exportCookieLapse => Sys2Proof.Machine.execExportCookieLapse s
  | .releaseCmd q numd token => Sys2Proof.Machine.execReleaseCmd q numd token s
  | .releaseDryrun q numd token => Sys2Proof.Machine.execReleaseDryrun q numd token s
  | .graphLoad q numd off total data => Sys2Proof.Machine.execGraphLoad q numd off total data s
  | .graphRelease q numd off handle high => Sys2Proof.Machine.execGraphRelease q numd off handle high s
  | .graphStart q handle tag limit => Sys2Proof.Machine.execGraphStart q handle tag limit s
  | .graphResult q handle run numd wait => Sys2Proof.Machine.execGraphResult q handle run numd wait s
  | .flowBind q numd desc => Sys2Proof.Machine.execFlowBind q numd desc s
  | .flowUnbind q numd flow desc => Sys2Proof.Machine.execFlowUnbind q numd flow desc s
  | .flowModify q numd flow desc => Sys2Proof.Machine.execFlowModify q numd flow desc s
  | .ringBind q numd action flow desc => Sys2Proof.Machine.execRingBind q numd action flow desc s
  | .ringRemove q numd flow desc => Sys2Proof.Machine.execRingRemove q numd flow desc s
  | .bindCommit => Sys2Proof.Machine.execBindCommit s
  | .keyBlobLoad q numd slot wrap blob => Sys2Proof.Machine.execKeyBlobLoad q numd slot wrap blob s
  | .domainConfigure q numd data => Sys2Proof.Machine.execDomainConfigure q numd data s
  | .domainRealign q => Sys2Proof.Machine.execDomainRealign q s
  | .domainCommit => Sys2Proof.Machine.execDomainCommit s
  | .domainPrepareTimeout => Sys2Proof.Machine.execDomainPrepareTimeout s
  | .modeRequest q target note => Sys2Proof.Machine.execModeRequest q target note s
  | .modeTransitionBegin => Sys2Proof.Machine.execModeTransitionBegin s
  | .modeTransitionDone frac => Sys2Proof.Machine.execModeTransitionDone frac s
  | .orderlyStop => Sys2Proof.Machine.execOrderlyStop s
  | .orderlyStopDrainTimeout frac => Sys2Proof.Machine.execOrderlyStopDrainTimeout frac s
  | .parkBurst => Sys2Proof.Machine.execParkBurst s
  | .parkChannelIdle => Sys2Proof.Machine.execParkChannelIdle s
  | .wakeTimer => Sys2Proof.Machine.execWakeTimer s
  | .ignitionOffDelay => Sys2Proof.Machine.execIgnitionOffDelay s
  | .deviceReset => Sys2Proof.Machine.execDeviceReset s
  | .scribeWatchdog core => Sys2Proof.Machine.execScribeWatchdog core s
  | .droopTrip frac regions => Sys2Proof.Machine.execDroopTrip frac regions s
  | .droopRestore frac => Sys2Proof.Machine.execDroopRestore frac s
  | .thermalSample frac readings => Sys2Proof.Machine.execThermalSample frac readings s
  | .thermalStepDown => Sys2Proof.Machine.execThermalStepDown s
  | .sensorFail sensor last => Sys2Proof.Machine.execSensorFail sensor last s
  | .vmonSample frac mv => Sys2Proof.Machine.execVmonSample frac mv s
  | .vmonOvervoltage mon mv => Sys2Proof.Machine.execVmonOvervoltage mon mv s
  | .vmonSelfCheck bad => Sys2Proof.Machine.execVmonSelfCheck bad s
  | .pmonMeasure freqs => Sys2Proof.Machine.execPmonMeasure freqs s
  | .evtSample frac samples => Sys2Proof.Machine.execEvtSample frac samples s
  | .logClear => Sys2Proof.Machine.execLogClear s
  | .pfailTrip frac => Sys2Proof.Machine.execPfailTrip frac s
  | .pfailGlitch frac width => Sys2Proof.Machine.execPfailGlitch frac width s
  | .holdSenseTrip frac mv => Sys2Proof.Machine.execHoldSenseTrip frac mv s
  | .railUndervoltage frac mon mv => Sys2Proof.Machine.execRailUndervoltage frac mon mv s
  | .dieLinkFail frac => Sys2Proof.Machine.execDieLinkFail frac s
  | .holdArmChange frac mv => Sys2Proof.Machine.execHoldArmChange frac mv s
  | .sealInflightDeadline => Sys2Proof.Machine.execSealInflightDeadline s
  | .sealEnd frac clear summaryOk snapshotOk => Sys2Proof.Machine.execSealEnd frac clear summaryOk snapshotOk s
  | .alwaysOnPowerApplied => Sys2Proof.Machine.execAlwaysOnPowerApplied s
  | .alwaysOnResetEnd => Sys2Proof.Machine.execAlwaysOnResetEnd s
  | .computeRailsGood => Sys2Proof.Machine.execComputeRailsGood s
  | .powerUpTimeout => Sys2Proof.Machine.execPowerUpTimeout s
  | .mediaBringupStart chans dram rawGib entropyOk => Sys2Proof.Machine.execMediaBringupStart chans dram rawGib entropyOk s
  | .alwaysOnPowerLost => Sys2Proof.Machine.execAlwaysOnPowerLost s
  | .mountComplete frac media => Sys2Proof.Machine.execMountComplete frac media s
  | .nb5210ScanComplete units => Sys2Proof.Machine.execNb5210ScanComplete units s
  | .bootCopyDone comp ok ms => Sys2Proof.Machine.execBootCopyDone comp ok ms s
  | .nandStatusPoll die => Sys2Proof.Machine.execNandStatusPoll die s
  | .nandReadDone die res => Sys2Proof.Machine.execNandReadDone die res s
  | .nandProgramDone die pass => Sys2Proof.Machine.execNandProgramDone die pass s
  | .nandEraseDone die pass => Sys2Proof.Machine.execNandEraseDone die pass s
  | .nandTimeout die => Sys2Proof.Machine.execNandTimeout die s
  | .operationSuspend at_ => Sys2Proof.Machine.execOperationSuspend at_ s
  | .dqsRecenter channel ce => Sys2Proof.Machine.execDqsRecenter channel ce s
  | .deepDecodeDone frac res => Sys2Proof.Machine.execDeepDecodeDone frac res s
  | .stripeRebuildDone frac die unit => Sys2Proof.Machine.execStripeRebuildDone frac die unit s
  | .dieRebuildDone die => Sys2Proof.Machine.execDieRebuildDone die s
  | .nodeDispatch frac graph node core => Sys2Proof.Machine.execNodeDispatch frac graph node core s
  | .nodeEnd frac graph node res => Sys2Proof.Machine.execNodeEnd frac graph node res s
  | .nodePreempt frac core => Sys2Proof.Machine.execNodePreempt frac core s
  | .nodeWaitTimeout graph node => Sys2Proof.Machine.execNodeWaitTimeout graph node s
  | .nibInterrupt frac core => Sys2Proof.Machine.execNibInterrupt frac core s
  | .nibMachineCheck frac core => Sys2Proof.Machine.execNibMachineCheck frac core s
  | .digestGroupDone frac graph node => Sys2Proof.Machine.execDigestGroupDone frac graph node s
  | .compressBlockDone graph node verifyBad => Sys2Proof.Machine.execCompressBlockDone graph node verifyBad s
  | .sieveLookup graph node => Sys2Proof.Machine.execSieveLookup graph node s
  | .sieveWrite graph node => Sys2Proof.Machine.execSieveWrite graph node s
  | .sieveInsert graph node => Sys2Proof.Machine.execSieveInsert graph node s
  | .sieveInvalidate graph node => Sys2Proof.Machine.execSieveInvalidate graph node s
  | .sieveRead graph node => Sys2Proof.Machine.execSieveRead graph node s
  | .sieveScan parityBad => Sys2Proof.Machine.execSieveScan parityBad s
  | .sieveGo go => Sys2Proof.Machine.execSieveGo go s
  | .sieveNext => Sys2Proof.Machine.execSieveNext s
  | .feedOpen value => Sys2Proof.Machine.execFeedOpen value s
  | .feedData word => Sys2Proof.Machine.execFeedData word s
  | .feedLast word => Sys2Proof.Machine.execFeedLast word s
  | .feedAbort => Sys2Proof.Machine.execFeedAbort s
  | .feedDone flags => Sys2Proof.Machine.execFeedDone flags s
  | .slotClear slot all => Sys2Proof.Machine.execSlotClear slot all s
  | .dramFreqRequest point => Sys2Proof.Machine.execDramFreqRequest point s
  | .dramRetrainGather frac reading => Sys2Proof.Machine.execDramRetrainGather frac reading s
  | .dramGatherEnd frac => Sys2Proof.Machine.execDramGatherEnd frac s
  | .dramRefreshPoll mult hot => Sys2Proof.Machine.execDramRefreshPoll mult hot s
  | .dramRequestPromote cls waitedUs bytes => Sys2Proof.Machine.execDramRequestPromote cls waitedUs bytes s
  | .dramUe addr source cls hit => Sys2Proof.Machine.execDramUe addr source cls hit s
  | .inkwellUe offset hit => Sys2Proof.Machine.execInkwellUe offset hit s
  | .inkProgram who addr data => Sys2Proof.Machine.execInkProgram who addr data s
  | .inkErase who addr => Sys2Proof.Machine.execInkErase who addr s
  | .inkRead who addr chk => Sys2Proof.Machine.execInkRead who addr chk s
  | .inkOpDone bank pulses fail => Sys2Proof.Machine.execInkOpDone bank pulses fail s
  | .settingsSave => Sys2Proof.Machine.execSettingsSave s
  | .settingsSaveTimer => Sys2Proof.Machine.execSettingsSaveTimer s
  | .portEnable port => Sys2Proof.Machine.execPortEnable port s
  | .portLinkUp frac port up => Sys2Proof.Machine.execPortLinkUp frac port up s
  | .portLinkLost frac port => Sys2Proof.Machine.execPortLinkLost frac port s
  | .txPolarityToggle port look => Sys2Proof.Machine.execTxPolarityToggle port look s
  | .arpRequest port senderMac senderIp targetIp => Sys2Proof.Machine.execArpRequest port senderMac senderIp targetIp s
  | .neighbourSolicitation port senderMac senderIp targetIp => Sys2Proof.Machine.execNeighbourSolicitation port senderMac senderIp targetIp s
  | .frameReceived frac port frame fcsBad noRoom levelKib => Sys2Proof.Machine.execFrameReceived frac port frame fcsBad noRoom levelKib s
  | .silentTimeout frac flow => Sys2Proof.Machine.execSilentTimeout frac flow s
  | .oxvLinkUp frac link width polarity laneMap => Sys2Proof.Machine.execOxvLinkUp frac link width polarity laneMap s
  | .oxvLinkDown frac link => Sys2Proof.Machine.execOxvLinkDown frac link s
  | .markFrame frac h count state flog2 period root corr tag arrivalNs => Sys2Proof.Machine.execMarkFrame frac h count state flog2 period root corr tag arrivalNs s
  | .delayReq link payload => Sys2Proof.Machine.execDelayReq link payload s
  | .delayResp link ns => Sys2Proof.Machine.execDelayResp link ns s
  | .helloFrame link rev min tag dev => Sys2Proof.Machine.execHelloFrame link rev min tag dev s
  | .fdFrame h dev index fd => Sys2Proof.Machine.execFdFrame h dev index fd s
  | .controlFrame h m => Sys2Proof.Machine.execControlFrame h m s
  | .oxvStatusFrame h mode attn rev min index lag ups => Sys2Proof.Machine.execOxvStatusFrame h mode attn rev min index lag ups s
  | .mirrorFrame h nsid stroke lba data => Sys2Proof.Machine.execMirrorFrame h nsid stroke lba data s
  | .mirrorAck h nsid stroke => Sys2Proof.Machine.execMirrorAck h nsid stroke s
  | .proxyFrame h m => Sys2Proof.Machine.execProxyFrame h m s
  | .nakFrame link seq => Sys2Proof.Machine.execNakFrame link seq s
  | .replayTimeout link => Sys2Proof.Machine.execReplayTimeout link s
  | .memberUnreachable dev => Sys2Proof.Machine.execMemberUnreachable dev s
  | .remoteGo value => Sys2Proof.Machine.execRemoteGo value s
  | .miReadDataStructure dtyp port ctrl => Sys2Proof.Machine.execMiReadDataStructure dtyp port ctrl s
  | .miSubsystemHealthPoll clear => Sys2Proof.Machine.execMiSubsystemHealthPoll clear s
  | .miControllerHealthPoll first max => Sys2Proof.Machine.execMiControllerHealthPoll first max s
  | .miConfigurationSet cid port value => Sys2Proof.Machine.execMiConfigurationSet cid port value s
  | .miConfigurationGet cid port => Sys2Proof.Machine.execMiConfigurationGet cid port s
  | .miVpdRead off len => Sys2Proof.Machine.execMiVpdRead off len s
  | .miVpdWrite off data => Sys2Proof.Machine.execMiVpdWrite off data s
  | .miReset => Sys2Proof.Machine.execMiReset s
  | .miAdminTunnel ctrl dlen cmd => Sys2Proof.Machine.execMiAdminTunnel ctrl dlen cmd s
  | .latchedReadLo off => Sys2Proof.Machine.execLatchedReadLo off s
  | .registerWrite off value full => Sys2Proof.Machine.execRegisterWrite off value full s
  | .nop o => Sys2Proof.Machine.execNop o s
  | .add o => Sys2Proof.Machine.execAdd o s
  | .addc o => Sys2Proof.Machine.execAddc o s
  | .adds o => Sys2Proof.Machine.execAdds o s
  | .sub o => Sys2Proof.Machine.execSub o s
  | .subb o => Sys2Proof.Machine.execSubb o s
  | .subs o => Sys2Proof.Machine.execSubs o s
  | .neg o => Sys2Proof.Machine.execNeg o s
  | .negs o => Sys2Proof.Machine.execNegs o s
  | .abs o => Sys2Proof.Machine.execAbs o s
  | .abss o => Sys2Proof.Machine.execAbss o s
  | .cmp o => Sys2Proof.Machine.execCmp o s
  | .cmpc o => Sys2Proof.Machine.execCmpc o s
  | .andOp o => Sys2Proof.Machine.execAndOp o s
  | .orOp o => Sys2Proof.Machine.execOrOp o s
  | .xor o => Sys2Proof.Machine.execXor o s
  | .andn o => Sys2Proof.Machine.execAndn o s
  | .notOp o => Sys2Proof.Machine.execNotOp o s
  | .mov o => Sys2Proof.Machine.execMov o s
  | .minOp o => Sys2Proof.Machine.execMinOp o s
  | .maxOp o => Sys2Proof.Machine.execMaxOp o s
  | .minu o => Sys2Proof.Machine.execMinu o s
  | .maxu o => Sys2Proof.Machine.execMaxu o s
  | .sel o => Sys2Proof.Machine.execSel o s
  | .sext8 o => Sys2Proof.Machine.execSext8 o s
  | .zext8 o => Sys2Proof.Machine.execZext8 o s
  | .clz o => Sys2Proof.Machine.execClz o s
  | .popc o => Sys2Proof.Machine.execPopc o s
  | .tst o => Sys2Proof.Machine.execTst o s
  | .movf o => Sys2Proof.Machine.execMovf o s
  | .movt o => Sys2Proof.Machine.execMovt o s
  | .ldi o => Sys2Proof.Machine.execLdi o s
  | .mul o => Sys2Proof.Machine.execMul o s
  | .mull o => Sys2Proof.Machine.execMull o s
  | .mullu o => Sys2Proof.Machine.execMullu o s
  | .mulq o => Sys2Proof.Machine.execMulq o s
  | .mulqr o => Sys2Proof.Machine.execMulqr o s
  | .mac o => Sys2Proof.Machine.execMac o s
  | .macs o => Sys2Proof.Machine.execMacs o s
  | .shl o => Sys2Proof.Machine.execShl o s
  | .shr o => Sys2Proof.Machine.execShr o s
  | .sar o => Sys2Proof.Machine.execSar o s
  | .asl o => Sys2Proof.Machine.execAsl o s
  | .rol o => Sys2Proof.Machine.execRol o s
  | .ror o => Sys2Proof.Machine.execRor o s
  | .divs o => Sys2Proof.Machine.execDivs o s
  | .divu o => Sys2Proof.Machine.execDivu o s
  | .shl32 o => Sys2Proof.Machine.execShl32 o s
  | .shr32 o => Sys2Proof.Machine.execShr32 o s
  | .sar32 o => Sys2Proof.Machine.execSar32 o s
  | .extu o => Sys2Proof.Machine.execExtu o s
  | .exts o => Sys2Proof.Machine.execExts o s
  | .ld o => Sys2Proof.Machine.execLd o s
  | .st o => Sys2Proof.Machine.execSt o s
  | .ldpi o => Sys2Proof.Machine.execLdpi o s
  | .stpi o => Sys2Proof.Machine.execStpi o s
  | .lds o => Sys2Proof.Machine.execLds o s
  | .sts o => Sys2Proof.Machine.execSts o s
  | .ldp o => Sys2Proof.Machine.execLdp o s
  | .stp o => Sys2Proof.Machine.execStp o s
  | .branch o => Sys2Proof.Machine.execBranch o s
  | .call o => Sys2Proof.Machine.execCall o s
  | .callx o => Sys2Proof.Machine.execCallx o s
  | .jmpx o => Sys2Proof.Machine.execJmpx o s
  | .ret o => Sys2Proof.Machine.execRet o s
  | .rett o => Sys2Proof.Machine.execRett o s
  | .repi o => Sys2Proof.Machine.execRepi o s
  | .repn o => Sys2Proof.Machine.execRepn o s
  | .trap o => Sys2Proof.Machine.execTrap o s
  | .mfc o => Sys2Proof.Machine.execMfc o s
  | .mtc o => Sys2Proof.Machine.execMtc o s
  | .haltOp o => Sys2Proof.Machine.execHaltOp o s
  | .wait o => Sys2Proof.Machine.execWait o s
  | .bar o => Sys2Proof.Machine.execBar o s
  | .crystalStops => Sys2Proof.Machine.execCrystalStops s
  | .referenceWaitExpiry => Sys2Proof.Machine.execReferenceWaitExpiry s
  | .busMasterEnable fn w => Sys2Proof.Machine.execBusMasterEnable fn w s
  | .autonomousPowerStateTransition fn => Sys2Proof.Machine.execAutonomousPowerStateTransition fn s
  | .scribeMemoryUe core => Sys2Proof.Machine.execScribeMemoryUe core s
  | .missedSync link early => Sys2Proof.Machine.execMissedSync link early s
  | .oxvBadFrame link fault rel seq => Sys2Proof.Machine.execOxvBadFrame link fault rel seq s

end Sys2Proof.Machine
end

