-- ==== Sys2Proof/Safety.lean ====
section
/-!
DEFINITION. What a safe run of the block is, in the terms the claims use: no step faults or refuses, the register file keeps
its one canonical form (notes/assumptions/6), and the frames that a command keeps.
-/

namespace Sys2Proof

open Machine

/-- A step answers a next state. -/
def Completes (s : State) : Prop := ∃ t, step s = .next t

/-- The command has its effect: it answers a next state, of which `P` holds. -/
def Yields (c : Instr) (s : State) (P : State → Prop) : Prop := ∃ t, exec c s = .next t ∧ P t

/-- The register file is in its canonical form: addresses strictly rising, no entry equal to what an untouched dword reads. -/
def RegsOk (s : State) : Prop := sparseWf regDefault s.regs = true

/-- Every dword of the register file outside `offs` reads as before. -/
def RegsKeep (offs : List Nat) (s t : State) : Prop := ∀ off, off ∉ offs → getReg t off = getReg s off

/-- The bounds that the spec puts on the block, true at reset and kept by every command: the register file is canonical, the
fraction of domain time is below 65,536 (R7), the blot log holds at most 4,096 entries (R439) and the always-on queue at most
64 records (R437). -/
structure Bounded (s : State) : Prop where
  regs : RegsOk s
  frac : s.time.frac < 65536
  blots : s.mon.blots.length ≤ 4096
  queue : s.mon.queue.length ≤ 64
  /-- The SEAL band's snapshot of the log holds the newest 512 entries (R440). -/
  snapshot : ∀ e, s.mon.sealLog = some e → e.1.length ≤ 512

/-- An admin entry that its queue delivers in its turn (R75) and that none of the shared checks refuses (R73, R84, R87, R88, R106,
R417); the head does not send it on. -/
structure AdminOk (r : AdminRow) (q : Sqe) (s : State) : Prop where
  queue : q.sqid = 0
  fetch : canFetch s q.fn 0 = true
  turn : queueTurn s q.fn 0 = true
  local_ : proxyOf s q.fn = none
  passes : adminError r q (takeEntry q.fn 0 s) = none
  sound : r.toNs = true → deferredHit (takeEntry q.fn 0 s) q = false

/-- An I/O entry of an assigned opcode that its queue delivers in its turn, whose function can pay for it (R75, R88, R92), and the
state `u` that has fetched and charged it. -/
structure IoOk (q : Sqe) (s u : State) : Prop where
  gate : ioGate q s = true
  local_ : proxyOf s q.fn = none
  known : q.badOpcode = false
  fetched : u = charge q.fn .cmds 1 (takeEntry q.fn q.sqid s)

/-- The entry names a namespace that is attached and at rest (R84, R88, R105): what every command to a namespace asks first. -/
structure NsOk (q : Sqe) (x : Ns) (u : State) : Prop where
  entry : badEntry q = false
  attached : attachedNs u q.fn q.nsid = some x
  sound : deferredHit u q = false
  settled : nsPending u q.nsid = false
  idle : x.busy = .none

/-- What names a committed stroke root for good: its stroke, its stroke root T and its chain value C (R134, R139). -/
def rootKeys (s : State) : List (Nat × Bytes × Bytes) := s.chain.roots.map (fun r => (r.n, r.t, r.c))

/-! ### One operation of a Nib core that is a bundle of its own -/

/-- The word that a command of unit `unit` and operation `op` delivers (R243). -/
def wordOf (unit op : Nat) (o : NibOp) : NibWord := { unit := unit, op := op, f := o.body.toNat, stop := o.stop, data := o.data }

/-- The running core `c` fetches the operation, whose word memory holds without a bad bit, as a whole bundle that meets no trap and is
in no repeat (R243, R244, R261, R265). -/
structure SoloOk (unit op : Nat) (o : NibOp) (c : NibCore) (s : State) : Prop where
  core : o.core < 32
  running : getF s (NIB_CORE_STATE o.core) = 2
  regs : nibCore s o.core = c
  fetch : fetchTrap s c o.fetch = none
  good : fetchChk s c o.fetch = .good
  word : fetched s c (wordOf unit op o) = some (wordOf unit op o)
  alone : o.stop = true
  first : c.bundle = []
  clear : bundleTrap s c [wordOf unit op o] = none
  once : f2Bit c fiRA = false

/-- The core after a bundle of one operation that writes the registers `ws` and the flags `e` and goes on (R244 to R246). -/
def soloDone (c : NibCore) (ws : List (Nat × W16)) (e : FlagW) : NibCore :=
  let c1 := putFlag 0 e.z (putFlag 1 e.n (putFlag 2 e.c (putFlag 3 e.v (putRegs ws c))))
  { (if e.q then setF2 fiQ true c1 else c1) with pc := nextPc c 1 }

/-- An operation of the A units gives the result and the flags `r` of A and B/K. -/
def AluGives (i : NibOp → Instr) (op : Nat) (r : FlagsIn → W16 → W16 → W16 × FlagW) : Prop :=
  ∀ (o : NibOp) (c : NibCore) (s : State) (x : W16 × FlagW), SoloOk (o.unit % 2) op o c s →
    x = r (flagsIn c) (wGet c (opA o.body.toNat)) (opBK c (wordOf (o.unit % 2) op o)) →
    exec (i o) s = .next (setCore o.core (soloDone c [(regIx c (opD o.body.toNat), x.1)] x.2) s)

/-- A compare of the A units gives the flags `r` of A and B/K and writes no register. -/
def FlagsGive (i : NibOp → Instr) (op : Nat) (r : FlagsIn → W16 → W16 → FlagW) : Prop :=
  ∀ (o : NibOp) (c : NibCore) (s : State), SoloOk (o.unit % 2) op o c s →
    exec (i o) s = .next (setCore o.core (soloDone c []
      (r (flagsIn c) (wGet c (opA o.body.toNat)) (opBK c (wordOf (o.unit % 2) op o)))) s)

/-- An operation of the M unit gives the 16-bit result and the flags `r` of A and B/K. -/
def MulGives (i : NibOp → Instr) (op : Nat) (r : W16 → W16 → W16 × FlagW) : Prop :=
  ∀ (o : NibOp) (c : NibCore) (s : State) (x : W16 × FlagW), SoloOk 2 op o c s →
    x = r (wGet c (opA o.body.toNat)) (opBK c (wordOf 2 op o)) →
    exec (i o) s = .next (setCore o.core (soloDone c [(regIx c (opD o.body.toNat), x.1)] x.2) s)

/-- An operation of the M unit gives the pair and the flags `r` of the pair at `base`, A and B/K. -/
def PairGives (i : NibOp → Instr) (op : Nat) (base : Nat → Nat) (r : BitVec 32 → W16 → W16 → BitVec 32 × FlagW) : Prop :=
  ∀ (o : NibOp) (c : NibCore) (s : State) (x : BitVec 32 × FlagW), SoloOk 2 op o c s →
    x = r (wGet c (base o.body.toNat + 1) ++ wGet c (base o.body.toNat)) (wGet c (opA o.body.toNat)) (opBK c (wordOf 2 op o)) →
    exec (i o) s = .next (setCore o.core (soloDone c
      [(regIx c (opD o.body.toNat), x.1.setWidth 16), (regIx c (opD o.body.toNat + 1), (x.1 >>> 16).setWidth 16)] x.2) s)

/-- Z and N of a result. -/
def znOf {n : Nat} (r : BitVec n) : FlagW := { z := some (r == 0), n := some r.msb }

/-- Z, N and C. -/
def znC {n : Nat} (r : BitVec n) (c : Bool) : FlagW := { z := some (r == 0), n := some r.msb, c := some c }

/-- Z, N and V. -/
def znV {n : Nat} (r : BitVec n) (v : Bool) : FlagW := { z := some (r == 0), n := some r.msb, v := some v }

/-- Z, N and V, and Q with V. -/
def znVQ {n : Nat} (r : BitVec n) (v : Bool) : FlagW := { z := some (r == 0), n := some r.msb, v := some v, q := v }

/-- Z, N, C and V. -/
def znCV {n : Nat} (r : BitVec n) (c v : Bool) : FlagW := { z := some (r == 0), n := some r.msb, c := some c, v := some v }

/-- Z, N, C and V, and Q with V. -/
def znCVQ {n : Nat} (r : BitVec n) (c v : Bool) : FlagW :=
  { z := some (r == 0), n := some r.msb, c := some c, v := some v, q := v }

/-- The chained Z* of R249, N, C and V. -/
def chainCV (z : Bool) (r : W16) (c v : Bool) : FlagW :=
  { z := some (z && r == 0), n := some r.msb, c := some c, v := some v }

end Sys2Proof
end

