-- ==== Sys2Proof/Certificates/Slice0/Obligations.lean ====
section
/-!
DEFINITION. The statements about the block for the provers, by the chapters of the spec.
-/

open Sys2Proof Sys2Proof.Machine

/-! ### The block as a whole -/

/-- A step takes the command at the front of the queue and runs exactly it, with the rest of the queue; on an empty queue the
block idles (the model's choice, notes/assumptions/1). -/
def Obligations.StepRunsFront : Prop :=
  (∀ (c : Instr) (rest : List Instr) (s : State), s.pending = c :: rest → step s = exec c { s with pending := rest }) ∧
    (∀ s : State, s.pending = [] → step s = .next s)

/-- What the part is right after power-on: BOOT with the mount to come and cause 0Bh still to be recorded (R407, R413), domain time
0, no flow, no namespace, no stroke root, no blot, no waiting command; the registers read their power-on values, among them
STK_PERIOD 1,000 µs (R29), STK_OVR_CTL.RESUME_MIB 28 (R44) and STATE FREE (R33). -/
def Obligations.ResetState : Prop :=
  State.reset.mode.cur = .boot ∧ State.reset.mode.mounted = false ∧ now State.reset = 0 ∧ State.reset.time.period = 1000 ∧
    State.reset.nss = [] ∧ State.reset.ing.flows = [] ∧ State.reset.chain.roots = [] ∧ State.reset.mon.blots = [] ∧
    State.reset.pending = [] ∧ (∀ off, getReg State.reset off = (regDefault off).toNat) ∧
    getF State.reset STK_PERIOD_MICROS = 1000 ∧ getF State.reset STK_OVR_CTL_RESUME_MIB = 28 ∧
    getF State.reset STK_STATUS_STATE = 0 ∧ Bounded State.reset

/-- Every step of the block keeps its bounds: the register file canonical, FRACTION below 65,536 (R7), the blot log at 4,096
entries (R439), its snapshot at 512 (R440), the always-on queue at 64 (R437). It holds of every state and every command at the
front of the queue. -/
def Obligations.StepKeepsBounds : Prop :=
  ∀ s t : State, Bounded s → step s = .next t → Bounded t

/-- R31: the stroke count never decreases, whatever the command; only the loss of always-on power ends it. -/
def Obligations.StrokeCountNeverDecreases : Prop :=
  ∀ (c : Instr) (s t : State), c ≠ .alwaysOnPowerLost → exec c s = .next t → s.time.stroke ≤ t.time.stroke

/-- R134, R139: no command changes, removes or reorders what a committed stroke root names (its stroke, its T and its C); they only
gain later ones. Only the loss of always-on power, which an unclean mount finds again from the media (R231), stands apart. -/
def Obligations.RootsOnlyGrow : Prop :=
  ∀ (c : Instr) (s t : State), c ≠ .alwaysOnPowerLost → exec c s = .next t → rootKeys s <+: rootKeys t

/-- What the part has sent stands: every command only adds to it, and no command touches the queue of those that wait. -/
def Obligations.SentIsSent : Prop :=
  ∀ (c : Instr) (s t : State), exec c s = .next t → s.out <+: t.out ∧ t.pending = s.pending

/-! ### The stroke generator (R22, R31 to R41, R475) -/

/-- REFERENCE_EDGE by R34, R37 and R40: an edge that the source in force does not compare is ignored: one of PPS_IN while SRC is not
2h or the edge is not the one of PPS_EDGE, one of STROKE_IO while SRC is not 4h or on its fall. A STROKE_IO edge counts
STK_IO_DELAY.NS earlier. In LOCKED an edge outside STK_PPS_WIN.NS is ignored and counted, one inside it is a measurement; in FREE and
in HOLDOVER the edge is the reference found, in ACQUIRE and MISMATCH a measurement; a measurement more than a stroke away is MISMATCH, one within a stroke
ends MISMATCH.

The states a generator leaves (R34, R39): REFERENCE_LOST takes LOCKED to HOLDOVER and ACQUIRE back to FREE or HOLDOVER,
ACQUIRE_LOCKED takes ACQUIRE to LOCKED after 16 strokes below 1 µs, HOLDOVER_LIMIT takes HOLDOVER to FREE after LIMIT_S seconds,
MARKS_MISSING takes a part that follows stroke marks from LOCKED to HOLDOVER (that it does so from ACQUIRE, FREE and MISMATCH too is
the model's reading, notes/assumptions/134). Each writes the 02h record of R41; before its condition holds none of them changes
anything but the time. -/
def Obligations.GeneratorStates : Prop :=
  (∀ (s u : State) (frac : Nat) (pin : EdgePin) (falling : Bool) (off e : Int), u = atFrac frac s → u.time.bootWait = false →
    (pin = .ppsIn → u.time.src ≠ 2 ∨ falling ≠ flagF u STK_CTL_PPS_EDGE → exec (.referenceEdge frac ⟨pin, falling⟩ off) s = .next u) ∧
    (pin = .strokeIo → u.time.src ≠ 4 ∨ falling = true → exec (.referenceEdge frac ⟨pin, falling⟩ off) s = .next u) ∧
    (pin = .ppsIn ∧ u.time.src = 2 ∧ falling = flagF u STK_CTL_PPS_EDGE ∧ e = off ∨
        pin = .strokeIo ∧ u.time.src = 4 ∧ falling = false ∧ e = off + (getF u STK_IO_DELAY_NS : Nat) →
      (getF u STK_STATUS_STATE = 2 → getF u STK_PPS_WIN_NS < e.natAbs → exec (.referenceEdge frac ⟨pin, falling⟩ off) s =
        .next (incF STK_PPS_WIN_MISS_COUNT 1 { u with time := { u.time with misses := u.time.misses + 1 } })) ∧
      (getF u STK_STATUS_STATE = 2 → e.natAbs ≤ getF u STK_PPS_WIN_NS → e.natAbs ≤ u.time.period * 1000 →
        exec (.referenceEdge frac ⟨pin, falling⟩ off) s = .next (setOffset e { u with time := { u.time with misses := 0 } })) ∧
      (getF u STK_STATUS_STATE = 2 → e.natAbs ≤ getF u STK_PPS_WIN_NS → u.time.period * 1000 < e.natAbs →
        exec (.referenceEdge frac ⟨pin, falling⟩ off) s = .next (anchorRec 2 0 (setF STK_STATUS_STATE 4 (setOffset e
          { u with time := { u.time with misses := 0 } })))) ∧
      (getF u STK_STATUS_STATE = 0 → exec (.referenceEdge frac ⟨pin, falling⟩ off) s =
        .next (anchorRec 2 0 (setF STK_STATUS_STATE 1 { setOffset e u with time := { u.time with
          misses := 0, below := 0, offsetNs := e, acqFromHoldover := false } }))) ∧
      (getF u STK_STATUS_STATE = 3 → e.natAbs ≤ u.time.period * 1000 → exec (.referenceEdge frac ⟨pin, falling⟩ off) s =
        .next (anchorRec 2 0 (setF STK_STATUS_STATE 1 { setOffset e u with time := { u.time with
          misses := 0, below := 0, offsetNs := e, acqFromHoldover := true } }))) ∧
      (getF u STK_STATUS_STATE = 3 → u.time.period * 1000 < e.natAbs → exec (.referenceEdge frac ⟨pin, falling⟩ off) s =
        .next (anchorRec 2 0 (setF STK_STATUS_STATE 4 (setOffset e { u with time := { u.time with misses := 0 } })))) ∧
      (getF u STK_STATUS_STATE = 1 ∨ getF u STK_STATUS_STATE = 4 ∧ u.time.period * 1000 < e.natAbs →
        exec (.referenceEdge frac ⟨pin, falling⟩ off) s = .next (setOffset e { u with time := { u.time with misses := 0 } })) ∧
      (getF u STK_STATUS_STATE = 4 → e.natAbs ≤ u.time.period * 1000 → exec (.referenceEdge frac ⟨pin, falling⟩ off) s =
        .next (anchorRec 2 0 (setF STK_STATUS_STATE 2 (setOffset e { u with time := { u.time with misses := 0 } })))))) ∧
  (∀ (s u : State) (frac absent : Nat), u = atFrac frac s →
    (getF u STK_STATUS_STATE = 2 → 3 ≤ u.time.misses + absent →
      exec (.referenceLost frac absent) s = .next (anchorRec 2 0 (setF STK_STATUS_STATE 3
        { u with time := { u.time with holdUs := 0, misses := 0 } }))) ∧
    (getF u STK_STATUS_STATE = 1 → 3 ≤ u.time.misses + absent →
      exec (.referenceLost frac absent) s = .next (anchorRec 2 0
        (setF STK_STATUS_STATE (if u.time.acqFromHoldover then 3 else 0)
          { u with time := { u.time with misses := 0 } }))) ∧
    (u.time.misses + absent < 3 → exec (.referenceLost frac absent) s = .next u) ∧
    (getF u STK_STATUS_STATE = 1 → 16 ≤ u.time.below →
      exec (.acquireLocked frac) s = .next (anchorRec 2 0 (setF STK_STATUS_STATE 2
        { u with time := { u.time with misses := 0 } }))) ∧
    (getF u STK_STATUS_STATE ≠ 1 ∨ u.time.below < 16 → exec (.acquireLocked frac) s = .next u) ∧
    (getF u STK_STATUS_STATE = 3 → getF u STK_HOLDOVER_LIMIT_S * 1000000 ≤ u.time.holdUs →
      exec (.holdoverLimit frac) s = .next (anchorRec 2 0 (setF STK_STATUS_STATE 0 u))) ∧
    (getF u STK_STATUS_STATE ≠ 3 ∨ u.time.holdUs < getF u STK_HOLDOVER_LIMIT_S * 1000000 →
      exec (.holdoverLimit frac) s = .next u) ∧
    (u.time.src = 3 → 2 ≤ u.time.sinceMark → getF u STK_STATUS_STATE ≠ 3 →
      exec (.marksMissing frac) s = .next (anchorRec 2 0 (setF STK_STATUS_STATE 3
        { u with time := { u.time with holdUs := 0 } }))) ∧
    (u.time.src ≠ 3 ∨ u.time.sinceMark < 2 ∨ getF u STK_STATUS_STATE = 3 → exec (.marksMissing frac) s = .next u))

/-- CRYSTAL_STOPS (R22): the always-on domain goes on with its internal oscillator. REFERENCE_WAIT_EXPIRY (R36): after 2 s the
part continues from the larger of the last sealed stroke plus 1 and the count held in the always-on domain. PTP_MESSAGE (R32,
R36, R37, R110): a Sync of the selected port and domain gives the time of its timescale, corrected by the path delay; at BOOT it
gives count and phase where its count is above both, and MISMATCH where its count is behind the count in use; later it is a
measurement. A request message follows it (the model's timing, notes/assumptions/135). A message of another port or domain is ignored. -/
def Obligations.StartAndMismatch : Prop :=
  ∀ (s u : State) (frac port domain t1 refNs k : Nat) (map : PtpMap) (msg : PtpMsg), u = atFrac frac s →
    exec .crystalStops s = .next { s with time := { s.time with onOscillator := true } } ∧
    (s.mode.cur = .boot → s.time.bootWait = true → ∀ n, s.chain.lastSealed = some n →
      exec .referenceWaitExpiry s =
        .next { s with time := { s.time with bootWait := false, stroke := max s.time.stroke (n + 1) } }) ∧
    (s.mode.cur ≠ .boot ∨ s.time.bootWait = false → exec .referenceWaitExpiry s = .next s) ∧
    (u.time.src ≠ 1 ∨ getF u STK_CTL_PTP_PORT ≠ port ∨ getF u STK_CTL_PTP_DOMAIN ≠ domain →
      exec (.ptpMessage frac port ⟨domain, map⟩ msg) s = .next u) ∧
    (u.time.src = 1 → getF u STK_CTL_PTP_PORT = port → getF u STK_CTL_PTP_DOMAIN = domain → refNs = t1 + u.time.ptpDelayNs →
      (u.time.bootWait = false → getF u STK_STATUS_STATE = 2 → (refNs - localNs u : Int).natAbs ≤ u.time.period * 1000 →
        exec (.ptpMessage frac port ⟨domain, map⟩ (.sync t1)) s = .next (ptpAsk port domain map (setOffset (refNs - localNs u)
          { u with time := { u.time with refNs := t1, ptpRx := some (localNs u), misses := 0 } }))) ∧
      (u.mode.cur = .boot → u.time.bootWait = true → getF u STK_STATUS_STATE = 0 →
        k = (refNs - u.time.epochNs) / (u.time.period * 1000) → ∀ n, u.chain.lastSealed = some n →
        (u.time.stroke < k → n < k →
          exec (.ptpMessage frac port ⟨domain, map⟩ (.sync t1)) s = .next (ptpAsk port domain map (anchorRec 2 0 (setF STK_STATUS_STATE 1
            { setOffset 0 u with
              time := { u.time with
                refNs := t1, ptpRx := some (localNs u), bootWait := false, stroke := k,
                frac := (refNs - u.time.epochNs) % (u.time.period * 1000) * 65536 / (u.time.period * 1000), offsetNs := 0,
                acqFromHoldover := false, below := 0, misses := 0 } })))) ∧
        (k < max u.time.stroke (n + 1) →
          exec (.ptpMessage frac port ⟨domain, map⟩ (.sync t1)) s = .next (ptpAsk port domain map (anchorRec 2 0 (setF STK_STATUS_STATE 4
            (setOffset (((k : Int) - (max u.time.stroke (n + 1) : Nat)) * (u.time.period * 1000 : Nat)
                + ((refNs - u.time.epochNs) % (u.time.period * 1000) : Nat) - (u.time.frac * (u.time.period * 1000) / 65536 : Nat))
              { u with time := { u.time with
                refNs := t1, ptpRx := some (localNs u), bootWait := false, stroke := max u.time.stroke (n + 1) } }))))))) ∧
    (u.time.src = 1 → getF u STK_CTL_PTP_PORT = port → getF u STK_CTL_PTP_DOMAIN = domain → Config.ptpPeerDelay = false →
      ∀ t2 t3 t4, u.time.ptpReq = some t3 → u.time.ptpRx = some t2 →
        exec (.ptpMessage frac port ⟨domain, map⟩ (.delayResp t4)) s = .next { u with time := { u.time with
          ptpReq := none, ptpDelayNs := (((t2 - (u.time.refNs : Int)) + ((t4 : Int) - t3)) / 2).toNat } })

/-! ### The stroke boundary and accesses to BAR2 -/

/-- R31, R43, R407: in every mode but HALT a boundary turns the count, to at least the next number, and the fraction begins anew; a
mode that seals then does its whole boundary (R43), SEAL marks what is late, BOOT only turns the count, SAFE, DROWSE and HIBERNATE turn it and begin the
mode transition that waits; HALT has no generator. -/
def Obligations.StrokeBoundary : Prop :=
  ∀ (katFail : List Nat) (s : State),
    (s.mode.cur = .halt → exec (.strokeBoundary katFail) s = .next s) ∧
    (s.mode.cur = .boot → exec (.strokeBoundary katFail) s = .next (turn s)) ∧
    (s.mode.cur = .seal → exec (.strokeBoundary katFail) s = .next (markLate (turn s))) ∧
    ((s.mode.cur = .safe ∨ s.mode.cur = .drowse ∨ s.mode.cur = .hibernate) →
      exec (.strokeBoundary katFail) s = .next (beginNext (turn s))) ∧
    (s.mode.cur.seals = true → exec (.strokeBoundary katFail) s = .next (sealingBoundary katFail s)) ∧
    (s.mode.cur ≠ .halt → ∃ t, exec (.strokeBoundary katFail) s = .next t ∧ s.time.stroke + 1 ≤ t.time.stroke)

/-- R447, R452, R454: a read of BAR2 returns the dword (in BOOT, 0 from a block that BOOT does not serve); a read of LO latches HI; in
SEAL no completion comes (three dwords that a read forms anew are left to the model), with the link down or the PF outside D0 nothing answers; an offset that is no dword of the window does not
exist. -/
def Obligations.RegisterReads : Prop :=
  ∀ (off : Nat) (s : State),
    (badOffset off = true → exec (.latchedReadLo off) s = .fault .noSuchAddress) ∧
    (badOffset off = false → barOpen s = false → exec (.latchedReadLo off) s = .next s) ∧
    (badOffset off = false → s.mode.cur = .seal → exec (.latchedReadLo off) s = .next s) ∧
    (badOffset off = false → barOpen s = true → s.mode.cur = .boot →
      exec (.latchedReadLo off) s = .next (emit (.regRead off (if servedInBoot off then regView s off else 0)) s)) ∧
    (badOffset off = false → barOpen s = true → (s.mode.cur = .run ∨ s.mode.cur = .lean ∨ s.mode.cur = .readOnly) →
      ¬ (0x22024 ≤ off ∧ off ≤ 0x22030) → off ≠ 0x34800 → off ≠ 0x22004 →
      (isLatchedHi off = true → latchPair s off = none →
        exec (.latchedReadLo off) s = .next (emit (.regRead off ((mget s.latch off).getD 0).toNat) s)) ∧
      (isLatchedHi off = false → latchPair s off = none →
        exec (.latchedReadLo off) s = .next (emit (.regRead off (regView s off)) s)) ∧
      (∀ hi v, isLatchedHi off = false → latchPair s off = some (hi, v) →
        exec (.latchedReadLo off) s = .next (emit (.regRead off (regView s off))
          { s with latch := sset (fun _ => 0) s.latch hi (BitVec.ofNat 32 v) })))

/-- R5, R30, R450, R454, R456: SEAL and HALT discard a write; byte enables that do not cover the dword, BOOT for every dword but
GLB_RESET, and a wrong key of GLB_RESET or LOG_CLEAR set GLB_ERR.CFG_ERR and change nothing else (the key whatever the other bits say:
DEDUCED, notes/assumptions/117); GLB_RESET with key 9Ch and DEVICE resets the device, LOG_CLEAR with key A5h and GO empties the log;
STK_STATUS clears the RW1C bits written as 1; STK_PPS_WIN takes NS with the other field kept; an accepted STK_PERIOD waits for its
boundary, one out of range keeps the register and sets the block's CFG_ERR. -/
def Obligations.RegisterWrites : Prop :=
  ∀ (off v : Nat) (s : State), v < 2 ^ 32 →
    (∀ full, badOffset off = true → exec (.registerWrite off v full) s = .fault .noSuchAddress) ∧
    (∀ full, badOffset off = false → (s.mode.cur = .seal ∨ s.mode.cur = .halt ∨ barOpen s = false) →
      exec (.registerWrite off v full) s = .next s) ∧
    (barOpen s = true → s.mode.cur ≠ .seal → s.mode.cur ≠ .halt → badOffset off = false →
      exec (.registerWrite off v false) s = .next (setF GLB_ERR_CFG_ERR 1 s) ∧
      (s.mode.cur = .boot → off ≠ 0x0000C → exec (.registerWrite off v true) s = .next (setF GLB_ERR_CFG_ERR 1 s)) ∧
      (off = 0x0000C →
        (bits v 15 8 = 0x9C → bitAt v 0 = true → exec (.registerWrite off v true) s = .next (deviceReset 3 s)) ∧
        (bits v 15 8 = 0x9C → bitAt v 0 = false → exec (.registerWrite off v true) s = .next s) ∧
        (bits v 15 8 ≠ 0x9C → exec (.registerWrite off v true) s = .next (setF GLB_ERR_CFG_ERR 1 s))) ∧
      (off = 0x04008 → s.mode.cur ≠ .boot →
        (bits v 15 8 = 0xA5 → bitAt v 0 = true → exec (.registerWrite off v true) s = .next (clearLog s)) ∧
        (bits v 15 8 = 0xA5 → bitAt v 0 = false → exec (.registerWrite off v true) s = .next s) ∧
        (bits v 15 8 ≠ 0xA5 → exec (.registerWrite off v true) s = .next (setF GLB_ERR_CFG_ERR 1 s)))) ∧
    (barOpen s = true → s.mode.cur = .run →
      (∃ t, exec (.registerWrite 0x0A008 v true) s = .next t ∧ RegsKeep [0x0A008] s t ∧
        (RegsOk s → getReg t 0x0A008 = setBits (setBits (getReg s 0x0A008) 8 8
          (if bitAt v 8 then 0 else bits (getReg s 0x0A008) 8 8)) 9 9 (if bitAt v 9 then 0 else bits (getReg s 0x0A008) 9 9))) ∧
      (∃ t, exec (.registerWrite 0x0A01C v true) s = .next t ∧ (RegsOk s →
        getF t STK_PPS_WIN_NS = bits v 15 0 ∧ getF t STK_PPS_WIN_MISS_COUNT = getF s STK_PPS_WIN_MISS_COUNT)) ∧
      (isRoot s = true → getF s STK_CTL_SRC ≠ 2 → RegsOk s → 250 ≤ bits v 15 0 → bits v 15 0 ≤ 40000 →
        ∃ t, exec (.registerWrite 0x0A000 v true) s = .next t ∧
          getF t STK_PERIOD_MICROS = bits v 15 0 ∧ getF t STK_PENDING_MICROS = bits v 15 0 ∧ getF t STK_PENDING_VALID = 1 ∧
          t.time = s.time) ∧
      (RegsOk s → (bits v 15 0 < 250 ∨ 40000 < bits v 15 0) → bits v 15 0 ≠ getF s STK_PERIOD_MICROS →
        ∃ t, exec (.registerWrite 0x0A000 v true) s = .next t ∧
          getF t STK_PERIOD_MICROS = getF s STK_PERIOD_MICROS ∧ getF t STK_STATUS_CFG_ERR = 1 ∧ t.time = s.time))

/-! ### The PCIe link, interrupts and functions (R48, R49, R52, R55, R57 to R67) -/

/-- The link (R48, R49, R64, R67). LINK_TRAINED shows the rate, the width and the polarity and clears the attention condition;
a fault that bounds the width or the rate sets DEGRADED and is blot 0201h. LINK_DOWN counts, records blot 0202h and abandons the
host's commands; HOT_RESET records blot 0203h and resets configuration space; PERST_ASSERT holds the PCIe side in reset, with blot
0204h in RUN, LEAN and PARK and with none in BOOT, ACTIVATE and SANITIZE, and in SEAL waits for its end with blot 0205h; PERST_DEASSERT
releases it; RETRAIN counts.

Attention and interrupts (R57 to R62). LINK_ATTN_TIMEOUT and NO_IRQ_TIMEOUT set their attention conditions;
ATTENTION_BURST sends the lowest code after the last one sent in the device's slot of 64 strokes; MSIX_UNMASK writes a table entry
or the control word, and a pending vector that nothing masks signals once; VECTOR_SIGNAL signals a vector whose aggregation time
has ended, or sets its pending bit where it is held back. -/
def Obligations.LinkAndInterrupts : Prop :=
  (∀ (s u : State) (frac speed width polarity : Nat) (reversed fault : Bool), u = atFrac frac s →
    (u.mode.perst = false → u.mode.cur ≠ .halt → follower u = false → 4 ≤ speed → speed ≤ getF u FN_LINK_CTL_MAX_SPEED →
      width = 4 ∨ width = 8 → width ≤ maxWidth u → (∀ x ∈ u.fns, x.2.resetAtLink = false) →
      ∀ r, r = (fun d => setF FN_LINK_STATUS_SPEED speed
        (setF FN_LINK_STATUS_WIDTH width (setF FN_LINK_STATUS_REVERSED (bit reversed) (setF FN_LINK_STATUS_POLARITY (polarity % 256)
          (setF FN_LINK_STATUS_DEGRADED (bit d) (setF FN_LINK_STATUS_UP 1 (setF FN_ATTN_LINK 0 u))))))) →
      exec (.linkTrained frac speed width reversed polarity fault) s =
        .next (if fault then blot 0x0201 2 0 (le 1 speed ++ le 1 width) (r true) else r false)) ∧
    (linkUp u = true →
      exec (.linkDown frac) s = .next (linkLoss (blot 0x0202 1 0 (le 1 u.mode.cur.code)
        (setF FN_LINK_EVENTS_LINK_DOWN 1 (incF FN_LINK_EVENTS_DOWN_COUNT 1 u)))) ∧
      exec (.hotReset frac) s = .next (configReset (linkLoss (blot 0x0203 1 0 (le 1 u.mode.cur.code)
        (setF FN_LINK_EVENTS_HOT_RESET 1 u))))) ∧
    (u.mode.cur = .run ∨ u.mode.cur = .lean ∨ u.mode.cur = .park → follower u = false →
      exec (.perstAssert frac) s = .next (configReset (linkLoss (setF FN_LINK_EVENTS_PERST 1
        { blot 0x0204 1 0 (le 1 u.mode.cur.code) u with mode := { (blot 0x0204 1 0 (le 1 u.mode.cur.code) u).mode with
          perst := true, perstSeal := false } })))) ∧
    (u.mode.cur = .boot ∨ u.mode.cur = .activate ∨ u.mode.cur = .sanitize → follower u = false →
      exec (.perstAssert frac) s = .next (configReset (linkLoss (setF FN_LINK_EVENTS_PERST 1
        { u with mode := { u.mode with perst := true, perstSeal := false } })))) ∧
    (u.mode.cur = .seal → follower u = false →
      exec (.perstAssert frac) s = .next (blot 0x0205 1 0 [] { u with mode := { u.mode with perstSeal := true } })) ∧
    (follower u = false → u.mode.wakeLow = false → flagF u PWR_WAKE_PERST = false →
      exec (.perstDeassert frac) s = .next { u with mode := { u.mode with perst := false, wakeLow := false } }) ∧
    (linkUp s = true → exec .retrain s = .next (incF FN_LINK_EVENTS_RETRAIN_COUNT 1 s))) ∧
  (∀ (s : State) (fn vec addr data c : Nat) (on masked : Bool),
    (linkUp s = false → follower s = false → s.mode.cur = .run ∨ s.mode.cur = .lean ∨ s.mode.cur = .park →
      exec .linkAttnTimeout s = .next (setF FN_ATTN_LINK 1 s)) ∧
    (linkUp s = true → exec .linkAttnTimeout s = .next s) ∧
    (∀ f, f < 128 → signalBlocked s f = true → exec .noIrqTimeout s = .next (setF FN_ATTN_NO_IRQ 1 s)) ∧
    (flagF s FN_RDYBSY_PULSE_EN = true → s.mode.busyLow = false → s.mode.cur ≠ .halt →
      s.time.stroke % 64 = deviceId s % 64 →
      ((attnCodes s).find? (fun k => s.mode.attnLast < k) = some c ∨
        (attnCodes s).find? (fun k => s.mode.attnLast < k) = none ∧ (attnCodes s).head? = some c →
        exec .attentionBurst s = .next (emit (.attention c) { s with mode := { s.mode with attnLast := c } }))) ∧
    (flagF s FN_RDYBSY_PULSE_EN = false ∨ s.time.stroke % 64 ≠ deviceId s % 64 → exec .attentionBurst s = .next s) ∧
    (configReaches s fn = true → vec < 1024 →
      exec (.msixUnmask fn (.entry vec addr data masked)) s = .next (signalPending fn
        (updVec fn vec (fun y => { y with addr := addr, data := data, masked := masked }) s)) ∧
      exec (.msixUnmask fn (.control on masked)) s = .next (signalPending fn
        (updFn fn (fun x => { x with msixEn := on, fmask := masked }) s))) ∧
    (vec ≠ 0 → (getVec (getFn s fn) vec).cd = false → (getVec (getFn s fn) vec).count ≠ 0 →
      flagF s (FN_FUNC_ALIGN fn) = false → (getFn s fn).msixEn = true → vec < vectors s fn →
      ∀ t, t = updVec fn vec (fun y => { y with count := 0, fresh := 0 }) s →
      (signalHeld s fn = false → (getVec (getFn s fn) vec).masked = false →
        exec (.vectorSignal fn vec) s = .next (emit (.msix fn vec) t)) ∧
      (signalHeld s fn = true ∨ (getVec (getFn s fn) vec).masked = true →
        exec (.vectorSignal fn vec) s = .next (updVec fn vec (fun y => { y with pend := true }) t))))

/-- Controllers and function-level resets (R52, R55, R60, R65, R66, R80, R101, R102). CC.EN makes the admin queue pair, and the
controller is ready at once outside BOOT; clearing it resets the controller; FLR_INITIATE starts the sequence of R101 and
FLR_COMMIT resets the function at a boundary at least 50 µs later.

Bus Master Enable, Device Control, D-states and NumVFs (R50 to R52, R55, R60, R66): the state of the function changes and, where
it moves data again, what it held back goes on; the fields of Device Control are those of the base specification
(notes/assumptions/136); NumVFs ignores a value above 127, and with no VF above the new value online nothing else changes. -/
def Obligations.ControllersAndFunctions : Prop :=
  (∀ (s u : State) (frac fn ams mps sqBase sqSize cqBase cqSize : Nat), u = atFrac frac s →
    (hostReaches s fn = true → (getFn s fn).d3 = false → (getFn s fn).en = false → ams ≤ 1 → mps ≤ 4 →
      exec (.ccEnSet fn ams mps sqBase sqSize cqBase cqSize) s = .next (setFn fn { getFn s fn with
        en := true, rdy := s.mode.cur != .boot, cfs := false, ams := ams, mps := mps, idleFrom := s.time.stroke,
        sqs := mset (getFn s fn).sqs 0 { size := sqSize, base := sqBase, cqid := 0, prio := 0 },
        cqs := mset (getFn s fn).cqs 0 { size := cqSize, base := cqBase, vector := 0, ien := true } } s)) ∧
    (hostReaches u fn = true → (getFn u fn).en = true →
      ∃ t, exec (.ccEnClear frac fn) s = .next t ∧ (getFn t fn).en = false ∧ (getFn t fn).rdy = false ∧
        (getFn t fn).sqs = [] ∧ (getFn t fn).cqs = [] ∧ (getFn t fn).feats = {} ∧ (getFn t fn).aers = [] ∧
        (getFn t fn).ring = none) ∧
    (u.mode.cur = .run → (getFn u fn).flr = none → online u fn = true → linkUp u = true → fn ≠ 0 →
      ∃ t, exec (.flrInitiate frac fn) s = .next t ∧ (getFn t fn).flr = some (u.time.stroke, u.time.frac) ∧
        (getFn t fn).gCmd = 0 ∧ (getFn t fn).dCmd = 0) ∧
    ((∀ f, f ∈ allFns → ∀ t, (getFn s f).flr = some t → flrUs s t < 50) → exec .flrCommit s = .next s) ∧
    (s.time.frac = 0 → (∀ f, f ∈ allFns → f ≠ fn → (getFn s f).flr = none) → fn < 128 →
      (∀ f, f ∈ allFns → f ≠ fn → (getFn (commitFlr fn s) f).flr = none) → ∀ t, (getFn s fn).flr = some t → 50 ≤ flrUs s t → exec .flrCommit s = .next (commitFlr fn s))) ∧
  (∀ (s : State) (fn n p r t : Nat) (on relax : Bool),
    (configReaches s fn = true →
      exec (.busMasterEnable fn (.command on)) s = .next (resumeFn fn (updFn fn (fun x => { x with bme := on }) s)) ∧
      exec (.busMasterEnable fn (.device relax p r t)) s = .next (updFn fn (fun x => { x with
        dev := { relaxed := relax, payload := p % 8, readReq := r % 8, timeout := t % 16 } }) s) ∧
      exec (.dStateChange fn on) s = .next (resumeFn fn (updFn fn (fun x => { x with d3 := on }) s))) ∧
    (127 < n → exec (.numvfsWrite n) s = .next s) ∧
    (hostReaches s 0 = true → n ≤ 127 → (∀ f ∈ onlineVfs s, f ≤ n) → exec (.numvfsWrite n) s = .next { s with numVfs := n }))

/-! ### Modes, wakes and device resets (R82, R83, R207, R408 to R420) -/

/-- Mode transitions begin at a boundary and complete later (R82, R408, R410): the power target is entered with the cause and the
function that last changed it, the spare-pool condition switches RUN to READ-ONLY with a MODE record, and a transition between
modes that seal completes with its MODE record; a request that waits for the mode completes (R411), and what the lower mode held
back goes on.

The orderly stop (R417): it begins at a boundary, stops fetch for every function and sets out for HALT with the cause and the
function of the request; when its time limit runs out the commands still outstanding are abandoned.

MODE REQUEST by R411: 0h asks for HALT and 2h for SAFE, 3h to 7h for a power state, 1h and every other code is refused. A request
for a power state sets every online function's power state, with cause 2 and the note; it completes at once where the device is in
that mode, and waits elsewhere. A request for HALT or SAFE waits for the orderly stop. -/
def Obligations.ModeChanges : Prop :=
  (∀ (s u : State) (frac : Nat) (tr : ModeTrans), u = atFrac frac s →
    (mayBegin s = true → s.mode.stop = none → s.mode.wantActivate = false → s.mode.wantSanitize = none → s.mode.cur = .run →
      (s.mode.readOnlyCond = true → exec .modeTransitionBegin s = .next (switchMode .readOnly 6 s)) ∧
      (s.mode.readOnlyCond = false → powerTarget s = .lean →
        exec .modeTransitionBegin s = .next (completeReqs (fun m => !m.stops)
          (beginTrans .lean s.mode.powCause s.mode.powFn s.mode.powNote s)))) ∧
    (u.mode.trans = some tr → u.mode.stopping = false → u.mode.cur = .run → tr.dest = .lean →
      ∀ v, v = changeAwake tr u → v.mode.trans = none →
      exec (.modeTransitionDone frac) s =
        .next (serveTunnels (replayWrites (resumeHeld (place (completeReqs (fun m => m == v.mode.cur) v))))))) ∧
  (∀ (s u : State) (frac cause fn : Nat) (note : Bytes), u = atFrac frac s →
    (s.mode.stopping = false → mayBegin s = true → s.mode.cur = .run → s.mode.stop = some (.halt, cause, fn, note) →
      exec .orderlyStop s = .next (beginStop .halt cause fn note s)) ∧
    (u.mode.stopping = true →
      exec (.orderlyStopDrainTimeout frac) s = .next (advanceStop (abandonCmds (fun _ _ => true) none u)))) ∧
  ((requestedMode 0 = some .halt ∧ requestedMode 1 = none ∧ requestedMode 2 = some .safe ∧ requestedMode 3 = some .run ∧
    requestedMode 4 = some .lean ∧ requestedMode 5 = some .park ∧ requestedMode 6 = some .drowse ∧
    requestedMode 7 = some .hibernate ∧ ∀ k, 8 ≤ k → requestedMode k = none) ∧
  ∀ (s u : State) (q : Sqe) (k : Nat) (m : Mode) (note : Option Bytes), AdminOk (modeRow note) q s → u = takeEntry q.fn 0 s →
    (requestedMode k = none → exec (.modeRequest q k note) s = .next (done q .invalidField 0 0 u)) ∧
    (requestedMode k = some m → m ≠ .halt → m ≠ .safe → ∀ v, v = setPowers m.ps 2 q.fn (fixLen 16 (note.getD [])) u →
      (v.mode.trans = none → v.mode.cur = psMode v m.ps →
        exec (.modeRequest q k note) s = .next (done q .success 0 0 v)) ∧
      (v.mode.trans ≠ none ∨ v.mode.cur ≠ psMode v m.ps →
        exec (.modeRequest q k note) s = .next { v with mode := { v.mode with modeReqs := v.mode.modeReqs ++ [{
          sqid := q.sqid, cid := q.cid, mode := psMode v m.ps, moved := note.isSome,
          before := (allFns.filter (online u)).map (fun f => (f, (getFn u f).feats.power)) }] } })) ∧
    (requestedMode k = some m → m = .halt ∨ m = .safe → u.mode.stop = none →
      exec (.modeRequest q k note) s = .next { u with mode := { u.mode with
        stop := some (m, 2, q.fn, fixLen 16 (note.getD [])),
        modeReqs := u.mode.modeReqs ++ [{ sqid := q.sqid, cid := q.cid, mode := m, moved := note.isSome }] } }))

/-- Idle functions, ignition and the wake timer (R72, R409, R412, R418): each changes the power state of one function or of all,
with its cause, and the wake source is shown in PWR_WAKE.LAST.

PARK bursts (R415): at a boundary the staged data is placed when the dirty level or the oldest byte calls for it, and
PWR_STATUS.BURST shows it until the channels are idle. -/
def Obligations.PowerEvents : Prop :=
  (∀ (s : State) (fn ps ms n : Nat),
    ((getFn s fn).en = true → online s fn = true → (getFn s fn).feats.apstEn = true →
      (getFn s fn).feats.apst[(getFn s fn).feats.power % 32]? = some (ps, ms) → ms ≠ 0 → (∀ c ∈ s.cmds, c.fn ≠ fn) → (∀ c ∈ lateCmds s, c.who.1 ≠ fn) →
      (∀ e ∈ (getFn s fn).sqs, e.2.waiting = 0) → ms ≤ msSince s (getFn s fn).idleFrom →
      (getFn s fn).feats.power % 32 < ps →
      exec (.autonomousPowerStateTransition fn) s = .next (setPower fn ps 1 s)) ∧
    (s.mode.ignNormalSince = some n → flagF s PWR_IGN_EN = true → flagF s PWR_STATUS_IGN_OFF = false →
      getF s PWR_IGN_DELAY_S * 1000 ≤ msSince s n →
      exec .ignitionOffDelay s = .next (setF PWR_STATUS_IGN_OFF 1 (setPowers 2 3 0xFF [] s))) ∧
    (s.mode.cur = .hibernate → flagF s PWR_WAKE_TIMER = true → getF s PWR_TIMER_STROKES ≠ 0 →
      s.mode.enteredAt + getF s PWR_TIMER_STROKES ≤ s.time.stroke →
      exec .wakeTimer s = .next (driveWake (setF PWR_WAKE_LAST 3 (setPowers s.mode.lastOp.ps 4 0xFF [] s))))) ∧
  (∀ s : State, s.mode.cur = .park →
    (s.time.frac = 0 → flagF s PWR_STATUS_BURST = false →
      min (getF s PWR_PARK_BURST_KIB) (effLimitKib s / 2) * 1024 ≤ dirtyBytes s →
      exec .parkBurst s = .next (showClocks (placeForced (journalFlush (setF PWR_STATUS_BURST 1 s))))) ∧
    (flagF s PWR_STATUS_BURST = true →
      (∀ e ∈ s.ftl.dies, e.2.queue = [] ∧ e.2.running = none ∧ e.2.suspended = none) →
      exec .parkChannelIdle s = .next (showClocks (setF PWR_STATUS_BURST 0 s))))

/-- Device resets (R357, R358, R419): in RUN a device reset, a scribe watchdog and an uncorrectable error of scribe memory pass through
SEAL, with the cause of the BOOT to come (3 reset register, 5 watchdog, 4 memory error); in HIBERNATE BOOT begins at once; an
uncorrectable DRAM error is counted, and one in device state restarts the device; one that a clean re-read mends counts as corrected. -/
def Obligations.DeviceResets : Prop :=
  ∀ (s w : State) (core addr cls : Nat), s.mode.cur = .run →
    exec .deviceReset s = .next (enterSeal 0 0 0x0B 3 s) ∧
    (w = blot 0x0803 3 core [] s → w.mode.cur = .run →
      exec (.scribeWatchdog core) s = .next (enterSeal 0 0 0x0B 5 w)) ∧
    exec (.scribeMemoryUe core) s = .next (controlledRestart (blot 0x0601 3 core [] s)) ∧
    (w = incF DRM_UE_COUNT 1 (setF DRM_ERR_ADDR_LO (addr % 2 ^ 32) (setF DRM_ERR_ADDR_HI (addr / 2 ^ 32)
        (setF DRM_ERR_SOURCE 0 (setF DRM_ERR_CLASS cls (setF DRM_ERR_VALID 1 s))))) →
      exec (.dramUe addr 0 cls ⟨.deviceState, false⟩) s = .next (controlledRestart (blot 0x0601 3 0 (le 8 addr) w)) ∧
      (∀ stream item, exec (.dramUe addr 0 cls ⟨.keyIndex stream item, false⟩) s = .next (dropKeyEntry stream item w)) ∧
      (∀ source target, exec (.dramUe addr source cls ⟨target, true⟩) s = .next (incF DRM_LINK_CE 1 s))) ∧
    (∀ h : State, h.mode.cur = .hibernate → exec .deviceReset h = .next (reboot .resetDone 3 0x0B h)) ∧
    (∀ h : State, h.mode.cur = .halt → exec .deviceReset h = .next h)

/-! ### Admin commands on queues, events and Features (R54, R57, R58, R68, R72 to R76, R80, R81, R85) -/

/-- I/O queues are made and deleted (R54, R57, R68, R80): a new queue pair takes its size, base, vector and completion queue; a
deleted submission queue's commands complete as aborted (so do those that wait for a boundary, notes/assumptions/140); a completion queue goes only when no submission queue feeds it.

Asynchronous events and Features (R72, R76, R85): a request waits where no event does, and takes one that waits and that the function still receives; a Feature that the device implements
reads its value in DW0, and Set Features changes it; Save is refused; 07h and C0h are refused once the function has I/O queues. -/
def Obligations.QueuesAndFeatures : Prop :=
  (∀ (s u : State) (q : Sqe) (id size base vector cqid prio : Nat) (ien : Bool),
    AdminOk { nsid0 := true, atHead := true } q s → u = takeEntry q.fn 0 s → 2 ≤ size → size ≤ 4096 → id ≠ 0 →
    (id ≤ queueLimit u q.fn true → mhas (getFn u q.fn).cqs id = false → vector < vectors u q.fn →
      exec (.createIoCq q id size base vector ien true) s = .next (done q .success 0 0 (updFn q.fn (fun x =>
        { x with cqs := mset x.cqs id { size := size, base := base, vector := vector, ien := ien } }) u))) ∧
    (id ≤ queueLimit u q.fn false → mhas (getFn u q.fn).sqs id = false → cqid ≠ 0 → mhas (getFn u q.fn).cqs cqid = true →
      exec (.createIoSq q id size base cqid prio true) s = .next (done q .success 0 0 (updFn q.fn (fun x =>
        { x with sqs := mset x.sqs id { size := size, base := base, cqid := cqid, prio := prio % 4 } }) u))) ∧
    (mhas (getFn u q.fn).sqs id = true →
      exec (.deleteIoSq q id) s = .next (done q .success 0 0 (updFn q.fn (fun x => { x with sqs := merase x.sqs id })
        (abandonCmds (fun f k => f == q.fn && k == id) (some .abortedSqDeletion)
          (endReqs (fun f k => f == q.fn && k == id) u))))) ∧
    (mhas (getFn u q.fn).cqs id = true → (∀ e ∈ (getFn u q.fn).sqs, e.2.cqid ≠ id) →
      exec (.deleteIoCq q id) s =
        .next (done q .success 0 0 (updFn q.fn (fun x => { x with cqs := merase x.cqs id }) u))) ∧
    (mhas (getFn u q.fn).cqs id = true → (∃ e ∈ (getFn u q.fn).sqs, e.2.cqid = id) →
      exec (.deleteIoCq q id) s = .next (done q .invalidQueueDeletion 0 0 u))) ∧
  (∀ (s u : State) (q : Sqe) (v : Nat), u = takeEntry q.fn 0 s →
    (AdminOk { nsid0 := true } q s → (getFn u q.fn).aers.length < 8 → (getFn u q.fn).events.find? (eventOn (getFn u q.fn)) = none →
      exec (.asyncEventRequest q) s = .next (updFn q.fn (fun y => { y with aers := y.aers ++ [q.cid] }) u)) ∧
    (AdminOk { nsid0 := true } q s → (getFn u q.fn).aers.length < 8 → ∀ e, (getFn u q.fn).events.find? (eventOn (getFn u q.fn)) = some e →
      exec (.asyncEventRequest q) s = .next (raiseEvent q.fn e (updFn q.fn (fun y => { y with events := dropFirst (· == e) y.events })
        (updFn q.fn (fun y => { y with aers := y.aers ++ [q.cid] }) u)))) ∧
    (AdminOk {} q s →
      exec (.getFeatures q 0x01 0 v) s = .next (done q .success (getFn u q.fn).feats.arbitration 0 u) ∧
      exec (.getFeatures q 0xC1 0 v) s = .next (done q .success (getFn u q.fn).feats.vendorEvents 0 u) ∧
      exec (.getFeatures q 0x05 0 v) s = .next (done q .invalidField 0 0 u) ∧
      (v < 65536 →
        exec (.setFeatures q 0x08 false v []) s = .next (done q .success 0 0
          (updFn q.fn (fun x => { x with feats := { x.feats with coalesce := v } }) u))) ∧
      (v < 4 →
        exec (.setFeatures q 0xC1 false v []) s = .next (done q .success 0 0
          (updFn q.fn (fun x => { x with feats := { x.feats with vendorEvents := v } }) u))) ∧
      exec (.setFeatures q 0x08 true v []) s = .next (done q .featureNotSaveable 0 0 u) ∧
      (hasIoSq u q.fn = true → v < 2 → exec (.setFeatures q 0xC0 false v []) s = .next (done q .commandSequenceError 0 0 u))))

/-- Abort by R81: it aborts a command that has been fetched and has not begun to move data, which completes with Command Abort
Requested, and Abort's own DW0 bit 0 is 0; so does one that has asked for a transition or a graph start and waits for its boundary. A command that
has moved data, or that is not there, is left, and DW0 bit 0 is 1. A held Asynchronous Event Request moves no data. -/
def Obligations.AbortCommand : Prop :=
  ∀ (s u : State) (q : Sqe) (sqid cid : Nat), AdminOk { nsid0 := true } q s → u = takeEntry q.fn 0 s →
    (sqid = 0 → cid ∈ (getFn u q.fn).aers →
      exec (.abortCmd q sqid cid) s = .next (done q .success 0 0 (complete q.fn 0 cid .abortRequested 0 0
        (updFn q.fn (fun x => { x with aers := dropFirst (· == cid) x.aers }) u)))) ∧
    (¬ (sqid = 0 ∧ cid ∈ (getFn u q.fn).aers) → ∀ c, findCmd u q.fn sqid cid = some c → c.moved = false →
      exec (.abortCmd q sqid cid) s = .next (done q .success 0 0
        (advanceAll (complete q.fn sqid cid .abortRequested 0 0
          (dropLate (· == (q.fn, sqid, cid)) (dropCmd q.fn sqid cid u)))))) ∧
    (¬ (sqid = 0 ∧ cid ∈ (getFn u q.fn).aers) → findCmd u q.fn sqid cid = none → (∀ c ∈ lateCmds u, c.who ≠ (q.fn, sqid, cid)) →
      ∀ a, abortTrans q.fn sqid cid u = some a ∨ abortTrans q.fn sqid cid u = none ∧ abortStart q.fn sqid cid u = some a →
      exec (.abortCmd q sqid cid) s = .next (done q .success 0 0 (advanceAll (complete q.fn sqid cid .abortRequested 0 0 a)))) ∧
    (¬ (sqid = 0 ∧ cid ∈ (getFn u q.fn).aers) → ∀ c, findCmd u q.fn sqid cid = some c → c.moved = true →
      exec (.abortCmd q sqid cid) s = .next (done q .success 1 0 u)) ∧
    (¬ (sqid = 0 ∧ cid ∈ (getFn u q.fn).aers) → findCmd u q.fn sqid cid = none → (∀ c ∈ lateCmds u, c.who ≠ (q.fn, sqid, cid)) →
      (∀ t ∈ u.trans, ¬ (t.fn = q.fn ∧ t.sqid = sqid ∧ t.cid = cid)) →
      (∀ t ∈ u.duct.starts, ¬ (t.fn = q.fn ∧ t.sqid = sqid ∧ t.cid = cid)) →
      (∀ r ∈ u.mode.modeReqs, ¬ (r.sqid = sqid ∧ r.cid = cid)) → u.fw.commit ≠ some (q.fn, sqid, cid) →
      exec (.abortCmd q sqid cid) s = .next (done q .success 1 0 u))

/-! ### Identify, log pages, namespaces, virtualization, self-test and directives -/

/-- Identify and Get Log Page (R46, R70, R71, R87). Identify returns the structure that CNS selects: the controller's for 01h,
4,096 zero bytes for an existing NSID range with no attached namespace; CNS 20h is refused. A log is returned from its offset, with
zeros beyond its end; an offset at or beyond the end is refused, and an unknown log page as well. -/
def Obligations.IdentifyAndLogs : Prop :=
  ∀ (s u : State) (q : Sqe) (cns cntid numd off : Nat), u = takeEntry q.fn 0 s →
    (AdminOk { safeOk := true, len := 4096, toNs := nsScoped cns } q s → cns < 256 → cntid < 65536 →
      (nsScoped cns = true → q.nsid ≠ 0xFFFFFFFF → nsPending u q.nsid = false) →
      (∀ b, identifyData u q.fn q.nsid cns cntid = .ok b → exec (.identify q cns cntid) s = .next (answer q b 0 u)) ∧
      (∀ st, identifyData u q.fn q.nsid cns cntid = .error st → exec (.identify q cns cntid) s = .next (done q st 0 0 u)) ∧
      (cns = 0x01 → exec (.identify q cns cntid) s = .next (answer q (identifyController u q.fn) 0 u)) ∧
      (cns = 0x00 → 1 ≤ q.nsid → q.nsid ≤ 1024 → attachedNs u q.fn q.nsid = none →
        exec (.identify q cns cntid) s = .next (answer q (zeros 4096) 0 u)) ∧
      (cns = 0x20 → exec (.identify q cns cntid) s = .next (done q .invalidField 0 0 u))) ∧
    (AdminOk { safeOk := true, len := (numd + 1) * 4 } q s → (numd + 1) * 4 ≤ 2097152 → off % 4 = 0 →
      (off < (strokeLog u).length →
        exec (.getLogPage q 0xC1 0 numd off ⟨true, []⟩) s = .next (answer q (slice (strokeLog u) off ((numd + 1) * 4)) 0 u)) ∧
      ((strokeLog u).length ≤ off → exec (.getLogPage q 0xC1 0 numd off ⟨true, []⟩) s = .next (done q .invalidField 0 0 u)) ∧
      exec (.getLogPage q 0xD0 0 numd off ⟨true, []⟩) s = .next (done q .invalidLogPage 0 0 u))

/-- Namespace Management and Attachment (R73, R105, R106, R147): an accepted command adds its unit transition and completes at the
commit; a hold refuses delete and detach; UNIT_TRANSITION_COMMIT commits, at a boundary, what was accepted 20 µs before.

Format NVM and Sanitize (R73, R89, R105, R106, R413): an accepted command adds its unit transition; Format NVM on a sealed
namespace is refused with SEALED_RANGE; FORMAT_DONE frees the namespace, SANITIZE_DONE frees them all and returns to the base
mode at a boundary. -/
def Obligations.Namespaces : Prop :=
  (∀ (s u : State) (q : Sqe) (data : Bytes) (fs : List Nat) (x : Ns), u = takeEntry q.fn 0 s →
    (AdminOk { pfOnly := true, nsid0 := true, len := 4096, got := some data.length } q s → createError u (fixLen 4096 data) = none →
      exec (.namespaceCreate q data) s = .next (addTrans (.ns 0) (.nsCreate (fixLen 4096 data)) q u)) ∧
    (q.nsid ≠ 0xFFFFFFFF → getNs u q.nsid = some x → x.busy ≠ .converting → nsPending u q.nsid = false →
      (AdminOk { pfOnly := true, toNs := true } q s → x.holds = [] → flowsHeld u q.nsid (fun _ => true) = false →
        exec (.namespaceDelete q) s = .next (addTrans (.ns q.nsid) .nsDelete q u)) ∧
      (AdminOk { pfOnly := true, toNs := true } q s → x.holds ≠ [] →
        exec (.namespaceDelete q) s = .next (done q .holdActive 0 0 u)) ∧
      (AdminOk { pfOnly := true, len := 4096, toNs := true } q s → badCtrls fs = false →
        ((∀ f ∈ fs, x.attached.contains f = false) →
          exec (.namespaceAttach q fs) s = .next (addTrans (.ns q.nsid) (.nsAttach fs) q u)) ∧
        ((∀ f ∈ fs, x.attached.contains f = true) → x.holds = [] → flowsHeld u q.nsid fs.contains = false →
          exec (.namespaceDetach q fs) s = .next (addTrans (.ns q.nsid) (.nsDetach fs) q u)))) ∧
    (s.time.frac = 0 → (∀ t ∈ s.trans, transDue s t = true) →
      exec .unitTransitionCommit s = .next (s.trans.foldl (fun a t => commitTrans t a) { s with trans := [] })) ∧
    (s.time.frac ≠ 0 → exec .unitTransitionCommit s = .next s)) ∧
  (∀ (s u : State) (q : Sqe) (lbaf ses : Nat) (x : Ns), u = takeEntry q.fn 0 s →
    (AdminOk { pfOnly := true, toNs := true } q s → q.nsid ≠ 0xFFFFFFFF → attachedNs u q.fn q.nsid = some x → nsPending u q.nsid = false →
      x.holds = [] → lbaf < 2 → ses < 3 → x.busy = .none →
      (x.sealed = false → exec (.formatNvm q lbaf ses) s = .next (addTrans (.ns q.nsid) (.format lbaf ses) q u)) ∧
      (x.sealed = true → exec (.formatNvm q lbaf ses) s = .next (done q .sealedRange 0 0 u))) ∧
    (AdminOk { pfOnly := true, nsid0 := true } q s → u.mode.cur = .run → u.mode.wantSanitize = none → u.trans = [] →
      (∀ e ∈ u.nss, e.2.holds = []) →
      exec (.sanitizeCryptoErase q) s = .next (addTrans (.ns 0) (.sanitize 4) q u) ∧
      exec (.sanitizeBlockErase q) s = .next (addTrans (.ns 0) (.sanitize 2) q u)) ∧
    (∀ nsid, getNs s nsid = some x → x.busy = .formatting →
      exec (.formatDone nsid) s = .next (updNs nsid (fun y => { y with busy := .none }) s)) ∧
    (s.mode.cur = .sanitize → mayBegin s = true →
      exec .sanitizeDone s = .next (switchMode (baseMode s) 7 { s with
        nss := s.nss.map (fun e => (e.1, { e.2 with busy := if e.2.busy = .sanitizing then .none else e.2.busy })) })))

/-- Virtualization Management (R54, R55, R102): flexible resources are assigned to an offline VF, a VF that has some goes online by
a unit transition, and one goes offline through a function-level reset whose commit completes the command.

Device Self-test and the Streams directive (R70, R194): a self-test starts where none runs and code Fh ends it; Identify
enables Streams for the function, Streams releases all identifiers and allocates streams 1 to n, and the parameters are R194's. -/
def Obligations.VirtualizationAndDirectives : Prop :=
  (∀ (s u : State) (q : Sqe) (f nr : Nat), AdminOk { pfOnly := true, nsid0 := true } q s → u = takeEntry q.fn 0 s → 1 ≤ f →
    f ≤ 127 → fnPending u f = false →
    (online u f = false → badResources u f 0 nr = false →
      exec (.vmAssignResources q f false 0 nr) s =
        .next (done q .success nr 0 (showFn f (updFn f (fun x => { x with flexQ := nr }) u)))) ∧
    (online u f = true →
      exec (.vmAssignResources q f false 0 nr) s = .next (done q .invalidSecondaryState 0 0 u) ∧
      exec (.vmOffline q f) s = .next (startFlr f 1 (addTrans (.func f) .offline q u))) ∧
    (online u f = false → f ≤ u.numVfs → noFollower u f = false → queuePairs u f ≠ 0 → vectors u f ≠ 0 →
      exec (.vmOnline q f) s = .next (addTrans (.func f) .online q u))) ∧
  (∀ (s u : State) (q : Sqe) (stc numd value : Nat) (x : Ns), u = takeEntry q.fn 0 s →
    (AdminOk {} q s →
      (stc = 1 ∨ stc = 2 → u.mon.selfTest = 0 →
        exec (.deviceSelfTest q stc) s = .next (done q .success 0 0 { u with mon := { u.mon with selfTest := stc } })) ∧
      exec (.deviceSelfTest q 15) s = .next (done q .success 0 0 { u with mon := { u.mon with selfTest := 0 } })) ∧
    (AdminOk { toNs := true } q s →
      (attachedNs u q.fn q.nsid = some x → x.busy = .none → nsPending u q.nsid = false →
        exec (.directiveSend q 0 1 0 0x101) s =
          .next (done q .success 0 0 (updNs q.nsid (fun y => { y with dirOn := insertNat q.fn y.dirOn }) u)) ∧
        (x.dirOn.contains q.fn = true →
          exec (.directiveSend q 1 2 0 0) s =
            .next (done q .success 0 0 (updNs q.nsid (fun y => { y with dirStreams := [] }) u)) ∧
          (value < 65536 → ∀ k, k = min value (15 - streamsTaken u q.nsid) →
            exec (.directiveReceive q 1 3 0 value) s = .next (done q .success k 0
              (updNs q.nsid (fun y => { y with dirStreams := (List.range k).map (· + 1) }) u)))))) ∧
    (AdminOk { len := (numd + 1) * 4, toNs := true } q s → numd < 2 ^ 32 → attachedNs u q.fn q.nsid = some x → x.busy = .none →
      nsPending u q.nsid = false →
      exec (.directiveReceive q 1 1 numd 0) s = .next (answer q (fixLen ((numd + 1) * 4) (streamParams u x)) 0 u)))

/-! ### Graphs, keys, firmware and the management endpoint -/

/-- Graph commands (R87, R92, R272 to R275, R285). GRAPH LOAD keeps the parts of an image in order and parses it when it is whole; a part out
of order is refused with reason 1 and drops what was kept, and one whose data comes short ends with Data Transfer Error (R87). GRAPH START waits for its boundary and a live graph refuses it; GRAPH
RESULT with WAIT is held until the run ends; GRAPH RELEASE frees a graph that does not run. -/
def Obligations.GraphCommands : Prop :=
  ∀ (s u : State) (q : Sqe) (numd off total tag limit h run : Nat) (data : Bytes) (g : Graph),
    IoOk q s u → badEntry q = false → q.nsid = 0 → numd < 2 ^ 19 →
    off < 2 ^ 32 → total ≤ 64 * 2 ^ 20 → h < 65536 → run < 65536 → tag < 2 ^ 32 → limit < 65536 →
    (xferError q.xfer false ((numd + 1) * 4) = none → (numd + 1) * 4 ≤ data.length → affords u q.fn .wrBytes = true →
      mayMove u q.fn = true → ∀ v, v = charge q.fn .wrBytes (numdData numd data).length u →
      (off = 0 → (numdData numd data).length < total →
        exec (.graphLoad q numd off total data) s = .next (done q .success 0 0
          (setPartial q.fn (some (numdData numd data)) v))) ∧
      (off = (partialOf u q.fn).length → off ≠ 0 → off + (numdData numd data).length = total →
        exec (.graphLoad q numd off total data) s = .next (finishLoad q (partialOf u q.fn ++ numdData numd data) v)) ∧
      (off ≠ (partialOf u q.fn).length → off ≠ 0 →
        exec (.graphLoad q numd off total data) s =
          .next (done q .invalidField 0 0 (setPartial q.fn none (loadRefused q.fn 1 0 v))))) ∧
    (data.length < (numd + 1) * 4 → xferError q.xfer false ((numd + 1) * 4) = none →
      exec (.graphLoad q numd off total data) s = .next (done q .dataTransferError 0 0 u)) ∧
    (ownGraph u q.fn h = some g → startPending u h = false →
      (runLive g = false →
        exec (.graphStart q h tag limit) s = .next { u with duct := { u.duct with starts := u.duct.starts ++ [
          { graph := h, tag := tag, limit := limit, fn := q.fn, sqid := q.sqid, cid := q.cid, at_ := now u }] } }) ∧
      (runLive g = true → exec (.graphStart q h tag limit) s = .next (done q .commandSequenceError 0 0 u)) ∧
      (runLive g = true → xferError q.xfer false ((numd + 1) * 4) = none → ∀ r, g.run = some r → r.id = run →
        exec (.graphResult q h run numd true) s = .next (addCmd
          { fn := q.fn, sqid := q.sqid, cid := q.cid, nsid := 0, order := 0, kind := .graphResult h run ((numd + 1) * 4) } u))) ∧
    (xferError q.xfer false 4 = none → affords u q.fn .wrBytes = true → mayMove u q.fn = true → ownGraph (charge q.fn .wrBytes 4 u) q.fn h = some g → runLive g = false →
      startPending (charge q.fn .wrBytes 4 u) h = false →
      exec (.graphRelease q 0 0 h 0) s = .next (done q .success 0 0 (releaseGraph h (charge q.fn .wrBytes 4 u))))

/-- KEY BLOB LOAD (R307 to R309): a blob that passes its checks is applied to its slot and the command completes, with WRAPPER 0
through the signature unit; a slot or a
namespace that does not exist, or a blob that does not unwrap, changes no slot.

Firmware packages (R376 to R381). A first part of less than the header is stored in the erased staging area and STAGE shows a
package begun; Commit with action 0 on a whole, good package only stages it, and with another slot is refused; ACTIVATE begins at
a boundary; a good package is activated and the commit completes, and with a failed self-check the running firmware stays, REASON is 0Ah and the commit fails; a boot copy that
succeeds adds its component to the activation record. -/
def Obligations.KeysAndFirmware : Prop :=
  (∀ (s u : State) (q : Sqe) (numd slot wrap : Nat) (blob : Bytes),
    AdminOk { pfOnly := true, len := (numd + 1) * 4, toNs := true, got := some blob.length } q s → u = takeEntry q.fn 0 s → numd < 2 ^ 32 → slot < 1024 → wrap < 4 →
    (q.nsid = 0 → blobError u 0 numd slot wrap (numdData numd blob) = none →
      (byteAt (numdData numd blob) 4 ≠ 0 → exec (.keyBlobLoad q numd slot wrap blob) s =
        .next (done q .success 0 0 (applyBlob 0 slot wrap (numdData numd blob) u))) ∧
      (byteAt (numdData numd blob) 4 = 0 → blobForm u 0 numd slot wrap (numdData numd blob) = none → signIdle u = true →
        ∀ v, v = spendSign (qosOf u q.fn).cls u → blobError v 0 numd slot wrap (numdData numd blob) = none →
        exec (.keyBlobLoad q numd slot wrap blob) s =
          .next (done q .success 0 0 (applyBlob 0 slot wrap (numdData numd blob) v)))) ∧
    (q.nsid ≠ 0 → getNs u q.nsid = none →
      exec (.keyBlobLoad q numd slot wrap blob) s = .next (done q .invalidNamespaceOrFormat 0 0 u))) ∧
  (∀ (s u : State) (q : Sqe) (numd us ms comp : Nat) (data d : Bytes), u = takeEntry q.fn 0 s →
    (AdminOk { pfOnly := true, safeOk := true, nsid0 := true, len := (numd + 1) * 4, got := some data.length } q s → numd < 255 →
      flagF u FWU_STATUS_COPY_DUE = false →
      exec (.firmwareDownload q 0 numd data false) s = .next (done q .success 0 0 (setF FWU_RECEIVED ((numd + 1) * 4)
        (inkWriteBytes stagingBase (fixLen ((numd + 1) * 4) data) (newPackage u))))) ∧
    (AdminOk { pfOnly := true, safeOk := true, nsid0 := true } q s →
      exec (.firmwareCommit q 1 0) s = .next (done q .invalidFirmwareSlot 0 0 u) ∧
      (u.fw.commit = none → packageOk u = true →
        exec (.firmwareCommit q 2 0) s = .next (done q .success 0 0 (setF FWU_STATUS_STAGE 4 u))) ∧
      (u.fw.commit = none → packageOk u = false →
        exec (.firmwareCommit q 2 0) s = .next (done q .invalidFirmwareImage 0 0 (reject 8 u)))) ∧
    (mayBegin s = true → s.mode.wantActivate = true → s.mode.cur = .run → s.mode.stop = none →
      exec .activateBegin s = .next (beginActivate s)) ∧
    (∀ v, v = atFrac 0 s → v.mode.cur = .activate → v.mode.lastOp = .lean → ∀ w, w = setF FWU_ACT_US us (reject 10 v) →
      exec (.activateEnd 0 false us) s = .next (endCommit .invalidFirmwareImage (switchMode .lean 8 { w with
        mode := { w.mode with fetchStop := false }, fns := w.fns.map (fun e => (e.1, { e.2 with pp := false })) }))) ∧
    (∀ v, v = atFrac 0 s → v.mode.cur = .activate → v.mode.lastOp = .lean → packageOk v = true →
      ∀ w, w = setF FWU_ACT_US us (activated v) →
      exec (.activateEnd 0 true us) s = .next (endCommit .success (noticeAll (switchMode .lean 8 { w with
        mode := { w.mode with fetchStop := false }, fns := w.fns.map (fun e => (e.1, { e.2 with pp := false })) })))) ∧
    (s.mode.cur = .boot → s.mode.stage = .computeGood → nextCopy s = some d → byteAt d 0 = comp →
      exec (.bootCopyDone comp true ms) s =
        .next (recordCopy comp (copyBody comp d (setF FWU_COPY_MS (getF s FWU_COPY_MS + ms) s)))))

/-- The management endpoint (R70, R103, R104): while it hears, each NVMe-MI command answers with its status, response and data;
Configuration Set changes the value that Get returns, VPD Write the bytes that VPD Read returns; Reset is refused; the same
commands run in NVMe-MI Send and Receive; a tunnelled admin command runs as the controller's own. The numbers and layouts are
NVMe-MI's (notes/assumptions/67). -/
def Obligations.ManagementEndpoint : Prop :=
  ∀ (s u : State) (q : Sqe) (port ctrl first max value off len stc : Nat) (data : Bytes) (clear : Bool),
    (miHears s = true →
      exec (.miReadDataStructure 2 port ctrl) s = .next (emit (.mi 0
        (le 3 (le 2 (allFns.filter (ctrl ≤ ·)).length ++ ((allFns.filter (ctrl ≤ ·)).map (le 2)).flatten).length
          ++ (le 2 (allFns.filter (ctrl ≤ ·)).length ++ ((allFns.filter (ctrl ≤ ·)).map (le 2)).flatten))) s) ∧
      exec (.miSubsystemHealthPoll clear) s =
        .next (emit (.mi 0 (le 3 (miSubsystem clear s).data.length ++ (miSubsystem clear s).data)) (miSubsystem clear s).after) ∧
      (first < 128 → ∀ ks, ks = (allFns.filter (first ≤ ·)).take max →
        exec (.miControllerHealthPoll first max) s =
          .next (emit (.mi 0 (le 3 (ks.length * 65536) ++ (ks.map (miController s)).flatten)) s)) ∧
      (value < 2 ^ 32 → exec (.miConfigurationSet 2 port value) s =
        .next (emit (.mi 0 (le 3 0)) { s with mon := { s.mon with miHealth := value } })) ∧
      exec (.miConfigurationGet 2 port) s = .next (emit (.mi 0 (le 3 s.mon.miHealth)) s) ∧
      (off + len ≤ 256 → exec (.miVpdRead off len) s =
        .next (emit (.mi 0 (le 3 0 ++ sgetBytes vpdDefault s.ink.vpd off len)) s)) ∧
      (off + data.length ≤ 256 → exec (.miVpdWrite off data) s = .next (emit (.mi 0 (le 3 0)) (setF INK_STATUS_SAVE_PENDING 1
        { s with ink := { s.ink with vpd := ssetBytes vpdDefault s.ink.vpd off data, storedAt := some (now s) } }))) ∧
      exec .miReset s = .next (emit (.mi 4 (le 3 0)) s) ∧
      (s.mode.cur = .run → s.mode.trans = none → ctrl < 128 → stc = 1 ∨ stc = 2 → s.mon.selfTest = 0 →
        fnPending s ctrl = false →
        exec (.miAdminTunnel ctrl 0 (.selfTest stc)) s =
          .next (emit (.mi 0 (le 4 0 ++ le 4 0)) { s with mon := { s.mon with selfTest := stc } }))) ∧
    (AdminOk {} q s → u = takeEntry q.fn 0 s →
      (value < 2 ^ 32 → exec (.nvmeMiSend q 3 2 value []) s =
        .next (done q .success 0 0 { u with mon := { u.mon with miHealth := value } })) ∧
      exec (.nvmeMiReceive q 4 2 0) s = .next (done q .success (u.mon.miHealth % 2 ^ 24 * 256) 0 u))

/-! ### Doorbells, transfers and the NVM commands -/

/-- Doorbells (R74, R75): a value inside a queue is its new tail or head; a write to no queue, or outside one, changes no queue and
raises an Error event; before the controller is enabled none is heard.

Transfers of a command's data (R14, R45, R64, R78, R87, R148): the last byte of a write makes its data complete and lets the queue go
on; an append is applied in the open stroke and completes with the stroke and its first LBA; a failed transfer completes with Data
Transfer Error and applies nothing, as does one whose data comes short (R87); a failed transfer is logged in the function's AER
capability; an append held too long completes with STROKE_OVERRUN. -/
def Obligations.DoorbellsAndTransfers : Prop :=
  (∀ (s u : State) (frac fn qid v : Nat), u = atFrac frac s →
    (hearsDoorbell u fn = true →
      (∀ q, mget (getFn u fn).sqs qid = some q → v < q.size → u.mode.trans = none → u.mode.cur.deep = false →
        exec (.sqTailDoorbell frac fn qid v) s = .next (updFn fn (fun x => { x with
          sqs := mset x.sqs qid { q with tail := v }, idleFrom := u.time.stroke }) u)) ∧
      (∀ q, mget (getFn u fn).sqs qid = some q → q.size ≤ v →
        exec (.sqTailDoorbell frac fn qid v) s = .next (raiseEvent fn { type := 0, info := 1, log := 1 } u)) ∧
      (mget (getFn u fn).sqs qid = none →
        exec (.sqTailDoorbell frac fn qid v) s = .next (raiseEvent fn { type := 0, info := 0, log := 1 } u))) ∧
    (hearsDoorbell u fn = false → exec (.sqTailDoorbell frac fn qid v) s = .next u) ∧
    (hearsDoorbell s fn = true →
      (∀ q, mget (getFn s fn).cqs qid = some q → v < q.size → q.waiting = [] → s.mode.trans = none → s.mode.cur.deep = false →
        exec (.cqHeadDoorbell fn qid v) s =
          .next (updFn fn (fun x => { x with cqs := mset x.cqs qid { q with head := v } }) s)) ∧
      (∀ q, mget (getFn s fn).cqs qid = some q → q.size ≤ v →
        exec (.cqHeadDoorbell fn qid v) s = .next (raiseEvent fn { type := 0, info := 1, log := 1 } s)) ∧
      (mget (getFn s fn).cqs qid = none →
        exec (.cqHeadDoorbell fn qid v) s = .next (raiseEvent fn { type := 0, info := 0, log := 1 } s)))) ∧
  (∀ (s : State) (fn sqid cid : Nat) (data : Bytes) (c : Cmd), findCmd s fn sqid cid = some c →
    (∀ lba n dir, c.kind = .write lba n dir none → c.moved = true →
      (mayMove s fn = true → ∀ len, len = n * ((getNs s c.nsid).map (·.blk)).getD 4096 →
        (len ≤ data.length → exec (.writeDataArrived fn sqid cid data) s = .next (advanceAll (updCmd fn sqid cid (fun x =>
          { x with kind := .write lba n dir (some (fixLen len data)) }) s))) ∧
        (data.length < len → exec (.writeDataArrived fn sqid cid data) s =
          .next (advanceAll (complete fn sqid cid .dataTransferError 0 0 (dropCmd fn sqid cid s))))) ∧
      exec (.dmaReadFault fn sqid cid) s =
        .next (advanceAll (complete fn sqid cid .dataTransferError 0 0 (dropCmd fn sqid cid (logAer fn false s)))) ∧
      exec (.completionTimeout fn sqid cid) s =
        .next (advanceAll (complete fn sqid cid .dataTransferError 0 0 (dropCmd fn sqid cid (logAer fn true s))))) ∧
    (∀ n l e first held, c.kind = .append n l e (some first) held → c.moved = true → mayMove s fn = true →
      flowsOn s c.nsid = false → mirrorTarget s c.nsid = false → appendBytes n l ≤ data.length →
      exec (.writeDataArrived fn sqid cid data) s = .next (advanceAll (complete fn sqid cid .success (s.time.stroke % 2 ^ 32)
        (first % 2 ^ 32) (dropCmd fn sqid cid (applyAppend c n l data s))))) ∧
    (∀ lba n got, c.kind = .read lba n got → c.blocked = false →
      exec (.dmaWriteRejected fn sqid cid) s =
        .next (advanceAll (complete fn sqid cid .dataTransferError 0 0 (dropCmd fn sqid cid (logAer fn false s))))) ∧
    (∀ n l e first since, c.kind = .append n l e first (some since) → c.held = true → getF s STK_OVR_CTL_HOLD_STROKES ≠ 0 →
      (since + getF s STK_OVR_CTL_HOLD_STROKES ≤ s.time.stroke → exec (.appendHoldExpiry fn sqid cid) s =
        .next (advanceAll (complete fn sqid cid .strokeOverrun 0 0 (dropCmd fn sqid cid s)))) ∧
      (s.time.stroke < since + getF s STK_OVR_CTL_HOLD_STROKES → exec (.appendHoldExpiry fn sqid cid) s = .next s)))

/-- Read, Compare and Verify (R77, R87, R88, R89): on a namespace of either kind a command whose lengths agree becomes outstanding
with its map unresolved; one whose lengths disagree completes with the first row of R87 that fails; a namespace that is not attached
is an Invalid Namespace or Format. -/
def Obligations.HostReads : Prop :=
  ∀ (s u : State) (q : Sqe) (x : Ns) (slba nlb n : Nat) (host : Bytes), n = nlb % 65536 + 1 → IoOk q s u →
    (NsOk q x u →
      (lengthError q x slba n true = none →
        exec (.readCmd q slba nlb) s = .next (enlist q (.read slba n []) true u) ∧
        exec (.compareCmd q slba nlb host) s = .next (enlist q (.compare slba n (fixLen (n * x.blk) host) []) true u)) ∧
      (lengthError q x slba n false = none → exec (.verifyCmd q slba nlb) s = .next (enlist q (.verify slba n 0) true u)) ∧
      (2097152 < n * x.blk → exec (.readCmd q slba nlb) s = .next (done q .invalidField 0 0 u)) ∧
      (n * x.blk ≤ 2097152 → x.nsze < slba + n →
        exec (.readCmd q slba nlb) s = .next (done q .lbaOutOfRange 0 0 u) ∧
        exec (.compareCmd q slba nlb host) s = .next (done q .lbaOutOfRange 0 0 u)) ∧
      (x.nsze < slba + n → exec (.verifyCmd q slba nlb) s = .next (done q .lbaOutOfRange 0 0 u))) ∧
    (badEntry q = false → attachedNs u q.fn q.nsid = none → converting u q.nsid = false →
      exec (.readCmd q slba nlb) s = .next (done q .invalidNamespaceOrFormat 0 0 u))

/-- Write-type commands (R77, R78, R80, R89, R148, R201, R202): on a plain namespace they become outstanding; on a sealed one Write,
Write Zeroes and Dataset Management with deallocate complete with SEALED_RANGE and only SEALED APPEND goes on; Write Zeroes that
meets no other command is applied at once; in READ-ONLY they are refused; Flush, to a namespace or to all of
them, waits for the write-type commands before it. -/
def Obligations.HostWrites : Prop :=
  ∀ (s u : State) (q : Sqe) (x : Ns) (slba nlb n dtype dspec last expected : Nat) (deac : Bool), n = nlb % 65536 + 1 →
    IoOk q s u →
    (q.nsid = 0xFFFFFFFF → badEntry q = false → deferredHit u q = false →
      (∀ e ∈ u.nss, e.2.attached.contains q.fn = true → nsPending u e.1 = false) →
      exec (.flushCmd q) s = .next (enlist q (.flush (flushWaits u q)) false u)) ∧
    (NsOk q x u → q.nsid ≠ 0xFFFFFFFF → exec (.flushCmd q) s = .next (enlist q (.flush (flushWaits u q)) false u)) ∧
    (hazardRoom s = true → NsOk q x u →
    (x.sealed = false → u.mode.cur ≠ .readOnly →
      (lengthError q x slba n true = none → exec (.writeCmd q slba nlb dtype dspec) s =
        .next (enlist q (.write slba n (directiveOf q x dtype dspec) none) false u)) ∧
      (slba + n ≤ x.nsze →
        exec (.writeZeroes q slba nlb deac) s = .next (enlist q (.zeroes slba n) true u) ∧
        (xferError q.xfer false 16 = none →
          exec (.datasetManagement q true [(slba, n)]) s = .next (enlist q (.dealloc [(slba, n)]) true u)) ∧
        (u.cmds = [] → exec (.writeZeroes q slba nlb deac) s = .next (showHazards (complete q.fn q.sqid q.cid .success 0 0
          (dropCmd q.fn q.sqid q.cid (markWrite q.nsid (applyZeroes q.nsid slba n
            { fn := q.fn, sqid := q.sqid, cid := q.cid, directive := 0 }
            (addCmd {
              fn := q.fn, sqid := q.sqid, cid := q.cid, nsid := q.nsid, order := 0, kind := .zeroes slba n,
              blocked := true } u)))))))) ∧
      (xferError q.xfer false 16 = none → exec (.datasetManagement q false [(slba, n)]) s =
        .next (if x.nsze < slba + n then done q .lbaOutOfRange 0 0 u else done q .success 0 0 u)) ∧
      exec (.sealedAppend q nlb last expected) s = .next (done q .invalidNamespaceOrFormat 0 0 u)) ∧
    (x.sealed = true →
      exec (.writeCmd q slba nlb dtype dspec) s = .next (done q .sealedRange 0 0 u) ∧
      exec (.writeZeroes q slba nlb deac) s = .next (done q .sealedRange 0 0 u) ∧
      exec (.datasetManagement q true [(slba, n)]) s = .next (done q .sealedRange 0 0 u) ∧
      (u.mode.cur ≠ .readOnly → last ≤ 4096 → n ≤ 512 → xferError q.xfer false (appendBytes n last) = none →
        exec (.sealedAppend q nlb last expected) s = .next (enlist q (.append n last expected none none) false u)) ∧
      (4096 < last ∨ 512 < n → exec (.sealedAppend q nlb last expected) s = .next (done q .invalidField 0 0 u))) ∧
    (x.sealed = false → u.mode.cur = .readOnly →
      exec (.writeCmd q slba nlb dtype dspec) s = .next (done q .readOnlyMedia 0 0 u) ∧
      exec (.writeZeroes q slba nlb deac) s = .next (done q .readOnlyMedia 0 0 u)))

/-- The background pass of R201: it takes the oldest queued range and clears each of its units that was last written before the
deallocation; a unit written after keeps its data; every other namespace is unchanged. With nothing queued nothing happens. -/
def Obligations.DeallocatePass : Prop :=
  (∀ s : State, s.ftl.deallocs = [] → exec .deallocatePass s = .next s) ∧
  ∀ (s : State) (d : Dealloc) (rest : List Dealloc) (x : Ns), s.ftl.deallocs = d :: rest → getNs s d.nsid = some x →
    Map.wf x.map = true → ∃ t y, exec .deallocatePass s = .next t ∧
      t = { s with ftl := { s.ftl with deallocs := rest }, nss := t.nss } ∧
      (∀ n, n ≠ d.nsid → getNs t n = getNs s n) ∧ getNs t d.nsid = some y ∧ y = { x with map := y.map } ∧
      ∀ k, mget y.map k = if d.unit ≤ k ∧ k < d.unit + d.count ∧ unitSeq s x k < d.seq then none else mget x.map k

/-! ### Evidence, flows and ports -/

/-- HOLD and RELEASE (R87, R105, R149, R151, R152): a hold is accepted with the lowest free index while fewer than 16 are held; a query
answers the lowest hold that meets the range, FFFFh for none; a token that passes every row is accepted, under DRYRUN only verified;
one that fails its checks is AUTH_FAIL and counted; each check takes one operation of the signature unit (R309). -/
def Obligations.HoldAndRelease : Prop :=
  ∀ (s u : State) (q : Sqe) (x : Ns) (first last tag numd : Nat) (token t : Bytes), IoOk q s u → NsOk q x u → x.sealed = true →
    t = numdData numd token →
    (x.holds.length < 16 → exec (.holdPlace q first last tag) s = .next { u with trans := u.trans ++ [{
      unit := .ns q.nsid, kind := .hold (mfree x.holds 0) (first % 2 ^ 48) (last % 2 ^ 48) (tag % 2 ^ 32),
      at_ := now u, fn := q.fn, sqid := q.sqid, cid := q.cid }] }) ∧
    (16 ≤ x.holds.length → exec (.holdPlace q first last tag) s = .next (done q .invalidField 0 0 u)) ∧
    (∀ h, x.holds = [h] → first < 2 ^ 48 - 1 → last < 2 ^ 48 →
      exec (.holdQuery q first last) s =
        .next (done q .success (if h.2.first ≤ last ∧ first ≤ h.2.last then h.1 else 0xFFFF) 0 u)) ∧
    (xferError q.xfer false ((numd + 1) * 4) = none → token.length < (numd + 1) * 4 →
      exec (.releaseCmd q numd token) s = .next (done q .dataTransferError 0 0 u) ∧
      exec (.releaseDryrun q numd token) s = .next (done q .dataTransferError 0 0 u)) ∧
    (xferError q.xfer false ((numd + 1) * 4) = none → (numd + 1) * 4 ≤ token.length → signIdle u = true →
      ∀ v, v = spendSign (qosOf u q.fn).cls u →
      (tokenError u q.nsid numd x t = none →
        exec (.releaseCmd q numd token) s = .next (addTrans (.ns q.nsid)
          (.release (byteAt t 20) (leAt t 22 2) (leAt t 24 6) (leAt t 32 6) (leAt t 40 8) (slice t 0 64)) q v) ∧
        exec (.releaseDryrun q numd token) s = .next (done q .success 0 0 v)) ∧
      (tokenError u q.nsid numd x t = some .authFail →
        exec (.releaseCmd q numd token) s = .next (done q .authFail 0 0 (incF SGN_VERIFY_FAIL_COUNT 1 v))) ∧
      (tokenError u q.nsid numd x t = some .holdActive →
        exec (.releaseCmd q numd token) s = .next (done q .holdActive 0 0 v)))

/-- VERIFY RANGE, PROOF READ and EXPORT (R153 to R155): a range inside the namespace becomes an outstanding command; a proof whose
buffer holds it is written with its length in DW0; an export that fits is written whole; a cookie of no resume state is refused;
cookies that are 1,024 strokes old lapse and no other does. -/
def Obligations.ProofAndExport : Prop :=
  ∀ (s u : State) (q : Sqe) (x : Ns) (slba nlb stroke kind numd first last comp level resume : Nat) (chain proofs sign : Bool)
    (bs : Bytes), IoOk q s u → NsOk q x u → x.sealed = true →
    (slba + (nlb % 2 ^ 32 + 1) ≤ x.nsze →
      exec (.verifyRange q slba nlb chain) s = .next (enlist q (.verifyRange slba (nlb % 2 ^ 32 + 1) chain 0) true u)) ∧
    (x.nsze < slba + (nlb % 2 ^ 32 + 1) → exec (.verifyRange q slba nlb chain) s = .next (done q .lbaOutOfRange 0 0 u)) ∧
    (readWaits u q.fn = false →
      (q.nsid ≠ 0 → kind < 4 → xferError q.xfer false ((numd + 1) * 4) = none →
        proofOut u q.nsid (stroke % 2 ^ 48) kind = .ok bs →
        (bs.length ≤ (numd + 1) * 4 → exec (.proofRead q stroke kind numd) s =
          .next (done q .success bs.length 0 (hostWrite q.fn q.cid bs (charge q.fn .rdBytes bs.length u)))) ∧
        ((numd + 1) * 4 < bs.length → exec (.proofRead q stroke kind numd) s = .next (done q .invalidField bs.length 0 u))) ∧
      (q.nsid ≠ 0 → 4 ≤ kind → exec (.proofRead q stroke kind numd) s = .next (done q .invalidField 0 0 u)) ∧
      (compOk comp level = true → xferError q.xfer false ((numd + 1) * 4) = none →
        (resume % 2 ^ 32 = 0 → first % 2 ^ 48 ≤ last % 2 ^ 48 → (sign = true → signFree u (qosOf u q.fn).cls = true) →
          ∀ v b, v = (if sign then spendSign (qosOf u q.fn).cls u else u) →
          (proofs = true → (coveredTo v).any (fun n => last % 2 ^ 48 ≤ n) = true) →
          bundleHead v q.nsid x (first % 2 ^ 48) (last % 2 ^ 48) comp level proofs = bs → b = bs ++ bundleTail v sign bs →
          b.length ≤ (numd + 1) * 4 →
          exec (.exportBundle q first last comp level proofs sign numd resume) s =
            .next (done q .success b.length 0 (hostWrite q.fn q.cid b
              (charge q.fn .rdBytes b.length (if sign then incF SGN_COUNT_SIGNED 1 v else v))))) ∧
        (resume % 2 ^ 32 ≠ 0 → u.exports = [] →
          exec (.exportBundle q first last comp level proofs sign numd resume) s = .next (done q .invalidField 0 0 u)))) ∧
    exec .exportCookieLapse s = .next { s with exports := s.exports.filter (fun e => s.time.stroke < e.used + 1024) }

/-- STREAM BIND (R113, R114): a descriptor that passes every row is accepted for a boundary and keeps its place; a length that does
not agree completes with LENGTH_MISMATCH; a request that is due commits, and one that is not stays.

The summary ring (R126): a good descriptor makes or replaces the function's ring as the command completes; a 4-byte one removes
it; a bad one completes with reason 0001h; neither changes any other function. -/
def Obligations.FlowAndRingCommands : Prop :=
  ((∀ (s u : State) (q : Sqe) (numd flow : Nat) (desc d : Bytes), IoOk q s u → badEntry q = false → converting u q.nsid = false →
    attachedNs u q.fn q.nsid = none ∨ deferredHit u q = false ∧ nsPending u q.nsid = false →
    xferError q.xfer false ((numd + 1) * 4) = none → (numd + 1) * 4 ≤ desc.length → d = numdData numd desc →
    (bindError (bindRows u q numd d) = none → exec (.flowBind q numd desc) s = .next (takeBind q 0 0 d none u)) ∧
    (leAt d 2 2 ≠ (numd + 1) * 4 →
      exec (.flowBind q numd desc) s = .next (done q .lengthMismatch 0 0 u) ∧
      exec (.flowUnbind q numd flow desc) s = .next (done q .lengthMismatch 0 0 u) ∧
      exec (.flowModify q numd flow desc) s = .next (done q .lengthMismatch 0 0 u)) ∧
    (leAt d 2 2 = 4 → numd = 0 → byteAt d 0 = 1 → byteAt d 1 = 1 → (ownFlow u q.fn (flow % 65536)).isSome = true →
      sealedNs u q.fn q.nsid = true → exec (.flowUnbind q numd flow desc) s = .next (takeBind q 1 (flow % 65536) d none u)) ∧
    (bindError (modifyRows u q numd (flow % 65536) d) = none →
      exec (.flowModify q numd flow desc) s = .next (takeBind q 2 (flow % 65536) d none u))) ∧
  (∀ (s : State) (b : BindReq), s.ing.binds = [b] →
    (dueAt s b.at_ = true → exec .bindCommit s = .next (commitBind b { s with ing := { s.ing with binds := [] } })) ∧
    (dueAt s b.at_ = false → exec .bindCommit s = .next s))) ∧
  (∀ (s u : State) (q : Sqe) (numd action : Nat) (desc d : Bytes), IoOk q s u → badEntry q = false → q.nsid = 0 →
    xferError q.xfer false ((numd + 1) * 4) = none → (numd + 1) * 4 ≤ desc.length → d = numdData numd desc → leAt d 2 2 = (numd + 1) * 4 →
    (ringBad action d = false → leAt d 24 2 < vectors u q.fn →
      exec (.ringBind q numd action 0 desc) s = .next (done q .success 0 0 (updFn q.fn (fun x => { x with ring := some {
        slots := leAt d 4 4, addr := leAt d 8 8, cons := leAt d 16 8, vector := leAt d 24 2, items := byteAt d 26 } }) u))) ∧
    (ringBad action d = true →
      exec (.ringBind q numd action 0 desc) s = .next (done q .invalidField (0xFFFF + 65536) 0 u)) ∧
    (ringBad action d = false → vectors u q.fn ≤ leAt d 24 2 →
      exec (.ringBind q numd action 0 desc) s = .next (done q .invalidInterruptVector 0 0 u)) ∧
    (numd = 0 → byteAt d 0 = 2 → byteAt d 1 = 1 →
      exec (.ringRemove q numd 0 desc) s = .next (done q .success 0 0 (updFn q.fn (fun x => { x with ring := none }) u))))

/-- Ports (R108, R109, R110, R122): enabling sets the port's bit; a link that comes up or is lost changes only the port's own link
registers and, but for a mode change, leaves one LINK record; a link in MODE 3 takes the rate that the PHY signals (R108);
the transmit polarity toggles only without link, with lock and the receive polarity shown; an ARP request or a
neighbour solicitation for the port's own address is answered and nothing else changes. -/
def Obligations.Ports : Prop :=
  ∀ (s u : State) (frac p mac ip mbps : Nat) (inv fault : Bool), p < 4 → u = atFrac frac s →
    (bitAt (getF s ING_CTL_PORT_EN) p = false →
      exec (.portEnable p) s = .next (applyPortEn (setF ING_CTL_PORT_EN (getF s ING_CTL_PORT_EN + 2 ^ p) s))) ∧
    (bitAt (getF s ING_CTL_PORT_EN) p = true → exec (.portEnable p) s = .next s) ∧
    ((getPort u p).running = true → flagF u (ING_PORT_LINK p) = false → (getPort u p).quiet = false →
      exec (.portLinkUp frac p ⟨inv, mbps⟩) s = .next (linkRec p 8 (setF (ING_PORT_LINK p) 1 (setF (ING_PORT_LOCK p) 1
        (setF (ING_PORT_RX_INV p) (bit inv) (setF (ING_PORT_AN_DONE p) (bit (2 ≤ (getPort u p).mode))
          (setF (ING_PORT_REMOTE_FAULT p) 0 (updPort p (fun y => { y with
          quiet := false, sgmii := if (getPort u p).mode = 3 then some mbps else y.sgmii }) u)))))))) ∧
    (flagF u (ING_PORT_LINK p) = true → exec (.portLinkLost frac p) s = .next (linkRec p 7 (dropLink p u))) ∧
    (flagF u (ING_PORT_LINK p) = false → exec (.portLinkLost frac p) s = .next u) ∧
    ((getPort s p).running = true → flagF s (ING_PORT_LINK p) = false → 2 ≤ (getPort s p).mode →
      flagF s (ING_PORT_TX_INV_AUTO p) = true →
      exec (.txPolarityToggle p ⟨fault, inv⟩) s = .next (setF (ING_PORT_TX_INV p) (1 - getF s (ING_PORT_TX_INV p))
        (setF (ING_PORT_LOCK p) 1 (setF (ING_PORT_RX_INV p) (bit inv) s)))) ∧
    ((getPort s p).running = true → flagF s (ING_PORT_LINK p) = false → (getPort s p).mode ≤ 1 →
      flagF s (ING_PORT_TX_INV_AUTO p) = true → ∀ r, r = setF (ING_PORT_REMOTE_FAULT p) (bit fault)
        (setF (ING_PORT_LOCK p) 1 (setF (ING_PORT_RX_INV p) (bit inv) s)) →
      exec (.txPolarityToggle p ⟨fault, inv⟩) s =
        .next (if fault then setF (ING_PORT_TX_INV p) (1 - getF s (ING_PORT_TX_INV p)) r else r)) ∧
    (flagF s (ING_PORT_LINK p) = true →
      exec (.txPolarityToggle p ⟨fault, inv⟩) s = .next s ∧
      (flagF s (ING_PORT_ARP_EN p) = true → getF s (ING_PORT_IPV4 p) ≠ 0 →
        ∃ b, exec (.arpRequest p mac ip (getF s (ING_PORT_IPV4 p))) s = .next (emit (.frame p b) s)) ∧
      (getF s (ING_PORT_IPV4 p) ≠ 0 → exec (.arpRequest p mac ip 0) s = .next s) ∧
      (flagF s (ING_PORT_NDP_EN p) = true → portIpv6 s p ≠ 0 →
        ∃ b, exec (.neighbourSolicitation p mac ip (portIpv6 s p)) s = .next (emit (.frame p b) s)) ∧
      (portIpv6 s p ≠ 0 → exec (.neighbourSolicitation p mac ip 0) s = .next s))

/-- A received frame (R111, R116 to R119, R124, R125): it is counted; an IEEE 1588 event message on the PTP port is not stored; a bad or
unmatched one, one that READ-ONLY drops and one of a flow that PARK does not store change only its port's counters (the last two, and a
packet without a whole RTP header that hits several entries: the model's choice, notes/assumptions/141); a packet of a flow that meets a dirty limit, a full buffer or a bad length is refused with the record kind of its cause, in that order; a
duplicate is counted and not stored; any other is stored under its sequence number. -/
def Obligations.FrameReceived : Prop :=
  (∀ (s u : State) (frac p kib : Nat) (frame : Bytes) (bad room : Bool), p < 4 → u = atFrac frac s →
    ((getPort u p).running = false ∨ flagF u (ING_PORT_LINK p) = false ∨ u.ing.paused = true →
      exec (.frameReceived frac p frame bad room kib) s = .next u) ∧
    ((getPort u p).running = true → flagF u (ING_PORT_LINK p) = true → u.ing.paused = false →
      exec (.frameReceived frac p frame bad room kib) s = .next (receiveFrame p frame bad room
        (setPanic p (getF u (ING_PORT_PANIC_KIB p) < kib) (setF (ING_PORT_LEVEL_KIB p) (min 256 kib) u))))) ∧
  (∀ (s u : State) (p : Nat) (frame : Bytes) (bad room : Bool), u = updPort p (fun y => { y with frames := cnt32 y.frames }) s →
    ∀ q, q = parseFrame (getF s (ING_PORT_MAX_FRAME p)) bad frame →
    (p = getF s STK_CTL_PTP_PORT → ptpEvent frame q = true → receiveFrame p frame bad room s = u) ∧
    (p ≠ getF s STK_CTL_PTP_PORT ∨ ptpEvent frame q = false →
      (q = .bad → receiveFrame p frame bad room s = updPort p (fun y => { y with bad := cnt32 y.bad }) u) ∧
      (q = .unmatched → receiveFrame p frame bad room s = updPort p (fun y => { y with unmatched := cnt32 y.unmatched }) u) ∧
      (∀ k v fid x, q = .pkt k →
        (12 ≤ k.udp.length → v = countLookup 1 (pktKey p k (beAt k.udp 8 4)) u) → (k.udp.length < 12 → v = incF SIV_LOOKUPS 1 u) →
        (classify v p k = none → receiveFrame p frame bad room s = updPort p (fun y => { y with unmatched := cnt32 y.unmatched }) v) ∧
        (classify v p k = some (fid, x) →
          (s.mode.cur = .readOnly ∨ s.mode.cur = .park ∧ x.parks = false →
            receiveFrame p frame bad room s = updPort p (fun y => { y with unmatched := cnt32 y.unmatched }) v) ∧
          (s.mode.cur ≠ .readOnly → s.mode.cur ≠ .park ∨ x.parks = true →
            receiveFrame p frame bad room s = takePkt fid (learnSsrc x k) k room (setFlow fid (learnSsrc x k) v)))))) ∧
  (∀ (s : State) (fid : Nat) (x : Flow) (k : Pkt) (room : Bool), 4 ≤ k.udp.length → ∀ n, n = beAt k.udp 2 2 →
    (atDirtyLimit s = true → takePkt fid x k room s = refusePkt fid 3 k.udp.length (some n) s) ∧
    (atDirtyLimit s = false →
      takePkt fid x k true s = refusePkt fid 5 k.udp.length (some n) s ∧
      (parseRtp k.udp = none → takePkt fid x k false s = refusePkt fid 6 k.udp.length (some n) s) ∧
      (∀ r, parseRtp k.udp = some r →
        (nsFull s x r.payload.length = true → takePkt fid x k false s = refusePkt fid 10 k.udp.length (some n) s) ∧
        (nsFull s x r.payload.length = false → x.left = 0 → takePkt fid x k false s = refusePkt fid 2 k.udp.length (some n) s) ∧
        (nsFull s x r.payload.length = false → x.left ≠ 0 →
          ((seqTrack r.seq (now s) true x).1 = none → takePkt fid x k false s =
            setFlow fid { x with dup := cnt32 x.dup, touched := true, seen := true, silent := false, idle := 0 } s) ∧
          (∀ fl, (seqTrack r.seq (now s) true x).1 = some fl →
            takePkt fid x k false s = storeUnit fid r fl (seqTrack r.seq (now s) true x).2 s)))))

/-- Silence and summaries (R122, R126, R127): one SILENT gap for a flow that has been idle for its threshold, none again while it stays
silent; posts that wait are taken once and all; an entry is written with the items that fit and LOST goes back to 0; an entry for a full ring,
or for a function that the host cannot be reached for, is not written and counts as lost. -/
def Obligations.SilenceAndSummaries : Prop :=
  (∀ (s u : State) (frac fid : Nat) (x : Flow), u = atFrac frac s → mget u.ing.flows fid = some x →
    (x.silent = true → exec (.silentTimeout frac fid) s = .next u) ∧
    (x.idle < getF u ING_CTL_SILENT_STROKES → exec (.silentTimeout frac fid) s = .next u) ∧
    (getF u ING_CTL_SILENT_STROKES ≠ 0 → getF u ING_CTL_SILENT_STROKES ≤ x.idle → x.silent = false →
      flagF u (ING_PORT_LINK x.port) = true → u.mode.cur ≠ .park ∨ x.parks = true →
      exec (.silentTimeout frac fid) s = .next (setFlow fid { gapAdd 9 none 0 0 (now u) x with
        silent := true, gaps := mset x.gaps 9 { first := x.e.getD 0, dtime := now u } } u))) ∧
  (∀ (s u : State) (cons : List (Nat × Nat)), u = { s with ing := { s.ing with posts := [] } } →
    (s.ing.posts = [] → exec (.summaryPost cons) s = .next s) ∧
    (∀ p, s.ing.posts = [p] → exec (.summaryPost cons) s = .next (postSummary cons p u) ∧
      ∀ r, (getFn s p.fn).ring = some r → ∀ lost,
        lost = updFn p.fn (fun x => { x with ring := some { r with lost := satAdd r.lost 1 (2 ^ 32 - 1) } }) u →
        (hostSide u p.fn = false ∨ (getFn u p.fn).d3 = true ∨ (getFn u p.fn).flr.isSome = true →
          exec (.summaryPost cons) s = .next lost) ∧
        ((mget cons p.fn).getD 0 % r.slots = (r.prod + 1) % r.slots → r.prod < r.slots → exec (.summaryPost cons) s = .next lost) ∧
        (∀ k, hostSide u p.fn = true → (getFn u p.fn).d3 = false → (getFn u p.fn).flr = none → 1 < r.slots →
          (mget cons p.fn).getD 0 % r.slots = r.prod → k = min p.items.length (min (r.slots - 2) 255) →
          exec (.summaryPost cons) s = .next (noteSummary p.fn r.vector (writeSlots p.fn
            ((le 1 1 ++ le 1 k ++ le 1 (min 255 (p.items.length - k)) ++ zeros 1 ++ le 4 r.lost ++ le 8 p.stroke ++ le 4 p.flows
              ++ le 4 (min (2 ^ 32 - 1) p.bytes) ++ le 2 (min 65535 p.lost) ++ le 2 (min 65535 p.gaps) ++ le 4 p.packets)
              :: p.items.take k)
            (updFn p.fn (fun x => { x with ring := some { r with lost := 0 } }) u))))))

/-! ### Flash media and the mount -/

/-- Operations on a die (R165 to R175, R179, R203, R205). The codewords of a read that decode are counted and tracked; when all of
them have decoded the read is delivered and the die takes its next operation; those that have not are tried again while
LDP_CTL.RETRIES lasts, and then read soft, one at a time; a soft read waits for the deep decoder. A program or erase ends as its
status says, and a QLC die of two passes runs the second. A suspend gives the die to a queued read once the operation has run its
slice; a status poll is only sent. Another kind of event than the running operation's changes nothing.

Re-centring (R166): of a trained channel that is not fenced, when its temperature has moved by MED_DRIFT.TEMP_C and the dies of
the chip enable are idle, each of the four chip enables is re-centred once; with the last one the temperature of the training is
the present one. Without that drift nothing happens. -/
def Obligations.FlashOperations : Prop :=
  (∀ (s u : State) (die frac : Nat) (q : QueuedOp) (res : List DecodeRes) (pass : Bool), (getDie s die).running = some q →
    exec (.nandStatusPoll die) s = .next (emit (.nand (die / 16) die 7 0) s) ∧
    (∀ unit count rs left t, q.op = .read unit count → u = countRead die unit s → rs = q.cws.zip res →
      left = q.cws.filter (fun k => !rs.any (fun e => e.1 == k && hardOk u e.2)) →
      t = (rs.filter (fun e => hardOk u e.2)).foldl (hardDone die q.tries) u →
      (left = [] → exec (.nandReadDone die res) s =
        .next (settleOps (idleDie die (place (deliverOp die { q with tries := 0, left := none } true t))))) ∧
      (left ≠ [] → q.tries < getF u LDP_CTL_RETRIES → exec (.nandReadDone die res) s =
        .next (settleOps (retryRead die { q with tries := q.tries + 1, left := some left } t))) ∧
      (left ≠ [] → getF u LDP_CTL_RETRIES ≤ q.tries → exec (.nandReadDone die res) s =
        .next (settleOps (idleDie die (softReads die q left t)))) ∧
      exec (.nandProgramDone die pass) s = .next s ∧ exec (.nandEraseDone die pass) s = .next s) ∧
    (∀ unit, q.op = .readSoft unit → exec (.nandReadDone die res) s =
      .next (settleOps (idleDie die { s with ftl := { s.ftl with deepQ := s.ftl.deepQ ++ [{
        die := die, unit := unit, cls := q.pos - 2, waited := 0, req := q }] } }))) ∧
    (∀ band slot, q.op = .program band slot →
      (slotCws die ≠ 64 ∨ Config.twoPass die = false ∨ q.tries ≠ 0 →
        exec (.nandProgramDone die true) s = .next (idleDie die (slotPass die band slot s))) ∧
      (slotCws die = 64 → Config.twoPass die = true → q.tries = 0 →
        exec (.nandProgramDone die true) s = .next (runOp die { q with tries := 1 } s)) ∧
      exec (.nandProgramDone die false) s = .next (idleDie die (slotFail die band slot s)) ∧
      exec (.nandReadDone die res) s = .next s) ∧
    (∀ member band, q.op = .erase member band →
      exec (.nandEraseDone die true) s = .next (idleDie die (memberErased die member band s)) ∧
      exec (.nandReadDone die res) s = .next s ∧
      (u = atFrac frac s → (getDie u die).running = some q →
        (getDie u die).suspends < min (getF u (MED_SUSP_ERS_MAX (die / 16))) (Config.eraseSuspendLimit die) →
        getF u (MED_SUSP_ERS_SLICE_US (die / 16)) ≤ ranUs u die →
        (getDie u die).suspended = none → (∃ z ∈ (getDie u die).queue, z.pos = 2 ∧ ∃ a b, z.op = .read a b) →
        exec (.operationSuspend ⟨frac, die⟩) s = .next (nextOp die (incF (MED_SUSPENDS (die / 16)) 1 (emit (.nand (die / 16) die 6 0)
          (updDie die (fun y => { y with running := none, suspended := some q, suspends := y.suspends + 1, served := 0 }) u))))))) ∧
  (∀ (s : State) (ch ce : Nat) (k : Chan), k = getChan s ch → ce < 4 →
    (drifted s ch = false → exec (.dqsRecenter ch ce) s = .next s) ∧
    (flagF s (MED_STATUS_TRAINED ch) = true → flagF s (MED_STATUS_CH_FENCED ch) = false → drifted s ch = true →
      (∀ l, l < 4 → (getDie s (ch * 16 + ce * 4 + l)).running = none) → k.ces.contains ce = false →
      (k.ces.length = 3 → exec (.dqsRecenter ch ce) s = .next (emit (.nand ch (ch * 16 + ce * 4) 9 ce)
        { s with ftl := { s.ftl with chans := mset s.ftl.chans ch { k with temp := chanTemp s ch, ces := [] } } })) ∧
      (k.ces.length ≠ 3 → exec (.dqsRecenter ch ce) s = .next (emit (.nand ch (ch * 16 + ce * 4) 9 ce)
        { s with ftl := { s.ftl with chans := mset s.ftl.chans ch { k with ces := k.ces ++ [ce] } } }))))

/-- A die that answers nothing in time (R165): it is reset and the operation fails, with what it had suspended and a blot; a second
timeout within 1,024 strokes fences it; with no operation running nothing happens.

Codewords that need more than a read (R174, R175, R177, R178, R191, R192): the deep decoder takes the codeword that R178 puts
first among those with allotment, and it is recovered, or goes to the stripe rebuild; without one nothing happens. A rebuild
whose members have all been read is recovered where none of them is lost and the block is refreshed; else the codeword is lost. A
rebuilt die leaves the list with a FAULT record. -/
def Obligations.FlashRecovery : Prop :=
  ((∀ (s : State) (die : Nat), (getDie s die).running = none → exec (.nandTimeout die) s = .next s) ∧
  ∀ (s u : State) (die other : Nat) (q : QueuedOp) (again : Bool), (getDie s die).running = some q →
    again = (getDie s die).timeoutAt.any (fun t => s.time.stroke ≤ t + 1024) →
    u = (getDie s die).suspended.toList.foldl (fun a p => opTimedOut die p a)
      (blot 0x0402 2 die (le 1 (opCode q.op) ++ le 1 (bit again)) (opTimedOut die q (emit (.nand (die / 16) die 8 0)
        (updDie die (fun y => { y with
          running := none, suspended := none, served := 0, timeoutAt := some s.time.stroke }) s)))) →
    other ∈ usableDies u → other / 16 = die / 16 → (getDie u other).timeoutAt ≠ some s.time.stroke →
    exec (.nandTimeout die) s = .next (settleOps (if again then fenceDie die 1 u else startDie die u))) ∧
  ((∀ (z s v : State) (frac : Nat) (w : DeepWait) (res : DecodeRes), s = atFrac frac z →
    (nextDeep s = none → exec (.deepDecodeDone frac res) z = .next s) ∧
    (nextDeep s = some w → v = chargeDeep w s →
      (res.decoded = true ∨ res.up + res.down ≤ 360 → exec (.deepDecodeDone frac res) z =
        .next (settleOps (recovered w.die w.unit true (incF LDP_DEEP_OK 1 v)))) ∧
      (res.decoded = false → 360 < res.up + res.down → w.req.why ≠ 3 → w.req.why ≠ 6 → exec (.deepDecodeDone frac res) z =
        .next (settleOps (startRebuild w.die w.unit w.req (incF LDP_DEEP_FAIL 1 v)))) ∧
      (res.decoded = false → 360 < res.up + res.down → w.req.why = 3 ∨ w.req.why = 6 → exec (.deepDecodeDone frac res) z =
        .next (settleOps (recovered w.die w.unit false (incF LDP_DEEP_FAIL 1 v)))))) ∧
  (∀ (z s v : State) (frac : Nat) (r : Rebuild), s = atFrac frac z → s.ftl.rebuilds = [r] → v = { s with ftl := { s.ftl with rebuilds := [] } } →
    (r.waits ≠ [] → exec (.stripeRebuildDone frac r.die r.unit) z = .next s) ∧
    (r.waits = [] → r.lost = 0 → exec (.stripeRebuildDone frac r.die r.unit) z =
      .next (settleOps (recovered r.die r.unit true (scheduleRefresh r.die (memberOf r.die r.unit) v)))) ∧
    (r.waits = [] → r.lost ≠ 0 → ∀ c, mediaAt v r.die r.unit = some c → exec (.stripeRebuildDone frac r.die r.unit) z =
      .next (settleOps (recovered r.die r.unit false (loseCodeword r.die r.unit c v))))) ∧
  (∀ (s : State) (die : Nat),
    (s.ftl.rebuildDie = [die] → rebuildUnits s die = 0 →
      exec (.dieRebuildDone die) s = .next (faultRec 0x101 die s.time.stroke 0 (setF FTL_STATUS_REBUILD 0
        { s with ftl := { s.ftl with rebuildDie := [] } }))) ∧
    (rebuildUnits s die ≠ 0 → exec (.dieRebuildDone die) s = .next s)))

/-- Bring-up and the mount (R69, R226, R229, R413): bring-up waits for the compute die and for the boot copy; the mount ends BOOT
only after bring-up, and on media that holds no journal counts the spare pool's first level; NB5210 media of more than 8,192 GiB ends in SAFE with a blot; the scan converts only in a mode that seals. -/
def Obligations.MediaBoot : Prop :=
  (∀ (s : State) (chans : List ChanUp) (dram : DramUp) (gib : Nat) (ok : Bool),
    (s.mode.stage ≠ .computeGood → exec (.mediaBringupStart chans dram gib ok) s = .next s) ∧
    (s.mode.cur = .boot → flagF s FWU_STATUS_COPY_DUE = true → exec (.mediaBringupStart chans dram gib ok) s = .next s) ∧
    (s.mode.stage = .computeGood → s.mode.cur = .boot → flagF s FWU_STATUS_COPY_DUE = false → ∀ u r,
      u = (List.range 16).foldl (fun a c => bringUpChannel ((chans.find? (fun x => x.channel == c)).getD (silentChannel c)) a)
        (let v := setF CIP_STATUS_DRBG_OK (bit ok) s; { v with ftl := { v.ftl with rawGib := gib } }) →
      r = trainDram dram u → s.mode.bootSafe = false →
      exec (.mediaBringupStart chans dram gib ok) s =
        .next (if r.2 then enterSafe 0x0C r.1 else showClocks { r.1 with mode := { r.1.mode with stage := .bringUp } }))) ∧
  (∀ (s u : State) (frac : Nat) (media : MountMedia), u = atFrac frac s →
    (u.mode.cur ≠ .boot ∨ u.mode.stage ≠ .bringUp → exec (.mountComplete frac media) s = .next u) ∧
    (u.mode.cur = .boot → u.mode.stage = .bringUp → u.time.bootWait = false →
      (∀ t, finishMount u = t → exec (.mountComplete frac .native) s = .next (if t.ftl.formatted then t else
        { t with ftl := { t.ftl with formatted := true, poolFirst := (sparePool t).toNat } })) ∧
      (∀ gib nss, u.ftl.formatted = false → 8192 < gib →
        exec (.mountComplete frac (.nb5210 gib nss)) s = .next (enterSafe 0x0C (blot 0x0802 3 0 (le 4 gib) u))))) ∧
  (∀ (s : State) (us : List OldUnit),
    (s.mode.cur.seals = false → exec (.nb5210ScanComplete us) s = .next s) ∧
    (∀ n x, s.mode.cur.seals = true → s.nss = [(n, x)] → x.busy = .converting →
      ∃ t, exec (.nb5210ScanComplete us) s = .next t ∧ t.ftl.formatted = true ∧ t.ftl.sinceCheckpoint = 64))

/-! ### The Ductus and the engines -/

/-- Dispatch (R279, R280): the first dispatchable entry of the lists leaves its list and runs, an engine node charged the units of
its job and taking its key and its length, its job joining its engine (R19, R309) and its media reads going to the dies (R168), a NIB
node placed on the core that R279 chooses; a job that breaks a check of its dispatch fails (R301, R331); in a mode that dispatches
nothing, nothing happens. After each event the signature unit takes what has reached it (R21).

Ends and interruptions of nodes (R264, R276, R277, R281, R282, R284, R286): a running job that has an instance of its engine, the
signature unit or its media reads ends as its kind says, its last group charged; one that has not goes on waiting; a node that waits
beyond its limit fails with GRAPH_TIMEOUT; a core takes its events between bundles; a long-running node gives way only when R281 gives
a reason, and first the one of the lowest class that was dispatched last; a machine check stops the core. -/
def Obligations.NodeEvents : Prop :=
  (∀ (s u : State) (frac h n core : Nat) (g : Graph) (r : GRun) (d : GNode) (x : NodeRun), u = chargeCores (atFrac frac s) →
    getGraph u h = some g → nodeDesc u h n = some d → nodeRun u h n = some x → g.run = some r →
    (u.mode.cur.dispatches = false → exec (.nodeDispatch frac h n core) s = .next (signTurn u)) ∧
    (u.mode.cur.dispatches = true → (graphClass u h, h, n) ∈ u.duct.ready → dispatchable u h n = true → firstInLine u h n = true →
      ∀ v, v = { u with duct := { u.duct with ready := dropFirst (fun e => e.2.1 == h && e.2.2 == n) u.duct.ready } } →
      (d.kind = .nib → chooseCore u h d x = some core →
        exec (.nodeDispatch frac h n core) s = .next (signTurn (showDuct (placeNode h n core g r d x v)))) ∧
      (d.kind = .nib → chooseCore u h d x ≠ some core → exec (.nodeDispatch frac h n core) s = .next (signTurn u)) ∧
      (d.kind ≠ .nib → ∀ st, dispatchError u h n d = some st →
        exec (.nodeDispatch frac h n core) s = .next (signTurn (showDuct (jobFail h n 0 st v)))) ∧
      (d.kind ≠ .nib → dispatchError u h n d = none → ∀ k w, k = unitsFor u h n d →
        w = updNode h n (fun y => { y with st := 2, used := y.used + k, waited := 0, job := takeJob u h n d })
          (updRun h (fun q => { q with engine := q.engine + k, gEng := q.gEng - k, dEng := q.dEng + (k - q.gEng) }) v) →
        exec (.nodeDispatch frac h n core) s =
          .next (signTurn (showDuct (startMedia h n d (streamOut h n d (joinJob h n d w)))))))) ∧
  (∀ (s u : State) (frac h n core : Nat) (res : JobRes), u = atFrac frac s →
    (∀ d x, nodeDesc u h n = some d → nodeRun u h n = some x →
      (x.st = 2 → served u h n d = true →
        exec (.nodeEnd frac h n res) s = .next (signTurn (engineEnd h n d res (chargeLast h n d u)))) ∧
      (x.st = 2 → served u h n d = true → d.kind = .join →
        exec (.nodeEnd frac h n res) s = .next (signTurn (jobDone h n 0 (chargeLast h n d u)))) ∧
      (x.st ≠ 2 ∨ served u h n d = false → exec (.nodeEnd frac h n res) s = .next (signTurn u))) ∧
    (∀ g d x r, getGraph s h = some g → nodeDesc s h n = some d → nodeRun s h n = some x → g.run = some r →
      (r.state = 0 → x.st = 3 → nodeLimit g r d ≠ 0 → nodeLimit g r d < x.waited →
        exec (.nodeWaitTimeout h n) s = .next (incF DCT_TIMEOUTS 1 (failNode h n 0 3 .graphTimeout s))) ∧
      (x.waited ≤ nodeLimit g r d → exec (.nodeWaitTimeout h n) s = .next s)) ∧
    (core < 32 → getF u (NIB_CORE_STATE core) = 2 →
      exec (.nibInterrupt frac core) s = .next (deliverEvents core u) ∧
      ((nibCore u core).tick = false → (nibCore u core).notify = false → (nibCore u core).preempt = false →
        exec (.nibInterrupt frac core) s = .next u) ∧
      (∀ w, w = chargeCores u → preemptReason w core = false → exec (.nodePreempt frac core) s = .next w) ∧
      (∀ w d, w = chargeCores u → getF w (NIB_CORE_STATE core) = 2 → flagF w DCT_CTL_PREEMPT_EN = true →
        nodeDesc w (getF w (NIB_CORE_GRAPH core)) (getF w (NIB_CORE_NODE core)) = some d → bitAt d.flags 1 = false →
        getF w DCT_CTL_MIN_US ≤ (now w - (nibCore w core).since) * w.time.period / 65536 → slotFree w = true →
        preemptReason w core = true →
        (∀ j, j < 32 → candidate w j = true → graphClass w (getF w (NIB_CORE_GRAPH j)) < graphClass w (getF w (NIB_CORE_GRAPH core)) ∨
          (graphClass w (getF w (NIB_CORE_GRAPH j)) = graphClass w (getF w (NIB_CORE_GRAPH core)) ∧
            (nibCore w j).since ≤ (nibCore w core).since)) →
        exec (.nodePreempt frac core) s = .next (deliverEvents core (setCore core { nibCore w core with preempt := true } w))) ∧
      (∀ v, v = blot 0x0701 3 core (le 2 0xFF ++ le 4 ((nibCore u core).pc + 65536 * bit (nibCore u core).xip)) u →
        getF v (NIB_CORE_GRAPH core) = 0 →
        exec (.nibMachineCheck frac core) s = .next (setF (NIB_CORE_STATE core) 6 v))) ∧
    (32 ≤ core → exec (.nibMachineCheck frac core) s = .next u ∧ exec (.nibInterrupt frac core) s = .next u))

/-- Engine events (R297, R298, R330): a job on a lane or a pipeline is charged its group at the group boundary and goes on, or, where
sealing, a higher class, its own class or a spent allotment calls for the instance (`yieldWhy`, R298), saves its context and waits for
another turn, or, with no context free, goes on; a compression block counts its KiB, is charged, counts as raw where it does not
shrink, and gives the instance up where R298 asks for it; an event for a job that holds no instance changes nothing.

SIEVE nodes (R338, R339, R340, R341): the operation of a running node does the node's records and ends it; a row for another
operation than the node's changes nothing.

The digest feed and the key slots (R292 to R295, R304, R315): OPEN starts a feed unless one is open; words count until the
declared length, each whole block group charged to the PF's class; LAST closes it or ends it in a mismatch; DONE gives the digest, or with COMPARE only whether it is equal, or FAULT and a blot for a faulty flag pair; ABORT ends
it; SLOT_CLEAR empties one slot or all. -/
def Obligations.EngineEvents : Prop :=
  (∀ (z s : State) (frac h n : Nat) (d : GNode), s = atFrac frac z → nodeDesc s h n = some d →
    (∀ e u, (d.kind = .digest ∧ e = 0 ∨ d.kind = .cipher ∧ e = 1) → (h, n) ∈ (engQ s e).on →
      u = spendEng e (graphClass s h) (groupCost d) s →
      (yieldWhy u e (h, n) = 0 → exec (.digestGroupDone frac h n) z = .next u) ∧
      (∀ w, yieldWhy u e (h, n) = w → w ≠ 0 →
        (mayYield u d (w == 1) = true → exec (.digestGroupDone frac h n) z =
          .next (incF DIG_YIELDS 1 (fillEng e (leaveTurn e (h, n) (saveContext h n d (w == 1) u))))) ∧
        (mayYield u d (w == 1) = false → exec (.digestGroupDone frac h n) z = .next (incF DIG_NO_CONTEXT 1 u)))) ∧
    (∀ e, (jobHold s h n).eng = some e → (h, n) ∈ (engQ s e).on →
      (∀ u v, d.kind = .decompress → u = incF (if e == 2 then CMP_LINE_KIB else CMP_LEVELS_KIB) 64
          { s with crypt := { s.crypt with blocks := countBlock s h n } } → v = spendEng e (graphClass u h) 65536 u →
        (yieldWhy v e (h, n) = 0 → ∀ bad, exec (.compressBlockDone h n bad) s = .next v) ∧
        (yieldWhy v e (h, n) ≠ 0 → ∀ bad, exec (.compressBlockDone h n bad) s = .next (fillEng e (leaveTurn e (h, n) v)))) ∧
      (∀ at_ b kib u raw v, d.kind = .compress → at_ = blockAt s h n d * 2 ^ pByte d 27 →
        b = slotRead s h d 0 at_ (min (2 ^ pByte d 27) ((jobHold s h n).len - at_)) → kib = ceilDiv b.length 1024 →
        u = incF (if e == 2 then CMP_LINE_KIB else CMP_LEVELS_KIB) kib { s with crypt := { s.crypt with blocks := countBlock s h n } } →
        raw = isRaw (pByte d 24) (pByte d 25) b →
        v = spendEng e (graphClass (if raw then incF CMP_RAW_BLOCKS 1 u else u) h) (kib * 1024) (if raw then incF CMP_RAW_BLOCKS 1 u else u) →
        (yieldWhy v e (h, n) = 0 → exec (.compressBlockDone h n false) s = .next v) ∧
        (yieldWhy v e (h, n) ≠ 0 → exec (.compressBlockDone h n false) s = .next (fillEng e (leaveTurn e (h, n) v))))) ∧
    ((d.kind ≠ .digest ∧ d.kind ≠ .cipher ∨ (∀ e, (h, n) ∉ (engQ s e).on)) →
      exec (.digestGroupDone frac h n) z = .next s) ∧
    ((d.kind ≠ .compress ∧ d.kind ≠ .decompress ∨ (∀ e, (h, n) ∉ (engQ s e).on)) →
      ∀ bad, exec (.compressBlockDone h n bad) s = .next s)) ∧
  (∀ (s : State) (h n : Nat) (bad : List Nat) (d : GNode) (x : NodeRun), nodeDesc s h n = some d → nodeRun s h n = some x →
    d.kind = .sieve →
    (x.st = 2 →
      (pByte d 24 = 1 → exec (.sieveLookup h ⟨n, bad⟩) s = .next (sieveJob h n d bad s) ∧ exec (.sieveWrite h n) s = .next s) ∧
      (pByte d 24 = 2 → exec (.sieveWrite h n) s = .next (sieveJob h n d [] s) ∧ exec (.sieveInsert h n) s = .next s) ∧
      (pByte d 24 = 3 → exec (.sieveInsert h n) s = .next (sieveJob h n d [] s) ∧ exec (.sieveInvalidate h n) s = .next s) ∧
      (pByte d 24 = 4 → exec (.sieveInvalidate h n) s = .next (sieveJob h n d [] s) ∧ exec (.sieveRead h n) s = .next s) ∧
      (pByte d 24 = 5 → exec (.sieveRead h n) s = .next (sieveJob h n d [] s) ∧ exec (.sieveLookup h ⟨n, bad⟩) s = .next s)) ∧
    (x.st ≠ 2 → exec (.sieveLookup h ⟨n, bad⟩) s = .next s ∧ exec (.sieveWrite h n) s = .next s ∧ exec (.sieveInsert h n) s = .next s ∧
      exec (.sieveInvalidate h n) s = .next s ∧ exec (.sieveRead h n) s = .next s)) ∧
  (∀ (s : State) (v w flags : Nat),
    (s.crypt.feed.isSome = true → exec (.feedOpen v) s = .next (setF DIG_FEED_STATUS_BUSY 1 s)) ∧
    (s.crypt.feed = none → bits v 2 0 = 0 → exec (.feedOpen v) s = .next (setF DIG_FEED_STATUS_BAD 1 s)) ∧
    (s.crypt.feed = none → bits v 2 0 = 1 → bitAt v 3 = false → bits v 9 5 = 0 →
      exec (.feedOpen v) s = .next (holdFeed true (setFeed (some {
        alg := 1, hmac := false, compare := bitAt v 4, trunc := 32, key := ((keySlot s (bits v 25 16)).map (·.key)).getD [],
        len := getF s DIG_FEED_LEN_LO + getF s DIG_FEED_LEN_HI * 2 ^ 32 }) s))) ∧
    (s.crypt.feed = none → exec (.feedData w) s = .next s ∧ exec (.feedLast w) s = .next s ∧ exec .feedAbort s = .next s ∧
      exec (.feedDone flags) s = .next s) ∧
    (∀ f, s.crypt.feed = some f →
      exec .feedAbort s = .next (holdFeed false (setFeed none s)) ∧
      (f.closed = false → f.count + 4 ≤ f.len →
        ∀ u, u = setFeed (some { f with count := f.count + 4, data := f.data ++ le 4 w }) s →
        ((f.count + 4) % groupBytes f.alg ≠ 0 → exec (.feedData w) s = .next u) ∧
        ((f.count + 4) % groupBytes f.alg = 0 → exec (.feedData w) s = .next (spendFeed f.alg 1 u))) ∧
      (f.closed = false → f.len < f.count + 4 → exec (.feedData w) s = .next (setFeed (some { f with tooLong := true }) s)) ∧
      (f.closed = true → exec (.feedData w) s = .next s ∧ exec (.feedLast w) s = .next s) ∧
      (f.closed = false → f.tooLong = false → ∀ n t, n = f.count + getF s DIG_FEED_LASTV →
        t = setF DIG_FEED_COUNT_LO (n % 2 ^ 32) (setF DIG_FEED_COUNT_HI (n / 2 ^ 32) s) →
        (n = f.len → exec (.feedLast w) s = .next (setFeed (some
          { f with count := n, data := f.data ++ (le 4 w).take (getF s DIG_FEED_LASTV), closed := true }) t)) ∧
        (n ≠ f.len → exec (.feedLast w) s =
          .next (setF DIG_FEED_STATUS_MISMATCH 1 (clearResult (holdFeed false (setFeed none t)))))) ∧
      (f.closed = true → ∀ t, t = setF DIG_FEED_STATUS_DONE 1 (holdFeed false (setFeed none (spendFeed f.alg 1 s))) →
        (f.compare = false → exec (.feedDone flags) s = .next (setF DIG_FEED_STATUS_EQ 0 (setF DIG_FEED_STATUS_EQ_N 0
          ((List.range 16).foldl (fun a i => setF (DIG_FEED_RESULT i) (leAt (feedDigest f) (4 * i) 4) a) t)))) ∧
        (f.compare = true → flags ≠ 0 → exec (.feedDone flags) s =
          .next (blot 0x0702 2 0 (le 1 flags) (dropEq (setF DIG_FEED_STATUS_DONE 0 (setF DIG_FEED_STATUS_FAULT 1 (clearResult t)))))) ∧
        (f.compare = true → ∀ eq, eq = ((feedDigest f).take f.trunc == (expectBytes s).take f.trunc) →
          exec (.feedDone 0) s =
            .next (setF DIG_FEED_STATUS_EQ (bit eq) (setF DIG_FEED_STATUS_EQ_N (bit (!eq)) (clearResult t)))))) ∧
    exec (.slotClear v false) s =
      .next (showSlots { s with crypt := { s.crypt with slots := merase s.crypt.slots (v % 1024) } }) ∧
    exec (.slotClear v true) s = .next (showSlots { s with crypt := { s.crypt with slots := [] } }))

/-- The Sieve's registers and scan (R336, R340, R344): GO shows the first match in winner order, the highest class and then the lowest
index, and NEXT the one after it; a winner that fails its parity is treated as R340 says before GO looks again; the scan steps through
the 262,144 indexes, drops the map that a move of its block left behind (DEDUCED, notes/assumptions/146), and treats an entry whose
parity fails: a compute partition's is invalidated and the partition marked suspect. -/
def Obligations.SieveRegisters : Prop :=
  ∀ (s : State) (part : Nat),
    (∀ bad u, u = lookupParity (part % 16) (regKey s) bad s → exec (.sieveGo ⟨part, bad⟩) s =
      .next (showHit (part % 16) (matchesOf u (part % 16) (regKey s)) (1 < (matchesOf u (part % 16) (regKey s)).length)
        (countLookup (part % 16) (regKey s) (setF SIV_CMD_PART (part % 16) u)))) ∧
    lookupParity part (regKey s) false s = s ∧
    (∀ e t, matchesOf s part (regKey s) = e :: t → lookupParity part (regKey s) true s = parityError part e.1 s) ∧
    exec .sieveNext s = .next (showHit (getF s SIV_CMD_PART) (s.sieve.hits.drop 1) (flagF s SIV_RES_MULTI) s) ∧
    (∀ key e, e ∈ matchesOf s part key ↔ e ∈ partEntries s part ∧ e.2.hits key = true) ∧
    (∀ (key i j : Nat) (a b : Nat × SieveEntry), (matchesOf s part key)[i]? = some a → (matchesOf s part key)[j]? = some b → i < j → b.2.cls ≤ a.2.cls) ∧
    (flagF s SIV_SCAN_EN = false → ∀ bad, exec (.sieveScan bad) s = .next s) ∧
    (flagF s SIV_SCAN_EN = true → ∀ u, u = { s with sieve := { s.sieve with
        scanAt := (s.sieve.scanAt + 1) % 262144,
        ghosts := if s.sieve.scanAt % 1024 = 1023 then merase s.sieve.ghosts (s.sieve.scanAt / 1024) else s.sieve.ghosts } } →
      exec (.sieveScan false) s = .next u ∧
      ∀ p i, partOf s s.sieve.scanAt = some (p, i) → mhas (partEntries s p) i = true →
        exec (.sieveScan true) s = .next (parityError p i u)) ∧
    (∀ i v, 1 < part → v = setF SIV_PARITY_LOG_INDEX i (setF SIV_PARITY_LOG_PART part
        (setF SIV_PARITY_LOG_VALID 1 (incF SIV_STATUS_PARITY 1 s))) →
      parityError part i s = setF SIV_SUSPECT (getF v SIV_SUSPECT ||| 2 ^ part)
        (blot 0x0603 1 part (le 4 i) (setPart part (merase (partEntries v part) i) v)))

/-! ### DRAM, the Inkwell's check bits and the Inkstone -/

/-- The DRAM controller (R346 to R351, R354, R357): a requested point becomes pending, the present one clears a request; a gathering
begins when due by time or by temperature in RUN, LEAN and PARK, and reads the scrub count, and never begins while a change is
pending; a poll shows each channel's multiplier, at least 2 under FORCE_2X, and a hot rank sets HOT with a blot; a request that has
waited AGE_US is charged one class higher, with the excess over its budget a debt (R42; a spent class issues at no charge, R353).

Errors of Inkwell reads (R359, R361): a single-bit error is corrected and counted; an uncorrectable one is counted with a blot of
its row; programmed data and rebuilt parity lose nothing; staged data loses one run of LBAs for each run of 4 KiB parts; the state of a
stream fails its lane; a failed pounce leaves FAULT 1. -/
def Obligations.DramAndInkwell : Prop :=
  (∀ (s u : State) (frac p us bytes scrub : Nat) (temp : Int), u = atFrac frac s →
    (bitAt (getF s DRM_STATUS_AVAIL) (p % 4) = true →
      (p % 4 = getF s DRM_STATUS_POINT → exec (.dramFreqRequest p) s =
        .next (setF DRM_STATUS_PENDING 0 (setF DRM_STATUS_PENDING_POINT 0 s))) ∧
      (p % 4 ≠ getF s DRM_STATUS_POINT → exec (.dramFreqRequest p) s =
        .next (setF DRM_STATUS_PENDING 1 (setF DRM_STATUS_PENDING_POINT (p % 4) s)))) ∧
    (flagF u DRM_STATUS_PENDING = true → exec (.dramRetrainGather frac ⟨temp, scrub⟩) s = .next u) ∧
    (u.mode.cur = .run ∨ u.mode.cur = .lean ∨ u.mode.cur = .park → flagF u DRM_STATUS_PENDING = false →
      flagF u DRM_STATUS_GATHERING = false →
      getF u DRM_TRAIN_DRIFT_C ≤ (temp - u.dram.lastTemp).natAbs ∨
        getF u DRM_TRAIN_PERIOD_MS ≤ (now u - u.dram.lastTrain) * u.time.period / 65536 / 1000 →
      exec (.dramRetrainGather frac ⟨temp, scrub⟩) s = .next (setF DRM_STATUS_GATHERING 1 (setF DRM_ECS_COUNT (min (2 ^ 32 - 1) scrub)
        { u with dram := { u.dram with lastTemp := temp } }))) ∧
    (flagF u DRM_STATUS_GATHERING = true → exec (.dramGatherEnd frac) s =
      .next (setF DRM_STATUS_GATHERING 0 { u with dram := { u.dram with applyDue := true, lastTrain := now u } })) ∧
    (s.dram.force2x = false → exec (.dramRefreshPoll [1, 2, 4, 1] []) s =
      .next (setF DRM_STATUS_REFRESH_X 36 { s with dram := { s.dram with need := [0, 1, 2, 0] } })) ∧
    (s.dram.force2x = true → exec (.dramRefreshPoll [1, 2, 4, 1] []) s =
      .next (setF DRM_STATUS_REFRESH_X 101 { s with dram := { s.dram with need := [0, 1, 2, 0] } })) ∧
    (∀ mult ch rank, exec (.dramRefreshPoll mult [(ch, rank)]) s = .next (blot 0x0302 2 ch (le 1 rank) (setF DRM_STATUS_HOT 1
      (showRefresh { s with dram := { s.dram with need := mult.map multCode } })))) ∧
    (us < getF s DRM_AGE_AGE_US → ∀ cls, exec (.dramRequestPromote cls us bytes) s = .next s) ∧
    (getF s DRM_AGE_AGE_US ≤ us →
      (bytes ≤ s.dram.bulk → exec (.dramRequestPromote 3 us bytes) s =
        .next { s with dram := { s.dram with bulk := s.dram.bulk - bytes } }) ∧
      (0 < s.dram.bulk → s.dram.bulk < bytes → exec (.dramRequestPromote 3 us bytes) s =
        .next { s with dram := { s.dram with bulk := 0, bulkDebt := s.dram.bulkDebt + (bytes - s.dram.bulk) } }) ∧
      (bytes ≤ s.dram.cmd → exec (.dramRequestPromote 2 us bytes) s =
        .next { s with dram := { s.dram with cmd := s.dram.cmd - bytes } }) ∧
      (s.dram.cmd = 0 → exec (.dramRequestPromote 2 us bytes) s = .next s))) ∧
  (∀ (s : State) (off id lane : Nat) (parts : List Nat) (u : Nat → State),
    (∀ row, u row = incF DRM_INKWELL_UE 1 (blot 0x0602 3 0 (le 4 off ++ le 1 row) s)) →
    exec (.inkwellUe off .corrected) s = .next (incF DRM_INKWELL_CE 1 s) ∧
    exec (.inkwellUe off (.staged id parts)) s = .next (loseParts id parts (u 1)) ∧
    exec (.inkwellUe off .programmed) s = .next (u 2) ∧ exec (.inkwellUe off .parity) s = .next (u 3) ∧
    exec (.inkwellUe off (.streamState lane)) s = .next (laneFail lane (u 4)) ∧
    exec (.inkwellUe off .pounce) s = .next (faultRec 1 0 s.time.stroke 0 (u 5)) ∧
    exec (.inkwellUe off (.recompute id parts)) s = .next (loseParts id parts (u 6)) ∧
    (findStaged s id = none → loseParts id parts s = s))

/-- The Inkstone (R365 to R371): a program or erase that nothing refuses occupies its bank; a refused one is only reported; a read of an
idle bank fills DATA with the array's bytes, a single-bit error corrected, counted and kept by the array until the sector is erased
(which word of the 256 bytes it is, is a free value, notes/assumptions/2), and of a busy bank or an uncorrectable word is a bus fault;
the end of a program puts its 256 bytes into the array and of an erase empties the sector; a failed operation takes a spare, or with
no spare left fails its sector. -/
def Obligations.InkstoneCommands : Prop :=
  (∀ (s : State) (who addr : Nat) (data : Bytes), inkGranted s who = true →
    (inkRefusal s who 1 addr = none → exec (.inkProgram who addr data) s = .next (showInk (setInkBank (addr / 2 ^ 23)
      { inkBank s (addr / 2 ^ 23) with running := some { who := who, op := 1, addr := addr, data := fixLen 256 data } } s))) ∧
    (inkRefusal s who 2 addr = none → exec (.inkErase who addr) s = .next (showInk (setInkBank (addr / 2 ^ 23)
      { inkBank s (addr / 2 ^ 23) with running := some { who := who, op := 2, addr := addr, data := fixLen 256 [] } } s))) ∧
    (∀ m, inkRefusal s who 1 addr = some m → exec (.inkProgram who addr data) s = .next (inkReport who m s)) ∧
    (addr % 256 = 0 → addr < 2 ^ 24 →
      (bankBusy s (addr / 2 ^ 23) = false →
        (inkBadIn s addr 256 = false → exec (.inkRead who addr .good) s =
          .next (inkReport who 4 (inkFill who (inkBytesAt s addr 256) s))) ∧
        (inkBadIn s addr 256 = true → exec (.inkRead who addr .good) s =
          .next (inkReport who 4 (inkFill who (inkBytesAt s addr 256) (incF INK_ECC_CE 1 s)))) ∧
        (∀ u, u = incF INK_ECC_CE 1 s → exec (.inkRead who addr .corrected) s =
          .next (inkReport who 4 (inkFill who (inkBytesAt s addr 256) { u with freeCount := u.freeCount + 1, ink := { u.ink with
            bad := insertNew (addr / 16 + Config.freeNat u.freeCount % 16) u.ink.bad } }))) ∧
        exec (.inkRead who addr .uncorrectable) s = .next (inkReport who 256 (incF INK_ECC_UE 1 s))) ∧
      (bankBusy s (addr / 2 ^ 23) = true → ∀ chk, exec (.inkRead who addr chk) s = .next (inkReport who 256 s))) ∧
    (addr % 256 ≠ 0 → ∀ chk, exec (.inkRead who addr chk) s = .next (inkReport who 64 s))) ∧
  (∀ (s : State) (k addr : Nat) (data : Bytes), ((mget s.duct.cores k).map (·.grant4)).getD false = false →
    exec (.inkProgram (k + 2) addr data) s = .next s ∧ exec (.inkErase (k + 2) addr) s = .next s ∧
      ∀ chk, exec (.inkRead (k + 2) addr chk) s = .next s) ∧
  (∀ (s u : State) (bank pulses : Nat) (o : InkOp), (inkBank s bank).running = some o →
    u = inkPulses o.who pulses (setInkBank bank { inkBank s bank with running := none } s) →
    (o.op = 1 → exec (.inkOpDone bank pulses false) s =
      .next (showInk (inkReport o.who 4 { u with ink := { u.ink with bytes := ssetBytes inkErased u.ink.bytes o.addr o.data } }))) ∧
    (o.op = 2 → exec (.inkOpDone bank pulses false) s = .next (showInk (inkReport o.who 4
      { u with ink := { u.ink with bytes := u.ink.bytes.filter (fun e => e.1 / 32768 != o.addr / 32768),
                                   bad := u.ink.bad.filter (fun w => w / 2048 != o.addr / 32768) } }))) ∧
    (sparesFree s bank ≠ 0 → exec (.inkOpDone bank pulses true) s =
      .next (showInk (inkReport o.who 132 (listSector o true (inkApply o u))))) ∧
    (sparesFree s bank = 0 → ∀ v, v = inkReport o.who stFail (listSector o false (inkSpoil o u)) →
      (firmwareSector o.addr = true → exec (.inkOpDone bank pulses true) s = .next (showInk (setF INK_STATUS_AREA_LOST 1 v))) ∧
      (firmwareSector o.addr = false → exec (.inkOpDone bank pulses true) s = .next (showInk v)))) ∧
  (∀ (s : State) (bank pulses : Nat) (fail : Bool), (inkBank s bank).running = none →
    exec (.inkOpDone bank pulses fail) s = .next s)

/-- Settings copies (R374, R383, R454): a save that was asked for writes one copy with the next sequence; the timer saves 10 s after
the last write to a Stored field and not before; nothing is saved in PARK, DROWSE, HIBERNATE, SEAL, HALT or BOOT. -/
def Obligations.SettingsCopies : Prop :=
  ∀ (s u : State), u = setF INK_SET_SEQ (getF s INK_SET_SEQ + 1) (setF INK_STATUS_SAVE_PENDING 0 { s with ink := { s.ink with
      copies := s.ink.copies ++ [{
        seq := getF s INK_SET_SEQ + 1, format := getF s FWU_FORMAT_EXPECTED, values := storedValues s, vpd := s.ink.vpd }],
      storedAt := none, saveNow := false } }) →
    (s.mode.cur ∈ [.run, .readOnly, .lean, .safe] → flagF s INK_STATUS_SAVE_HELD = false →
      (s.ink.saveNow = true → exec .settingsSave s = .next u) ∧
      (∀ t, s.ink.storedAt = some t →
        (t * s.time.period / 65536 + 10000000 ≤ now s * s.time.period / 65536 → exec .settingsSaveTimer s = .next u) ∧
        (now s * s.time.period / 65536 < t * s.time.period / 65536 + 10000000 → exec .settingsSaveTimer s = .next s))) ∧
    (s.ink.saveNow = false → exec .settingsSave s = .next s) ∧
    (s.ink.storedAt = none → exec .settingsSaveTimer s = .next s) ∧
    (s.mode.cur ∈ [.park, .drowse, .hibernate, .seal, .halt, .boot] →
      exec .settingsSave s = .next s ∧ exec .settingsSaveTimer s = .next s)

/-! ### Oxvia links, frames and the domain -/

/-- Links (R38, R384, R389, R392): a link comes up only after a HELLO whose revision agrees, with FAULT 11h; it falls with FAULT 10h;
a HELLO is answered; a NAK and a timeout send the at most 256 unacknowledged frames again; a missed sync word and a bad frame are counted; a delay answer
that was asked for is kept. On a link that is down none of them but HELLO does anything. -/
def Obligations.OxviaLinks : Prop :=
  ∀ (s u : State) (frac l w pol lane rev min tag dev early seq ns : Nat) (p : Bytes) (rel : Bool), u = atFrac frac s →
    (∀ t d, (getLink u l).hello = some (rev, min, t, d) → oxvPowered u = true → linkPresent u l = true →
      flagF u (OXV_LINK_UP l) = false →
      (∀ top, top = (if flagF u OXV_CTL_SPLIT = true then 2 else 4) → revsAgree u rev min = true → w = 1 ∨ w = 2 ∨ w = 4 → w ≤ top →
        exec (.oxvLinkUp frac l w pol lane) s = .next (sendStatus (faultRec 0x11 l u.time.stroke w
          (setF (OXV_LINK_UP l) 1 (setF (OXV_LINK_WIDTH l) w (setF (OXV_LINK_POLARITY l) (pol % 16) (setF (OXV_LINK_LANE_MAP l)
            (lane % 256) (setF (OXV_LINK_NARROWED l) (bit (w < top)) (setF (OXV_LINK_REV_FAIL l) 0 (setF (OXV_LINK_REV l)
              (Nat.min rev (linkRev u)) (setF (OXV_LINK_PEER l) (d % 512) u))))))))))) ∧
      (revsAgree u rev min = false → exec (.oxvLinkUp frac l w pol lane) s = .next u)) ∧
    (l < 4 → flagF u (OXV_LINK_UP l) = true → exec (.oxvLinkDown frac l) s = .next (oxvDown l u)) ∧
    (flagF u (OXV_LINK_UP l) = false → exec (.oxvLinkDown frac l) s = .next u) ∧
    (oxvPowered s = true → linkPresent s l = true → ∀ a,
      a = emit (.oxv l (oxvFrame 4 0 0 (deviceId s) 0 (getLink s l).txSeq (getLink s l).rxSeq (helloPayload s)))
        (updLink l (fun k => { k with hello := some (rev % 65536, min % 65536, tag, dev % 512) }) s) →
      (revsAgree s rev min = false → exec (.helloFrame l rev min tag dev) s =
        .next (setF (OXV_LINK_PEER l) (dev % 512) (setF (OXV_LINK_REV_FAIL l) 1 a))) ∧
      (revsAgree s rev min = true → exec (.helloFrame l rev min tag dev) s =
        .next (setF (OXV_LINK_PEER l) (dev % 512) (setF (OXV_LINK_REV_FAIL l) 0
          (setF (OXV_LINK_REV l) (Nat.min rev (linkRev s) % 65536) a))))) ∧
    (oxvPowered s = false ∨ linkPresent s l = false → exec (.helloFrame l rev min tag dev) s = .next s) ∧
    (oxvAlive s l = true →
      exec (.replayTimeout l) s = .next (replayFrom l ((getLink s l).replay.take 256) s) ∧
      ((getLink s l).replay = [] → exec (.replayTimeout l) s = .next s ∧ exec (.nakFrame l seq) s = .next s) ∧
      exec (.nakFrame l seq) s = .next (replayFrom l (((getLink s l).replay.take 256).dropWhile (fun e => e.1 != seq)) s) ∧
      exec (.missedSync l early) s = .next (incF (OXV_LINK_SLIPS l) early (incF (OXV_LINK_MISSED_SYNC l) 1 s)) ∧
      exec (.oxvBadFrame l .length rel seq) s = .next (fmtErr l s) ∧ exec (.oxvBadFrame l .hops rel seq) s = .next (fmtErr l s) ∧
      exec (.oxvBadFrame l .fcrc true seq) s = .next (sendNak l seq (incF (OXV_LINK_CRC_ERR l) 1 s)) ∧
      exec (.oxvBadFrame l .fcrc false seq) s = .next (incF (OXV_LINK_CRC_ERR l) 1 s) ∧
      exec (.oxvBadFrame l .inner rel seq) s = .next (sendNak l seq (fmtErr l s)) ∧
      exec (.delayReq l p) s =
        .next (oxvSendOn l 3 0 (getF s (OXV_LINK_PEER l)) (fixLen 16 (Config.packOxv 3 [now s] (fixLen 8 p))) s) ∧
      ((getLink s l).delayAt.isSome = true → l = 0 → exec (.delayResp l ns) s = .next (setF STK_DIST_OXA_NS (Nat.min ns 65535)
        (updLink l (fun k => { k with delayAt := none }) (setF (OXV_LINK_DELAY_NS l) (Nat.min ns 65535) s)))) ∧
      ((getLink s l).delayAt = none → exec (.delayResp l ns) s = .next s)) ∧
    (oxvAlive s l = false →
      exec (.replayTimeout l) s = .next s ∧ exec (.nakFrame l seq) s = .next s ∧ exec (.missedSync l early) s = .next s ∧
      exec (.oxvBadFrame l .fcrc rel seq) s = .next s ∧ exec (.delayReq l p) s = .next s ∧ exec (.delayResp l ns) s = .next s)

/-- Routed frames (R390 to R392, R394): a REL frame for this device that is next in the order of its link is delivered, and the link
remembers its sequence; a duplicate is dropped; a gap asks for a replay; a broadcast is delivered and flooded the first time only; an
FD goes to the slot of its side; a mark of another domain is counted and no more.

The first copy of a mark (R30, R36, R38, R39, R395) is remembered and forwarded with its CORR; its residence time is a free value
(notes/assumptions/2), so that nothing else of the state depends on it but CORR and the frames that go on. The boundary it sets is at its
arrival less the CORR it came with, less the delay of its link. -/
def Obligations.OxviaFrames : Prop :=
  (∀ (s u v : State) (h : OxvHdr) (m : ControlMsg) (pm : ProxyMsg) (ns st lba mode attn rev min index lag ups : Nat) (data fd : Bytes),
    (oxvAlive s h.link = false →
      exec (.controlFrame h m) s = .next s ∧ exec (.mirrorFrame h ns st lba data) s = .next s ∧ exec (.mirrorAck h ns st) s = .next s ∧
      exec (.proxyFrame h pm) s = .next s ∧ exec (.oxvStatusFrame h mode attn rev min index lag ups) s = .next s ∧
      exec (.fdFrame h st index fd) s = .next s) ∧
    (oxvAlive s h.link = true → u = oxvAck h.link h.ack s → bitAt h.flags 1 = false →
      v = updLink h.link (fun k => { k with rxSeq := h.seq % 65536 }) u →
      (sub16 h.seq (getLink u h.link).rxSeq = 1 → h.dst % 512 = deviceId s →
        exec (.controlFrame h m) s = .next (takeControl h m v) ∧
        exec (.mirrorFrame h ns st lba data) s = .next (takeMirror h ns st lba data v) ∧
        exec (.mirrorAck h ns st) s = .next (takeMirrorAck h ns st v) ∧
        exec (.proxyFrame h pm) s = .next (takeProxy h pm v)) ∧
      (sub16 h.seq (getLink u h.link).rxSeq = 0 →
        exec (.controlFrame h m) s = .next u ∧ exec (.mirrorFrame h ns st lba data) s = .next u) ∧
      (sub16 h.seq (getLink u h.link).rxSeq = 2 →
        exec (.controlFrame h m) s = .next (sendNak h.link ((getLink u h.link).rxSeq + 1) u))) ∧
    (oxvAlive s h.link = true → u = oxvAck h.link h.ack s → bitAt h.flags 1 = true →
      ((h.src, h.seq) ∈ u.oxv.seen → exec (.oxvStatusFrame h mode attn rev min index lag ups) s = .next u) ∧
      ((h.src, h.seq) ∉ u.oxv.seen → exec (.oxvStatusFrame h mode attn rev min index lag ups) s =
        .next (takeStatus h mode attn rev min index lag ups
          (floodOn h 7 (fixLen 32 (Config.packOxv 7 (statusFields mode attn rev min index lag ups) []))
            { u with oxv := { u.oxv with seen := ((h.src, h.seq) :: u.oxv.seen).take 1024 } })))) ∧
    (oxvAlive s h.link = true →
      exec (.fdFrame h st index fd) s = .next (takeFd (h.link % 2 == 1) (st % 512) index (fixLen 48 fd) s)) ∧
    (∀ frac count state flog2 period root corr tag arrivalNs w, w = atFrac frac s → oxvAlive w h.link = true →
      (tag = 0 ∨ tag ≠ w.oxv.tag →
        exec (.markFrame frac h count state flog2 period root corr tag arrivalNs) s = .next (incF OXV_STATUS_FOREIGN 1 w)) ∧
      (tag ≠ 0 → tag = w.oxv.tag → w.oxv.lastMark = some count ∨ deviceId w = w.oxv.root →
        exec (.markFrame frac h count state flog2 period root corr tag arrivalNs) s = .next w))) ∧
  (∀ (s u v : State) (frac : Nat) (h : OxvHdr) (count state flog2 period root corr tag res : Nat) (arrivalNs : Int), u = atFrac frac s →
    oxvAlive u h.link = true → tag ≠ 0 → tag = u.oxv.tag → deviceId u ≠ u.oxv.root → u.oxv.lastMark ≠ some count →
    res = Config.freeNat u.freeCount →
    v = { u with freeCount := u.freeCount + 1, oxv := { u.oxv with
      lastMark := some count, stats := mset u.oxv.stats root { (mget u.oxv.stats root).getD {} with
        corr := corr, holdover := state == 3 } } } →
    ∀ late, late = arrivalNs - ((corr + getF u (OXV_LINK_DELAY_NS h.link) : Nat) : Int) →
    (h.hops < 199 → exec (.markFrame frac h count state flog2 period root corr tag arrivalNs) s = .next (takeMark count period late
      ([0, 1, 2, 3].foldl (fun a l => if l = h.link then a else oxvPut l 1 (h.flags % 8) h.dst h.src (h.hops + 1) 0
        (markPayload count state flog2 period root ((corr + res + getF u (OXV_LINK_DELAY_NS h.link)) % 2 ^ 32) tag) a) v))) ∧
    (199 ≤ h.hops → exec (.markFrame frac h count state flog2 period root corr tag arrivalNs) s =
      .next (takeMark count period late (fmtErr h.link v))))

/-- Members (R394, R397, R399): a member is lost after 192 strokes without a STATUS and not before; OXV_REMOTE is heard in no mode
without the compute die, and without GO only its fields are written.

DOMAIN CONFIGURE (R37, R403, R404): a structure that passes its checks is kept and a PREPARE flooded; one that does not completes
with the first that fails; ACTION 1 is accepted only in MISMATCH with the reference ahead; an unready member ends the configuration
after 64 strokes; a member joins at the boundary that the COMMIT named, unless the stroke opened before the COMMIT came and must carry the old chain on
(DEDUCED, notes/assumptions/147). -/
def Obligations.DomainCommands : Prop :=
  (∀ (s u : State) (d v : Nat) (x : MemberStat), mget s.oxv.stats d = some x →
    u = { s with oxv := { s.oxv with stats := mset s.oxv.stats d { x with lost := true } } } →
    (s.time.stroke < x.dtime / 65536 + 192 → exec (.memberUnreachable d) s = .next s) ∧
    (isMember s d = true → d ≠ deviceId s → x.lost = false → x.dtime / 65536 + 192 ≤ s.time.stroke →
      ∀ w, (flagF u OXV_REMOTE_BUSY = true → getF u OXV_REMOTE_DEVICE = d → w = setF OXV_REMOTE_BUSY 0 (setF OXV_REMOTE_ERR 1 u)) →
      (flagF u OXV_REMOTE_BUSY = false ∨ getF u OXV_REMOTE_DEVICE ≠ d → w = u) →
      (follower s = true ∧ headOf s = some d → exec (.memberUnreachable d) s = .next (loseHead d w)) ∧
      (follower s = false ∨ headOf s ≠ some d → exec (.memberUnreachable d) s = .next (showDomainAttn w))) ∧
    (s.mode.cur ∈ [.seal, .halt, .boot] → exec (.remoteGo v) s = .next s) ∧
    (s.mode.cur = .run → bitAt (v % 2 ^ 32) 28 = false → exec (.remoteGo v) s = .next (plainWrite 0x35200 (v % 2 ^ 32) s))) ∧
  (∀ (s u : State) (q : Sqe) (numd : Nat) (data c : Bytes), u = takeEntry q.fn 0 s → c = numdData numd data →
    (AdminOk { domainRow ((numd + 1) * 4) with got := some data.length } q s →
      (leAt c 4 4 ≠ (numd + 1) * 4 → exec (.domainConfigure q numd data) s = .next (done q .lengthMismatch 0 0 u)) ∧
      (leAt c 4 4 = (numd + 1) * 4 → cfgOk c = false →
        exec (.domainConfigure q numd data) s = .next (done q .invalidField 0 0 u)) ∧
      (∀ i, leAt c 4 4 = (numd + 1) * 4 → cfgOk c = true → myIndex c = some i → memberOk u c i = true →
        (u.oxv.coord.isSome = true ∨ u.oxv.prepared.isSome = true →
          exec (.domainConfigure q numd data) s = .next (done q .statePending 0 0 u)) ∧
        (u.oxv.prepared = none → u.oxv.coord = none → memberActivating u c = true →
          exec (.domainConfigure q numd data) s = .next (done q .domainUnreachable 0 0 u)) ∧
        (u.oxv.prepared = none → u.oxv.coord = none → memberActivating u c = false →
          exec (.domainConfigure q numd data) s = .next (checkReady (oxvFlood 6 (controlPayload 0 [] c) { u with oxv := { u.oxv with
            coord := some {
              fn := q.fn, sqid := q.sqid, cid := q.cid, cfg := c, since := u.time.stroke, ready := [i] },
            prepared := some (deviceId u, c) } }))))) ∧
    (AdminOk (domainRow 0) q s →
      (lockState u = 4 → 0 < u.time.offsetNs → exec (.domainRealign q) s =
        .next (done q .success 0 0 { u with time := { u.time with realign := true } })) ∧
      (lockState u ≠ 4 → exec (.domainRealign q) s = .next (done q .commandSequenceError 0 0 u))) ∧
    (s.oxv.coord = none → exec .domainPrepareTimeout s = .next s) ∧
    (∀ k, s.oxv.coord = some k → k.commitAt = none →
      (k.since + 64 ≤ s.time.stroke → exec .domainPrepareTimeout s = .next (abortDomain k .domainUnreachable s)) ∧
      (s.time.stroke < k.since + 64 → exec .domainPrepareTimeout s = .next s)) ∧
    (∀ src i n, s.oxv.prepared = some (src, c) → s.oxv.commitAt = some n → myIndex c = some i →
      (s.time.frac = 0 → n ≤ s.time.stroke → strokeOpen s = false ∨ commitRestarts s = none →
        exec .domainCommit s = .next (joinDomain c i s)) ∧
      (s.time.stroke < n ∨ strokeOpen s = true ∧ (commitRestarts s).isSome = true → exec .domainCommit s = .next s)))

/-! ### The chain and power -/

/-- R12: a die-to-die link that fails is recorded in a blot, and the device enters SEAL as it does on a detected power failure: by the
same operation, in every mode in which a power failure is answered by SEAL. -/
def Obligations.DieLinkFailure : Prop :=
  ∀ (s u v : State) (frac : Nat), u = atFrac frac s → v = blot 0x0104 3 0 (le 1 8) u →
    exec (.dieLinkFail frac) s = .next (trip 4 0 5 6 v) ∧
    exec (.pfailTrip frac) s = .next (trip 1 0 5 2 (setF PWR_PFAIL_LEVEL 0 u)) ∧
    (s.mode.cur ∈ [.run, .lean, .park, .readOnly, .sanitize, .activate, .drowse] ∨ s.mode.cur = .boot ∧ s.mode.mounted = true →
      exec (.dieLinkFail frac) s = .next (enterSeal 4 0 5 6 v) ∧
      exec (.pfailTrip frac) s = .next (enterSeal 1 0 5 2 (setF PWR_PFAIL_LEVEL 0 u)))

/-- The sources of SEAL (R210 to R212, R221, R431): each trips below its own threshold and not at it; a short pulse leaves only a blot; a
source that trips in SEAL is only noted; HALT, SAFE and HIBERNATE need no SEAL; the bank's arming shows at once.

The course of SEAL (R64, R211, R215, R216): at its deadline every die that still runs an operation is reset and no die runs one any
more; outside SEAL neither event does anything; at its end every closed stroke is committed, the closing flourish signed and the
Inkwell's content in the SEAL band; then BOOT where every source is clear, and HALT with no function left where one is not; a PERST_N
assertion that came in SEAL is taken up then. -/
def Obligations.SealEntryAndCourse : Prop :=
  (∀ (s u : State) (frac mon mv width : Nat), u = atFrac frac s →
    (getF u PWR_HOLD_TRIP_MV ≤ mv → getF (setF PWR_HOLD_STATUS_SENSE_MV (min mv 4095) u) PWR_HOLD_TRIP_MV = getF u PWR_HOLD_TRIP_MV →
      exec (.holdSenseTrip frac mv) s = .next (setF PWR_HOLD_STATUS_SENSE_MV (min mv 4095) u)) ∧
    (∀ v, v = setF PWR_HOLD_STATUS_SENSE_MV (min mv 4095) u → mv < getF v PWR_HOLD_TRIP_MV →
      exec (.holdSenseTrip frac mv) s = .next (trip 2 0 5 2 v)) ∧
    (mon < 32 → vmonMasked u mon = false → mv < getF u (MON_VMON_UV_MV mon) →
      exec (.railUndervoltage frac mon mv) s = .next (trip 3 mon 5 2 u) ∧
      (u.mode.cur = .seal → exec (.railUndervoltage frac mon mv) s =
        .next { u with mode := { u.mode with sealLater := u.mode.sealLater ++ [3] } }) ∧
      (u.mode.cur ∈ [.hibernate, .halt, .safe] → exec (.railUndervoltage frac mon mv) s = .next u)) ∧
    (getF u (MON_VMON_UV_MV mon) ≤ mv → exec (.railUndervoltage frac mon mv) s = .next u) ∧
    (vmonMasked u mon = true → exec (.railUndervoltage frac mon mv) s = .next u) ∧
    (width < getF u PWR_PFAIL_FILT_US → exec (.pfailGlitch frac width) s = .next (blot 0x0101 0 0 (le 2 width) u)) ∧
    (getF u PWR_PFAIL_FILT_US ≤ width → exec (.pfailGlitch frac width) s = .next u) ∧
    (∀ v on, v = setF PWR_HOLD_STATUS_SENSE_MV (min mv 4095) u → on = decide (getF v PWR_HOLD_ARM_MV ≤ mv) →
      (on = armed v → exec (.holdArmChange frac mv) s = .next (setF PWR_HOLD_STATUS_ARMED (bit on) v)) ∧
      (on ≠ armed v → exec (.holdArmChange frac mv) s =
        .next (resumeHeld (blot 0x0103 1 0 (le 1 (bit on) ++ le 2 mv) (setF PWR_HOLD_STATUS_ARMED (bit on) v)))))) ∧
  (∀ (s u : State) (frac : Nat) (ok snap : Bool), u = atFrac frac s →
    (s.mode.cur = .seal → ∃ t, exec .sealInflightDeadline s = .next t ∧ (∀ e ∈ t.ftl.dies, e.2.running = none) ∧
      t = { s with ftl := { s.ftl with dies := t.ftl.dies }, out := t.out } ∧
      ∀ e ∈ s.ftl.dies, e.2.running.isSome = true → .nand (e.1 / 16) e.1 8 0 ∈ t.out) ∧
    (s.mode.cur ≠ .seal → exec .sealInflightDeadline s = .next s) ∧
    (u.mode.cur ≠ .seal → ∀ clear, exec (.sealEnd frac clear ok snap) s = .next u) ∧
    (u.mode.cur = .seal →
      ∀ w b h, w = sealLand ok snap (signPending (fixFlourish true (sealCommit u.chain.closed.length u))) →
      b = reboot .computeGood w.mode.bootCause (getF w GLB_MODE_CAUSE) (setF PWR_PFAIL_LEVEL 1 w) →
      h = enterMode .halt { w with fns := [], numVfs := 0, mode := { w.mode with stage := .up, cold := d3cold u } } →
      w.ftl.staged = [] ∧ w.mode.unclean = !ok ∧
      (u.mode.perstSeal = false →
        exec (.sealEnd frac true ok snap) s = .next b ∧ exec (.sealEnd frac false ok snap) s = .next h) ∧
      (u.mode.perstSeal = true →
        exec (.sealEnd frac true ok snap) s = .next (holdPerst b) ∧ exec (.sealEnd frac false ok snap) s = .next (holdPerst h))))

/-- Power-up (R413, R419, R462, R463): the always-on supply, the end of its reset and the compute rails each take the next step of the
sequence and nothing out of turn; without the rails it ends in HALT; the loss of always-on power restarts the count at 0
and discards the retained records (in HALT and HIBERNATE the chain and the namespaces stand on the media). -/
def Obligations.PowerUp : Prop :=
  (∀ s : State, s.mode.stage = .off →
    exec .alwaysOnPowerApplied s = .next (setF GLB_RESET_CAUSE_BOOTS 0 (reboot .alwaysOn 1 0x0B s)) ∧
    exec .alwaysOnPowerLost s = .next s) ∧
  (∀ s : State, s.mode.stage ≠ .off → exec .alwaysOnPowerApplied s = .next s) ∧
  (∀ s : State, s.mode.stage = .alwaysOn →
    exec .alwaysOnResetEnd s = .next (setReqs 1 (restoreLog { s with mode := { s.mode with stage := .resetDone } }))) ∧
  (∀ s : State, s.mode.stage ≠ .alwaysOn → exec .alwaysOnResetEnd s = .next s) ∧
  (∀ s : State, s.mode.stage = .resetDone →
    exec .computeRailsGood s = .next (setReqs 7 { s with mode := { s.mode with stage := .computeGood } }) ∧
    exec .powerUpTimeout s = .next (enterMode .halt { s with mode := { s.mode with stage := .up } })) ∧
  (∀ s : State, s.mode.stage ≠ .resetDone → exec .computeRailsGood s = .next s ∧ exec .powerUpTimeout s = .next s) ∧
  (∀ s : State, s.mode.stage ≠ .off → ∃ v, exec .alwaysOnPowerLost s =
      .next { enterMode .halt v with mode := { (enterMode .halt v).mode with stage := .off } } ∧
    v.time.stroke = 0 ∧ v.time.frac = 0 ∧ v.mon.blots = [] ∧ v.mon.queue = [] ∧ v.ftl.losses = [] ∧ v.mode.aonLost = true ∧
    (s.mode.cur = .halt → v.chain = s.chain ∧ v.nss = s.nss))

/-- The pounce unit and the lanes (R20, R21, R134, R140, R143 to R145): with nothing closed a commit does nothing; the oldest closed
stroke is committed first, its root is the last of the chain, and where it ends an interval the flourish is fixed (a stroke that SEAL
closed leaves it to the closing flourish); a second compare that agrees is a RETRY with a FAULT record; a signature that does not run
does nothing; the spare that fails first takes no work with it and leaves 16 lanes, any other lane gives its work to the spare with a
blot, and a lane that is out of use fails no second time. -/
def Obligations.ChainCommands : Prop :=
  (∀ (s u : State) (frac flag flag2 n lane : Nat) (b : Bool), u = atFrac frac s →
    (u.chain.closed = [] → exec (.pounceCommit frac flag flag2 n b) s = .next u) ∧
    (∀ c rest, u.chain.closed = c :: rest →
      (∀ v, v = commitStroke { c with voted := false } (setF PNC_STATUS_FLAG 2 u) →
        exec (.pounceCommit frac 2 flag2 n b) s =
          .next (if endsInterval v c.n && !c.sealClosed then fixFlourish false v else v)) ∧
      (∀ v, v = commitStroke { c with voted := false } (setF PNC_STATUS_FLAG 2 (incF PNC_RETRY_RETRIES 1
          (faultRec 1 0 c.n 1 (setF PNC_STATUS_FLAG 1 u)))) →
        exec (.pounceCommit frac 1 2 n b) s =
          .next (if endsInterval v c.n && !c.sealClosed then fixFlourish false v else v))) ∧
    (u.crypt.signing ≠ some .flourish → exec (.flourishSigned frac) s = .next u) ∧
    (u.crypt.signing = some .flourish → exec (.flourishSigned frac) s = .next (signTurn (signFlourish u))) ∧
    (∀ feed v, v = (if feed = true then incF DIG_MISMATCH 1 u else u) →
      (17 ≤ lane ∨ bitAt (getF v PNC_LANE_FAILED) lane = true → exec (.laneParityFail frac ⟨lane, feed⟩) s = .next v) ∧
      (getF v PNC_LANE_FAILED = 0 → exec (.laneParityFail frac ⟨16, feed⟩) s =
        .next (faultRec 5 16 v.time.stroke 0 (setF DIG_STATUS_LANES 16 (setF PNC_LANE_FAILED (2 ^ 16) v)))) ∧
      (lane < 17 → bitAt (getF v PNC_LANE_FAILED) lane = false → lane ≠ 16 ∨ getF v PNC_LANE_FAILED ≠ 0 →
        ∀ k w, k = allotted (getF v PNC_LANE_FAILED + 2 ^ lane) → w = faultRec 5 lane v.time.stroke 0 (setF DIG_STATUS_LANES k
          (setF PNC_LANE_FAILED (getF v PNC_LANE_FAILED + 2 ^ lane) v)) →
        exec (.laneParityFail frac ⟨lane, feed⟩) s = .next (blot 0x0502 2 lane (le 1 k) { w with chain := { w.chain with
          laneReplaced := true,
          closed := w.chain.closed.map (fun c => if laneCarried v lane c.parts then { c with laneReplaced := true } else c) } })))) ∧
  (∀ (s : State) (f : Flourish) (rest : List Flourish), s.chain.flPending = f :: rest → f.keyRec = false →
    ∀ payload u, payload = f.body ++ fixLen 96 (signWith f.alg f.epoch f.body) → u = addRec 0x20 payload { s with chain := { s.chain with
        flPending := rest, flourishes := s.chain.flourishes ++ [(f, (mkRec 0x20 (now s) payload s).bytes)] } } →
      signFlourish s = setF PNC_FLOURISH_LO_INDEX (f.index % 2 ^ 32) (setF PNC_FLOURISH_HI_INDEX (f.index / 2 ^ 32 % 2 ^ 32)
        (endSign .flourish (incF SGN_COUNT_SIGNED 1 u)))) ∧
  (∀ (c : ClosedStroke) (s t : State), t = commitStroke c s →
    t.chain.roots = s.chain.roots ++ [rootOf s c] ∧ t.chain.lastSealed = some c.n ∧ t.chain.closed = s.chain.closed.drop 1 ∧
    t.chain.lastC = (rootOf s c).c ∧ t.time = s.time ∧ t.mode = s.mode ∧ t.nss = s.nss)

/-! ### Monitors, event inputs and the blot log -/

/-- Voltage and droop (R421, R431, R432): a droop is counted in each region that saw it and halves the clocks once; the clocks return
once; a reading is shown and the least one kept, but not of a masked monitor; one blot for one overvoltage excursion; a monitor whose
own check fails is marked once; drift beyond 5 percent leaves one blot.

Temperature (R422, R423, R429): the step follows the hottest working sensor upwards at once and downwards one at a time after 16
strokes; FAILSAFE holds step 2; a sensor that fails is marked once with a blot; with no working sensor nothing is shown. -/
def Obligations.VoltageAndTemperature : Prop :=
  (∀ (s u : State) (frac i mv f : Nat) (d : Int), u = atFrac frac s → i < 32 →
    (∀ v, i < 8 → v = incF (MON_DROOP_COUNT i) 1 u →
      (flagF v CLK_STATUS_HALVED = false → exec (.droopTrip frac [i]) s =
        .next (showClocks (incF CLK_DROOP_COUNT 1 (setF CLK_STATUS_HALVED 1 v)))) ∧
      (flagF v CLK_STATUS_HALVED = true → exec (.droopTrip frac [i]) s = .next v)) ∧
    (8 ≤ i → exec (.droopTrip frac [i]) s = .next u) ∧
    (flagF u CLK_STATUS_HALVED = true → exec (.droopRestore frac) s = .next (showClocks (setF CLK_STATUS_HALVED 0 u))) ∧
    (flagF u CLK_STATUS_HALVED = false → exec (.droopRestore frac) s = .next u) ∧
    (∀ v, v = setF (MON_VMON_MV 0) (min mv 4095) u → overVolt v 0 mv = true →
      (vmonMasked v 0 = true → exec (.vmonSample frac [mv]) s = .next v) ∧
      (vmonMasked v 0 = false → min mv 4095 < getF v (MON_VMON_MIN_MV 0) →
        ∀ w, w = setF (MON_VMON_MIN_MV 0) (min mv 4095) v → overVolt w 0 mv = true → exec (.vmonSample frac [mv]) s = .next w)) ∧
    (overVolt s i mv = true →
      (i ∉ s.mon.overVolts → exec (.vmonOvervoltage i mv) s =
        .next (blot 0x0106 1 i (le 2 mv) { s with mon := { s.mon with overVolts := s.mon.overVolts ++ [i] } })) ∧
      (i ∈ s.mon.overVolts → exec (.vmonOvervoltage i mv) s = .next s)) ∧
    (overVolt s i mv = false → exec (.vmonOvervoltage i mv) s = .next s) ∧
    (flagF s (MON_VMON_FAILED i) = false → exec (.vmonSelfCheck [i]) s =
      .next (blot 0x0304 2 i (le 2 (getF s (MON_VMON_MV i))) (setF MON_STATUS_VMON_FAIL 1 (setF (MON_VMON_FAILED i) 1 s)))) ∧
    (flagF s (MON_VMON_FAILED i) = true → exec (.vmonSelfCheck [i]) s = .next s) ∧
    (∀ v, v = setF (MON_PMON_DRIFT 0) (twos 16 d) (setF (MON_PMON_FREQ 0) (min 65535 f) s) →
      (d.natAbs ≤ 50 → exec (.pmonMeasure [(f, d)]) s = .next v) ∧
      (50 < d.natAbs → 0 ∉ s.mon.drifted → exec (.pmonMeasure [(f, d)]) s =
        .next (blot 0x0305 1 0 (le 2 (twos 16 d)) { v with mon := { v.mon with drifted := v.mon.drifted ++ [0] } })))) ∧
  (∀ (s u : State) (frac i : Nat) (v : Int), u = atFrac frac s → i < 24 →
    (hottest u (List.range 24) = none → exec (.thermalSample frac []) s = .next u) ∧
    (∀ q k old, hottest u (List.range 24) = some (q, k) → q < 460 → old = kelvin (signed12 (getF u MON_HOT_TEMP)) →
      ∀ w, w = setF PWR_THERM_TEMP_C (twos 8 (q / 4)) (setF MON_HOT_SENSOR k (setF MON_HOT_TEMP (twos 12 q) u)) →
        exec (.thermalSample frac []) s = .next (tempEvents old (kelvin q)
          (trackCooling q (setStep (max (stepFor w q) (getF w CLK_STATUS_THERM_STEP)) w)))) ∧
    (∀ n, s.mode.coolFrom = some n → getF s CLK_STATUS_THERM_STEP = 3 →
      (n + 16 ≤ s.time.stroke → exec .thermalStepDown s = .next (setStep 2 s)) ∧
      (s.time.stroke < n + 16 → exec .thermalStepDown s = .next s)) ∧
    (getF s CLK_STATUS_THERM_STEP = 2 → flagF s MON_STATUS_FAILSAFE = true → exec .thermalStepDown s = .next s) ∧
    (getF s CLK_STATUS_THERM_STEP = 0 → exec .thermalStepDown s = .next s) ∧
    (flagF s (MON_TEMP_FAILED i) = true → exec (.sensorFail i v) s = .next s) ∧
    (flagF s (MON_TEMP_FAILED i) = false → exec (.sensorFail i v) s = .next (checkFailsafe
      (blot 0x0303 2 i (le 2 (twos 16 v)) (setF MON_STATUS_SENSOR_FAIL 1 (setF (MON_TEMP_FAILED i) 1 s))))))

/-- Event inputs and LOG_CLEAR (R434 to R436, R445): a disabled input takes no sample; a foreign voltage is reported once, spoils the
samples kept and declares nothing; a steady sample declares nothing new; outside SEAL, a log that is cleared holds its one new entry first. -/
def Obligations.EventInputsAndLog : Prop :=
  ∀ (s u : State) (frac : Nat) (e : EvtSample), u = atFrac frac s →
    exec (.evtSample frac [e]) s = .next (sampleEvt 0 e u) ∧
    (flagF u (EVT_CFG_EN 0) = false → exec (.evtSample frac [e]) s = .next u) ∧
    (∀ v, flagF u (EVT_CFG_EN 0) = true → 1000 < e.mv → v = setEvt 0 { getEvt u 0 with kept := 0 } u →
      (flagF v (EVT_CFG_FOREIGN_V 0) = true → exec (.evtSample frac [e]) s = .next v) ∧
      (flagF v (EVT_CFG_FOREIGN_V 0) = false → exec (.evtSample frac [e]) s =
        .next (blot 0x0902 2 0 (le 2 (twos 16 e.mv)) (setF (EVT_CFG_FOREIGN_V 0) 1 v)))) ∧
    (s.mode.cur ≠ .seal → ∃ t b, exec .logClear s = .next t ∧ t.mon.blots = [b] ∧ b.code = 0x0001 ∧ b.count = 1 ∧
      b.dtime = now s ∧ b.seq = getF s LOG_NEXT_SEQ ∧ t.chain = s.chain ∧ t.time = s.time ∧ t.mode = s.mode)

/-! ### The Nib -/

/-- R249, the additive operations of the A units: result, Z and N of it, C the carry or the borrow, V the signed overflow; Z* of
ADDC, SUBB and CMPC stays chained; ADDS, SUBS, NEGS and ABSS saturate and set V and Q. (V with the Q of NEGS and ABSS is the model's
reading, notes/assumptions/10.) -/
def Obligations.NibAdditive : Prop :=
  AluGives .add 0x01 (fun _ a b => (a + b, znCV (a + b) (65536 ≤ a.toNat + b.toNat) (!fits16 (a.toInt + b.toInt)))) ∧
  AluGives .addc 0x02 (fun g a b => (a + b + BitVec.ofNat 16 (bit g.c), chainCV g.z (a + b + BitVec.ofNat 16 (bit g.c))
    (65536 ≤ a.toNat + b.toNat + bit g.c) (!fits16 (a.toInt + b.toInt + (bit g.c : Nat))))) ∧
  AluGives .adds 0x03 (fun _ a b => (sat16 (a.toInt + b.toInt), znCVQ (sat16 (a.toInt + b.toInt))
    (65536 ≤ a.toNat + b.toNat) (!fits16 (a.toInt + b.toInt)))) ∧
  AluGives .sub 0x04 (fun _ a b => (a - b, znCV (a - b) (a.toNat < b.toNat) (!fits16 (a.toInt - b.toInt)))) ∧
  AluGives .subb 0x05 (fun g a b => (a - b - BitVec.ofNat 16 (bit g.c), chainCV g.z (a - b - BitVec.ofNat 16 (bit g.c))
    (a.toNat < b.toNat + bit g.c) (!fits16 (a.toInt - b.toInt - (bit g.c : Nat))))) ∧
  AluGives .subs 0x06 (fun _ a b => (sat16 (a.toInt - b.toInt), znCVQ (sat16 (a.toInt - b.toInt))
    (a.toNat < b.toNat) (!fits16 (a.toInt - b.toInt)))) ∧
  AluGives .neg 0x07 (fun _ a _ => (-a, znCV (-a) (a ≠ 0) (a = 0x8000#16))) ∧
  AluGives .negs 0x08 (fun _ a _ => (if a = 0x8000#16 then 0x7FFF#16 else -a,
    znVQ (if a = 0x8000#16 then 0x7FFF#16 else -a) (a = 0x8000#16))) ∧
  AluGives .abs 0x09 (fun _ a _ => (if a.msb then -a else a, znV (if a.msb then -a else a) (a = 0x8000#16))) ∧
  AluGives .abss 0x0A (fun _ a _ => (if a = 0x8000#16 then 0x7FFF#16 else if a.msb then -a else a,
    znVQ (if a = 0x8000#16 then 0x7FFF#16 else if a.msb then -a else a) (a = 0x8000#16))) ∧
  FlagsGive .cmp 0x0B (fun _ a b => znCV (a - b) (a.toNat < b.toNat) (!fits16 (a.toInt - b.toInt))) ∧
  FlagsGive .cmpc 0x0C (fun g a b => chainCV g.z (a - b - BitVec.ofNat 16 (bit g.c))
    (a.toNat < b.toNat + bit g.c) (!fits16 (a.toInt - b.toInt - (bit g.c : Nat))))

/-- R249, the logical, selecting and moving operations of the A units, and NOP in any unit (R248): SEL and MOV leave every flag
alone; MOVF, MOVT and LDI too; CLZ and POPC write Z only. A MOVT to f2 writes the bits that R241 lets it write. -/
def Obligations.NibLogical : Prop :=
  AluGives .andOp 0x0D (fun _ a b => (a &&& b, znOf (a &&& b))) ∧
  AluGives .orOp 0x0E (fun _ a b => (a ||| b, znOf (a ||| b))) ∧
  AluGives .xor 0x0F (fun _ a b => (a ^^^ b, znOf (a ^^^ b))) ∧
  AluGives .andn 0x10 (fun _ a b => (a &&& ~~~b, znOf (a &&& ~~~b))) ∧
  AluGives .notOp 0x11 (fun _ a _ => (~~~a, znOf (~~~a))) ∧
  AluGives .mov 0x12 (fun _ _ b => (b, {})) ∧
  AluGives .minOp 0x13 (fun _ a b => (if a.toInt ≤ b.toInt then a else b, znOf (if a.toInt ≤ b.toInt then a else b))) ∧
  AluGives .maxOp 0x14 (fun _ a b => (if a.toInt ≤ b.toInt then b else a, znOf (if a.toInt ≤ b.toInt then b else a))) ∧
  AluGives .minu 0x15 (fun _ a b => (if a.toNat ≤ b.toNat then a else b, znOf (if a.toNat ≤ b.toNat then a else b))) ∧
  AluGives .maxu 0x16 (fun _ a b => (if a.toNat ≤ b.toNat then b else a, znOf (if a.toNat ≤ b.toNat then b else a))) ∧
  AluGives .sel 0x17 (fun g a b => (if g.z then a else b, {})) ∧
  AluGives .sext8 0x18 (fun _ a _ => ((a.setWidth 8).signExtend 16, znOf ((a.setWidth 8).signExtend 16))) ∧
  AluGives .zext8 0x19 (fun _ a _ => ((a.setWidth 8).setWidth 16, znOf ((a.setWidth 8).setWidth 16 : W16))) ∧
  AluGives .clz 0x1A (fun _ a _ => (BitVec.ofNat 16 (clz16 a), { z := some (BitVec.ofNat 16 (clz16 a) == 0) })) ∧
  AluGives .popc 0x1B (fun _ a _ => (BitVec.ofNat 16 (popcount16 a), { z := some (BitVec.ofNat 16 (popcount16 a) == 0) })) ∧
  FlagsGive .tst 0x1C (fun _ a b => znOf (a &&& b)) ∧
  (∀ (o : NibOp) (c : NibCore) (s : State), SoloOk (o.unit % 2) 0x1D o c s →
    exec (.movf o) s = .next (setCore o.core (soloDone c [(regIx c (opD o.body.toNat),
      if opB o.body.toNat = 2 then BitVec.ofNat 16 (f2Of c) else fGet c (opB o.body.toNat))] {}) s)) ∧
  (∀ (o : NibOp) (c : NibCore) (s : State) (a : W16), SoloOk (o.unit % 2) 0x1E o c s → a = wGet c (opA o.body.toNat) →
    exec (.movt o) s = .next (setCore o.core { (if opD o.body.toNat = 2 then fSet 2 (movtF2 c a) c
      else fSet (opD o.body.toNat) a c) with pc := nextPc c 1 } s)) ∧
  (∀ (o : NibOp) (c : NibCore) (s : State), SoloOk (o.unit % 2) 0x1F o c s →
    exec (.ldi o) s = .next (setCore o.core (soloDone c [(regIx c (opD o.body.toNat),
      BitVec.ofNat 16 (opK16 o.body.toNat))] {}) s)) ∧
  (∀ (o : NibOp) (c : NibCore) (s : State), SoloOk (o.unit % 4) 0x00 o c s → o.unit % 4 < 3 →
    exec (.nop o) s = .next (setCore o.core { c with pc := nextPc c 1 } s))

/-- R250, products: MUL keeps the low half with V where the product does not fit; MULL and MULLU the pair; MULQ and MULQR saturate
only 8000h × 8000h; MAC wraps and MACS saturates the pair. -/
def Obligations.NibProducts : Prop :=
  MulGives .mul 0x01 (fun a b => (a * b, znV (a * b) (!fits16 (a.toInt * b.toInt)))) ∧
  PairGives .mull 0x02 opD (fun _ a b => (BitVec.ofInt 32 (a.toInt * b.toInt), znOf (BitVec.ofInt 32 (a.toInt * b.toInt)))) ∧
  PairGives .mullu 0x03 opD (fun _ a b => (BitVec.ofNat 32 (a.toNat * b.toNat), znOf (BitVec.ofNat 32 (a.toNat * b.toNat)))) ∧
  MulGives .mulq 0x04 (fun a b => if a = 0x8000#16 ∧ b = 0x8000#16 then (0x7FFF#16, znVQ 0x7FFF#16 true)
    else (BitVec.ofInt 16 (a.toInt * b.toInt / 32768), znV (BitVec.ofInt 16 (a.toInt * b.toInt / 32768)) false)) ∧
  MulGives .mulqr 0x05 (fun a b => if a = 0x8000#16 ∧ b = 0x8000#16 then (0x7FFF#16, znVQ 0x7FFF#16 true)
    else (BitVec.ofInt 16 ((a.toInt * b.toInt + 0x4000) / 32768),
      znV (BitVec.ofInt 16 ((a.toInt * b.toInt + 0x4000) / 32768)) false)) ∧
  PairGives .mac 0x06 opD (fun p a b => (BitVec.ofInt 32 (p.toInt + a.toInt * b.toInt),
    znV (BitVec.ofInt 32 (p.toInt + a.toInt * b.toInt)) (!fits32 (p.toInt + a.toInt * b.toInt)))) ∧
  PairGives .macs 0x07 opD (fun p a b => (sat32 (p.toInt + a.toInt * b.toInt),
    znVQ (sat32 (p.toInt + a.toInt * b.toInt)) (!fits32 (p.toInt + a.toInt * b.toInt))))

/-- R252, DIVS and DIVU: the quotient truncated toward zero and its remainder, V where the quotient does not fit (8000h by FFFFh gives
8000h and 0); a zero divisor gives FFFFh, or 7FFFh and 8000h by the sign of the dividend, the dividend as the remainder, and V; with
DZT 1 the core takes DIV_ZERO before the bundle writes anything. -/
def Obligations.NibDivision : Prop :=
  (∀ (o : NibOp) (c : NibCore) (s : State) (a b : W16), SoloOk 2 0x0E o c s → a = wGet c (opA o.body.toNat) →
    b = wGet c (opB o.body.toNat) →
    (b ≠ 0 → exec (.divs o) s = .next (setCore o.core (soloDone c
      [(regIx c (opD o.body.toNat), BitVec.ofInt 16 (a.toInt.tdiv b.toInt)),
       (regIx c (opD o.body.toNat + 1), BitVec.ofInt 16 (a.toInt.tmod b.toInt))]
      (znV (BitVec.ofInt 16 (a.toInt.tdiv b.toInt)) (!fits16 (a.toInt.tdiv b.toInt)))) s)) ∧
    (b = 0 → exec (.divs o) s = .next (setCore o.core (soloDone c
      [(regIx c (opD o.body.toNat), if a.msb then 0x8000#16 else 0x7FFF#16), (regIx c (opD o.body.toNat + 1), a)]
      (znV (if a.msb then 0x8000#16 else 0x7FFF#16) true)) s))) ∧
  (∀ (o : NibOp) (c : NibCore) (s : State) (a b : W16), SoloOk 2 0x0F o c s → a = wGet c (opA o.body.toNat) →
    b = wGet c (opB o.body.toNat) →
    (b ≠ 0 → exec (.divu o) s = .next (setCore o.core (soloDone c
      [(regIx c (opD o.body.toNat), a / b), (regIx c (opD o.body.toNat + 1), a % b)] (znV (a / b) false)) s)) ∧
    (b = 0 → exec (.divu o) s = .next (setCore o.core (soloDone c
      [(regIx c (opD o.body.toNat), 0xFFFF#16), (regIx c (opD o.body.toNat + 1), a)] (znV 0xFFFF#16 true)) s))) ∧
  (∀ (o : NibOp) (c : NibCore) (s : State) (k op : Nat) (x : NibWord), k = o.core → nibCore s k = c → k < 32 →
    getF s (NIB_CORE_STATE k) = 2 → fetchTrap s c o.fetch = none → fetchChk s c o.fetch = .good → o.stop = true → c.bundle = [] →
    f2Bit c fiRA = false → op = 0x0E ∨ op = 0x0F → x = wordOf 2 op o → fetched s c x = some x →
    illegalOp 2 op o.body.toNat = none → f2Bit c fiDZT = true → wGet c (opB o.body.toNat) = 0 →
    exec (if op = 0x0E then .divs o else .divu o) s =
      .next (trapEntry k { code := 3, sub := 0, info := 0 } 1 c.pc c.xip (setCore k c s)))

/-- R251, the shifts of 16 and of 32 bits by the full count, and the fields of R250: past the width a logical shift gives 0 and an
arithmetic one the sign; C is the last bit out, at a count of the width too; a count of 0 clears C; a rotate counts modulo 16. -/
def Obligations.NibShifts : Prop :=
  MulGives .shl 0x08 (fun a b => (a <<< b.toNat, znC (a <<< b.toNat)
    (decide (0 < b.toNat ∧ b.toNat ≤ 16) && bitAt a.toNat (16 - b.toNat)))) ∧
  MulGives .shr 0x09 (fun a b => (a >>> b.toNat, znC (a >>> b.toNat)
    (decide (0 < b.toNat ∧ b.toNat ≤ 16) && bitAt a.toNat (b.toNat - 1)))) ∧
  MulGives .sar 0x0A (fun a b => (a.sshiftRight b.toNat, znC (a.sshiftRight b.toNat)
    (decide (0 < b.toNat) && bitAt a.toNat (min b.toNat 16 - 1)))) ∧
  MulGives .asl 0x0B (fun a b => (a <<< b.toNat, znCV (a <<< b.toNat)
    (decide (0 < b.toNat ∧ b.toNat ≤ 16) && bitAt a.toNat (16 - b.toNat)) ((a <<< b.toNat).sshiftRight b.toNat ≠ a))) ∧
  MulGives .rol 0x0C (fun a b => (a.rotateLeft (b.toNat % 16), znC (a.rotateLeft (b.toNat % 16))
    (b.toNat % 16 != 0 && bitAt (a.rotateLeft (b.toNat % 16)).toNat 0))) ∧
  MulGives .ror 0x0D (fun a b => (a.rotateRight (b.toNat % 16), znC (a.rotateRight (b.toNat % 16))
    (b.toNat % 16 != 0 && bitAt (a.rotateRight (b.toNat % 16)).toNat 15))) ∧
  PairGives .shl32 0x10 opA (fun p _ b => (p <<< b.toNat, znC (p <<< b.toNat)
    (decide (0 < b.toNat ∧ b.toNat ≤ 32) && bitAt p.toNat (32 - b.toNat)))) ∧
  PairGives .shr32 0x11 opA (fun p _ b => (p >>> b.toNat, znC (p >>> b.toNat)
    (decide (0 < b.toNat ∧ b.toNat ≤ 32) && bitAt p.toNat (b.toNat - 1)))) ∧
  PairGives .sar32 0x12 opA (fun p _ b => (p.sshiftRight b.toNat, znC (p.sshiftRight b.toNat)
    (decide (0 < b.toNat) && bitAt p.toNat (min b.toNat 32 - 1)))) ∧
  MulGives .extu 0x13 (fun a b => (BitVec.ofNat 16 (a.toNat / 2 ^ bits b.toNat 3 0 % 2 ^ (bits b.toNat 7 4 + 1)),
    znOf (BitVec.ofNat 16 (a.toNat / 2 ^ bits b.toNat 3 0 % 2 ^ (bits b.toNat 7 4 + 1))))) ∧
  MulGives .exts 0x14 (fun a b =>
    ((BitVec.ofNat (bits b.toNat 7 4 + 1) (a.toNat / 2 ^ bits b.toNat 3 0)).signExtend 16,
      znOf ((BitVec.ofNat (bits b.toNat 7 4 + 1) (a.toNat / 2 ^ bits b.toNat 3 0)).signExtend 16)))

/-- R253, the memory operations of the L unit: local loads and stores with the post-increment of A, pairs at x and x + 1, segment
loads and stores at offset A + B/K of the segment in f4, the control registers, BAR; a read corrected is counted and the memory keeps
the bad copy until the word is stored again (R265). A word never written reads as a free value
(notes/assumptions/2). -/
def Obligations.NibMemory : Prop :=
  ∀ (o : NibOp) (c : NibCore) (s s' : State) (k d ra : Nat) (x : NibWord) (off : Nat), k = o.core → d = opD o.body.toNat →
    ra = opA o.body.toNat → s' = { s with freeCount := s.freeCount + freeSlots } →
    (SoloOk 3 0x01 o c s → x = wordOf 3 0x01 o → off = ((wGet c ra).toNat + (opBK c x).toNat) % 65536 →
      exec (.ld o) s = .next (countData s k c o.data (withBad s k c x)
        (setCore k (soloDone c [(regIx c d, (mget c.dmem off).getD (freeW s 0))] {}) s'))) ∧
    (SoloOk 3 0x02 o c s → x = wordOf 3 0x02 o → off = ((wGet c ra).toNat + (opBK c x).toNat) % 65536 →
      exec (.st o) s = .next (setCore k { soloDone c [] {} with
        dmem := mset c.dmem off (wGet c d), badD := c.badD.filter (· != off) } s')) ∧
    (SoloOk 3 0x03 o c s → x = wordOf 3 0x03 o → off = (wGet c ra).toNat →
      exec (.ldpi o) s = .next (countData s k c o.data (withBad s k c x) (setCore k (soloDone c
        [(regIx c d, (mget c.dmem off).getD (freeW s 0)), (regIx c ra, wGet c ra + opBK c x)] {}) s'))) ∧
    (SoloOk 3 0x04 o c s → x = wordOf 3 0x04 o → off = (wGet c ra).toNat →
      exec (.stpi o) s = .next (setCore k { soloDone c [(regIx c ra, wGet c ra + opBK c x)] {} with
        dmem := mset c.dmem off (wGet c d), badD := c.badD.filter (· != off) } s')) ∧
    (SoloOk 3 0x05 o c s → x = wordOf 3 0x05 o → off = ((wGet c ra).toNat + (opBK c x).toNat) % 65536 →
      exec (.lds o) s = .next (countData s k c o.data (withBad s k c x) (setCore k (soloDone c [(regIx c d, segLoad s k c off)] {}) s'))) ∧
    (SoloOk 3 0x06 o c s → x = wordOf 3 0x06 o → off = ((wGet c ra).toNat + (opBK c x).toNat) % 65536 →
      (segCheck c true off = .ok (.local_ off) →
        exec (.sts o) s = .next (setCore k { soloDone c [] {} with
        dmem := mset c.dmem off (wGet c d), badD := c.badD.filter (· != off) } s')) ∧
      (∀ p, segCheck c true off = .ok p → p ≠ .local_ off →
        exec (.sts o) s = .next (segStore k off c (wGet c d) o.data (setCore k (soloDone c [] {}) s')))) ∧
    (SoloOk 3 0x07 o c s → x = wordOf 3 0x07 o → off = ((wGet c ra).toNat + (opBK c x).toNat) % 65536 →
      exec (.ldp o) s = .next (countData s k c o.data (withBad s k c x) (setCore k (soloDone c [(regIx c d, (mget c.dmem off).getD (freeW s 0)),
        (regIx c (d + 1), (mget c.dmem ((off + 1) % 65536)).getD (freeW s 1))] {}) s'))) ∧
    (SoloOk 3 0x08 o c s → x = wordOf 3 0x08 o → off = ((wGet c ra).toNat + (opBK c x).toNat) % 65536 →
      exec (.stp o) s = .next (setCore k { soloDone c [] {} with
        dmem := mset (mset c.dmem off (wGet c d)) ((off + 1) % 65536) (wGet c (d + 1)),
        badD := (c.badD.filter (· != off)).filter (· != (off + 1) % 65536) } s')) ∧
    (SoloOk 3 0x12 o c s → bits o.body.toNat 3 0 ≠ 11 →
      exec (.mfc o) s = .next (setCore k (soloDone c
        [(regIx c d, BitVec.ofNat 16 (mfcValue s k c (bits o.body.toNat 3 0)))] {}) s')) ∧
    (SoloOk 3 0x12 o c s → bits o.body.toNat 3 0 = 11 →
      exec (.mfc o) s = .next (setCore k { soloDone c [(regIx c d, freeW s 2)] {} with cycHi := (freeW s 3).toNat } s')) ∧
    (SoloOk 3 0x13 o c s → exec (.mtc o) s = .next (setCore k
      (mtc (bits o.body.toNat 3 0) (wGet c ra).toNat { c with pc := nextPc c 1 }) s')) ∧
    (SoloOk 3 0x16 o c s → exec (.bar o) s = .next (setCore k { c with pc := nextPc c 1 } s'))

/-- R239, R253 to R256, R262 to R264, R282, the transfers of control: B by its condition; CALL, CALLX, RET with the slides of the
window; JMPX; REPI and REPN; TRAP into the handler of TVBASE; RETT out of it, the
kind of an interrupted repeat saved with the trap (DEDUCED, notes/assumptions/148); HALT ends the node with its code; WAIT goes on where an
event waits and otherwise stops the core. -/
def Obligations.NibControl : Prop :=
  ∀ (o : NibOp) (c c1 : NibCore) (s s' : State) (k f a : Nat), k = o.core → f = o.body.toNat → a = (wGet c (opA f)).toNat →
    s' = { s with freeCount := s.freeCount + freeSlots } →
    (SoloOk 3 0x09 o c s → exec (.branch o) s = .next (setCore k
      { c with pc := if condHolds (opCond f) (flagsIn c) then branchTo c f else nextPc c 1 } s')) ∧
    (SoloOk 3 0x0A o c s → slideUp (setF2 fiLH c.xip (fSet 1 (BitVec.ofNat 16 (nextPc c 1)) c)) = some c1 →
      exec (.call o) s = .next (setCore k { c1 with pc := branchTo c f, xip := c.xip } s')) ∧
    (SoloOk 3 0x0B o c s → slideUp (setF2 fiLH c.xip (fSet 1 (BitVec.ofNat 16 (nextPc c 1)) c)) = some c1 →
      exec (.callx o) s = .next (setCore k { c1 with pc := a, xip := bitAt f 0 } s')) ∧
    (SoloOk 3 0x0C o c s → exec (.jmpx o) s = .next (setCore k { c with pc := a, xip := bitAt f 0 } s')) ∧
    (SoloOk 3 0x0D o c s → slideDown (fun i => freeW s (16 + i)) c = some c1 →
      exec (.ret o) s = .next (countData s k c o.data (withBad s k c (wordOf 3 0x0D o)) (setCore k
        { c1 with pc := (fGet c 1).toNat, xip := f2Bit c fiLH } s'))) ∧
    (SoloOk 3 0x0E o c s → ∀ u e,
      u = countData s k c o.data (withBad s k c (wordOf 3 0x0E o)) (setCore k c s) → e = { nibCore u k with bundle := [] } →
      o.data ≠ .uncorrectable ∨ 3 < e.depth → slideDown2 (fun i => freeW u (16 + i)) e = some c1 → exec (.rett o) s = .next (setCore k
        { setF2 fiRA (bitAt e.tpcx 1) (setF2 fiTH false (fSet 2 (BitVec.ofNat 16 (e.tflags % 1024)) c1)) with
          pc := e.tpc, xip := bitAt e.tpcx 0, repN := e.trapRepN, repAt := e.trapRepAt }
        { u with freeCount := u.freeCount + freeSlots })) ∧
    (SoloOk 3 0x0F o c s → exec (.repi o) s = .next (setCore k
      { setF2 fiRA true (fSet 3 (BitVec.ofNat 16 (if opI f then opK12 f + 1 else a)) c) with
        pc := nextPc c 1, repN := false, repAt := c.pc } s')) ∧
    (o.core < 32 → getF s (NIB_CORE_STATE k) = 2 → fetchTrap s c o.fetch = none → nibCore s k = c → c.bundle = [] → o.stop = true →
      fetchChk s c o.fetch = .good → f2Bit c fiRA = true → fGet c 3 = 0 → ∀ x, x = wordOf 3 0x09 o → fetched s c x = some x →
      exec (.branch o) s = .next (setCore k { setF2 fiRA false c with pc := nextPc c 1 } s)) ∧
    (SoloOk 3 0x10 o c s → exec (.repn o) s = .next (setCore k
      { setF2 fiRA true (fSet 3 (BitVec.ofNat 16 (opK12 f + 1)) c) with
        pc := nextPc c 1, repN := true, repAt := c.pc } s')) ∧
    (SoloOk 3 0x11 o c s → c.tvbase % 2 = 1 → f2Bit c fiTH = false → slideUp2 { c with pc := nextPc c 1 } = some c1 →
      exec (.trap o) s = .next (setCore k
        { setF2 fiRA false (setF2 fiIE false (setF2 fiTH true c1)) with
          trapRepN := c.repN, trapRepAt := c.repAt, tpc := nextPc c 1, tpcx := bit c.xip, tcause := 11 + 256, tinfo := opK12 f % 256, tflags := f2Of c,
          pc := bits c.tvbase 15 7 * 128 + 88, xip := false }
        (setCore k { c with pc := nextPc c 1 } s'))) ∧
    (SoloOk 3 0x14 o c s → exec (.haltOp o) s = .next (endNode (getF s (NIB_CORE_GRAPH k)) (getF s (NIB_CORE_NODE k))
      (opK12 f % 256) 0 (setCore k { c with pc := nextPc c 1 } s'))) ∧
    (SoloOk 3 0x15 o c s → (c.tick || c.notify || c.preempt) = true →
      exec (.wait o) s = .next (setCore k { c with pc := nextPc c 1 } s')) ∧
    (SoloOk 3 0x15 o c s → (c.tick || c.notify || c.preempt) = false →
      exec (.wait o) s = .next (updNode (getF s (NIB_CORE_GRAPH k)) (getF s (NIB_CORE_NODE k))
        (fun y => { y with st := 3, waited := 0 }) (setF (NIB_CORE_STATE k) 3 (setCore k { c with pc := nextPc c 1 } s'))))

/-- R243, R244, R248, R260 to R262: an operation with S = 0 joins the bundle and nothing runs; a core that is not running fetches
nothing; a fetch that fails takes FETCH_UE at the bundle's address (from the Inkstone too, whose own error it counts: DEDUCED,
notes/assumptions/149); an operation that its own bits make illegal takes ILLEGAL_OP
before the bundle writes anything. -/
def Obligations.NibFetchAndTraps : Prop :=
  ∀ (o : NibOp) (c : NibCore) (s : State) (k : Nat), k = o.core → nibCore s k = c →
    (getF s (NIB_CORE_STATE k) ≠ 2 → exec (.add o) s = .next s ∧ exec (.mac o) s = .next s ∧ exec (.lds o) s = .next s) ∧
    (k < 32 → getF s (NIB_CORE_STATE k) = 2 → o.fetch = .uncorrectable → ∀ (t : NibTrap) (u : State), t = { code := 5, sub := 0, info := 0 } →
      u = (if c.xip then incF INK_ECC_UE 1 (incF (NIB_CORE_UE k) 1 s) else incF (NIB_CORE_UE k) 1 s) →
      exec (.add o) s = .next (trapEntry k t c.bundle.length c.pc c.xip u) ∧
      exec (.mac o) s = .next (trapEntry k t c.bundle.length c.pc c.xip u) ∧
      exec (.lds o) s = .next (trapEntry k t c.bundle.length c.pc c.xip u)) ∧
    (k < 32 → getF s (NIB_CORE_STATE k) = 2 → fetchTrap s c o.fetch = none → fetchChk s c o.fetch = .good → o.stop = false →
      c.bundle.length < 3 → ∀ x : NibWord, (x = wordOf (o.unit % 2) 0x01 o → fetched s c x = some x →
        exec (.add o) s = .next (setCore k { c with bundle := c.bundle ++ [x] } s)) ∧
      (x = wordOf 2 0x06 o → fetched s c x = some x → exec (.mac o) s = .next (setCore k { c with bundle := c.bundle ++ [x] } s)) ∧
      (x = wordOf 3 0x05 o → fetched s c x = some x → exec (.lds o) s = .next (setCore k { c with bundle := c.bundle ++ [x] } s))) ∧
    (k < 32 → getF s (NIB_CORE_STATE k) = 2 → fetchTrap s c o.fetch = none → fetchChk s c o.fetch = .good → o.stop = true → c.bundle = [] →
      f2Bit c fiRA = false → ∀ x : NibWord, x = wordOf 2 0x0F o → fetched s c x = some x →
      ∀ n, illegalOp 2 0x0F o.body.toNat = some n →
        exec (.divu o) s = .next (trapEntry k { code := 1, sub := n, info := 0 } 1 c.pc c.xip (setCore k c s)))
end

