-- ==== Sys2Proof/Laws/Bits.lean ====
section
/-!
SUPPORT. Bit fields: what `setBits` leaves in the field it writes and in the fields beside it.
-/

namespace Sys2Proof.Machine

theorem bits_lt (v hi lo : Nat) : bits v hi lo < 2 ^ (hi + 1 - lo) :=
  Nat.mod_lt _ (Nat.two_pow_pos _)

/-- A number is its part above a field, the field, and the part below it. -/
theorem bits_split (v hi lo : Nat) :
    v = v / 2 ^ lo / 2 ^ (hi + 1 - lo) * 2 ^ (hi + 1 - lo) * 2 ^ lo + bits v hi lo * 2 ^ lo + v % 2 ^ lo := by
  unfold bits
  have h1 := Nat.div_add_mod v (2 ^ lo)
  have h2 := Nat.div_add_mod (v / 2 ^ lo) (2 ^ (hi + 1 - lo))
  calc v = 2 ^ lo * (v / 2 ^ lo) + v % 2 ^ lo := h1.symm
    _ = 2 ^ lo * (2 ^ (hi + 1 - lo) * (v / 2 ^ lo / 2 ^ (hi + 1 - lo)) + v / 2 ^ lo % 2 ^ (hi + 1 - lo)) + v % 2 ^ lo := by
        rw [h2]
    _ = _ := by ring

theorem setBits_eq (v hi lo x : Nat) :
    setBits v hi lo x = v / 2 ^ lo / 2 ^ (hi + 1 - lo) * 2 ^ (hi + 1 - lo) * 2 ^ lo
      + x % 2 ^ (hi + 1 - lo) * 2 ^ lo + v % 2 ^ lo := by
  unfold setBits
  have h := bits_split v hi lo
  generalize v / 2 ^ lo / 2 ^ (hi + 1 - lo) * 2 ^ (hi + 1 - lo) * 2 ^ lo = a at h ⊢
  generalize bits v hi lo * 2 ^ lo = b at h ⊢
  omega

theorem bits_setBits_same (v hi lo x : Nat) : bits (setBits v hi lo x) hi lo = x % 2 ^ (hi + 1 - lo) := by
  rw [setBits_eq]
  unfold bits
  have hx : x % 2 ^ (hi + 1 - lo) < 2 ^ (hi + 1 - lo) := Nat.mod_lt _ (Nat.two_pow_pos _)
  have hv : v % 2 ^ lo < 2 ^ lo := Nat.mod_lt _ (Nat.two_pow_pos _)
  rw [← Nat.add_mul, Nat.add_comm, Nat.add_mul_div_right _ _ (Nat.two_pow_pos _), Nat.div_eq_of_lt hv, Nat.zero_add,
    Nat.add_comm, Nat.add_mul_mod_self_right, Nat.mod_eq_of_lt hx]

/-- The part of `setBits` below the field. -/
theorem setBits_mod (v hi lo x : Nat) : setBits v hi lo x % 2 ^ lo = v % 2 ^ lo := by
  rw [setBits_eq, ← Nat.add_mul, Nat.add_comm, Nat.add_mul_mod_self_right, Nat.mod_mod]

/-- The part of `setBits` above the field. -/
theorem setBits_div (v hi lo x : Nat) (h : lo ≤ hi + 1) : setBits v hi lo x / 2 ^ (hi + 1) = v / 2 ^ (hi + 1) := by
  have e : (2 : Nat) ^ (hi + 1) = 2 ^ lo * 2 ^ (hi + 1 - lo) := by rw [← pow_add]; congr 1; omega
  rw [e, ← Nat.div_div_eq_div_mul, ← Nat.div_div_eq_div_mul, setBits_eq]
  have hx : x % 2 ^ (hi + 1 - lo) < 2 ^ (hi + 1 - lo) := Nat.mod_lt _ (Nat.two_pow_pos _)
  have hv : v % 2 ^ lo < 2 ^ lo := Nat.mod_lt _ (Nat.two_pow_pos _)
  rw [← Nat.add_mul, Nat.add_comm, Nat.add_mul_div_right _ _ (Nat.two_pow_pos _), Nat.div_eq_of_lt hv, Nat.zero_add,
    Nat.add_comm, Nat.add_mul_div_right _ _ (Nat.two_pow_pos _), Nat.div_eq_of_lt hx, Nat.zero_add]

theorem setBits_lt (v hi lo x n : Nat) (hl : lo ≤ hi + 1) (hn : hi + 1 ≤ n) (hv : v < 2 ^ n) :
    setBits v hi lo x < 2 ^ n := by
  have h1 := setBits_div v hi lo x hl
  have e : (2 : Nat) ^ n = 2 ^ (hi + 1) * 2 ^ (n - (hi + 1)) := by rw [← pow_add]; congr 1; omega
  rw [e, Nat.mul_comm] at hv ⊢
  rw [← Nat.div_lt_iff_lt_mul (Nat.two_pow_pos _)] at hv ⊢
  omega

/-- A field read as a window of the number cut above it. -/
theorem bits_mod (v hi lo n : Nat) (h : hi + 1 ≤ n) : bits (v % 2 ^ n) hi lo = bits v hi lo := by
  unfold bits
  by_cases hl : hi + 1 ≤ lo
  · have : hi + 1 - lo = 0 := by omega
    simp [this, Nat.mod_one]
  · have e : (2 : Nat) ^ n = 2 ^ lo * 2 ^ (n - lo) := by rw [← pow_add]; congr 1; omega
    rw [e, Nat.mod_mul_right_div_self, Nat.mod_mod_of_dvd]
    exact Nat.pow_dvd_pow 2 (by omega)

/-- A field read above a cut. -/
theorem bits_div (v hi lo k : Nat) (h : k ≤ lo) (hl : lo ≤ hi) :
    bits v hi lo = bits (v / 2 ^ k) (hi - k) (lo - k) := by
  unfold bits
  rw [Nat.div_div_eq_div_mul, ← pow_add]
  have a : k + (lo - k) = lo := by omega
  have b : hi - k + 1 - (lo - k) = hi + 1 - lo := by omega
  rw [a, b]

/-- Fields that do not overlap do not change each other. -/
theorem bits_setBits_other (v hi lo x hi' lo' : Nat) (hl : lo ≤ hi) (hl' : lo' ≤ hi')
    (h : hi' < lo ∨ hi < lo') :
    bits (setBits v hi lo x) hi' lo' = bits v hi' lo' := by
  rcases h with h | h
  · rw [← bits_mod (setBits v hi lo x) hi' lo' lo (by omega), setBits_mod, bits_mod v hi' lo' lo (by omega)]
  · rw [bits_div _ hi' lo' (hi + 1) (by omega) hl', setBits_div _ _ _ _ (by omega),
      ← bits_div v hi' lo' (hi + 1) (by omega) hl']

/-! ### Byte strings -/

@[simp] theorem length_slice (bs : Bytes) (off n : Nat) : (slice bs off n).length = n := by
  simp only [slice, zeros, List.length_append, List.length_replicate, List.length_take, List.length_drop]
  omega

@[simp] theorem length_fixLen (n : Nat) (bs : Bytes) : (fixLen n bs).length = n := length_slice bs 0 n

@[simp] theorem length_le (n v : Nat) : (le n v).length = n := by
  induction n generalizing v with
  | zero => rfl
  | succ k ih => simp [le, ih]

@[simp] theorem length_zeros (n : Nat) : (zeros n).length = n := List.length_replicate

/-- The bytes that spell a number spell it back, cut to their width. -/
theorem fromLe_le (n v : Nat) : fromLe (le n v) = v % 256 ^ n := by
  induction n generalizing v with
  | zero => simp [le, fromLe, Nat.mod_one]
  | succ k ih =>
    simp only [le, fromLe, ih, BitVec.toNat_ofNat]
    have e : v % 256 ^ (k + 1) = v % 256 + 256 * (v / 256 % 256 ^ k) := by
      rw [Nat.pow_succ, Nat.mul_comm (256 ^ k) 256, Nat.mod_mul]
    rw [e]

end Sys2Proof.Machine
end

