-- ==== Sys2Proof/Laws/Exec.lean ====
section
/-!
SUPPORT. One law per command: `exec` of it is its meaning. True by computation and tagged for the simplifier, so that no later
proof unfolds the dispatch.
-/

namespace Sys2Proof.Machine

set_option linter.unusedVariables false

variable (s : State)

@[simp] theorem exec_strokeBoundary (katFail : List Nat) :
    exec (.strokeBoundary katFail) s = execStrokeBoundary katFail s := rfl
@[simp] theorem exec_summaryPost (cons : List (Nat × Nat)) :
    exec (.summaryPost cons) s = execSummaryPost cons s := rfl
@[simp] theorem exec_vectorSignal (fn vec : Nat) :
    exec (.vectorSignal fn vec) s = execVectorSignal fn vec s := rfl
@[simp] theorem exec_pounceCommit (frac : Nat) (flag flag2 attempts : Nat) (loserB : Bool) :
    exec (.pounceCommit frac flag flag2 attempts loserB) s = execPounceCommit frac flag flag2 attempts loserB s := rfl
@[simp] theorem exec_flourishSigned (frac : Nat) :
    exec (.flourishSigned frac) s = execFlourishSigned frac s := rfl
@[simp] theorem exec_laneParityFail (frac : Nat) (check : LaneCheck) :
    exec (.laneParityFail frac check) s = execLaneParityFail frac check s := rfl
@[simp] theorem exec_referenceEdge (frac : Nat) (edge : RefEdge) (offsetNs : Int) :
    exec (.referenceEdge frac edge offsetNs) s = execReferenceEdge frac edge offsetNs s := rfl
@[simp] theorem exec_referenceLost (frac : Nat) (absent : Nat) :
    exec (.referenceLost frac absent) s = execReferenceLost frac absent s := rfl
@[simp] theorem exec_acquireLocked (frac : Nat) :
    exec (.acquireLocked frac) s = execAcquireLocked frac s := rfl
@[simp] theorem exec_holdoverLimit (frac : Nat) :
    exec (.holdoverLimit frac) s = execHoldoverLimit frac s := rfl
@[simp] theorem exec_ptpMessage (frac : Nat) (port : Nat) (hdr : PtpHdr) (msg : PtpMsg) :
    exec (.ptpMessage frac port hdr msg) s = execPtpMessage frac port hdr msg s := rfl
@[simp] theorem exec_marksMissing (frac : Nat) :
    exec (.marksMissing frac) s = execMarksMissing frac s := rfl
@[simp] theorem exec_appendHoldExpiry (fn sqid cid : Nat) :
    exec (.appendHoldExpiry fn sqid cid) s = execAppendHoldExpiry fn sqid cid s := rfl
@[simp] theorem exec_linkTrained (frac speed width : Nat) (reversed : Bool) (polarity : Nat) (fault : Bool) :
    exec (.linkTrained frac speed width reversed polarity fault) s = execLinkTrained frac speed width reversed polarity fault s := rfl
@[simp] theorem exec_linkDown (frac : Nat) :
    exec (.linkDown frac) s = execLinkDown frac s := rfl
@[simp] theorem exec_hotReset (frac : Nat) :
    exec (.hotReset frac) s = execHotReset frac s := rfl
@[simp] theorem exec_perstAssert (frac : Nat) :
    exec (.perstAssert frac) s = execPerstAssert frac s := rfl
@[simp] theorem exec_perstDeassert (frac : Nat) :
    exec (.perstDeassert frac) s = execPerstDeassert frac s := rfl
@[simp] theorem exec_retrain :
    exec (.retrain) s = execRetrain s := rfl
@[simp] theorem exec_linkAttnTimeout :
    exec (.linkAttnTimeout) s = execLinkAttnTimeout s := rfl
@[simp] theorem exec_noIrqTimeout :
    exec (.noIrqTimeout) s = execNoIrqTimeout s := rfl
@[simp] theorem exec_attentionBurst :
    exec (.attentionBurst) s = execAttentionBurst s := rfl
@[simp] theorem exec_msixUnmask (fn : Nat) (w : MsixWrite) :
    exec (.msixUnmask fn w) s = execMsixUnmask fn w s := rfl
@[simp] theorem exec_dStateChange (fn : Nat) (d3 : Bool) :
    exec (.dStateChange fn d3) s = execDStateChange fn d3 s := rfl
@[simp] theorem exec_numvfsWrite (n : Nat) :
    exec (.numvfsWrite n) s = execNumvfsWrite n s := rfl
@[simp] theorem exec_dmaReadFault (fn sqid cid : Nat) :
    exec (.dmaReadFault fn sqid cid) s = execDmaReadFault fn sqid cid s := rfl
@[simp] theorem exec_completionTimeout (fn sqid cid : Nat) :
    exec (.completionTimeout fn sqid cid) s = execCompletionTimeout fn sqid cid s := rfl
@[simp] theorem exec_dmaWriteRejected (fn sqid cid : Nat) :
    exec (.dmaWriteRejected fn sqid cid) s = execDmaWriteRejected fn sqid cid s := rfl
@[simp] theorem exec_writeDataArrived (fn sqid cid : Nat) (data : Bytes) :
    exec (.writeDataArrived fn sqid cid data) s = execWriteDataArrived fn sqid cid data s := rfl
@[simp] theorem exec_sqTailDoorbell (frac fn sqid tail : Nat) :
    exec (.sqTailDoorbell frac fn sqid tail) s = execSqTailDoorbell frac fn sqid tail s := rfl
@[simp] theorem exec_cqHeadDoorbell (fn cqid head : Nat) :
    exec (.cqHeadDoorbell fn cqid head) s = execCqHeadDoorbell fn cqid head s := rfl
@[simp] theorem exec_ccEnSet (fn ams mps asqBase asqSize acqBase acqSize : Nat) :
    exec (.ccEnSet fn ams mps asqBase asqSize acqBase acqSize) s = execCcEnSet fn ams mps asqBase asqSize acqBase acqSize s := rfl
@[simp] theorem exec_ccEnClear (frac fn : Nat) :
    exec (.ccEnClear frac fn) s = execCcEnClear frac fn s := rfl
@[simp] theorem exec_flrInitiate (frac fn : Nat) :
    exec (.flrInitiate frac fn) s = execFlrInitiate frac fn s := rfl
@[simp] theorem exec_flrCommit :
    exec (.flrCommit) s = execFlrCommit s := rfl
@[simp] theorem exec_identify (q : Sqe) (cns cntid : Nat) :
    exec (.identify q cns cntid) s = execIdentify q cns cntid s := rfl
@[simp] theorem exec_getFeatures (q : Sqe) (fid sel dw11 : Nat) :
    exec (.getFeatures q fid sel dw11) s = execGetFeatures q fid sel dw11 s := rfl
@[simp] theorem exec_setFeatures (q : Sqe) (fid : Nat) (save : Bool) (dw11 : Nat) (data : Bytes) :
    exec (.setFeatures q fid save dw11 data) s = execSetFeatures q fid save dw11 data s := rfl
@[simp] theorem exec_getLogPage (q : Sqe) (lid lsp numd off : Nat) (how : LogRead) :
    exec (.getLogPage q lid lsp numd off how) s = execGetLogPage q lid lsp numd off how s := rfl
@[simp] theorem exec_createIoSq (q : Sqe) (sqid size base cqid prio : Nat) (pc : Bool) :
    exec (.createIoSq q sqid size base cqid prio pc) s = execCreateIoSq q sqid size base cqid prio pc s := rfl
@[simp] theorem exec_createIoCq (q : Sqe) (cqid size base vector : Nat) (ien pc : Bool) :
    exec (.createIoCq q cqid size base vector ien pc) s = execCreateIoCq q cqid size base vector ien pc s := rfl
@[simp] theorem exec_deleteIoSq (q : Sqe) (sqid : Nat) :
    exec (.deleteIoSq q sqid) s = execDeleteIoSq q sqid s := rfl
@[simp] theorem exec_deleteIoCq (q : Sqe) (cqid : Nat) :
    exec (.deleteIoCq q cqid) s = execDeleteIoCq q cqid s := rfl
@[simp] theorem exec_abortCmd (q : Sqe) (sqid cid : Nat) :
    exec (.abortCmd q sqid cid) s = execAbortCmd q sqid cid s := rfl
@[simp] theorem exec_asyncEventRequest (q : Sqe) :
    exec (.asyncEventRequest q) s = execAsyncEventRequest q s := rfl
@[simp] theorem exec_namespaceCreate (q : Sqe) (data : Bytes) :
    exec (.namespaceCreate q data) s = execNamespaceCreate q data s := rfl
@[simp] theorem exec_namespaceDelete (q : Sqe) :
    exec (.namespaceDelete q) s = execNamespaceDelete q s := rfl
@[simp] theorem exec_namespaceAttach (q : Sqe) (ctrls : List Nat) :
    exec (.namespaceAttach q ctrls) s = execNamespaceAttach q ctrls s := rfl
@[simp] theorem exec_namespaceDetach (q : Sqe) (ctrls : List Nat) :
    exec (.namespaceDetach q ctrls) s = execNamespaceDetach q ctrls s := rfl
@[simp] theorem exec_unitTransitionCommit :
    exec (.unitTransitionCommit) s = execUnitTransitionCommit s := rfl
@[simp] theorem exec_vmAssignResources (q : Sqe) (cntlid : Nat) (primary : Bool) (rt nr : Nat) :
    exec (.vmAssignResources q cntlid primary rt nr) s = execVmAssignResources q cntlid primary rt nr s := rfl
@[simp] theorem exec_vmOnline (q : Sqe) (cntlid : Nat) :
    exec (.vmOnline q cntlid) s = execVmOnline q cntlid s := rfl
@[simp] theorem exec_vmOffline (q : Sqe) (cntlid : Nat) :
    exec (.vmOffline q cntlid) s = execVmOffline q cntlid s := rfl
@[simp] theorem exec_formatNvm (q : Sqe) (lbaf ses : Nat) :
    exec (.formatNvm q lbaf ses) s = execFormatNvm q lbaf ses s := rfl
@[simp] theorem exec_formatDone (nsid : Nat) :
    exec (.formatDone nsid) s = execFormatDone nsid s := rfl
@[simp] theorem exec_sanitizeCryptoErase (q : Sqe) :
    exec (.sanitizeCryptoErase q) s = execSanitizeCryptoErase q s := rfl
@[simp] theorem exec_sanitizeBlockErase (q : Sqe) :
    exec (.sanitizeBlockErase q) s = execSanitizeBlockErase q s := rfl
@[simp] theorem exec_sanitizeDone :
    exec (.sanitizeDone) s = execSanitizeDone s := rfl
@[simp] theorem exec_deviceSelfTest (q : Sqe) (stc : Nat) :
    exec (.deviceSelfTest q stc) s = execDeviceSelfTest q stc s := rfl
@[simp] theorem exec_directiveSend (q : Sqe) (dtype doper dspec value : Nat) :
    exec (.directiveSend q dtype doper dspec value) s = execDirectiveSend q dtype doper dspec value s := rfl
@[simp] theorem exec_directiveReceive (q : Sqe) (dtype doper numd value : Nat) :
    exec (.directiveReceive q dtype doper numd value) s = execDirectiveReceive q dtype doper numd value s := rfl
@[simp] theorem exec_nvmeMiSend (q : Sqe) (opcode dw0 dw1 : Nat) (data : Bytes) :
    exec (.nvmeMiSend q opcode dw0 dw1 data) s = execNvmeMiSend q opcode dw0 dw1 data s := rfl
@[simp] theorem exec_nvmeMiReceive (q : Sqe) (opcode dw0 dw1 : Nat) :
    exec (.nvmeMiReceive q opcode dw0 dw1) s = execNvmeMiReceive q opcode dw0 dw1 s := rfl
@[simp] theorem exec_firmwareDownload (q : Sqe) (ofst numd : Nat) (data : Bytes) (sectorLost : Bool) :
    exec (.firmwareDownload q ofst numd data sectorLost) s = execFirmwareDownload q ofst numd data sectorLost s := rfl
@[simp] theorem exec_firmwareCommit (q : Sqe) (fs ca : Nat) :
    exec (.firmwareCommit q fs ca) s = execFirmwareCommit q fs ca s := rfl
@[simp] theorem exec_activateBegin :
    exec (.activateBegin) s = execActivateBegin s := rfl
@[simp] theorem exec_activateEnd (frac : Nat) (ok : Bool) (us : Nat) :
    exec (.activateEnd frac ok us) s = execActivateEnd frac ok us s := rfl
@[simp] theorem exec_readCmd (q : Sqe) (slba nlb : Nat) :
    exec (.readCmd q slba nlb) s = execReadCmd q slba nlb s := rfl
@[simp] theorem exec_writeCmd (q : Sqe) (slba nlb dtype dspec : Nat) :
    exec (.writeCmd q slba nlb dtype dspec) s = execWriteCmd q slba nlb dtype dspec s := rfl
@[simp] theorem exec_compareCmd (q : Sqe) (slba nlb : Nat) (host : Bytes) :
    exec (.compareCmd q slba nlb host) s = execCompareCmd q slba nlb host s := rfl
@[simp] theorem exec_verifyCmd (q : Sqe) (slba nlb : Nat) :
    exec (.verifyCmd q slba nlb) s = execVerifyCmd q slba nlb s := rfl
@[simp] theorem exec_writeZeroes (q : Sqe) (slba nlb : Nat) (deac : Bool) :
    exec (.writeZeroes q slba nlb deac) s = execWriteZeroes q slba nlb deac s := rfl
@[simp] theorem exec_datasetManagement (q : Sqe) (ad : Bool) (ranges : List (Nat × Nat)) :
    exec (.datasetManagement q ad ranges) s = execDatasetManagement q ad ranges s := rfl
@[simp] theorem exec_deallocatePass :
    exec (.deallocatePass) s = execDeallocatePass s := rfl
@[simp] theorem exec_flushCmd (q : Sqe) :
    exec (.flushCmd q) s = execFlushCmd q s := rfl
@[simp] theorem exec_sealedAppend (q : Sqe) (nlb lastBytes expected : Nat) :
    exec (.sealedAppend q nlb lastBytes expected) s = execSealedAppend q nlb lastBytes expected s := rfl
@[simp] theorem exec_verifyRange (q : Sqe) (slba nlb : Nat) (chain : Bool) :
    exec (.verifyRange q slba nlb chain) s = execVerifyRange q slba nlb chain s := rfl
@[simp] theorem exec_proofRead (q : Sqe) (stroke kind numd : Nat) :
    exec (.proofRead q stroke kind numd) s = execProofRead q stroke kind numd s := rfl
@[simp] theorem exec_holdPlace (q : Sqe) (first last tag : Nat) :
    exec (.holdPlace q first last tag) s = execHoldPlace q first last tag s := rfl
@[simp] theorem exec_holdQuery (q : Sqe) (first last : Nat) :
    exec (.holdQuery q first last) s = execHoldQuery q first last s := rfl
@[simp] theorem exec_exportBundle (q : Sqe) (first last comp level : Nat) (proofs sign : Bool) (numd resume : Nat) :
    exec (.exportBundle q first last comp level proofs sign numd resume) s = execExportBundle q first last comp level proofs sign numd resume s := rfl
@[simp] theorem exec_exportCookieLapse :
    exec (.exportCookieLapse) s = execExportCookieLapse s := rfl
@[simp] theorem exec_releaseCmd (q : Sqe) (numd : Nat) (token : Bytes) :
    exec (.releaseCmd q numd token) s = execReleaseCmd q numd token s := rfl
@[simp] theorem exec_releaseDryrun (q : Sqe) (numd : Nat) (token : Bytes) :
    exec (.releaseDryrun q numd token) s = execReleaseDryrun q numd token s := rfl
@[simp] theorem exec_graphLoad (q : Sqe) (numd off total : Nat) (data : Bytes) :
    exec (.graphLoad q numd off total data) s = execGraphLoad q numd off total data s := rfl
@[simp] theorem exec_graphRelease (q : Sqe) (numd off handle high : Nat) :
    exec (.graphRelease q numd off handle high) s = execGraphRelease q numd off handle high s := rfl
@[simp] theorem exec_graphStart (q : Sqe) (handle tag limit : Nat) :
    exec (.graphStart q handle tag limit) s = execGraphStart q handle tag limit s := rfl
@[simp] theorem exec_graphResult (q : Sqe) (handle run numd : Nat) (wait : Bool) :
    exec (.graphResult q handle run numd wait) s = execGraphResult q handle run numd wait s := rfl
@[simp] theorem exec_flowBind (q : Sqe) (numd : Nat) (desc : Bytes) :
    exec (.flowBind q numd desc) s = execFlowBind q numd desc s := rfl
@[simp] theorem exec_flowUnbind (q : Sqe) (numd flow : Nat) (desc : Bytes) :
    exec (.flowUnbind q numd flow desc) s = execFlowUnbind q numd flow desc s := rfl
@[simp] theorem exec_flowModify (q : Sqe) (numd flow : Nat) (desc : Bytes) :
    exec (.flowModify q numd flow desc) s = execFlowModify q numd flow desc s := rfl
@[simp] theorem exec_ringBind (q : Sqe) (numd action flow : Nat) (desc : Bytes) :
    exec (.ringBind q numd action flow desc) s = execRingBind q numd action flow desc s := rfl
@[simp] theorem exec_ringRemove (q : Sqe) (numd flow : Nat) (desc : Bytes) :
    exec (.ringRemove q numd flow desc) s = execRingRemove q numd flow desc s := rfl
@[simp] theorem exec_bindCommit :
    exec (.bindCommit) s = execBindCommit s := rfl
@[simp] theorem exec_keyBlobLoad (q : Sqe) (numd slot wrap : Nat) (blob : Bytes) :
    exec (.keyBlobLoad q numd slot wrap blob) s = execKeyBlobLoad q numd slot wrap blob s := rfl
@[simp] theorem exec_domainConfigure (q : Sqe) (numd : Nat) (data : Bytes) :
    exec (.domainConfigure q numd data) s = execDomainConfigure q numd data s := rfl
@[simp] theorem exec_domainRealign (q : Sqe) :
    exec (.domainRealign q) s = execDomainRealign q s := rfl
@[simp] theorem exec_domainCommit :
    exec (.domainCommit) s = execDomainCommit s := rfl
@[simp] theorem exec_domainPrepareTimeout :
    exec (.domainPrepareTimeout) s = execDomainPrepareTimeout s := rfl
@[simp] theorem exec_modeRequest (q : Sqe) (target : Nat) (note : Option Bytes) :
    exec (.modeRequest q target note) s = execModeRequest q target note s := rfl
@[simp] theorem exec_modeTransitionBegin :
    exec (.modeTransitionBegin) s = execModeTransitionBegin s := rfl
@[simp] theorem exec_modeTransitionDone (frac : Nat) :
    exec (.modeTransitionDone frac) s = execModeTransitionDone frac s := rfl
@[simp] theorem exec_orderlyStop :
    exec (.orderlyStop) s = execOrderlyStop s := rfl
@[simp] theorem exec_orderlyStopDrainTimeout (frac : Nat) :
    exec (.orderlyStopDrainTimeout frac) s = execOrderlyStopDrainTimeout frac s := rfl
@[simp] theorem exec_parkBurst :
    exec (.parkBurst) s = execParkBurst s := rfl
@[simp] theorem exec_parkChannelIdle :
    exec (.parkChannelIdle) s = execParkChannelIdle s := rfl
@[simp] theorem exec_wakeTimer :
    exec (.wakeTimer) s = execWakeTimer s := rfl
@[simp] theorem exec_ignitionOffDelay :
    exec (.ignitionOffDelay) s = execIgnitionOffDelay s := rfl
@[simp] theorem exec_deviceReset :
    exec (.deviceReset) s = execDeviceReset s := rfl
@[simp] theorem exec_scribeWatchdog (core : Nat) :
    exec (.scribeWatchdog core) s = execScribeWatchdog core s := rfl
@[simp] theorem exec_droopTrip (frac : Nat) (regions : List Nat) :
    exec (.droopTrip frac regions) s = execDroopTrip frac regions s := rfl
@[simp] theorem exec_droopRestore (frac : Nat) :
    exec (.droopRestore frac) s = execDroopRestore frac s := rfl
@[simp] theorem exec_thermalSample (frac : Nat) (readings : List Int) :
    exec (.thermalSample frac readings) s = execThermalSample frac readings s := rfl
@[simp] theorem exec_thermalStepDown :
    exec (.thermalStepDown) s = execThermalStepDown s := rfl
@[simp] theorem exec_sensorFail (sensor : Nat) (last : Int) :
    exec (.sensorFail sensor last) s = execSensorFail sensor last s := rfl
@[simp] theorem exec_vmonSample (frac : Nat) (mv : List Nat) :
    exec (.vmonSample frac mv) s = execVmonSample frac mv s := rfl
@[simp] theorem exec_vmonOvervoltage (mon mv : Nat) :
    exec (.vmonOvervoltage mon mv) s = execVmonOvervoltage mon mv s := rfl
@[simp] theorem exec_vmonSelfCheck (bad : List Nat) :
    exec (.vmonSelfCheck bad) s = execVmonSelfCheck bad s := rfl
@[simp] theorem exec_pmonMeasure (freqs : List (Nat × Int)) :
    exec (.pmonMeasure freqs) s = execPmonMeasure freqs s := rfl
@[simp] theorem exec_evtSample (frac : Nat) (samples : List EvtSample) :
    exec (.evtSample frac samples) s = execEvtSample frac samples s := rfl
@[simp] theorem exec_logClear :
    exec (.logClear) s = execLogClear s := rfl
@[simp] theorem exec_pfailTrip (frac : Nat) :
    exec (.pfailTrip frac) s = execPfailTrip frac s := rfl
@[simp] theorem exec_pfailGlitch (frac width : Nat) :
    exec (.pfailGlitch frac width) s = execPfailGlitch frac width s := rfl
@[simp] theorem exec_holdSenseTrip (frac mv : Nat) :
    exec (.holdSenseTrip frac mv) s = execHoldSenseTrip frac mv s := rfl
@[simp] theorem exec_railUndervoltage (frac mon mv : Nat) :
    exec (.railUndervoltage frac mon mv) s = execRailUndervoltage frac mon mv s := rfl
@[simp] theorem exec_dieLinkFail (frac : Nat) :
    exec (.dieLinkFail frac) s = execDieLinkFail frac s := rfl
@[simp] theorem exec_holdArmChange (frac mv : Nat) :
    exec (.holdArmChange frac mv) s = execHoldArmChange frac mv s := rfl
@[simp] theorem exec_sealInflightDeadline :
    exec (.sealInflightDeadline) s = execSealInflightDeadline s := rfl
@[simp] theorem exec_sealEnd (frac : Nat) (clear summaryOk snapshotOk : Bool) :
    exec (.sealEnd frac clear summaryOk snapshotOk) s = execSealEnd frac clear summaryOk snapshotOk s := rfl
@[simp] theorem exec_alwaysOnPowerApplied :
    exec (.alwaysOnPowerApplied) s = execAlwaysOnPowerApplied s := rfl
@[simp] theorem exec_alwaysOnResetEnd :
    exec (.alwaysOnResetEnd) s = execAlwaysOnResetEnd s := rfl
@[simp] theorem exec_computeRailsGood :
    exec (.computeRailsGood) s = execComputeRailsGood s := rfl
@[simp] theorem exec_powerUpTimeout :
    exec (.powerUpTimeout) s = execPowerUpTimeout s := rfl
@[simp] theorem exec_mediaBringupStart (chans : List ChanUp) (dram : DramUp) (rawGib : Nat) (entropyOk : Bool) :
    exec (.mediaBringupStart chans dram rawGib entropyOk) s = execMediaBringupStart chans dram rawGib entropyOk s := rfl
@[simp] theorem exec_alwaysOnPowerLost :
    exec (.alwaysOnPowerLost) s = execAlwaysOnPowerLost s := rfl
@[simp] theorem exec_mountComplete (frac : Nat) (media : MountMedia) :
    exec (.mountComplete frac media) s = execMountComplete frac media s := rfl
@[simp] theorem exec_nb5210ScanComplete (units : List OldUnit) :
    exec (.nb5210ScanComplete units) s = execNb5210ScanComplete units s := rfl
@[simp] theorem exec_bootCopyDone (comp : Nat) (ok : Bool) (ms : Nat) :
    exec (.bootCopyDone comp ok ms) s = execBootCopyDone comp ok ms s := rfl
@[simp] theorem exec_nandStatusPoll (die : Nat) :
    exec (.nandStatusPoll die) s = execNandStatusPoll die s := rfl
@[simp] theorem exec_nandReadDone (die : Nat) (res : List DecodeRes) :
    exec (.nandReadDone die res) s = execNandReadDone die res s := rfl
@[simp] theorem exec_nandProgramDone (die : Nat) (pass : Bool) :
    exec (.nandProgramDone die pass) s = execNandProgramDone die pass s := rfl
@[simp] theorem exec_nandEraseDone (die : Nat) (pass : Bool) :
    exec (.nandEraseDone die pass) s = execNandEraseDone die pass s := rfl
@[simp] theorem exec_nandTimeout (die : Nat) :
    exec (.nandTimeout die) s = execNandTimeout die s := rfl
@[simp] theorem exec_operationSuspend (at_ : DieAt) :
    exec (.operationSuspend at_) s = execOperationSuspend at_ s := rfl
@[simp] theorem exec_dqsRecenter (channel ce : Nat) :
    exec (.dqsRecenter channel ce) s = execDqsRecenter channel ce s := rfl
@[simp] theorem exec_deepDecodeDone (frac : Nat) (res : DecodeRes) :
    exec (.deepDecodeDone frac res) s = execDeepDecodeDone frac res s := rfl
@[simp] theorem exec_stripeRebuildDone (frac die unit : Nat) :
    exec (.stripeRebuildDone frac die unit) s = execStripeRebuildDone frac die unit s := rfl
@[simp] theorem exec_dieRebuildDone (die : Nat) :
    exec (.dieRebuildDone die) s = execDieRebuildDone die s := rfl
@[simp] theorem exec_nodeDispatch (frac graph node core : Nat) :
    exec (.nodeDispatch frac graph node core) s = execNodeDispatch frac graph node core s := rfl
@[simp] theorem exec_nodeEnd (frac graph node : Nat) (res : JobRes) :
    exec (.nodeEnd frac graph node res) s = execNodeEnd frac graph node res s := rfl
@[simp] theorem exec_nodePreempt (frac core : Nat) :
    exec (.nodePreempt frac core) s = execNodePreempt frac core s := rfl
@[simp] theorem exec_nodeWaitTimeout (graph node : Nat) :
    exec (.nodeWaitTimeout graph node) s = execNodeWaitTimeout graph node s := rfl
@[simp] theorem exec_nibInterrupt (frac core : Nat) :
    exec (.nibInterrupt frac core) s = execNibInterrupt frac core s := rfl
@[simp] theorem exec_nibMachineCheck (frac core : Nat) :
    exec (.nibMachineCheck frac core) s = execNibMachineCheck frac core s := rfl
@[simp] theorem exec_digestGroupDone (frac graph node : Nat) :
    exec (.digestGroupDone frac graph node) s = execDigestGroupDone frac graph node s := rfl
@[simp] theorem exec_compressBlockDone (graph node : Nat) (verifyBad : Bool) :
    exec (.compressBlockDone graph node verifyBad) s = execCompressBlockDone graph node verifyBad s := rfl
@[simp] theorem exec_sieveLookup (graph : Nat) (node : LookupNode) :
    exec (.sieveLookup graph node) s = execSieveLookup graph node s := rfl
@[simp] theorem exec_sieveWrite (graph node : Nat) :
    exec (.sieveWrite graph node) s = execSieveWrite graph node s := rfl
@[simp] theorem exec_sieveInsert (graph node : Nat) :
    exec (.sieveInsert graph node) s = execSieveInsert graph node s := rfl
@[simp] theorem exec_sieveInvalidate (graph node : Nat) :
    exec (.sieveInvalidate graph node) s = execSieveInvalidate graph node s := rfl
@[simp] theorem exec_sieveRead (graph node : Nat) :
    exec (.sieveRead graph node) s = execSieveRead graph node s := rfl
@[simp] theorem exec_sieveScan (parityBad : Bool) :
    exec (.sieveScan parityBad) s = execSieveScan parityBad s := rfl
@[simp] theorem exec_sieveGo (go : LookupGo) :
    exec (.sieveGo go) s = execSieveGo go s := rfl
@[simp] theorem exec_sieveNext :
    exec (.sieveNext) s = execSieveNext s := rfl
@[simp] theorem exec_feedOpen (value : Nat) :
    exec (.feedOpen value) s = execFeedOpen value s := rfl
@[simp] theorem exec_feedData (word : Nat) :
    exec (.feedData word) s = execFeedData word s := rfl
@[simp] theorem exec_feedLast (word : Nat) :
    exec (.feedLast word) s = execFeedLast word s := rfl
@[simp] theorem exec_feedAbort :
    exec (.feedAbort) s = execFeedAbort s := rfl
@[simp] theorem exec_feedDone (flags : Nat) :
    exec (.feedDone flags) s = execFeedDone flags s := rfl
@[simp] theorem exec_slotClear (slot : Nat) (all : Bool) :
    exec (.slotClear slot all) s = execSlotClear slot all s := rfl
@[simp] theorem exec_dramFreqRequest (point : Nat) :
    exec (.dramFreqRequest point) s = execDramFreqRequest point s := rfl
@[simp] theorem exec_dramRetrainGather (frac : Nat) (reading : DramReading) :
    exec (.dramRetrainGather frac reading) s = execDramRetrainGather frac reading s := rfl
@[simp] theorem exec_dramGatherEnd (frac : Nat) :
    exec (.dramGatherEnd frac) s = execDramGatherEnd frac s := rfl
@[simp] theorem exec_dramRefreshPoll (mult : List Nat) (hot : List (Nat × Nat)) :
    exec (.dramRefreshPoll mult hot) s = execDramRefreshPoll mult hot s := rfl
@[simp] theorem exec_dramRequestPromote (cls waitedUs bytes : Nat) :
    exec (.dramRequestPromote cls waitedUs bytes) s = execDramRequestPromote cls waitedUs bytes s := rfl
@[simp] theorem exec_dramUe (addr source cls : Nat) (hit : DramHit) :
    exec (.dramUe addr source cls hit) s = execDramUe addr source cls hit s := rfl
@[simp] theorem exec_inkwellUe (offset : Nat) (hit : WellHit) :
    exec (.inkwellUe offset hit) s = execInkwellUe offset hit s := rfl
@[simp] theorem exec_inkProgram (who addr : Nat) (data : Bytes) :
    exec (.inkProgram who addr data) s = execInkProgram who addr data s := rfl
@[simp] theorem exec_inkErase (who addr : Nat) :
    exec (.inkErase who addr) s = execInkErase who addr s := rfl
@[simp] theorem exec_inkRead (who addr : Nat) (chk : Chk) :
    exec (.inkRead who addr chk) s = execInkRead who addr chk s := rfl
@[simp] theorem exec_inkOpDone (bank pulses : Nat) (fail : Bool) :
    exec (.inkOpDone bank pulses fail) s = execInkOpDone bank pulses fail s := rfl
@[simp] theorem exec_settingsSave :
    exec (.settingsSave) s = execSettingsSave s := rfl
@[simp] theorem exec_settingsSaveTimer :
    exec (.settingsSaveTimer) s = execSettingsSaveTimer s := rfl
@[simp] theorem exec_portEnable (port : Nat) :
    exec (.portEnable port) s = execPortEnable port s := rfl
@[simp] theorem exec_portLinkUp (frac port : Nat) (up : PortUp) :
    exec (.portLinkUp frac port up) s = execPortLinkUp frac port up s := rfl
@[simp] theorem exec_portLinkLost (frac port : Nat) :
    exec (.portLinkLost frac port) s = execPortLinkLost frac port s := rfl
@[simp] theorem exec_txPolarityToggle (port : Nat) (look : PortTry) :
    exec (.txPolarityToggle port look) s = execTxPolarityToggle port look s := rfl
@[simp] theorem exec_arpRequest (port senderMac senderIp targetIp : Nat) :
    exec (.arpRequest port senderMac senderIp targetIp) s = execArpRequest port senderMac senderIp targetIp s := rfl
@[simp] theorem exec_neighbourSolicitation (port senderMac senderIp targetIp : Nat) :
    exec (.neighbourSolicitation port senderMac senderIp targetIp) s = execNeighbourSolicitation port senderMac senderIp targetIp s := rfl
@[simp] theorem exec_frameReceived (frac port : Nat) (frame : Bytes) (fcsBad : Bool) (noRoom : Bool) (levelKib : Nat) :
    exec (.frameReceived frac port frame fcsBad noRoom levelKib) s = execFrameReceived frac port frame fcsBad noRoom levelKib s := rfl
@[simp] theorem exec_silentTimeout (frac flow : Nat) :
    exec (.silentTimeout frac flow) s = execSilentTimeout frac flow s := rfl
@[simp] theorem exec_oxvLinkUp (frac link width polarity laneMap : Nat) :
    exec (.oxvLinkUp frac link width polarity laneMap) s = execOxvLinkUp frac link width polarity laneMap s := rfl
@[simp] theorem exec_oxvLinkDown (frac link : Nat) :
    exec (.oxvLinkDown frac link) s = execOxvLinkDown frac link s := rfl
@[simp] theorem exec_markFrame (frac : Nat) (h : OxvHdr) (count state flog2 period root corr tag : Nat) (arrivalNs : Int) :
    exec (.markFrame frac h count state flog2 period root corr tag arrivalNs) s = execMarkFrame frac h count state flog2 period root corr tag arrivalNs s := rfl
@[simp] theorem exec_delayReq (link : Nat) (payload : Bytes) :
    exec (.delayReq link payload) s = execDelayReq link payload s := rfl
@[simp] theorem exec_delayResp (link ns : Nat) :
    exec (.delayResp link ns) s = execDelayResp link ns s := rfl
@[simp] theorem exec_helloFrame (link rev min tag dev : Nat) :
    exec (.helloFrame link rev min tag dev) s = execHelloFrame link rev min tag dev s := rfl
@[simp] theorem exec_fdFrame (h : OxvHdr) (dev index : Nat) (fd : Bytes) :
    exec (.fdFrame h dev index fd) s = execFdFrame h dev index fd s := rfl
@[simp] theorem exec_controlFrame (h : OxvHdr) (m : ControlMsg) :
    exec (.controlFrame h m) s = execControlFrame h m s := rfl
@[simp] theorem exec_oxvStatusFrame (h : OxvHdr) (mode attn rev min index lag ups : Nat) :
    exec (.oxvStatusFrame h mode attn rev min index lag ups) s = execOxvStatusFrame h mode attn rev min index lag ups s := rfl
@[simp] theorem exec_mirrorFrame (h : OxvHdr) (nsid stroke lba : Nat) (data : Bytes) :
    exec (.mirrorFrame h nsid stroke lba data) s = execMirrorFrame h nsid stroke lba data s := rfl
@[simp] theorem exec_mirrorAck (h : OxvHdr) (nsid stroke : Nat) :
    exec (.mirrorAck h nsid stroke) s = execMirrorAck h nsid stroke s := rfl
@[simp] theorem exec_proxyFrame (h : OxvHdr) (m : ProxyMsg) :
    exec (.proxyFrame h m) s = execProxyFrame h m s := rfl
@[simp] theorem exec_nakFrame (link seq : Nat) :
    exec (.nakFrame link seq) s = execNakFrame link seq s := rfl
@[simp] theorem exec_replayTimeout (link : Nat) :
    exec (.replayTimeout link) s = execReplayTimeout link s := rfl
@[simp] theorem exec_memberUnreachable (dev : Nat) :
    exec (.memberUnreachable dev) s = execMemberUnreachable dev s := rfl
@[simp] theorem exec_remoteGo (value : Nat) :
    exec (.remoteGo value) s = execRemoteGo value s := rfl
@[simp] theorem exec_miReadDataStructure (dtyp port ctrl : Nat) :
    exec (.miReadDataStructure dtyp port ctrl) s = execMiReadDataStructure dtyp port ctrl s := rfl
@[simp] theorem exec_miSubsystemHealthPoll (clear : Bool) :
    exec (.miSubsystemHealthPoll clear) s = execMiSubsystemHealthPoll clear s := rfl
@[simp] theorem exec_miControllerHealthPoll (first max : Nat) :
    exec (.miControllerHealthPoll first max) s = execMiControllerHealthPoll first max s := rfl
@[simp] theorem exec_miConfigurationSet (cid port value : Nat) :
    exec (.miConfigurationSet cid port value) s = execMiConfigurationSet cid port value s := rfl
@[simp] theorem exec_miConfigurationGet (cid port : Nat) :
    exec (.miConfigurationGet cid port) s = execMiConfigurationGet cid port s := rfl
@[simp] theorem exec_miVpdRead (off len : Nat) :
    exec (.miVpdRead off len) s = execMiVpdRead off len s := rfl
@[simp] theorem exec_miVpdWrite (off : Nat) (data : Bytes) :
    exec (.miVpdWrite off data) s = execMiVpdWrite off data s := rfl
@[simp] theorem exec_miReset :
    exec (.miReset) s = execMiReset s := rfl
@[simp] theorem exec_miAdminTunnel (ctrl dlen : Nat) (cmd : TunnelCmd) :
    exec (.miAdminTunnel ctrl dlen cmd) s = execMiAdminTunnel ctrl dlen cmd s := rfl
@[simp] theorem exec_latchedReadLo (off : Nat) :
    exec (.latchedReadLo off) s = execLatchedReadLo off s := rfl
@[simp] theorem exec_registerWrite (off value : Nat) (full : Bool) :
    exec (.registerWrite off value full) s = execRegisterWrite off value full s := rfl
@[simp] theorem exec_nop (o : NibOp) :
    exec (.nop o) s = execNop o s := rfl
@[simp] theorem exec_add (o : NibOp) :
    exec (.add o) s = execAdd o s := rfl
@[simp] theorem exec_addc (o : NibOp) :
    exec (.addc o) s = execAddc o s := rfl
@[simp] theorem exec_adds (o : NibOp) :
    exec (.adds o) s = execAdds o s := rfl
@[simp] theorem exec_sub (o : NibOp) :
    exec (.sub o) s = execSub o s := rfl
@[simp] theorem exec_subb (o : NibOp) :
    exec (.subb o) s = execSubb o s := rfl
@[simp] theorem exec_subs (o : NibOp) :
    exec (.subs o) s = execSubs o s := rfl
@[simp] theorem exec_neg (o : NibOp) :
    exec (.neg o) s = execNeg o s := rfl
@[simp] theorem exec_negs (o : NibOp) :
    exec (.negs o) s = execNegs o s := rfl
@[simp] theorem exec_abs (o : NibOp) :
    exec (.abs o) s = execAbs o s := rfl
@[simp] theorem exec_abss (o : NibOp) :
    exec (.abss o) s = execAbss o s := rfl
@[simp] theorem exec_cmp (o : NibOp) :
    exec (.cmp o) s = execCmp o s := rfl
@[simp] theorem exec_cmpc (o : NibOp) :
    exec (.cmpc o) s = execCmpc o s := rfl
@[simp] theorem exec_andOp (o : NibOp) :
    exec (.andOp o) s = execAndOp o s := rfl
@[simp] theorem exec_orOp (o : NibOp) :
    exec (.orOp o) s = execOrOp o s := rfl
@[simp] theorem exec_xor (o : NibOp) :
    exec (.xor o) s = execXor o s := rfl
@[simp] theorem exec_andn (o : NibOp) :
    exec (.andn o) s = execAndn o s := rfl
@[simp] theorem exec_notOp (o : NibOp) :
    exec (.notOp o) s = execNotOp o s := rfl
@[simp] theorem exec_mov (o : NibOp) :
    exec (.mov o) s = execMov o s := rfl
@[simp] theorem exec_minOp (o : NibOp) :
    exec (.minOp o) s = execMinOp o s := rfl
@[simp] theorem exec_maxOp (o : NibOp) :
    exec (.maxOp o) s = execMaxOp o s := rfl
@[simp] theorem exec_minu (o : NibOp) :
    exec (.minu o) s = execMinu o s := rfl
@[simp] theorem exec_maxu (o : NibOp) :
    exec (.maxu o) s = execMaxu o s := rfl
@[simp] theorem exec_sel (o : NibOp) :
    exec (.sel o) s = execSel o s := rfl
@[simp] theorem exec_sext8 (o : NibOp) :
    exec (.sext8 o) s = execSext8 o s := rfl
@[simp] theorem exec_zext8 (o : NibOp) :
    exec (.zext8 o) s = execZext8 o s := rfl
@[simp] theorem exec_clz (o : NibOp) :
    exec (.clz o) s = execClz o s := rfl
@[simp] theorem exec_popc (o : NibOp) :
    exec (.popc o) s = execPopc o s := rfl
@[simp] theorem exec_tst (o : NibOp) :
    exec (.tst o) s = execTst o s := rfl
@[simp] theorem exec_movf (o : NibOp) :
    exec (.movf o) s = execMovf o s := rfl
@[simp] theorem exec_movt (o : NibOp) :
    exec (.movt o) s = execMovt o s := rfl
@[simp] theorem exec_ldi (o : NibOp) :
    exec (.ldi o) s = execLdi o s := rfl
@[simp] theorem exec_mul (o : NibOp) :
    exec (.mul o) s = execMul o s := rfl
@[simp] theorem exec_mull (o : NibOp) :
    exec (.mull o) s = execMull o s := rfl
@[simp] theorem exec_mullu (o : NibOp) :
    exec (.mullu o) s = execMullu o s := rfl
@[simp] theorem exec_mulq (o : NibOp) :
    exec (.mulq o) s = execMulq o s := rfl
@[simp] theorem exec_mulqr (o : NibOp) :
    exec (.mulqr o) s = execMulqr o s := rfl
@[simp] theorem exec_mac (o : NibOp) :
    exec (.mac o) s = execMac o s := rfl
@[simp] theorem exec_macs (o : NibOp) :
    exec (.macs o) s = execMacs o s := rfl
@[simp] theorem exec_shl (o : NibOp) :
    exec (.shl o) s = execShl o s := rfl
@[simp] theorem exec_shr (o : NibOp) :
    exec (.shr o) s = execShr o s := rfl
@[simp] theorem exec_sar (o : NibOp) :
    exec (.sar o) s = execSar o s := rfl
@[simp] theorem exec_asl (o : NibOp) :
    exec (.asl o) s = execAsl o s := rfl
@[simp] theorem exec_rol (o : NibOp) :
    exec (.rol o) s = execRol o s := rfl
@[simp] theorem exec_ror (o : NibOp) :
    exec (.ror o) s = execRor o s := rfl
@[simp] theorem exec_divs (o : NibOp) :
    exec (.divs o) s = execDivs o s := rfl
@[simp] theorem exec_divu (o : NibOp) :
    exec (.divu o) s = execDivu o s := rfl
@[simp] theorem exec_shl32 (o : NibOp) :
    exec (.shl32 o) s = execShl32 o s := rfl
@[simp] theorem exec_shr32 (o : NibOp) :
    exec (.shr32 o) s = execShr32 o s := rfl
@[simp] theorem exec_sar32 (o : NibOp) :
    exec (.sar32 o) s = execSar32 o s := rfl
@[simp] theorem exec_extu (o : NibOp) :
    exec (.extu o) s = execExtu o s := rfl
@[simp] theorem exec_exts (o : NibOp) :
    exec (.exts o) s = execExts o s := rfl
@[simp] theorem exec_ld (o : NibOp) :
    exec (.ld o) s = execLd o s := rfl
@[simp] theorem exec_st (o : NibOp) :
    exec (.st o) s = execSt o s := rfl
@[simp] theorem exec_ldpi (o : NibOp) :
    exec (.ldpi o) s = execLdpi o s := rfl
@[simp] theorem exec_stpi (o : NibOp) :
    exec (.stpi o) s = execStpi o s := rfl
@[simp] theorem exec_lds (o : NibOp) :
    exec (.lds o) s = execLds o s := rfl
@[simp] theorem exec_sts (o : NibOp) :
    exec (.sts o) s = execSts o s := rfl
@[simp] theorem exec_ldp (o : NibOp) :
    exec (.ldp o) s = execLdp o s := rfl
@[simp] theorem exec_stp (o : NibOp) :
    exec (.stp o) s = execStp o s := rfl
@[simp] theorem exec_branch (o : NibOp) :
    exec (.branch o) s = execBranch o s := rfl
@[simp] theorem exec_call (o : NibOp) :
    exec (.call o) s = execCall o s := rfl
@[simp] theorem exec_callx (o : NibOp) :
    exec (.callx o) s = execCallx o s := rfl
@[simp] theorem exec_jmpx (o : NibOp) :
    exec (.jmpx o) s = execJmpx o s := rfl
@[simp] theorem exec_ret (o : NibOp) :
    exec (.ret o) s = execRet o s := rfl
@[simp] theorem exec_rett (o : NibOp) :
    exec (.rett o) s = execRett o s := rfl
@[simp] theorem exec_repi (o : NibOp) :
    exec (.repi o) s = execRepi o s := rfl
@[simp] theorem exec_repn (o : NibOp) :
    exec (.repn o) s = execRepn o s := rfl
@[simp] theorem exec_trap (o : NibOp) :
    exec (.trap o) s = execTrap o s := rfl
@[simp] theorem exec_mfc (o : NibOp) :
    exec (.mfc o) s = execMfc o s := rfl
@[simp] theorem exec_mtc (o : NibOp) :
    exec (.mtc o) s = execMtc o s := rfl
@[simp] theorem exec_haltOp (o : NibOp) :
    exec (.haltOp o) s = execHaltOp o s := rfl
@[simp] theorem exec_wait (o : NibOp) :
    exec (.wait o) s = execWait o s := rfl
@[simp] theorem exec_bar (o : NibOp) :
    exec (.bar o) s = execBar o s := rfl
@[simp] theorem exec_crystalStops :
    exec (.crystalStops) s = execCrystalStops s := rfl
@[simp] theorem exec_referenceWaitExpiry :
    exec (.referenceWaitExpiry) s = execReferenceWaitExpiry s := rfl
@[simp] theorem exec_busMasterEnable (fn : Nat) (w : CfgWrite) :
    exec (.busMasterEnable fn w) s = execBusMasterEnable fn w s := rfl
@[simp] theorem exec_autonomousPowerStateTransition (fn : Nat) :
    exec (.autonomousPowerStateTransition fn) s = execAutonomousPowerStateTransition fn s := rfl
@[simp] theorem exec_scribeMemoryUe (core : Nat) :
    exec (.scribeMemoryUe core) s = execScribeMemoryUe core s := rfl
@[simp] theorem exec_missedSync (link early : Nat) :
    exec (.missedSync link early) s = execMissedSync link early s := rfl
@[simp] theorem exec_oxvBadFrame (link : Nat) (fault : FrameFault) (rel : Bool) (seq : Nat) :
    exec (.oxvBadFrame link fault rel seq) s = execOxvBadFrame link fault rel seq s := rfl

end Sys2Proof.Machine
end

