-- ==== Sys2Proof/Laws/Map.lean ====
section
/-!
SUPPORT. Finite maps and sparse stores: a read after a write, and that every operation keeps the canonical form
(notes/assumptions/6).
-/

namespace Sys2Proof.Machine

variable {α : Type}

@[simp] theorem mget_nil (k : Nat) : mget ([] : Map α) k = none := rfl

@[simp] theorem mget_mset_same (m : Map α) (k : Nat) (v : α) : mget (mset m k v) k = some v := by
  induction m with
  | nil => simp [mset, mget]
  | cons e t ih =>
    obtain ⟨k', v'⟩ := e
    simp only [mset]
    split
    · simp [mget]
    · split
      · simp [mget]
      · simp [mget, *]

theorem mget_mset_other (m : Map α) (k j : Nat) (v : α) (h : j ≠ k) : mget (mset m k v) j = mget m j := by
  induction m with
  | nil => simp [mset, mget, h]
  | cons e t ih =>
    obtain ⟨k', v'⟩ := e
    simp only [mset]
    split
    · simp [mget, h]
    · split
      · subst k'; simp [mget, h]
      · simp only [mget, ih]

theorem mget_mset (m : Map α) (k j : Nat) (v : α) : mget (mset m k v) j = if j = k then some v else mget m j := by
  by_cases h : j = k
  · subst h; simp
  · simp [h, mget_mset_other]

theorem risingFrom_mono (m : Map α) (a b : Nat) (h : a ≤ b) (hm : risingFrom b m = true) : risingFrom a m = true := by
  cases m with
  | nil => rfl
  | cons e t =>
    obtain ⟨k, v⟩ := e
    simp only [risingFrom, Bool.and_eq_true, decide_eq_true_eq] at hm ⊢
    exact ⟨by omega, hm.2⟩

/-- A key below the first key of a map in canonical form is absent. -/
theorem mget_below (m : Map α) (lo k : Nat) (h : k < lo) (hm : risingFrom lo m = true) : mget m k = none := by
  induction m generalizing lo with
  | nil => rfl
  | cons e t ih =>
    obtain ⟨k', v'⟩ := e
    simp only [risingFrom, Bool.and_eq_true, decide_eq_true_eq] at hm
    simp only [mget]
    rw [if_neg (by omega)]
    exact ih (k' + 1) (by omega) hm.2

theorem risingFrom_mset (m : Map α) (lo k : Nat) (v : α) (hk : lo ≤ k) (hm : risingFrom lo m = true) :
    risingFrom lo (mset m k v) = true := by
  induction m generalizing lo with
  | nil => simp [mset, risingFrom, hk]
  | cons e t ih =>
    obtain ⟨k', v'⟩ := e
    simp only [risingFrom, Bool.and_eq_true, decide_eq_true_eq] at hm
    simp only [mset]
    split
    · simp only [risingFrom, Bool.and_eq_true, decide_eq_true_eq]
      exact ⟨hk, by omega, hm.2⟩
    · split
      · subst k'
        simp only [risingFrom, Bool.and_eq_true, decide_eq_true_eq]
        exact ⟨hk, hm.2⟩
      · simp only [risingFrom, Bool.and_eq_true, decide_eq_true_eq]
        exact ⟨hm.1, ih (k' + 1) (by omega) hm.2⟩

theorem risingFrom_merase (m : Map α) (lo k : Nat) (hm : risingFrom lo m = true) : risingFrom lo (merase m k) = true := by
  induction m generalizing lo with
  | nil => rfl
  | cons e t ih =>
    obtain ⟨k', v'⟩ := e
    simp only [risingFrom, Bool.and_eq_true, decide_eq_true_eq] at hm
    simp only [merase]
    split
    · exact risingFrom_mono t lo (k' + 1) (by omega) hm.2
    · simp only [risingFrom, Bool.and_eq_true, decide_eq_true_eq]
      exact ⟨hm.1, ih (k' + 1) hm.2⟩

theorem risingFrom_mupd (m : Map α) (lo k : Nat) (f : α → α) (hm : risingFrom lo m = true) :
    risingFrom lo (mupd m k f) = true := by
  induction m generalizing lo with
  | nil => rfl
  | cons e t ih =>
    obtain ⟨k', v'⟩ := e
    simp only [risingFrom, Bool.and_eq_true, decide_eq_true_eq] at hm
    simp only [mupd]
    split
    · simp only [risingFrom, Bool.and_eq_true, decide_eq_true_eq]
      exact hm
    · simp only [risingFrom, Bool.and_eq_true, decide_eq_true_eq]
      exact ⟨hm.1, ih (k' + 1) hm.2⟩

theorem risingFrom_filter (m : Map α) (lo : Nat) (p : Nat × α → Bool) (hm : risingFrom lo m = true) :
    risingFrom lo (m.filter p) = true := by
  induction m generalizing lo with
  | nil => rfl
  | cons e t ih =>
    obtain ⟨k', v'⟩ := e
    simp only [risingFrom, Bool.and_eq_true, decide_eq_true_eq] at hm
    simp only [List.filter]
    split
    · simp only [risingFrom, Bool.and_eq_true, decide_eq_true_eq]
      exact ⟨hm.1, ih (k' + 1) hm.2⟩
    · exact risingFrom_mono _ lo (k' + 1) (by omega) (ih (k' + 1) hm.2)

theorem Map.wf_mset (m : Map α) (k : Nat) (v : α) (h : Map.wf m = true) : Map.wf (mset m k v) = true :=
  risingFrom_mset m 0 k v (Nat.zero_le k) h

theorem Map.wf_merase (m : Map α) (k : Nat) (h : Map.wf m = true) : Map.wf (merase m k) = true :=
  risingFrom_merase m 0 k h

theorem Map.wf_mupd (m : Map α) (k : Nat) (f : α → α) (h : Map.wf m = true) : Map.wf (mupd m k f) = true :=
  risingFrom_mupd m 0 k f h

/-! ### Sparse stores -/

theorem mem_mset (m : Map α) (k : Nat) (v : α) (e : Nat × α) (h : e ∈ mset m k v) : e = (k, v) ∨ e ∈ m := by
  induction m with
  | nil => simp only [mset, List.mem_singleton] at h; exact Or.inl h
  | cons a t ih =>
    obtain ⟨k', v'⟩ := a
    simp only [mset] at h
    split at h
    · simpa using h
    · split at h
      · simp only [List.mem_cons] at h ⊢
        tauto
      · simp only [List.mem_cons] at h ⊢
        rcases h with h | h
        · tauto
        · have := ih h
          tauto

theorem mem_merase (m : Map α) (k : Nat) (e : Nat × α) (h : e ∈ merase m k) : e ∈ m := by
  induction m with
  | nil => simp [merase] at h
  | cons a t ih =>
    obtain ⟨k', v'⟩ := a
    simp only [merase] at h
    split at h
    · simp [h]
    · simp only [List.mem_cons] at h ⊢
      rcases h with h | h
      · tauto
      · exact Or.inr (ih h)

/-- What an erased key reads in a map in canonical form. -/
theorem mget_merase_same (m : Map α) (lo k : Nat) (hm : risingFrom lo m = true) : mget (merase m k) k = none := by
  induction m generalizing lo with
  | nil => rfl
  | cons a t ih =>
    obtain ⟨k', v'⟩ := a
    simp only [risingFrom, Bool.and_eq_true, decide_eq_true_eq] at hm
    simp only [merase]
    split
    · rename_i h
      exact mget_below t (k' + 1) k (by omega) hm.2
    · rename_i h
      simp only [mget, if_neg h]
      exact ih (k' + 1) hm.2

theorem mget_merase_other (m : Map α) (k j : Nat) (h : j ≠ k) : mget (merase m k) j = mget m j := by
  induction m with
  | nil => rfl
  | cons a t ih =>
    obtain ⟨k', v'⟩ := a
    simp only [merase]
    split
    · rename_i hk
      subst hk
      simp [mget, h]
    · simp only [mget, ih]

variable [DecidableEq α]

theorem sparseWf_rising (d : Nat → α) (m : Map α) (h : sparseWf d m = true) : risingFrom 0 m = true := by
  unfold sparseWf at h
  exact (Bool.and_eq_true_iff.mp h).1

/-- Every write to a sparse store keeps its canonical form. -/
theorem sparseWf_sset (d : Nat → α) (m : Map α) (k : Nat) (v : α) (h : sparseWf d m = true) :
    sparseWf d (sset d m k v) = true := by
  unfold sparseWf at h ⊢
  simp only [Bool.and_eq_true, List.all_eq_true, decide_eq_true_eq] at h ⊢
  unfold sset
  split
  · exact ⟨risingFrom_merase m 0 k h.1, fun e he => h.2 e (mem_merase m k e he)⟩
  · rename_i hv
    refine ⟨risingFrom_mset m 0 k v (Nat.zero_le k) h.1, fun e he => ?_⟩
    rcases mem_mset m k v e he with rfl | he
    · exact hv
    · exact h.2 e he

theorem sparseWf_filter (d : Nat → α) (m : Map α) (p : Nat × α → Bool) (h : sparseWf d m = true) :
    sparseWf d (m.filter p) = true := by
  unfold sparseWf at h ⊢
  simp only [Bool.and_eq_true, List.all_eq_true, decide_eq_true_eq] at h ⊢
  exact ⟨risingFrom_filter m 0 p h.1, fun e he => h.2 e (List.mem_of_mem_filter he)⟩

/-- A read after a write to a sparse store in canonical form. -/
theorem sget_sset_same (d : Nat → α) (m : Map α) (k : Nat) (v : α) (h : risingFrom 0 m = true) :
    sget d (sset d m k v) k = v := by
  unfold sget sset
  split
  · rename_i hv
    simp [mget_merase_same m 0 k h, hv]
  · simp

theorem sget_sset_other (d : Nat → α) (m : Map α) (k j : Nat) (v : α) (h : j ≠ k) :
    sget d (sset d m k v) j = sget d m j := by
  unfold sget sset
  split
  · rw [mget_merase_other m k j h]
  · rw [mget_mset_other m k j v h]

end Sys2Proof.Machine
end

