-- ==== Sys2Proof/Laws/Regs.lean ====
section
/-!
SUPPORT. The register file: what a write of a dword or of a field leaves in every dword and every field, and that it keeps
the canonical form of the store (notes/assumptions/6).
-/

namespace Sys2Proof.Machine

theorem getReg_lt (s : State) (off : Nat) : getReg s off < 2 ^ 32 := BitVec.isLt _

theorem getReg_setReg_other (s : State) (o o' v : Nat) (h : o' ≠ o) : getReg (setReg o v s) o' = getReg s o' := by
  unfold getReg setReg
  simp only
  rw [sget_sset_other _ _ _ _ _ h]

theorem getReg_setReg_same (s : State) (o v : Nat) (hs : sparseWf regDefault s.regs = true) (hv : v < 2 ^ 32) :
    getReg (setReg o v s) o = v := by
  unfold getReg setReg
  simp only
  rw [sget_sset_same _ _ _ _ (sparseWf_rising _ _ hs)]
  simp only [BitVec.toNat_ofNat]
  exact Nat.mod_eq_of_lt hv

theorem setReg_wf (s : State) (o v : Nat) (hs : sparseWf regDefault s.regs = true) :
    sparseWf regDefault (setReg o v s).regs = true := sparseWf_sset _ _ _ _ hs

theorem setF_wf (f : Fld) (v : Nat) (s : State) (hs : sparseWf regDefault s.regs = true) :
    sparseWf regDefault (setF f v s).regs = true := setReg_wf _ _ _ hs

theorem incF_wf (f : Fld) (n : Nat) (s : State) (hs : sparseWf regDefault s.regs = true) :
    sparseWf regDefault (incF f n s).regs = true := setF_wf _ _ _ hs

theorem cfgErr_wf (off : Nat) (s : State) (hs : sparseWf regDefault s.regs = true) :
    sparseWf regDefault (cfgErr off s).regs = true := setF_wf _ _ _ hs

/-- The dword of a field after the field is written. -/
theorem getReg_setF_same (s : State) (f : Fld) (v : Nat) (hs : sparseWf regDefault s.regs = true)
    (hf : f.lo ≤ f.hi ∧ f.hi < 32) : getReg (setF f v s) f.off = setBits (getReg s f.off) f.hi f.lo v := by
  unfold setF
  rw [getReg_setReg_same _ _ _ hs]
  exact setBits_lt _ _ _ _ _ (by omega) (by omega) (getReg_lt s f.off)

theorem getReg_setF_other (s : State) (f : Fld) (v o : Nat) (h : o ≠ f.off) : getReg (setF f v s) o = getReg s o :=
  getReg_setReg_other _ _ _ _ h

/-- A field reads what was written to it, cut to its width. -/
theorem getF_setF_same (s : State) (f : Fld) (v : Nat) (hs : sparseWf regDefault s.regs = true)
    (hf : f.lo ≤ f.hi ∧ f.hi < 32) : getF (setF f v s) f = v % 2 ^ (f.hi + 1 - f.lo) := by
  unfold getF
  rw [getReg_setF_same s f v hs hf, bits_setBits_same]

/-- Two fields lie in different dwords or in bits that do not overlap. -/
def Fld.apart (f g : Fld) : Bool := f.off != g.off || decide (g.hi < f.lo) || decide (f.hi < g.lo)

/-- A write of a field leaves the fields beside it. -/
theorem getF_setF_other (s : State) (f g : Fld) (v : Nat) (hs : sparseWf regDefault s.regs = true)
    (hf : f.lo ≤ f.hi ∧ f.hi < 32) (hg : g.lo ≤ g.hi) (h : f.apart g = true) : getF (setF f v s) g = getF s g := by
  unfold getF
  by_cases ho : g.off = f.off
  · rw [ho, getReg_setF_same s f v hs hf]
    refine bits_setBits_other _ _ _ _ _ _ hf.1 hg ?_
    simp only [Fld.apart, Bool.or_eq_true, bne_iff_ne, ne_eq, decide_eq_true_eq] at h
    tauto
  · rw [getReg_setF_other s f v _ ho]

/-- A write to a field of another dword leaves a field, whatever the store's form. -/
theorem getF_setF_off (s : State) (f g : Fld) (v : Nat) (h : g.off ≠ f.off) : getF (setF f v s) g = getF s g := by
  unfold getF
  rw [getReg_setF_other s f v _ h]

end Sys2Proof.Machine
end

