-- ==== Sys2Proof/Laws/Kept.lean ====
section
/-!
SUPPORT. What every command but ALWAYS_ON_POWER_LOST keeps, once and for all: the relation `Kept`, its rules, and the operations
that change what it speaks of (spec/01 R7, spec/02 R31, spec/07 R134, spec/19 R437, R439, R440).
-/

namespace Sys2Proof.Machine

/-- The bounds on the blot log and on its snapshot. -/
def LogOk (s : State) : Prop := s.mon.blots.length ≤ 4096 ∧ ∀ e, s.mon.sealLog = some e → e.1.length ≤ 512

/-- `t` follows from `s` by operations that keep the register file canonical and the bounds of `Bounded`, never lower the stroke
count, never change a committed stroke root, only add to what the part has sent, and leave the queue of waiting commands alone. -/
structure Kept (s t : State) : Prop where
  regs : RegsOk s → RegsOk t
  frac : s.time.frac < 65536 → t.time.frac < 65536
  queue : s.mon.queue.length ≤ 64 → t.mon.queue.length ≤ 64
  log : LogOk s → LogOk t
  stroke : s.time.stroke ≤ t.time.stroke
  roots : rootKeys s <+: rootKeys t
  out : s.out <+: t.out
  pending : t.pending = s.pending

theorem Kept.refl (s : State) : Kept s s := ⟨id, id, id, id, Nat.le_refl _, List.prefix_refl _, List.prefix_refl _, rfl⟩

theorem Kept.trans {a b c : State} (h : Kept a b) (k : Kept b c) : Kept a c :=
  ⟨fun x => k.1 (h.1 x), fun x => k.2 (h.2 x), fun x => k.3 (h.3 x), fun x => k.4 (h.4 x), Nat.le_trans h.5 k.5, h.6.trans k.6,
    h.7.trans k.7, k.8.trans h.8⟩

/-- Two states that agree in what `Kept` speaks of. -/
theorem Kept.same {s t : State} (h1 : t.regs = s.regs) (h2 : t.time.frac = s.time.frac) (h3 : t.time.stroke = s.time.stroke)
    (h4 : t.mon.blots = s.mon.blots) (h5 : t.mon.queue = s.mon.queue) (h6 : t.mon.sealLog = s.mon.sealLog)
    (h7 : t.chain.roots = s.chain.roots) (h8 : t.out = s.out) (h9 : t.pending = s.pending) : Kept s t := by
  refine ⟨?_, ?_, ?_, ?_, ?_, ?_, ?_, h9⟩
  · unfold RegsOk; rw [h1]; exact id
  · rw [h2]; exact id
  · rw [h5]; exact id
  · unfold LogOk; rw [h4, h6]; exact id
  · rw [h3]
  · unfold rootKeys; rw [h7]
  · rw [h8]

/-- An update of the state that leaves the register file, domain time, the logs and the roots alone, sends nothing, and keeps the queue. -/
theorem Kept.upd {b : State} {latch held qos mode stats fns numVfs cmds orderNext trans nss ftl ing oxv ink fw duct crypt sieve
    dram exports late spill freeCount} {time : TimeSt} {chain : ChainSt} {mon : MonSt}
    (h2 : time.frac = b.time.frac) (h3 : time.stroke = b.time.stroke) (h4 : mon.blots = b.mon.blots)
    (h5 : mon.queue = b.mon.queue) (h6 : mon.sealLog = b.mon.sealLog) (h7 : chain.roots = b.chain.roots) :
    Kept b ⟨b.regs, latch, held, qos, mode, time, stats, chain, fns, numVfs, cmds, orderNext, trans, nss, ftl, ing, mon, oxv, ink,
      fw, duct, crypt, sieve, dram, exports, late, spill, b.out, freeCount, b.pending⟩ :=
  Kept.same rfl h2 h3 h4 h5 h6 h7 rfl rfl

theorem Kept.ite {s a b : State} {c : Prop} [Decidable c] (ha : c → Kept s a) (hb : ¬ c → Kept s b) :
    Kept s (if c then a else b) := by
  split
  · exact ha ‹_›
  · exact hb ‹_›

theorem Kept.fst_ite {β : Type} {s : State} {a b : State × β} {c : Prop} [Decidable c] (ha : c → Kept s a.1)
    (hb : ¬ c → Kept s b.1) : Kept s (if c then a else b).1 := by
  split
  · exact ha ‹_›
  · exact hb ‹_›

theorem Kept.snd_ite {β : Type} {s : State} {a b : β × State} {c : Prop} [Decidable c] (ha : c → Kept s a.2)
    (hb : ¬ c → Kept s b.2) : Kept s (if c then a else b).2 := by
  split
  · exact ha ‹_›
  · exact hb ‹_›

theorem Kept.mi_ite {s : State} {a b : MiAnswer} {c : Prop} [Decidable c] (ha : c → Kept s a.after) (hb : ¬ c → Kept s b.after) :
    Kept s (if c then a else b).after := by
  split
  · exact ha ‹_›
  · exact hb ‹_›

theorem Kept.eq_snd {β : Type} {s t : State} {p : β × State} {b : β} (h : p = (b, t)) (k : Kept s p.2) : Kept s t := by
  subst h; exact k

theorem Kept.eq_fst {β : Type} {s t : State} {p : State × β} {b : β} (h : p = (t, b)) (k : Kept s p.1) : Kept s t := by
  subst h; exact k

theorem Kept.foldl {α : Type} {s i : State} {f : State → α → State} {l : List α} (hf : ∀ a x, Kept a (f a x)) (hi : Kept s i) :
    Kept s (l.foldl f i) := by
  induction l generalizing i with
  | nil => exact hi
  | cons x t ih => exact ih (hi.trans (hf _ _))

theorem Kept.foldr {α : Type} {s i : State} {f : α → State → State} {l : List α} (hf : ∀ x a, Kept a (f x a)) (hi : Kept s i) :
    Kept s (l.foldr f i) := by
  induction l with
  | nil => exact hi
  | cons x t ih => exact ih.trans (hf _ _)

theorem Kept.foldl_snd {α β : Type} {s : State} {i : β × State} {f : β × State → α → β × State} {l : List α}
    (hf : ∀ a x, Kept a.2 (f a x).2) (hi : Kept s i.2) : Kept s (l.foldl f i).2 := by
  induction l generalizing i with
  | nil => exact hi
  | cons x t ih => exact ih (hi.trans (hf _ _))

theorem Kept.foldl_fst {α β : Type} {s : State} {i : State × β} {f : State × β → α → State × β} {l : List α}
    (hf : ∀ a x, Kept a.1 (f a x).1) (hi : Kept s i.1) : Kept s (l.foldl f i).1 := by
  induction l generalizing i with
  | nil => exact hi
  | cons x t ih => exact ih (hi.trans (hf _ _))

/-- Where an outcome is a next state, `Kept` holds of it. -/
def KeptO (s : State) (r : Result) : Prop := ∀ t, r = .next t → Kept s t

theorem KeptO.next {s t : State} (h : Kept s t) : KeptO s (.next t) := by intro u hu; cases hu; exact h

theorem KeptO.fault {s : State} {f : Fault} : KeptO s (.fault f) := by intro u hu; cases hu

theorem KeptO.refused {s : State} {f : Refusal} : KeptO s (.refused f) := by intro u hu; cases hu

theorem KeptO.ite {s : State} {a b : Result} {c : Prop} [Decidable c] (ha : c → KeptO s a) (hb : ¬ c → KeptO s b) :
    KeptO s (if c then a else b) := by
  split
  · exact ha ‹_›
  · exact hb ‹_›

theorem KeptO.trans {a b : State} {r : Result} (h : Kept a b) (k : KeptO b r) : KeptO a r := fun t ht => h.trans (k t ht)

theorem KeptO.eq {s t : State} {r : Result} (h : r = .next t) (k : KeptO s r) : Kept s t := k t h

/-- Where there is a state, `Kept` holds of it. -/
def KeptS (s : State) (r : Option State) : Prop := ∀ t, r = some t → Kept s t

theorem KeptS.val {s t : State} (h : Kept s t) : KeptS s (some t) := by intro u hu; cases hu; exact h

theorem KeptS.absent {s : State} : KeptS s none := by intro u hu; cases hu

theorem KeptS.trans {a b : State} {r : Option State} (h : Kept a b) (k : KeptS b r) : KeptS a r := fun t ht => h.trans (k t ht)

theorem KeptS.ite {s : State} {a b : Option State} {c : Prop} [Decidable c] (ha : c → KeptS s a) (hb : ¬ c → KeptS s b) :
    KeptS s (if c then a else b) := by
  split
  · exact ha ‹_›
  · exact hb ‹_›

theorem KeptS.eq {s t : State} {r : Option State} (h : r = some t) (k : KeptS s r) : Kept s t := k t h

theorem Kept.clock {s : State} {t : TimeSt} (h : s.time.stroke ≤ t.stroke) (h2 : s.time.frac < 65536 → t.frac < 65536) :
    Kept s { s with time := t } := ⟨id, h2, id, id, h, List.prefix_refl _, List.prefix_refl _, rfl⟩

end Sys2Proof.Machine
end

