-- ==== Sys2Proof/Laws/KeptBase.lean ====
section
/-!
SUPPORT. What every command but ALWAYS_ON_POWER_LOST keeps (`Kept`), operation by operation: the register file, the logs, the generator, the chain and the flash translation layer.
-/

namespace Sys2Proof.Machine

/-! ### Sys2Proof/Machine/Regs.lean -/

theorem setReg_kept (off v : Nat) (s : State) : Kept s (setReg off v s) :=
  ⟨fun h => setReg_wf s off v h, id, id, id, Nat.le_refl _, List.prefix_refl _, List.prefix_refl _, rfl⟩

theorem setF_kept (f v) (s : State) : Kept s (setF f v s) := by
  unfold setF
  exact setReg_kept ..

theorem incF_kept (f n) (s : State) : Kept s (incF f n s) := by
  unfold incF
  exact setF_kept ..

theorem cfgErr_kept (off) (s : State) : Kept s (cfgErr off s) := by
  unfold cfgErr
  exact setF_kept ..

theorem plainWrite_kept (off v) (s : State) : Kept s (plainWrite off v s) := by
  unfold plainWrite
  extract_lets v1 v2
  have h3 : Kept s v2 := setReg_kept ..
  clear_value v2
  refine Kept.ite (fun _ => ?_) (fun _ => ?_)
  · refine Kept.trans ?_ (cfgErr_kept ..)
    assumption
  · assumption

/-! ### Sys2Proof/Machine/Ops.lean -/

theorem emit_kept (o : Out) (s : State) : Kept s (emit o s) :=
  ⟨id, id, id, id, Nat.le_refl _, List.prefix_refl _, List.prefix_append _ _, rfl⟩

theorem takeFree_kept (s : State) : Kept s (takeFree s).2 := by
  unfold takeFree
  dsimp only
  exact Kept.upd rfl rfl rfl rfl rfl rfl

theorem atFrac_kept (n : Nat) (s : State) : Kept s (atFrac n s) := by
  unfold atFrac
  refine Kept.ite (fun h => ?_) (fun _ => Kept.refl s)
  have : n < 65536 := by simp at h; exact h.2
  exact Kept.clock (Nat.le_refl _) (fun _ => this)

theorem recordBlot_kept (code sev unit : Nat) (arg : Bytes) (s : State) : Kept s (recordBlot code sev unit arg s) := by
  unfold recordBlot
  extract_lets a total fresh
  split
  · rename_i b rest heq
    split
    · refine ⟨id, id, id, ?_, Nat.le_refl _, List.prefix_refl _, List.prefix_refl _, rfl⟩
      intro h; refine ⟨?_, h.2⟩; have := h.1; rw [heq] at this; exact this
    · refine Kept.trans ?_ (setF_kept _ _ _)
      refine Kept.trans ?_ (setF_kept _ _ _)
      refine ⟨id, id, id, ?_, Nat.le_refl _, List.prefix_refl _, List.prefix_refl _, rfl⟩
      intro h; refine ⟨?_, h.2⟩; simp only [List.length_take]; omega
  · refine Kept.trans ?_ (setF_kept _ _ _)
    refine Kept.trans ?_ (setF_kept _ _ _)
    refine ⟨id, id, id, ?_, Nat.le_refl _, List.prefix_refl _, List.prefix_refl _, rfl⟩
    intro h; exact ⟨by simp, h.2⟩

theorem blot_kept (code severity unit arg) (s : State) : Kept s (blot code severity unit arg s) := by
  unfold blot
  refine Kept.ite (fun _ => ?_) (fun _ => ?_)
  · exact Kept.refl _
  · exact recordBlot_kept ..

theorem addRecAt_kept (type dtime : Nat) (p : Bytes) (s : State) : Kept s (addRecAt type dtime p s) := by
  unfold addRecAt
  apply Kept.ite
  · intro _; exact Kept.same rfl rfl rfl rfl rfl rfl rfl rfl rfl
  · intro _
    apply Kept.ite
    · intro _
      apply Kept.ite
      · intro h
        refine Kept.trans ?_ (setF_kept _ _ _)
        refine ⟨id, id, ?_, id, Nat.le_refl _, List.prefix_refl _, List.prefix_refl _, rfl⟩
        intro _; simp; omega
      · intro _; exact setF_kept _ _ _
    · intro _; exact Kept.same rfl rfl rfl rfl rfl rfl rfl rfl rfl

theorem addRec_kept (type payload) (s : State) : Kept s (addRec type payload s) := by
  unfold addRec
  exact addRecAt_kept ..

theorem anchorRec_kept (kind count) (s : State) : Kept s (anchorRec kind count s) := by
  unfold anchorRec
  exact addRec_kept ..

theorem faultRec_kept (code unit stroke detail) (s : State) : Kept s (faultRec code unit stroke detail s) := by
  unfold faultRec
  exact addRec_kept ..

theorem namespaceRec_kept (nsid action stream) (s : State) : Kept s (namespaceRec nsid action stream s) := by
  unfold namespaceRec
  exact addRec_kept ..

theorem modeRec_kept (old new cause fn note) (s : State) : Kept s (modeRec old new cause fn note s) := by
  unfold modeRec
  exact addRec_kept ..

theorem setLockState_kept (st) (s : State) : Kept s (setLockState st s) := by
  unfold setLockState
  refine Kept.ite (fun _ => ?_) (fun _ => ?_)
  · exact Kept.refl _
  · refine Kept.trans ?_ (anchorRec_kept ..)
    exact setF_kept ..

theorem updLink_kept (l g) (s : State) : Kept s (updLink l g s) := by
  unfold updLink
  exact Kept.upd rfl rfl rfl rfl rfl rfl

theorem oxvPut_kept (l type flags dst src hops bseq payload) (s : State) :
    Kept s (oxvPut l type flags dst src hops bseq payload s) := by
  unfold oxvPut
  refine Kept.ite (fun _ => ?_) (fun _ => ?_)
  · exact Kept.refl _
  · extract_lets v1 v2 v3 v4 v5
    have h6 : Kept s v5 := by
      unfold v5
      refine Kept.ite (fun _ => ?_) (fun _ => ?_)
      · exact emit_kept ..
      · exact Kept.refl _
    clear_value v5
    refine Kept.ite (fun _ => ?_) (fun _ => ?_)
    · refine Kept.trans ?_ (updLink_kept ..)
      assumption
    · exact emit_kept ..

theorem oxvSendOn_kept (l type flags dst payload) (s : State) : Kept s (oxvSendOn l type flags dst payload s) := by
  unfold oxvSendOn
  exact oxvPut_kept ..

theorem oxvSendAll_kept (type flags dst payload) (s : State) : Kept s (oxvSendAll type flags dst payload s) := by
  unfold oxvSendAll
  refine Kept.foldl (fun a x => ?_) ?_
  · exact oxvSendOn_kept ..
  · exact Kept.refl _

theorem oxvFlood_kept (type payload) (s : State) : Kept s (oxvFlood type payload s) := by
  unfold oxvFlood
  extract_lets v1 v2 v3
  have h4 : Kept s v3 := Kept.upd rfl rfl rfl rfl rfl rfl
  clear_value v3
  refine Kept.foldl (fun a x => ?_) ?_
  · exact oxvPut_kept ..
  · assumption

theorem oxvTo_kept (dst type payload) (s : State) : Kept s (oxvTo dst type payload s) := by
  unfold oxvTo
  refine Kept.ite (fun _ => ?_) (fun _ => ?_)
  · refine Kept.ite (fun _ => ?_) (fun _ => ?_)
    · exact Kept.upd rfl rfl rfl rfl rfl rfl
    · exact Kept.refl _
  · split
    · exact oxvSendOn_kept ..
    · exact Kept.refl _

theorem setFn_kept (f x) (s : State) : Kept s (setFn f x s) := by
  unfold setFn
  exact Kept.upd rfl rfl rfl rfl rfl rfl

theorem updFn_kept (f g) (s : State) : Kept s (updFn f g s) := by
  unfold updFn
  exact setFn_kept ..

theorem updVec_kept (f v g) (s : State) : Kept s (updVec f v g s) := by
  unfold updVec
  exact updFn_kept ..

theorem signal_kept (f v) (s : State) : Kept s (signal f v s) := by
  unfold signal
  extract_lets v1
  refine Kept.ite (fun _ => ?_) (fun _ => ?_)
  · exact Kept.refl _
  · refine Kept.ite (fun _ => ?_) (fun _ => ?_)
    · exact updVec_kept ..
    · exact emit_kept ..

theorem noteCompletion_kept (f v) (s : State) : Kept s (noteCompletion f v s) := by
  unfold noteCompletion
  extract_lets v1 v2 v3 v4
  have h5 : Kept s v3 := updVec_kept ..
  clear_value v3
  refine Kept.ite (fun _ => ?_) (fun _ => ?_)
  · exact signal_kept ..
  · refine Kept.ite (fun _ => ?_) (fun _ => ?_)
    · refine Kept.ite (fun _ => ?_) (fun _ => ?_)
      · refine Kept.trans ?_ (signal_kept ..)
        refine Kept.trans ?_ (updVec_kept ..)
        assumption
      · assumption
    · refine Kept.ite (fun _ => ?_) (fun _ => ?_)
      · refine Kept.trans ?_ (signal_kept ..)
        refine Kept.trans ?_ (updVec_kept ..)
        assumption
      · assumption

theorem hostOut_kept (f cid data) (s : State) : Kept s (hostOut f cid data s) := by
  unfold hostOut
  exact emit_kept ..

theorem pushCqe_kept (f qid e) (s : State) : Kept s (pushCqe f qid e s) := by
  unfold pushCqe
  split
  · exact Kept.refl _
  · extract_lets v1 v2 v3 v4
    have h5 : Kept s v3 := updFn_kept ..
    clear_value v3
    have h6 : Kept s v4 := by
      unfold v4
      refine Kept.trans ?_ (emit_kept ..)
      assumption
    clear_value v4
    refine Kept.ite (fun _ => ?_) (fun _ => ?_)
    · refine Kept.trans ?_ (noteCompletion_kept ..)
      assumption
    · assumption

theorem postCqe_kept (f qid e) (s : State) : Kept s (postCqe f qid e s) := by
  unfold postCqe
  split
  · exact Kept.refl _
  · refine Kept.ite (fun _ => ?_) (fun _ => ?_)
    · exact pushCqe_kept ..
    · exact updFn_kept ..

theorem drainCq_kept (f qid fuel : Nat) (s : State) : Kept s (drainCq f qid fuel s) := by
  induction fuel generalizing s with
  | zero => exact Kept.refl s
  | succ k ih =>
    unfold drainCq
    split
    · exact Kept.refl _
    · split
      · exact Kept.refl _
      · refine Kept.ite (fun _ => ?_) (fun _ => ?_)
        · refine Kept.trans ?_ (ih _)
          refine Kept.trans ?_ (pushCqe_kept ..)
          exact updFn_kept ..
        · exact Kept.refl _

theorem drainFn_kept (f) (s : State) : Kept s (drainFn f s) := by
  unfold drainFn
  refine Kept.foldl (fun a x => ?_) ?_
  · exact drainCq_kept ..
  · exact Kept.refl _

theorem complete_kept (f sqid cid st dw0 dw1) (s : State) : Kept s (complete f sqid cid st dw0 dw1 s) := by
  unfold complete
  refine Kept.ite (fun _ => ?_) (fun _ => ?_)
  · exact emit_kept ..
  · refine Kept.ite (fun _ => ?_) (fun _ => ?_)
    · exact Kept.refl _
    · refine Kept.ite (fun _ => ?_) (fun _ => ?_)
      · refine Kept.trans ?_ (oxvTo_kept ..)
        exact Kept.upd rfl rfl rfl rfl rfl rfl
      · split
        · exact Kept.refl _
        · exact postCqe_kept ..

theorem dropCmd_kept (f sqid cid) (s : State) : Kept s (dropCmd f sqid cid s) := by
  unfold dropCmd
  exact Kept.upd rfl rfl rfl rfl rfl rfl

theorem updCmd_kept (f sqid cid g) (s : State) : Kept s (updCmd f sqid cid g s) := by
  unfold updCmd
  exact Kept.upd rfl rfl rfl rfl rfl rfl

theorem addCmd_kept (c) (s : State) : Kept s (addCmd c s) := by
  unfold addCmd
  exact Kept.upd rfl rfl rfl rfl rfl rfl

theorem toFollower_kept (d f sqid cid nsid) (s : State) : Kept s (toFollower d f sqid cid nsid s) := by
  unfold toFollower
  refine Kept.ite (fun _ => ?_) (fun _ => ?_)
  · refine Kept.trans ?_ (oxvTo_kept ..)
    exact Kept.upd rfl rfl rfl rfl rfl rfl
  · exact complete_kept ..

theorem raiseEvent_kept (f ev) (s : State) : Kept s (raiseEvent f ev s) := by
  unfold raiseEvent
  extract_lets v1
  refine Kept.ite (fun _ => ?_) (fun _ => ?_)
  · exact Kept.refl _
  · split
    · refine Kept.trans ?_ (complete_kept ..)
      exact updFn_kept ..
    · refine Kept.ite (fun _ => ?_) (fun _ => ?_)
      · exact Kept.refl _
      · exact updFn_kept ..

theorem vendorEvent_kept (info) (s : State) : Kept s (vendorEvent info s) := by
  unfold vendorEvent
  refine Kept.foldl (fun a x => ?_) ?_
  · refine Kept.ite (fun _ => ?_) (fun _ => ?_)
    · exact raiseEvent_kept ..
    · exact Kept.refl _
  · exact Kept.refl _

theorem takeEntry_kept (f sqid) (s : State) : Kept s (takeEntry f sqid s) := by
  unfold takeEntry
  exact updFn_kept ..

/-! ### Sys2Proof/Machine/Time.lean -/

theorem setOffset_kept (off) (s : State) : Kept s (setOffset off s) := by
  unfold setOffset
  refine Kept.trans ?_ (setF_kept ..)
  exact Kept.upd rfl rfl rfl rfl rfl rfl

theorem enterAcquire_kept (s : State) : Kept s (enterAcquire s) := by
  unfold enterAcquire
  refine Kept.trans ?_ (setLockState_kept ..)
  exact Kept.upd rfl rfl rfl rfl rfl rfl

theorem measure_kept (off) (s : State) : Kept s (measure off s) := by
  unfold measure
  extract_lets v1 v2 v3
  have h4 : Kept s v3 := by
    unfold v3
    refine Kept.trans ?_ (setOffset_kept ..)
    exact Kept.upd rfl rfl rfl rfl rfl rfl
  clear_value v3
  split
  · refine Kept.trans ?_ (enterAcquire_kept ..)
    assumption
  · assumption
  · refine Kept.ite (fun _ => ?_) (fun _ => ?_)
    · refine Kept.trans ?_ (setLockState_kept ..)
      assumption
    · assumption
  · refine Kept.ite (fun _ => ?_) (fun _ => ?_)
    · refine Kept.trans ?_ (setLockState_kept ..)
      assumption
    · refine Kept.trans ?_ (enterAcquire_kept ..)
      assumption
  · refine Kept.ite (fun _ => ?_) (fun _ => ?_)
    · assumption
    · refine Kept.trans ?_ (setLockState_kept ..)
      assumption

theorem bootCount_ge (s : State) : s.time.stroke ≤ bootCount s := by unfold bootCount; omega

theorem fracOfNs_lt (s : State) (ns : Nat) : fracOfNs s ns < 65536 := by
  unfold fracOfNs
  rcases Nat.eq_zero_or_pos (strokeNs s) with h | h
  · simp [h]
  · have := Nat.mod_lt ns h
    exact Nat.div_lt_of_lt_mul (Nat.mul_lt_mul_of_pos_right this (by decide))

theorem bootReference_kept (n r : Nat) (s : State) : Kept s (bootReference n r s) := by
  unfold bootReference
  dsimp only
  apply Kept.ite
  · intro h
    simp at h
    refine Kept.trans ?_ (enterAcquire_kept _)
    refine Kept.trans ?_ (setOffset_kept _ _)
    exact Kept.clock (t := { s.time with bootWait := false, stroke := n, frac := fracOfNs s r }) (by simp; omega)
      (fun _ => fracOfNs_lt s r)
  · intro _
    have h : Kept s (setOffset (((n : Int) - (bootCount s : Int)) * (strokeNs s : Int) + ((r % strokeNs s : Nat) : Int)
        - (phaseNs s : Int)) { s with time := { s.time with bootWait := false, stroke := bootCount s } }) :=
      (Kept.clock (t := { s.time with bootWait := false, stroke := bootCount s }) (bootCount_ge s) id).trans
        (setOffset_kept _ _)
    apply Kept.ite
    · intro _; exact h.trans (setLockState_kept _ _)
    · intro _; exact h.trans (enterAcquire_kept _)

theorem bootPhase_kept (o : Int) (s : State) : Kept s (bootPhase o s) := by
  unfold bootPhase
  dsimp only
  refine Kept.clock (t := { s.time with bootWait := false, stroke := _, frac := _ }) ?_ (fun _ => fracOfNs_lt s _)
  have := bootCount_ge s
  dsimp only
  split <;> omega

theorem takeEdge_kept (off) (s : State) : Kept s (takeEdge off s) := by
  unfold takeEdge
  refine Kept.ite (fun _ => ?_) (fun _ => ?_)
  · refine Kept.trans ?_ (enterAcquire_kept ..)
    refine Kept.trans ?_ (setOffset_kept ..)
    exact bootPhase_kept ..
  · refine Kept.ite (fun _ => ?_) (fun _ => ?_)
    · refine Kept.trans ?_ (incF_kept ..)
      exact Kept.upd rfl rfl rfl rfl rfl rfl
    · exact measure_kept ..

theorem execReferenceEdge_kept (frac edge offsetNs) (s : State) :
    KeptO s (execReferenceEdge frac edge offsetNs s) := by
  unfold execReferenceEdge
  extract_lets v1
  have h2 : Kept s v1 := atFrac_kept ..
  clear_value v1
  refine KeptO.next ?_
  refine Kept.ite (fun _ => ?_) (fun _ => ?_)
  · refine Kept.trans ?_ (takeEdge_kept ..)
    assumption
  · assumption

theorem loseReference_kept (s : State) : Kept s (loseReference s) := by
  unfold loseReference
  split
  · refine Kept.trans ?_ (setLockState_kept ..)
    exact Kept.upd rfl rfl rfl rfl rfl rfl
  · refine Kept.trans ?_ (setLockState_kept ..)
    exact Kept.upd rfl rfl rfl rfl rfl rfl
  · exact Kept.refl _

theorem execReferenceLost_kept (frac absent) (s : State) : KeptO s (execReferenceLost frac absent s) := by
  unfold execReferenceLost
  extract_lets v1
  have h2 : Kept s v1 := atFrac_kept ..
  clear_value v1
  refine KeptO.next ?_
  refine Kept.ite (fun _ => ?_) (fun _ => ?_)
  · refine Kept.trans ?_ (loseReference_kept ..)
    assumption
  · assumption

theorem execAcquireLocked_kept (frac) (s : State) : KeptO s (execAcquireLocked frac s) := by
  unfold execAcquireLocked
  extract_lets v1 v2
  have h3 : Kept s v1 := atFrac_kept ..
  clear_value v1
  refine KeptO.next ?_
  refine Kept.ite (fun _ => ?_) (fun _ => ?_)
  · refine Kept.trans ?_ (setLockState_kept ..)
    refine Kept.trans ?_ (Kept.upd rfl rfl rfl rfl rfl rfl)
    assumption
  · assumption

theorem execHoldoverLimit_kept (frac) (s : State) : KeptO s (execHoldoverLimit frac s) := by
  unfold execHoldoverLimit
  extract_lets v1
  have h2 : Kept s v1 := atFrac_kept ..
  clear_value v1
  refine KeptO.next ?_
  refine Kept.ite (fun _ => ?_) (fun _ => ?_)
  · refine Kept.trans ?_ (setLockState_kept ..)
    assumption
  · assumption

theorem execMarksMissing_kept (frac) (s : State) : KeptO s (execMarksMissing frac s) := by
  unfold execMarksMissing
  extract_lets v1 v2
  have h3 : Kept s v1 := atFrac_kept ..
  clear_value v1
  refine KeptO.next ?_
  refine Kept.ite (fun _ => ?_) (fun _ => ?_)
  · refine Kept.trans ?_ (setLockState_kept ..)
    refine Kept.trans ?_ (Kept.upd rfl rfl rfl rfl rfl rfl)
    assumption
  · assumption

theorem execCrystalStops_kept (s : State) : KeptO s (execCrystalStops s) := by
  unfold execCrystalStops
  refine KeptO.next ?_
  exact Kept.upd rfl rfl rfl rfl rfl rfl

theorem execReferenceWaitExpiry_kept (s : State) : KeptO s (execReferenceWaitExpiry s) := by
  unfold execReferenceWaitExpiry
  apply KeptO.next
  apply Kept.ite
  · intro _; exact Kept.clock (t := _) (bootCount_ge s) id
  · intro _; exact Kept.refl s

theorem ptpTime_kept (refNs) (s : State) : Kept s (ptpTime refNs s) := by
  unfold ptpTime
  refine Kept.ite (fun _ => ?_) (fun _ => ?_)
  · exact bootReference_kept ..
  · exact measure_kept ..

theorem ptpAsk_kept (port domain map) (s : State) : Kept s (ptpAsk port domain map s) := by
  unfold ptpAsk
  refine Kept.trans ?_ (emit_kept ..)
  exact Kept.upd rfl rfl rfl rfl rfl rfl

theorem ptpDelay_kept (twoWays) (s : State) : Kept s (ptpDelay twoWays s) := by
  unfold ptpDelay
  exact Kept.upd rfl rfl rfl rfl rfl rfl

theorem takePtp_kept (port domain map msg) (s : State) : Kept s (takePtp port domain map msg s) := by
  unfold takePtp
  split
  · refine Kept.trans ?_ (ptpAsk_kept ..)
    refine Kept.trans ?_ (ptpTime_kept ..)
    exact Kept.upd rfl rfl rfl rfl rfl rfl
  · split
    · refine Kept.ite (fun _ => ?_) (fun _ => ?_)
      · exact Kept.refl _
      · exact ptpDelay_kept ..
    · exact Kept.refl _
  · split
    · refine Kept.ite (fun _ => ?_) (fun _ => ?_)
      · exact ptpDelay_kept ..
      · exact Kept.refl _
    · exact Kept.refl _

theorem execPtpMessage_kept (frac port hdr msg) (s : State) :
    KeptO s (execPtpMessage frac port hdr msg s) := by
  unfold execPtpMessage
  extract_lets v1
  have h2 : Kept s v1 := atFrac_kept ..
  clear_value v1
  refine KeptO.next ?_
  refine Kept.ite (fun _ => ?_) (fun _ => ?_)
  · assumption
  · refine Kept.trans ?_ (takePtp_kept ..)
    assumption

theorem slew_kept (s : State) : Kept s (slew s) := by
  unfold slew
  extract_lets v1 v2 v3
  refine Kept.ite (fun _ => ?_) (fun _ => ?_)
  · exact Kept.refl _
  · refine Kept.ite (fun _ => ?_) (fun _ => ?_)
    · exact setOffset_kept ..
    · refine Kept.ite (fun _ => ?_) (fun _ => ?_)
      · exact setOffset_kept ..
      · exact setOffset_kept ..

theorem generatorCounts_kept (s : State) : Kept s (generatorCounts s) := by
  unfold generatorCounts
  extract_lets v1 v2 v3
  exact Kept.upd rfl rfl rfl rfl rfl rfl

theorem periodChange_kept (s : State) : Kept s (periodChange s) := by
  unfold periodChange
  refine Kept.ite (fun _ => ?_) (fun _ => ?_)
  · refine Kept.trans ?_ (anchorRec_kept ..)
    refine Kept.trans ?_ (setF_kept ..)
    refine Kept.trans ?_ (setF_kept ..)
    exact Kept.upd rfl rfl rfl rfl rfl rfl
  · exact Kept.refl _

theorem flourishChange_kept (s : State) : Kept s (flourishChange s) := by
  unfold flourishChange
  extract_lets v1 v2
  refine Kept.ite (fun _ => ?_) (fun _ => ?_)
  · exact Kept.upd rfl rfl rfl rfl rfl rfl
  · exact Kept.refl _

theorem sourceChange_kept (s : State) : Kept s (sourceChange s) := by
  unfold sourceChange
  extract_lets v1 v2 v3
  refine Kept.ite (fun _ => ?_) (fun _ => ?_)
  · exact Kept.refl _
  · refine Kept.trans ?_ (anchorRec_kept ..)
    refine Kept.trans ?_ (setF_kept ..)
    exact Kept.upd rfl rfl rfl rfl rfl rfl

theorem realignStep_kept (s : State) : Kept s (realignStep s) := by
  unfold realignStep
  apply Kept.ite
  · intro _
    dsimp only
    apply Kept.ite
    · intro _
      refine Kept.trans ?_ (anchorRec_kept _ _ _)
      refine Kept.trans ?_ (setOffset_kept _ _)
      exact Kept.clock (t := { s.time with realign := false, stroke := _ }) (Nat.le_add_right _ _) id
    · intro _; exact Kept.same rfl rfl rfl rfl rfl rfl rfl rfl rfl
  · intro _; exact Kept.refl s

theorem setFabricKhz_kept (khz) (s : State) : Kept s (setFabricKhz khz s) := by
  unfold setFabricKhz
  extract_lets v1 v2
  exact Kept.upd rfl rfl rfl rfl rfl rfl

theorem tickStroke_kept (s : State) : Kept s (tickStroke s) := by
  unfold tickStroke
  exact Kept.clock (t := _) (Nat.le_succ _) (by simp)

theorem strokeIoPulse_kept (s : State) : Kept s (strokeIoPulse s) := by
  unfold strokeIoPulse
  refine Kept.ite (fun _ => ?_) (fun _ => ?_)
  · exact emit_kept ..
  · exact Kept.refl _

theorem generatorBoundary_kept (s : State) : Kept s (generatorBoundary s) := by
  unfold generatorBoundary
  refine Kept.trans ?_ (periodChange_kept ..)
  refine Kept.trans ?_ (flourishChange_kept ..)
  refine Kept.trans ?_ (sourceChange_kept ..)
  refine Kept.trans ?_ (realignStep_kept ..)
  refine Kept.trans ?_ (slew_kept ..)
  exact generatorCounts_kept ..

/-! ### Sys2Proof/Machine/Chain.lean -/

theorem showKey_kept (s : State) : Kept s (showKey s) := by
  unfold showKey
  extract_lets v1 v2 v3
  have h4 : Kept s v3 := by
    unfold v3
    refine Kept.trans ?_ (setF_kept ..)
    exact setF_kept ..
  clear_value v3
  refine Kept.foldl (fun a x => ?_) ?_
  · exact setF_kept ..
  · assumption

theorem releaseHeld_kept (s : State) : Kept s (releaseHeld s) := by
  unfold releaseHeld
  refine Kept.trans ?_ (setF_kept _ _ _)
  exact ⟨id, id, fun _ => by simp, id, Nat.le_refl _, List.prefix_refl _, List.prefix_refl _, rfl⟩

theorem reserveGenesis_kept (h) (s : State) : Kept s (reserveGenesis h s) := by
  unfold reserveGenesis
  extract_lets v1 v2
  refine Kept.trans ?_ (showKey_kept ..)
  exact Kept.upd rfl rfl rfl rfl rfl rfl

theorem openNow_kept (s : State) : Kept s (openNow s) := by
  unfold openNow
  extract_lets v1 v2 v3
  have h4 : Kept s v2 := Kept.upd rfl rfl rfl rfl rfl rfl
  clear_value v2
  have h5 : Kept s v3 := by
    unfold v3
    refine Kept.ite (fun _ => ?_) (fun _ => ?_)
    · refine Kept.trans ?_ (reserveGenesis_kept ..)
      assumption
    · split
      · refine Kept.trans ?_ (reserveGenesis_kept ..)
        assumption
      · assumption
  clear_value v3
  refine Kept.trans ?_ (setF_kept ..)
  refine Kept.trans ?_ (setF_kept ..)
  refine Kept.trans ?_ (releaseHeld_kept ..)
  assumption

theorem openStroke_kept (s : State) : Kept s (openStroke s) := by
  unfold openStroke
  refine Kept.ite (fun _ => ?_) (fun _ => ?_)
  · exact openNow_kept ..
  · exact Kept.refl _

theorem closeStroke_kept (sealClosed) (s : State) : Kept s (closeStroke sealClosed s) := by
  unfold closeStroke
  refine Kept.ite (fun _ => ?_) (fun _ => ?_)
  · exact Kept.refl _
  · extract_lets v1 v2
    exact Kept.upd rfl rfl rfl rfl rfl rfl

theorem absorb_kept (stream nsid firstLba offset data) (s : State) :
    Kept s (absorb stream nsid firstLba offset data s) := by
  unfold absorb
  extract_lets v1 v2
  exact Kept.upd rfl rfl rfl rfl rfl rfl

theorem noteUnsealed_kept (s : State) : Kept s (noteUnsealed s) := by
  unfold noteUnsealed
  extract_lets v1
  refine Kept.ite (fun _ => ?_) (fun _ => ?_)
  · exact Kept.refl _
  · exact Kept.upd rfl rfl rfl rfl rfl rfl

theorem commitStroke_kept (c : ClosedStroke) (s : State) : Kept s (commitStroke c s) := by
  unfold commitStroke
  extract_lets r kp late _ s1 s2
  have h1 : Kept s s1 := by
    refine ⟨id, id, id, id, Nat.le_refl _, ?_, List.prefix_refl _, rfl⟩
    simp only [s1, rootKeys, List.map_append]
    exact List.prefix_append _ _
  have h2 : Kept s s2 := h1.trans ((setF_kept _ _ _).trans (setF_kept _ _ _))
  clear_value s2
  apply Kept.ite
  · intro _
    refine Kept.trans ?_ (setF_kept _ _ _)
    apply Kept.ite
    · intro _; exact h2.trans (setF_kept _ _ _)
    · intro _; exact h2
  · intro _; exact h2

theorem spendSign_kept (c) (s : State) : Kept s (spendSign c s) := by
  unfold spendSign
  exact Kept.upd rfl rfl rfl rfl rfl rfl

theorem showSign_kept (s : State) : Kept s (showSign s) := by
  unfold showSign
  extract_lets v1
  refine Kept.trans ?_ (setF_kept ..)
  exact setF_kept ..

theorem startFlourish_kept (s : State) : Kept s (startFlourish s) := by
  unfold startFlourish
  refine Kept.trans ?_ (showSign_kept ..)
  refine Kept.ite (fun _ => ?_) (fun _ => ?_)
  · exact Kept.upd rfl rfl rfl rfl rfl rfl
  · exact Kept.refl _

theorem pushSign_kept (u) (s : State) : Kept s (pushSign u s) := by
  unfold pushSign
  refine Kept.trans ?_ (showSign_kept ..)
  exact Kept.upd rfl rfl rfl rfl rfl rfl

theorem pushLate_kept (c) (s : State) : Kept s (pushLate c s) := by
  unfold pushLate
  exact Kept.upd rfl rfl rfl rfl rfl rfl

theorem dropLate_kept (p) (s : State) : Kept s (dropLate p s) := by
  unfold dropLate
  refine Kept.trans ?_ (showSign_kept ..)
  exact Kept.upd rfl rfl rfl rfl rfl rfl

theorem endSign_kept (u) (s : State) : Kept s (endSign u s) := by
  unfold endSign
  refine Kept.ite (fun _ => ?_) (fun _ => ?_)
  · refine Kept.trans ?_ (showSign_kept ..)
    exact Kept.upd rfl rfl rfl rfl rfl rfl
  · exact Kept.refl _

theorem fixFlourish_kept (closing) (s : State) : Kept s (fixFlourish closing s) := by
  unfold fixFlourish
  split
  · extract_lets v1 v2 v3 v4 v5 v6 v7 v8
    have h9 : Kept s v4 := Kept.upd rfl rfl rfl rfl rfl rfl
    clear_value v4
    have h10 : Kept s v8 := by
      unfold v8
      refine Kept.trans ?_ (Kept.upd rfl rfl rfl rfl rfl rfl)
      assumption
    clear_value v8
    refine Kept.trans ?_ (oxvSendAll_kept ..)
    refine Kept.trans ?_ (startFlourish_kept ..)
    refine Kept.trans ?_ (showKey_kept ..)
    assumption
  · exact Kept.refl _

theorem signFlourish_kept (s : State) : Kept s (signFlourish s) := by
  unfold signFlourish
  split
  · exact Kept.refl _
  · extract_lets v1 v2 v3 v4
    have h5 : Kept s v3 := by
      unfold v3
      refine Kept.trans ?_ (addRec_kept ..)
      exact Kept.upd rfl rfl rfl rfl rfl rfl
    clear_value v3
    have h6 : Kept s v4 := by
      unfold v4
      refine Kept.ite (fun _ => ?_) (fun _ => ?_)
      · refine Kept.trans ?_ (addRec_kept ..)
        assumption
      · assumption
    clear_value v4
    refine Kept.trans ?_ (setF_kept ..)
    refine Kept.trans ?_ (setF_kept ..)
    refine Kept.trans ?_ (endSign_kept ..)
    refine Kept.trans ?_ (incF_kept ..)
    assumption

theorem signAll_kept (fuel : Nat) (s : State) : Kept s (signAll fuel s) := by
  induction fuel generalizing s with
  | zero =>
    unfold signAll
    exact showSign_kept ..
  | succ k ih =>
    unfold signAll
    refine Kept.trans ?_ (ih _)
    exact signFlourish_kept ..

theorem signPending_kept (s : State) : Kept s (signPending s) := by
  unfold signPending
  exact signAll_kept ..

theorem voteAttempts_kept (n fl fuel : Nat) (s : State) : Kept s (voteAttempts n fl fuel s) := by
  induction fuel generalizing s with
  | zero => exact Kept.refl s
  | succ k ih =>
    unfold voteAttempts
    refine Kept.trans ?_ (ih _)
    refine Kept.trans ?_ (incF_kept ..)
    refine Kept.trans ?_ (incF_kept ..)
    refine Kept.trans ?_ (blot_kept ..)
    exact faultRec_kept ..

theorem pounceCompare_kept (n flag flag2 attempts loserB) (s : State) :
    Kept s (pounceCompare n flag flag2 attempts loserB s).1 := by
  unfold pounceCompare
  dsimp only
  refine Kept.fst_ite (fun _ => ?_) (fun _ => ?_)
  · dsimp only
    exact setF_kept ..
  · refine Kept.fst_ite (fun _ => ?_) (fun _ => ?_)
    · dsimp only
      refine Kept.trans ?_ (setF_kept ..)
      refine Kept.trans ?_ (incF_kept ..)
      refine Kept.ite (fun _ => ?_) (fun _ => ?_)
      · refine Kept.trans ?_ (faultRec_kept ..)
        exact setF_kept ..
      · refine Kept.trans ?_ (blot_kept ..)
        refine Kept.trans ?_ (faultRec_kept ..)
        exact setF_kept ..
    · dsimp only
      refine Kept.trans ?_ (incF_kept ..)
      refine Kept.trans ?_ (setF_kept ..)
      refine Kept.trans ?_ (setF_kept ..)
      refine Kept.trans ?_ (blot_kept ..)
      refine Kept.trans ?_ (faultRec_kept ..)
      refine Kept.trans ?_ (voteAttempts_kept ..)
      refine Kept.trans ?_ (setF_kept ..)
      refine Kept.trans ?_ (incF_kept ..)
      refine Kept.ite (fun _ => ?_) (fun _ => ?_)
      · refine Kept.trans ?_ (faultRec_kept ..)
        exact setF_kept ..
      · refine Kept.trans ?_ (blot_kept ..)
        refine Kept.trans ?_ (faultRec_kept ..)
        exact setF_kept ..

theorem pounce_kept (flag flag2 attempts loserB) (s : State) : Kept s (pounce flag flag2 attempts loserB s) := by
  unfold pounce
  split
  · exact Kept.refl _
  · extract_lets v1 v2
    have h3 : Kept s v1.1 := pounceCompare_kept ..
    clear_value v1
    have h4 : Kept s v2 := by
      unfold v2
      refine Kept.trans ?_ (commitStroke_kept ..)
      assumption
    clear_value v2
    refine Kept.ite (fun _ => ?_) (fun _ => ?_)
    · refine Kept.trans ?_ (fixFlourish_kept ..)
      assumption
    · assumption

theorem execPounceCommit_kept (frac flag flag2 attempts loserB) (s : State) :
    KeptO s (execPounceCommit frac flag flag2 attempts loserB s) := by
  unfold execPounceCommit
  refine KeptO.next ?_
  refine Kept.trans ?_ (pounce_kept ..)
  exact atFrac_kept ..

theorem laneFail_kept (lane) (s : State) : Kept s (laneFail lane s) := by
  unfold laneFail
  refine Kept.ite (fun _ => ?_) (fun _ => ?_)
  · exact Kept.refl _
  · extract_lets v1 v2 v3
    have h4 : Kept s v2 := by
      unfold v2
      refine Kept.trans ?_ (faultRec_kept ..)
      refine Kept.trans ?_ (setF_kept ..)
      exact setF_kept ..
    clear_value v2
    refine Kept.ite (fun _ => ?_) (fun _ => ?_)
    · assumption
    · refine Kept.trans ?_ (blot_kept ..)
      refine Kept.trans ?_ (Kept.upd rfl rfl rfl rfl rfl rfl)
      assumption

theorem execLaneParityFail_kept (frac check) (s : State) : KeptO s (execLaneParityFail frac check s) := by
  unfold execLaneParityFail
  extract_lets v1
  have h2 : Kept s v1 := atFrac_kept ..
  clear_value v1
  refine KeptO.next ?_
  refine Kept.trans ?_ (laneFail_kept ..)
  refine Kept.ite (fun _ => ?_) (fun _ => ?_)
  · refine Kept.trans ?_ (incF_kept ..)
    assumption
  · assumption

theorem markLate_kept (s : State) : Kept s (markLate s) := by
  unfold markLate
  exact Kept.upd rfl rfl rfl rfl rfl rfl

theorem flourishBoundary_kept (s : State) : Kept s (flourishBoundary s) := by
  unfold flourishBoundary
  refine Kept.ite (fun _ => ?_) (fun _ => ?_)
  · exact Kept.refl _
  · extract_lets v1
    have h2 : Kept s v1 := by
      unfold v1
      refine Kept.ite (fun _ => ?_) (fun _ => ?_)
      · exact fixFlourish_kept ..
      · exact Kept.refl _
    clear_value v1
    refine Kept.ite (fun _ => ?_) (fun _ => ?_)
    · refine Kept.trans ?_ (anchorRec_kept ..)
      assumption
    · assumption

theorem takeFd_kept (slotB dev index fd) (s : State) : Kept s (takeFd slotB dev index fd s) := by
  unfold takeFd
  refine Kept.ite (fun _ => ?_) (fun _ => ?_)
  · exact Kept.refl _
  · extract_lets v1 v2 v3 v4
    refine Kept.ite (fun _ => ?_) (fun _ => ?_)
    · exact incF_kept ..
    · refine Kept.ite (fun _ => ?_) (fun _ => ?_)
      · refine Kept.trans ?_ (setF_kept ..)
        refine Kept.trans ?_ (setF_kept ..)
        exact Kept.upd rfl rfl rfl rfl rfl rfl
      · refine Kept.trans ?_ (setF_kept ..)
        refine Kept.trans ?_ (setF_kept ..)
        exact Kept.upd rfl rfl rfl rfl rfl rfl

/-! ### Sys2Proof/Machine/Ftl.lean -/

theorem updNs_kept (n g) (s : State) : Kept s (updNs n g s) := by
  unfold updNs
  exact Kept.upd rfl rfl rfl rfl rfl rfl

theorem bumpSeq_kept (s : State) : Kept s (bumpSeq s) := by
  unfold bumpSeq
  exact Kept.upd rfl rfl rfl rfl rfl rfl

theorem stage_kept (x) (s : State) : Kept s (stage x s) := by
  unfold stage
  exact Kept.upd rfl rfl rfl rfl rfl rfl

theorem stageUnit_kept (x unit) (s : State) : Kept s (stageUnit x unit s) := by
  unfold stageUnit
  extract_lets v1
  refine Kept.trans ?_ (updNs_kept ..)
  exact stage_kept ..

theorem journalAdd_kept (r) (s : State) : Kept s (journalAdd r s) := by
  unfold journalAdd
  exact Kept.upd rfl rfl rfl rfl rfl rfl

theorem journalFlush_kept (s : State) : Kept s (journalFlush s) := by
  unfold journalFlush
  split
  · exact Kept.refl _
  · extract_lets v1 v2 v3 v4 v5 v6
    have h7 : Kept s v5 := by
      unfold v5
      refine Kept.foldl (fun a x => ?_) ?_
      · exact stage_kept ..
      · exact Kept.refl _
    clear_value v5
    refine Kept.trans ?_ (Kept.upd rfl rfl rfl rfl rfl rfl)
    assumption

theorem updDie_kept (d g) (s : State) : Kept s (updDie d g s) := by
  unfold updDie
  exact Kept.upd rfl rfl rfl rfl rfl rfl

theorem updBand_kept (b g) (s : State) : Kept s (updBand b g s) := by
  unfold updBand
  exact Kept.upd rfl rfl rfl rfl rfl rfl

theorem takeMembers_kept (copy ds) (s : State) : Kept s (takeMembers copy ds s).2 := by
  unfold takeMembers
  refine Kept.foldl_snd (fun a x => ?_) ?_
  · split
    · exact Kept.refl _
    · dsimp only
      exact updDie_kept ..
  · dsimp only
    exact Kept.refl _

theorem openBand_kept (kind copy feed) (s : State) : Kept s (openBand kind copy feed s) := by
  unfold openBand
  refine Kept.ite (fun _ => ?_) (fun _ => ?_)
  · exact Kept.refl _
  · extract_lets v1 v2 v3 v4 v5
    have h6 : Kept s v1.2 := takeMembers_kept ..
    clear_value v1
    have h7 : Kept s v4 := by
      unfold v4
      assumption
    clear_value v4
    refine Kept.trans ?_ (setF_kept ..)
    refine Kept.trans ?_ (journalAdd_kept ..)
    refine Kept.trans ?_ (Kept.upd rfl rfl rfl rfl rfl rfl)
    assumption

theorem moveLevels_kept (die group ptype k) (s : State) : Kept s (moveLevels die group ptype k s) := by
  unfold moveLevels
  refine Kept.ite (fun _ => ?_) (fun _ => ?_)
  · exact Kept.refl _
  · refine Kept.foldl (fun a x => ?_) ?_
    · refine Kept.ite (fun _ => ?_) (fun _ => ?_)
      · exact Kept.refl _
      · exact updDie_kept ..
    · exact updDie_kept ..

theorem refuseOp_kept (d q st) (s : State) : Kept s (refuseOp d q st s) := by
  unfold refuseOp
  exact Kept.upd rfl rfl rfl rfl rfl rfl

theorem refuseReads_kept (d) (s : State) : Kept s (refuseReads d s) := by
  unfold refuseReads
  extract_lets v1 v2
  refine Kept.foldl (fun a x => ?_) ?_
  · split
    · exact refuseOp_kept ..
    · exact Kept.refl _
  · exact updDie_kept ..

theorem takeSlot_kept (d q) (s : State) : Kept s (takeSlot d q s) := by
  unfold takeSlot
  refine Kept.ite (fun _ => ?_) (fun _ => ?_)
  · exact Kept.refl _
  · exact Kept.upd rfl rfl rfl rfl rfl rfl

theorem sendOffsets_kept (d q) (s : State) : Kept s (sendOffsets d q s) := by
  unfold sendOffsets
  split
  · exact emit_kept ..
  · refine Kept.ite (fun _ => ?_) (fun _ => ?_)
    · exact Kept.refl _
    · exact emit_kept ..
  · exact Kept.refl _

theorem runOp_kept (d q) (s : State) : Kept s (runOp d q s) := by
  unfold runOp
  refine Kept.trans ?_ (incF_kept ..)
  refine Kept.trans ?_ (emit_kept ..)
  refine Kept.trans ?_ (sendOffsets_kept ..)
  refine Kept.trans ?_ (takeSlot_kept ..)
  exact updDie_kept ..

theorem startDie_kept (d) (s : State) : Kept s (startDie d s) := by
  unfold startDie
  extract_lets v1
  refine Kept.ite (fun _ => ?_) (fun _ => ?_)
  · exact Kept.refl _
  · split
    · exact Kept.refl _
    · refine Kept.trans ?_ (refuseReads_kept ..)
      refine Kept.trans ?_ (runOp_kept ..)
      exact updDie_kept ..

theorem queueOp_kept (d q) (s : State) : Kept s (queueOp d q s) := by
  unfold queueOp
  split
  · exact refuseOp_kept ..
  · refine Kept.trans ?_ (startDie_kept ..)
    exact updDie_kept ..

theorem slotBoundary_kept (s : State) : Kept s (slotBoundary s) := by
  unfold slotBoundary
  refine Kept.foldl (fun a x => ?_) ?_
  · exact startDie_kept ..
  · exact Kept.upd rfl rfl rfl rfl rfl rfl

theorem queueParity_kept (id row) (s : State) : Kept s (queueParity id row s) := by
  unfold queueParity
  split
  · exact Kept.refl _
  · split
    · exact Kept.refl _
    · refine Kept.ite (fun _ => ?_) (fun _ => ?_)
      · split
        · exact Kept.refl _
        · exact queueOp_kept ..
      · exact Kept.refl _

theorem closeBandIfFull_kept (id) (s : State) : Kept s (closeBandIfFull id s) := by
  unfold closeBandIfFull
  split
  · exact Kept.refl _
  · refine Kept.ite (fun _ => ?_) (fun _ => ?_)
    · refine Kept.trans ?_ (setF_kept ..)
      refine Kept.trans ?_ (journalAdd_kept ..)
      exact updBand_kept ..
    · exact Kept.refl _

theorem formSlot_kept (id items) (s : State) : Kept s (formSlot id items s) := by
  unfold formSlot
  split
  · exact Kept.refl _
  · extract_lets v1 v2 v3 v4 v5 v6
    have h7 : Kept s v5 := Kept.upd rfl rfl rfl rfl rfl rfl
    clear_value v5
    have h8 : Kept s v6 := by
      unfold v6
      refine Kept.trans ?_ (queueOp_kept ..)
      assumption
    clear_value v6
    refine Kept.trans ?_ (closeBandIfFull_kept ..)
    refine Kept.ite (fun _ => ?_) (fun _ => ?_)
    · assumption
    · refine Kept.trans ?_ (queueParity_kept ..)
      assumption

theorem placeOne_kept (force) (s : State) : Kept s (placeOne force s) := by
  unfold placeOne
  extract_lets v1
  split
  · exact Kept.refl _
  · extract_lets v2 v3 v4
    have h5 : Kept s v4 := by
      unfold v4
      refine Kept.ite (fun _ => ?_) (fun _ => ?_)
      · exact Kept.refl _
      · exact openBand_kept ..
    clear_value v4
    split
    · assumption
    · extract_lets v6 v7 v8
      have h9 : Kept s v7 := by
        unfold v7
        refine Kept.trans ?_ (formSlot_kept ..)
        assumption
      clear_value v7
      refine Kept.ite (fun _ => ?_) (fun _ => ?_)
      · refine Kept.trans ?_ (Kept.upd rfl rfl rfl rfl rfl rfl)
        assumption
      · assumption

theorem placeAll_kept (force : Bool) (fuel : Nat) (s : State) : Kept s (placeAll force fuel s) := by
  induction fuel generalizing s with
  | zero => exact Kept.refl s
  | succ k ih =>
    unfold placeAll
    refine Kept.ite (fun _ => ?_) (fun _ => ?_)
    · refine Kept.trans ?_ (ih _)
      exact placeOne_kept ..
    · exact Kept.refl _

theorem place_kept (s : State) : Kept s (place s) := by
  unfold place
  refine Kept.ite (fun _ => ?_) (fun _ => ?_)
  · exact placeAll_kept ..
  · exact Kept.refl _

theorem placeForced_kept (s : State) : Kept s (placeForced s) := by
  unfold placeForced
  extract_lets v1
  have h2 : Kept s v1 := placeAll_kept ..
  clear_value v1
  refine Kept.foldl (fun a x => ?_) ?_
  · split
    · exact Kept.refl _
    · extract_lets v3
      refine Kept.trans ?_ (queueParity_kept ..)
      exact updBand_kept ..
  · assumption

theorem writeCws_kept (d u : Nat) (cs : List Codeword) (s : State) : Kept s (writeCws d u cs s) := by
  induction cs generalizing u s with
  | nil => exact Kept.refl s
  | cons k t ih =>
    unfold writeCws
    refine Kept.trans ?_ (ih _ _)
    exact Kept.upd rfl rfl rfl rfl rfl rfl

theorem settleUnit_kept (die unit x) (s : State) : Kept s (settleUnit die unit x s) := by
  unfold settleUnit
  extract_lets v1 v2
  have h3 : Kept s v1 := writeCws_kept ..
  clear_value v1
  split
  · refine Kept.trans ?_ (updNs_kept ..)
    assumption
  · extract_lets v4
    have h5 : Kept s v4 := by
      unfold v4
      refine Kept.trans ?_ (updNs_kept ..)
      assumption
    clear_value v4
    refine Kept.trans ?_ (journalAdd_kept ..)
    assumption

theorem padSlot_kept (die unit end_) (s : State) : Kept s (padSlot die unit end_ s) := by
  unfold padSlot
  exact writeCws_kept ..

theorem settleSlot_kept (d u n : Nat) (cs : List Nat) (s : State) : Kept s (settleSlot d u n cs s) := by
  induction cs generalizing u s with
  | nil =>
    unfold settleSlot
    exact padSlot_kept ..
  | cons k t ih =>
    unfold settleSlot
    split
    · exact ih _ _
    · extract_lets v1 v2 v3
      have h4 : Kept s v1 := settleUnit_kept ..
      clear_value v1
      have h5 : Kept s v3 := by
        unfold v3
        refine Kept.trans ?_ (Kept.upd rfl rfl rfl rfl rfl rfl)
        assumption
      clear_value v3
      refine Kept.trans ?_ (ih _ _)
      assumption

theorem updSlot_kept (id i g) (s : State) : Kept s (updSlot id i g s) := by
  unfold updSlot
  exact updBand_kept ..

theorem addUnits_kept (lo hi n) (s : State) : Kept s (addUnits lo hi n s) := by
  unfold addUnits
  extract_lets v1
  refine Kept.trans ?_ (setF_kept ..)
  exact setF_kept ..

theorem slotPass_kept (d id i) (s : State) : Kept s (slotPass d id i s) := by
  unfold slotPass
  split
  · exact Kept.refl _
  · split
    · exact Kept.refl _
    · extract_lets v1
      have h2 : Kept s v1 := by
        unfold v1
        refine Kept.trans ?_ (addUnits_kept ..)
        exact updSlot_kept ..
      clear_value v1
      refine Kept.ite (fun _ => ?_) (fun _ => ?_)
      · refine Kept.trans ?_ (writeCws_kept ..)
        assumption
      · refine Kept.trans ?_ (queueParity_kept ..)
        refine Kept.trans ?_ (settleSlot_kept ..)
        assumption

theorem retireMember_kept (d id) (s : State) : Kept s (retireMember d id s) := by
  unfold retireMember
  split
  · exact Kept.refl _
  · extract_lets v1
    refine Kept.trans ?_ (updDie_kept ..)
    exact updBand_kept ..

theorem slotFail_kept (d id i) (s : State) : Kept s (slotFail d id i s) := by
  unfold slotFail
  split
  · exact Kept.refl _
  · split
    · exact Kept.refl _
    · extract_lets v1
      have h2 : Kept s v1 := by
        unfold v1
        refine Kept.trans ?_ (blot_kept ..)
        refine Kept.trans ?_ (updDie_kept ..)
        refine Kept.trans ?_ (retireMember_kept ..)
        exact updSlot_kept ..
      clear_value v1
      refine Kept.ite (fun _ => ?_) (fun _ => ?_)
      · split
        · assumption
        · extract_lets v3 v4
          refine Kept.trans ?_ (queueParity_kept ..)
          refine Kept.trans ?_ (updBand_kept ..)
          assumption
      · refine Kept.trans ?_ (queueParity_kept ..)
        refine Kept.trans ?_ (formSlot_kept ..)
        assumption

theorem copyReads_kept (w p n : Nat) (us : List (Nat × Nat × Codeword)) (s : State) : Kept s (copyReads w p n us s) := by
  induction us generalizing n s with
  | nil => exact Kept.refl s
  | cons k t ih =>
    unfold copyReads
    refine Kept.ite (fun _ => ?_) (fun _ => ?_)
    · exact Kept.refl _
    · refine Kept.trans ?_ (ih _ _)
      exact queueOp_kept ..

theorem reclaimBand_kept (id) (s : State) : Kept s (reclaimBand id s) := by
  unfold reclaimBand
  split
  · exact Kept.refl _
  · refine Kept.ite (fun _ => ?_) (fun _ => ?_)
    · exact Kept.refl _
    · refine Kept.ite (fun _ => ?_) (fun _ => ?_)
      · refine Kept.ite (fun _ => ?_) (fun _ => ?_)
        · refine Kept.trans ?_ (journalAdd_kept ..)
          exact updBand_kept ..
        · exact Kept.refl _
      · refine Kept.ite (fun _ => ?_) (fun _ => ?_)
        · refine Kept.foldl (fun a x => ?_) ?_
          · extract_lets v1 v2
            refine Kept.ite (fun _ => ?_) (fun _ => ?_)
            · exact Kept.refl _
            · exact queueOp_kept ..
          · exact Kept.refl _
        · exact Kept.refl _

theorem gcBoundary_kept (s : State) : Kept s (gcBoundary s) := by
  unfold gcBoundary
  extract_lets v1 v2 v3 v4 v5
  have h6 : Kept s v1 := setF_kept ..
  clear_value v1
  have h7 : Kept s v3 := by
    unfold v3
    refine Kept.trans ?_ (setF_kept ..)
    assumption
  clear_value v3
  have h8 : Kept s v5 := by
    unfold v5
    split
    · assumption
    · extract_lets v9
      refine Kept.ite (fun _ => ?_) (fun _ => ?_)
      · assumption
      · refine Kept.trans ?_ (copyReads_kept ..)
        refine Kept.trans ?_ (Kept.upd rfl rfl rfl rfl rfl rfl)
        assumption
  clear_value v5
  refine Kept.foldl (fun a x => ?_) ?_
  · exact reclaimBand_kept ..
  · assumption

theorem wearBoundary_kept (s : State) : Kept s (wearBoundary s) := by
  unfold wearBoundary
  extract_lets v1 v2
  refine Kept.ite (fun _ => ?_) (fun _ => ?_)
  · exact setF_kept ..
  · refine Kept.ite (fun _ => ?_) (fun _ => ?_)
    · exact setF_kept ..
    · exact Kept.refl _

theorem scheduleRefresh_kept (d member) (s : State) : Kept s (scheduleRefresh d member s) := by
  unfold scheduleRefresh
  refine Kept.ite (fun _ => ?_) (fun _ => ?_)
  · exact Kept.refl _
  · extract_lets v1 v2
    refine Kept.trans ?_ (setF_kept ..)
    refine Kept.trans ?_ (updDie_kept ..)
    exact Kept.upd rfl rfl rfl rfl rfl rfl

theorem refreshBoundary_kept (s : State) : Kept s (refreshBoundary s) := by
  unfold refreshBoundary
  refine Kept.ite (fun _ => ?_) (fun _ => ?_)
  · exact Kept.refl _
  · extract_lets v1 v2
    have h3 : Kept s v1 := by
      unfold v1
      refine Kept.foldl (fun a x => ?_) ?_
      · refine Kept.foldl (fun a x => ?_) ?_
        · refine Kept.ite (fun _ => ?_) (fun _ => ?_)
          · exact copyReads_kept ..
          · exact Kept.refl _
        · exact Kept.refl _
      · exact Kept.refl _
    clear_value v1
    refine Kept.trans ?_ (setF_kept ..)
    refine Kept.trans ?_ (Kept.upd rfl rfl rfl rfl rfl rfl)
    assumption

theorem tillReads_kept (p : List (Nat × Nat)) (fuel : Nat) (s : State) : Kept s (tillReads p fuel s) := by
  induction fuel generalizing s with
  | zero => exact Kept.refl s
  | succ k ih =>
    unfold tillReads
    refine Kept.ite (fun _ => ?_) (fun _ => ?_)
    · exact Kept.refl _
    · extract_lets v1 v2 v3 v4
      have h5 : Kept s v2 := by
        unfold v2
        split
        · exact queueOp_kept ..
        · exact Kept.refl _
      clear_value v2
      refine Kept.trans ?_ (ih _)
      refine Kept.trans ?_ (Kept.upd rfl rfl rfl rfl rfl rfl)
      assumption

theorem tillBoundary_kept (s : State) : Kept s (tillBoundary s) := by
  unfold tillBoundary
  refine Kept.ite (fun _ => ?_) (fun _ => ?_)
  · exact Kept.refl _
  · extract_lets v1 v2 v3 v4 v5 v6 v7 v8 v9
    have h10 : Kept s v8 := Kept.upd rfl rfl rfl rfl rfl rfl
    clear_value v8
    have h11 : Kept s v9 := by
      unfold v9
      refine Kept.trans ?_ (tillReads_kept ..)
      assumption
    clear_value v9
    refine Kept.trans ?_ (setF_kept ..)
    refine Kept.trans ?_ (setF_kept ..)
    assumption

theorem spareBoundary_kept (s : State) : Kept s (spareBoundary s) := by
  unfold spareBoundary
  extract_lets v1 v2 v3 v4 v5 v6
  refine Kept.trans ?_ (setF_kept ..)
  refine Kept.trans ?_ (setF_kept ..)
  exact Kept.upd rfl rfl rfl rfl rfl rfl

theorem waBoundary_kept (s : State) : Kept s (waBoundary s) := by
  unfold waBoundary
  extract_lets v1 v2 v3 v4 v5 v6
  have h7 : Kept s v6 := Kept.upd rfl rfl rfl rfl rfl rfl
  clear_value v6
  refine Kept.ite (fun _ => ?_) (fun _ => ?_)
  · assumption
  · refine Kept.trans ?_ (setF_kept ..)
    assumption

theorem flushSegments_kept (s : State) : Kept s (flushSegments s) := by
  unfold flushSegments
  refine Kept.foldl (fun a x => ?_) ?_
  · refine Kept.foldl (fun a x => ?_) ?_
    · exact journalAdd_kept ..
    · exact Kept.refl _
  · exact Kept.refl _

theorem journalBoundary_kept (s : State) : Kept s (journalBoundary s) := by
  unfold journalBoundary
  extract_lets v1 v2 v3 v4 v5 v6 v7 v8 v9
  have h10 : Kept s v2 := by
    unfold v2
    refine Kept.ite (fun _ => ?_) (fun _ => ?_)
    · exact flushSegments_kept ..
    · exact Kept.refl _
  clear_value v2
  have h11 : Kept s v3 := by
    unfold v3
    refine Kept.trans ?_ (journalAdd_kept ..)
    assumption
  clear_value v3
  have h12 : Kept s v5 := by
    unfold v5
    refine Kept.ite (fun _ => ?_) (fun _ => ?_)
    · assumption
    · refine Kept.trans ?_ (flushSegments_kept ..)
      assumption
  clear_value v5
  have h13 : Kept s v7 := by
    unfold v7
    refine Kept.trans ?_ (Kept.upd rfl rfl rfl rfl rfl rfl)
    assumption
  clear_value v7
  have h14 : Kept s v9 := by
    unfold v9
    refine Kept.ite (fun _ => ?_) (fun _ => ?_)
    · refine Kept.trans ?_ (journalAdd_kept ..)
      assumption
    · refine Kept.trans ?_ (Kept.upd rfl rfl rfl rfl rfl rfl)
      assumption
  clear_value v9
  refine Kept.trans ?_ (journalFlush_kept ..)
  assumption

theorem stageInk_kept (force) (s : State) : Kept s (stageInk force s) := by
  unfold stageInk
  extract_lets v1 v2 v3 v4
  have h5 : Kept s v4 := Kept.upd rfl rfl rfl rfl rfl rfl
  clear_value v4
  refine Kept.foldl (fun a x => ?_) ?_
  · refine Kept.trans ?_ (bumpSeq_kept ..)
    exact stage_kept ..
  · assumption

theorem ftlBoundary_kept (s : State) : Kept s (ftlBoundary s) := by
  unfold ftlBoundary
  extract_lets v1 v2
  have h3 : Kept s v2 := by
    unfold v2
    refine Kept.trans ?_ (setF_kept ..)
    exact Kept.upd rfl rfl rfl rfl rfl rfl
  clear_value v2
  refine Kept.trans ?_ (place_kept ..)
  refine Kept.trans ?_ (spareBoundary_kept ..)
  refine Kept.trans ?_ (waBoundary_kept ..)
  refine Kept.trans ?_ (tillBoundary_kept ..)
  refine Kept.trans ?_ (gcBoundary_kept ..)
  refine Kept.trans ?_ (refreshBoundary_kept ..)
  refine Kept.trans ?_ (wearBoundary_kept ..)
  refine Kept.trans ?_ (journalBoundary_kept ..)
  refine Kept.trans ?_ (stageInk_kept ..)
  refine Kept.trans ?_ (slotBoundary_kept ..)
  assumption

end Sys2Proof.Machine
end

