-- ==== Sys2Proof/Laws/KeptStore.lean ====
section
/-!
SUPPORT. What every command but ALWAYS_ON_POWER_LOST keeps (`Kept`), operation by operation: proofs, budgets, the Inkstone, graphs, the Sieve, the cryptographic keys, the media and DRAM.
-/

namespace Sys2Proof.Machine

/-! ### Sys2Proof/Machine/Proof.lean -/

theorem pruneRoot_keys (s : State) (r : StrokeRoot) : (pruneRoot s r).n = r.n ∧ (pruneRoot s r).t = r.t ∧ (pruneRoot s r).c = r.c := by
  unfold pruneRoot; extract_lets o g; split <;> exact ⟨rfl, rfl, rfl⟩

theorem pruneRoots_kept (s : State) : Kept s (pruneRoots s) := by
  refine ⟨id, id, id, id, Nat.le_refl _, ?_, List.prefix_refl _, rfl⟩
  have : rootKeys (pruneRoots s) = rootKeys s := by
    unfold rootKeys pruneRoots
    simp only [List.map_map]
    apply List.map_congr_left
    intro r _
    simp [pruneRoot_keys s r]
  rw [this]

theorem freeStrokes_kept (nsid p) (s : State) : Kept s (freeStrokes nsid p s) := by
  unfold freeStrokes
  refine Kept.trans ?_ (pruneRoots_kept ..)
  exact updNs_kept ..

theorem retainRec_kept (nsid strokes first last) (s : State) : Kept s (retainRec nsid strokes first last s) := by
  unfold retainRec
  exact addRec_kept ..

theorem retainNs_kept (nsid) (s : State) : Kept s (retainNs nsid s) := by
  unfold retainNs
  split
  · exact Kept.refl _
  · extract_lets v1 v2 v3 v4
    unfold v2
    split
    · exact Kept.refl _
    · refine Kept.ite (fun _ => ?_) (fun _ => ?_)
      · exact Kept.refl _
      · extract_lets v5
        refine Kept.trans ?_ (retainRec_kept ..)
        exact freeStrokes_kept ..

theorem retainBoundary_kept (s : State) : Kept s (retainBoundary s) := by
  unfold retainBoundary
  refine Kept.ite (fun _ => ?_) (fun _ => ?_)
  · exact Kept.refl _
  · refine Kept.foldl (fun a x => ?_) ?_
    · refine Kept.ite (fun _ => ?_) (fun _ => ?_)
      · exact retainNs_kept ..
      · exact Kept.refl _
    · exact Kept.refl _

/-! ### Sys2Proof/Machine/Qos.lean -/

theorem noteSpill_kept (f) (s : State) : Kept s (noteSpill f s) := by
  unfold noteSpill
  extract_lets v1 v2
  exact Kept.upd rfl rfl rfl rfl rfl rfl

theorem charge_kept (f c n) (s : State) : Kept s (charge f c n s) := by
  unfold charge
  extract_lets v1 v2
  refine Kept.ite (fun _ => ?_) (fun _ => ?_)
  · refine Kept.ite (fun _ => ?_) (fun _ => ?_)
    · exact noteSpill_kept ..
    · exact Kept.refl _
  · refine Kept.ite (fun _ => ?_) (fun _ => ?_)
    · exact setFn_kept ..
    · exact setFn_kept ..

theorem setCapacity_kept (s : State) : Kept s (setCapacity s) := by
  unfold setCapacity
  extract_lets v1 v2
  refine Kept.trans ?_ (setF_kept ..)
  refine Kept.trans ?_ (setF_kept ..)
  exact setF_kept ..

theorem applyGrant_kept (c g) (s : State) : Kept s (applyGrant c g s) := by
  unfold applyGrant
  extract_lets v1 v2
  exact setFn_kept ..

theorem lapseGrants_kept (s : State) : Kept s (lapseGrants s) := by
  unfold lapseGrants
  exact Kept.upd rfl rfl rfl rfl rfl rfl

theorem latchQos_kept (s : State) : Kept s (latchQos s) := by
  unfold latchQos
  exact Kept.upd rfl rfl rfl rfl rfl rfl

theorem showGrants_kept (s : State) : Kept s (showGrants s) := by
  unfold showGrants
  refine Kept.foldl (fun a x => ?_) ?_
  · refine Kept.trans ?_ (setF_kept ..)
    exact setF_kept ..
  · exact Kept.refl _

theorem qosBoundary_kept (scale) (s : State) : Kept s (qosBoundary scale s) := by
  unfold qosBoundary
  extract_lets v1 v2 v3 v4 v5 v6 v7
  have h8 : Kept s v1 := by
    unfold v1
    refine Kept.trans ?_ (setF_kept ..)
    refine Kept.trans ?_ (setCapacity_kept ..)
    refine Kept.trans ?_ (latchQos_kept ..)
    exact lapseGrants_kept ..
  clear_value v1
  have h9 : Kept s v6 := by
    unfold v6
    unfold v5
    refine Kept.foldl (fun a x => ?_) ?_
    · exact applyGrant_kept ..
    · refine Kept.foldl (fun a x => ?_) ?_
      · exact applyGrant_kept ..
      · refine Kept.foldl (fun a x => ?_) ?_
        · exact applyGrant_kept ..
        · assumption
  clear_value v6
  refine Kept.trans ?_ (showGrants_kept ..)
  refine Kept.trans ?_ (setF_kept ..)
  refine Kept.trans ?_ (Kept.upd rfl rfl rfl rfl rfl rfl)
  assumption

/-! ### Sys2Proof/Machine/Ink.lean -/

theorem setInkBank_kept (b x) (s : State) : Kept s (setInkBank b x s) := by
  unfold setInkBank
  exact Kept.upd rfl rfl rfl rfl rfl rfl

theorem showInk_kept (s : State) : Kept s (showInk s) := by
  unfold showInk
  refine Kept.trans ?_ (setF_kept ..)
  refine Kept.foldl (fun a x => ?_) ?_
  · refine Kept.trans ?_ (setF_kept ..)
    exact setF_kept ..
  · exact Kept.refl _

theorem setInkWin_kept (k w) (s : State) : Kept s (setInkWin k w s) := by
  unfold setInkWin
  exact Kept.upd rfl rfl rfl rfl rfl rfl

theorem inkReport_kept (who mask) (s : State) : Kept s (inkReport who mask s) := by
  unfold inkReport
  split
  · exact Kept.refl _
  · exact setReg_kept ..
  · exact setInkWin_kept ..

theorem inkPulses_kept (who n) (s : State) : Kept s (inkPulses who n s) := by
  unfold inkPulses
  split
  · exact Kept.refl _
  · exact setF_kept ..
  · exact setInkWin_kept ..

theorem inkStart_kept (who op addr data) (s : State) : Kept s (inkStart who op addr data s) := by
  unfold inkStart
  split
  · exact inkReport_kept ..
  · extract_lets v1 v2
    refine Kept.trans ?_ (showInk_kept ..)
    exact setInkBank_kept ..

theorem execInkProgram_kept (who addr data) (s : State) : KeptO s (execInkProgram who addr data s) := by
  unfold execInkProgram
  refine KeptO.next ?_
  refine Kept.ite (fun _ => ?_) (fun _ => ?_)
  · exact inkStart_kept ..
  · exact Kept.refl _

theorem execInkErase_kept (who addr) (s : State) : KeptO s (execInkErase who addr s) := by
  unfold execInkErase
  refine KeptO.next ?_
  refine Kept.ite (fun _ => ?_) (fun _ => ?_)
  · exact inkStart_kept ..
  · exact Kept.refl _

theorem inkWriteBytes_kept (addr bs) (s : State) : Kept s (inkWriteBytes addr bs s) := by
  unfold inkWriteBytes
  exact Kept.upd rfl rfl rfl rfl rfl rfl

theorem inkEraseSector_kept (addr) (s : State) : Kept s (inkEraseSector addr s) := by
  unfold inkEraseSector
  exact Kept.upd rfl rfl rfl rfl rfl rfl

theorem inkApply_kept (o) (s : State) : Kept s (inkApply o s) := by
  unfold inkApply
  refine Kept.ite (fun _ => ?_) (fun _ => ?_)
  · exact inkEraseSector_kept ..
  · exact inkWriteBytes_kept ..

theorem listSector_kept (o spare) (s : State) : Kept s (listSector o spare s) := by
  unfold listSector
  extract_lets v1 v2 v3 v4 v5 v6
  have h7 : Kept s v6 := by
    unfold v6
    refine Kept.ite (fun _ => ?_) (fun _ => ?_)
    · exact Kept.upd rfl rfl rfl rfl rfl rfl
    · exact Kept.refl _
  clear_value v6
  refine Kept.trans ?_ (blot_kept ..)
  refine Kept.trans ?_ (setInkBank_kept ..)
  assumption

theorem inkSpoil_kept (o) (s : State) : Kept s (inkSpoil o s) := by
  unfold inkSpoil
  refine Kept.ite (fun _ => ?_) (fun _ => ?_)
  · exact Kept.refl _
  · refine Kept.trans ?_ (inkWriteBytes_kept ..)
    exact Kept.upd rfl rfl rfl rfl rfl rfl

theorem inkTear_kept (o) (s : State) : Kept s (inkTear o s) := by
  unfold inkTear
  refine Kept.trans ?_ (inkWriteBytes_kept ..)
  exact Kept.upd rfl rfl rfl rfl rfl rfl

theorem inkIdle_kept (b) (s : State) : Kept s (inkIdle b s) := by
  unfold inkIdle
  exact setInkBank_kept ..

theorem inkSealBank_kept (b) (s : State) : Kept s (inkSealBank b s) := by
  unfold inkSealBank
  split
  · refine Kept.ite (fun _ => ?_) (fun _ => ?_)
    · refine Kept.trans ?_ (inkTear_kept ..)
      exact inkIdle_kept ..
    · exact Kept.refl _
  · exact Kept.refl _

theorem inkSeal_kept (s : State) : Kept s (inkSeal s) := by
  unfold inkSeal
  refine Kept.trans ?_ (showInk_kept ..)
  refine Kept.trans ?_ (inkSealBank_kept ..)
  exact inkSealBank_kept ..

theorem inkDropBank_kept (sealed b) (s : State) : Kept s (inkDropBank sealed b s) := by
  unfold inkDropBank
  split
  · refine Kept.ite (fun _ => ?_) (fun _ => ?_)
    · refine Kept.trans ?_ (inkTear_kept ..)
      exact inkIdle_kept ..
    · refine Kept.ite (fun _ => ?_) (fun _ => ?_)
      · refine Kept.trans ?_ (inkApply_kept ..)
        exact inkIdle_kept ..
      · refine Kept.trans ?_ (inkSpoil_kept ..)
        exact inkIdle_kept ..
  · exact Kept.refl _

theorem inkDrop_kept (sealed) (s : State) : Kept s (inkDrop sealed s) := by
  unfold inkDrop
  refine Kept.trans ?_ (inkDropBank_kept ..)
  exact inkDropBank_kept ..

theorem execInkOpDone_kept (bank pulses fail) (s : State) : KeptO s (execInkOpDone bank pulses fail s) := by
  unfold execInkOpDone
  extract_lets v1
  refine KeptO.next ?_
  split
  · exact Kept.refl _
  · extract_lets v2 v3 v4
    have h5 : Kept s v2 := by
      unfold v2
      refine Kept.trans ?_ (inkPulses_kept ..)
      exact setInkBank_kept ..
    clear_value v2
    have h6 : Kept s v3 := by
      unfold v3
      refine Kept.trans ?_ (inkReport_kept ..)
      refine Kept.trans ?_ (listSector_kept ..)
      refine Kept.trans ?_ (inkSpoil_kept ..)
      assumption
    clear_value v3
    have h7 : Kept s v4 := by
      unfold v4
      refine Kept.ite (fun _ => ?_) (fun _ => ?_)
      · refine Kept.trans ?_ (inkReport_kept ..)
        refine Kept.trans ?_ (inkApply_kept ..)
        assumption
      · refine Kept.ite (fun _ => ?_) (fun _ => ?_)
        · refine Kept.trans ?_ (inkReport_kept ..)
          refine Kept.trans ?_ (listSector_kept ..)
          refine Kept.trans ?_ (inkApply_kept ..)
          assumption
        · refine Kept.ite (fun _ => ?_) (fun _ => ?_)
          · refine Kept.trans ?_ (setF_kept ..)
            assumption
          · assumption
    clear_value v4
    refine Kept.trans ?_ (showInk_kept ..)
    assumption

theorem inkFill_kept (who bs) (s : State) : Kept s (inkFill who bs s) := by
  unfold inkFill
  split
  · exact Kept.refl _
  · refine Kept.foldl (fun a x => ?_) ?_
    · exact setF_kept ..
    · exact Kept.refl _
  · exact setInkWin_kept ..

theorem inkKeepBad_kept (addr n chk) (s : State) : Kept s (inkKeepBad addr n chk s) := by
  unfold inkKeepBad
  extract_lets v1 v2
  have h3 : Kept s v1 := incF_kept ..
  clear_value v1
  refine Kept.ite (fun _ => ?_) (fun _ => ?_)
  · assumption
  · refine Kept.trans ?_ (Kept.upd rfl rfl rfl rfl rfl rfl)
    assumption

theorem inkRead_kept (who addr chk) (s : State) : Kept s (inkRead who addr chk s) := by
  unfold inkRead
  refine Kept.ite (fun _ => ?_) (fun _ => ?_)
  · exact inkReport_kept ..
  · refine Kept.ite (fun _ => ?_) (fun _ => ?_)
    · exact inkReport_kept ..
    · split
      · refine Kept.trans ?_ (inkReport_kept ..)
        exact incF_kept ..
      · refine Kept.trans ?_ (inkReport_kept ..)
        refine Kept.trans ?_ (inkFill_kept ..)
        exact inkKeepBad_kept ..
      · refine Kept.trans ?_ (inkReport_kept ..)
        exact inkFill_kept ..

theorem execInkRead_kept (who addr chk) (s : State) : KeptO s (execInkRead who addr chk s) := by
  unfold execInkRead
  refine KeptO.next ?_
  refine Kept.ite (fun _ => ?_) (fun _ => ?_)
  · exact inkRead_kept ..
  · exact Kept.refl _

theorem inkCommand_kept (who op addr data chk) (s : State) : Kept s (inkCommand who op addr data chk s) := by
  unfold inkCommand
  split
  · exact inkReport_kept ..
  · exact inkRead_kept ..
  · exact inkStart_kept ..

theorem winWrite_kept (k off v chk) (s : State) : Kept s (winWrite k off v chk s) := by
  unfold winWrite
  extract_lets v1 v2
  refine Kept.ite (fun _ => ?_) (fun _ => ?_)
  · exact setInkWin_kept ..
  · refine Kept.ite (fun _ => ?_) (fun _ => ?_)
    · exact setInkWin_kept ..
    · refine Kept.ite (fun _ => ?_) (fun _ => ?_)
      · exact setInkWin_kept ..
      · refine Kept.ite (fun _ => ?_) (fun _ => ?_)
        · exact inkCommand_kept ..
        · refine Kept.ite (fun _ => ?_) (fun _ => ?_)
          · exact setInkWin_kept ..
          · exact Kept.refl _

theorem saveSettings_kept (s : State) : Kept s (saveSettings s) := by
  unfold saveSettings
  refine Kept.ite (fun _ => ?_) (fun _ => ?_)
  · exact Kept.refl _
  · extract_lets v1 v2
    refine Kept.trans ?_ (setF_kept ..)
    refine Kept.trans ?_ (setF_kept ..)
    exact Kept.upd rfl rfl rfl rfl rfl rfl

theorem execSettingsSave_kept (s : State) : KeptO s (execSettingsSave s) := by
  unfold execSettingsSave
  refine KeptO.next ?_
  refine Kept.ite (fun _ => ?_) (fun _ => ?_)
  · exact saveSettings_kept ..
  · exact Kept.refl _

theorem execSettingsSaveTimer_kept (s : State) : KeptO s (execSettingsSaveTimer s) := by
  unfold execSettingsSaveTimer
  refine KeptO.next ?_
  refine Kept.ite (fun _ => ?_) (fun _ => ?_)
  · exact Kept.refl _
  · split
    · exact Kept.refl _
    · refine Kept.ite (fun _ => ?_) (fun _ => ?_)
      · exact saveSettings_kept ..
      · exact Kept.refl _

/-! ### Sys2Proof/Machine/Graph.lean -/

theorem updGraph_kept (h g) (s : State) : Kept s (updGraph h g s) := by
  unfold updGraph
  exact Kept.upd rfl rfl rfl rfl rfl rfl

theorem updRun_kept (h g) (s : State) : Kept s (updRun h g s) := by
  unfold updRun
  exact updGraph_kept ..

theorem updNode_kept (h n g) (s : State) : Kept s (updNode h n g s) := by
  unfold updNode
  exact updRun_kept ..

theorem setCore_kept (k c) (s : State) : Kept s (setCore k c s) := by
  unfold setCore
  exact Kept.upd rfl rfl rfl rfl rfl rfl

theorem showDuct_kept (s : State) : Kept s (showDuct s) := by
  unfold showDuct
  extract_lets v1
  refine Kept.trans ?_ (setF_kept ..)
  refine Kept.trans ?_ (setF_kept ..)
  refine Kept.trans ?_ (setF_kept ..)
  refine Kept.trans ?_ (setF_kept ..)
  refine Kept.trans ?_ (setF_kept ..)
  exact setF_kept ..

theorem loadRefused_kept (fn reason node) (s : State) : Kept s (loadRefused fn reason node s) := by
  unfold loadRefused
  refine Kept.trans ?_ (setF_kept ..)
  refine Kept.trans ?_ (setF_kept ..)
  refine Kept.trans ?_ (setF_kept ..)
  exact setF_kept ..

theorem makeReady_kept (h n) (s : State) : Kept s (makeReady h n s) := by
  unfold makeReady
  refine Kept.trans ?_ (showDuct_kept ..)
  refine Kept.trans ?_ (updNode_kept ..)
  exact Kept.upd rfl rfl rfl rfl rfl rfl

theorem wakeCore_kept (k) (s : State) : Kept s (wakeCore k s) := by
  unfold wakeCore
  refine Kept.ite (fun _ => ?_) (fun _ => ?_)
  · refine Kept.trans ?_ (updNode_kept ..)
    exact setF_kept ..
  · exact Kept.refl _

theorem notifyNode_kept (h n) (s : State) : Kept s (notifyNode h n s) := by
  unfold notifyNode
  split
  · refine Kept.trans ?_ (wakeCore_kept ..)
    exact setCore_kept ..
  · exact updNode_kept ..

theorem freeCore_kept (k) (s : State) : Kept s (freeCore k s) := by
  unfold freeCore
  refine Kept.trans ?_ (setF_kept ..)
  refine Kept.trans ?_ (setF_kept ..)
  refine Kept.trans ?_ (setF_kept ..)
  refine Kept.trans ?_ (setF_kept ..)
  exact setCore_kept ..

theorem payCore_kept (us h n) (s : State) : Kept s (payCore us h n s) := by
  unfold payCore
  refine Kept.trans ?_ (updNode_kept ..)
  exact updRun_kept ..

theorem chargeCore_kept (k h n) (s : State) : Kept s (chargeCore k h n s) := by
  unfold chargeCore
  extract_lets v1 v2
  refine Kept.trans ?_ (payCore_kept ..)
  exact setCore_kept ..

theorem chargeCores_kept (s : State) : Kept s (chargeCores s) := by
  unfold chargeCores
  refine Kept.foldl (fun a x => ?_) ?_
  · refine Kept.ite (fun _ => ?_) (fun _ => ?_)
    · exact chargeCore_kept ..
    · exact Kept.refl _
  · exact Kept.refl _

theorem leaveCore_kept (h n) (s : State) : Kept s (leaveCore h n s) := by
  unfold leaveCore
  split
  · refine Kept.trans ?_ (freeCore_kept ..)
    exact chargeCore_kept ..
  · exact Kept.refl _

theorem showContexts_kept (s : State) : Kept s (showContexts s) := by
  unfold showContexts
  extract_lets v1 v2
  refine Kept.trans ?_ (setF_kept ..)
  refine Kept.trans ?_ (setF_kept ..)
  refine Kept.trans ?_ (setF_kept ..)
  refine Kept.trans ?_ (setF_kept ..)
  refine Kept.trans ?_ (setF_kept ..)
  refine Kept.ite (fun _ => ?_) (fun _ => ?_)
  · exact setF_kept ..
  · exact Kept.refl _

theorem setEng_kept (e q) (s : State) : Kept s (setEng e q s) := by
  unfold setEng
  refine Kept.trans ?_ (showContexts_kept ..)
  exact Kept.upd rfl rfl rfl rfl rfl rfl

theorem freeContext_kept (h n) (s : State) : Kept s (freeContext h n s) := by
  unfold freeContext
  refine Kept.trans ?_ (showContexts_kept ..)
  exact Kept.upd rfl rfl rfl rfl rfl rfl

theorem spendEng_kept (e c n) (s : State) : Kept s (spendEng e c n s) := by
  unfold spendEng
  exact setEng_kept ..

theorem takeTurn_kept (e j) (s : State) : Kept s (takeTurn e j s) := by
  unfold takeTurn
  extract_lets v1
  refine Kept.trans ?_ (freeContext_kept ..)
  exact setEng_kept ..

theorem fillFrom_kept (fuel e : Nat) (s : State) : Kept s (fillFrom fuel e s) := by
  induction fuel generalizing s with
  | zero => exact Kept.refl s
  | succ k ih =>
    unfold fillFrom
    refine Kept.ite (fun _ => ?_) (fun _ => ?_)
    · exact Kept.refl _
    · split
      · exact Kept.refl _
      · refine Kept.trans ?_ (ih _)
        exact takeTurn_kept ..

theorem fillEng_kept (e) (s : State) : Kept s (fillEng e s) := by
  unfold fillEng
  exact fillFrom_kept ..

theorem joinEng_kept (e j) (s : State) : Kept s (joinEng e j s) := by
  unfold joinEng
  refine Kept.trans ?_ (fillEng_kept ..)
  exact setEng_kept ..

theorem leaveTurn_kept (e j) (s : State) : Kept s (leaveTurn e j s) := by
  unfold leaveTurn
  extract_lets v1
  exact setEng_kept ..

theorem dropJobs_kept (p) (s : State) : Kept s (dropJobs p s) := by
  unfold dropJobs
  extract_lets v1 v2 v3 v4
  have h5 : Kept s v4 := Kept.upd rfl rfl rfl rfl rfl rfl
  clear_value v4
  refine Kept.trans ?_ (showContexts_kept ..)
  refine Kept.foldl (fun a x => ?_) ?_
  · exact fillEng_kept ..
  · assumption

theorem writeResult_kept (f sqid cid h len g r) (s : State) : Kept s (writeResult f sqid cid h len g r s) := by
  unfold writeResult
  refine Kept.trans ?_ (complete_kept ..)
  exact hostOut_kept ..

theorem finishResults_kept (h) (s : State) : Kept s (finishResults h s) := by
  unfold finishResults
  refine Kept.foldl (fun a x => ?_) ?_
  · split
    · refine Kept.ite (fun _ => ?_) (fun _ => ?_)
      · split
        · split
          · refine Kept.ite (fun _ => ?_) (fun _ => ?_)
            · refine Kept.trans ?_ (writeResult_kept ..)
              exact dropCmd_kept ..
            · exact Kept.refl _
          · exact Kept.refl _
        · exact Kept.refl _
      · exact Kept.refl _
    · exact Kept.refl _
  · exact Kept.refl _

theorem stopRun_kept (h) (s : State) : Kept s (stopRun h s) := by
  unfold stopRun
  extract_lets v1 v2
  have h3 : Kept s v1 := by
    unfold v1
    refine Kept.foldl (fun a x => ?_) ?_
    · refine Kept.ite (fun _ => ?_) (fun _ => ?_)
      · refine Kept.trans ?_ (freeCore_kept ..)
        exact chargeCore_kept ..
      · exact Kept.refl _
    · exact Kept.refl _
  clear_value v1
  refine Kept.trans ?_ (dropJobs_kept ..)
  refine Kept.trans ?_ (Kept.upd rfl rfl rfl rfl rfl rfl)
  assumption

theorem endRunBy_kept (lost h state status failing) (s : State) : Kept s (endRunBy lost h state status failing s) := by
  unfold endRunBy
  extract_lets v1
  have h2 : Kept s v1 := stopRun_kept ..
  clear_value v1
  refine Kept.trans ?_ (finishResults_kept ..)
  refine Kept.trans ?_ (showDuct_kept ..)
  refine Kept.trans ?_ (updRun_kept ..)
  assumption

theorem endRun_kept (h state status failing) (s : State) : Kept s (endRun h state status failing s) := by
  unfold endRun
  exact endRunBy_kept ..

theorem loseRun_kept (h) (s : State) : Kept s (loseRun h s) := by
  unfold loseRun
  exact endRunBy_kept ..

theorem failNode_kept (h n code state status) (s : State) : Kept s (failNode h n code state status s) := by
  unfold failNode
  refine Kept.trans ?_ (endRun_kept ..)
  refine Kept.trans ?_ (updNode_kept ..)
  exact leaveCore_kept ..

theorem readySuccs_kept (h n) (s : State) : Kept s (readySuccs h n s) := by
  unfold readySuccs
  split
  · exact Kept.refl _
  · refine Kept.foldl (fun a x => ?_) ?_
    · refine Kept.ite (fun _ => ?_) (fun _ => ?_)
      · exact notifyNode_kept ..
      · split
        · exact Kept.refl _
        · split
          · exact Kept.refl _
          · refine Kept.ite (fun _ => ?_) (fun _ => ?_)
            · exact makeReady_kept ..
            · exact Kept.refl _
    · exact Kept.refl _

theorem endNode_kept (h n code bytes) (s : State) : Kept s (endNode h n code bytes s) := by
  unfold endNode
  refine Kept.ite (fun _ => ?_) (fun _ => ?_)
  · exact failNode_kept ..
  · extract_lets v1
    have h2 : Kept s v1 := by
      unfold v1
      refine Kept.trans ?_ (readySuccs_kept ..)
      refine Kept.trans ?_ (updNode_kept ..)
      exact leaveCore_kept ..
    clear_value v1
    split
    · assumption
    · split
      · assumption
      · refine Kept.ite (fun _ => ?_) (fun _ => ?_)
        · refine Kept.trans ?_ (endRun_kept ..)
          assumption
        · assumption

theorem releaseGraph_kept (h) (s : State) : Kept s (releaseGraph h s) := by
  unfold releaseGraph
  extract_lets v1 v2 v3
  have h4 : Kept s v1 := by
    unfold v1
    refine Kept.ite (fun _ => ?_) (fun _ => ?_)
    · exact endRun_kept ..
    · exact Kept.refl _
  clear_value v1
  have h5 : Kept s v2 := by
    unfold v2
    refine Kept.foldl (fun a x => ?_) ?_
    · refine Kept.ite (fun _ => ?_) (fun _ => ?_)
      · exact setF_kept ..
      · exact Kept.refl _
    · assumption
  clear_value v2
  refine Kept.trans ?_ (showDuct_kept ..)
  refine Kept.trans ?_ (Kept.upd rfl rfl rfl rfl rfl rfl)
  assumption

theorem releaseGraphs_kept (f) (s : State) : Kept s (releaseGraphs f s) := by
  unfold releaseGraphs
  extract_lets v1 v2 v3
  have h4 : Kept s v1 := Kept.upd rfl rfl rfl rfl rfl rfl
  clear_value v1
  have h5 : Kept s v2 := by
    unfold v2
    refine Kept.foldl (fun a x => ?_) ?_
    · refine Kept.ite (fun _ => ?_) (fun _ => ?_)
      · exact releaseGraph_kept ..
      · exact Kept.refl _
    · assumption
  clear_value v2
  refine Kept.trans ?_ (Kept.upd rfl rfl rfl rfl rfl rfl)
  assumption

theorem releaseAllGraphs_kept (s : State) : Kept s (releaseAllGraphs s) := by
  unfold releaseAllGraphs
  refine Kept.foldl (fun a x => ?_) ?_
  · exact releaseGraphs_kept ..
  · exact Kept.refl _

/-! ### Sys2Proof/Machine/Sieve.lean -/

theorem setPart_kept (p m) (s : State) : Kept s (setPart p m s) := by
  unfold setPart
  extract_lets v1 v2
  have h3 : Kept s v2 := Kept.upd rfl rfl rfl rfl rfl rfl
  clear_value v2
  refine Kept.ite (fun _ => ?_) (fun _ => ?_)
  · refine Kept.trans ?_ (setF_kept ..)
    assumption
  · refine Kept.ite (fun _ => ?_) (fun _ => ?_)
    · refine Kept.trans ?_ (setF_kept ..)
      assumption
    · assumption

theorem countLookup_kept (p key) (s : State) : Kept s (countLookup p key s) := by
  unfold countLookup
  refine Kept.trans ?_ (incF_kept ..)
  exact incF_kept ..

theorem clearSuspect_kept (p i) (s : State) : Kept s (clearSuspect p i s) := by
  unfold clearSuspect
  refine Kept.ite (fun _ => ?_) (fun _ => ?_)
  · exact setF_kept ..
  · exact Kept.refl _

theorem sieveWrite_kept (p i e) (s : State) : Kept s (sieveWrite p i e s) := by
  unfold sieveWrite
  refine Kept.trans ?_ (clearSuspect_kept ..)
  split
  · exact setPart_kept ..
  · exact setPart_kept ..

theorem sieveInsert_kept (p i e) (s : State) : KeptS s (sieveInsert p i e s) := by
  unfold sieveInsert
  split
  · exact KeptS.absent
  · extract_lets v1 v2
    refine KeptS.val ?_
    refine Kept.trans ?_ (clearSuspect_kept ..)
    exact setPart_kept ..

theorem parityError_kept (p i) (s : State) : Kept s (parityError p i s) := by
  unfold parityError
  extract_lets v1
  have h2 : Kept s v1 := by
    unfold v1
    refine Kept.trans ?_ (setF_kept ..)
    refine Kept.trans ?_ (setF_kept ..)
    refine Kept.trans ?_ (setF_kept ..)
    exact incF_kept ..
  clear_value v1
  refine Kept.ite (fun _ => ?_) (fun _ => ?_)
  · refine Kept.trans ?_ (blot_kept ..)
    assumption
  · refine Kept.trans ?_ (setF_kept ..)
    refine Kept.trans ?_ (blot_kept ..)
    refine Kept.trans ?_ (setPart_kept ..)
    assumption

theorem execSieveScan_kept (parityBad) (s : State) : KeptO s (execSieveScan parityBad s) := by
  unfold execSieveScan
  refine KeptO.next ?_
  refine Kept.ite (fun _ => ?_) (fun _ => ?_)
  · extract_lets v1 v2 v3
    have h4 : Kept s v3 := Kept.upd rfl rfl rfl rfl rfl rfl
    clear_value v3
    split
    · refine Kept.ite (fun _ => ?_) (fun _ => ?_)
      · refine Kept.trans ?_ (parityError_kept ..)
        assumption
      · assumption
    · assumption
  · exact Kept.refl _

theorem showHit_kept (p hits multi) (s : State) : Kept s (showHit p hits multi s) := by
  unfold showHit
  extract_lets v1 v2
  have h3 : Kept s v2 := by
    unfold v2
    refine Kept.trans ?_ (setF_kept ..)
    refine Kept.trans ?_ (setF_kept ..)
    exact Kept.upd rfl rfl rfl rfl rfl rfl
  clear_value v2
  split
  · refine Kept.trans ?_ (setF_kept ..)
    refine Kept.trans ?_ (setF_kept ..)
    refine Kept.trans ?_ (setF_kept ..)
    refine Kept.trans ?_ (setF_kept ..)
    assumption
  · refine Kept.trans ?_ (setF_kept ..)
    refine Kept.trans ?_ (setF_kept ..)
    refine Kept.trans ?_ (setF_kept ..)
    refine Kept.trans ?_ (setF_kept ..)
    assumption

theorem lookupParity_kept (p key bad) (s : State) : Kept s (lookupParity p key bad s) := by
  unfold lookupParity
  split
  · exact parityError_kept ..
  · exact Kept.refl _

theorem sieveGo_kept (part parityBad) (s : State) : Kept s (sieveGo part parityBad s) := by
  unfold sieveGo
  extract_lets v1 v2 v3
  have h4 : Kept s v2 := lookupParity_kept ..
  clear_value v2
  refine Kept.trans ?_ (showHit_kept ..)
  refine Kept.trans ?_ (countLookup_kept ..)
  refine Kept.trans ?_ (setF_kept ..)
  assumption

theorem execSieveGo_kept (go) (s : State) : KeptO s (execSieveGo go s) := by
  unfold execSieveGo
  refine KeptO.next ?_
  exact sieveGo_kept ..

theorem sieveNext_kept (s : State) : Kept s (sieveNext s) := by
  unfold sieveNext
  extract_lets v1
  exact showHit_kept ..

theorem execSieveNext_kept (s : State) : KeptO s (execSieveNext s) := by
  unfold execSieveNext
  refine KeptO.next ?_
  exact sieveNext_kept ..

theorem clearPart_kept (p) (s : State) : Kept s (clearPart p s) := by
  unfold clearPart
  exact setPart_kept ..

theorem clearOwned_kept (f) (s : State) : Kept s (clearOwned f s) := by
  unfold clearOwned
  refine Kept.foldl (fun a x => ?_) ?_
  · refine Kept.ite (fun _ => ?_) (fun _ => ?_)
    · exact clearPart_kept ..
    · exact Kept.refl _
  · exact Kept.refl _

theorem sieveBoot_kept (s : State) : Kept s (sieveBoot s) := by
  unfold sieveBoot
  extract_lets v1 v2 v3
  have h4 : Kept s v3 := by
    unfold v3
    refine Kept.foldl (fun a x => ?_) ?_
    · exact clearPart_kept ..
    · exact Kept.upd rfl rfl rfl rfl rfl rfl
  clear_value v3
  refine Kept.foldl (fun a x => ?_) ?_
  · exact setF_kept ..
  · assumption

/-! ### Sys2Proof/Machine/Crypto.lean -/

theorem saveContext_kept (h n d sealing) (s : State) : Kept s (saveContext h n d sealing s) := by
  unfold saveContext
  refine Kept.trans ?_ (showContexts_kept ..)
  refine Kept.ite (fun _ => ?_) (fun _ => ?_)
  · exact Kept.upd rfl rfl rfl rfl rfl rfl
  · refine Kept.ite (fun _ => ?_) (fun _ => ?_)
    · exact Kept.upd rfl rfl rfl rfl rfl rfl
    · exact Kept.refl _

theorem yieldJob_kept (e h n d sealing) (s : State) : Kept s (yieldJob e h n d sealing s) := by
  unfold yieldJob
  refine Kept.ite (fun _ => ?_) (fun _ => ?_)
  · refine Kept.trans ?_ (incF_kept ..)
    refine Kept.trans ?_ (fillEng_kept ..)
    refine Kept.trans ?_ (leaveTurn_kept ..)
    exact saveContext_kept ..
  · exact incF_kept ..

theorem execDigestGroupDone_kept (frac graph node) (s : State) : KeptO s (execDigestGroupDone frac graph node s) := by
  unfold execDigestGroupDone
  extract_lets v0
  have h0 : Kept s v0 := atFrac_kept ..
  clear_value v0
  refine KeptO.next ?_
  split
  · assumption
  · extract_lets v1 v2 v3
    have h4 : Kept s v2 := Kept.trans h0 (spendEng_kept ..)
    clear_value v2
    refine Kept.ite (fun _ => ?_) (fun _ => ?_)
    · assumption
    · refine Kept.ite (fun _ => ?_) (fun _ => ?_)
      · assumption
      · refine Kept.trans ?_ (yieldJob_kept ..)
        assumption

theorem showSlots_kept (s : State) : Kept s (showSlots s) := by
  unfold showSlots
  extract_lets v1 v2
  refine Kept.trans ?_ (setF_kept ..)
  unfold v2
  refine Kept.trans ?_ (setF_kept ..)
  refine Kept.trans ?_ (setF_kept ..)
  refine Kept.trans ?_ (setF_kept ..)
  refine Kept.trans ?_ (setF_kept ..)
  exact setF_kept ..

theorem setSlot_kept (k x) (s : State) : Kept s (setSlot k x s) := by
  unfold setSlot
  refine Kept.trans ?_ (showSlots_kept ..)
  exact Kept.upd rfl rfl rfl rfl rfl rfl

theorem clearSlot_kept (k all) (s : State) : Kept s (clearSlot k all s) := by
  unfold clearSlot
  refine Kept.trans ?_ (showSlots_kept ..)
  exact Kept.upd rfl rfl rfl rfl rfl rfl

theorem execSlotClear_kept (slot all) (s : State) : KeptO s (execSlotClear slot all s) := by
  unfold execSlotClear
  refine KeptO.next ?_
  exact clearSlot_kept ..

theorem setFeed_kept (f) (s : State) : Kept s (setFeed f s) := by
  unfold setFeed
  extract_lets v1 v2
  refine Kept.trans ?_ (setF_kept ..)
  refine Kept.trans ?_ (setF_kept ..)
  refine Kept.trans ?_ (setF_kept ..)
  exact Kept.upd rfl rfl rfl rfl rfl rfl

theorem clearResult_kept (s : State) : Kept s (clearResult s) := by
  unfold clearResult
  refine Kept.foldl (fun a x => ?_) ?_
  · exact setF_kept ..
  · exact Kept.refl _

theorem holdFeed_kept (on) (s : State) : Kept s (holdFeed on s) := by
  unfold holdFeed
  refine Kept.trans ?_ (showContexts_kept ..)
  exact Kept.upd rfl rfl rfl rfl rfl rfl

theorem feedOpen_kept (v) (s : State) : Kept s (feedOpen v s) := by
  unfold feedOpen
  extract_lets v1 v2 v3 v4 v5
  refine Kept.ite (fun _ => ?_) (fun _ => ?_)
  · exact setF_kept ..
  · refine Kept.ite (fun _ => ?_) (fun _ => ?_)
    · exact setF_kept ..
    · refine Kept.trans ?_ (holdFeed_kept ..)
      exact setFeed_kept ..

theorem execFeedOpen_kept (value) (s : State) : KeptO s (execFeedOpen value s) := by
  unfold execFeedOpen
  refine KeptO.next ?_
  exact feedOpen_kept ..

theorem spendFeed_kept (alg groups) (s : State) : Kept s (spendFeed alg groups s) := by
  unfold spendFeed
  exact spendEng_kept ..

theorem feedData_kept (w) (s : State) : Kept s (feedData w s) := by
  unfold feedData
  split
  · exact Kept.refl _
  · refine Kept.ite (fun _ => ?_) (fun _ => ?_)
    · exact Kept.refl _
    · refine Kept.ite (fun _ => ?_) (fun _ => ?_)
      · exact setFeed_kept ..
      · extract_lets v1
        have h2 : Kept s v1 := setFeed_kept ..
        clear_value v1
        refine Kept.ite (fun _ => ?_) (fun _ => ?_)
        · refine Kept.trans ?_ (spendFeed_kept ..)
          assumption
        · assumption

theorem execFeedData_kept (word) (s : State) : KeptO s (execFeedData word s) := by
  unfold execFeedData
  refine KeptO.next ?_
  exact feedData_kept ..

theorem feedLast_kept (w) (s : State) : Kept s (feedLast w s) := by
  unfold feedLast
  split
  · exact Kept.refl _
  · refine Kept.ite (fun _ => ?_) (fun _ => ?_)
    · exact Kept.refl _
    · extract_lets v1 v2 v3
      have h4 : Kept s v3 := by
        unfold v3
        refine Kept.trans ?_ (setF_kept ..)
        exact setF_kept ..
      clear_value v3
      refine Kept.ite (fun _ => ?_) (fun _ => ?_)
      · refine Kept.trans ?_ (setF_kept ..)
        refine Kept.trans ?_ (clearResult_kept ..)
        refine Kept.trans ?_ (holdFeed_kept ..)
        refine Kept.trans ?_ (setFeed_kept ..)
        assumption
      · refine Kept.trans ?_ (setFeed_kept ..)
        assumption

theorem execFeedLast_kept (word) (s : State) : KeptO s (execFeedLast word s) := by
  unfold execFeedLast
  refine KeptO.next ?_
  exact feedLast_kept ..

theorem feedAbort_kept (s : State) : Kept s (feedAbort s) := by
  unfold feedAbort
  refine Kept.ite (fun _ => ?_) (fun _ => ?_)
  · refine Kept.trans ?_ (holdFeed_kept ..)
    exact setFeed_kept ..
  · exact Kept.refl _

theorem execFeedAbort_kept (s : State) : KeptO s (execFeedAbort s) := by
  unfold execFeedAbort
  refine KeptO.next ?_
  exact feedAbort_kept ..

theorem compareFault_kept (engine flags) (s : State) : Kept s (compareFault engine flags s) := by
  unfold compareFault
  exact blot_kept ..

theorem dropEq_kept (s : State) : Kept s (dropEq s) := by
  unfold dropEq
  refine Kept.ite (fun _ => ?_) (fun _ => ?_)
  · exact Kept.refl _
  · refine Kept.trans ?_ (setF_kept ..)
    exact setF_kept ..

theorem execFeedDone_kept (flags) (s : State) : KeptO s (execFeedDone flags s) := by
  unfold execFeedDone
  refine KeptO.next ?_
  split
  · exact Kept.refl _
  · refine Kept.ite (fun _ => ?_) (fun _ => ?_)
    · exact Kept.refl _
    · extract_lets v1 v2 v3
      have h4 : Kept s v1 := by
        unfold v1
        refine Kept.trans ?_ (setF_kept ..)
        refine Kept.trans ?_ (holdFeed_kept ..)
        refine Kept.trans ?_ (setFeed_kept ..)
        exact spendFeed_kept ..
      clear_value v1
      refine Kept.ite (fun _ => ?_) (fun _ => ?_)
      · refine Kept.trans ?_ (setF_kept ..)
        refine Kept.trans ?_ (setF_kept ..)
        refine Kept.foldl (fun a x => ?_) ?_
        · exact setF_kept ..
        · assumption
      · refine Kept.ite (fun _ => ?_) (fun _ => ?_)
        · refine Kept.trans ?_ (compareFault_kept ..)
          refine Kept.trans ?_ (dropEq_kept ..)
          refine Kept.trans ?_ (setF_kept ..)
          refine Kept.trans ?_ (setF_kept ..)
          refine Kept.trans ?_ (clearResult_kept ..)
          assumption
        · refine Kept.trans ?_ (setF_kept ..)
          refine Kept.trans ?_ (setF_kept ..)
          refine Kept.trans ?_ (clearResult_kept ..)
          assumption

theorem newMediaKey_kept (nsid) (s : State) : Kept s (newMediaKey nsid s) := by
  unfold newMediaKey
  exact Kept.upd rfl rfl rfl rfl rfl rfl

theorem showImport_kept (s : State) : Kept s (showImport s) := by
  unfold showImport
  refine Kept.foldl (fun a x => ?_) ?_
  · exact setF_kept ..
  · exact Kept.refl _

theorem applyBlob_kept (nsid slot wrap b) (s : State) : Kept s (applyBlob nsid slot wrap b s) := by
  unfold applyBlob
  split
  · exact Kept.refl _
  · refine Kept.ite (fun _ => ?_) (fun _ => ?_)
    · exact Kept.upd rfl rfl rfl rfl rfl rfl
    · exact setSlot_kept ..

/-! ### Sys2Proof/Machine/Media.lean -/

theorem deferredError_kept (e) (s : State) : Kept s (deferredError e s) := by
  unfold deferredError
  extract_lets v1 v2 v3 v4 v5 v6 v7
  have h8 : Kept s v3 := Kept.upd rfl rfl rfl rfl rfl rfl
  clear_value v3
  have h9 : Kept s v4 := by
    unfold v4
    refine Kept.trans ?_ (updNs_kept ..)
    assumption
  clear_value v4
  have h10 : Kept s v5 := by
    unfold v5
    refine Kept.trans ?_ (blot_kept ..)
    assumption
  clear_value v5
  have h11 : Kept s v6 := by
    unfold v6
    refine Kept.trans ?_ (addRec_kept ..)
    assumption
  clear_value v6
  refine Kept.trans ?_ (vendorEvent_kept ..)
  refine Kept.foldl (fun a x => ?_) ?_
  · exact updFn_kept ..
  · assumption

theorem hostWrite_kept (f cid data) (s : State) : Kept s (hostWrite f cid data s) := by
  unfold hostWrite
  refine Kept.ite (fun _ => ?_) (fun _ => ?_)
  · exact oxvTo_kept ..
  · exact hostOut_kept ..

theorem endRead_kept (c) (s : State) : Kept s (endRead c s) := by
  unfold endRead
  split
  · refine Kept.trans ?_ (complete_kept ..)
    exact hostWrite_kept ..
  · exact complete_kept ..
  · exact complete_kept ..
  · split
    · exact Kept.refl _
    · extract_lets v1
      exact complete_kept ..
  · exact Kept.refl _

theorem finishCmd_kept (c) (s : State) : Kept s (finishCmd c s) := by
  unfold finishCmd
  extract_lets v1 v2 v3
  refine Kept.ite (fun _ => ?_) (fun _ => ?_)
  · refine Kept.trans ?_ (complete_kept ..)
    exact dropCmd_kept ..
  · split
    · refine Kept.ite (fun _ => ?_) (fun _ => ?_)
      · exact updCmd_kept ..
      · unfold v2
        refine Kept.trans ?_ (endRead_kept ..)
        refine Kept.trans ?_ (dropCmd_kept ..)
        exact charge_kept ..
    · refine Kept.ite (fun _ => ?_) (fun _ => ?_)
      · unfold v2
        refine Kept.trans ?_ (endRead_kept ..)
        refine Kept.trans ?_ (dropCmd_kept ..)
        exact spendSign_kept ..
      · exact pushSign_kept ..
    · unfold v2
      refine Kept.trans ?_ (endRead_kept ..)
      exact dropCmd_kept ..

theorem deliver_kept (f sqid cid die unit ok) (s : State) : Kept s (deliver f sqid cid die unit ok s) := by
  unfold deliver
  extract_lets v1
  have h2 : Kept s v1 := updCmd_kept ..
  clear_value v1
  split
  · assumption
  · refine Kept.ite (fun _ => ?_) (fun _ => ?_)
    · refine Kept.trans ?_ (finishCmd_kept ..)
      assumption
    · assumption

theorem resumeReads_kept (s : State) : Kept s (resumeReads s) := by
  unfold resumeReads
  refine Kept.foldl (fun a x => ?_) ?_
  · refine Kept.ite (fun _ => ?_) (fun _ => ?_)
    · refine Kept.trans ?_ (finishCmd_kept ..)
      exact updCmd_kept ..
    · exact Kept.refl _
  · exact Kept.refl _

theorem trackHard_kept (die unit r) (s : State) : Kept s (trackHard die unit r s) := by
  unfold trackHard
  refine Kept.ite (fun _ => ?_) (fun _ => ?_)
  · exact Kept.refl _
  · extract_lets v1 v2 v3 v4 v5 v6 v7 v8
    have h9 : Kept s v6 := updDie_kept ..
    clear_value v6
    refine Kept.ite (fun _ => ?_) (fun _ => ?_)
    · exact updDie_kept ..
    · unfold v8
      split
      · refine Kept.trans ?_ (moveLevels_kept ..)
        assumption
      · assumption

theorem trackRetry_kept (die unit tries) (s : State) : Kept s (trackRetry die unit tries s) := by
  unfold trackRetry
  refine Kept.ite (fun _ => ?_) (fun _ => ?_)
  · exact moveLevels_kept ..
  · exact Kept.refl _

theorem deliverNode_kept (h n die unit ok) (s : State) : Kept s (deliverNode h n die unit ok s) := by
  unfold deliverNode
  exact updNode_kept ..

theorem deliverMember_kept (die unit ok) (s : State) : Kept s (deliverMember die unit ok s) := by
  unfold deliverMember
  exact Kept.upd rfl rfl rfl rfl rfl rfl

theorem deliverOp_kept (die q ok) (s : State) : Kept s (deliverOp die q ok s) := by
  unfold deliverOp
  split
  · split
    · exact deliver_kept ..
    · exact deliverNode_kept ..
    · refine Kept.ite (fun _ => ?_) (fun _ => ?_)
      · exact deliverMember_kept ..
      · refine Kept.ite (fun _ => ?_) (fun _ => ?_)
        · split
          · exact Kept.refl _
          · refine Kept.ite (fun _ => ?_) (fun _ => ?_)
            · exact stage_kept ..
            · exact Kept.refl _
        · exact Kept.refl _
  · exact Kept.refl _

theorem refreshCheck_kept (die unit bitsCorr) (s : State) : Kept s (refreshCheck die unit bitsCorr s) := by
  unfold refreshCheck
  refine Kept.ite (fun _ => ?_) (fun _ => ?_)
  · exact scheduleRefresh_kept ..
  · exact Kept.refl _

theorem countRead_kept (die unit) (s : State) : Kept s (countRead die unit s) := by
  unfold countRead
  extract_lets v1 v2 v3
  refine Kept.ite (fun _ => ?_) (fun _ => ?_)
  · refine Kept.foldl (fun a x => ?_) ?_
    · exact queueOp_kept ..
    · exact updDie_kept ..
  · exact updDie_kept ..

theorem resumeDie_kept (d q) (s : State) : Kept s (resumeDie d q s) := by
  unfold resumeDie
  refine Kept.trans ?_ (emit_kept ..)
  exact updDie_kept ..

theorem nextOp_kept (d) (s : State) : Kept s (nextOp d s) := by
  unfold nextOp
  extract_lets v1
  split
  · exact startDie_kept ..
  · split
    · refine Kept.ite (fun _ => ?_) (fun _ => ?_)
      · refine Kept.trans ?_ (runOp_kept ..)
        exact updDie_kept ..
      · exact resumeDie_kept ..
    · exact resumeDie_kept ..

theorem idleDie_kept (d) (s : State) : Kept s (idleDie d s) := by
  unfold idleDie
  refine Kept.trans ?_ (nextOp_kept ..)
  exact updDie_kept ..

theorem startRebuild_kept (d unit q) (s : State) : Kept s (startRebuild d unit q s) := by
  unfold startRebuild
  extract_lets v1 v2
  unfold v1
  split
  · exact Kept.upd rfl rfl rfl rfl rfl rfl
  · extract_lets v3 v4 v5
    refine Kept.foldl (fun a x => ?_) ?_
    · exact queueOp_kept ..
    · exact Kept.upd rfl rfl rfl rfl rfl rfl

theorem rebuildRead_kept (d q) (s : State) : Kept s (rebuildRead d q s) := by
  unfold rebuildRead
  refine Kept.foldl (fun a x => ?_) ?_
  · exact startRebuild_kept ..
  · exact Kept.upd rfl rfl rfl rfl rfl rfl

theorem readLost_kept (d q) (s : State) : Kept s (readLost d q s) := by
  unfold readLost
  refine Kept.ite (fun _ => ?_) (fun _ => ?_)
  · exact deliverOp_kept ..
  · exact rebuildRead_kept ..

theorem recovered_kept (die unit ok) (s : State) : Kept s (recovered die unit ok s) := by
  unfold recovered
  split
  · exact Kept.refl _
  · extract_lets v1 v2 v3
    refine Kept.ite (fun _ => ?_) (fun _ => ?_)
    · refine Kept.trans ?_ (place_kept ..)
      refine Kept.trans ?_ (deliverOp_kept ..)
      exact Kept.upd rfl rfl rfl rfl rfl rfl
    · exact Kept.upd rfl rfl rfl rfl rfl rfl

theorem retarget_kept (q old new) (s : State) : Kept s (retarget q old new s) := by
  unfold retarget
  extract_lets v1
  split
  · exact updCmd_kept ..
  · exact updNode_kept ..
  · exact Kept.refl _

theorem reissue_kept (d u count q) (s : State) : Kept s (reissue d u count q s) := by
  unfold reissue
  refine Kept.ite (fun _ => ?_) (fun _ => ?_)
  · exact deliverOp_kept ..
  · split
    · refine Kept.ite (fun _ => ?_) (fun _ => ?_)
      · exact deliverOp_kept ..
      · refine Kept.trans ?_ (queueOp_kept ..)
        exact retarget_kept ..
    · exact deliverOp_kept ..

theorem answerOp_kept (d q st) (s : State) : Kept s (answerOp d q st s) := by
  unfold answerOp
  split
  · exact reissue_kept ..
  · exact reissue_kept ..
  · exact readLost_kept ..
  · exact deliverOp_kept ..
  · refine Kept.ite (fun _ => ?_) (fun _ => ?_)
    · exact recovered_kept ..
    · exact startRebuild_kept ..
  · exact slotFail_kept ..
  · exact updBand_kept ..

theorem answerRound_kept (s : State) : Kept s (answerRound s) := by
  unfold answerRound
  refine Kept.foldl (fun a x => ?_) ?_
  · exact answerOp_kept ..
  · exact Kept.upd rfl rfl rfl rfl rfl rfl

theorem settleOps_kept (s : State) : Kept s (settleOps s) := by
  unfold settleOps
  refine Kept.trans ?_ (answerRound_kept ..)
  refine Kept.trans ?_ (answerRound_kept ..)
  exact answerRound_kept ..

theorem hardDone_kept (die tries) (s : State) (e) : Kept s (hardDone die tries s e) := by
  unfold hardDone
  extract_lets v1
  have h2 : Kept s v1 := refreshCheck_kept ..
  clear_value v1
  refine Kept.ite (fun _ => ?_) (fun _ => ?_)
  · refine Kept.trans ?_ (trackHard_kept ..)
    refine Kept.trans ?_ (incF_kept ..)
    assumption
  · refine Kept.trans ?_ (trackRetry_kept ..)
    refine Kept.trans ?_ (incF_kept ..)
    assumption

theorem retryRead_kept (die q) (s : State) : Kept s (retryRead die q s) := by
  unfold retryRead
  extract_lets v1
  refine Kept.ite (fun _ => ?_) (fun _ => ?_)
  · refine Kept.trans ?_ (idleDie_kept ..)
    exact updDie_kept ..
  · refine Kept.trans ?_ (runOp_kept ..)
    exact updDie_kept ..

theorem softReads_kept (die q left) (s : State) : Kept s (softReads die q left s) := by
  unfold softReads
  refine Kept.foldl (fun a x => ?_) ?_
  · exact queueOp_kept ..
  · exact Kept.upd rfl rfl rfl rfl rfl rfl

theorem readResults_kept (die q res) (s : State) : Kept s (readResults die q res s) := by
  unfold readResults
  extract_lets v1 v2 v3
  have h4 : Kept s v3 := by
    unfold v3
    refine Kept.foldl (fun a x => ?_) ?_
    · exact hardDone_kept ..
    · exact Kept.refl _
  clear_value v3
  refine Kept.ite (fun _ => ?_) (fun _ => ?_)
  · refine Kept.trans ?_ (idleDie_kept ..)
    refine Kept.trans ?_ (place_kept ..)
    refine Kept.trans ?_ (deliverOp_kept ..)
    assumption
  · refine Kept.ite (fun _ => ?_) (fun _ => ?_)
    · refine Kept.trans ?_ (retryRead_kept ..)
      assumption
    · refine Kept.trans ?_ (idleDie_kept ..)
      refine Kept.trans ?_ (softReads_kept ..)
      assumption

theorem execNandReadDone_kept (die res) (s : State) : KeptO s (execNandReadDone die res s) := by
  unfold execNandReadDone
  refine KeptO.next ?_
  split
  · split
    · refine Kept.trans ?_ (settleOps_kept ..)
      refine Kept.trans ?_ (readResults_kept ..)
      exact countRead_kept ..
    · extract_lets v1 v2
      refine Kept.trans ?_ (settleOps_kept ..)
      refine Kept.trans ?_ (idleDie_kept ..)
      exact Kept.upd rfl rfl rfl rfl rfl rfl
    · exact Kept.refl _
  · exact Kept.refl _

theorem deepBoundary_kept (scale) (s : State) : Kept s (deepBoundary scale s) := by
  unfold deepBoundary
  extract_lets v1 v2 v3 v4 v5 v6 v7 v8 v9
  have h10 : Kept s v4 := Kept.upd rfl rfl rfl rfl rfl rfl
  clear_value v4
  refine Kept.trans ?_ (setF_kept ..)
  refine Kept.trans ?_ (Kept.upd rfl rfl rfl rfl rfl rfl)
  assumption

theorem chargeDeep_kept (w) (s : State) : Kept s (chargeDeep w s) := by
  unfold chargeDeep
  extract_lets v1 v2 v3
  refine Kept.trans ?_ (scheduleRefresh_kept ..)
  refine Kept.trans ?_ (updDie_kept ..)
  exact Kept.upd rfl rfl rfl rfl rfl rfl

theorem execDeepDecodeDone_kept (frac res) (s : State) : KeptO s (execDeepDecodeDone frac res s) := by
  unfold execDeepDecodeDone
  extract_lets v0
  have h0 : Kept s v0 := atFrac_kept ..
  clear_value v0
  refine KeptO.next ?_
  split
  · assumption
  · extract_lets v1
    have h2 : Kept s v1 := Kept.trans h0 (chargeDeep_kept ..)
    clear_value v1
    refine Kept.trans ?_ (settleOps_kept ..)
    refine Kept.ite (fun _ => ?_) (fun _ => ?_)
    · refine Kept.trans ?_ (recovered_kept ..)
      refine Kept.trans ?_ (incF_kept ..)
      assumption
    · refine Kept.ite (fun _ => ?_) (fun _ => ?_)
      · refine Kept.trans ?_ (recovered_kept ..)
        refine Kept.trans ?_ (incF_kept ..)
        assumption
      · refine Kept.trans ?_ (startRebuild_kept ..)
        refine Kept.trans ?_ (incF_kept ..)
        assumption

theorem loseCodeword_kept (die unit c) (s : State) : Kept s (loseCodeword die unit c s) := by
  unfold loseCodeword
  extract_lets v1 v2 v3 v4
  have h5 : Kept s v3 := Kept.upd rfl rfl rfl rfl rfl rfl
  clear_value v3
  refine Kept.ite (fun _ => ?_) (fun _ => ?_)
  · assumption
  · refine Kept.trans ?_ (deferredError_kept ..)
    assumption

theorem execStripeRebuildDone_kept (frac die unit) (s : State) : KeptO s (execStripeRebuildDone frac die unit s) := by
  unfold execStripeRebuildDone
  extract_lets v0
  have h0 : Kept s v0 := atFrac_kept ..
  clear_value v0
  refine KeptO.next ?_
  split
  · assumption
  · extract_lets v1
    have h3 : Kept s v1 := Kept.trans h0 (Kept.upd rfl rfl rfl rfl rfl rfl)
    clear_value v1
    refine Kept.trans ?_ (settleOps_kept ..)
    refine Kept.ite (fun _ => ?_) (fun _ => ?_)
    · refine Kept.trans ?_ (recovered_kept ..)
      refine Kept.trans ?_ (scheduleRefresh_kept ..)
      assumption
    · refine Kept.trans ?_ (recovered_kept ..)
      split
      · refine Kept.trans ?_ (loseCodeword_kept ..)
        assumption
      · assumption

theorem execNandProgramDone_kept (die pass) (s : State) : KeptO s (execNandProgramDone die pass s) := by
  unfold execNandProgramDone
  refine KeptO.next ?_
  split
  · split
    · refine Kept.ite (fun _ => ?_) (fun _ => ?_)
      · exact runOp_kept ..
      · refine Kept.trans ?_ (idleDie_kept ..)
        refine Kept.ite (fun _ => ?_) (fun _ => ?_)
        · exact slotPass_kept ..
        · exact slotFail_kept ..
    · exact Kept.refl _
  · exact Kept.refl _

theorem memberErased_kept (die member id) (s : State) : Kept s (memberErased die member id s) := by
  unfold memberErased
  extract_lets v1 v2 v3 v4 v5
  have h6 : Kept s v1 := updDie_kept ..
  clear_value v1
  have h7 : Kept s v3 := by
    unfold v3
    split
    · extract_lets v8
      refine Kept.trans ?_ (Kept.upd rfl rfl rfl rfl rfl rfl)
      assumption
    · assumption
  clear_value v3
  have h9 : Kept s v4 := by
    unfold v4
    refine Kept.trans ?_ (updBand_kept ..)
    assumption
  clear_value v4
  split
  · refine Kept.ite (fun _ => ?_) (fun _ => ?_)
    · refine Kept.trans ?_ (journalAdd_kept ..)
      refine Kept.trans ?_ (Kept.upd rfl rfl rfl rfl rfl rfl)
      assumption
    · assumption
  · assumption

theorem execNandEraseDone_kept (die pass) (s : State) : KeptO s (execNandEraseDone die pass s) := by
  unfold execNandEraseDone
  refine KeptO.next ?_
  split
  · split
    · refine Kept.ite (fun _ => ?_) (fun _ => ?_)
      · refine Kept.trans ?_ (idleDie_kept ..)
        exact memberErased_kept ..
      · extract_lets v1
        have h2 : Kept s v1 := updDie_kept ..
        clear_value v1
        refine Kept.trans ?_ (idleDie_kept ..)
        refine Kept.trans ?_ (blot_kept ..)
        refine Kept.trans ?_ (updBand_kept ..)
        assumption
    · exact Kept.refl _
  · exact Kept.refl _

theorem startDieRebuild_kept (die) (s : State) : Kept s (startDieRebuild die s) := by
  unfold startDieRebuild
  extract_lets v1
  refine Kept.foldl (fun a x => ?_) ?_
  · exact rebuildRead_kept ..
  · exact Kept.refl _

theorem isolateDie_kept (die st code) (s : State) : Kept s (isolateDie die st code s) := by
  unfold isolateDie
  extract_lets v1 v2 v3 v4
  have h5 : Kept s v2 := by
    unfold v2
    refine Kept.foldl (fun a x => ?_) ?_
    · exact refuseOp_kept ..
    · exact updDie_kept ..
  clear_value v2
  have h6 : Kept s v3 := by
    unfold v3
    refine Kept.trans ?_ (setF_kept ..)
    assumption
  clear_value v3
  refine Kept.trans ?_ (startDieRebuild_kept ..)
  refine Kept.trans ?_ (setF_kept ..)
  refine Kept.trans ?_ (Kept.upd rfl rfl rfl rfl rfl rfl)
  assumption

theorem fenceDie_kept (die code) (s : State) : Kept s (fenceDie die code s) := by
  unfold fenceDie
  refine Kept.trans ?_ (faultRec_kept ..)
  exact isolateDie_kept ..

theorem opTimedOut_kept (die q) (s : State) : Kept s (opTimedOut die q s) := by
  unfold opTimedOut
  split
  · exact slotFail_kept ..
  · refine Kept.trans ?_ (updBand_kept ..)
    exact updDie_kept ..
  · exact readLost_kept ..
  · refine Kept.ite (fun _ => ?_) (fun _ => ?_)
    · exact recovered_kept ..
    · exact startRebuild_kept ..

theorem execNandTimeout_kept (die) (s : State) : KeptO s (execNandTimeout die s) := by
  unfold execNandTimeout
  extract_lets v1 v2 v3
  have h4 : Kept s v3 := by
    unfold v3
    refine Kept.trans ?_ (emit_kept ..)
    exact updDie_kept ..
  clear_value v3
  refine KeptO.next ?_
  split
  · exact Kept.refl _
  · extract_lets v5 v6
    have h7 : Kept s v5 := by
      unfold v5
      refine Kept.foldl (fun a x => ?_) ?_
      · exact opTimedOut_kept ..
      · refine Kept.trans ?_ (blot_kept ..)
        refine Kept.trans ?_ (opTimedOut_kept ..)
        assumption
    clear_value v5
    refine Kept.trans ?_ (settleOps_kept ..)
    refine Kept.ite (fun _ => ?_) (fun _ => ?_)
    · refine Kept.trans ?_ (setF_kept ..)
      refine Kept.trans ?_ (setF_kept ..)
      refine Kept.foldl (fun a x => ?_) ?_
      · exact fenceDie_kept ..
      · assumption
    · refine Kept.ite (fun _ => ?_) (fun _ => ?_)
      · refine Kept.trans ?_ (fenceDie_kept ..)
        assumption
      · refine Kept.trans ?_ (startDie_kept ..)
        assumption

theorem execOperationSuspend_kept (at_) (s0 : State) : KeptO s0 (execOperationSuspend at_ s0) := by
  unfold execOperationSuspend
  extract_lets v0 v1 v2
  have h4 : Kept s0 v1 := atFrac_kept ..
  clear_value v1
  refine KeptO.next ?_
  split
  · assumption
  · extract_lets v5
    refine Kept.ite (fun _ => ?_) (fun _ => ?_)
    · refine Kept.trans ?_ (nextOp_kept ..)
      refine Kept.trans ?_ (incF_kept ..)
      refine Kept.trans ?_ (emit_kept ..)
      refine Kept.trans ?_ (updDie_kept ..)
      assumption
    · assumption

theorem execNandStatusPoll_kept (die) (s : State) : KeptO s (execNandStatusPoll die s) := by
  unfold execNandStatusPoll
  refine KeptO.next ?_
  refine Kept.ite (fun _ => ?_) (fun _ => ?_)
  · exact emit_kept ..
  · exact Kept.refl _

theorem execDqsRecenter_kept (channel ce) (s : State) : KeptO s (execDqsRecenter channel ce s) := by
  unfold execDqsRecenter
  extract_lets v1 v2 v3 v4 v5
  refine KeptO.next ?_
  refine Kept.ite (fun _ => ?_) (fun _ => ?_)
  · refine Kept.trans ?_ (emit_kept ..)
    exact Kept.upd rfl rfl rfl rfl rfl rfl
  · exact Kept.refl _

theorem execDieRebuildDone_kept (die) (s : State) : KeptO s (execDieRebuildDone die s) := by
  unfold execDieRebuildDone
  refine KeptO.next ?_
  refine Kept.ite (fun _ => ?_) (fun _ => ?_)
  · extract_lets v1 v2
    refine Kept.trans ?_ (faultRec_kept ..)
    refine Kept.trans ?_ (setF_kept ..)
    exact Kept.upd rfl rfl rfl rfl rfl rfl
  · exact Kept.refl _

theorem execDeallocatePass_kept (s : State) : KeptO s (execDeallocatePass s) := by
  unfold execDeallocatePass
  refine KeptO.next ?_
  split
  · exact Kept.refl _
  · extract_lets v1 v2
    have h3 : Kept s v2 := Kept.upd rfl rfl rfl rfl rfl rfl
    clear_value v2
    refine Kept.trans ?_ (updNs_kept ..)
    assumption

/-! ### Sys2Proof/Machine/Apply.lean -/

theorem notePeak_kept (s : State) : Kept s (notePeak s) := by
  unfold notePeak
  exact Kept.upd rfl rfl rfl rfl rfl rfl

theorem writeUnit_kept (nsid x lba data w) (s : State) (u) : Kept s (writeUnit nsid x lba data w s u) := by
  unfold writeUnit
  extract_lets v1 v2 v3 v4
  exact stageUnit_kept ..

theorem applyWrite_kept (nsid lba data w) (s : State) : Kept s (applyWrite nsid lba data w s) := by
  unfold applyWrite
  split
  · exact Kept.refl _
  · extract_lets v1 v2 v3 v4
    have h5 : Kept s v3 := by
      unfold v3
      refine Kept.foldl (fun a x => ?_) ?_
      · exact writeUnit_kept ..
      · exact bumpSeq_kept ..
    clear_value v3
    have h6 : Kept s v4 := by
      unfold v4
      refine Kept.trans ?_ (addUnits_kept ..)
      assumption
    clear_value v4
    refine Kept.trans ?_ (notePeak_kept ..)
    refine Kept.trans ?_ (place_kept ..)
    refine Kept.trans ?_ (updNs_kept ..)
    assumption

/-! ### Sys2Proof/Machine/Dram.lean -/

theorem requestPoint_kept (p) (s : State) : Kept s (requestPoint p s) := by
  unfold requestPoint
  extract_lets v1
  refine Kept.ite (fun _ => ?_) (fun _ => ?_)
  · refine Kept.trans ?_ (setF_kept ..)
    exact setF_kept ..
  · refine Kept.trans ?_ (setF_kept ..)
    exact setF_kept ..

theorem execDramFreqRequest_kept (point) (s : State) : KeptO s (execDramFreqRequest point s) := by
  unfold execDramFreqRequest
  refine KeptO.next ?_
  exact requestPoint_kept ..

theorem execDramRetrainGather_kept (frac reading) (s : State) : KeptO s (execDramRetrainGather frac reading s) := by
  unfold execDramRetrainGather
  extract_lets v1 v2 v3 v4 v5
  have h6 : Kept s v1 := atFrac_kept ..
  clear_value v1
  refine KeptO.next ?_
  refine Kept.ite (fun _ => ?_) (fun _ => ?_)
  · refine Kept.trans ?_ (setF_kept ..)
    refine Kept.trans ?_ (setF_kept ..)
    refine Kept.trans ?_ (Kept.upd rfl rfl rfl rfl rfl rfl)
    assumption
  · assumption

theorem execDramGatherEnd_kept (frac) (s : State) : KeptO s (execDramGatherEnd frac s) := by
  unfold execDramGatherEnd
  extract_lets v1 v2
  have h3 : Kept s v1 := atFrac_kept ..
  clear_value v1
  refine KeptO.next ?_
  refine Kept.ite (fun _ => ?_) (fun _ => ?_)
  · refine Kept.trans ?_ (setF_kept ..)
    refine Kept.trans ?_ (Kept.upd rfl rfl rfl rfl rfl rfl)
    assumption
  · assumption

theorem showRefresh_kept (s : State) : Kept s (showRefresh s) := by
  unfold showRefresh
  extract_lets v1
  exact setF_kept ..

theorem execDramRefreshPoll_kept (mult hot) (s : State) : KeptO s (execDramRefreshPoll mult hot s) := by
  unfold execDramRefreshPoll
  refine KeptO.next ?_
  refine Kept.foldl (fun a x => ?_) ?_
  · refine Kept.trans ?_ (blot_kept ..)
    exact setF_kept ..
  · refine Kept.trans ?_ (showRefresh_kept ..)
    exact Kept.upd rfl rfl rfl rfl rfl rfl

theorem dramBudgets_kept (s : State) : Kept s (dramBudgets s) := by
  unfold dramBudgets
  extract_lets v1 v2 v3 v4 v5 v6
  refine Kept.trans ?_ (setF_kept ..)
  exact Kept.upd rfl rfl rfl rfl rfl rfl

theorem dramBoundary_kept (s : State) : Kept s (dramBoundary s) := by
  unfold dramBoundary
  extract_lets v1 v2 v3
  have h4 : Kept s v2 := Kept.upd rfl rfl rfl rfl rfl rfl
  clear_value v2
  have h5 : Kept s v3 := by
    unfold v3
    refine Kept.ite (fun _ => ?_) (fun _ => ?_)
    · refine Kept.trans ?_ (setF_kept ..)
      refine Kept.trans ?_ (setF_kept ..)
      refine Kept.trans ?_ (setF_kept ..)
      assumption
    · assumption
  clear_value v3
  refine Kept.trans ?_ (dramBudgets_kept ..)
  assumption

theorem execDramRequestPromote_kept (cls waitedUs bytes) (s : State) :
    KeptO s (execDramRequestPromote cls waitedUs bytes s) := by
  unfold execDramRequestPromote
  extract_lets v1 v2 v3
  refine KeptO.next ?_
  refine Kept.ite (fun _ => ?_) (fun _ => ?_)
  · exact Kept.refl _
  · refine Kept.ite (fun _ => ?_) (fun _ => ?_)
    · exact Kept.upd rfl rfl rfl rfl rfl rfl
    · refine Kept.ite (fun _ => ?_) (fun _ => ?_)
      · exact Kept.upd rfl rfl rfl rfl rfl rfl
      · exact Kept.refl _

theorem setPanic_kept (src on) (s : State) : Kept s (setPanic src on s) := by
  unfold setPanic
  extract_lets v1 v2 v3
  refine Kept.trans ?_ (setF_kept ..)
  exact Kept.upd rfl rfl rfl rfl rfl rfl

theorem loseParts_kept (id parts) (s : State) : Kept s (loseParts id parts s) := by
  unfold loseParts
  split
  · exact Kept.refl _
  · extract_lets v1 v2
    refine Kept.foldl (fun a x => ?_) ?_
    · exact deferredError_kept ..
    · exact Kept.refl _

theorem execInkwellUe_kept (offset hit) (s : State) : KeptO s (execInkwellUe offset hit s) := by
  unfold execInkwellUe
  extract_lets v1
  have h2 : Kept s v1 := by
    unfold v1
    refine Kept.trans ?_ (incF_kept ..)
    exact blot_kept ..
  clear_value v1
  refine KeptO.next ?_
  split
  · exact incF_kept ..
  · refine Kept.trans ?_ (loseParts_kept ..)
    assumption
  · assumption
  · assumption
  · refine Kept.trans ?_ (laneFail_kept ..)
    assumption
  · refine Kept.trans ?_ (faultRec_kept ..)
    assumption
  · refine Kept.trans ?_ (loseParts_kept ..)
    assumption

end Sys2Proof.Machine
end

