-- ==== Sys2Proof/Laws/KeptIo.lean ====
section
/-!
SUPPORT. What every command but ALWAYS_ON_POWER_LOST keeps (`Kept`), operation by operation: the Ingest, the NVM commands, flows, the Nib cores, the engines and evidence.
-/

namespace Sys2Proof.Machine

/-! ### Sys2Proof/Machine/Ingest.lean -/

theorem showFlows_kept (s : State) : Kept s (showFlows s) := by
  unfold showFlows
  extract_lets v1
  have h2 : Kept s v1 := by
    unfold v1
    refine Kept.trans ?_ (setF_kept ..)
    exact setF_kept ..
  clear_value v1
  refine Kept.foldl (fun a x => ?_) ?_
  · exact setF_kept ..
  · assumption

theorem bindRec_kept (fid x action) (s : State) : Kept s (bindRec fid x action s) := by
  unfold bindRec
  exact addRec_kept ..

theorem setFlow_kept (fid x) (s : State) : Kept s (setFlow fid x s) := by
  unfold setFlow
  exact Kept.upd rfl rfl rfl rfl rfl rfl

theorem updFlow_kept (fid g) (s : State) : Kept s (updFlow fid g s) := by
  unfold updFlow
  exact Kept.upd rfl rfl rfl rfl rfl rfl

theorem writeFlowEntry_kept (fid x) (s : State) : Kept s (writeFlowEntry fid x s) := by
  unfold writeFlowEntry
  extract_lets v1
  exact sieveWrite_kept ..

theorem appendBlocks_kept (nsid data) (s : State) : Kept s (appendBlocks nsid data s) := by
  unfold appendBlocks
  split
  · exact Kept.refl _
  · refine Kept.ite (fun _ => ?_) (fun _ => ?_)
    · exact Kept.refl _
    · refine Kept.trans ?_ (applyWrite_kept ..)
      exact updNs_kept ..

theorem layNs_kept (nsid) (s : State) : Kept s (layNs nsid s) := by
  unfold layNs
  split
  · exact Kept.refl _
  · extract_lets v1 v2 v3
    have h4 : Kept s v2.2 := by
      unfold v2
      refine Kept.foldl_snd (fun a x => ?_) ?_
      · unfold layFlow
        split
        · exact Kept.refl _
        · dsimp only
          refine Kept.trans ?_ (updFlow_kept ..)
          exact Kept.upd rfl rfl rfl rfl rfl rfl
      · dsimp only
        exact Kept.refl _
    clear_value v2
    refine Kept.ite (fun _ => ?_) (fun _ => ?_)
    · exact Kept.refl _
    · refine Kept.trans ?_ (notePeak_kept ..)
      refine Kept.trans ?_ (appendBlocks_kept ..)
      refine Kept.trans ?_ (updNs_kept ..)
      assumption

theorem layAll_kept (s : State) : Kept s (layAll s) := by
  unfold layAll
  refine Kept.ite (fun _ => ?_) (fun _ => ?_)
  · refine Kept.foldl (fun a x => ?_) ?_
    · exact layNs_kept ..
    · exact Kept.refl _
  · exact Kept.refl _

theorem flushTail_kept (nsid) (s : State) : Kept s (flushTail nsid s) := by
  unfold flushTail
  split
  · exact Kept.refl _
  · refine Kept.ite (fun _ => ?_) (fun _ => ?_)
    · exact Kept.refl _
    · refine Kept.trans ?_ (appendBlocks_kept ..)
      exact updNs_kept ..

theorem flushTails_kept (s : State) : Kept s (flushTails s) := by
  unfold flushTails
  refine Kept.foldl (fun a x => ?_) ?_
  · exact flushTail_kept ..
  · exact Kept.refl _

theorem updPort_kept (p g) (s : State) : Kept s (updPort p g s) := by
  unfold updPort
  exact Kept.upd rfl rfl rfl rfl rfl rfl

theorem refusePkt_kept (fid kind bytes q) (s : State) : Kept s (refusePkt fid kind bytes q s) := by
  unfold refusePkt
  exact updFlow_kept ..

theorem storeUnit_kept (fid r flags0 x) (s : State) : Kept s (storeUnit fid r flags0 x s) := by
  unfold storeUnit
  extract_lets v1 v2 v3 v4 v5 v6 v7 v8 v9 v10 v11 v12 v13 v14 v15 v16
  have h17 : Kept s v15 := setFlow_kept ..
  clear_value v15
  refine Kept.ite (fun _ => ?_) (fun _ => ?_)
  · refine Kept.trans ?_ (Kept.upd rfl rfl rfl rfl rfl rfl)
    assumption
  · assumption

theorem takePkt_kept (fid x p noRoom) (s : State) : Kept s (takePkt fid x p noRoom s) := by
  unfold takePkt
  extract_lets v1 v2
  refine Kept.ite (fun _ => ?_) (fun _ => ?_)
  · exact refusePkt_kept ..
  · refine Kept.ite (fun _ => ?_) (fun _ => ?_)
    · exact refusePkt_kept ..
    · split
      · exact refusePkt_kept ..
      · refine Kept.ite (fun _ => ?_) (fun _ => ?_)
        · exact refusePkt_kept ..
        · refine Kept.ite (fun _ => ?_) (fun _ => ?_)
          · exact refusePkt_kept ..
          · extract_lets v3
            split
            · exact setFlow_kept ..
            · exact storeUnit_kept ..

theorem receiveFrame_kept (port frame fcsBad noRoom) (s : State) : Kept s (receiveFrame port frame fcsBad noRoom s) := by
  unfold receiveFrame
  extract_lets v1 v2 v3
  have h4 : Kept s v2 := updPort_kept ..
  clear_value v2
  refine Kept.ite (fun _ => ?_) (fun _ => ?_)
  · assumption
  · unfold v3
    split
    · refine Kept.trans ?_ (updPort_kept ..)
      assumption
    · unfold v1
      refine Kept.trans ?_ (updPort_kept ..)
      assumption
    · extract_lets v5 v6
      have h7 : Kept s v6 := by
        unfold v6
        refine Kept.ite (fun _ => ?_) (fun _ => ?_)
        · refine Kept.trans ?_ (incF_kept ..)
          assumption
        · refine Kept.trans ?_ (countLookup_kept ..)
          assumption
      clear_value v6
      split
      · unfold v1
        refine Kept.trans ?_ (updPort_kept ..)
        assumption
      · refine Kept.ite (fun _ => ?_) (fun _ => ?_)
        · unfold v1
          refine Kept.trans ?_ (updPort_kept ..)
          assumption
        · extract_lets v8
          refine Kept.trans ?_ (takePkt_kept ..)
          refine Kept.trans ?_ (setFlow_kept ..)
          assumption

theorem execFrameReceived_kept (frac port frame fcsBad noRoom levelKib) (s : State) :
    KeptO s (execFrameReceived frac port frame fcsBad noRoom levelKib s) := by
  unfold execFrameReceived
  extract_lets v1 v2 v3
  have h4 : Kept s v1 := atFrac_kept ..
  clear_value v1
  have h5 : Kept s v3 := by
    unfold v3
    refine Kept.trans ?_ (setF_kept ..)
    assumption
  clear_value v3
  refine KeptO.next ?_
  refine Kept.ite (fun _ => ?_) (fun _ => ?_)
  · assumption
  · refine Kept.trans ?_ (receiveFrame_kept ..)
    refine Kept.trans ?_ (setPanic_kept ..)
    assumption

theorem execSilentTimeout_kept (frac flow) (s : State) : KeptO s (execSilentTimeout frac flow s) := by
  unfold execSilentTimeout
  extract_lets v1 v2
  have h3 : Kept s v1 := atFrac_kept ..
  clear_value v1
  refine KeptO.next ?_
  split
  · assumption
  · refine Kept.ite (fun _ => ?_) (fun _ => ?_)
    · assumption
    · refine Kept.trans ?_ (setFlow_kept ..)
      assumption

theorem latchSsrc_kept (fid x) (s : State) : Kept s (latchSsrc fid x s) := by
  unfold latchSsrc
  split
  · exact Kept.refl _
  · extract_lets v1
    refine Kept.trans ?_ (writeFlowEntry_kept ..)
    exact setFlow_kept ..

theorem ingestBoundary_kept (ended wr) (s : State) : Kept s (ingestBoundary ended wr s) := by
  unfold ingestBoundary
  extract_lets v1 v2 v3 v4 v5 v6 v7 v8
  have h9 : Kept s v2 := Kept.upd rfl rfl rfl rfl rfl rfl
  clear_value v2
  have h10 : Kept s v4 := by
    unfold v4
    refine Kept.foldl (fun a x => ?_) ?_
    · exact addRecAt_kept ..
    · assumption
  clear_value v4
  have h11 : Kept s v6 := by
    unfold v6
    refine Kept.foldl (fun a x => ?_) ?_
    · exact latchSsrc_kept ..
    · assumption
  clear_value v6
  refine Kept.trans ?_ (Kept.upd rfl rfl rfl rfl rfl rfl)
  assumption

theorem noteSummary_kept (f v) (s : State) : Kept s (noteSummary f v s) := by
  unfold noteSummary
  extract_lets v1
  refine Kept.ite (fun _ => ?_) (fun _ => ?_)
  · exact noteCompletion_kept ..
  · refine Kept.ite (fun _ => ?_) (fun _ => ?_)
    · exact updVec_kept ..
    · refine Kept.trans ?_ (signal_kept ..)
      exact updVec_kept ..

theorem writeSlots_kept (f : Nat) (cs : List Bytes) (s : State) : Kept s (writeSlots f cs s) := by
  induction cs generalizing s with
  | nil => exact Kept.refl s
  | cons k t ih =>
    unfold writeSlots
    split
    · exact Kept.refl _
    · extract_lets v1 v2
      have h3 : Kept s v1 := emit_kept ..
      clear_value v1
      refine Kept.trans ?_ (ih _)
      refine Kept.trans ?_ (updFn_kept ..)
      assumption

theorem postSummary_kept (cons p) (s : State) : Kept s (postSummary cons p s) := by
  unfold postSummary
  split
  · exact Kept.refl _
  · extract_lets v1 v2 v3 v4 v5
    refine Kept.ite (fun _ => ?_) (fun _ => ?_)
    · unfold v1
      exact updFn_kept ..
    · refine Kept.ite (fun _ => ?_) (fun _ => ?_)
      · unfold v1
        exact updFn_kept ..
      · refine Kept.trans ?_ (noteSummary_kept ..)
        refine Kept.trans ?_ (writeSlots_kept ..)
        exact updFn_kept ..

theorem execSummaryPost_kept (cons) (s : State) : KeptO s (execSummaryPost cons s) := by
  unfold execSummaryPost
  refine KeptO.next ?_
  refine Kept.foldl (fun a x => ?_) ?_
  · exact postSummary_kept ..
  · exact Kept.upd rfl rfl rfl rfl rfl rfl

theorem execVectorSignal_kept (fn vec) (s : State) : KeptO s (execVectorSignal fn vec s) := by
  unfold execVectorSignal
  extract_lets v1 v2
  refine KeptO.next ?_
  refine Kept.ite (fun _ => ?_) (fun _ => ?_)
  · exact Kept.refl _
  · refine Kept.ite (fun _ => ?_) (fun _ => ?_)
    · refine Kept.ite (fun _ => ?_) (fun _ => ?_)
      · exact Kept.refl _
      · refine Kept.trans ?_ (signal_kept ..)
        exact updVec_kept ..
    · refine Kept.trans ?_ (signal_kept ..)
      exact updVec_kept ..

/-! ### Sys2Proof/Machine/Nvm.lean -/

theorem done_kept (q st dw0 dw1) (s : State) : Kept s (done q st dw0 dw1 s) := by
  unfold done
  exact complete_kept ..

theorem takeDeferred_kept (q) (s : State) : Kept s (takeDeferred q s) := by
  unfold takeDeferred
  exact updFn_kept ..

theorem showHazards_kept (s : State) : Kept s (showHazards s) := by
  unfold showHazards
  exact setF_kept ..

theorem markWrite_kept (nsid) (s : State) : Kept s (markWrite nsid s) := by
  unfold markWrite
  exact Kept.upd rfl rfl rfl rfl rfl rfl

theorem zeroUnit_kept (nsid x lba n w) (s : State) (u) : Kept s (zeroUnit nsid x lba n w s u) := by
  unfold zeroUnit
  extract_lets v1 v2
  refine Kept.ite (fun _ => ?_) (fun _ => ?_)
  · exact updNs_kept ..
  · exact writeUnit_kept ..

theorem applyZeroes_kept (nsid lba n w) (s : State) : Kept s (applyZeroes nsid lba n w s) := by
  unfold applyZeroes
  split
  · exact Kept.refl _
  · extract_lets v1 v2
    have h3 : Kept s v2 := by
      unfold v2
      refine Kept.foldl (fun a x => ?_) ?_
      · exact zeroUnit_kept ..
      · exact bumpSeq_kept ..
    clear_value v2
    refine Kept.trans ?_ (notePeak_kept ..)
    refine Kept.trans ?_ (place_kept ..)
    refine Kept.trans ?_ (journalAdd_kept ..)
    refine Kept.trans ?_ (updNs_kept ..)
    assumption

theorem applyDealloc_kept (nsid ranges) (s : State) : Kept s (applyDealloc nsid ranges s) := by
  unfold applyDealloc
  split
  · exact Kept.refl _
  · extract_lets v1 v2 v3 v4
    have h5 : Kept s v1 := bumpSeq_kept ..
    clear_value v1
    refine Kept.trans ?_ (Kept.upd rfl rfl rfl rfl rfl rfl)
    assumption

theorem applyAppend_kept (c nblk lastBytes data) (s : State) : Kept s (applyAppend c nblk lastBytes data s) := by
  unfold applyAppend
  split
  · exact Kept.refl _
  · extract_lets v1 v2 v3 v4 v5
    have h6 : Kept s v4 := absorb_kept ..
    clear_value v4
    have h7 : Kept s v5 := by
      unfold v5
      refine Kept.trans ?_ (applyWrite_kept ..)
      refine Kept.trans ?_ (updNs_kept ..)
      assumption
    clear_value v5
    refine Kept.trans ?_ (markWrite_kept ..)
    assumption

theorem startReads_kept (c x wants kind) (s : State) : Kept s (startReads c x wants kind s) := by
  unfold startReads
  extract_lets v1 v2 v3 v4
  have h5 : Kept s v2 := updCmd_kept ..
  clear_value v2
  have h6 : Kept s v4 := by
    unfold v4
    refine Kept.foldl (fun a x => ?_) ?_
    · exact queueOp_kept ..
    · assumption
  clear_value v4
  refine Kept.ite (fun _ => ?_) (fun _ => ?_)
  · refine Kept.trans ?_ (finishCmd_kept ..)
    assumption
  · refine Kept.trans ?_ (settleOps_kept ..)
    assumption

theorem schedule_kept (c x wants kind) (s : State) : Kept s (schedule c x wants kind s) := by
  unfold schedule
  extract_lets v1 v2
  refine Kept.ite (fun _ => ?_) (fun _ => ?_)
  · exact updCmd_kept ..
  · refine Kept.trans ?_ (startReads_kept ..)
    exact charge_kept ..

theorem resolveVerify_kept (c lba n chain) (s : State) : Kept s (resolveVerify c lba n chain s) := by
  unfold resolveVerify
  split
  · refine Kept.trans ?_ (complete_kept ..)
    exact dropCmd_kept ..
  · exact schedule_kept ..

theorem resolveRead_kept (c lba n kind) (s : State) : Kept s (resolveRead c lba n kind s) := by
  unfold resolveRead
  split
  · refine Kept.trans ?_ (complete_kept ..)
    exact dropCmd_kept ..
  · refine Kept.ite (fun _ => ?_) (fun _ => ?_)
    · refine Kept.trans ?_ (complete_kept ..)
      exact dropCmd_kept ..
    · refine Kept.ite (fun _ => ?_) (fun _ => ?_)
      · refine Kept.trans ?_ (complete_kept ..)
        exact dropCmd_kept ..
      · exact schedule_kept ..

theorem holdCmd_kept (c) (s : State) : Kept s (holdCmd c s) := by
  unfold holdCmd
  exact updCmd_kept ..

theorem startTransfer_kept (c bytes) (s : State) : Kept s (startTransfer c bytes s) := by
  unfold startTransfer
  refine Kept.ite (fun _ => ?_) (fun _ => ?_)
  · exact holdCmd_kept ..
  · refine Kept.trans ?_ (updCmd_kept ..)
    exact charge_kept ..

theorem startAppend_kept (c nblk lastBytes expected) (s : State) : Kept s (startAppend c nblk lastBytes expected s) := by
  unfold startAppend
  split
  · exact Kept.refl _
  · extract_lets v1
    refine Kept.ite (fun _ => ?_) (fun _ => ?_)
    · exact holdCmd_kept ..
    · refine Kept.ite (fun _ => ?_) (fun _ => ?_)
      · unfold v1
        refine Kept.trans ?_ (complete_kept ..)
        exact dropCmd_kept ..
      · refine Kept.ite (fun _ => ?_) (fun _ => ?_)
        · unfold v1
          refine Kept.trans ?_ (complete_kept ..)
          exact dropCmd_kept ..
        · refine Kept.ite (fun _ => ?_) (fun _ => ?_)
          · unfold v1
            refine Kept.trans ?_ (complete_kept ..)
            exact dropCmd_kept ..
          · refine Kept.trans ?_ (updCmd_kept ..)
            exact charge_kept ..

theorem advanceCmd_kept (c) (s : State) : Kept s (advanceCmd c s) := by
  unfold advanceCmd
  extract_lets v1
  split
  · refine Kept.ite (fun _ => ?_) (fun _ => ?_)
    · exact Kept.refl _
    · unfold v1
      refine Kept.trans ?_ (complete_kept ..)
      refine Kept.trans ?_ (dropCmd_kept ..)
      refine Kept.trans ?_ (markWrite_kept ..)
      exact applyWrite_kept ..
  · refine Kept.ite (fun _ => ?_) (fun _ => ?_)
    · exact Kept.refl _
    · exact startTransfer_kept ..
  · refine Kept.ite (fun _ => ?_) (fun _ => ?_)
    · exact Kept.refl _
    · refine Kept.ite (fun _ => ?_) (fun _ => ?_)
      · exact startAppend_kept ..
      · refine Kept.ite (fun _ => ?_) (fun _ => ?_)
        · exact holdCmd_kept ..
        · exact Kept.refl _
  · refine Kept.ite (fun _ => ?_) (fun _ => ?_)
    · exact Kept.refl _
    · unfold v1
      refine Kept.trans ?_ (complete_kept ..)
      refine Kept.trans ?_ (dropCmd_kept ..)
      refine Kept.trans ?_ (markWrite_kept ..)
      exact applyZeroes_kept ..
  · refine Kept.ite (fun _ => ?_) (fun _ => ?_)
    · exact Kept.refl _
    · unfold v1
      refine Kept.trans ?_ (complete_kept ..)
      refine Kept.trans ?_ (dropCmd_kept ..)
      refine Kept.trans ?_ (markWrite_kept ..)
      exact applyDealloc_kept ..
  · refine Kept.ite (fun _ => ?_) (fun _ => ?_)
    · exact Kept.refl _
    · exact resolveRead_kept ..
  · refine Kept.ite (fun _ => ?_) (fun _ => ?_)
    · exact Kept.refl _
    · exact resolveRead_kept ..
  · refine Kept.ite (fun _ => ?_) (fun _ => ?_)
    · exact Kept.refl _
    · exact resolveRead_kept ..
  · refine Kept.ite (fun _ => ?_) (fun _ => ?_)
    · exact Kept.refl _
    · exact resolveVerify_kept ..
  · refine Kept.ite (fun _ => ?_) (fun _ => ?_)
    · exact Kept.refl _
    · unfold v1
      refine Kept.trans ?_ (complete_kept ..)
      exact dropCmd_kept ..
  · exact Kept.refl _

theorem advanceAll_kept (s : State) : Kept s (advanceAll s) := by
  unfold advanceAll
  refine Kept.trans ?_ (showHazards_kept ..)
  refine Kept.foldl (fun a x => ?_) ?_
  · split
    · exact advanceCmd_kept ..
    · exact Kept.refl _
  · exact Kept.refl _

theorem resumeHeld_kept (s : State) : Kept s (resumeHeld s) := by
  unfold resumeHeld
  refine Kept.trans ?_ (advanceAll_kept ..)
  exact resumeReads_kept ..

theorem enlist_kept (q kind blocked) (s : State) : Kept s (enlist q kind blocked s) := by
  unfold enlist
  refine Kept.trans ?_ (advanceAll_kept ..)
  exact addCmd_kept ..

theorem execReadCmd_kept (q slba nlb) (s : State) : KeptO s (execReadCmd q slba nlb s) := by
  unfold execReadCmd
  unfold ioFetch
  refine KeptO.next ?_
  refine Kept.ite (fun _ => ?_) (fun _ => ?_)
  · split
    · refine Kept.trans ?_ (toFollower_kept ..)
      exact takeEntry_kept ..
    · extract_lets v1
      have h2 : Kept s v1 := by
        unfold v1
        refine Kept.trans ?_ (charge_kept ..)
        exact takeEntry_kept ..
      clear_value v1
      refine Kept.ite (fun _ => ?_) (fun _ => ?_)
      · refine Kept.trans ?_ (done_kept ..)
        assumption
      · unfold onNs
        refine Kept.ite (fun _ => ?_) (fun _ => ?_)
        · refine Kept.trans ?_ (done_kept ..)
          assumption
        · refine Kept.ite (fun _ => ?_) (fun _ => ?_)
          · refine Kept.trans ?_ (done_kept ..)
            assumption
          · split
            · refine Kept.trans ?_ (done_kept ..)
              assumption
            · refine Kept.ite (fun _ => ?_) (fun _ => ?_)
              · refine Kept.trans ?_ (done_kept ..)
                assumption
              · refine Kept.ite (fun _ => ?_) (fun _ => ?_)
                · refine Kept.trans ?_ (done_kept ..)
                  refine Kept.trans ?_ (takeDeferred_kept ..)
                  assumption
                · refine Kept.ite (fun _ => ?_) (fun _ => ?_)
                  · refine Kept.trans ?_ (done_kept ..)
                    assumption
                  · split
                    · refine Kept.trans ?_ (done_kept ..)
                      assumption
                    · beta_reduce
                      unfold orElse
                      split
                      · refine Kept.trans ?_ (done_kept ..)
                        assumption
                      · refine Kept.trans ?_ (enlist_kept ..)
                        assumption
  · exact Kept.refl _

theorem execCompareCmd_kept (q slba nlb host) (s : State) : KeptO s (execCompareCmd q slba nlb host s) := by
  unfold execCompareCmd
  unfold ioFetch
  refine KeptO.next ?_
  refine Kept.ite (fun _ => ?_) (fun _ => ?_)
  · split
    · refine Kept.trans ?_ (toFollower_kept ..)
      exact takeEntry_kept ..
    · extract_lets v1
      have h2 : Kept s v1 := by
        unfold v1
        refine Kept.trans ?_ (charge_kept ..)
        exact takeEntry_kept ..
      clear_value v1
      refine Kept.ite (fun _ => ?_) (fun _ => ?_)
      · refine Kept.trans ?_ (done_kept ..)
        assumption
      · unfold onNs
        refine Kept.ite (fun _ => ?_) (fun _ => ?_)
        · refine Kept.trans ?_ (done_kept ..)
          assumption
        · refine Kept.ite (fun _ => ?_) (fun _ => ?_)
          · refine Kept.trans ?_ (done_kept ..)
            assumption
          · split
            · refine Kept.trans ?_ (done_kept ..)
              assumption
            · refine Kept.ite (fun _ => ?_) (fun _ => ?_)
              · refine Kept.trans ?_ (done_kept ..)
                assumption
              · refine Kept.ite (fun _ => ?_) (fun _ => ?_)
                · refine Kept.trans ?_ (done_kept ..)
                  refine Kept.trans ?_ (takeDeferred_kept ..)
                  assumption
                · refine Kept.ite (fun _ => ?_) (fun _ => ?_)
                  · refine Kept.trans ?_ (done_kept ..)
                    assumption
                  · split
                    · refine Kept.trans ?_ (done_kept ..)
                      assumption
                    · beta_reduce
                      unfold orElse
                      split
                      · refine Kept.trans ?_ (done_kept ..)
                        assumption
                      · refine Kept.trans ?_ (enlist_kept ..)
                        assumption
  · exact Kept.refl _

theorem execVerifyCmd_kept (q slba nlb) (s : State) : KeptO s (execVerifyCmd q slba nlb s) := by
  unfold execVerifyCmd
  unfold ioFetch
  refine KeptO.next ?_
  refine Kept.ite (fun _ => ?_) (fun _ => ?_)
  · split
    · refine Kept.trans ?_ (toFollower_kept ..)
      exact takeEntry_kept ..
    · extract_lets v1
      have h2 : Kept s v1 := by
        unfold v1
        refine Kept.trans ?_ (charge_kept ..)
        exact takeEntry_kept ..
      clear_value v1
      refine Kept.ite (fun _ => ?_) (fun _ => ?_)
      · refine Kept.trans ?_ (done_kept ..)
        assumption
      · unfold onNs
        refine Kept.ite (fun _ => ?_) (fun _ => ?_)
        · refine Kept.trans ?_ (done_kept ..)
          assumption
        · refine Kept.ite (fun _ => ?_) (fun _ => ?_)
          · refine Kept.trans ?_ (done_kept ..)
            assumption
          · split
            · refine Kept.trans ?_ (done_kept ..)
              assumption
            · refine Kept.ite (fun _ => ?_) (fun _ => ?_)
              · refine Kept.trans ?_ (done_kept ..)
                assumption
              · refine Kept.ite (fun _ => ?_) (fun _ => ?_)
                · refine Kept.trans ?_ (done_kept ..)
                  refine Kept.trans ?_ (takeDeferred_kept ..)
                  assumption
                · refine Kept.ite (fun _ => ?_) (fun _ => ?_)
                  · refine Kept.trans ?_ (done_kept ..)
                    assumption
                  · split
                    · refine Kept.trans ?_ (done_kept ..)
                      assumption
                    · beta_reduce
                      unfold orElse
                      split
                      · refine Kept.trans ?_ (done_kept ..)
                        assumption
                      · refine Kept.trans ?_ (enlist_kept ..)
                        assumption
  · exact Kept.refl _

theorem execWriteCmd_kept (q slba nlb dtype dspec) (s : State) : KeptO s (execWriteCmd q slba nlb dtype dspec s) := by
  unfold execWriteCmd
  refine KeptO.ite (fun _ => ?_) (fun _ => ?_)
  · unfold ioFetch
    refine KeptO.next ?_
    refine Kept.ite (fun _ => ?_) (fun _ => ?_)
    · split
      · refine Kept.trans ?_ (toFollower_kept ..)
        exact takeEntry_kept ..
      · extract_lets v1
        have h2 : Kept s v1 := by
          unfold v1
          refine Kept.trans ?_ (charge_kept ..)
          exact takeEntry_kept ..
        clear_value v1
        refine Kept.ite (fun _ => ?_) (fun _ => ?_)
        · refine Kept.trans ?_ (done_kept ..)
          assumption
        · unfold onNs
          refine Kept.ite (fun _ => ?_) (fun _ => ?_)
          · refine Kept.trans ?_ (done_kept ..)
            assumption
          · refine Kept.ite (fun _ => ?_) (fun _ => ?_)
            · refine Kept.trans ?_ (done_kept ..)
              assumption
            · split
              · refine Kept.trans ?_ (done_kept ..)
                assumption
              · refine Kept.ite (fun _ => ?_) (fun _ => ?_)
                · refine Kept.trans ?_ (done_kept ..)
                  assumption
                · refine Kept.ite (fun _ => ?_) (fun _ => ?_)
                  · refine Kept.trans ?_ (done_kept ..)
                    refine Kept.trans ?_ (takeDeferred_kept ..)
                    assumption
                  · refine Kept.ite (fun _ => ?_) (fun _ => ?_)
                    · refine Kept.trans ?_ (done_kept ..)
                      assumption
                    · split
                      · refine Kept.trans ?_ (done_kept ..)
                        assumption
                      · beta_reduce
                        unfold orElse
                        split
                        · refine Kept.trans ?_ (done_kept ..)
                          assumption
                        · split
                          · refine Kept.trans ?_ (done_kept ..)
                            assumption
                          · refine Kept.trans ?_ (enlist_kept ..)
                            assumption
    · exact Kept.refl _
  · refine KeptO.next ?_
    exact Kept.refl _

theorem execWriteZeroes_kept (q slba nlb _deac) (s : State) : KeptO s (execWriteZeroes q slba nlb _deac s) := by
  unfold execWriteZeroes
  refine KeptO.ite (fun _ => ?_) (fun _ => ?_)
  · unfold ioFetch
    refine KeptO.next ?_
    refine Kept.ite (fun _ => ?_) (fun _ => ?_)
    · split
      · refine Kept.trans ?_ (toFollower_kept ..)
        exact takeEntry_kept ..
      · extract_lets v1
        have h2 : Kept s v1 := by
          unfold v1
          refine Kept.trans ?_ (charge_kept ..)
          exact takeEntry_kept ..
        clear_value v1
        refine Kept.ite (fun _ => ?_) (fun _ => ?_)
        · refine Kept.trans ?_ (done_kept ..)
          assumption
        · unfold onNs
          refine Kept.ite (fun _ => ?_) (fun _ => ?_)
          · refine Kept.trans ?_ (done_kept ..)
            assumption
          · refine Kept.ite (fun _ => ?_) (fun _ => ?_)
            · refine Kept.trans ?_ (done_kept ..)
              assumption
            · split
              · refine Kept.trans ?_ (done_kept ..)
                assumption
              · refine Kept.ite (fun _ => ?_) (fun _ => ?_)
                · refine Kept.trans ?_ (done_kept ..)
                  assumption
                · refine Kept.ite (fun _ => ?_) (fun _ => ?_)
                  · refine Kept.trans ?_ (done_kept ..)
                    refine Kept.trans ?_ (takeDeferred_kept ..)
                    assumption
                  · refine Kept.ite (fun _ => ?_) (fun _ => ?_)
                    · refine Kept.trans ?_ (done_kept ..)
                      assumption
                    · split
                      · refine Kept.trans ?_ (done_kept ..)
                        assumption
                      · beta_reduce
                        unfold orElse
                        split
                        · refine Kept.trans ?_ (done_kept ..)
                          assumption
                        · split
                          · refine Kept.trans ?_ (done_kept ..)
                            assumption
                          · refine Kept.trans ?_ (enlist_kept ..)
                            assumption
    · exact Kept.refl _
  · refine KeptO.next ?_
    exact Kept.refl _

theorem execDatasetManagement_kept (q ad ranges) (s : State) : KeptO s (execDatasetManagement q ad ranges s) := by
  unfold execDatasetManagement
  extract_lets v1
  refine KeptO.ite (fun _ => ?_) (fun _ => ?_)
  · unfold ioFetch
    refine KeptO.next ?_
    refine Kept.ite (fun _ => ?_) (fun _ => ?_)
    · split
      · refine Kept.trans ?_ (toFollower_kept ..)
        exact takeEntry_kept ..
      · extract_lets v2
        have h3 : Kept s v2 := by
          unfold v2
          refine Kept.trans ?_ (charge_kept ..)
          exact takeEntry_kept ..
        clear_value v2
        refine Kept.ite (fun _ => ?_) (fun _ => ?_)
        · refine Kept.trans ?_ (done_kept ..)
          assumption
        · unfold onNs
          refine Kept.ite (fun _ => ?_) (fun _ => ?_)
          · refine Kept.trans ?_ (done_kept ..)
            assumption
          · refine Kept.ite (fun _ => ?_) (fun _ => ?_)
            · refine Kept.trans ?_ (done_kept ..)
              assumption
            · split
              · refine Kept.trans ?_ (done_kept ..)
                assumption
              · refine Kept.ite (fun _ => ?_) (fun _ => ?_)
                · refine Kept.trans ?_ (done_kept ..)
                  assumption
                · refine Kept.ite (fun _ => ?_) (fun _ => ?_)
                  · refine Kept.trans ?_ (done_kept ..)
                    refine Kept.trans ?_ (takeDeferred_kept ..)
                    assumption
                  · refine Kept.ite (fun _ => ?_) (fun _ => ?_)
                    · refine Kept.trans ?_ (done_kept ..)
                      assumption
                    · split
                      · refine Kept.trans ?_ (done_kept ..)
                        assumption
                      · beta_reduce
                        unfold orElse
                        split
                        · refine Kept.trans ?_ (done_kept ..)
                          assumption
                        · split
                          · refine Kept.trans ?_ (done_kept ..)
                            assumption
                          · split
                            · refine Kept.trans ?_ (done_kept ..)
                              assumption
                            · beta_reduce
                              refine Kept.ite (fun _ => ?_) (fun _ => ?_)
                              · refine Kept.trans ?_ (enlist_kept ..)
                                assumption
                              · refine Kept.trans ?_ (done_kept ..)
                                assumption
    · exact Kept.refl _
  · refine KeptO.next ?_
    exact Kept.refl _

theorem execFlushCmd_kept (q) (s : State) : KeptO s (execFlushCmd q s) := by
  unfold execFlushCmd
  unfold ioFetch
  refine KeptO.next ?_
  refine Kept.ite (fun _ => ?_) (fun _ => ?_)
  · split
    · refine Kept.trans ?_ (toFollower_kept ..)
      exact takeEntry_kept ..
    · extract_lets v1
      have h2 : Kept s v1 := by
        unfold v1
        refine Kept.trans ?_ (charge_kept ..)
        exact takeEntry_kept ..
      clear_value v1
      refine Kept.ite (fun _ => ?_) (fun _ => ?_)
      · refine Kept.trans ?_ (done_kept ..)
        assumption
      · beta_reduce
        refine Kept.ite (fun _ => ?_) (fun _ => ?_)
        · refine Kept.ite (fun _ => ?_) (fun _ => ?_)
          · refine Kept.trans ?_ (done_kept ..)
            assumption
          · refine Kept.ite (fun _ => ?_) (fun _ => ?_)
            · refine Kept.trans ?_ (done_kept ..)
              refine Kept.trans ?_ (takeDeferred_kept ..)
              assumption
            · refine Kept.ite (fun _ => ?_) (fun _ => ?_)
              · refine Kept.trans ?_ (done_kept ..)
                assumption
              · refine Kept.trans ?_ (enlist_kept ..)
                assumption
        · unfold onNs
          refine Kept.ite (fun _ => ?_) (fun _ => ?_)
          · refine Kept.trans ?_ (done_kept ..)
            assumption
          · refine Kept.ite (fun _ => ?_) (fun _ => ?_)
            · refine Kept.trans ?_ (done_kept ..)
              assumption
            · split
              · refine Kept.trans ?_ (done_kept ..)
                assumption
              · refine Kept.ite (fun _ => ?_) (fun _ => ?_)
                · refine Kept.trans ?_ (done_kept ..)
                  assumption
                · refine Kept.ite (fun _ => ?_) (fun _ => ?_)
                  · refine Kept.trans ?_ (done_kept ..)
                    refine Kept.trans ?_ (takeDeferred_kept ..)
                    assumption
                  · refine Kept.ite (fun _ => ?_) (fun _ => ?_)
                    · refine Kept.trans ?_ (done_kept ..)
                      assumption
                    · split
                      · refine Kept.trans ?_ (done_kept ..)
                        assumption
                      · beta_reduce
                        refine Kept.trans ?_ (enlist_kept ..)
                        assumption
  · exact Kept.refl _

theorem execSealedAppend_kept (q nlb lastBytes expected) (s : State) :
    KeptO s (execSealedAppend q nlb lastBytes expected s) := by
  unfold execSealedAppend
  extract_lets v1
  refine KeptO.ite (fun _ => ?_) (fun _ => ?_)
  · unfold ioFetch
    refine KeptO.next ?_
    refine Kept.ite (fun _ => ?_) (fun _ => ?_)
    · split
      · refine Kept.trans ?_ (toFollower_kept ..)
        exact takeEntry_kept ..
      · extract_lets v2
        have h3 : Kept s v2 := by
          unfold v2
          refine Kept.trans ?_ (charge_kept ..)
          exact takeEntry_kept ..
        clear_value v2
        refine Kept.ite (fun _ => ?_) (fun _ => ?_)
        · refine Kept.trans ?_ (done_kept ..)
          assumption
        · unfold onNs
          refine Kept.ite (fun _ => ?_) (fun _ => ?_)
          · refine Kept.trans ?_ (done_kept ..)
            assumption
          · refine Kept.ite (fun _ => ?_) (fun _ => ?_)
            · refine Kept.trans ?_ (done_kept ..)
              assumption
            · split
              · refine Kept.trans ?_ (done_kept ..)
                assumption
              · refine Kept.ite (fun _ => ?_) (fun _ => ?_)
                · refine Kept.trans ?_ (done_kept ..)
                  assumption
                · refine Kept.ite (fun _ => ?_) (fun _ => ?_)
                  · refine Kept.trans ?_ (done_kept ..)
                    refine Kept.trans ?_ (takeDeferred_kept ..)
                    assumption
                  · refine Kept.ite (fun _ => ?_) (fun _ => ?_)
                    · refine Kept.trans ?_ (done_kept ..)
                      assumption
                    · split
                      · refine Kept.trans ?_ (done_kept ..)
                        assumption
                      · beta_reduce
                        unfold orElse
                        split
                        · refine Kept.trans ?_ (done_kept ..)
                          assumption
                        · refine Kept.trans ?_ (enlist_kept ..)
                          assumption
    · exact Kept.refl _
  · refine KeptO.next ?_
    exact Kept.refl _

theorem dataArrived_kept (fn sqid cid data) (s : State) : Kept s (dataArrived fn sqid cid data s) := by
  unfold dataArrived
  split
  · exact Kept.refl _
  · refine Kept.ite (fun _ => ?_) (fun _ => ?_)
    · exact Kept.refl _
    · refine Kept.ite (fun _ => ?_) (fun _ => ?_)
      · refine Kept.trans ?_ (advanceAll_kept ..)
        refine Kept.trans ?_ (complete_kept ..)
        exact dropCmd_kept ..
      · split
        · refine Kept.trans ?_ (advanceAll_kept ..)
          exact updCmd_kept ..
        · refine Kept.ite (fun _ => ?_) (fun _ => ?_)
          · refine Kept.trans ?_ (advanceAll_kept ..)
            refine Kept.trans ?_ (complete_kept ..)
            exact dropCmd_kept ..
          · refine Kept.trans ?_ (advanceAll_kept ..)
            refine Kept.trans ?_ (complete_kept ..)
            refine Kept.trans ?_ (dropCmd_kept ..)
            exact applyAppend_kept ..
        · exact Kept.refl _

theorem execWriteDataArrived_kept (fn sqid cid data) (s : State) : KeptO s (execWriteDataArrived fn sqid cid data s) := by
  unfold execWriteDataArrived
  refine KeptO.next ?_
  exact dataArrived_kept ..

theorem logAer_kept (fn timeout) (s : State) : Kept s (logAer fn timeout s) := by
  unfold logAer
  refine Kept.trans ?_ (emit_kept ..)
  exact updFn_kept ..

theorem failTransfer_kept (timeout fn sqid cid) (s : State) : Kept s (failTransfer timeout fn sqid cid s) := by
  unfold failTransfer
  split
  · exact Kept.refl _
  · extract_lets v1
    refine Kept.ite (fun _ => ?_) (fun _ => ?_)
    · refine Kept.trans ?_ (advanceAll_kept ..)
      refine Kept.trans ?_ (complete_kept ..)
      refine Kept.trans ?_ (dropCmd_kept ..)
      exact logAer_kept ..
    · exact Kept.refl _

theorem execDmaReadFault_kept (fn sqid cid) (s : State) : KeptO s (execDmaReadFault fn sqid cid s) := by
  unfold execDmaReadFault
  refine KeptO.next ?_
  exact failTransfer_kept ..

theorem execCompletionTimeout_kept (fn sqid cid) (s : State) : KeptO s (execCompletionTimeout fn sqid cid s) := by
  unfold execCompletionTimeout
  refine KeptO.next ?_
  exact failTransfer_kept ..

theorem execDmaWriteRejected_kept (fn sqid cid) (s : State) : KeptO s (execDmaWriteRejected fn sqid cid s) := by
  unfold execDmaWriteRejected
  refine KeptO.next ?_
  split
  · exact Kept.refl _
  · split
    · refine Kept.ite (fun _ => ?_) (fun _ => ?_)
      · exact Kept.refl _
      · refine Kept.trans ?_ (advanceAll_kept ..)
        refine Kept.trans ?_ (complete_kept ..)
        refine Kept.trans ?_ (dropCmd_kept ..)
        exact logAer_kept ..
    · exact Kept.refl _

theorem execAppendHoldExpiry_kept (fn sqid cid) (s : State) : KeptO s (execAppendHoldExpiry fn sqid cid s) := by
  unfold execAppendHoldExpiry
  refine KeptO.next ?_
  split
  · exact Kept.refl _
  · split
    · extract_lets v1
      refine Kept.ite (fun _ => ?_) (fun _ => ?_)
      · refine Kept.trans ?_ (advanceAll_kept ..)
        refine Kept.trans ?_ (complete_kept ..)
        exact dropCmd_kept ..
      · exact Kept.refl _
    · exact Kept.refl _

theorem tornRec_kept (c declared) (s : State) : Kept s (tornRec c declared s) := by
  unfold tornRec
  extract_lets v1
  have h2 : Kept s v1.2 := takeFree_kept ..
  clear_value v1
  refine Kept.trans ?_ (addRec_kept ..)
  assumption

theorem abandonCmd_kept (st c) (s : State) : Kept s (abandonCmd st c s) := by
  unfold abandonCmd
  extract_lets v1 v2
  have h3 : Kept s v1 := dropCmd_kept ..
  clear_value v1
  split
  · unfold v2
    split
    · refine Kept.trans ?_ (complete_kept ..)
      refine Kept.trans ?_ (markWrite_kept ..)
      refine Kept.trans ?_ (applyWrite_kept ..)
      assumption
    · refine Kept.trans ?_ (markWrite_kept ..)
      refine Kept.trans ?_ (applyWrite_kept ..)
      assumption
  · unfold v2
    split
    · refine Kept.trans ?_ (complete_kept ..)
      refine Kept.ite (fun _ => ?_) (fun _ => ?_)
      · refine Kept.trans ?_ (tornRec_kept ..)
        assumption
      · assumption
    · refine Kept.ite (fun _ => ?_) (fun _ => ?_)
      · refine Kept.trans ?_ (tornRec_kept ..)
        assumption
      · assumption
  · unfold v2
    split
    · refine Kept.trans ?_ (complete_kept ..)
      assumption
    · assumption

theorem abandonCmds_kept (p st) (s : State) : Kept s (abandonCmds p st s) := by
  unfold abandonCmds
  extract_lets v1 v2
  refine Kept.trans ?_ (advanceAll_kept ..)
  refine Kept.foldl (fun a x => ?_) ?_
  · exact abandonCmd_kept ..
  · refine Kept.foldl (fun a x => ?_) ?_
    · unfold v2
      split
      · exact complete_kept ..
      · exact Kept.refl _
    · exact dropLate_kept ..

theorem forgetReqs_kept (p) (s : State) : Kept s (forgetReqs p s) := by
  unfold forgetReqs
  extract_lets v1 v2 v3 v4 v5 v6 v7
  exact Kept.upd rfl rfl rfl rfl rfl rfl

/-! ### Sys2Proof/Machine/Bind.lean -/

theorem takeBind_kept (q op flow desc e) (s : State) : Kept s (takeBind q op flow desc e s) := by
  unfold takeBind
  split
  · exact done_kept ..
  · exact Kept.upd rfl rfl rfl rfl rfl rfl

theorem execFlowBind_kept (q numd desc) (s : State) : KeptO s (execFlowBind q numd desc s) := by
  unfold execFlowBind
  unfold ioFetch
  refine KeptO.next ?_
  refine Kept.ite (fun _ => ?_) (fun _ => ?_)
  · split
    · refine Kept.trans ?_ (toFollower_kept ..)
      exact takeEntry_kept ..
    · extract_lets v1 v2
      have h3 : Kept s v1 := by
        unfold v1
        refine Kept.trans ?_ (charge_kept ..)
        exact takeEntry_kept ..
      clear_value v1
      refine Kept.ite (fun _ => ?_) (fun _ => ?_)
      · refine Kept.trans ?_ (done_kept ..)
        assumption
      · unfold vendorGate
        extract_lets v4 v5
        refine Kept.ite (fun _ => ?_) (fun _ => ?_)
        · refine Kept.trans ?_ (done_kept ..)
          assumption
        · refine Kept.ite (fun _ => ?_) (fun _ => ?_)
          · refine Kept.trans ?_ (done_kept ..)
            refine Kept.trans ?_ (takeDeferred_kept ..)
            assumption
          · refine Kept.ite (fun _ => ?_) (fun _ => ?_)
            · refine Kept.trans ?_ (done_kept ..)
              assumption
            · refine Kept.ite (fun _ => ?_) (fun _ => ?_)
              · refine Kept.trans ?_ (done_kept ..)
                assumption
              · unfold orElse
                split
                · refine Kept.trans ?_ (done_kept ..)
                  assumption
                · beta_reduce
                  refine Kept.trans ?_ (takeBind_kept ..)
                  assumption
  · exact Kept.refl _

theorem execFlowUnbind_kept (q numd flow desc) (s : State) : KeptO s (execFlowUnbind q numd flow desc s) := by
  unfold execFlowUnbind
  unfold ioFetch
  refine KeptO.next ?_
  refine Kept.ite (fun _ => ?_) (fun _ => ?_)
  · split
    · refine Kept.trans ?_ (toFollower_kept ..)
      exact takeEntry_kept ..
    · extract_lets v1 v2
      have h3 : Kept s v1 := by
        unfold v1
        refine Kept.trans ?_ (charge_kept ..)
        exact takeEntry_kept ..
      clear_value v1
      refine Kept.ite (fun _ => ?_) (fun _ => ?_)
      · refine Kept.trans ?_ (done_kept ..)
        assumption
      · unfold vendorGate
        extract_lets v4 v5
        refine Kept.ite (fun _ => ?_) (fun _ => ?_)
        · refine Kept.trans ?_ (done_kept ..)
          assumption
        · refine Kept.ite (fun _ => ?_) (fun _ => ?_)
          · refine Kept.trans ?_ (done_kept ..)
            refine Kept.trans ?_ (takeDeferred_kept ..)
            assumption
          · refine Kept.ite (fun _ => ?_) (fun _ => ?_)
            · refine Kept.trans ?_ (done_kept ..)
              assumption
            · refine Kept.ite (fun _ => ?_) (fun _ => ?_)
              · refine Kept.trans ?_ (done_kept ..)
                assumption
              · unfold orElse
                split
                · refine Kept.trans ?_ (done_kept ..)
                  assumption
                · beta_reduce
                  refine Kept.trans ?_ (takeBind_kept ..)
                  assumption
  · exact Kept.refl _

theorem execFlowModify_kept (q numd flow desc) (s : State) : KeptO s (execFlowModify q numd flow desc s) := by
  unfold execFlowModify
  unfold ioFetch
  refine KeptO.next ?_
  refine Kept.ite (fun _ => ?_) (fun _ => ?_)
  · split
    · refine Kept.trans ?_ (toFollower_kept ..)
      exact takeEntry_kept ..
    · extract_lets v1 v2
      have h3 : Kept s v1 := by
        unfold v1
        refine Kept.trans ?_ (charge_kept ..)
        exact takeEntry_kept ..
      clear_value v1
      refine Kept.ite (fun _ => ?_) (fun _ => ?_)
      · refine Kept.trans ?_ (done_kept ..)
        assumption
      · unfold vendorGate
        extract_lets v4 v5
        refine Kept.ite (fun _ => ?_) (fun _ => ?_)
        · refine Kept.trans ?_ (done_kept ..)
          assumption
        · refine Kept.ite (fun _ => ?_) (fun _ => ?_)
          · refine Kept.trans ?_ (done_kept ..)
            refine Kept.trans ?_ (takeDeferred_kept ..)
            assumption
          · refine Kept.ite (fun _ => ?_) (fun _ => ?_)
            · refine Kept.trans ?_ (done_kept ..)
              assumption
            · refine Kept.ite (fun _ => ?_) (fun _ => ?_)
              · refine Kept.trans ?_ (done_kept ..)
                assumption
              · unfold orElse
                split
                · refine Kept.trans ?_ (done_kept ..)
                  assumption
                · beta_reduce
                  refine Kept.trans ?_ (takeBind_kept ..)
                  assumption
  · exact Kept.refl _

theorem removeFlow_kept (fid x) (s : State) : Kept s (removeFlow fid x s) := by
  unfold removeFlow
  extract_lets v1 v2
  have h3 : Kept s v2 := by
    unfold v2
    refine Kept.trans ?_ (sieveWrite_kept ..)
    exact Kept.upd rfl rfl rfl rfl rfl rfl
  clear_value v2
  refine Kept.trans ?_ (showFlows_kept ..)
  refine Kept.ite (fun _ => ?_) (fun _ => ?_)
  · assumption
  · refine Kept.trans ?_ (flushTail_kept ..)
    assumption

theorem commitBind_kept (b) (s : State) : Kept s (commitBind b s) := by
  unfold commitBind
  extract_lets v1 v2 v3 v4
  split
  · unfold v1
    refine Kept.trans ?_ (complete_kept ..)
    refine Kept.trans ?_ (bindRec_kept ..)
    refine Kept.trans ?_ (showFlows_kept ..)
    refine Kept.trans ?_ (writeFlowEntry_kept ..)
    exact setFlow_kept ..
  · split
    · unfold v1
      exact complete_kept ..
    · unfold v1
      refine Kept.trans ?_ (complete_kept ..)
      refine Kept.trans ?_ (removeFlow_kept ..)
      exact bindRec_kept ..
  · split
    · unfold v1
      exact complete_kept ..
    · extract_lets v5
      unfold v1
      refine Kept.trans ?_ (complete_kept ..)
      refine Kept.trans ?_ (bindRec_kept ..)
      refine Kept.trans ?_ (showFlows_kept ..)
      refine Kept.trans ?_ (writeFlowEntry_kept ..)
      exact setFlow_kept ..

theorem execBindCommit_kept (s : State) : KeptO s (execBindCommit s) := by
  unfold execBindCommit
  extract_lets v1 v2
  refine KeptO.next ?_
  refine Kept.foldl (fun a x => ?_) ?_
  · exact commitBind_kept ..
  · exact Kept.upd rfl rfl rfl rfl rfl rfl

theorem execRingBind_kept (q numd action flow desc) (s : State) : KeptO s (execRingBind q numd action flow desc s) := by
  unfold execRingBind
  unfold ringGate
  unfold ioFetch
  refine KeptO.next ?_
  refine Kept.ite (fun _ => ?_) (fun _ => ?_)
  · split
    · refine Kept.trans ?_ (toFollower_kept ..)
      exact takeEntry_kept ..
    · extract_lets v1 v2
      have h3 : Kept s v1 := by
        unfold v1
        refine Kept.trans ?_ (charge_kept ..)
        exact takeEntry_kept ..
      clear_value v1
      refine Kept.ite (fun _ => ?_) (fun _ => ?_)
      · refine Kept.trans ?_ (done_kept ..)
        assumption
      · beta_reduce
        refine Kept.ite (fun _ => ?_) (fun _ => ?_)
        · refine Kept.trans ?_ (done_kept ..)
          assumption
        · refine Kept.ite (fun _ => ?_) (fun _ => ?_)
          · refine Kept.trans ?_ (done_kept ..)
            assumption
          · unfold orElse
            split
            · refine Kept.trans ?_ (done_kept ..)
              assumption
            · beta_reduce
              refine Kept.ite (fun _ => ?_) (fun _ => ?_)
              · refine Kept.trans ?_ (done_kept ..)
                assumption
              · refine Kept.ite (fun _ => ?_) (fun _ => ?_)
                · refine Kept.trans ?_ (done_kept ..)
                  assumption
                · refine Kept.ite (fun _ => ?_) (fun _ => ?_)
                  · refine Kept.trans ?_ (done_kept ..)
                    assumption
                  · extract_lets v4
                    refine Kept.trans ?_ (done_kept ..)
                    refine Kept.trans ?_ (updFn_kept ..)
                    assumption
  · exact Kept.refl _

theorem execRingRemove_kept (q numd flow desc) (s : State) : KeptO s (execRingRemove q numd flow desc s) := by
  unfold execRingRemove
  unfold ringGate
  unfold ioFetch
  refine KeptO.next ?_
  refine Kept.ite (fun _ => ?_) (fun _ => ?_)
  · split
    · refine Kept.trans ?_ (toFollower_kept ..)
      exact takeEntry_kept ..
    · extract_lets v1 v2
      have h3 : Kept s v1 := by
        unfold v1
        refine Kept.trans ?_ (charge_kept ..)
        exact takeEntry_kept ..
      clear_value v1
      refine Kept.ite (fun _ => ?_) (fun _ => ?_)
      · refine Kept.trans ?_ (done_kept ..)
        assumption
      · beta_reduce
        refine Kept.ite (fun _ => ?_) (fun _ => ?_)
        · refine Kept.trans ?_ (done_kept ..)
          assumption
        · refine Kept.ite (fun _ => ?_) (fun _ => ?_)
          · refine Kept.trans ?_ (done_kept ..)
            assumption
          · unfold orElse
            split
            · refine Kept.trans ?_ (done_kept ..)
              assumption
            · beta_reduce
              refine Kept.ite (fun _ => ?_) (fun _ => ?_)
              · refine Kept.trans ?_ (done_kept ..)
                assumption
              · refine Kept.ite (fun _ => ?_) (fun _ => ?_)
                · refine Kept.trans ?_ (done_kept ..)
                  assumption
                · refine Kept.trans ?_ (done_kept ..)
                  refine Kept.trans ?_ (updFn_kept ..)
                  assumption
  · exact Kept.refl _

theorem linkRec_kept (port kind) (s : State) : Kept s (linkRec port kind s) := by
  unfold linkRec
  exact Kept.upd rfl rfl rfl rfl rfl rfl

theorem startPort_kept (p quiet) (s : State) : Kept s (startPort p quiet s) := by
  unfold startPort
  exact updPort_kept ..

theorem dropLink_kept (p) (s : State) : Kept s (dropLink p s) := by
  unfold dropLink
  refine Kept.trans ?_ (incF_kept ..)
  refine Kept.trans ?_ (setF_kept ..)
  refine Kept.trans ?_ (setF_kept ..)
  exact setF_kept ..

theorem stopPort_kept (p quiet) (s : State) : Kept s (stopPort p quiet s) := by
  unfold stopPort
  extract_lets v1
  have h2 : Kept s v1 := updPort_kept ..
  clear_value v1
  refine Kept.ite (fun _ => ?_) (fun _ => ?_)
  · assumption
  · refine Kept.ite (fun _ => ?_) (fun _ => ?_)
    · refine Kept.trans ?_ (setF_kept ..)
      refine Kept.trans ?_ (setF_kept ..)
      refine Kept.trans ?_ (setF_kept ..)
      assumption
    · refine Kept.trans ?_ (linkRec_kept ..)
      refine Kept.trans ?_ (dropLink_kept ..)
      assumption

theorem setPorts_kept (s : State) : Kept s (setPorts s) := by
  unfold setPorts
  refine Kept.foldl (fun a x => ?_) ?_
  · extract_lets v1 v2
    refine Kept.ite (fun _ => ?_) (fun _ => ?_)
    · exact startPort_kept ..
    · refine Kept.ite (fun _ => ?_) (fun _ => ?_)
      · exact stopPort_kept ..
      · exact Kept.refl _
  · exact Kept.refl _

theorem applyPortEn_kept (s : State) : Kept s (applyPortEn s) := by
  unfold applyPortEn
  refine Kept.foldl (fun a x => ?_) ?_
  · extract_lets v1 v2
    refine Kept.ite (fun _ => ?_) (fun _ => ?_)
    · exact startPort_kept ..
    · refine Kept.ite (fun _ => ?_) (fun _ => ?_)
      · exact stopPort_kept ..
      · exact Kept.refl _
  · exact Kept.refl _

theorem execPortEnable_kept (port) (s : State) : KeptO s (execPortEnable port s) := by
  unfold execPortEnable
  extract_lets v1 v2
  refine KeptO.next ?_
  refine Kept.ite (fun _ => ?_) (fun _ => ?_)
  · exact Kept.refl _
  · refine Kept.trans ?_ (applyPortEn_kept ..)
    exact setF_kept ..

theorem execPortLinkUp_kept (frac port up) (s : State) :
    KeptO s (execPortLinkUp frac port up s) := by
  unfold execPortLinkUp
  extract_lets v1 v2 v3 v4
  have h5 : Kept s v1 := atFrac_kept ..
  clear_value v1
  have h6 : Kept s v4 := by
    unfold v4
    refine Kept.trans ?_ (setF_kept ..)
    refine Kept.trans ?_ (setF_kept ..)
    refine Kept.trans ?_ (setF_kept ..)
    refine Kept.trans ?_ (setF_kept ..)
    refine Kept.trans ?_ (setF_kept ..)
    refine Kept.trans ?_ (updPort_kept ..)
    assumption
  clear_value v4
  refine KeptO.next ?_
  refine Kept.ite (fun _ => ?_) (fun _ => ?_)
  · assumption
  · refine Kept.ite (fun _ => ?_) (fun _ => ?_)
    · assumption
    · refine Kept.trans ?_ (linkRec_kept ..)
      assumption

theorem execPortLinkLost_kept (frac port) (s : State) : KeptO s (execPortLinkLost frac port s) := by
  unfold execPortLinkLost
  extract_lets v1 v2
  have h3 : Kept s v1 := atFrac_kept ..
  clear_value v1
  refine KeptO.next ?_
  refine Kept.ite (fun _ => ?_) (fun _ => ?_)
  · refine Kept.trans ?_ (linkRec_kept ..)
    refine Kept.trans ?_ (dropLink_kept ..)
    assumption
  · assumption

theorem execTxPolarityToggle_kept (port look) (s : State) :
    KeptO s (execTxPolarityToggle port look s) := by
  unfold execTxPolarityToggle
  extract_lets v1 v2 v3 v4
  have h5 : Kept s v3 := by
    unfold v3
    refine Kept.trans ?_ (setF_kept ..)
    exact setF_kept ..
  clear_value v3
  have h6 : Kept s v4 := by
    unfold v4
    refine Kept.ite (fun _ => ?_) (fun _ => ?_)
    · refine Kept.trans ?_ (setF_kept ..)
      assumption
    · assumption
  clear_value v4
  refine KeptO.next ?_
  refine Kept.ite (fun _ => ?_) (fun _ => ?_)
  · exact Kept.refl _
  · refine Kept.ite (fun _ => ?_) (fun _ => ?_)
    · refine Kept.trans ?_ (setF_kept ..)
      assumption
    · assumption

theorem execArpRequest_kept (port senderMac senderIp targetIp) (s : State) :
    KeptO s (execArpRequest port senderMac senderIp targetIp s) := by
  unfold execArpRequest
  extract_lets v1 v2
  refine KeptO.next ?_
  refine Kept.ite (fun _ => ?_) (fun _ => ?_)
  · exact emit_kept ..
  · exact Kept.refl _

theorem execNeighbourSolicitation_kept (port senderMac senderIp targetIp) (s : State) :
    KeptO s (execNeighbourSolicitation port senderMac senderIp targetIp s) := by
  unfold execNeighbourSolicitation
  extract_lets v1 v2 v3 v4
  refine KeptO.next ?_
  refine Kept.ite (fun _ => ?_) (fun _ => ?_)
  · exact emit_kept ..
  · exact Kept.refl _

/-! ### Sys2Proof/Machine/NibCore.lean -/

theorem dramSetBytes_kept (h buf off bs) (s : State) : Kept s (dramSetBytes h buf off bs s) := by
  unfold dramSetBytes
  exact updGraph_kept ..

theorem sharedSet_kept (k a v) (s : State) : Kept s (sharedSet k a v s) := by
  unfold sharedSet
  exact Kept.upd rfl rfl rfl rfl rfl rfl

theorem segStore_kept (k off c v chk) (s : State) : Kept s (segStore k off c v chk s) := by
  unfold segStore
  split
  · exact sharedSet_kept ..
  · exact dramSetBytes_kept ..
  · exact winWrite_kept ..
  · exact Kept.refl _

theorem nibStop_kept (k cause tpc) (s : State) : Kept s (nibStop k cause tpc s) := by
  unfold nibStop
  extract_lets v1 v2
  refine Kept.trans ?_ (failNode_kept ..)
  exact updRun_kept ..

theorem trapEntry_kept (k t n at_ xip) (s : State) : Kept s (trapEntry k t n at_ xip s) := by
  unfold trapEntry
  extract_lets v1 v2 v3
  refine Kept.ite (fun _ => ?_) (fun _ => ?_)
  · refine Kept.trans ?_ (nibStop_kept ..)
    exact setCore_kept ..
  · refine Kept.ite (fun _ => ?_) (fun _ => ?_)
    · refine Kept.trans ?_ (nibStop_kept ..)
      exact setCore_kept ..
    · split
      · refine Kept.trans ?_ (nibStop_kept ..)
        exact setCore_kept ..
      · extract_lets v4
        exact setCore_kept ..

theorem retTrap_kept (k data) (s : State) : Kept s (retTrap k data s) := by
  unfold retTrap
  extract_lets v1 v2 v3
  have h4 : Kept s v3 := Kept.upd rfl rfl rfl rfl rfl rfl
  clear_value v3
  refine Kept.ite (fun _ => ?_) (fun _ => ?_)
  · refine Kept.trans ?_ (nibStop_kept ..)
    refine Kept.trans ?_ (incF_kept ..)
    refine Kept.trans ?_ (setCore_kept ..)
    assumption
  · split
    · refine Kept.trans ?_ (nibStop_kept ..)
      refine Kept.trans ?_ (setCore_kept ..)
      assumption
    · extract_lets v5
      refine Kept.trans ?_ (setCore_kept ..)
      assumption

theorem takeInterrupt_kept (k) (s : State) : Kept s (takeInterrupt k s) := by
  unfold takeInterrupt
  extract_lets v1
  refine Kept.trans ?_ (trapEntry_kept ..)
  exact setCore_kept ..

theorem nibBundle_kept (k ws) (s : State) : Kept s (nibBundle k ws s) := by
  unfold nibBundle
  extract_lets v1 v2 v3 v4
  refine Kept.ite (fun _ => ?_) (fun _ => ?_)
  · exact setCore_kept ..
  · split
    · extract_lets v5 v6 v7
      have h8 : Kept s v5 := by
        unfold v5
        refine Kept.ite (fun _ => ?_) (fun _ => ?_)
        · exact incF_kept ..
        · exact Kept.refl _
      clear_value v5
      have h9 : Kept s v6 := by
        unfold v6
        refine Kept.ite (fun _ => ?_) (fun _ => ?_)
        · refine Kept.trans ?_ (incF_kept ..)
          assumption
        · assumption
      clear_value v6
      have h10 : Kept s v7 := by
        unfold v7
        refine Kept.ite (fun _ => ?_) (fun _ => ?_)
        · refine Kept.trans ?_ (incF_kept ..)
          assumption
        · assumption
      clear_value v7
      refine Kept.trans ?_ (trapEntry_kept ..)
      refine Kept.trans ?_ (setCore_kept ..)
      assumption
    · split
      · exact setCore_kept ..
      · refine Kept.ite (fun _ => ?_) (fun _ => ?_)
        · refine Kept.trans ?_ (retTrap_kept ..)
          unfold countData
          refine Kept.ite (fun _ => ?_) (fun _ => ?_)
          · exact setCore_kept ..
          · split
            · refine Kept.trans ?_ (incF_kept ..)
              exact Kept.upd rfl rfl rfl rfl rfl rfl
            · refine Kept.trans ?_ (inkKeepBad_kept ..)
              exact setCore_kept ..
            · refine Kept.ite (fun _ => ?_) (fun _ => ?_)
              · exact setCore_kept ..
              · refine Kept.trans ?_ (incF_kept ..)
                refine Kept.ite (fun _ => ?_) (fun _ => ?_)
                · refine Kept.trans ?_ (setCore_kept ..)
                  exact setCore_kept ..
                · exact setCore_kept ..
        · extract_lets v11 v12
          have h13 : Kept s v12 := by
            unfold v12
            unfold countData
            refine Kept.ite (fun _ => ?_) (fun _ => ?_)
            · refine Kept.trans ?_ (setCore_kept ..)
              exact Kept.upd rfl rfl rfl rfl rfl rfl
            · split
              · refine Kept.trans ?_ (incF_kept ..)
                exact Kept.upd rfl rfl rfl rfl rfl rfl
              · refine Kept.trans ?_ (inkKeepBad_kept ..)
                refine Kept.trans ?_ (setCore_kept ..)
                exact Kept.upd rfl rfl rfl rfl rfl rfl
              · refine Kept.ite (fun _ => ?_) (fun _ => ?_)
                · refine Kept.trans ?_ (setCore_kept ..)
                  exact Kept.upd rfl rfl rfl rfl rfl rfl
                · refine Kept.trans ?_ (incF_kept ..)
                  refine Kept.ite (fun _ => ?_) (fun _ => ?_)
                  · refine Kept.trans ?_ (setCore_kept ..)
                    refine Kept.trans ?_ (setCore_kept ..)
                    exact Kept.upd rfl rfl rfl rfl rfl rfl
                  · refine Kept.trans ?_ (setCore_kept ..)
                    exact Kept.upd rfl rfl rfl rfl rfl rfl
          clear_value v12
          split
          · refine Kept.trans ?_ (segStore_kept ..)
            assumption
          · refine Kept.trans ?_ (trapEntry_kept ..)
            assumption
          · refine Kept.trans ?_ (endNode_kept ..)
            assumption
          · refine Kept.ite (fun _ => ?_) (fun _ => ?_)
            · assumption
            · refine Kept.trans ?_ (updNode_kept ..)
              refine Kept.trans ?_ (setF_kept ..)
              assumption
          · assumption

theorem countFetch_kept (k c f) (s : State) : Kept s (countFetch k c f s) := by
  unfold countFetch
  refine Kept.ite (fun _ => ?_) (fun _ => ?_)
  · exact Kept.refl _
  · refine Kept.ite (fun _ => ?_) (fun _ => ?_)
    · exact inkKeepBad_kept ..
    · refine Kept.trans ?_ (incF_kept ..)
      refine Kept.ite (fun _ => ?_) (fun _ => ?_)
      · refine Kept.trans ?_ (setCore_kept ..)
        exact Kept.upd rfl rfl rfl rfl rfl rfl
      · exact Kept.refl _

theorem nibIssue_kept (unit op o) (s : State) : Kept s (nibIssue unit op o s) := by
  unfold nibIssue
  extract_lets v1 v2 v3 v4
  have h5 : Kept s v3 := countFetch_kept ..
  clear_value v3
  refine Kept.ite (fun _ => ?_) (fun _ => ?_)
  · exact Kept.refl _
  · split
    · extract_lets v6 v7
      have h8 : Kept s v6 := by
        unfold v6
        refine Kept.ite (fun _ => ?_) (fun _ => ?_)
        · exact incF_kept ..
        · exact Kept.refl _
      clear_value v6
      have h9 : Kept s v7 := by
        unfold v7
        refine Kept.ite (fun _ => ?_) (fun _ => ?_)
        · refine Kept.trans ?_ (incF_kept ..)
          assumption
        · assumption
      clear_value v7
      refine Kept.trans ?_ (trapEntry_kept ..)
      assumption
    · split
      · exact Kept.refl _
      · extract_lets v10
        refine Kept.ite (fun _ => ?_) (fun _ => ?_)
        · refine Kept.trans ?_ (nibBundle_kept ..)
          assumption
        · refine Kept.trans ?_ (setCore_kept ..)
          assumption

/-! ### Sys2Proof/Machine/Engine.lean -/

theorem slotWrite_kept (h d k bs) (s : State) : Kept s (slotWrite h d k bs s) := by
  unfold slotWrite
  split
  · exact Kept.refl _
  · exact dramSetBytes_kept ..

theorem leaveEng_kept (h n) (s : State) : Kept s (leaveEng h n s) := by
  unfold leaveEng
  exact dropJobs_kept ..

theorem jobDone_kept (h n produced) (s : State) : Kept s (jobDone h n produced s) := by
  unfold jobDone
  refine Kept.trans ?_ (endNode_kept ..)
  exact leaveEng_kept ..

theorem jobFail_kept (h n code st) (s : State) : Kept s (jobFail h n code st s) := by
  unfold jobFail
  extract_lets v1
  have h2 : Kept s v1 := by
    unfold v1
    refine Kept.ite (fun _ => ?_) (fun _ => ?_)
    · exact incF_kept ..
    · refine Kept.ite (fun _ => ?_) (fun _ => ?_)
      · exact incF_kept ..
      · exact Kept.refl _
  clear_value v1
  refine Kept.trans ?_ (failNode_kept ..)
  refine Kept.trans ?_ (leaveEng_kept ..)
  assumption

theorem digestJob_kept (h n d res) (s : State) : Kept s (digestJob h n d res s) := by
  unfold digestJob
  extract_lets v1 v2 v3 v4 v5 v6 v7
  refine Kept.ite (fun _ => ?_) (fun _ => ?_)
  · exact jobFail_kept ..
  · split
    · refine Kept.trans ?_ (jobDone_kept ..)
      exact slotWrite_kept ..
    · refine Kept.ite (fun _ => ?_) (fun _ => ?_)
      · refine Kept.trans ?_ (jobFail_kept ..)
        exact compareFault_kept ..
      · refine Kept.trans ?_ (jobDone_kept ..)
        exact slotWrite_kept ..
    · refine Kept.ite (fun _ => ?_) (fun _ => ?_)
      · refine Kept.trans ?_ (jobFail_kept ..)
        exact compareFault_kept ..
      · refine Kept.ite (fun _ => ?_) (fun _ => ?_)
        · exact jobDone_kept ..
        · exact jobFail_kept ..

theorem signJob_kept (h n d res) (s : State) : Kept s (signJob h n d res s) := by
  unfold signJob
  extract_lets v1 v2 v3 v4 v5
  have h6 : Kept s v5 := by
    unfold v5
    refine Kept.ite (fun _ => ?_) (fun _ => ?_)
    · exact Kept.refl _
    · exact incF_kept ..
  clear_value v5
  refine Kept.ite (fun _ => ?_) (fun _ => ?_)
  · exact jobFail_kept ..
  · refine Kept.ite (fun _ => ?_) (fun _ => ?_)
    · refine Kept.trans ?_ (jobDone_kept ..)
      refine Kept.trans ?_ (slotWrite_kept ..)
      exact incF_kept ..
    · refine Kept.ite (fun _ => ?_) (fun _ => ?_)
      · refine Kept.trans ?_ (jobFail_kept ..)
        exact compareFault_kept ..
      · refine Kept.ite (fun _ => ?_) (fun _ => ?_)
        · refine Kept.trans ?_ (jobDone_kept ..)
          refine Kept.trans ?_ (slotWrite_kept ..)
          assumption
        · refine Kept.ite (fun _ => ?_) (fun _ => ?_)
          · exact jobDone_kept ..
          · exact jobFail_kept ..

theorem unwrapJob_kept (h n d x) (s : State) : Kept s (unwrapJob h n d x s) := by
  unfold unwrapJob
  refine Kept.ite (fun _ => ?_) (fun _ => ?_)
  · exact jobFail_kept ..
  · split
    · refine Kept.trans ?_ (jobFail_kept ..)
      exact incF_kept ..
    · refine Kept.ite (fun _ => ?_) (fun _ => ?_)
      · exact jobFail_kept ..
      · refine Kept.trans ?_ (jobDone_kept ..)
        exact setSlot_kept ..

theorem gcmOpen_kept (h n len d res key iv aad c) (s : State) : Kept s (gcmOpen h n len d res key iv aad c s) := by
  unfold gcmOpen
  extract_lets v1 v2 v3 v4
  refine Kept.ite (fun _ => ?_) (fun _ => ?_)
  · refine Kept.trans ?_ (jobFail_kept ..)
    refine Kept.trans ?_ (compareFault_kept ..)
    unfold v4
    refine Kept.ite (fun _ => ?_) (fun _ => ?_)
    · refine Kept.trans ?_ (incF_kept ..)
      exact slotWrite_kept ..
    · exact Kept.refl _
  · refine Kept.ite (fun _ => ?_) (fun _ => ?_)
    · refine Kept.trans ?_ (jobDone_kept ..)
      exact slotWrite_kept ..
    · refine Kept.trans ?_ (jobFail_kept ..)
      unfold v4
      refine Kept.ite (fun _ => ?_) (fun _ => ?_)
      · refine Kept.trans ?_ (incF_kept ..)
        exact slotWrite_kept ..
      · exact Kept.refl _

theorem streamOut_kept (h n d) (s : State) : Kept s (streamOut h n d s) := by
  unfold streamOut
  extract_lets v1 v2 v3
  have h4 : Kept s v2.2 := takeFree_kept ..
  clear_value v2
  refine Kept.ite (fun _ => ?_) (fun _ => ?_)
  · exact Kept.refl _
  · refine Kept.trans ?_ (slotWrite_kept ..)
    assumption

theorem cipherJob_kept (h n d res) (s : State) : Kept s (cipherJob h n d res s) := by
  unfold cipherJob
  extract_lets v1 v2 v3 v4 v5 v6
  refine Kept.ite (fun _ => ?_) (fun _ => ?_)
  · exact jobFail_kept ..
  · split
    · refine Kept.trans ?_ (jobDone_kept ..)
      exact slotWrite_kept ..
    · refine Kept.trans ?_ (jobDone_kept ..)
      exact slotWrite_kept ..
    · refine Kept.trans ?_ (jobDone_kept ..)
      exact slotWrite_kept ..
    · exact gcmOpen_kept ..
    · refine Kept.trans ?_ (jobDone_kept ..)
      exact slotWrite_kept ..
    · exact unwrapJob_kept ..

theorem scatter_kept (h : Nat) (rs : List (Nat × Nat × Nat)) (bs : Bytes) (s : State) : Kept s (scatter h rs bs s) := by
  induction rs generalizing bs s with
  | nil => exact Kept.refl s
  | cons k t ih =>
    unfold scatter
    refine Kept.ite (fun _ => ?_) (fun _ => ?_)
    · exact Kept.refl _
    · refine Kept.trans ?_ (ih _ _)
      exact dramSetBytes_kept ..

theorem emitPieces_kept (h n d rs flags took rest record) (s : State) :
    Kept s (emitPieces h n d rs flags took rest record s) := by
  unfold emitPieces
  extract_lets v1 v2
  have h3 : Kept s v1 := scatter_kept ..
  clear_value v1
  have h4 : Kept s v2 := by
    unfold v2
    refine Kept.ite (fun _ => ?_) (fun _ => ?_)
    · refine Kept.trans ?_ (slotWrite_kept ..)
      assumption
    · assumption
  clear_value v2
  refine Kept.ite (fun _ => ?_) (fun _ => ?_)
  · refine Kept.trans ?_ (jobDone_kept ..)
    assumption
  · refine Kept.trans ?_ (jobFail_kept ..)
    assumption

theorem compressFrom_kept (h n d x bs next out) (s : State) : Kept s (compressFrom h n d x bs next out s) := by
  unfold compressFrom
  extract_lets v1 v2 v3 v4 v5 v6 v7 v8 v9 v10 v11 v12 v13
  refine Kept.trans ?_ (emitPieces_kept ..)
  exact slotWrite_kept ..

theorem compressJob_kept (h n d res) (s : State) : Kept s (compressJob h n d res s) := by
  unfold compressJob
  extract_lets v1 v2 v3 v4 v5
  refine Kept.ite (fun _ => ?_) (fun _ => ?_)
  · exact jobFail_kept ..
  · refine Kept.ite (fun _ => ?_) (fun _ => ?_)
    · exact compressFrom_kept ..
    · refine Kept.ite (fun _ => ?_) (fun _ => ?_)
      · exact compressFrom_kept ..
      · exact jobFail_kept ..

theorem decompError_kept (h n code block rs written) (s : State) : Kept s (decompError h n code block rs written s) := by
  unfold decompError
  extract_lets v1
  have h2 : Kept s v1 := scatter_kept ..
  clear_value v1
  refine Kept.trans ?_ (jobFail_kept ..)
  refine Kept.trans ?_ (setF_kept ..)
  refine Kept.trans ?_ (setF_kept ..)
  refine Kept.trans ?_ (setF_kept ..)
  refine Kept.trans ?_ (setF_kept ..)
  refine Kept.trans ?_ (setF_kept ..)
  refine Kept.trans ?_ (incF_kept ..)
  assumption

theorem decompressFrom_kept (h n d x method level log2 first skip r) (s : State) :
    Kept s (decompressFrom h n d x method level log2 first skip r s) := by
  unfold decompressFrom
  extract_lets v1 v2 v3 v4
  split
  · exact decompError_kept ..
  · exact emitPieces_kept ..

theorem decompressJob_kept (h n d res) (s : State) : Kept s (decompressJob h n d res s) := by
  unfold decompressJob
  extract_lets v1 v2 v3 v4 v5 v6 v7 v8 v9 v10
  refine Kept.ite (fun _ => ?_) (fun _ => ?_)
  · exact jobFail_kept ..
  · refine Kept.ite (fun _ => ?_) (fun _ => ?_)
    · exact decompressFrom_kept ..
    · refine Kept.ite (fun _ => ?_) (fun _ => ?_)
      · exact decompressFrom_kept ..
      · exact jobFail_kept ..

theorem execCompressBlockDone_kept (graph node verifyBad) (s : State) :
    KeptO s (execCompressBlockDone graph node verifyBad s) := by
  unfold execCompressBlockDone
  refine KeptO.next ?_
  split
  · exact Kept.refl _
  · extract_lets v1 v2 v3 v4 v5 v6 v7 v8 v9 v10 v11 v12 v13
    have h14 : Kept s v9 := by
      unfold v9
      refine Kept.trans ?_ (incF_kept ..)
      exact Kept.upd rfl rfl rfl rfl rfl rfl
    clear_value v9
    have h15 : Kept s v10 := by
      unfold v10
      refine Kept.ite (fun _ => ?_) (fun _ => ?_)
      · refine Kept.trans ?_ (incF_kept ..)
        assumption
      · assumption
    clear_value v10
    have h16 : Kept s v11.2 := by
      unfold v11
      refine Kept.trans ?_ (takeFree_kept ..)
      assumption
    clear_value v11
    have h17 : Kept s v12 := by
      unfold v12
      refine Kept.ite (fun _ => ?_) (fun _ => ?_)
      · refine Kept.trans ?_ (blot_kept ..)
        refine Kept.trans ?_ (updNode_kept ..)
        assumption
      · assumption
    clear_value v12
    have h18 : Kept s v13 := by
      unfold v13
      refine Kept.trans ?_ (spendEng_kept ..)
      assumption
    clear_value v13
    refine Kept.ite (fun _ => ?_) (fun _ => ?_)
    · exact Kept.refl _
    · refine Kept.ite (fun _ => ?_) (fun _ => ?_)
      · assumption
      · refine Kept.trans ?_ (fillEng_kept ..)
        refine Kept.trans ?_ (leaveTurn_kept ..)
        assumption

theorem chargeMoves_kept (h n ops) (s : State) : Kept s (chargeMoves h n ops s) := by
  unfold chargeMoves
  extract_lets v1
  refine Kept.trans ?_ (updNode_kept ..)
  exact updRun_kept ..

theorem sieveRecords_kept (h n : Nat) (d : GNode) (op p k : Nat) (bad : List Nat) (r0 : SieveRun) (c : Nat) :
    Kept r0.state (sieveRecords h n d op p k bad r0 c).state := by
  induction c generalizing k r0 with
  | zero => exact Kept.refl _
  | succ j ih =>
    unfold sieveRecords
    extract_lets s size r i next
    have hn : ∀ a o b, Kept s a → Kept s (next a o b).state := fun a o b w =>
      w.trans (ih (k + 1) { r0 with state := a, ops := r0.ops + o, out := r0.out ++ b })
    clear_value next
    split
    · exact hn _ _ _ (Kept.trans (lookupParity_kept ..) (countLookup_kept ..))
    · split
      · exact Kept.refl _
      · split
        · exact hn _ _ _ (Kept.ite (fun _ => Kept.refl s) (fun _ => sieveWrite_kept ..))
        · split
          · rename_i e
            exact hn _ _ _ (KeptS.eq e (sieveInsert_kept _ _ _ _))
          · exact Kept.refl _
        · exact hn _ _ _ (sieveWrite_kept ..)
        · exact hn _ _ _ (Kept.refl s)

theorem sieveJob_kept (h n : Nat) (d : GNode) (bad : List Nat) (s : State) : Kept s (sieveJob h n d bad s) := by
  unfold sieveJob
  extract_lets r s1
  have hr : Kept s r.state := sieveRecords_kept h n d (pByte d 24) (pByte d 25) 0 bad { state := s } _
  have h1 : Kept s s1 := hr.trans ((chargeMoves_kept ..).trans (slotWrite_kept ..))
  clear_value s1
  split
  · exact h1.trans (jobFail_kept ..)
  · exact h1.trans (jobDone_kept ..)

theorem sieveOp_kept (op h n bad) (s : State) : Kept s (sieveOp op h n bad s) := by
  unfold sieveOp
  split
  · exact Kept.refl _
  · refine Kept.ite (fun _ => ?_) (fun _ => ?_)
    · exact sieveJob_kept ..
    · exact Kept.refl _

theorem execSieveLookup_kept (graph node) (s : State) : KeptO s (execSieveLookup graph node s) := by
  unfold execSieveLookup
  refine KeptO.next ?_
  exact sieveOp_kept ..

theorem execSieveWrite_kept (graph node) (s : State) : KeptO s (execSieveWrite graph node s) := by
  unfold execSieveWrite
  refine KeptO.next ?_
  exact sieveOp_kept ..

theorem execSieveInsert_kept (graph node) (s : State) : KeptO s (execSieveInsert graph node s) := by
  unfold execSieveInsert
  refine KeptO.next ?_
  exact sieveOp_kept ..

theorem execSieveInvalidate_kept (graph node) (s : State) : KeptO s (execSieveInvalidate graph node s) := by
  unfold execSieveInvalidate
  refine KeptO.next ?_
  exact sieveOp_kept ..

theorem execSieveRead_kept (graph node) (s : State) : KeptO s (execSieveRead graph node s) := by
  unfold execSieveRead
  refine KeptO.next ?_
  exact sieveOp_kept ..

theorem mediaReadJob_kept (h n d) (s : State) : Kept s (mediaReadJob h n d s) := by
  unfold mediaReadJob
  extract_lets v1
  refine Kept.ite (fun _ => ?_) (fun _ => ?_)
  · exact jobFail_kept ..
  · refine Kept.trans ?_ (jobDone_kept ..)
    exact slotWrite_kept ..

theorem mediaWriteJob_kept (h n d) (s : State) : Kept s (mediaWriteJob h n d s) := by
  unfold mediaWriteJob
  split
  · exact jobFail_kept ..
  · extract_lets v1
    refine Kept.ite (fun _ => ?_) (fun _ => ?_)
    · exact jobFail_kept ..
    · refine Kept.trans ?_ (jobDone_kept ..)
      exact applyWrite_kept ..

theorem copyJob_kept (h n d) (s : State) : Kept s (copyJob h n d s) := by
  unfold copyJob
  extract_lets v1
  refine Kept.trans ?_ (jobDone_kept ..)
  exact slotWrite_kept ..

theorem hostInJob_kept (h n d res) (s : State) : Kept s (hostInJob h n d res s) := by
  unfold hostInJob
  extract_lets v1
  refine Kept.ite (fun _ => ?_) (fun _ => ?_)
  · exact jobFail_kept ..
  · refine Kept.trans ?_ (jobDone_kept ..)
    exact slotWrite_kept ..

theorem hostOutJob_kept (h n d res) (s : State) : Kept s (hostOutJob h n d res s) := by
  unfold hostOutJob
  extract_lets v1
  refine Kept.ite (fun _ => ?_) (fun _ => ?_)
  · exact jobFail_kept ..
  · refine Kept.trans ?_ (jobDone_kept ..)
    exact hostOut_kept ..

theorem startMedia_kept (h n d) (s : State) : Kept s (startMedia h n d s) := by
  unfold startMedia
  extract_lets v1
  refine Kept.trans ?_ (settleOps_kept ..)
  refine Kept.foldl (fun a x => ?_) ?_
  · exact queueOp_kept ..
  · exact Kept.refl _

theorem engineEnd_kept (h n d res) (s : State) : Kept s (engineEnd h n d res s) := by
  unfold engineEnd
  split
  · exact Kept.refl _
  · exact digestJob_kept ..
  · exact cipherJob_kept ..
  · exact signJob_kept ..
  · exact compressJob_kept ..
  · exact decompressJob_kept ..
  · exact sieveJob_kept ..
  · exact mediaReadJob_kept ..
  · exact mediaWriteJob_kept ..
  · exact copyJob_kept ..
  · exact hostInJob_kept ..
  · exact hostOutJob_kept ..
  · exact jobDone_kept ..

theorem chargeLast_kept (h n d) (s : State) : Kept s (chargeLast h n d s) := by
  unfold chargeLast
  split
  · refine Kept.ite (fun _ => ?_) (fun _ => ?_)
    · exact spendEng_kept ..
    · exact Kept.refl _
  · exact Kept.refl _

theorem nodeEnd_kept (graph node res) (s : State) : Kept s (nodeEnd graph node res s) := by
  unfold nodeEnd
  split
  · exact Kept.refl _
  · refine Kept.ite (fun _ => ?_) (fun _ => ?_)
    · refine Kept.trans ?_ (engineEnd_kept ..)
      exact chargeLast_kept ..
    · exact Kept.refl _

/-! ### Sys2Proof/Machine/Evidence.lean -/

theorem execVerifyRange_kept (q slba nlb chain) (s : State) : KeptO s (execVerifyRange q slba nlb chain s) := by
  unfold execVerifyRange
  extract_lets v1
  unfold ioFetch
  refine KeptO.next ?_
  refine Kept.ite (fun _ => ?_) (fun _ => ?_)
  · split
    · refine Kept.trans ?_ (toFollower_kept ..)
      exact takeEntry_kept ..
    · extract_lets v2
      have h3 : Kept s v2 := by
        unfold v2
        refine Kept.trans ?_ (charge_kept ..)
        exact takeEntry_kept ..
      clear_value v2
      refine Kept.ite (fun _ => ?_) (fun _ => ?_)
      · refine Kept.trans ?_ (done_kept ..)
        assumption
      · unfold onNs
        refine Kept.ite (fun _ => ?_) (fun _ => ?_)
        · refine Kept.trans ?_ (done_kept ..)
          assumption
        · refine Kept.ite (fun _ => ?_) (fun _ => ?_)
          · refine Kept.trans ?_ (done_kept ..)
            assumption
          · split
            · refine Kept.trans ?_ (done_kept ..)
              assumption
            · refine Kept.ite (fun _ => ?_) (fun _ => ?_)
              · refine Kept.trans ?_ (done_kept ..)
                assumption
              · refine Kept.ite (fun _ => ?_) (fun _ => ?_)
                · refine Kept.trans ?_ (done_kept ..)
                  refine Kept.trans ?_ (takeDeferred_kept ..)
                  assumption
                · refine Kept.ite (fun _ => ?_) (fun _ => ?_)
                  · refine Kept.trans ?_ (done_kept ..)
                    assumption
                  · split
                    · refine Kept.trans ?_ (done_kept ..)
                      assumption
                    · beta_reduce
                      unfold orElse
                      split
                      · refine Kept.trans ?_ (done_kept ..)
                        assumption
                      · refine Kept.trans ?_ (enlist_kept ..)
                        assumption
  · exact Kept.refl _

theorem answerProof_kept (q stroke kind numd) (s : State) : Kept s (answerProof q stroke kind numd s) := by
  unfold answerProof
  split
  · exact done_kept ..
  · refine Kept.ite (fun _ => ?_) (fun _ => ?_)
    · exact done_kept ..
    · refine Kept.ite (fun _ => ?_) (fun _ => ?_)
      · exact pushLate_kept ..
      · refine Kept.trans ?_ (done_kept ..)
        refine Kept.trans ?_ (hostWrite_kept ..)
        exact charge_kept ..

theorem execProofRead_kept (q stroke kind numd) (s : State) : KeptO s (execProofRead q stroke kind numd s) := by
  unfold execProofRead
  extract_lets v1
  refine KeptO.ite (fun _ => ?_) (fun _ => ?_)
  · unfold ioFetch
    refine KeptO.next ?_
    refine Kept.ite (fun _ => ?_) (fun _ => ?_)
    · split
      · refine Kept.trans ?_ (toFollower_kept ..)
        exact takeEntry_kept ..
      · extract_lets v2
        have h3 : Kept s v2 := by
          unfold v2
          refine Kept.trans ?_ (charge_kept ..)
          exact takeEntry_kept ..
        clear_value v2
        refine Kept.ite (fun _ => ?_) (fun _ => ?_)
        · refine Kept.trans ?_ (done_kept ..)
          assumption
        · beta_reduce
          refine Kept.ite (fun _ => ?_) (fun _ => ?_)
          · refine Kept.trans ?_ (done_kept ..)
            assumption
          · refine Kept.ite (fun _ => ?_) (fun _ => ?_)
            · refine Kept.trans ?_ (done_kept ..)
              assumption
            · unfold v1
              unfold orElse
              split
              · refine Kept.trans ?_ (done_kept ..)
                assumption
              · refine Kept.trans ?_ (answerProof_kept ..)
                assumption
    · exact Kept.refl _
  · unfold ioFetch
    refine KeptO.next ?_
    refine Kept.ite (fun _ => ?_) (fun _ => ?_)
    · split
      · refine Kept.trans ?_ (toFollower_kept ..)
        exact takeEntry_kept ..
      · extract_lets v4
        have h5 : Kept s v4 := by
          unfold v4
          refine Kept.trans ?_ (charge_kept ..)
          exact takeEntry_kept ..
        clear_value v4
        refine Kept.ite (fun _ => ?_) (fun _ => ?_)
        · refine Kept.trans ?_ (done_kept ..)
          assumption
        · unfold onNs
          refine Kept.ite (fun _ => ?_) (fun _ => ?_)
          · refine Kept.trans ?_ (done_kept ..)
            assumption
          · refine Kept.ite (fun _ => ?_) (fun _ => ?_)
            · refine Kept.trans ?_ (done_kept ..)
              assumption
            · split
              · refine Kept.trans ?_ (done_kept ..)
                assumption
              · refine Kept.ite (fun _ => ?_) (fun _ => ?_)
                · refine Kept.trans ?_ (done_kept ..)
                  assumption
                · refine Kept.ite (fun _ => ?_) (fun _ => ?_)
                  · refine Kept.trans ?_ (done_kept ..)
                    refine Kept.trans ?_ (takeDeferred_kept ..)
                    assumption
                  · refine Kept.ite (fun _ => ?_) (fun _ => ?_)
                    · refine Kept.trans ?_ (done_kept ..)
                      assumption
                    · split
                      · refine Kept.trans ?_ (done_kept ..)
                        assumption
                      · beta_reduce
                        unfold v1
                        unfold orElse
                        split
                        · refine Kept.trans ?_ (done_kept ..)
                          assumption
                        · refine Kept.trans ?_ (answerProof_kept ..)
                          assumption
    · exact Kept.refl _

theorem addTrans_kept (unit kind q) (s : State) : Kept s (addTrans unit kind q s) := by
  unfold addTrans
  exact Kept.upd rfl rfl rfl rfl rfl rfl

theorem execHoldPlace_kept (q first last tag) (s : State) : KeptO s (execHoldPlace q first last tag s) := by
  unfold execHoldPlace
  unfold ioFetch
  refine KeptO.next ?_
  refine Kept.ite (fun _ => ?_) (fun _ => ?_)
  · split
    · refine Kept.trans ?_ (toFollower_kept ..)
      exact takeEntry_kept ..
    · extract_lets v1
      have h2 : Kept s v1 := by
        unfold v1
        refine Kept.trans ?_ (charge_kept ..)
        exact takeEntry_kept ..
      clear_value v1
      refine Kept.ite (fun _ => ?_) (fun _ => ?_)
      · refine Kept.trans ?_ (done_kept ..)
        assumption
      · unfold onNs
        refine Kept.ite (fun _ => ?_) (fun _ => ?_)
        · refine Kept.trans ?_ (done_kept ..)
          assumption
        · refine Kept.ite (fun _ => ?_) (fun _ => ?_)
          · refine Kept.trans ?_ (done_kept ..)
            assumption
          · split
            · refine Kept.trans ?_ (done_kept ..)
              assumption
            · refine Kept.ite (fun _ => ?_) (fun _ => ?_)
              · refine Kept.trans ?_ (done_kept ..)
                assumption
              · refine Kept.ite (fun _ => ?_) (fun _ => ?_)
                · refine Kept.trans ?_ (done_kept ..)
                  refine Kept.trans ?_ (takeDeferred_kept ..)
                  assumption
                · refine Kept.ite (fun _ => ?_) (fun _ => ?_)
                  · refine Kept.trans ?_ (done_kept ..)
                    assumption
                  · split
                    · refine Kept.trans ?_ (done_kept ..)
                      assumption
                    · beta_reduce
                      refine Kept.ite (fun _ => ?_) (fun _ => ?_)
                      · refine Kept.trans ?_ (done_kept ..)
                        assumption
                      · refine Kept.trans ?_ (addTrans_kept ..)
                        assumption
  · exact Kept.refl _

theorem execHoldQuery_kept (q first last) (s : State) : KeptO s (execHoldQuery q first last s) := by
  unfold execHoldQuery
  extract_lets v1
  unfold ioFetch
  refine KeptO.next ?_
  refine Kept.ite (fun _ => ?_) (fun _ => ?_)
  · split
    · refine Kept.trans ?_ (toFollower_kept ..)
      exact takeEntry_kept ..
    · extract_lets v2
      have h3 : Kept s v2 := by
        unfold v2
        refine Kept.trans ?_ (charge_kept ..)
        exact takeEntry_kept ..
      clear_value v2
      refine Kept.ite (fun _ => ?_) (fun _ => ?_)
      · refine Kept.trans ?_ (done_kept ..)
        assumption
      · unfold onNs
        refine Kept.ite (fun _ => ?_) (fun _ => ?_)
        · refine Kept.trans ?_ (done_kept ..)
          assumption
        · refine Kept.ite (fun _ => ?_) (fun _ => ?_)
          · refine Kept.trans ?_ (done_kept ..)
            assumption
          · split
            · refine Kept.trans ?_ (done_kept ..)
              assumption
            · refine Kept.ite (fun _ => ?_) (fun _ => ?_)
              · refine Kept.trans ?_ (done_kept ..)
                assumption
              · refine Kept.ite (fun _ => ?_) (fun _ => ?_)
                · refine Kept.trans ?_ (done_kept ..)
                  refine Kept.trans ?_ (takeDeferred_kept ..)
                  assumption
                · refine Kept.ite (fun _ => ?_) (fun _ => ?_)
                  · refine Kept.trans ?_ (done_kept ..)
                    assumption
                  · split
                    · refine Kept.trans ?_ (done_kept ..)
                      assumption
                    · beta_reduce
                      refine Kept.trans ?_ (done_kept ..)
                      assumption
  · exact Kept.refl _

theorem showHolds_kept (s : State) : Kept s (showHolds s) := by
  unfold showHolds
  exact setF_kept ..

theorem commitHold_kept (nsid index first last tag) (s : State) : Kept s (commitHold nsid index first last tag s) := by
  unfold commitHold
  extract_lets v1
  refine Kept.trans ?_ (addRec_kept ..)
  refine Kept.trans ?_ (showHolds_kept ..)
  exact updNs_kept ..

theorem checkToken_kept (q numd token dryrun) (s : State) : Kept s (checkToken q numd token dryrun s) := by
  unfold checkToken
  extract_lets v1
  split
  · exact done_kept ..
  · split
    · refine Kept.trans ?_ (done_kept ..)
      exact incF_kept ..
    · exact done_kept ..
    · refine Kept.ite (fun _ => ?_) (fun _ => ?_)
      · exact done_kept ..
      · exact addTrans_kept ..

theorem startToken_kept (q numd token dryrun) (s : State) : Kept s (startToken q numd token dryrun s) := by
  unfold startToken
  refine Kept.ite (fun _ => ?_) (fun _ => ?_)
  · exact checkToken_kept ..
  · refine Kept.ite (fun _ => ?_) (fun _ => ?_)
    · exact pushSign_kept ..
    · refine Kept.trans ?_ (checkToken_kept ..)
      exact spendSign_kept ..

theorem release_kept (q numd token dryrun) (s : State) : KeptO s (release q numd token dryrun s) := by
  unfold release
  unfold ioFetch
  refine KeptO.next ?_
  refine Kept.ite (fun _ => ?_) (fun _ => ?_)
  · split
    · refine Kept.trans ?_ (toFollower_kept ..)
      exact takeEntry_kept ..
    · extract_lets v1
      have h2 : Kept s v1 := by
        unfold v1
        refine Kept.trans ?_ (charge_kept ..)
        exact takeEntry_kept ..
      clear_value v1
      refine Kept.ite (fun _ => ?_) (fun _ => ?_)
      · refine Kept.trans ?_ (done_kept ..)
        assumption
      · unfold onNs
        refine Kept.ite (fun _ => ?_) (fun _ => ?_)
        · refine Kept.trans ?_ (done_kept ..)
          assumption
        · refine Kept.ite (fun _ => ?_) (fun _ => ?_)
          · refine Kept.trans ?_ (done_kept ..)
            assumption
          · split
            · refine Kept.trans ?_ (done_kept ..)
              assumption
            · refine Kept.ite (fun _ => ?_) (fun _ => ?_)
              · refine Kept.trans ?_ (done_kept ..)
                assumption
              · refine Kept.ite (fun _ => ?_) (fun _ => ?_)
                · refine Kept.trans ?_ (done_kept ..)
                  refine Kept.trans ?_ (takeDeferred_kept ..)
                  assumption
                · refine Kept.ite (fun _ => ?_) (fun _ => ?_)
                  · refine Kept.trans ?_ (done_kept ..)
                    assumption
                  · split
                    · refine Kept.trans ?_ (done_kept ..)
                      assumption
                    · beta_reduce
                      unfold orElse
                      split
                      · refine Kept.trans ?_ (done_kept ..)
                        assumption
                      · refine Kept.trans ?_ (startToken_kept ..)
                        assumption
  · exact Kept.refl _

theorem execReleaseCmd_kept (q numd token) (s : State) : KeptO s (execReleaseCmd q numd token s) := by
  unfold execReleaseCmd
  exact release_kept _ _ _ _ _

theorem execReleaseDryrun_kept (q numd token) (s : State) : KeptO s (execReleaseDryrun q numd token s) := by
  unfold execReleaseDryrun
  exact release_kept _ _ _ _ _

theorem commitRelease_kept (nsid action hold first last nonce token) (s : State) :
    Kept s (commitRelease nsid action hold first last nonce token s) := by
  unfold commitRelease
  extract_lets v1 v2
  have h3 : Kept s v1 := updNs_kept ..
  clear_value v1
  have h4 : Kept s v2 := by
    unfold v2
    refine Kept.ite (fun _ => ?_) (fun _ => ?_)
    · assumption
    · refine Kept.trans ?_ (freeStrokes_kept ..)
      assumption
  clear_value v2
  refine Kept.trans ?_ (addRec_kept ..)
  refine Kept.trans ?_ (showHolds_kept ..)
  assumption

theorem writeBundle_kept (q numd b) (s : State) : Kept s (writeBundle q numd b s) := by
  unfold writeBundle
  extract_lets v1 v2 v3 v4 v5 v6 v7
  have h8 : Kept s v3 := by
    unfold v3
    refine Kept.trans ?_ (hostWrite_kept ..)
    exact charge_kept ..
  clear_value v3
  have h9 : Kept s v4.2 := by
    unfold v4
    refine Kept.trans ?_ (takeFree_kept ..)
    assumption
  clear_value v4
  have h10 : Kept s v7 := by
    unfold v7
    assumption
  clear_value v7
  refine Kept.ite (fun _ => ?_) (fun _ => ?_)
  · refine Kept.trans ?_ (done_kept ..)
    assumption
  · refine Kept.trans ?_ (done_kept ..)
    refine Kept.trans ?_ (Kept.upd rfl rfl rfl rfl rfl rfl)
    assumption

theorem exportPart_kept (q x first last comp level proofs sign numd resume) (s : State) :
    Kept s (exportPart q x first last comp level proofs sign numd resume s) := by
  unfold exportPart
  refine Kept.ite (fun _ => ?_) (fun _ => ?_)
  · split
    · exact done_kept ..
    · refine Kept.trans ?_ (writeBundle_kept ..)
      exact Kept.upd rfl rfl rfl rfl rfl rfl
  · refine Kept.ite (fun _ => ?_) (fun _ => ?_)
    · exact done_kept ..
    · extract_lets v1
      refine Kept.trans ?_ (writeBundle_kept ..)
      refine Kept.ite (fun _ => ?_) (fun _ => ?_)
      · exact incF_kept ..
      · exact Kept.refl _

theorem startExport_kept (q first last comp level proofs sign numd resume mine) (s : State) :
    Kept s (startExport q first last comp level proofs sign numd resume mine s) := by
  unfold startExport
  extract_lets v1 v2
  split
  · exact done_kept ..
  · refine Kept.ite (fun _ => ?_) (fun _ => ?_)
    · exact pushLate_kept ..
    · refine Kept.ite (fun _ => ?_) (fun _ => ?_)
      · exact pushSign_kept ..
      · refine Kept.trans ?_ (exportPart_kept ..)
        refine Kept.ite (fun _ => ?_) (fun _ => ?_)
        · exact spendSign_kept ..
        · exact Kept.refl _

theorem execExportBundle_kept (q first last comp level proofs sign numd resume) (s : State) :
    KeptO s (execExportBundle q first last comp level proofs sign numd resume s) := by
  unfold execExportBundle
  unfold ioFetch
  refine KeptO.next ?_
  refine Kept.ite (fun _ => ?_) (fun _ => ?_)
  · split
    · refine Kept.trans ?_ (toFollower_kept ..)
      exact takeEntry_kept ..
    · extract_lets v1
      have h2 : Kept s v1 := by
        unfold v1
        refine Kept.trans ?_ (charge_kept ..)
        exact takeEntry_kept ..
      clear_value v1
      refine Kept.ite (fun _ => ?_) (fun _ => ?_)
      · refine Kept.trans ?_ (done_kept ..)
        assumption
      · unfold onNs
        refine Kept.ite (fun _ => ?_) (fun _ => ?_)
        · refine Kept.trans ?_ (done_kept ..)
          assumption
        · refine Kept.ite (fun _ => ?_) (fun _ => ?_)
          · refine Kept.trans ?_ (done_kept ..)
            assumption
          · split
            · refine Kept.trans ?_ (done_kept ..)
              assumption
            · refine Kept.ite (fun _ => ?_) (fun _ => ?_)
              · refine Kept.trans ?_ (done_kept ..)
                assumption
              · refine Kept.ite (fun _ => ?_) (fun _ => ?_)
                · refine Kept.trans ?_ (done_kept ..)
                  refine Kept.trans ?_ (takeDeferred_kept ..)
                  assumption
                · refine Kept.ite (fun _ => ?_) (fun _ => ?_)
                  · refine Kept.trans ?_ (done_kept ..)
                    assumption
                  · split
                    · refine Kept.trans ?_ (done_kept ..)
                      assumption
                    · beta_reduce
                      unfold orElse
                      split
                      · refine Kept.trans ?_ (done_kept ..)
                        assumption
                      · refine Kept.trans ?_ (startExport_kept ..)
                        assumption
  · exact Kept.refl _

theorem execExportCookieLapse_kept (s : State) : KeptO s (execExportCookieLapse s) := by
  unfold execExportCookieLapse
  refine KeptO.next ?_
  exact Kept.upd rfl rfl rfl rfl rfl rfl

theorem dropCookies_kept (f) (s : State) : Kept s (dropCookies f s) := by
  unfold dropCookies
  exact Kept.upd rfl rfl rfl rfl rfl rfl

end Sys2Proof.Machine
end

