-- ==== Sys2Proof/Laws/KeptControl.lean ====
section
/-!
SUPPORT. What every command but ALWAYS_ON_POWER_LOST keeps (`Kept`), operation by operation: the PCIe side, the controllers, the Duct, power, the mount, the modes, queues and monitors.
-/

namespace Sys2Proof.Machine

/-! ### Sys2Proof/Machine/Pcie.lean -/

/-! ### Sys2Proof/Machine/Ctrl.lean -/

theorem showBusy_kept (s : State) : Kept s (showBusy s) := by
  unfold showBusy
  extract_lets v1 v2 v3
  have h4 : Kept s v2 := setF_kept ..
  clear_value v2
  refine Kept.ite (fun _ => ?_) (fun _ => ?_)
  · assumption
  · refine Kept.trans ?_ (emit_kept ..)
    refine Kept.trans ?_ (Kept.upd rfl rfl rfl rfl rfl rfl)
    assumption

theorem showFn_kept (f) (s : State) : Kept s (showFn f s) := by
  unfold showFn
  refine Kept.trans ?_ (setF_kept ..)
  refine Kept.trans ?_ (setF_kept ..)
  exact setF_kept ..

theorem showFns_kept (s : State) : Kept s (showFns s) := by
  unfold showFns
  refine Kept.foldl (fun a x => ?_) ?_
  · exact showFn_kept ..
  · exact Kept.refl _

theorem controllerReset_kept (f) (s : State) : Kept s (controllerReset f s) := by
  unfold controllerReset
  extract_lets v1
  have h2 : Kept s v1 := by
    unfold v1
    refine Kept.trans ?_ (dropCookies_kept ..)
    refine Kept.trans ?_ (clearOwned_kept ..)
    refine Kept.trans ?_ (releaseGraphs_kept ..)
    refine Kept.trans ?_ (abandonCmds_kept ..)
    exact forgetReqs_kept ..
  clear_value v1
  refine Kept.trans ?_ (updFn_kept ..)
  assumption

theorem readyAll_kept (s : State) : Kept s (readyAll s) := by
  unfold readyAll
  refine Kept.foldl (fun a x => ?_) ?_
  · exact updFn_kept ..
  · exact Kept.refl _

theorem execCcEnSet_kept (fn ams mps asqBase asqSize acqBase acqSize) (s : State) :
    KeptO s (execCcEnSet fn ams mps asqBase asqSize acqBase acqSize s) := by
  unfold execCcEnSet
  extract_lets v1
  refine KeptO.next ?_
  refine Kept.ite (fun _ => ?_) (fun _ => ?_)
  · exact Kept.refl _
  · exact setFn_kept ..

theorem execCcEnClear_kept (frac fn) (s : State) : KeptO s (execCcEnClear frac fn s) := by
  unfold execCcEnClear
  extract_lets v1
  have h2 : Kept s v1 := atFrac_kept ..
  clear_value v1
  refine KeptO.next ?_
  refine Kept.ite (fun _ => ?_) (fun _ => ?_)
  · refine Kept.trans ?_ (controllerReset_kept ..)
    assumption
  · assumption

theorem execLinkTrained_kept (frac speed width reversed polarity fault) (s : State) :
    KeptO s (execLinkTrained frac speed width reversed polarity fault s) := by
  unfold execLinkTrained
  extract_lets v1 v2 v3 v4
  have h5 : Kept s v1 := atFrac_kept ..
  clear_value v1
  have h6 : Kept s v3 := by
    unfold v3
    refine Kept.trans ?_ (setF_kept ..)
    refine Kept.trans ?_ (setF_kept ..)
    refine Kept.trans ?_ (setF_kept ..)
    refine Kept.trans ?_ (setF_kept ..)
    refine Kept.trans ?_ (setF_kept ..)
    refine Kept.trans ?_ (setF_kept ..)
    refine Kept.trans ?_ (setF_kept ..)
    assumption
  clear_value v3
  have h7 : Kept s v4 := by
    unfold v4
    refine Kept.ite (fun _ => ?_) (fun _ => ?_)
    · refine Kept.trans ?_ (blot_kept ..)
      assumption
    · assumption
  clear_value v4
  refine KeptO.next ?_
  refine Kept.ite (fun _ => ?_) (fun _ => ?_)
  · assumption
  · refine Kept.foldl (fun a x => ?_) ?_
    · refine Kept.ite (fun _ => ?_) (fun _ => ?_)
      · exact controllerReset_kept ..
      · exact Kept.refl _
    · assumption

theorem linkLoss_kept (s : State) : Kept s (linkLoss s) := by
  unfold linkLoss
  extract_lets v1 v2
  have h3 : Kept s v1 := by
    unfold v1
    refine Kept.trans ?_ (setF_kept ..)
    refine Kept.trans ?_ (setF_kept ..)
    exact setF_kept ..
  clear_value v1
  have h4 : Kept s v2 := by
    unfold v2
    refine Kept.trans ?_ (abandonCmds_kept ..)
    assumption
  clear_value v2
  refine Kept.foldl (fun a x => ?_) ?_
  · exact updFn_kept ..
  · assumption

theorem execLinkDown_kept (frac) (s : State) : KeptO s (execLinkDown frac s) := by
  unfold execLinkDown
  extract_lets v1
  have h2 : Kept s v1 := atFrac_kept ..
  clear_value v1
  refine KeptO.next ?_
  refine Kept.ite (fun _ => ?_) (fun _ => ?_)
  · assumption
  · refine Kept.trans ?_ (linkLoss_kept ..)
    refine Kept.trans ?_ (blot_kept ..)
    refine Kept.trans ?_ (setF_kept ..)
    refine Kept.trans ?_ (incF_kept ..)
    assumption

theorem configReset_kept (s : State) : Kept s (configReset s) := by
  unfold configReset
  extract_lets v1
  have h2 : Kept s v1 := by
    unfold v1
    refine Kept.foldl (fun a x => ?_) ?_
    · refine Kept.ite (fun _ => ?_) (fun _ => ?_)
      · exact updFn_kept ..
      · exact Kept.refl _
    · exact Kept.refl _
  clear_value v1
  refine Kept.trans ?_ (Kept.upd rfl rfl rfl rfl rfl rfl)
  assumption

theorem execHotReset_kept (frac) (s : State) : KeptO s (execHotReset frac s) := by
  unfold execHotReset
  extract_lets v1
  have h2 : Kept s v1 := atFrac_kept ..
  clear_value v1
  refine KeptO.next ?_
  refine Kept.ite (fun _ => ?_) (fun _ => ?_)
  · assumption
  · refine Kept.trans ?_ (configReset_kept ..)
    refine Kept.trans ?_ (linkLoss_kept ..)
    refine Kept.trans ?_ (blot_kept ..)
    refine Kept.trans ?_ (setF_kept ..)
    assumption

theorem holdPerst_kept (s : State) : Kept s (holdPerst s) := by
  unfold holdPerst
  refine Kept.trans ?_ (configReset_kept ..)
  refine Kept.trans ?_ (linkLoss_kept ..)
  refine Kept.trans ?_ (setF_kept ..)
  exact Kept.upd rfl rfl rfl rfl rfl rfl

theorem execPerstAssert_kept (frac) (s : State) : KeptO s (execPerstAssert frac s) := by
  unfold execPerstAssert
  extract_lets v1 v2
  have h3 : Kept s v1 := atFrac_kept ..
  clear_value v1
  refine KeptO.next ?_
  split
  · refine Kept.trans ?_ (blot_kept ..)
    refine Kept.ite (fun _ => ?_) (fun _ => ?_)
    · assumption
    · refine Kept.trans ?_ (Kept.upd rfl rfl rfl rfl rfl rfl)
      assumption
  · refine Kept.ite (fun _ => ?_) (fun _ => ?_)
    · assumption
    · refine Kept.trans ?_ (holdPerst_kept ..)
      refine Kept.ite (fun _ => ?_) (fun _ => ?_)
      · assumption
      · refine Kept.trans ?_ (blot_kept ..)
        assumption

theorem execRetrain_kept (s : State) : KeptO s (execRetrain s) := by
  unfold execRetrain
  refine KeptO.next ?_
  refine Kept.ite (fun _ => ?_) (fun _ => ?_)
  · exact incF_kept ..
  · exact Kept.refl _

theorem execLinkAttnTimeout_kept (s : State) : KeptO s (execLinkAttnTimeout s) := by
  unfold execLinkAttnTimeout
  refine KeptO.next ?_
  refine Kept.ite (fun _ => ?_) (fun _ => ?_)
  · exact setF_kept ..
  · exact Kept.refl _

theorem execNoIrqTimeout_kept (s : State) : KeptO s (execNoIrqTimeout s) := by
  unfold execNoIrqTimeout
  refine KeptO.next ?_
  refine Kept.ite (fun _ => ?_) (fun _ => ?_)
  · exact setF_kept ..
  · exact Kept.refl _

theorem clearNoIrq_kept (s : State) : Kept s (clearNoIrq s) := by
  unfold clearNoIrq
  refine Kept.ite (fun _ => ?_) (fun _ => ?_)
  · exact Kept.refl _
  · exact setF_kept ..

theorem execAttentionBurst_kept (s : State) : KeptO s (execAttentionBurst s) := by
  unfold execAttentionBurst
  extract_lets v1 v2
  refine KeptO.next ?_
  refine Kept.ite (fun _ => ?_) (fun _ => ?_)
  · exact Kept.refl _
  · split
    · exact Kept.upd rfl rfl rfl rfl rfl rfl
    · refine Kept.trans ?_ (emit_kept ..)
      exact Kept.upd rfl rfl rfl rfl rfl rfl

theorem signalPending_kept (f) (s : State) : Kept s (signalPending f s) := by
  unfold signalPending
  extract_lets v1
  refine Kept.ite (fun _ => ?_) (fun _ => ?_)
  · exact Kept.refl _
  · refine Kept.trans ?_ (clearNoIrq_kept ..)
    refine Kept.foldl (fun a x => ?_) ?_
    · extract_lets v2
      refine Kept.ite (fun _ => ?_) (fun _ => ?_)
      · refine Kept.trans ?_ (emit_kept ..)
        exact updVec_kept ..
      · exact Kept.refl _
    · exact Kept.refl _

theorem execMsixUnmask_kept (fn w) (s : State) : KeptO s (execMsixUnmask fn w s) := by
  unfold execMsixUnmask
  refine KeptO.next ?_
  refine Kept.ite (fun _ => ?_) (fun _ => ?_)
  · exact Kept.refl _
  · refine Kept.trans ?_ (signalPending_kept ..)
    split
    · exact updFn_kept ..
    · refine Kept.ite (fun _ => ?_) (fun _ => ?_)
      · exact Kept.refl _
      · exact updVec_kept ..

theorem resumeFn_kept (f) (s : State) : Kept s (resumeFn f s) := by
  unfold resumeFn
  refine Kept.trans ?_ (resumeHeld_kept ..)
  refine Kept.trans ?_ (drainFn_kept ..)
  exact signalPending_kept ..

theorem execBusMasterEnable_kept (fn w) (s : State) : KeptO s (execBusMasterEnable fn w s) := by
  unfold execBusMasterEnable
  refine KeptO.next ?_
  refine Kept.ite (fun _ => ?_) (fun _ => ?_)
  · exact Kept.refl _
  · split
    · refine Kept.trans ?_ (resumeFn_kept ..)
      exact updFn_kept ..
    · exact updFn_kept ..

theorem execDStateChange_kept (fn d3) (s : State) : KeptO s (execDStateChange fn d3 s) := by
  unfold execDStateChange
  refine KeptO.next ?_
  refine Kept.ite (fun _ => ?_) (fun _ => ?_)
  · exact Kept.refl _
  · refine Kept.trans ?_ (resumeFn_kept ..)
    exact updFn_kept ..

theorem startFlr_kept (f after) (s : State) : Kept s (startFlr f after s) := by
  unfold startFlr
  refine Kept.ite (fun _ => ?_) (fun _ => ?_)
  · exact updFn_kept ..
  · extract_lets v1
    have h2 : Kept s v1 := by
      unfold v1
      refine Kept.trans ?_ (releaseGraphs_kept ..)
      refine Kept.trans ?_ (abandonCmds_kept ..)
      exact forgetReqs_kept ..
    clear_value v1
    refine Kept.trans ?_ (setF_kept ..)
    refine Kept.trans ?_ (updFn_kept ..)
    assumption

theorem execFlrInitiate_kept (frac fn) (s : State) : KeptO s (execFlrInitiate frac fn s) := by
  unfold execFlrInitiate
  extract_lets v1 v2 v3
  have h4 : Kept s v1 := atFrac_kept ..
  clear_value v1
  have h5 : Kept s v2 := by
    unfold v2
    refine Kept.trans ?_ (startFlr_kept ..)
    assumption
  clear_value v2
  have h6 : Kept s v3 := by
    unfold v3
    refine Kept.foldl (fun a x => ?_) ?_
    · exact startFlr_kept ..
    · assumption
  clear_value v3
  refine KeptO.next ?_
  refine Kept.ite (fun _ => ?_) (fun _ => ?_)
  · assumption
  · refine Kept.ite (fun _ => ?_) (fun _ => ?_)
    · refine Kept.trans ?_ (Kept.upd rfl rfl rfl rfl rfl rfl)
      assumption
    · refine Kept.trans ?_ (startFlr_kept ..)
      assumption

theorem takeOffline_kept (f returns) (s : State) : Kept s (takeOffline f returns s) := by
  unfold takeOffline
  refine Kept.trans ?_ (setF_kept ..)
  refine Kept.ite (fun _ => ?_) (fun _ => ?_)
  · exact updFn_kept ..
  · exact Kept.refl _

theorem commitFlr_kept (f) (s : State) : Kept s (commitFlr f s) := by
  unfold commitFlr
  extract_lets v1 v2 v3 v4 v5 v6
  have h7 : Kept s v2 := by
    unfold v2
    refine Kept.trans ?_ (updFn_kept ..)
    exact controllerReset_kept ..
  clear_value v2
  have h8 : Kept s v3 := by
    unfold v3
    refine Kept.trans ?_ (setF_kept ..)
    assumption
  clear_value v3
  have h9 : Kept s v4 := by
    unfold v4
    refine Kept.ite (fun _ => ?_) (fun _ => ?_)
    · assumption
    · refine Kept.trans ?_ (takeOffline_kept ..)
      assumption
  clear_value v4
  have h10 : Kept s v6 := by
    unfold v6
    refine Kept.trans ?_ (Kept.upd rfl rfl rfl rfl rfl rfl)
    assumption
  clear_value v6
  refine Kept.trans ?_ (showFn_kept ..)
  refine Kept.foldl (fun a x => ?_) ?_
  · exact complete_kept ..
  · assumption

theorem execFlrCommit_kept (s : State) : KeptO s (execFlrCommit s) := by
  unfold execFlrCommit
  refine KeptO.next ?_
  refine Kept.ite (fun _ => ?_) (fun _ => ?_)
  · exact Kept.refl _
  · refine Kept.foldl (fun a x => ?_) ?_
    · split
      · refine Kept.ite (fun _ => ?_) (fun _ => ?_)
        · exact commitFlr_kept ..
        · exact Kept.refl _
      · exact Kept.refl _
    · exact Kept.refl _

theorem execNumvfsWrite_kept (n) (s : State) : KeptO s (execNumvfsWrite n s) := by
  unfold execNumvfsWrite
  refine KeptO.next ?_
  refine Kept.ite (fun _ => ?_) (fun _ => ?_)
  · exact Kept.refl _
  · refine Kept.foldl (fun a x => ?_) ?_
    · exact startFlr_kept ..
    · exact Kept.upd rfl rfl rfl rfl rfl rfl

theorem doorbellError_kept (f info) (s : State) : Kept s (doorbellError f info s) := by
  unfold doorbellError
  exact raiseEvent_kept ..

/-! ### Sys2Proof/Machine/Setup.lean -/

theorem guardedWrite_kept (off v) (s : State) : Kept s (guardedWrite off v s) := by
  unfold guardedWrite
  extract_lets v1 v2 v3 v4 v5
  have h6 : Kept s v3 := plainWrite_kept ..
  clear_value v3
  have h7 : Kept s v5 := by
    unfold v5
    refine Kept.ite (fun _ => ?_) (fun _ => ?_)
    · refine Kept.trans ?_ (setF_kept ..)
      assumption
    · assumption
  clear_value v5
  refine Kept.ite (fun _ => ?_) (fun _ => ?_)
  · assumption
  · refine Kept.trans ?_ (cfgErr_kept ..)
    assumption

theorem loadField_kept (off v bad) (s : State) (e) : Kept s (loadField off v bad s e) := by
  unfold loadField
  extract_lets v1 v2 v3
  refine Kept.ite (fun _ => ?_) (fun _ => ?_)
  · exact Kept.refl _
  · refine Kept.ite (fun _ => ?_) (fun _ => ?_)
    · exact setF_kept ..
    · refine Kept.trans ?_ (blot_kept ..)
      exact setF_kept ..

theorem loadDword_kept (s : State) (e) : Kept s (loadDword s e) := by
  unfold loadDword
  extract_lets v1
  refine Kept.foldl (fun a x => ?_) ?_
  · exact loadField_kept ..
  · exact Kept.refl _

theorem loadSettings_kept (s : State) : Kept s (loadSettings s) := by
  unfold loadSettings
  split
  · refine Kept.trans ?_ (setF_kept ..)
    refine Kept.trans ?_ (setF_kept ..)
    exact Kept.upd rfl rfl rfl rfl rfl rfl
  · extract_lets v1 v2 v3
    have h4 : Kept s v2 := by
      unfold v2
      refine Kept.trans ?_ (setF_kept ..)
      refine Kept.trans ?_ (setF_kept ..)
      refine Kept.trans ?_ (setF_kept ..)
      exact Kept.upd rfl rfl rfl rfl rfl rfl
    clear_value v2
    refine Kept.ite (fun _ => ?_) (fun _ => ?_)
    · refine Kept.trans ?_ (blot_kept ..)
      refine Kept.foldl (fun a x => ?_) ?_
      · exact loadDword_kept ..
      · refine Kept.trans ?_ (Kept.upd rfl rfl rfl rfl rfl rfl)
        assumption
    · refine Kept.foldl (fun a x => ?_) ?_
      · exact loadDword_kept ..
      · assumption

theorem resetRegs_kept (s : State) : Kept s (resetRegs s) := by
  unfold resetRegs
  refine Kept.trans ?_ (loadSettings_kept _)
  exact ⟨fun h => sparseWf_filter _ _ _ h, id, id, id, Nat.le_refl _, List.prefix_refl _, List.prefix_refl _, rfl⟩

theorem dropQosDword_kept (off) (s : State) : Kept s (dropQosDword off s) := by
  unfold dropQosDword
  refine Kept.foldl (fun a x => ?_) ?_
  · exact loadField_kept ..
  · exact Kept.refl _

theorem checkQosEntry_kept (s : State) (f) : Kept s (checkQosEntry s f) := by
  unfold checkQosEntry
  extract_lets v1
  refine Kept.ite (fun _ => ?_) (fun _ => ?_)
  · exact Kept.refl _
  · refine Kept.trans ?_ (dropQosDword_kept ..)
    exact dropQosDword_kept ..

theorem checkQos_kept (s : State) : Kept s (checkQos s) := by
  unfold checkQos
  refine Kept.foldl (fun a x => ?_) ?_
  · exact checkQosEntry_kept ..
  · exact Kept.refl _

theorem firmwareBoot_kept (s : State) : Kept s (firmwareBoot s) := by
  unfold firmwareBoot
  extract_lets v1 v2
  have h3 : Kept s v1 := by
    unfold v1
    refine Kept.trans ?_ (setF_kept ..)
    refine Kept.trans ?_ (setF_kept ..)
    exact setF_kept ..
  clear_value v1
  refine Kept.ite (fun _ => ?_) (fun _ => ?_)
  · assumption
  · refine Kept.foldl (fun a x => ?_) ?_
    · exact setF_kept ..
    · refine Kept.trans ?_ (setF_kept ..)
      refine Kept.trans ?_ (setF_kept ..)
      assumption

/-! ### Sys2Proof/Machine/Duct.lean -/

theorem loadGraph_kept (fn m) (s : State) : Kept s (loadGraph fn m s).2 := by
  unfold loadGraph
  dsimp only
  refine Kept.snd_ite (fun _ => ?_) (fun _ => ?_)
  · dsimp only
    exact Kept.refl _
  · split
    · dsimp only
      exact loadRefused_kept ..
    · refine Kept.snd_ite (fun _ => ?_) (fun _ => ?_)
      · dsimp only
        exact loadRefused_kept ..
      · refine Kept.snd_ite (fun _ => ?_) (fun _ => ?_)
        · dsimp only
          exact loadRefused_kept ..
        · dsimp only
          refine Kept.trans ?_ (showDuct_kept ..)
          exact Kept.upd rfl rfl rfl rfl rfl rfl

theorem showCore_kept (k st h n run img) (s : State) : Kept s (showCore k st h n run img s) := by
  unfold showCore
  refine Kept.trans ?_ (setF_kept ..)
  refine Kept.trans ?_ (setF_kept ..)
  refine Kept.trans ?_ (setF_kept ..)
  refine Kept.trans ?_ (setF_kept ..)
  refine Kept.trans ?_ (setF_kept ..)
  exact setF_kept ..

theorem placeNode_kept (h n k g r d x) (s : State) : Kept s (placeNode h n k g r d x s) := by
  unfold placeNode
  extract_lets v1 v2 v3
  refine Kept.trans ?_ (updNode_kept ..)
  refine Kept.trans ?_ (showCore_kept ..)
  exact setCore_kept ..

theorem joinJob_kept (h n d) (s : State) : Kept s (joinJob h n d s) := by
  unfold joinJob
  refine Kept.ite (fun _ => ?_) (fun _ => ?_)
  · exact Kept.upd rfl rfl rfl rfl rfl rfl
  · split
    · exact joinEng_kept ..
    · exact Kept.refl _

theorem nodeDispatch_kept (graph node core) (s : State) : Kept s (nodeDispatch graph node core s) := by
  unfold nodeDispatch
  split
  · split
    · exact Kept.refl _
    · refine Kept.ite (fun _ => ?_) (fun _ => ?_)
      · exact Kept.refl _
      · extract_lets v1 v2 v3
        have h4 : Kept s v2 := Kept.upd rfl rfl rfl rfl rfl rfl
        clear_value v2
        refine Kept.ite (fun _ => ?_) (fun _ => ?_)
        · refine Kept.ite (fun _ => ?_) (fun _ => ?_)
          · refine Kept.trans ?_ (showDuct_kept ..)
            refine Kept.trans ?_ (placeNode_kept ..)
            assumption
          · exact Kept.refl _
        · split
          · refine Kept.trans ?_ (showDuct_kept ..)
            refine Kept.trans ?_ (jobFail_kept ..)
            assumption
          · refine Kept.trans ?_ (showDuct_kept ..)
            refine Kept.trans ?_ (startMedia_kept ..)
            refine Kept.trans ?_ (streamOut_kept ..)
            refine Kept.trans ?_ (joinJob_kept ..)
            refine Kept.trans ?_ (updNode_kept ..)
            refine Kept.trans ?_ (updRun_kept ..)
            assumption
  · exact Kept.refl _

theorem saveNode_kept (k slot) (s : State) : Kept s (saveNode k slot s) := by
  unfold saveNode
  extract_lets v1 v2 v3 v4 v5 v6 v7
  have h8 : Kept s v3 := by
    unfold v3
    refine Kept.trans ?_ (payCore_kept ..)
    exact chargeCore_kept ..
  clear_value v3
  have h9 : Kept s v6 := by
    unfold v6
    refine Kept.trans ?_ (freeCore_kept ..)
    assumption
  clear_value v6
  refine Kept.trans ?_ (showDuct_kept ..)
  refine Kept.trans ?_ (updNode_kept ..)
  refine Kept.trans ?_ (Kept.upd rfl rfl rfl rfl rfl rfl)
  assumption

theorem deliverEvents_kept (k) (s : State) : Kept s (deliverEvents k s) := by
  unfold deliverEvents
  extract_lets v1 v2
  have h3 : Kept s v2 := takeInterrupt_kept ..
  clear_value v2
  refine Kept.ite (fun _ => ?_) (fun _ => ?_)
  · exact Kept.refl _
  · refine Kept.ite (fun _ => ?_) (fun _ => ?_)
    · refine Kept.trans ?_ (incF_kept ..)
      refine Kept.trans ?_ (saveNode_kept ..)
      assumption
    · assumption

theorem execNibInterrupt_kept (frac core) (s : State) : KeptO s (execNibInterrupt frac core s) := by
  unfold execNibInterrupt
  extract_lets v1
  have h2 : Kept s v1 := atFrac_kept ..
  clear_value v1
  refine KeptO.next ?_
  refine Kept.ite (fun _ => ?_) (fun _ => ?_)
  · refine Kept.trans ?_ (deliverEvents_kept ..)
    assumption
  · assumption

theorem execNodePreempt_kept (frac core) (s : State) : KeptO s (execNodePreempt frac core s) := by
  unfold execNodePreempt
  extract_lets v1 v2
  have h3 : Kept s v1 := by
    unfold v1
    refine Kept.trans ?_ (chargeCores_kept ..)
    exact atFrac_kept ..
  clear_value v1
  refine KeptO.next ?_
  refine Kept.ite (fun _ => ?_) (fun _ => ?_)
  · refine Kept.trans ?_ (deliverEvents_kept ..)
    refine Kept.trans ?_ (setCore_kept ..)
    assumption
  · assumption

theorem execNibMachineCheck_kept (frac core) (s : State) : KeptO s (execNibMachineCheck frac core s) := by
  unfold execNibMachineCheck
  extract_lets v1 v2 v3 v4 v5
  have h6 : Kept s v1 := atFrac_kept ..
  clear_value v1
  have h7 : Kept s v4 := by
    unfold v4
    refine Kept.trans ?_ (blot_kept ..)
    assumption
  clear_value v4
  have h8 : Kept s v5 := by
    unfold v5
    refine Kept.ite (fun _ => ?_) (fun _ => ?_)
    · refine Kept.trans ?_ (nibStop_kept ..)
      assumption
    · assumption
  clear_value v5
  refine KeptO.next ?_
  refine Kept.ite (fun _ => ?_) (fun _ => ?_)
  · assumption
  · refine Kept.trans ?_ (setF_kept ..)
    assumption

theorem saveAllNodes_kept (s : State) : Kept s (saveAllNodes s) := by
  unfold saveAllNodes
  refine Kept.foldl (fun a x => ?_) ?_
  · refine Kept.ite (fun _ => ?_) (fun _ => ?_)
    · refine Kept.trans ?_ (saveNode_kept ..)
      exact setCore_kept ..
    · exact Kept.refl _
  · exact Kept.refl _

theorem execNodeWaitTimeout_kept (graph node) (s : State) : KeptO s (execNodeWaitTimeout graph node s) := by
  unfold execNodeWaitTimeout
  refine KeptO.next ?_
  split
  · split
    · exact Kept.refl _
    · extract_lets v1
      refine Kept.ite (fun _ => ?_) (fun _ => ?_)
      · refine Kept.trans ?_ (incF_kept ..)
        exact failNode_kept ..
      · exact Kept.refl _
  · exact Kept.refl _

theorem countWaits_kept (s : State) : Kept s (countWaits s) := by
  unfold countWaits
  split
  · exact Kept.refl _
  · exact Kept.refl _
  · exact Kept.refl _
  · exact Kept.upd rfl rfl rfl rfl rfl rfl

theorem tickNodes_kept (s : State) : Kept s (tickNodes s) := by
  unfold tickNodes
  refine Kept.foldl (fun a x => ?_) ?_
  · split
    · exact Kept.refl _
    · refine Kept.foldl (fun a x => ?_) ?_
      · refine Kept.ite (fun _ => ?_) (fun _ => ?_)
        · split
          · refine Kept.trans ?_ (deliverEvents_kept ..)
            refine Kept.trans ?_ (wakeCore_kept ..)
            exact setCore_kept ..
          · exact updNode_kept ..
        · exact Kept.refl _
      · exact Kept.refl _
  · exact Kept.refl _

theorem applyStart_kept (t) (s : State) : Kept s (applyStart t s) := by
  unfold applyStart
  split
  · exact Kept.refl _
  · extract_lets v1 v2 v3 v4
    have h5 : Kept s v3 := updGraph_kept ..
    clear_value v3
    refine Kept.trans ?_ (complete_kept ..)
    refine Kept.trans ?_ (showDuct_kept ..)
    refine Kept.foldl (fun a x => ?_) ?_
    · exact makeReady_kept ..
    · assumption

theorem applyStarts_kept (s : State) : Kept s (applyStarts s) := by
  unfold applyStarts
  extract_lets v1 v2
  refine Kept.foldl (fun a x => ?_) ?_
  · exact applyStart_kept ..
  · exact Kept.upd rfl rfl rfl rfl rfl rfl

theorem setCores_kept (s : State) : Kept s (setCores s) := by
  unfold setCores
  refine Kept.foldl (fun a x => ?_) ?_
  · extract_lets v1 v2
    refine Kept.ite (fun _ => ?_) (fun _ => ?_)
    · exact setF_kept ..
    · refine Kept.ite (fun _ => ?_) (fun _ => ?_)
      · exact setF_kept ..
      · exact Kept.refl _
  · exact Kept.refl _

theorem ductGrants_kept (s : State) : Kept s (ductGrants s) := by
  unfold ductGrants
  extract_lets v1 v2 v3 v4 v5
  have h6 : Kept s v5 := by
    unfold v5
    refine Kept.trans ?_ (setF_kept ..)
    exact setF_kept ..
  clear_value v5
  refine Kept.foldl (fun a x => ?_) ?_
  · extract_lets v7 v8
    exact updRun_kept ..
  · assumption

theorem allotEng_kept (scale e) (s : State) : Kept s (allotEng scale e s) := by
  unfold allotEng
  extract_lets v1 v2 v3 v4 v5 v6 v7
  refine Kept.trans ?_ (fillEng_kept ..)
  exact setEng_kept ..

theorem allotEngines_kept (scale) (s : State) : Kept s (allotEngines scale s) := by
  unfold allotEngines
  refine Kept.foldl (fun a x => ?_) ?_
  · exact allotEng_kept ..
  · exact Kept.refl _

theorem ductBoundary_kept (s : State) : Kept s (ductBoundary s) := by
  unfold ductBoundary
  refine Kept.trans ?_ (tickNodes_kept ..)
  refine Kept.trans ?_ (ductGrants_kept ..)
  refine Kept.trans ?_ (applyStarts_kept ..)
  refine Kept.trans ?_ (countWaits_kept ..)
  refine Kept.trans ?_ (setCores_kept ..)
  exact chargeCores_kept ..

/-! ### Sys2Proof/Machine/Power.lean -/

theorem showClocks_kept (s : State) : Kept s (showClocks s) := by
  unfold showClocks
  split
  · exact Kept.refl _
  · exact Kept.refl _
  · exact Kept.refl _
  · extract_lets v1
    have h2 : Kept s v1 := by
      unfold v1
      refine Kept.foldl (fun a x => ?_) ?_
      · extract_lets v3
        refine Kept.trans ?_ (setF_kept ..)
        exact setF_kept ..
      · exact Kept.refl _
    clear_value v1
    refine Kept.trans ?_ (setFabricKhz_kept ..)
    assumption

theorem maskMonitors_kept (r) (s : State) : Kept s (maskMonitors r s) := by
  unfold maskMonitors
  refine Kept.foldl (fun a x => ?_) ?_
  · exact setF_kept ..
  · exact Kept.refl _

theorem setReqs_kept (r) (s : State) : Kept s (setReqs r s) := by
  unfold setReqs
  extract_lets v1 v2 v3
  have h4 : Kept s v2 := by
    unfold v2
    refine Kept.foldl (fun a x => ?_) ?_
    · refine Kept.ite (fun _ => ?_) (fun _ => ?_)
      · exact Kept.refl _
      · exact emit_kept ..
    · exact Kept.refl _
  clear_value v2
  refine Kept.trans ?_ (maskMonitors_kept ..)
  refine Kept.trans ?_ (Kept.upd rfl rfl rfl rfl rfl rfl)
  assumption

theorem enterModeWith_kept (reqs m) (s : State) : Kept s (enterModeWith reqs m s) := by
  unfold enterModeWith
  extract_lets v1 v2 v3
  have h4 : Kept s v2 := Kept.upd rfl rfl rfl rfl rfl rfl
  clear_value v2
  have h5 : Kept s v3 := by
    unfold v3
    refine Kept.ite (fun _ => ?_) (fun _ => ?_)
    · refine Kept.trans ?_ (setF_kept ..)
      assumption
    · assumption
  clear_value v3
  refine Kept.trans ?_ (showClocks_kept ..)
  refine Kept.trans ?_ (showBusy_kept ..)
  refine Kept.trans ?_ (setPorts_kept ..)
  refine Kept.trans ?_ (setCores_kept ..)
  refine Kept.trans ?_ (setReqs_kept ..)
  assumption

theorem enterMode_kept (m) (s : State) : Kept s (enterMode m s) := by
  unfold enterMode
  exact enterModeWith_kept ..

theorem spanRec_kept (s : State) : Kept s (spanRec s) := by
  unfold spanRec
  exact anchorRec_kept ..

theorem setCause_kept (c) (s : State) : Kept s (setCause c s) := by
  unfold setCause
  exact setF_kept ..

theorem sealOut_kept (e) (s : State) : Kept s (sealOut e s) := by
  unfold sealOut
  extract_lets v1
  refine Kept.ite (fun _ => ?_) (fun _ => ?_)
  · exact emit_kept ..
  · refine Kept.ite (fun _ => ?_) (fun _ => ?_)
    · exact emit_kept ..
    · exact Kept.refl _

theorem stopCompute_kept (s : State) : Kept s (stopCompute s) := by
  unfold stopCompute
  refine Kept.trans ?_ (feedAbort_kept ..)
  refine Kept.trans ?_ (clearSlot_kept ..)
  exact releaseAllGraphs_kept ..

theorem enterSeal_kept (source rail cause boot) (s : State) : Kept s (enterSeal source rail cause boot s) := by
  unfold enterSeal
  extract_lets v1 v2 v3 v4 v5 v6 v7 v8 v9 v10 v11 v12 v13 v14 v15
  have h16 : Kept s v2 := blot_kept ..
  clear_value v2
  have h17 : Kept s v6 := by
    unfold v6
    refine Kept.trans ?_ (Kept.upd rfl rfl rfl rfl rfl rfl)
    assumption
  clear_value v6
  have h18 : Kept s v7 := by
    unfold v7
    refine Kept.trans ?_ (abandonCmds_kept ..)
    assumption
  clear_value v7
  have h19 : Kept s v8 := by
    unfold v8
    refine Kept.trans ?_ (enterMode_kept ..)
    assumption
  clear_value v8
  have h20 : Kept s v9 := by
    unfold v9
    refine Kept.ite (fun _ => ?_) (fun _ => ?_)
    · refine Kept.trans ?_ (spanRec_kept ..)
      refine Kept.trans ?_ (openNow_kept ..)
      assumption
    · assumption
  clear_value v9
  have h21 : Kept s v10 := by
    unfold v10
    refine Kept.trans ?_ (modeRec_kept ..)
    refine Kept.trans ?_ (setCause_kept ..)
    assumption
  clear_value v10
  have h22 : Kept s v11 := by
    unfold v11
    refine Kept.trans ?_ (inkSeal_kept ..)
    refine Kept.trans ?_ (stopCompute_kept ..)
    refine Kept.trans ?_ (journalFlush_kept ..)
    refine Kept.trans ?_ (flushTails_kept ..)
    refine Kept.trans ?_ (layAll_kept ..)
    assumption
  clear_value v11
  have h23 : Kept s v13 := by
    unfold v13
    refine Kept.trans ?_ (closeStroke_kept ..)
    refine Kept.foldl (fun a x => ?_) ?_
    · exact sealOut_kept ..
    · refine Kept.trans ?_ (Kept.upd rfl rfl rfl rfl rfl rfl)
      assumption
  clear_value v13
  refine Kept.trans ?_ (Kept.upd rfl rfl rfl rfl rfl rfl)
  assumption

theorem trip_kept (source rail cause boot) (s : State) : Kept s (trip source rail cause boot s) := by
  unfold trip
  split
  · exact Kept.refl _
  · exact Kept.refl _
  · exact Kept.refl _
  · exact Kept.upd rfl rfl rfl rfl rfl rfl
  · refine Kept.ite (fun _ => ?_) (fun _ => ?_)
    · exact enterSeal_kept ..
    · exact Kept.refl _
  · exact enterSeal_kept ..

theorem execPfailTrip_kept (frac) (s : State) : KeptO s (execPfailTrip frac s) := by
  unfold execPfailTrip
  refine KeptO.next ?_
  refine Kept.trans ?_ (trip_kept ..)
  refine Kept.trans ?_ (setF_kept ..)
  exact atFrac_kept ..

theorem execPfailGlitch_kept (frac width) (s : State) : KeptO s (execPfailGlitch frac width s) := by
  unfold execPfailGlitch
  extract_lets v1
  have h2 : Kept s v1 := atFrac_kept ..
  clear_value v1
  refine KeptO.next ?_
  refine Kept.ite (fun _ => ?_) (fun _ => ?_)
  · refine Kept.trans ?_ (blot_kept ..)
    assumption
  · assumption

theorem execHoldSenseTrip_kept (frac mv) (s : State) : KeptO s (execHoldSenseTrip frac mv s) := by
  unfold execHoldSenseTrip
  extract_lets v1
  have h2 : Kept s v1 := by
    unfold v1
    refine Kept.trans ?_ (setF_kept ..)
    exact atFrac_kept ..
  clear_value v1
  refine KeptO.next ?_
  refine Kept.ite (fun _ => ?_) (fun _ => ?_)
  · refine Kept.trans ?_ (trip_kept ..)
    assumption
  · assumption

theorem execRailUndervoltage_kept (frac mon mv) (s : State) : KeptO s (execRailUndervoltage frac mon mv s) := by
  unfold execRailUndervoltage
  extract_lets v1
  have h2 : Kept s v1 := atFrac_kept ..
  clear_value v1
  refine KeptO.next ?_
  refine Kept.ite (fun _ => ?_) (fun _ => ?_)
  · assumption
  · refine Kept.trans ?_ (trip_kept ..)
    assumption

theorem execDieLinkFail_kept (frac) (s : State) : KeptO s (execDieLinkFail frac s) := by
  unfold execDieLinkFail
  refine KeptO.next ?_
  refine Kept.trans ?_ (trip_kept ..)
  refine Kept.trans ?_ (blot_kept ..)
  exact atFrac_kept ..

theorem execHoldArmChange_kept (frac mv) (s : State) : KeptO s (execHoldArmChange frac mv s) := by
  unfold execHoldArmChange
  extract_lets v1 v2
  have h3 : Kept s v1 := by
    unfold v1
    refine Kept.trans ?_ (setF_kept ..)
    exact atFrac_kept ..
  clear_value v1
  refine KeptO.next ?_
  refine Kept.ite (fun _ => ?_) (fun _ => ?_)
  · refine Kept.trans ?_ (setF_kept ..)
    assumption
  · refine Kept.trans ?_ (resumeHeld_kept ..)
    refine Kept.trans ?_ (blot_kept ..)
    refine Kept.trans ?_ (setF_kept ..)
    assumption

theorem execSealInflightDeadline_kept (s : State) : KeptO s (execSealInflightDeadline s) := by
  unfold execSealInflightDeadline
  refine KeptO.next ?_
  refine Kept.ite (fun _ => ?_) (fun _ => ?_)
  · exact Kept.refl _
  · refine Kept.foldl (fun a x => ?_) ?_
    · refine Kept.ite (fun _ => ?_) (fun _ => ?_)
      · exact emit_kept ..
      · exact Kept.refl _
    · exact Kept.upd rfl rfl rfl rfl rfl rfl

theorem sealCommit_kept (fuel : Nat) (s : State) : Kept s (sealCommit fuel s) := by
  induction fuel generalizing s with
  | zero => exact Kept.refl s
  | succ k ih =>
    unfold sealCommit
    refine Kept.ite (fun _ => ?_) (fun _ => ?_)
    · exact Kept.refl _
    · refine Kept.trans ?_ (ih _)
      exact pounce_kept ..

theorem bootMtu_kept (s : State) : Kept s (bootMtu s) := by
  unfold bootMtu
  refine Kept.ite (fun _ => ?_) (fun _ => ?_)
  · exact Kept.refl _
  · exact Kept.upd rfl rfl rfl rfl rfl rfl

theorem selfTestHalf_kept (failed bit_) (s : State) : Kept s (selfTestHalf failed bit_ s) := by
  unfold selfTestHalf
  refine Kept.ite (fun _ => ?_) (fun _ => ?_)
  · exact Kept.refl _
  · extract_lets v1
    have h2 : Kept s v1.2 := takeFree_kept ..
    clear_value v1
    refine Kept.ite (fun _ => ?_) (fun _ => ?_)
    · assumption
    · refine Kept.trans ?_ (setF_kept ..)
      refine Kept.trans ?_ (setF_kept ..)
      assumption

theorem reboot_kept (stage cause modeCause) (s0 : State) : Kept s0 (reboot stage cause modeCause s0) := by
  unfold reboot
  extract_lets v1 v2 v3 v4 v5 v6 v7 v8 v9 v10 v11 v12 v13 v14 v15 v16 v17 v18 v19
  have h20 : Kept s0 v1 := by
    unfold v1
    refine Kept.trans ?_ (inkDrop_kept ..)
    refine Kept.trans ?_ (modeRec_kept ..)
    exact setCause_kept ..
  clear_value v1
  have h21 : Kept s0 v11 := by
    unfold v11
    refine Kept.trans ?_ (Kept.upd rfl rfl rfl rfl rfl rfl)
    assumption
  clear_value v11
  have h22 : Kept s0 v12 := by
    unfold v12
    refine Kept.trans ?_ (firmwareBoot_kept ..)
    refine Kept.trans ?_ (resetRegs_kept ..)
    assumption
  clear_value v12
  have h23 : Kept s0 v14 := by
    unfold v14
    refine Kept.trans ?_ (Kept.upd rfl rfl rfl rfl rfl rfl)
    assumption
  clear_value v14
  have h24 : Kept s0 v15 := by
    unfold v15
    refine Kept.trans ?_ (setF_kept ..)
    refine Kept.trans ?_ (setF_kept ..)
    refine Kept.trans ?_ (setF_kept ..)
    refine Kept.trans ?_ (setF_kept ..)
    refine Kept.trans ?_ (setF_kept ..)
    assumption
  clear_value v15
  have h25 : Kept s0 v18 := by
    unfold v18
    refine Kept.trans ?_ (enterModeWith_kept ..)
    refine Kept.trans ?_ (Kept.upd rfl rfl rfl rfl rfl rfl)
    assumption
  clear_value v18
  refine Kept.trans ?_ (selfTestHalf_kept ..)
  refine Kept.trans ?_ (selfTestHalf_kept ..)
  refine Kept.trans ?_ (showFlows_kept ..)
  refine Kept.trans ?_ (showHolds_kept ..)
  refine Kept.trans ?_ (showInk_kept ..)
  refine Kept.trans ?_ (showImport_kept ..)
  refine Kept.trans ?_ (showKey_kept ..)
  refine Kept.trans ?_ (bootMtu_kept ..)
  assumption

theorem sealPrograms_kept (slots) (s : State) : Kept s (sealPrograms slots s) := by
  unfold sealPrograms
  extract_lets v1
  have h2 : Kept s v1 := by
    unfold v1
    refine Kept.foldl (fun a x => ?_) ?_
    · exact emit_kept ..
    · exact Kept.refl _
  clear_value v1
  refine Kept.foldl (fun a x => ?_) ?_
  · exact emit_kept ..
  · assumption

theorem sealLog_kept (s : State) (b : Bool) (n : Nat) : Kept s { s with mon := { s.mon with sealLog := if b then some (s.mon.blots.take 512, n) else none } } := by
  refine ⟨id, id, id, ?_, Nat.le_refl _, List.prefix_refl _, List.prefix_refl _, rfl⟩
  intro h
  refine ⟨h.1, ?_⟩
  intro e he
  cases b <;> simp at he
  subst he; simp

theorem sealLand_kept (a b : Bool) (s : State) : Kept s (sealLand a b s) := by
  unfold sealLand
  extract_lets slots sum
  refine Kept.trans ?_ (setF_kept ..)
  refine Kept.trans ?_ (sealPrograms_kept ..)
  exact (sealLog_kept s b (getF s LOG_NEXT_SEQ)).trans (Kept.upd rfl rfl rfl rfl rfl rfl)

theorem execSealEnd_kept (frac clear summaryOk snapshotOk) (s : State) :
    KeptO s (execSealEnd frac clear summaryOk snapshotOk s) := by
  unfold execSealEnd
  extract_lets v1 v2 v3 v4
  have h5 : Kept s v1 := atFrac_kept ..
  clear_value v1
  have h6 : Kept s v2 := by
    unfold v2
    refine Kept.trans ?_ (sealLand_kept ..)
    refine Kept.trans ?_ (signPending_kept ..)
    refine Kept.trans ?_ (fixFlourish_kept ..)
    refine Kept.trans ?_ (sealCommit_kept ..)
    assumption
  clear_value v2
  have h7 : Kept s v4 := by
    unfold v4
    refine Kept.ite (fun _ => ?_) (fun _ => ?_)
    · refine Kept.trans ?_ (reboot_kept ..)
      refine Kept.trans ?_ (setF_kept ..)
      assumption
    · refine Kept.trans ?_ (enterMode_kept ..)
      refine Kept.trans ?_ (Kept.upd rfl rfl rfl rfl rfl rfl)
      assumption
  clear_value v4
  refine KeptO.next ?_
  refine Kept.ite (fun _ => ?_) (fun _ => ?_)
  · assumption
  · refine Kept.ite (fun _ => ?_) (fun _ => ?_)
    · refine Kept.trans ?_ (holdPerst_kept ..)
      assumption
    · assumption

theorem restoreLog_kept (s : State) : Kept s (restoreLog s) := by
  unfold restoreLog
  apply Kept.ite
  · intro _; exact Kept.refl s
  · intro _
    split
    · rename_i bs next heq
      refine Kept.trans ?_ (blot_kept _ _ _ _ _)
      refine Kept.trans ?_ ((setF_kept _ _ _).trans ((setF_kept _ _ _).trans (setF_kept _ _ _)))
      refine ⟨id, id, id, ?_, Nat.le_refl _, List.prefix_refl _, List.prefix_refl _, rfl⟩
      intro h; refine ⟨?_, h.2⟩; have := h.2 _ heq; simp at this ⊢; omega
    · refine Kept.trans ?_ (blot_kept _ _ _ _ _)
      exact ⟨id, id, id, fun h => ⟨by simp, h.2⟩, Nat.le_refl _, List.prefix_refl _, List.prefix_refl _, rfl⟩

theorem execAlwaysOnPowerApplied_kept (s : State) : KeptO s (execAlwaysOnPowerApplied s) := by
  unfold execAlwaysOnPowerApplied
  refine KeptO.next ?_
  refine Kept.ite (fun _ => ?_) (fun _ => ?_)
  · exact Kept.refl _
  · refine Kept.trans ?_ (setF_kept ..)
    exact reboot_kept ..

theorem execAlwaysOnResetEnd_kept (s : State) : KeptO s (execAlwaysOnResetEnd s) := by
  unfold execAlwaysOnResetEnd
  refine KeptO.next ?_
  refine Kept.ite (fun _ => ?_) (fun _ => ?_)
  · exact Kept.refl _
  · refine Kept.trans ?_ (setReqs_kept ..)
    refine Kept.trans ?_ (restoreLog_kept ..)
    exact Kept.upd rfl rfl rfl rfl rfl rfl

theorem execComputeRailsGood_kept (s : State) : KeptO s (execComputeRailsGood s) := by
  unfold execComputeRailsGood
  refine KeptO.next ?_
  refine Kept.ite (fun _ => ?_) (fun _ => ?_)
  · exact Kept.refl _
  · refine Kept.trans ?_ (setReqs_kept ..)
    exact Kept.upd rfl rfl rfl rfl rfl rfl

theorem execPowerUpTimeout_kept (s : State) : KeptO s (execPowerUpTimeout s) := by
  unfold execPowerUpTimeout
  refine KeptO.next ?_
  refine Kept.ite (fun _ => ?_) (fun _ => ?_)
  · exact Kept.refl _
  · refine Kept.trans ?_ (enterMode_kept ..)
    exact Kept.upd rfl rfl rfl rfl rfl rfl

/-! ### Sys2Proof/Machine/Mount.lean -/

theorem enterSafe_kept (cause) (s : State) : Kept s (enterSafe cause s) := by
  unfold enterSafe
  extract_lets v1 v2
  have h3 : Kept s v1 := by
    unfold v1
    refine Kept.trans ?_ (modeRec_kept ..)
    exact setCause_kept ..
  clear_value v1
  refine Kept.trans ?_ (setCapacity_kept ..)
  refine Kept.trans ?_ (readyAll_kept ..)
  refine Kept.trans ?_ (enterMode_kept ..)
  refine Kept.trans ?_ (Kept.upd rfl rfl rfl rfl rfl rfl)
  assumption

theorem putDie_kept (d x) (s : State) : Kept s (putDie d x s) := by
  unfold putDie
  exact Kept.upd rfl rfl rfl rfl rfl rfl

theorem leaveBand_kept (d) (s : State) (e) : Kept s (leaveBand d s e) := by
  unfold leaveBand
  extract_lets v1 v2 v3 v4 v5
  refine Kept.ite (fun _ => ?_) (fun _ => ?_)
  · exact Kept.refl _
  · exact Kept.upd rfl rfl rfl rfl rfl rfl

theorem clearDie_kept (d) (s : State) : Kept s (clearDie d s) := by
  unfold clearDie
  extract_lets v1
  have h2 : Kept s v1 := by
    unfold v1
    refine Kept.foldl (fun a x => ?_) ?_
    · exact leaveBand_kept ..
    · exact Kept.refl _
  clear_value v1
  refine Kept.trans ?_ (putDie_kept ..)
  assumption

theorem bringUpDie_kept (u faults old cleared) (s : State) (i) : Kept s (bringUpDie u faults old cleared s i) := by
  unfold bringUpDie
  extract_lets v1 v2
  split
  · refine Kept.ite (fun _ => ?_) (fun _ => ?_)
    · exact putDie_kept ..
    · refine Kept.trans ?_ (isolateDie_kept ..)
      exact putDie_kept ..
  · refine Kept.ite (fun _ => ?_) (fun _ => ?_)
    · exact putDie_kept ..
    · refine Kept.ite (fun _ => ?_) (fun _ => ?_)
      · exact putDie_kept ..
      · refine Kept.ite (fun _ => ?_) (fun _ => ?_)
        · exact clearDie_kept ..
        · exact putDie_kept ..

theorem bringUpOps_kept (c proto rate u) (s : State) : Kept s (bringUpOps c proto rate u s) := by
  unfold bringUpOps
  extract_lets v1 v2
  have h3 : Kept s v1 := by
    unfold v1
    refine Kept.foldl (fun a x => ?_) ?_
    · exact emit_kept ..
    · exact Kept.refl _
  clear_value v1
  have h4 : Kept s v2 := by
    unfold v2
    refine Kept.foldl (fun a x => ?_) ?_
    · exact emit_kept ..
    · assumption
  clear_value v2
  refine Kept.foldl (fun a x => ?_) ?_
  · exact emit_kept ..
  · assumption

theorem bringUpChannel_kept (u) (s : State) : Kept s (bringUpChannel u s) := by
  unfold bringUpChannel
  extract_lets v1 v2 v3 v4 v5 v6 v7 v8 v9 v10 v11 v12 v13 v14 v15 v16
  have h17 : Kept s v7 := by
    unfold v7
    refine Kept.ite (fun _ => ?_) (fun _ => ?_)
    · refine Kept.trans ?_ (setF_kept ..)
      refine Kept.trans ?_ (setF_kept ..)
      exact Kept.upd rfl rfl rfl rfl rfl rfl
    · exact Kept.refl _
  clear_value v7
  have h18 : Kept s v13 := by
    unfold v13
    refine Kept.foldl (fun a x => ?_) ?_
    · refine Kept.trans ?_ (setF_kept ..)
      refine Kept.trans ?_ (setF_kept ..)
      exact blot_kept ..
    · refine Kept.trans ?_ (bringUpOps_kept ..)
      assumption
  clear_value v13
  have h19 : Kept s v14 := by
    unfold v14
    refine Kept.trans ?_ (setF_kept ..)
    refine Kept.trans ?_ (setF_kept ..)
    refine Kept.trans ?_ (setF_kept ..)
    refine Kept.trans ?_ (setF_kept ..)
    assumption
  clear_value v14
  have h20 : Kept s v16 := by
    unfold v16
    refine Kept.trans ?_ (Kept.upd rfl rfl rfl rfl rfl rfl)
    assumption
  clear_value v16
  refine Kept.ite (fun _ => ?_) (fun _ => ?_)
  · refine Kept.foldl (fun a x => ?_) ?_
    · exact putDie_kept ..
    · exact Kept.refl _
  · refine Kept.trans ?_ (settleOps_kept ..)
    refine Kept.foldl (fun a x => ?_) ?_
    · exact bringUpDie_kept ..
    · assumption

theorem trainDram_kept (d) (s : State) : Kept s (trainDram d s).1 := by
  unfold trainDram
  split
  · dsimp only
    exact blot_kept ..
  · dsimp only
    refine Kept.trans ?_ (Kept.upd rfl rfl rfl rfl rfl rfl)
    refine Kept.foldl (fun a x => ?_) ?_
    · refine Kept.trans ?_ (setF_kept ..)
      exact blot_kept ..
    · refine Kept.trans ?_ (setF_kept ..)
      refine Kept.trans ?_ (setF_kept ..)
      refine Kept.trans ?_ (setF_kept ..)
      refine Kept.trans ?_ (setF_kept ..)
      exact setF_kept ..

theorem execMediaBringupStart_kept (chans dram rawGib entropyOk) (s : State) :
    KeptO s (execMediaBringupStart chans dram rawGib entropyOk s) := by
  unfold execMediaBringupStart
  refine KeptO.next ?_
  refine Kept.ite (fun _ => ?_) (fun _ => ?_)
  · exact Kept.refl _
  · extract_lets v1 v2 v3 v4 v5 v6 v7
    have h8 : Kept s v1 := by
      unfold v1
      refine Kept.ite (fun _ => ?_) (fun _ => ?_)
      · exact setF_kept ..
      · exact Kept.refl _
    clear_value v1
    have h9 : Kept s v3 := by
      unfold v3
      refine Kept.trans ?_ (Kept.upd rfl rfl rfl rfl rfl rfl)
      assumption
    clear_value v3
    have h10 : Kept s v4 := by
      unfold v4
      refine Kept.foldl (fun a x => ?_) ?_
      · exact bringUpChannel_kept ..
      · assumption
    clear_value v4
    have h11 : Kept s v5.1 := by
      unfold v5
      refine Kept.trans ?_ (trainDram_kept ..)
      assumption
    clear_value v5
    have h12 : Kept s v6 := by
      unfold v6
      assumption
    clear_value v6
    refine Kept.ite (fun _ => ?_) (fun _ => ?_)
    · refine Kept.trans ?_ (Kept.upd rfl rfl rfl rfl rfl rfl)
      assumption
    · refine Kept.ite (fun _ => ?_) (fun _ => ?_)
      · refine Kept.trans ?_ (enterSafe_kept ..)
        assumption
      · refine Kept.ite (fun _ => ?_) (fun _ => ?_)
        · refine Kept.trans ?_ (enterSafe_kept ..)
          assumption
        · refine Kept.trans ?_ (showClocks_kept ..)
          refine Kept.trans ?_ (Kept.upd rfl rfl rfl rfl rfl rfl)
          assumption

theorem showSeal_kept (s : State) : Kept s (showSeal s) := by
  unfold showSeal
  refine Kept.trans ?_ (setF_kept ..)
  refine Kept.trans ?_ (setF_kept ..)
  exact setF_kept ..

theorem reportLost_kept (nsid) (s : State) : Kept s (reportLost nsid s) := by
  unfold reportLost
  split
  · exact Kept.refl _
  · extract_lets v1
    have h2 : Kept s v1 := deferredError_kept ..
    clear_value v1
    refine Kept.trans ?_ (updNs_kept ..)
    assumption

theorem uncleanMount_kept (s : State) : Kept s (uncleanMount s) := by
  unfold uncleanMount
  extract_lets v1 v2 v3
  have h4 : Kept s v3 := Kept.upd rfl rfl rfl rfl rfl rfl
  clear_value v3
  refine Kept.foldl (fun a x => ?_) ?_
  · exact reportLost_kept ..
  · assumption

theorem restoreBands_kept (s : State) : Kept s (restoreBands s) := by
  unfold restoreBands
  extract_lets v1 v2 v3
  have h4 : Kept s v3 := Kept.upd rfl rfl rfl rfl rfl rfl
  clear_value v3
  refine Kept.foldl (fun a x => ?_) ?_
  · refine Kept.foldl (fun a x => ?_) ?_
    · exact queueParity_kept ..
    · exact Kept.refl _
  · assumption

theorem mountCount_kept (s : State) : Kept s (mountCount s) := by
  unfold mountCount
  apply Kept.ite
  · intro _; exact Kept.clock (t := _) (bootCount_ge s) id
  · intro _; exact Kept.refl s

theorem startSealing_kept (s : State) : Kept s (startSealing s) := by
  unfold startSealing
  extract_lets v1 v2 v3 v4
  have h5 : Kept s v3 := by
    unfold v3
    refine Kept.trans ?_ (openNow_kept ..)
    refine Kept.trans ?_ (enterMode_kept ..)
    exact Kept.upd rfl rfl rfl rfl rfl rfl
  clear_value v3
  have h6 : Kept s v4 := by
    unfold v4
    refine Kept.trans ?_ (anchorRec_kept ..)
    refine Kept.trans ?_ (modeRec_kept ..)
    refine Kept.trans ?_ (setCause_kept ..)
    assumption
  clear_value v4
  refine Kept.ite (fun _ => ?_) (fun _ => ?_)
  · assumption
  · refine Kept.trans ?_ (spanRec_kept ..)
    assumption

theorem loadCfg_kept (s : State) : Kept s (loadCfg s) := by
  unfold loadCfg
  refine Kept.ite (fun _ => ?_) (fun _ => ?_)
  · exact Kept.refl _
  · refine Kept.trans ?_ (setF_kept ..)
    exact setF_kept ..

theorem showChain_kept (s : State) : Kept s (showChain s) := by
  unfold showChain
  extract_lets v1 v2
  refine Kept.trans ?_ (setF_kept ..)
  refine Kept.trans ?_ (setF_kept ..)
  refine Kept.trans ?_ (setF_kept ..)
  exact setF_kept ..

theorem finishMount_kept (s0 : State) : Kept s0 (finishMount s0) := by
  unfold finishMount
  extract_lets v1 v2 v3 v4 v5 v6
  have h7 : Kept s0 v1 := loadCfg_kept ..
  clear_value v1
  have h8 : Kept s0 v2 := by
    unfold v2
    refine Kept.ite (fun _ => ?_) (fun _ => ?_)
    · refine Kept.trans ?_ (uncleanMount_kept ..)
      assumption
    · assumption
  clear_value v2
  have h9 : Kept s0 v5 := by
    unfold v5
    refine Kept.trans ?_ (mountCount_kept ..)
    refine Kept.trans ?_ (restoreBands_kept ..)
    refine Kept.trans ?_ (Kept.upd rfl rfl rfl rfl rfl rfl)
    assumption
  clear_value v5
  have h10 : Kept s0 v6 := by
    unfold v6
    refine Kept.trans ?_ (startSealing_kept ..)
    refine Kept.foldl (fun a x => ?_) ?_
    · refine Kept.trans ?_ (settleOps_kept ..)
      exact startDieRebuild_kept ..
    · refine Kept.trans ?_ (sieveBoot_kept ..)
      refine Kept.trans ?_ (setF_kept ..)
      refine Kept.trans ?_ (setF_kept ..)
      refine Kept.trans ?_ (showSeal_kept ..)
      refine Kept.trans ?_ (showChain_kept ..)
      refine Kept.trans ?_ (latchQos_kept ..)
      refine Kept.trans ?_ (checkQos_kept ..)
      refine Kept.trans ?_ (setCapacity_kept ..)
      assumption
  clear_value v6
  refine Kept.trans ?_ (readyAll_kept ..)
  refine Kept.trans ?_ (showFns_kept ..)
  refine Kept.trans ?_ (place_kept ..)
  refine Kept.trans ?_ (requestPoint_kept ..)
  assumption

theorem oldNs_kept (s : State) (n) : Kept s (oldNs s n) := by
  unfold oldNs
  exact Kept.upd rfl rfl rfl rfl rfl rfl

theorem execMountComplete_kept (frac media) (s : State) : KeptO s (execMountComplete frac media s) := by
  unfold execMountComplete
  extract_lets v1 v2 v3
  have h4 : Kept s v1 := atFrac_kept ..
  clear_value v1
  have h5 : Kept s v2 := by
    unfold v2
    refine Kept.trans ?_ (finishMount_kept ..)
    assumption
  clear_value v2
  refine KeptO.next ?_
  refine Kept.ite (fun _ => ?_) (fun _ => ?_)
  · assumption
  · split
    · refine Kept.ite (fun _ => ?_) (fun _ => ?_)
      · assumption
      · refine Kept.trans ?_ (Kept.upd rfl rfl rfl rfl rfl rfl)
        assumption
    · refine Kept.ite (fun _ => ?_) (fun _ => ?_)
      · assumption
      · refine Kept.ite (fun _ => ?_) (fun _ => ?_)
        · refine Kept.trans ?_ (enterSafe_kept ..)
          refine Kept.trans ?_ (blot_kept ..)
          assumption
        · refine Kept.trans ?_ (finishMount_kept ..)
          refine Kept.foldl (fun a x => ?_) ?_
          · exact oldNs_kept ..
          · assumption

theorem adoptUnit_kept (s : State) (u) : Kept s (adoptUnit s u) := by
  unfold adoptUnit
  split
  · exact Kept.refl _
  · extract_lets v1
    refine Kept.trans ?_ (updNs_kept ..)
    refine Kept.trans ?_ (writeCws_kept ..)
    exact bumpSeq_kept ..

theorem adoptBand_kept (units) (s : State) (m) : Kept s (adoptBand units s m) := by
  unfold adoptBand
  extract_lets v1 v2 v3 v4 v5 v6 v7
  have h8 : Kept s v6 := by
    unfold v6
    refine Kept.foldl (fun a x => ?_) ?_
    · exact updDie_kept ..
    · exact Kept.refl _
  clear_value v6
  refine Kept.trans ?_ (journalAdd_kept ..)
  refine Kept.trans ?_ (Kept.upd rfl rfl rfl rfl rfl rfl)
  assumption

theorem execNb5210ScanComplete_kept (units) (s : State) : KeptO s (execNb5210ScanComplete units s) := by
  unfold execNb5210ScanComplete
  extract_lets v1 v2 v3 v4 v5 v6
  have h7 : Kept s v3 := by
    unfold v3
    refine Kept.foldl (fun a x => ?_) ?_
    · exact adoptUnit_kept ..
    · exact Kept.refl _
  clear_value v3
  have h8 : Kept s v4 := by
    unfold v4
    refine Kept.foldl (fun a x => ?_) ?_
    · exact adoptBand_kept ..
    · assumption
  clear_value v4
  have h9 : Kept s v5 := by
    unfold v5
    refine Kept.foldl (fun a x => ?_) ?_
    · refine Kept.trans ?_ (journalAdd_kept ..)
      refine Kept.trans ?_ (namespaceRec_kept ..)
      exact updNs_kept ..
    · assumption
  clear_value v5
  refine KeptO.next ?_
  refine Kept.ite (fun _ => ?_) (fun _ => ?_)
  · exact Kept.refl _
  · refine Kept.trans ?_ (Kept.upd rfl rfl rfl rfl rfl rfl)
    assumption

/-! ### Sys2Proof/Machine/AdminGate.lean -/

theorem adminData_kept (q data) (s : State) : Kept s (adminData q data s) := by
  unfold adminData
  refine Kept.ite (fun _ => ?_) (fun _ => ?_)
  · exact Kept.refl _
  · refine Kept.ite (fun _ => ?_) (fun _ => ?_)
    · exact emit_kept ..
    · exact hostWrite_kept ..

theorem answer_kept (q data dw0) (s : State) : Kept s (answer q data dw0 s) := by
  unfold answer
  refine Kept.trans ?_ (done_kept ..)
  exact adminData_kept ..

/-! ### Sys2Proof/Machine/Modes.lean -/

theorem notePower_kept (cause fn note) (s : State) : Kept s (notePower cause fn note s) := by
  unfold notePower
  exact Kept.upd rfl rfl rfl rfl rfl rfl

theorem setPower_kept (f ps cause) (s : State) : Kept s (setPower f ps cause s) := by
  unfold setPower
  refine Kept.trans ?_ (notePower_kept ..)
  exact updFn_kept ..

theorem setPowers_kept (ps cause fn note) (s : State) : Kept s (setPowers ps cause fn note s) := by
  unfold setPowers
  refine Kept.trans ?_ (notePower_kept ..)
  refine Kept.foldl (fun a x => ?_) ?_
  · exact updFn_kept ..
  · exact Kept.refl _

theorem completeReqs_kept (p) (s : State) : Kept s (completeReqs p s) := by
  unfold completeReqs
  extract_lets v1 v2 v3
  have h4 : Kept s v3 := Kept.upd rfl rfl rfl rfl rfl rfl
  clear_value v3
  refine Kept.foldl (fun a x => ?_) ?_
  · exact complete_kept ..
  · assumption

theorem flushAll_kept (s : State) : Kept s (flushAll s) := by
  unfold flushAll
  refine Kept.trans ?_ (placeForced_kept ..)
  refine Kept.trans ?_ (stageInk_kept ..)
  refine Kept.trans ?_ (journalFlush_kept ..)
  refine Kept.trans ?_ (flushTails_kept ..)
  refine Kept.trans ?_ (layAll_kept ..)
  exact Kept.upd rfl rfl rfl rfl rfl rfl

theorem beginTrans_kept (dest cause fn note) (s : State) : Kept s (beginTrans dest cause fn note s) := by
  unfold beginTrans
  extract_lets v1 v2
  have h3 : Kept s v2 := Kept.upd rfl rfl rfl rfl rfl rfl
  clear_value v2
  refine Kept.trans ?_ (requestPoint_kept ..)
  assumption

theorem beginPower_kept (s : State) : Kept s (beginPower s) := by
  unfold beginPower
  extract_lets v1 v2 v3
  have h4 : Kept s v2 := by
    unfold v2
    refine Kept.trans ?_ (completeReqs_kept ..)
    exact beginTrans_kept ..
  clear_value v2
  refine Kept.ite (fun _ => ?_) (fun _ => ?_)
  · refine Kept.trans ?_ (flushAll_kept ..)
    assumption
  · refine Kept.ite (fun _ => ?_) (fun _ => ?_)
    · refine Kept.trans ?_ (setReqs_kept ..)
      refine Kept.trans ?_ (Kept.upd rfl rfl rfl rfl rfl rfl)
      assumption
    · assumption

theorem switchMode_kept (m cause) (s : State) : Kept s (switchMode m cause s) := by
  unfold switchMode
  extract_lets v1 v2 v3
  have h4 : Kept s v1 := by
    unfold v1
    refine Kept.trans ?_ (modeRec_kept ..)
    exact setCause_kept ..
  clear_value v1
  have h5 : Kept s v3 := by
    unfold v3
    refine Kept.trans ?_ (enterMode_kept ..)
    refine Kept.trans ?_ (Kept.upd rfl rfl rfl rfl rfl rfl)
    assumption
  clear_value v3
  refine Kept.trans ?_ (requestPoint_kept ..)
  assumption

theorem advanceStop_kept (s : State) : Kept s (advanceStop s) := by
  unfold advanceStop
  refine Kept.ite (fun _ => ?_) (fun _ => ?_)
  · exact flushAll_kept ..
  · exact Kept.refl _

theorem beginStop_kept (dest cause fn note) (s : State) : Kept s (beginStop dest cause fn note s) := by
  unfold beginStop
  extract_lets v1 v2
  have h3 : Kept s v1 := by
    unfold v1
    refine Kept.trans ?_ (completeReqs_kept ..)
    exact beginTrans_kept ..
  clear_value v1
  refine Kept.trans ?_ (advanceStop_kept ..)
  refine Kept.trans ?_ (Kept.upd rfl rfl rfl rfl rfl rfl)
  assumption

theorem beginSanitize_kept (action) (s : State) : Kept s (beginSanitize action s) := by
  unfold beginSanitize
  extract_lets v1 v2
  have h3 : Kept s v1 := switchMode_kept ..
  clear_value v1
  refine Kept.trans ?_ (Kept.upd rfl rfl rfl rfl rfl rfl)
  assumption

theorem beginActivate_kept (s : State) : Kept s (beginActivate s) := by
  unfold beginActivate
  extract_lets v1 v2
  have h3 : Kept s v1 := switchMode_kept ..
  clear_value v1
  refine Kept.trans ?_ (Kept.upd rfl rfl rfl rfl rfl rfl)
  assumption

theorem beginNext_kept (s : State) : Kept s (beginNext s) := by
  unfold beginNext
  refine Kept.ite (fun _ => ?_) (fun _ => ?_)
  · exact Kept.refl _
  · split
    · exact beginStop_kept ..
    · refine Kept.ite (fun _ => ?_) (fun _ => ?_)
      · exact beginActivate_kept ..
      · split
        · exact beginSanitize_kept ..
        · refine Kept.ite (fun _ => ?_) (fun _ => ?_)
          · exact switchMode_kept ..
          · refine Kept.ite (fun _ => ?_) (fun _ => ?_)
            · exact switchMode_kept ..
            · refine Kept.ite (fun _ => ?_) (fun _ => ?_)
              · refine Kept.ite (fun _ => ?_) (fun _ => ?_)
                · exact completeReqs_kept ..
                · exact beginPower_kept ..
              · exact Kept.refl _

theorem execModeTransitionBegin_kept (s : State) : KeptO s (execModeTransitionBegin s) := by
  unfold execModeTransitionBegin
  refine KeptO.next ?_
  exact beginNext_kept ..

theorem execOrderlyStop_kept (s : State) : KeptO s (execOrderlyStop s) := by
  unfold execOrderlyStop
  refine KeptO.next ?_
  refine Kept.ite (fun _ => ?_) (fun _ => ?_)
  · exact advanceStop_kept ..
  · refine Kept.ite (fun _ => ?_) (fun _ => ?_)
    · split
      · exact beginStop_kept ..
      · exact Kept.refl _
    · exact Kept.refl _

theorem execOrderlyStopDrainTimeout_kept (frac) (s : State) : KeptO s (execOrderlyStopDrainTimeout frac s) := by
  unfold execOrderlyStopDrainTimeout
  extract_lets v1
  have h2 : Kept s v1 := atFrac_kept ..
  clear_value v1
  refine KeptO.next ?_
  refine Kept.ite (fun _ => ?_) (fun _ => ?_)
  · refine Kept.trans ?_ (advanceStop_kept ..)
    refine Kept.trans ?_ (abandonCmds_kept ..)
    assumption
  · assumption

theorem finalCheckpoint_kept (s : State) : Kept s (finalCheckpoint s) := by
  unfold finalCheckpoint
  extract_lets v1 v2
  have h3 : Kept s v1 := journalAdd_kept ..
  clear_value v1
  refine Kept.trans ?_ (Kept.upd rfl rfl rfl rfl rfl rfl)
  assumption

theorem closeChain_kept (s : State) : Kept s (closeChain s) := by
  unfold closeChain
  extract_lets v1 v2 v3 v4 v5
  have h6 : Kept s v1 := closeStroke_kept ..
  clear_value v1
  have h7 : Kept s v3 := by
    unfold v3
    refine Kept.trans ?_ (sealCommit_kept ..)
    refine Kept.trans ?_ (Kept.upd rfl rfl rfl rfl rfl rfl)
    assumption
  clear_value v3
  have h8 : Kept s v4 := by
    unfold v4
    refine Kept.trans ?_ (signPending_kept ..)
    refine Kept.trans ?_ (fixFlourish_kept ..)
    assumption
  clear_value v4
  refine Kept.trans ?_ (Kept.upd rfl rfl rfl rfl rfl rfl)
  assumption

theorem dropObjects_kept (s : State) : Kept s (dropObjects s) := by
  unfold dropObjects
  refine Kept.trans ?_ (clearSlot_kept ..)
  refine Kept.trans ?_ (releaseAllGraphs_kept ..)
  exact Kept.upd rfl rfl rfl rfl rfl rfl

theorem transRec_kept (t) (s : State) : Kept s (transRec t s) := by
  unfold transRec
  refine Kept.trans ?_ (modeRec_kept ..)
  exact setCause_kept ..

theorem enterDeep_kept (t) (s : State) : Kept s (enterDeep t s) := by
  unfold enterDeep
  extract_lets v1 v2 v3 v4 v5 v6 v7
  have h8 : Kept s v1 := transRec_kept ..
  clear_value v1
  have h9 : Kept s v2 := by
    unfold v2
    refine Kept.ite (fun _ => ?_) (fun _ => ?_)
    · refine Kept.trans ?_ (saveSettings_kept ..)
      refine Kept.trans ?_ (closeChain_kept ..)
      assumption
    · assumption
  clear_value v2
  have h10 : Kept s v3 := by
    unfold v3
    refine Kept.trans ?_ (saveAllNodes_kept ..)
    assumption
  clear_value v3
  have h11 : Kept s v5 := by
    unfold v5
    refine Kept.trans ?_ (finalCheckpoint_kept ..)
    refine Kept.trans ?_ (dropObjects_kept ..)
    assumption
  clear_value v5
  refine Kept.ite (fun _ => ?_) (fun _ => ?_)
  · refine Kept.trans ?_ (enterMode_kept ..)
    refine Kept.trans ?_ (Kept.upd rfl rfl rfl rfl rfl rfl)
    assumption
  · refine Kept.trans ?_ (enterMode_kept ..)
    refine Kept.trans ?_ (Kept.upd rfl rfl rfl rfl rfl rfl)
    assumption

theorem wakeDram_kept (old dest) (s : State) : Kept s (wakeDram old dest s) := by
  unfold wakeDram
  refine Kept.ite (fun _ => ?_) (fun _ => ?_)
  · refine Kept.trans ?_ (setF_kept ..)
    refine Kept.trans ?_ (setF_kept ..)
    refine Kept.trans ?_ (setF_kept ..)
    exact setF_kept ..
  · exact requestPoint_kept ..

theorem leaveDeep_kept (t) (s : State) : Kept s (leaveDeep t s) := by
  unfold leaveDeep
  extract_lets v1 v2 v3 v4 v5 v6
  have h7 : Kept s v2 := enterMode_kept ..
  clear_value v2
  have h8 : Kept s v5 := by
    unfold v5
    refine Kept.trans ?_ (openNow_kept ..)
    refine Kept.trans ?_ (Kept.upd rfl rfl rfl rfl rfl rfl)
    assumption
  clear_value v5
  have h9 : Kept s v6 := by
    unfold v6
    refine Kept.trans ?_ (spanRec_kept ..)
    refine Kept.trans ?_ (modeRec_kept ..)
    refine Kept.trans ?_ (setCause_kept ..)
    assumption
  clear_value v6
  refine Kept.trans ?_ (wakeDram_kept ..)
  assumption

theorem changeAwake_kept (t) (s : State) : Kept s (changeAwake t s) := by
  unfold changeAwake
  extract_lets v1 v2
  have h3 : Kept s v1 := transRec_kept ..
  clear_value v1
  have h4 : Kept s v2 := by
    unfold v2
    refine Kept.ite (fun _ => ?_) (fun _ => ?_)
    · refine Kept.trans ?_ (saveAllNodes_kept ..)
      refine Kept.trans ?_ (saveSettings_kept ..)
      refine Kept.trans ?_ (fixFlourish_kept ..)
      refine Kept.trans ?_ (flushTails_kept ..)
      assumption
    · assumption
  clear_value v2
  refine Kept.trans ?_ (enterMode_kept ..)
  refine Kept.trans ?_ (setF_kept ..)
  assumption

theorem finishStop_kept (t) (s : State) : Kept s (finishStop t s) := by
  unfold finishStop
  extract_lets v1 v2 v3 v4 v5
  have h6 : Kept s v1 := transRec_kept ..
  clear_value v1
  have h7 : Kept s v2 := by
    unfold v2
    refine Kept.ite (fun _ => ?_) (fun _ => ?_)
    · refine Kept.trans ?_ (saveSettings_kept ..)
      refine Kept.trans ?_ (closeChain_kept ..)
      assumption
    · assumption
  clear_value v2
  have h8 : Kept s v3 := by
    unfold v3
    refine Kept.trans ?_ (finalCheckpoint_kept ..)
    refine Kept.trans ?_ (dropObjects_kept ..)
    assumption
  clear_value v3
  have h9 : Kept s v5 := by
    unfold v5
    refine Kept.trans ?_ (enterMode_kept ..)
    refine Kept.trans ?_ (Kept.upd rfl rfl rfl rfl rfl rfl)
    assumption
  clear_value v5
  refine Kept.ite (fun _ => ?_) (fun _ => ?_)
  · refine Kept.trans ?_ (reboot_kept ..)
    assumption
  · assumption

theorem finishTrans_kept (s : State) : Kept s (finishTrans s) := by
  unfold finishTrans
  split
  · exact Kept.refl _
  · refine Kept.ite (fun _ => ?_) (fun _ => ?_)
    · refine Kept.ite (fun _ => ?_) (fun _ => ?_)
      · exact finishStop_kept ..
      · exact Kept.refl _
    · refine Kept.ite (fun _ => ?_) (fun _ => ?_)
      · exact Kept.refl _
      · extract_lets v1
        have h2 : Kept s v1 := by
          unfold v1
          refine Kept.ite (fun _ => ?_) (fun _ => ?_)
          · refine Kept.ite (fun _ => ?_) (fun _ => ?_)
            · exact enterDeep_kept ..
            · exact Kept.refl _
          · refine Kept.ite (fun _ => ?_) (fun _ => ?_)
            · exact leaveDeep_kept ..
            · exact changeAwake_kept ..
        clear_value v1
        refine Kept.ite (fun _ => ?_) (fun _ => ?_)
        · assumption
        · refine Kept.trans ?_ (resumeHeld_kept ..)
          refine Kept.trans ?_ (place_kept ..)
          refine Kept.trans ?_ (completeReqs_kept ..)
          assumption

theorem abandonEntry_kept (s : State) : Kept s (abandonEntry s) := by
  unfold abandonEntry
  refine Kept.trans ?_ (requestPoint_kept ..)
  exact Kept.upd rfl rfl rfl rfl rfl rfl

theorem wakeByCommand_kept (f) (s : State) : Kept s (wakeByCommand f s) := by
  unfold wakeByCommand
  refine Kept.trans ?_ (setF_kept ..)
  exact setPower_kept ..

theorem meetEntry_kept (t f) (s : State) : Kept s (meetEntry t f s) := by
  unfold meetEntry
  extract_lets v1 v2 v3
  have h4 : Kept s v1.2 := by
    unfold v1
    refine Kept.snd_ite (fun _ => ?_) (fun _ => ?_)
    · dsimp only
      exact Kept.refl _
    · exact takeFree_kept ..
  clear_value v1
  have h5 : Kept s v2 := by
    unfold v2
    refine Kept.ite (fun _ => ?_) (fun _ => ?_)
    · refine Kept.trans ?_ (wakeByCommand_kept ..)
      assumption
    · assumption
  clear_value v2
  refine Kept.ite (fun _ => ?_) (fun _ => ?_)
  · refine Kept.trans ?_ (abandonEntry_kept ..)
    assumption
  · refine Kept.trans ?_ (Kept.upd rfl rfl rfl rfl rfl rfl)
    assumption

theorem commandArrives_kept (f) (s : State) : Kept s (commandArrives f s) := by
  unfold commandArrives
  split
  · refine Kept.ite (fun _ => ?_) (fun _ => ?_)
    · exact Kept.refl _
    · exact meetEntry_kept ..
  · refine Kept.ite (fun _ => ?_) (fun _ => ?_)
    · exact wakeByCommand_kept ..
    · exact Kept.refl _

theorem execCqHeadDoorbell_kept (fn cqid head) (s : State) : KeptO s (execCqHeadDoorbell fn cqid head s) := by
  unfold execCqHeadDoorbell
  refine KeptO.next ?_
  refine Kept.ite (fun _ => ?_) (fun _ => ?_)
  · exact Kept.refl _
  · split
    · exact doorbellError_kept ..
    · refine Kept.ite (fun _ => ?_) (fun _ => ?_)
      · exact doorbellError_kept ..
      · refine Kept.trans ?_ (commandArrives_kept ..)
        refine Kept.trans ?_ (drainCq_kept ..)
        exact updFn_kept ..

theorem execSqTailDoorbell_kept (frac fn sqid tail) (s : State) : KeptO s (execSqTailDoorbell frac fn sqid tail s) := by
  unfold execSqTailDoorbell
  extract_lets v1
  have h2 : Kept s v1 := atFrac_kept ..
  clear_value v1
  refine KeptO.next ?_
  refine Kept.ite (fun _ => ?_) (fun _ => ?_)
  · assumption
  · split
    · refine Kept.trans ?_ (doorbellError_kept ..)
      assumption
    · refine Kept.ite (fun _ => ?_) (fun _ => ?_)
      · refine Kept.trans ?_ (doorbellError_kept ..)
        assumption
      · refine Kept.trans ?_ (commandArrives_kept ..)
        refine Kept.trans ?_ (updFn_kept ..)
        assumption

theorem requestPower_kept (q m note) (s : State) : Kept s (requestPower q m note s) := by
  unfold requestPower
  extract_lets v1 v2
  have h3 : Kept s v1 := setPowers_kept ..
  clear_value v1
  refine Kept.ite (fun _ => ?_) (fun _ => ?_)
  · refine Kept.trans ?_ (done_kept ..)
    assumption
  · refine Kept.trans ?_ (Kept.upd rfl rfl rfl rfl rfl rfl)
    assumption

theorem requestStop_kept (q m note) (s : State) : Kept s (requestStop q m note s) := by
  unfold requestStop
  exact Kept.upd rfl rfl rfl rfl rfl rfl

theorem modeRequest_kept (q target note) (s : State) : Kept s (modeRequest q target note s) := by
  unfold modeRequest
  split
  · exact done_kept ..
  · refine Kept.ite (fun _ => ?_) (fun _ => ?_)
    · exact requestStop_kept ..
    · exact requestPower_kept ..

theorem withdrawReq_kept (r) (s : State) : Kept s (withdrawReq r s) := by
  unfold withdrawReq
  extract_lets v1 v2 v3
  have h4 : Kept s v2 := by
    unfold v2
    refine Kept.foldl (fun a x => ?_) ?_
    · refine Kept.ite (fun _ => ?_) (fun _ => ?_)
      · exact updFn_kept ..
      · exact Kept.refl _
    · exact Kept.refl _
  clear_value v2
  refine Kept.trans ?_ (Kept.upd rfl rfl rfl rfl rfl rfl)
  assumption

theorem execModeRequest_kept (q target note) (s : State) : KeptO s (execModeRequest q target note s) := by
  unfold execModeRequest
  unfold adminFetch
  refine KeptO.next ?_
  refine Kept.ite (fun _ => ?_) (fun _ => ?_)
  · split
    · refine Kept.trans ?_ (toFollower_kept ..)
      exact takeEntry_kept ..
    · unfold adminRun
      split
      · refine Kept.trans ?_ (done_kept ..)
        exact takeEntry_kept ..
      · refine Kept.ite (fun _ => ?_) (fun _ => ?_)
        · refine Kept.trans ?_ (done_kept ..)
          refine Kept.trans ?_ (takeDeferred_kept ..)
          exact takeEntry_kept ..
        · refine Kept.trans ?_ (modeRequest_kept ..)
          exact takeEntry_kept ..
  · exact Kept.refl _

theorem execAutonomousPowerStateTransition_kept (fn) (s : State) : KeptO s (execAutonomousPowerStateTransition fn s) := by
  unfold execAutonomousPowerStateTransition
  extract_lets v1 v2
  refine KeptO.next ?_
  split
  · refine Kept.ite (fun _ => ?_) (fun _ => ?_)
    · exact setPower_kept ..
    · exact Kept.refl _
  · exact Kept.refl _

theorem execIgnitionOffDelay_kept (s : State) : KeptO s (execIgnitionOffDelay s) := by
  unfold execIgnitionOffDelay
  refine KeptO.next ?_
  split
  · refine Kept.ite (fun _ => ?_) (fun _ => ?_)
    · refine Kept.trans ?_ (setF_kept ..)
      exact setPowers_kept ..
    · exact Kept.refl _
  · exact Kept.refl _

theorem driveWake_kept (s : State) : Kept s (driveWake s) := by
  unfold driveWake
  refine Kept.ite (fun _ => ?_) (fun _ => ?_)
  · refine Kept.trans ?_ (emit_kept ..)
    exact Kept.upd rfl rfl rfl rfl rfl rfl
  · exact Kept.refl _

theorem wakeTo_kept (src ps cause) (s : State) : Kept s (wakeTo src ps cause s) := by
  unfold wakeTo
  refine Kept.ite (fun _ => ?_) (fun _ => ?_)
  · refine Kept.trans ?_ (driveWake_kept ..)
    refine Kept.trans ?_ (setF_kept ..)
    exact setPowers_kept ..
  · refine Kept.ite (fun _ => ?_) (fun _ => ?_)
    · refine Kept.trans ?_ (setF_kept ..)
      refine Kept.trans ?_ (reboot_kept ..)
      exact driveWake_kept ..
    · exact Kept.refl _

theorem wake_kept (src) (s : State) : Kept s (wake src s) := by
  unfold wake
  exact wakeTo_kept ..

theorem ignitionOn_kept (s : State) : Kept s (ignitionOn s) := by
  unfold ignitionOn
  extract_lets v1 v2 v3
  have h4 : Kept s v2 := by
    unfold v2
    refine Kept.trans ?_ (setF_kept ..)
    exact Kept.upd rfl rfl rfl rfl rfl rfl
  clear_value v2
  have h5 : Kept s v3 := by
    unfold v3
    refine Kept.trans ?_ (setPowers_kept ..)
    assumption
  clear_value v3
  refine Kept.ite (fun _ => ?_) (fun _ => ?_)
  · refine Kept.ite (fun _ => ?_) (fun _ => ?_)
    · refine Kept.trans ?_ (wakeTo_kept ..)
      assumption
    · assumption
  · refine Kept.ite (fun _ => ?_) (fun _ => ?_)
    · refine Kept.trans ?_ (setF_kept ..)
      assumption
    · assumption

theorem execWakeTimer_kept (s : State) : KeptO s (execWakeTimer s) := by
  unfold execWakeTimer
  extract_lets v1
  refine KeptO.next ?_
  refine Kept.ite (fun _ => ?_) (fun _ => ?_)
  · exact wake_kept ..
  · exact Kept.refl _

theorem execPerstDeassert_kept (frac) (s : State) : KeptO s (execPerstDeassert frac s) := by
  unfold execPerstDeassert
  extract_lets v1 v2 v3 v4
  have h5 : Kept s v1 := atFrac_kept ..
  clear_value v1
  have h6 : Kept s v3 := by
    unfold v3
    refine Kept.trans ?_ (Kept.upd rfl rfl rfl rfl rfl rfl)
    assumption
  clear_value v3
  have h7 : Kept s v4 := by
    unfold v4
    refine Kept.ite (fun _ => ?_) (fun _ => ?_)
    · refine Kept.trans ?_ (emit_kept ..)
      assumption
    · assumption
  clear_value v4
  refine KeptO.next ?_
  refine Kept.ite (fun _ => ?_) (fun _ => ?_)
  · assumption
  · refine Kept.ite (fun _ => ?_) (fun _ => ?_)
    · refine Kept.trans ?_ (wake_kept ..)
      assumption
    · assumption

theorem execParkBurst_kept (s : State) : KeptO s (execParkBurst s) := by
  unfold execParkBurst
  extract_lets v1 v2
  refine KeptO.next ?_
  refine Kept.ite (fun _ => ?_) (fun _ => ?_)
  · refine Kept.trans ?_ (showClocks_kept ..)
    refine Kept.trans ?_ (placeForced_kept ..)
    refine Kept.trans ?_ (journalFlush_kept ..)
    exact setF_kept ..
  · exact Kept.refl _

theorem execParkChannelIdle_kept (s : State) : KeptO s (execParkChannelIdle s) := by
  unfold execParkChannelIdle
  extract_lets v1
  refine KeptO.next ?_
  refine Kept.ite (fun _ => ?_) (fun _ => ?_)
  · refine Kept.trans ?_ (showClocks_kept ..)
    exact setF_kept ..
  · exact Kept.refl _

theorem deviceReset_kept (cause) (s : State) : Kept s (deviceReset cause s) := by
  unfold deviceReset
  split
  · exact Kept.refl _
  · exact Kept.refl _
  · exact reboot_kept ..
  · exact reboot_kept ..
  · refine Kept.ite (fun _ => ?_) (fun _ => ?_)
    · exact trip_kept ..
    · exact reboot_kept ..
  · exact trip_kept ..

theorem execDeviceReset_kept (s : State) : KeptO s (execDeviceReset s) := by
  unfold execDeviceReset
  refine KeptO.next ?_
  exact deviceReset_kept ..

theorem execScribeWatchdog_kept (core) (s : State) : KeptO s (execScribeWatchdog core s) := by
  unfold execScribeWatchdog
  refine KeptO.next ?_
  refine Kept.trans ?_ (deviceReset_kept ..)
  exact blot_kept ..

theorem controlledRestart_kept (s : State) : Kept s (controlledRestart s) := by
  unfold controlledRestart
  extract_lets v1
  have h2 : Kept s v1 := by
    unfold v1
    refine Kept.foldl (fun a x => ?_) ?_
    · refine Kept.trans ?_ (updFn_kept ..)
      exact controllerReset_kept ..
    · exact Kept.refl _
  clear_value v1
  split
  · assumption
  · assumption
  · refine Kept.trans ?_ (reboot_kept ..)
    assumption
  · refine Kept.trans ?_ (reboot_kept ..)
    assumption
  · refine Kept.ite (fun _ => ?_) (fun _ => ?_)
    · refine Kept.trans ?_ (trip_kept ..)
      assumption
    · refine Kept.trans ?_ (reboot_kept ..)
      assumption
  · refine Kept.trans ?_ (trip_kept ..)
    assumption

theorem execScribeMemoryUe_kept (core) (s : State) : KeptO s (execScribeMemoryUe core s) := by
  unfold execScribeMemoryUe
  refine KeptO.next ?_
  refine Kept.trans ?_ (controlledRestart_kept ..)
  exact blot_kept ..

theorem dropKeyEntry_kept (stream item) (s : State) : Kept s (dropKeyEntry stream item s) := by
  unfold dropKeyEntry
  exact Kept.upd rfl rfl rfl rfl rfl rfl

theorem execDramUe_kept (addr source cls hit) (s : State) :
    KeptO s (execDramUe addr source cls hit s) := by
  unfold execDramUe
  extract_lets v1 v2
  have h3 : Kept s v1 := by
    unfold v1
    refine Kept.trans ?_ (incF_kept ..)
    refine Kept.trans ?_ (setF_kept ..)
    refine Kept.trans ?_ (setF_kept ..)
    refine Kept.trans ?_ (setF_kept ..)
    refine Kept.trans ?_ (setF_kept ..)
    exact setF_kept ..
  clear_value v1
  have h4 : Kept s v2.2 := by
    unfold v2
    refine Kept.trans ?_ (takeFree_kept ..)
    assumption
  clear_value v2
  refine KeptO.next ?_
  refine Kept.ite (fun _ => ?_) (fun _ => ?_)
  · exact incF_kept ..
  · split
    · refine Kept.trans ?_ (controlledRestart_kept ..)
      refine Kept.trans ?_ (blot_kept ..)
      assumption
    · refine Kept.trans ?_ (dropKeyEntry_kept ..)
      assumption
    · refine Kept.ite (fun _ => ?_) (fun _ => ?_)
      · refine Kept.trans ?_ (loseRun_kept ..)
        assumption
      · assumption
    · extract_lets v5
      refine Kept.ite (fun _ => ?_) (fun _ => ?_)
      · refine Kept.trans ?_ (trapEntry_kept ..)
        assumption
      · assumption
    · refine Kept.ite (fun _ => ?_) (fun _ => ?_)
      · refine Kept.trans ?_ (jobFail_kept ..)
        assumption
      · assumption

/-! ### Sys2Proof/Machine/AdminQueue.lean -/

theorem createCq_kept (q cqid size base vector ien pc) (s : State) :
    Kept s (createCq q cqid size base vector ien pc s) := by
  unfold createCq
  unfold orElse
  split
  · exact done_kept ..
  · beta_reduce
    refine Kept.trans ?_ (done_kept ..)
    exact updFn_kept ..

theorem execCreateIoCq_kept (q cqid size base vector ien pc) (s : State) :
    KeptO s (execCreateIoCq q cqid size base vector ien pc s) := by
  unfold execCreateIoCq
  unfold adminFetch
  refine KeptO.next ?_
  refine Kept.ite (fun _ => ?_) (fun _ => ?_)
  · dsimp only
    split
    · refine Kept.trans ?_ (toFollower_kept ..)
      exact takeEntry_kept ..
    · unfold adminRun
      split
      · refine Kept.trans ?_ (done_kept ..)
        exact takeEntry_kept ..
      · refine Kept.ite (fun _ => ?_) (fun _ => ?_)
        · refine Kept.trans ?_ (done_kept ..)
          refine Kept.trans ?_ (takeDeferred_kept ..)
          exact takeEntry_kept ..
        · refine Kept.trans ?_ (createCq_kept ..)
          exact takeEntry_kept ..
  · exact Kept.refl _

theorem createSq_kept (q sqid size base cqid prio pc) (s : State) : Kept s (createSq q sqid size base cqid prio pc s) := by
  unfold createSq
  unfold orElse
  split
  · exact done_kept ..
  · beta_reduce
    refine Kept.trans ?_ (done_kept ..)
    exact updFn_kept ..

theorem execCreateIoSq_kept (q sqid size base cqid prio pc) (s : State) :
    KeptO s (execCreateIoSq q sqid size base cqid prio pc s) := by
  unfold execCreateIoSq
  unfold adminFetch
  refine KeptO.next ?_
  refine Kept.ite (fun _ => ?_) (fun _ => ?_)
  · dsimp only
    split
    · refine Kept.trans ?_ (toFollower_kept ..)
      exact takeEntry_kept ..
    · unfold adminRun
      split
      · refine Kept.trans ?_ (done_kept ..)
        exact takeEntry_kept ..
      · refine Kept.ite (fun _ => ?_) (fun _ => ?_)
        · refine Kept.trans ?_ (done_kept ..)
          refine Kept.trans ?_ (takeDeferred_kept ..)
          exact takeEntry_kept ..
        · refine Kept.trans ?_ (createSq_kept ..)
          exact takeEntry_kept ..
  · exact Kept.refl _

theorem endReqs_kept (p) (s : State) : Kept s (endReqs p s) := by
  unfold endReqs
  refine Kept.trans ?_ (forgetReqs_kept ..)
  refine Kept.foldl (fun a x => ?_) ?_
  · exact complete_kept ..
  · exact Kept.refl _

theorem deleteSq_kept (q sqid) (s : State) : Kept s (deleteSq q sqid s) := by
  unfold deleteSq
  extract_lets v1
  unfold orElse
  split
  · exact done_kept ..
  · beta_reduce
    refine Kept.trans ?_ (done_kept ..)
    refine Kept.trans ?_ (updFn_kept ..)
    refine Kept.trans ?_ (abandonCmds_kept ..)
    exact endReqs_kept ..

theorem execDeleteIoSq_kept (q sqid) (s : State) : KeptO s (execDeleteIoSq q sqid s) := by
  unfold execDeleteIoSq
  unfold adminFetch
  refine KeptO.next ?_
  refine Kept.ite (fun _ => ?_) (fun _ => ?_)
  · dsimp only
    split
    · refine Kept.trans ?_ (toFollower_kept ..)
      exact takeEntry_kept ..
    · unfold adminRun
      split
      · refine Kept.trans ?_ (done_kept ..)
        exact takeEntry_kept ..
      · refine Kept.ite (fun _ => ?_) (fun _ => ?_)
        · refine Kept.trans ?_ (done_kept ..)
          refine Kept.trans ?_ (takeDeferred_kept ..)
          exact takeEntry_kept ..
        · refine Kept.trans ?_ (deleteSq_kept ..)
          exact takeEntry_kept ..
  · exact Kept.refl _

theorem deleteCq_kept (q cqid) (s : State) : Kept s (deleteCq q cqid s) := by
  unfold deleteCq
  unfold orElse
  split
  · exact done_kept ..
  · beta_reduce
    refine Kept.trans ?_ (done_kept ..)
    exact updFn_kept ..

theorem execDeleteIoCq_kept (q cqid) (s : State) : KeptO s (execDeleteIoCq q cqid s) := by
  unfold execDeleteIoCq
  unfold adminFetch
  refine KeptO.next ?_
  refine Kept.ite (fun _ => ?_) (fun _ => ?_)
  · dsimp only
    split
    · refine Kept.trans ?_ (toFollower_kept ..)
      exact takeEntry_kept ..
    · unfold adminRun
      split
      · refine Kept.trans ?_ (done_kept ..)
        exact takeEntry_kept ..
      · refine Kept.ite (fun _ => ?_) (fun _ => ?_)
        · refine Kept.trans ?_ (done_kept ..)
          refine Kept.trans ?_ (takeDeferred_kept ..)
          exact takeEntry_kept ..
        · refine Kept.trans ?_ (deleteCq_kept ..)
          exact takeEntry_kept ..
  · exact Kept.refl _

theorem abortTrans_kept (f q c : Nat) (s : State) : KeptS s (abortTrans f q c s) := by
  intro t h
  unfold abortTrans at h
  simp only [Option.map_eq_some_iff] at h
  obtain ⟨x, _, rfl⟩ := h
  exact Kept.upd rfl rfl rfl rfl rfl rfl

theorem abortStart_kept (f sqid cid) (s : State) : KeptS s (abortStart f sqid cid s) := by
  unfold abortStart
  extract_lets v1 v2
  refine KeptS.ite (fun _ => ?_) (fun _ => ?_)
  · refine KeptS.val ?_
    exact Kept.upd rfl rfl rfl rfl rfl rfl
  · exact KeptS.absent

theorem abortMode_kept (f sqid cid) (s : State) : KeptS s (abortMode f sqid cid s) := by
  unfold abortMode
  refine KeptS.ite (fun _ => ?_) (fun _ => ?_)
  · exact KeptS.absent
  · split
    · refine KeptS.val ?_
      exact withdrawReq_kept ..
    · refine KeptS.ite (fun _ => ?_) (fun _ => ?_)
      · refine KeptS.val ?_
        exact Kept.upd rfl rfl rfl rfl rfl rfl
      · exact KeptS.absent

theorem abortFetched_kept (f q c : Nat) (s : State) : KeptS s (abortFetched f q c s) := by
  have hl : ∀ a : State, Kept a (dropLate (· == (f, q, c)) a) := fun a => dropLate_kept _ a
  unfold abortFetched
  dsimp only
  split
  · split
    · exact KeptS.absent
    · exact KeptS.val ((dropCmd_kept ..).trans (hl _))
  · split
    · exact KeptS.val (hl _)
    · intro t h
      simp only [Option.or_eq_some_iff] at h
      rcases h with (h | ⟨_, h⟩) | ⟨_, h⟩
      · exact abortTrans_kept _ _ _ _ _ h
      · exact abortStart_kept _ _ _ _ _ h
      · exact abortMode_kept _ _ _ _ _ h

theorem abortOne_kept (q sqid cid) (s : State) : Kept s (abortOne q sqid cid s) := by
  unfold abortOne
  refine Kept.ite (fun _ => ?_) (fun _ => ?_)
  · refine Kept.trans ?_ (done_kept ..)
    refine Kept.trans ?_ (complete_kept ..)
    exact updFn_kept ..
  · split
    · exact done_kept ..
    · refine Kept.trans ?_ (done_kept ..)
      refine Kept.trans ?_ (advanceAll_kept ..)
      refine Kept.trans ?_ (complete_kept ..)
      refine KeptS.eq (by assumption) ?_
      exact abortFetched_kept _ _ _ _

theorem abortProxied_kept (q sqid cid) (s : State) : Kept s (abortProxied q sqid cid s) := by
  unfold abortProxied
  refine Kept.ite (fun _ => ?_) (fun _ => ?_)
  · refine Kept.trans ?_ (done_kept ..)
    refine Kept.trans ?_ (complete_kept ..)
    exact Kept.upd rfl rfl rfl rfl rfl rfl
  · exact done_kept ..

theorem execAbortCmd_kept (q sqid cid) (s : State) : KeptO s (execAbortCmd q sqid cid s) := by
  unfold execAbortCmd
  refine KeptO.ite (fun _ => ?_) (fun _ => ?_)
  · unfold adminFetch
    refine KeptO.next ?_
    refine Kept.ite (fun _ => ?_) (fun _ => ?_)
    · dsimp only
      split
      · refine Kept.trans ?_ (toFollower_kept ..)
        exact takeEntry_kept ..
      · unfold adminRun
        split
        · refine Kept.trans ?_ (done_kept ..)
          exact takeEntry_kept ..
        · refine Kept.ite (fun _ => ?_) (fun _ => ?_)
          · refine Kept.trans ?_ (done_kept ..)
            refine Kept.trans ?_ (takeDeferred_kept ..)
            exact takeEntry_kept ..
          · refine Kept.trans ?_ (abortProxied_kept ..)
            exact takeEntry_kept ..
    · exact Kept.refl _
  · unfold adminFetch
    refine KeptO.next ?_
    refine Kept.ite (fun _ => ?_) (fun _ => ?_)
    · split
      · refine Kept.trans ?_ (toFollower_kept ..)
        exact takeEntry_kept ..
      · unfold adminRun
        split
        · refine Kept.trans ?_ (done_kept ..)
          exact takeEntry_kept ..
        · refine Kept.ite (fun _ => ?_) (fun _ => ?_)
          · refine Kept.trans ?_ (done_kept ..)
            refine Kept.trans ?_ (takeDeferred_kept ..)
            exact takeEntry_kept ..
          · refine Kept.trans ?_ (abortOne_kept ..)
            exact takeEntry_kept ..
    · exact Kept.refl _

theorem takeRequest_kept (q) (s : State) : Kept s (takeRequest q s) := by
  unfold takeRequest
  extract_lets v1 v2
  have h3 : Kept s v2 := updFn_kept ..
  clear_value v2
  refine Kept.ite (fun _ => ?_) (fun _ => ?_)
  · exact done_kept ..
  · split
    · assumption
    · refine Kept.trans ?_ (raiseEvent_kept ..)
      refine Kept.trans ?_ (updFn_kept ..)
      assumption

theorem execAsyncEventRequest_kept (q) (s : State) : KeptO s (execAsyncEventRequest q s) := by
  unfold execAsyncEventRequest
  unfold adminFetch
  refine KeptO.next ?_
  refine Kept.ite (fun _ => ?_) (fun _ => ?_)
  · split
    · refine Kept.trans ?_ (toFollower_kept ..)
      exact takeEntry_kept ..
    · unfold adminRun
      split
      · refine Kept.trans ?_ (done_kept ..)
        exact takeEntry_kept ..
      · refine Kept.ite (fun _ => ?_) (fun _ => ?_)
        · refine Kept.trans ?_ (done_kept ..)
          refine Kept.trans ?_ (takeDeferred_kept ..)
          exact takeEntry_kept ..
        · refine Kept.trans ?_ (takeRequest_kept ..)
          exact takeEntry_kept ..
  · exact Kept.refl _

theorem getFeatures_kept (q fid sel v) (s : State) : Kept s (getFeatures q fid sel v s) := by
  unfold getFeatures
  unfold orElse
  split
  · exact done_kept ..
  · beta_reduce
    exact answer_kept ..

theorem execGetFeatures_kept (q fid sel dw11) (s : State) : KeptO s (execGetFeatures q fid sel dw11 s) := by
  unfold execGetFeatures
  unfold adminFetch
  refine KeptO.next ?_
  refine Kept.ite (fun _ => ?_) (fun _ => ?_)
  · split
    · refine Kept.trans ?_ (toFollower_kept ..)
      exact takeEntry_kept ..
    · unfold adminRun
      split
      · refine Kept.trans ?_ (done_kept ..)
        exact takeEntry_kept ..
      · refine Kept.ite (fun _ => ?_) (fun _ => ?_)
        · refine Kept.trans ?_ (done_kept ..)
          refine Kept.trans ?_ (takeDeferred_kept ..)
          exact takeEntry_kept ..
        · refine Kept.trans ?_ (getFeatures_kept ..)
          exact takeEntry_kept ..
  · exact Kept.refl _

theorem updFeats_kept (f g) (s : State) : Kept s (updFeats f g s) := by
  unfold updFeats
  exact updFn_kept ..

theorem applyFeature_kept (f fid v data) (s : State) : Kept s (applyFeature f fid v data s) := by
  unfold applyFeature
  split
  · exact updFeats_kept ..
  · exact setPower_kept ..
  · refine Kept.ite (fun _ => ?_) (fun _ => ?_)
    · exact updFeats_kept ..
    · exact updFeats_kept ..
  · exact updFeats_kept ..
  · exact updFeats_kept ..
  · exact updVec_kept ..
  · exact updFeats_kept ..
  · exact updFeats_kept ..
  · exact updFeats_kept ..
  · exact updFeats_kept ..
  · exact updFeats_kept ..

theorem setFeatures_kept (q fid save v data) (s : State) : Kept s (setFeatures q fid save v data s) := by
  unfold setFeatures
  extract_lets v1
  unfold orElse
  split
  · exact done_kept ..
  · beta_reduce
    refine Kept.trans ?_ (done_kept ..)
    exact applyFeature_kept ..

theorem execSetFeatures_kept (q fid save dw11 data) (s : State) : KeptO s (execSetFeatures q fid save dw11 data s) := by
  unfold execSetFeatures
  unfold adminFetch
  refine KeptO.next ?_
  refine Kept.ite (fun _ => ?_) (fun _ => ?_)
  · split
    · refine Kept.trans ?_ (toFollower_kept ..)
      exact takeEntry_kept ..
    · unfold adminRun
      split
      · refine Kept.trans ?_ (done_kept ..)
        exact takeEntry_kept ..
      · refine Kept.ite (fun _ => ?_) (fun _ => ?_)
        · refine Kept.trans ?_ (done_kept ..)
          refine Kept.trans ?_ (takeDeferred_kept ..)
          exact takeEntry_kept ..
        · refine Kept.trans ?_ (setFeatures_kept ..)
          exact takeEntry_kept ..
  · exact Kept.refl _

/-! ### Sys2Proof/Machine/Identify.lean -/

theorem identify_kept (q cns cntid) (s : State) : Kept s (identify q cns cntid s) := by
  unfold identify
  refine Kept.ite (fun _ => ?_) (fun _ => ?_)
  · exact done_kept ..
  · split
    · exact done_kept ..
    · exact answer_kept ..

theorem execIdentify_kept (q cns cntid) (s : State) : KeptO s (execIdentify q cns cntid s) := by
  unfold execIdentify
  unfold adminFetch
  refine KeptO.next ?_
  refine Kept.ite (fun _ => ?_) (fun _ => ?_)
  · split
    · refine Kept.trans ?_ (toFollower_kept ..)
      exact takeEntry_kept ..
    · unfold adminRun
      split
      · refine Kept.trans ?_ (done_kept ..)
        exact takeEntry_kept ..
      · refine Kept.ite (fun _ => ?_) (fun _ => ?_)
        · refine Kept.trans ?_ (done_kept ..)
          refine Kept.trans ?_ (takeDeferred_kept ..)
          exact takeEntry_kept ..
        · refine Kept.trans ?_ (identify_kept ..)
          exact takeEntry_kept ..
  · exact Kept.refl _

/-! ### Sys2Proof/Machine/Monitors.lean -/

theorem execDroopTrip_kept (frac regions) (s : State) : KeptO s (execDroopTrip frac regions s) := by
  unfold execDroopTrip
  extract_lets v1 v2 v3
  have h4 : Kept s v1 := atFrac_kept ..
  clear_value v1
  have h5 : Kept s v3 := by
    unfold v3
    refine Kept.foldl (fun a x => ?_) ?_
    · exact incF_kept ..
    · assumption
  clear_value v3
  refine KeptO.next ?_
  refine Kept.ite (fun _ => ?_) (fun _ => ?_)
  · assumption
  · refine Kept.trans ?_ (showClocks_kept ..)
    refine Kept.trans ?_ (incF_kept ..)
    refine Kept.trans ?_ (setF_kept ..)
    assumption

theorem execDroopRestore_kept (frac) (s : State) : KeptO s (execDroopRestore frac s) := by
  unfold execDroopRestore
  extract_lets v1
  have h2 : Kept s v1 := atFrac_kept ..
  clear_value v1
  refine KeptO.next ?_
  refine Kept.ite (fun _ => ?_) (fun _ => ?_)
  · refine Kept.trans ?_ (showClocks_kept ..)
    refine Kept.trans ?_ (setF_kept ..)
    assumption
  · assumption

theorem setStep_kept (new) (s : State) : Kept s (setStep new s) := by
  unfold setStep
  extract_lets v1 v2 v3 v4
  have h5 : Kept s v2 := blot_kept ..
  clear_value v2
  have h6 : Kept s v4 := by
    unfold v4
    refine Kept.trans ?_ (setF_kept ..)
    refine Kept.trans ?_ (Kept.upd rfl rfl rfl rfl rfl rfl)
    assumption
  clear_value v4
  refine Kept.ite (fun _ => ?_) (fun _ => ?_)
  · exact Kept.refl _
  · refine Kept.trans ?_ (showClocks_kept ..)
    refine Kept.ite (fun _ => ?_) (fun _ => ?_)
    · refine Kept.trans ?_ (setF_kept ..)
      assumption
    · refine Kept.ite (fun _ => ?_) (fun _ => ?_)
      · refine Kept.trans ?_ (setF_kept ..)
        assumption
      · assumption

theorem checkFailsafe_kept (s : State) : Kept s (checkFailsafe s) := by
  unfold checkFailsafe
  refine Kept.ite (fun _ => ?_) (fun _ => ?_)
  · refine Kept.trans ?_ (setStep_kept ..)
    exact setF_kept ..
  · exact Kept.refl _

theorem failSensor_kept (i last) (s : State) : Kept s (failSensor i last s) := by
  unfold failSensor
  refine Kept.ite (fun _ => ?_) (fun _ => ?_)
  · exact Kept.refl _
  · refine Kept.trans ?_ (checkFailsafe_kept ..)
    refine Kept.trans ?_ (blot_kept ..)
    refine Kept.trans ?_ (setF_kept ..)
    exact setF_kept ..

theorem execSensorFail_kept (sensor last) (s : State) : KeptO s (execSensorFail sensor last s) := by
  unfold execSensorFail
  refine KeptO.next ?_
  exact failSensor_kept ..

theorem takeTemp_kept (i v) (s : State) : Kept s (takeTemp i v s) := by
  unfold takeTemp
  refine Kept.ite (fun _ => ?_) (fun _ => ?_)
  · exact Kept.refl _
  · refine Kept.ite (fun _ => ?_) (fun _ => ?_)
    · exact failSensor_kept ..
    · extract_lets v1
      have h2 : Kept s v1 := setF_kept ..
      clear_value v1
      refine Kept.ite (fun _ => ?_) (fun _ => ?_)
      · refine Kept.trans ?_ (setF_kept ..)
        assumption
      · assumption

theorem trackCooling_kept (q) (s : State) : Kept s (trackCooling q s) := by
  unfold trackCooling
  extract_lets v1 v2 v3
  exact Kept.upd rfl rfl rfl rfl rfl rfl

theorem tempEvents_kept (old new) (s : State) : Kept s (tempEvents old new s) := by
  unfold tempEvents
  refine Kept.foldl (fun a x => ?_) ?_
  · extract_lets v1 v2
    refine Kept.ite (fun _ => ?_) (fun _ => ?_)
    · exact raiseEvent_kept ..
    · exact Kept.refl _
  · exact Kept.refl _

theorem wantStop_kept (cause) (s : State) : Kept s (wantStop cause s) := by
  unfold wantStop
  refine Kept.ite (fun _ => ?_) (fun _ => ?_)
  · exact Kept.upd rfl rfl rfl rfl rfl rfl
  · exact Kept.refl _

theorem applyTemp_kept (s : State) : Kept s (applyTemp s) := by
  unfold applyTemp
  split
  · exact Kept.refl _
  · extract_lets v1 v2 v3 v4
    have h5 : Kept s v2 := by
      unfold v2
      refine Kept.trans ?_ (setF_kept ..)
      refine Kept.trans ?_ (setF_kept ..)
      exact setF_kept ..
    clear_value v2
    have h6 : Kept s v3 := by
      unfold v3
      refine Kept.trans ?_ (trackCooling_kept ..)
      refine Kept.trans ?_ (setStep_kept ..)
      assumption
    clear_value v3
    have h7 : Kept s v4 := by
      unfold v4
      refine Kept.trans ?_ (tempEvents_kept ..)
      assumption
    clear_value v4
    refine Kept.ite (fun _ => ?_) (fun _ => ?_)
    · refine Kept.trans ?_ (wantStop_kept ..)
      assumption
    · assumption

theorem execThermalSample_kept (frac readings) (s : State) : KeptO s (execThermalSample frac readings s) := by
  unfold execThermalSample
  refine KeptO.next ?_
  refine Kept.trans ?_ (applyTemp_kept ..)
  refine Kept.foldl (fun a x => ?_) ?_
  · split
    · exact takeTemp_kept ..
    · exact Kept.refl _
  · exact atFrac_kept ..

theorem execThermalStepDown_kept (s : State) : KeptO s (execThermalStepDown s) := by
  unfold execThermalStepDown
  extract_lets v1
  refine KeptO.next ?_
  refine Kept.ite (fun _ => ?_) (fun _ => ?_)
  · exact setStep_kept ..
  · exact Kept.refl _

theorem takeVolt_kept (i mv) (s : State) : Kept s (takeVolt i mv s) := by
  unfold takeVolt
  extract_lets v1 v2 v3 v4
  have h5 : Kept s v2 := setF_kept ..
  clear_value v2
  have h6 : Kept s v3 := by
    unfold v3
    refine Kept.ite (fun _ => ?_) (fun _ => ?_)
    · assumption
    · refine Kept.trans ?_ (setF_kept ..)
      assumption
  clear_value v3
  refine Kept.ite (fun _ => ?_) (fun _ => ?_)
  · assumption
  · refine Kept.trans ?_ (Kept.upd rfl rfl rfl rfl rfl rfl)
    assumption

theorem execVmonSample_kept (frac mv) (s : State) : KeptO s (execVmonSample frac mv s) := by
  unfold execVmonSample
  refine KeptO.next ?_
  refine Kept.foldl (fun a x => ?_) ?_
  · exact takeVolt_kept ..
  · exact atFrac_kept ..

theorem execVmonOvervoltage_kept (mon mv) (s : State) : KeptO s (execVmonOvervoltage mon mv s) := by
  unfold execVmonOvervoltage
  refine KeptO.next ?_
  refine Kept.ite (fun _ => ?_) (fun _ => ?_)
  · exact Kept.refl _
  · refine Kept.trans ?_ (blot_kept ..)
    exact Kept.upd rfl rfl rfl rfl rfl rfl

theorem execVmonSelfCheck_kept (bad) (s : State) : KeptO s (execVmonSelfCheck bad s) := by
  unfold execVmonSelfCheck
  refine KeptO.next ?_
  refine Kept.foldl (fun a x => ?_) ?_
  · refine Kept.trans ?_ (blot_kept ..)
    refine Kept.trans ?_ (setF_kept ..)
    exact setF_kept ..
  · exact Kept.refl _

theorem execPmonMeasure_kept (freqs) (s : State) : KeptO s (execPmonMeasure freqs s) := by
  unfold execPmonMeasure
  refine KeptO.next ?_
  refine Kept.foldl (fun a x => ?_) ?_
  · split
    · exact Kept.refl _
    · extract_lets v1 v2
      have h3 : Kept a v1 := by
        unfold v1
        refine Kept.trans ?_ (setF_kept ..)
        exact setF_kept ..
      clear_value v1
      refine Kept.ite (fun _ => ?_) (fun _ => ?_)
      · refine Kept.trans ?_ (blot_kept ..)
        refine Kept.trans ?_ (Kept.upd rfl rfl rfl rfl rfl rfl)
        assumption
      · assumption
  · exact Kept.refl _

theorem setEvt_kept (n x) (s : State) : Kept s (setEvt n x s) := by
  unfold setEvt
  exact Kept.upd rfl rfl rfl rfl rfl rfl

theorem eventRec_kept (n old new dtime baseline) (s : State) : Kept s (eventRec n old new dtime baseline s) := by
  unfold eventRec
  extract_lets v1 v2
  refine Kept.ite (fun _ => ?_) (fun _ => ?_)
  · refine Kept.trans ?_ (incF_kept ..)
    exact setEvt_kept ..
  · refine Kept.trans ?_ (addRecAt_kept ..)
    exact setEvt_kept ..

theorem ignition_kept (n new) (s : State) : Kept s (ignition n new s) := by
  unfold ignition
  refine Kept.ite (fun _ => ?_) (fun _ => ?_)
  · exact Kept.refl _
  · refine Kept.ite (fun _ => ?_) (fun _ => ?_)
    · exact ignitionOn_kept ..
    · exact Kept.upd rfl rfl rfl rfl rfl rfl

theorem declareEvt_kept (n new) (s : State) : Kept s (declareEvt n new s) := by
  unfold declareEvt
  extract_lets v1 v2 v3 v4 v5 v6 v7 v8 v9
  have h10 : Kept s v3 := setF_kept ..
  clear_value v3
  have h11 : Kept s v4 := by
    unfold v4
    refine Kept.ite (fun _ => ?_) (fun _ => ?_)
    · assumption
    · refine Kept.trans ?_ (incF_kept ..)
      assumption
  clear_value v4
  have h12 : Kept s v5 := by
    unfold v5
    refine Kept.trans ?_ (eventRec_kept ..)
    assumption
  clear_value v5
  have h13 : Kept s v7 := by
    unfold v7
    refine Kept.trans ?_ (setEvt_kept ..)
    assumption
  clear_value v7
  have h14 : Kept s v8 := by
    unfold v8
    refine Kept.ite (fun _ => ?_) (fun _ => ?_)
    · refine Kept.trans ?_ (blot_kept ..)
      assumption
    · assumption
  clear_value v8
  have h15 : Kept s v9 := by
    unfold v9
    refine Kept.trans ?_ (ignition_kept ..)
    assumption
  clear_value v9
  refine Kept.ite (fun _ => ?_) (fun _ => ?_)
  · refine Kept.trans ?_ (wake_kept ..)
    assumption
  · assumption

theorem sampleEvt_kept (n e) (s : State) : Kept s (sampleEvt n e s) := by
  unfold sampleEvt
  extract_lets v1 v2 v3 v4 v5 v6 v7 v8
  have h9 : Kept s v3 := setEvt_kept ..
  clear_value v3
  have h10 : Kept s v7 := by
    unfold v7
    refine Kept.trans ?_ (setEvt_kept ..)
    refine Kept.trans ?_ (setF_kept ..)
    exact setF_kept ..
  clear_value v7
  have h11 : Kept s v8 := by
    unfold v8
    refine Kept.ite (fun _ => ?_) (fun _ => ?_)
    · refine Kept.trans ?_ (setF_kept ..)
      assumption
    · assumption
  clear_value v8
  refine Kept.ite (fun _ => ?_) (fun _ => ?_)
  · exact Kept.refl _
  · refine Kept.ite (fun _ => ?_) (fun _ => ?_)
    · refine Kept.ite (fun _ => ?_) (fun _ => ?_)
      · assumption
      · refine Kept.trans ?_ (blot_kept ..)
        refine Kept.trans ?_ (setF_kept ..)
        assumption
    · refine Kept.ite (fun _ => ?_) (fun _ => ?_)
      · refine Kept.trans ?_ (declareEvt_kept ..)
        assumption
      · assumption

theorem execEvtSample_kept (frac samples) (s : State) : KeptO s (execEvtSample frac samples s) := by
  unfold execEvtSample
  refine KeptO.next ?_
  refine Kept.foldl (fun a x => ?_) ?_
  · split
    · exact sampleEvt_kept ..
    · exact Kept.refl _
  · exact atFrac_kept ..

theorem disableEvt_kept (n) (s : State) : Kept s (disableEvt n s) := by
  unfold disableEvt
  extract_lets v1 v2
  have h3 : Kept s v2 := eventRec_kept ..
  clear_value v2
  refine Kept.trans ?_ (setF_kept ..)
  refine Kept.trans ?_ (setF_kept ..)
  refine Kept.trans ?_ (setEvt_kept ..)
  assumption

theorem clearLog_kept (s : State) : Kept s (clearLog s) := by
  unfold clearLog
  refine Kept.trans ?_ (blot_kept _ _ _ _ _)
  refine Kept.trans ?_ (setF_kept _ _ _)
  exact ⟨id, id, id, fun h => ⟨by simp, h.2⟩, Nat.le_refl _, List.prefix_refl _, List.prefix_refl _, rfl⟩

theorem execLogClear_kept (s : State) : KeptO s (execLogClear s) := by
  unfold execLogClear
  refine KeptO.next ?_
  exact clearLog_kept ..

end Sys2Proof.Machine
end

