-- ==== Sys2Proof/Laws/KeptLink.lean ====
section
/-!
SUPPORT. What every command but ALWAYS_ON_POWER_LOST keeps (`Kept`), operation by operation: Oxvia, the domain, logs, namespaces, loads, signatures, the stroke boundary, firmware, accesses to BAR2 and NVMe-MI.
-/

namespace Sys2Proof.Machine

/-! ### Sys2Proof/Machine/Oxvia.lean -/

theorem sendStatus_kept (s : State) : Kept s (sendStatus s) := by
  unfold sendStatus
  refine Kept.ite (fun _ => ?_) (fun _ => ?_)
  · exact Kept.refl _
  · exact oxvFlood_kept ..

theorem execOxvLinkUp_kept (frac link width polarity laneMap) (s : State) :
    KeptO s (execOxvLinkUp frac link width polarity laneMap s) := by
  unfold execOxvLinkUp
  extract_lets v1 v2
  have h3 : Kept s v1 := atFrac_kept ..
  clear_value v1
  refine KeptO.next ?_
  split
  · assumption
  · refine Kept.ite (fun _ => ?_) (fun _ => ?_)
    · assumption
    · extract_lets v4
      have h5 : Kept s v4 := by
        unfold v4
        refine Kept.trans ?_ (setF_kept ..)
        refine Kept.trans ?_ (setF_kept ..)
        refine Kept.trans ?_ (setF_kept ..)
        refine Kept.trans ?_ (setF_kept ..)
        refine Kept.trans ?_ (setF_kept ..)
        refine Kept.trans ?_ (setF_kept ..)
        refine Kept.trans ?_ (setF_kept ..)
        refine Kept.trans ?_ (setF_kept ..)
        assumption
      clear_value v4
      refine Kept.trans ?_ (sendStatus_kept ..)
      refine Kept.trans ?_ (faultRec_kept ..)
      assumption

theorem oxvDown_kept (link) (s : State) : Kept s (oxvDown link s) := by
  unfold oxvDown
  extract_lets v1 v2
  have h3 : Kept s v2 := by
    unfold v2
    refine Kept.trans ?_ (incF_kept ..)
    refine Kept.trans ?_ (setF_kept ..)
    exact setF_kept ..
  clear_value v2
  refine Kept.trans ?_ (sendStatus_kept ..)
  refine Kept.trans ?_ (faultRec_kept ..)
  refine Kept.trans ?_ (updLink_kept ..)
  assumption

theorem execOxvLinkDown_kept (frac link) (s : State) : KeptO s (execOxvLinkDown frac link s) := by
  unfold execOxvLinkDown
  extract_lets v1
  have h2 : Kept s v1 := atFrac_kept ..
  clear_value v1
  refine KeptO.next ?_
  refine Kept.ite (fun _ => ?_) (fun _ => ?_)
  · refine Kept.trans ?_ (oxvDown_kept ..)
    assumption
  · assumption

theorem execHelloFrame_kept (link rev min tag dev) (s : State) : KeptO s (execHelloFrame link rev min tag dev s) := by
  unfold execHelloFrame
  refine KeptO.next ?_
  refine Kept.ite (fun _ => ?_) (fun _ => ?_)
  · exact Kept.refl _
  · extract_lets v1 v2 v3
    have h4 : Kept s v1 := updLink_kept ..
    clear_value v1
    have h5 : Kept s v2 := by
      unfold v2
      refine Kept.trans ?_ (emit_kept ..)
      assumption
    clear_value v2
    refine Kept.trans ?_ (setF_kept ..)
    refine Kept.trans ?_ (setF_kept ..)
    refine Kept.ite (fun _ => ?_) (fun _ => ?_)
    · refine Kept.trans ?_ (setF_kept ..)
      assumption
    · assumption

theorem oxvAck_kept (l ack) (s : State) : Kept s (oxvAck l ack s) := by
  unfold oxvAck
  extract_lets v1 v2 v3
  refine Kept.ite (fun _ => ?_) (fun _ => ?_)
  · refine Kept.foldl (fun a x => ?_) ?_
    · exact emit_kept ..
    · exact updLink_kept ..
  · exact Kept.refl _

theorem fmtErr_kept (l) (s : State) : Kept s (fmtErr l s) := by
  unfold fmtErr
  exact incF_kept ..

theorem sendNak_kept (l seq) (s : State) : Kept s (sendNak l seq s) := by
  unfold sendNak
  exact oxvSendOn_kept ..

theorem floodOn_kept (h type payload) (s : State) : Kept s (floodOn h type payload s) := by
  unfold floodOn
  refine Kept.ite (fun _ => ?_) (fun _ => ?_)
  · exact fmtErr_kept ..
  · refine Kept.foldl (fun a x => ?_) ?_
    · refine Kept.ite (fun _ => ?_) (fun _ => ?_)
      · exact Kept.refl _
      · exact oxvPut_kept ..
    · exact Kept.refl _

theorem forwardOn_kept (h type payload) (s : State) : Kept s (forwardOn h type payload s) := by
  unfold forwardOn
  refine Kept.ite (fun _ => ?_) (fun _ => ?_)
  · exact fmtErr_kept ..
  · split
    · exact oxvPut_kept ..
    · exact Kept.refl _

theorem replayFrom_kept (l fs) (s : State) : Kept s (replayFrom l fs s) := by
  unfold replayFrom
  refine Kept.ite (fun _ => ?_) (fun _ => ?_)
  · exact Kept.refl _
  · extract_lets v1
    have h2 : Kept s v1 := by
      unfold v1
      refine Kept.foldl (fun a x => ?_) ?_
      · exact emit_kept ..
      · refine Kept.trans ?_ (incF_kept ..)
        exact updLink_kept ..
    clear_value v1
    refine Kept.ite (fun _ => ?_) (fun _ => ?_)
    · refine Kept.trans ?_ (oxvDown_kept ..)
      assumption
    · assumption

theorem execNakFrame_kept (link seq) (s : State) : KeptO s (execNakFrame link seq s) := by
  unfold execNakFrame
  refine KeptO.next ?_
  refine Kept.ite (fun _ => ?_) (fun _ => ?_)
  · exact replayFrom_kept ..
  · exact Kept.refl _

theorem execReplayTimeout_kept (link) (s : State) : KeptO s (execReplayTimeout link s) := by
  unfold execReplayTimeout
  refine KeptO.next ?_
  refine Kept.ite (fun _ => ?_) (fun _ => ?_)
  · exact replayFrom_kept ..
  · exact Kept.refl _

theorem execMissedSync_kept (link early) (s : State) : KeptO s (execMissedSync link early s) := by
  unfold execMissedSync
  refine KeptO.next ?_
  refine Kept.ite (fun _ => ?_) (fun _ => ?_)
  · refine Kept.trans ?_ (incF_kept ..)
    exact incF_kept ..
  · exact Kept.refl _

theorem execOxvBadFrame_kept (link fault rel seq) (s : State) : KeptO s (execOxvBadFrame link fault rel seq s) := by
  unfold execOxvBadFrame
  refine KeptO.next ?_
  refine Kept.ite (fun _ => ?_) (fun _ => ?_)
  · exact Kept.refl _
  · split
    · exact fmtErr_kept ..
    · exact fmtErr_kept ..
    · split
      · refine Kept.trans ?_ (sendNak_kept ..)
        exact incF_kept ..
      · dsimp only [id]
        exact incF_kept ..
    · refine Kept.trans ?_ (sendNak_kept ..)
      exact fmtErr_kept ..

theorem execDelayReq_kept (link payload) (s : State) : KeptO s (execDelayReq link payload s) := by
  unfold execDelayReq
  refine KeptO.next ?_
  refine Kept.ite (fun _ => ?_) (fun _ => ?_)
  · exact oxvSendOn_kept ..
  · exact Kept.refl _

theorem execDelayResp_kept (link ns) (s : State) : KeptO s (execDelayResp link ns s) := by
  unfold execDelayResp
  refine KeptO.next ?_
  refine Kept.ite (fun _ => ?_) (fun _ => ?_)
  · exact Kept.refl _
  · extract_lets v1 v2
    have h3 : Kept s v2 := by
      unfold v2
      refine Kept.trans ?_ (updLink_kept ..)
      exact setF_kept ..
    clear_value v2
    refine Kept.ite (fun _ => ?_) (fun _ => ?_)
    · refine Kept.trans ?_ (setF_kept ..)
      assumption
    · refine Kept.ite (fun _ => ?_) (fun _ => ?_)
      · refine Kept.trans ?_ (setF_kept ..)
        assumption
      · assumption

theorem sendDelays_kept (s : State) : Kept s (sendDelays s) := by
  unfold sendDelays
  refine Kept.foldl (fun a x => ?_) ?_
  · refine Kept.ite (fun _ => ?_) (fun _ => ?_)
    · refine Kept.trans ?_ (updLink_kept ..)
      exact oxvSendOn_kept ..
    · exact Kept.refl _
  · exact Kept.refl _

theorem sendMark_kept (s : State) : Kept s (sendMark s) := by
  unfold sendMark
  refine Kept.ite (fun _ => ?_) (fun _ => ?_)
  · exact Kept.refl _
  · exact oxvSendAll_kept ..

theorem markPeriod_kept (p) (s : State) : Kept s (markPeriod p s) := by
  unfold markPeriod
  refine Kept.ite (fun _ => ?_) (fun _ => ?_)
  · exact Kept.refl _
  · refine Kept.trans ?_ (anchorRec_kept ..)
    refine Kept.trans ?_ (setF_kept ..)
    exact Kept.upd rfl rfl rfl rfl rfl rfl

theorem takeMark_kept (count period lateNs) (s : State) : Kept s (takeMark count period lateNs s) := by
  unfold takeMark
  refine Kept.ite (fun _ => ?_) (fun _ => ?_)
  · exact Kept.refl _
  · extract_lets v1 v2 v3 v4
    have h5 : Kept s v2 := Kept.upd rfl rfl rfl rfl rfl rfl
    clear_value v2
    have h6 : Kept s v3 := by
      unfold v3
      refine Kept.trans ?_ (markPeriod_kept ..)
      assumption
    clear_value v3
    refine Kept.ite (fun _ => ?_) (fun _ => ?_)
    · refine Kept.trans ?_ (bootReference_kept ..)
      assumption
    · refine Kept.trans ?_ (markPeriod_kept ..)
      refine Kept.trans ?_ (measure_kept ..)
      assumption

theorem execMarkFrame_kept (frac h count state flog2 period root corr tag arrivalNs) (s : State) :
    KeptO s (execMarkFrame frac h count state flog2 period root corr tag arrivalNs s) := by
  unfold execMarkFrame
  extract_lets v1 v2 v3 v4 v5 v6 v7 v8
  have h9 : Kept s v1 := atFrac_kept ..
  clear_value v1
  have h10 : Kept s v2.2 := by
    unfold v2
    refine Kept.trans ?_ (takeFree_kept ..)
    assumption
  clear_value v2
  have h11 : Kept s v4 := by
    unfold v4
    assumption
  clear_value v4
  have h12 : Kept s v7 := by
    unfold v7
    refine Kept.trans ?_ (Kept.upd rfl rfl rfl rfl rfl rfl)
    assumption
  clear_value v7
  have h13 : Kept s v8 := by
    unfold v8
    refine Kept.ite (fun _ => ?_) (fun _ => ?_)
    · refine Kept.trans ?_ (fmtErr_kept ..)
      assumption
    · refine Kept.foldl (fun a x => ?_) ?_
      · refine Kept.ite (fun _ => ?_) (fun _ => ?_)
        · exact Kept.refl _
        · exact oxvPut_kept ..
      · assumption
  clear_value v8
  refine KeptO.next ?_
  refine Kept.ite (fun _ => ?_) (fun _ => ?_)
  · assumption
  · refine Kept.ite (fun _ => ?_) (fun _ => ?_)
    · refine Kept.trans ?_ (incF_kept ..)
      assumption
    · refine Kept.ite (fun _ => ?_) (fun _ => ?_)
      · assumption
      · refine Kept.trans ?_ (takeMark_kept ..)
        assumption

theorem execFdFrame_kept (h dev index fd) (s : State) : KeptO s (execFdFrame h dev index fd s) := by
  unfold execFdFrame
  refine KeptO.next ?_
  refine Kept.ite (fun _ => ?_) (fun _ => ?_)
  · exact takeFd_kept ..
  · exact Kept.refl _

theorem showDomainAttn_kept (s : State) : Kept s (showDomainAttn s) := by
  unfold showDomainAttn
  refine Kept.ite (fun _ => ?_) (fun _ => ?_)
  · exact Kept.refl _
  · exact setF_kept ..

theorem sendHeld_kept (d) (s : State) : Kept s (sendHeld d s) := by
  unfold sendHeld
  extract_lets v1 v2
  refine Kept.foldl (fun a x => ?_) ?_
  · exact oxvTo_kept ..
  · exact Kept.upd rfl rfl rfl rfl rfl rfl

theorem takeStatus_kept (h mode attn rev min index lag ups) (s : State) :
    Kept s (takeStatus h mode attn rev min index lag ups s) := by
  unfold takeStatus
  refine Kept.ite (fun _ => ?_) (fun _ => ?_)
  · exact Kept.refl _
  · extract_lets v1 v2 v3
    refine Kept.trans ?_ (showDomainAttn_kept ..)
    refine Kept.trans ?_ (sendHeld_kept ..)
    exact Kept.upd rfl rfl rfl rfl rfl rfl

theorem execOxvStatusFrame_kept (h mode attn rev min index lag ups) (s : State) :
    KeptO s (execOxvStatusFrame h mode attn rev min index lag ups s) := by
  unfold execOxvStatusFrame
  refine KeptO.next ?_
  unfold oxvReceive
  refine Kept.ite (fun _ => ?_) (fun _ => ?_)
  · exact Kept.refl _
  · extract_lets v1 v2 v3 v4 v5
    have h6 : Kept s v1 := oxvAck_kept ..
    clear_value v1
    have h7 : Kept s v5 := by
      unfold v5
      refine Kept.ite (fun _ => ?_) (fun _ => ?_)
      · refine Kept.trans ?_ (updLink_kept ..)
        assumption
      · assumption
    clear_value v5
    refine Kept.ite (fun _ => ?_) (fun _ => ?_)
    · refine Kept.ite (fun _ => ?_) (fun _ => ?_)
      · assumption
      · refine Kept.trans ?_ (takeStatus_kept ..)
        refine Kept.trans ?_ (floodOn_kept ..)
        refine Kept.trans ?_ (Kept.upd rfl rfl rfl rfl rfl rfl)
        assumption
    · refine Kept.ite (fun _ => ?_) (fun _ => ?_)
      · refine Kept.ite (fun _ => ?_) (fun _ => ?_)
        · refine Kept.trans ?_ (sendNak_kept ..)
          assumption
        · assumption
      · refine Kept.ite (fun _ => ?_) (fun _ => ?_)
        · refine Kept.trans ?_ (takeStatus_kept ..)
          assumption
        · refine Kept.trans ?_ (forwardOn_kept ..)
          assumption

theorem loseHead_kept (head) (s : State) : Kept s (loseHead head s) := by
  unfold loseHead
  extract_lets v1 v2 v3
  have h4 : Kept s v1 := abandonCmds_kept ..
  clear_value v1
  have h5 : Kept s v2 := by
    unfold v2
    refine Kept.foldl (fun a x => ?_) ?_
    · exact oxvTo_kept ..
    · assumption
  clear_value v2
  refine Kept.trans ?_ (updFn_kept ..)
  refine Kept.trans ?_ (Kept.upd rfl rfl rfl rfl rfl rfl)
  assumption

theorem execMemberUnreachable_kept (dev) (s : State) : KeptO s (execMemberUnreachable dev s) := by
  unfold execMemberUnreachable
  extract_lets v1 v2 v3 v4
  have h5 : Kept s v3 := Kept.upd rfl rfl rfl rfl rfl rfl
  clear_value v3
  have h6 : Kept s v4 := by
    unfold v4
    refine Kept.ite (fun _ => ?_) (fun _ => ?_)
    · refine Kept.trans ?_ (setF_kept ..)
      refine Kept.trans ?_ (setF_kept ..)
      assumption
    · assumption
  clear_value v4
  refine KeptO.next ?_
  refine Kept.ite (fun _ => ?_) (fun _ => ?_)
  · exact Kept.refl _
  · refine Kept.ite (fun _ => ?_) (fun _ => ?_)
    · refine Kept.trans ?_ (loseHead_kept ..)
      assumption
    · refine Kept.trans ?_ (showDomainAttn_kept ..)
      assumption

theorem remoteWrite_kept (value) (s : State) : Kept s (remoteWrite value s) := by
  unfold remoteWrite
  extract_lets v1 v2 v3 v4
  have h5 : Kept s v1 := plainWrite_kept ..
  clear_value v1
  refine Kept.ite (fun _ => ?_) (fun _ => ?_)
  · assumption
  · refine Kept.ite (fun _ => ?_) (fun _ => ?_)
    · refine Kept.trans ?_ (oxvTo_kept ..)
      refine Kept.trans ?_ (setF_kept ..)
      assumption
    · refine Kept.trans ?_ (setF_kept ..)
      refine Kept.ite (fun _ => ?_) (fun _ => ?_)
      · assumption
      · refine Kept.trans ?_ (setF_kept ..)
        assumption

theorem execRemoteGo_kept (value) (s : State) : KeptO s (execRemoteGo value s) := by
  unfold execRemoteGo
  refine KeptO.next ?_
  split
  · exact Kept.refl _
  · exact Kept.refl _
  · exact Kept.refl _
  · exact remoteWrite_kept ..

/-! ### Sys2Proof/Machine/Domain.lean -/

theorem abortDomain_kept (k st) (s : State) : Kept s (abortDomain k st s) := by
  unfold abortDomain
  refine Kept.trans ?_ (complete_kept ..)
  refine Kept.trans ?_ (oxvFlood_kept ..)
  exact Kept.upd rfl rfl rfl rfl rfl rfl

theorem sendCommit_kept (k) (s : State) : Kept s (sendCommit k s) := by
  unfold sendCommit
  extract_lets v1 v2 v3
  refine Kept.trans ?_ (oxvFlood_kept ..)
  exact Kept.upd rfl rfl rfl rfl rfl rfl

theorem checkAcked_kept (s : State) : Kept s (checkAcked s) := by
  unfold checkAcked
  split
  · refine Kept.ite (fun _ => ?_) (fun _ => ?_)
    · refine Kept.trans ?_ (complete_kept ..)
      exact Kept.upd rfl rfl rfl rfl rfl rfl
    · exact Kept.refl _
  · exact Kept.refl _

theorem checkReady_kept (s : State) : Kept s (checkReady s) := by
  unfold checkReady
  split
  · refine Kept.ite (fun _ => ?_) (fun _ => ?_)
    · refine Kept.trans ?_ (checkAcked_kept ..)
      exact sendCommit_kept ..
    · exact Kept.refl _
  · exact Kept.refl _

theorem domainConfigure_kept (q numd data) (s : State) : Kept s (domainConfigure q numd data s) := by
  unfold domainConfigure
  extract_lets v1 v2 v3
  split
  · exact done_kept ..
  · refine Kept.trans ?_ (checkReady_kept ..)
    refine Kept.trans ?_ (oxvFlood_kept ..)
    exact Kept.upd rfl rfl rfl rfl rfl rfl

theorem execDomainConfigure_kept (q numd data) (s : State) : KeptO s (execDomainConfigure q numd data s) := by
  unfold execDomainConfigure
  unfold adminFetch
  refine KeptO.next ?_
  refine Kept.ite (fun _ => ?_) (fun _ => ?_)
  · split
    · refine Kept.trans ?_ (toFollower_kept ..)
      exact takeEntry_kept ..
    · unfold adminRun
      split
      · refine Kept.trans ?_ (done_kept ..)
        exact takeEntry_kept ..
      · refine Kept.ite (fun _ => ?_) (fun _ => ?_)
        · refine Kept.trans ?_ (done_kept ..)
          refine Kept.trans ?_ (takeDeferred_kept ..)
          exact takeEntry_kept ..
        · refine Kept.trans ?_ (domainConfigure_kept ..)
          exact takeEntry_kept ..
  · exact Kept.refl _

theorem domainRealign_kept (q) (s : State) : Kept s (domainRealign q s) := by
  unfold domainRealign
  refine Kept.ite (fun _ => ?_) (fun _ => ?_)
  · refine Kept.trans ?_ (done_kept ..)
    exact Kept.upd rfl rfl rfl rfl rfl rfl
  · exact done_kept ..

theorem execDomainRealign_kept (q) (s : State) : KeptO s (execDomainRealign q s) := by
  unfold execDomainRealign
  unfold adminFetch
  refine KeptO.next ?_
  refine Kept.ite (fun _ => ?_) (fun _ => ?_)
  · split
    · refine Kept.trans ?_ (toFollower_kept ..)
      exact takeEntry_kept ..
    · unfold adminRun
      split
      · refine Kept.trans ?_ (done_kept ..)
        exact takeEntry_kept ..
      · refine Kept.ite (fun _ => ?_) (fun _ => ?_)
        · refine Kept.trans ?_ (done_kept ..)
          refine Kept.trans ?_ (takeDeferred_kept ..)
          exact takeEntry_kept ..
        · refine Kept.trans ?_ (domainRealign_kept ..)
          exact takeEntry_kept ..
  · exact Kept.refl _

theorem execDomainPrepareTimeout_kept (s : State) : KeptO s (execDomainPrepareTimeout s) := by
  unfold execDomainPrepareTimeout
  refine KeptO.next ?_
  split
  · refine Kept.ite (fun _ => ?_) (fun _ => ?_)
    · exact abortDomain_kept ..
    · exact Kept.refl _
  · exact Kept.refl _

theorem commitSource_kept (root) (s : State) : Kept s (commitSource root s) := by
  unfold commitSource
  extract_lets v1
  have h2 : Kept s v1 := by
    unfold v1
    refine Kept.ite (fun _ => ?_) (fun _ => ?_)
    · exact Kept.refl _
    · exact setF_kept ..
  clear_value v1
  refine Kept.ite (fun _ => ?_) (fun _ => ?_)
  · refine Kept.trans ?_ (anchorRec_kept ..)
    assumption
  · refine Kept.trans ?_ (sourceChange_kept ..)
    assumption

theorem commitCount_kept (root : Bool) (n : Nat) (s : State) : Kept s (commitCount root n s) := by
  unfold commitCount
  apply Kept.ite
  · intro _; exact Kept.clock (t := _) (Nat.le_max_left _ _) id
  · intro _; exact Kept.refl s

theorem commitPeriod_kept (root p) (s : State) : Kept s (commitPeriod root p s) := by
  unfold commitPeriod
  refine Kept.ite (fun _ => ?_) (fun _ => ?_)
  · refine Kept.trans ?_ (setF_kept ..)
    refine Kept.trans ?_ (setF_kept ..)
    exact setF_kept ..
  · exact Kept.refl _

theorem joinDomain_kept (c i) (s : State) : Kept s (joinDomain c i s) := by
  unfold joinDomain
  extract_lets v1 v2 v3 v4 v5 v6 v7 v8 v9
  have h10 : Kept s v4 := commitCount_kept ..
  clear_value v4
  have h11 : Kept s v8 := by
    unfold v8
    refine Kept.trans ?_ (Kept.upd rfl rfl rfl rfl rfl rfl)
    assumption
  clear_value v8
  have h12 : Kept s v9 := by
    unfold v9
    refine Kept.trans ?_ (setF_kept ..)
    refine Kept.trans ?_ (setF_kept ..)
    refine Kept.trans ?_ (setF_kept ..)
    refine Kept.trans ?_ (setF_kept ..)
    refine Kept.trans ?_ (setF_kept ..)
    refine Kept.trans ?_ (setF_kept ..)
    assumption
  clear_value v9
  refine Kept.trans ?_ (faultRec_kept ..)
  refine Kept.trans ?_ (commitSource_kept ..)
  refine Kept.trans ?_ (commitPeriod_kept ..)
  assumption

theorem execDomainCommit_kept (s : State) : KeptO s (execDomainCommit s) := by
  unfold execDomainCommit
  refine KeptO.next ?_
  split
  · split
    · refine Kept.ite (fun _ => ?_) (fun _ => ?_)
      · exact joinDomain_kept ..
      · exact Kept.refl _
    · exact Kept.refl _
  · exact Kept.refl _

theorem updPair_kept (i g) (s : State) : Kept s (updPair i g s) := by
  unfold updPair
  exact Kept.upd rfl rfl rfl rfl rfl rfl

theorem sendMirrorEnd_kept (i) (s : State) : Kept s (sendMirrorEnd i s) := by
  unfold sendMirrorEnd
  exact oxvTo_kept ..

theorem mirrorFull_kept (i) (s : State) : Kept s (mirrorFull i s) := by
  unfold mirrorFull
  refine Kept.trans ?_ (faultRec_kept ..)
  refine Kept.trans ?_ (setF_kept ..)
  refine Kept.trans ?_ (setF_kept ..)
  exact updPair_kept ..

theorem takeMirrorEnd_kept (src nsid partnerNsid source fit) (s : State) :
    Kept s (takeMirrorEnd src nsid partnerNsid source fit s) := by
  unfold takeMirrorEnd
  split
  · exact Kept.refl _
  · refine Kept.ite (fun _ => ?_) (fun _ => ?_)
    · refine Kept.ite (fun _ => ?_) (fun _ => ?_)
      · exact mirrorFull_kept ..
      · refine Kept.trans ?_ (sendMirrorEnd_kept ..)
        exact updPair_kept ..
    · exact updPair_kept ..

theorem takeControl_kept (h m) (s : State) : Kept s (takeControl h m s) := by
  unfold takeControl
  split
  · split
    · exact Kept.refl _
    · refine Kept.trans ?_ (oxvFlood_kept ..)
      refine Kept.ite (fun _ => ?_) (fun _ => ?_)
      · exact Kept.upd rfl rfl rfl rfl rfl rfl
      · exact Kept.refl _
  · split
    · refine Kept.trans ?_ (checkReady_kept ..)
      exact Kept.upd rfl rfl rfl rfl rfl rfl
    · exact Kept.refl _
  · split
    · refine Kept.ite (fun _ => ?_) (fun _ => ?_)
      · exact abortDomain_kept ..
      · exact Kept.refl _
    · exact Kept.refl _
  · split
    · refine Kept.ite (fun _ => ?_) (fun _ => ?_)
      · exact abortDomain_kept ..
      · exact Kept.refl _
    · exact Kept.refl _
  · split
    · refine Kept.ite (fun _ => ?_) (fun _ => ?_)
      · refine Kept.trans ?_ (oxvFlood_kept ..)
        exact Kept.upd rfl rfl rfl rfl rfl rfl
      · exact Kept.refl _
    · refine Kept.ite (fun _ => ?_) (fun _ => ?_)
      · exact oxvFlood_kept ..
      · exact Kept.refl _
  · split
    · refine Kept.trans ?_ (checkAcked_kept ..)
      exact Kept.upd rfl rfl rfl rfl rfl rfl
    · exact Kept.refl _
  · refine Kept.ite (fun _ => ?_) (fun _ => ?_)
    · exact Kept.upd rfl rfl rfl rfl rfl rfl
    · exact Kept.refl _
  · exact takeMirrorEnd_kept ..

theorem execControlFrame_kept (h m) (s : State) : KeptO s (execControlFrame h m s) := by
  unfold execControlFrame
  refine KeptO.next ?_
  unfold oxvReceive
  refine Kept.ite (fun _ => ?_) (fun _ => ?_)
  · exact Kept.refl _
  · extract_lets v1 v2 v3 v4 v5
    have h6 : Kept s v1 := oxvAck_kept ..
    clear_value v1
    have h7 : Kept s v5 := by
      unfold v5
      refine Kept.ite (fun _ => ?_) (fun _ => ?_)
      · refine Kept.trans ?_ (updLink_kept ..)
        assumption
      · assumption
    clear_value v5
    refine Kept.ite (fun _ => ?_) (fun _ => ?_)
    · refine Kept.ite (fun _ => ?_) (fun _ => ?_)
      · assumption
      · refine Kept.trans ?_ (takeControl_kept ..)
        refine Kept.trans ?_ (floodOn_kept ..)
        refine Kept.trans ?_ (Kept.upd rfl rfl rfl rfl rfl rfl)
        assumption
    · refine Kept.ite (fun _ => ?_) (fun _ => ?_)
      · refine Kept.ite (fun _ => ?_) (fun _ => ?_)
        · refine Kept.trans ?_ (sendNak_kept ..)
          assumption
        · assumption
      · refine Kept.ite (fun _ => ?_) (fun _ => ?_)
        · refine Kept.trans ?_ (takeControl_kept ..)
          assumption
        · refine Kept.trans ?_ (forwardOn_kept ..)
          assumption

theorem repeatCommit_kept (s : State) : Kept s (repeatCommit s) := by
  unfold repeatCommit
  split
  · split
    · exact oxvFlood_kept ..
    · exact Kept.refl _
  · exact Kept.refl _

theorem sendBlock_kept (i) (s : State) (lba) : Kept s (sendBlock i s lba) := by
  unfold sendBlock
  split
  · exact Kept.refl _
  · extract_lets v1 v2 v3 v4 v5 v6
    have h7 : Kept s v6 := by
      unfold v6
      refine Kept.ite (fun _ => ?_) (fun _ => ?_)
      · exact faultRec_kept ..
      · exact Kept.refl _
    clear_value v6
    refine Kept.trans ?_ (oxvTo_kept ..)
    refine Kept.trans ?_ (oxvTo_kept ..)
    assumption

theorem mirrorLag_kept (i) (s : State) : Kept s (mirrorLag i s) := by
  unfold mirrorLag
  extract_lets v1 v2 v3 v4
  have h5 : Kept s v3 := setF_kept ..
  clear_value v3
  refine Kept.ite (fun _ => ?_) (fun _ => ?_)
  · refine Kept.trans ?_ (faultRec_kept ..)
    refine Kept.trans ?_ (updPair_kept ..)
    assumption
  · refine Kept.ite (fun _ => ?_) (fun _ => ?_)
    · refine Kept.trans ?_ (faultRec_kept ..)
      refine Kept.trans ?_ (updPair_kept ..)
      assumption
    · assumption

theorem mirrorSource_kept (i) (s : State) : Kept s (mirrorSource i s) := by
  unfold mirrorSource
  split
  · exact Kept.refl _
  · extract_lets v1 v2 v3 v4
    have h5 : Kept s v3 := by
      unfold v3
      refine Kept.foldl (fun a x => ?_) ?_
      · exact sendBlock_kept ..
      · exact Kept.refl _
    clear_value v3
    have h6 : Kept s v4 := by
      unfold v4
      refine Kept.trans ?_ (oxvTo_kept ..)
      assumption
    clear_value v4
    refine Kept.ite (fun _ => ?_) (fun _ => ?_)
    · exact mirrorLag_kept ..
    · refine Kept.trans ?_ (mirrorLag_kept ..)
      refine Kept.trans ?_ (updPair_kept ..)
      assumption

theorem mirrorState_kept (i) (s : State) : Kept s (mirrorState i s) := by
  unfold mirrorState
  extract_lets v1 v2
  refine Kept.ite (fun _ => ?_) (fun _ => ?_)
  · refine Kept.ite (fun _ => ?_) (fun _ => ?_)
    · refine Kept.trans ?_ (setF_kept ..)
      refine Kept.trans ?_ (setF_kept ..)
      exact Kept.upd rfl rfl rfl rfl rfl rfl
    · exact Kept.refl _
  · refine Kept.ite (fun _ => ?_) (fun _ => ?_)
    · refine Kept.ite (fun _ => ?_) (fun _ => ?_)
      · exact Kept.refl _
      · exact mirrorSource_kept ..
    · refine Kept.ite (fun _ => ?_) (fun _ => ?_)
      · refine Kept.trans ?_ (setF_kept ..)
        exact updPair_kept ..
      · refine Kept.ite (fun _ => ?_) (fun _ => ?_)
        · exact sendMirrorEnd_kept ..
        · exact Kept.refl _

theorem mirrorBoundary_kept (s : State) : Kept s (mirrorBoundary s) := by
  unfold mirrorBoundary
  refine Kept.foldl (fun a x => ?_) ?_
  · exact mirrorState_kept ..
  · exact Kept.refl _

theorem mirrorAppend_kept (nsid data) (s : State) : Kept s (mirrorAppend nsid data s) := by
  unfold mirrorAppend
  split
  · exact Kept.refl _
  · extract_lets v1 v2
    have h3 : Kept s v2 := by
      unfold v2
      refine Kept.trans ?_ (absorb_kept ..)
      exact updNs_kept ..
    clear_value v2
    refine Kept.trans ?_ (notePeak_kept ..)
    refine Kept.trans ?_ (appendBlocks_kept ..)
    assumption

theorem mirrorAckOut_kept (i n) (s : State) : Kept s (mirrorAckOut i n s) := by
  unfold mirrorAckOut
  exact oxvTo_kept ..

theorem takeMirror_kept (h nsid stroke lba data) (s : State) : Kept s (takeMirror h nsid stroke lba data s) := by
  unfold takeMirror
  split
  · exact fmtErr_kept ..
  · refine Kept.ite (fun _ => ?_) (fun _ => ?_)
    · exact Kept.refl _
    · extract_lets v1 v2 v3 v4
      have h5 : Kept s v2 := by
        unfold v2
        split
        · refine Kept.ite (fun _ => ?_) (fun _ => ?_)
          · exact mirrorAckOut_kept ..
          · exact Kept.refl _
        · exact Kept.refl _
      clear_value v2
      have h6 : Kept s v3 := by
        unfold v3
        refine Kept.trans ?_ (updPair_kept ..)
        assumption
      clear_value v3
      split
      · assumption
      · refine Kept.ite (fun _ => ?_) (fun _ => ?_)
        · assumption
        · refine Kept.ite (fun _ => ?_) (fun _ => ?_)
          · refine Kept.trans ?_ (sendMirrorEnd_kept ..)
            refine Kept.trans ?_ (mirrorFull_kept ..)
            assumption
          · refine Kept.ite (fun _ => ?_) (fun _ => ?_)
            · refine Kept.trans ?_ (updPair_kept ..)
              assumption
            · refine Kept.trans ?_ (mirrorAppend_kept ..)
              refine Kept.trans ?_ (updPair_kept ..)
              assumption

theorem execMirrorFrame_kept (h nsid stroke lba data) (s : State) : KeptO s (execMirrorFrame h nsid stroke lba data s) := by
  unfold execMirrorFrame
  refine KeptO.next ?_
  unfold oxvReceive
  refine Kept.ite (fun _ => ?_) (fun _ => ?_)
  · exact Kept.refl _
  · extract_lets v1 v2 v3 v4 v5
    have h6 : Kept s v1 := oxvAck_kept ..
    clear_value v1
    have h7 : Kept s v5 := by
      unfold v5
      refine Kept.ite (fun _ => ?_) (fun _ => ?_)
      · refine Kept.trans ?_ (updLink_kept ..)
        assumption
      · assumption
    clear_value v5
    refine Kept.ite (fun _ => ?_) (fun _ => ?_)
    · refine Kept.ite (fun _ => ?_) (fun _ => ?_)
      · assumption
      · refine Kept.trans ?_ (takeMirror_kept ..)
        refine Kept.trans ?_ (floodOn_kept ..)
        refine Kept.trans ?_ (Kept.upd rfl rfl rfl rfl rfl rfl)
        assumption
    · refine Kept.ite (fun _ => ?_) (fun _ => ?_)
      · refine Kept.ite (fun _ => ?_) (fun _ => ?_)
        · refine Kept.trans ?_ (sendNak_kept ..)
          assumption
        · assumption
      · refine Kept.ite (fun _ => ?_) (fun _ => ?_)
        · refine Kept.trans ?_ (takeMirror_kept ..)
          assumption
        · refine Kept.trans ?_ (forwardOn_kept ..)
          assumption

theorem takeMirrorAck_kept (h nsid stroke) (s : State) : Kept s (takeMirrorAck h nsid stroke s) := by
  unfold takeMirrorAck
  split
  · refine Kept.trans ?_ (mirrorLag_kept ..)
    exact updPair_kept ..
  · exact Kept.refl _

theorem execMirrorAck_kept (h nsid stroke) (s : State) : KeptO s (execMirrorAck h nsid stroke s) := by
  unfold execMirrorAck
  refine KeptO.next ?_
  unfold oxvReceive
  refine Kept.ite (fun _ => ?_) (fun _ => ?_)
  · exact Kept.refl _
  · extract_lets v1 v2 v3 v4 v5
    have h6 : Kept s v1 := oxvAck_kept ..
    clear_value v1
    have h7 : Kept s v5 := by
      unfold v5
      refine Kept.ite (fun _ => ?_) (fun _ => ?_)
      · refine Kept.trans ?_ (updLink_kept ..)
        assumption
      · assumption
    clear_value v5
    refine Kept.ite (fun _ => ?_) (fun _ => ?_)
    · refine Kept.ite (fun _ => ?_) (fun _ => ?_)
      · assumption
      · refine Kept.trans ?_ (takeMirrorAck_kept ..)
        refine Kept.trans ?_ (floodOn_kept ..)
        refine Kept.trans ?_ (Kept.upd rfl rfl rfl rfl rfl rfl)
        assumption
    · refine Kept.ite (fun _ => ?_) (fun _ => ?_)
      · refine Kept.ite (fun _ => ?_) (fun _ => ?_)
        · refine Kept.trans ?_ (sendNak_kept ..)
          assumption
        · assumption
      · refine Kept.ite (fun _ => ?_) (fun _ => ?_)
        · refine Kept.trans ?_ (takeMirrorAck_kept ..)
          assumption
        · refine Kept.trans ?_ (forwardOn_kept ..)
          assumption

/-! ### Sys2Proof/Machine/Logs.lean -/

theorem takeBytes_kept (n) (s : State) : Kept s (takeBytes n s).2 := by
  unfold takeBytes
  dsimp only
  exact Kept.upd rfl rfl rfl rfl rfl rfl

theorem openLog_kept (n fs) (s : State) : Kept s (openLog n fs s).2 := by
  unfold openLog
  dsimp only
  exact takeBytes_kept ..

theorem damageBlots_kept (bad : List Nat) (s : State) : Kept s (damageBlots bad s) := by
  unfold damageBlots
  refine Kept.ite (fun _ => Kept.refl s) (fun _ => ?_)
  extract_lets m
  refine ⟨id, id, id, fun h => ⟨?_, h.2⟩, Nat.le_refl _, List.prefix_refl _, List.prefix_refl _, rfl⟩
  simpa using h.1

theorem logBytes_kept (f lid) (s : State) : Kept s (logBytes f lid s).2 := by
  unfold logBytes
  dsimp only
  split
  · dsimp only
    exact takeBytes_kept ..
  · dsimp only
    exact openLog_kept ..
  · dsimp only
    exact openLog_kept ..
  · dsimp only
    exact Kept.refl _
  · dsimp only
    exact updFn_kept ..
  · dsimp only
    exact takeBytes_kept ..
  · dsimp only
    exact openLog_kept ..
  · dsimp only
    exact openLog_kept ..
  · dsimp only
    exact openLog_kept ..
  · dsimp only
    exact Kept.refl _
  · dsimp only
    exact Kept.refl _
  · dsimp only
    exact Kept.refl _
  · dsimp only
    exact Kept.refl _
  · dsimp only
    exact Kept.refl _
  · dsimp only
    exact Kept.refl _
  · dsimp only
    exact Kept.refl _

theorem rearm_kept (f lid) (s : State) : Kept s (rearm f lid s) := by
  unfold rearm
  exact updFn_kept ..

theorem getLogPage_kept (q lid lsp numd off rae bad) (s : State) : Kept s (getLogPage q lid lsp numd off rae bad s) := by
  unfold getLogPage
  extract_lets v1 v2 v3 v4
  have h5 : Kept s v2 := by
    unfold v2
    refine Kept.ite (fun _ => ?_) (fun _ => ?_)
    · exact damageBlots_kept ..
    · exact Kept.refl _
  clear_value v2
  have h6 : Kept s v3.2 := by
    unfold v3
    refine Kept.trans ?_ (logBytes_kept ..)
    assumption
  clear_value v3
  have h7 : Kept s v4 := by
    unfold v4
    refine Kept.ite (fun _ => ?_) (fun _ => ?_)
    · assumption
    · refine Kept.trans ?_ (rearm_kept ..)
      assumption
  clear_value v4
  split
  · refine Kept.trans ?_ (done_kept ..)
    assumption
  · refine Kept.ite (fun _ => ?_) (fun _ => ?_)
    · refine Kept.trans ?_ (done_kept ..)
      assumption
    · refine Kept.trans ?_ (answer_kept ..)
      refine Kept.trans ?_ (Kept.upd rfl rfl rfl rfl rfl rfl)
      assumption

theorem execGetLogPage_kept (q lid lsp numd off how) (s : State) :
    KeptO s (execGetLogPage q lid lsp numd off how s) := by
  unfold execGetLogPage
  extract_lets v1
  unfold adminFetch
  refine KeptO.next ?_
  refine Kept.ite (fun _ => ?_) (fun _ => ?_)
  · split
    · refine Kept.trans ?_ (toFollower_kept ..)
      exact takeEntry_kept ..
    · unfold adminRun
      split
      · refine Kept.trans ?_ (done_kept ..)
        exact takeEntry_kept ..
      · refine Kept.ite (fun _ => ?_) (fun _ => ?_)
        · refine Kept.trans ?_ (done_kept ..)
          refine Kept.trans ?_ (takeDeferred_kept ..)
          exact takeEntry_kept ..
        · refine Kept.trans ?_ (getLogPage_kept ..)
          exact takeEntry_kept ..
  · exact Kept.refl _

/-! ### Sys2Proof/Machine/Names.lean -/

theorem noteNs_kept (nsid fs) (s : State) : Kept s (noteNs nsid fs s) := by
  unfold noteNs
  refine Kept.foldl (fun a x => ?_) ?_
  · extract_lets v1
    have h2 : Kept a v1 := updFn_kept ..
    clear_value v1
    refine Kept.ite (fun _ => ?_) (fun _ => ?_)
    · refine Kept.trans ?_ (raiseEvent_kept ..)
      assumption
    · assumption
  · exact Kept.refl _

theorem recordNs_kept (nsid action stream) (s : State) : Kept s (recordNs nsid action stream s) := by
  unfold recordNs
  refine Kept.trans ?_ (showFns_kept ..)
  refine Kept.trans ?_ (namespaceRec_kept ..)
  exact journalAdd_kept ..

theorem dropData_kept (nsid) (s : State) : Kept s (dropData nsid s) := by
  unfold dropData
  exact Kept.upd rfl rfl rfl rfl rfl rfl

theorem commitCreate_kept (d) (s : State) : Kept s (commitCreate d s) := by
  unfold commitCreate
  extract_lets v1 v2 v3 v4 v5
  refine Kept.trans ?_ (recordNs_kept ..)
  refine Kept.trans ?_ (newMediaKey_kept ..)
  exact Kept.upd rfl rfl rfl rfl rfl rfl

theorem commitDelete_kept (nsid) (s : State) : Kept s (commitDelete nsid s) := by
  unfold commitDelete
  split
  · exact Kept.refl _
  · extract_lets v1 v2 v3
    have h4 : Kept s v3 := by
      unfold v3
      refine Kept.trans ?_ (dropData_kept ..)
      exact Kept.upd rfl rfl rfl rfl rfl rfl
    clear_value v3
    refine Kept.trans ?_ (noteNs_kept ..)
    refine Kept.trans ?_ (recordNs_kept ..)
    refine Kept.trans ?_ (showHolds_kept ..)
    refine Kept.trans ?_ (pruneRoots_kept ..)
    assumption

theorem commitAttach_kept (nsid fs on) (s : State) : Kept s (commitAttach nsid fs on s) := by
  unfold commitAttach
  split
  · exact Kept.refl _
  · extract_lets v1 v2 v3
    have h4 : Kept s v2 := updNs_kept ..
    clear_value v2
    have h5 : Kept s v3 := by
      unfold v3
      refine Kept.ite (fun _ => ?_) (fun _ => ?_)
      · assumption
      · refine Kept.foldl (fun a x => ?_) ?_
        · exact updFn_kept ..
        · assumption
    clear_value v3
    refine Kept.trans ?_ (noteNs_kept ..)
    refine Kept.trans ?_ (recordNs_kept ..)
    assumption

theorem commitFormat_kept (nsid lbaf ses) (s : State) : Kept s (commitFormat nsid lbaf ses s) := by
  unfold commitFormat
  split
  · exact Kept.refl _
  · extract_lets v1 v2 v3
    have h4 : Kept s v3 := by
      unfold v3
      refine Kept.trans ?_ (dropData_kept ..)
      exact updNs_kept ..
    clear_value v3
    refine Kept.trans ?_ (noteNs_kept ..)
    refine Kept.trans ?_ (recordNs_kept ..)
    refine Kept.ite (fun _ => ?_) (fun _ => ?_)
    · refine Kept.trans ?_ (newMediaKey_kept ..)
      assumption
    · assumption

theorem sanitizeNs_kept (action nsid) (s : State) : Kept s (sanitizeNs action nsid s) := by
  unfold sanitizeNs
  split
  · exact Kept.refl _
  · extract_lets v1
    have h2 : Kept s v1 := by
      unfold v1
      refine Kept.trans ?_ (dropData_kept ..)
      exact updNs_kept ..
    clear_value v1
    refine Kept.trans ?_ (noteNs_kept ..)
    refine Kept.trans ?_ (recordNs_kept ..)
    refine Kept.ite (fun _ => ?_) (fun _ => ?_)
    · refine Kept.trans ?_ (newMediaKey_kept ..)
      assumption
    · assumption

theorem commitSanitize_kept (action) (s : State) : Kept s (commitSanitize action s) := by
  unfold commitSanitize
  extract_lets v1 v2
  have h3 : Kept s v1 := by
    unfold v1
    refine Kept.trans ?_ (pruneRoots_kept ..)
    refine Kept.foldl (fun a x => ?_) ?_
    · exact sanitizeNs_kept ..
    · exact Kept.refl _
  clear_value v1
  refine Kept.trans ?_ (Kept.upd rfl rfl rfl rfl rfl rfl)
  assumption

theorem commitOnline_kept (f) (s : State) : Kept s (commitOnline f s) := by
  unfold commitOnline
  refine Kept.trans ?_ (showFn_kept ..)
  exact setF_kept ..

theorem commitTrans_kept (t) (s : State) : Kept s (commitTrans t s) := by
  unfold commitTrans
  extract_lets v1
  split
  · split
    · unfold v1
      exact complete_kept ..
    · unfold v1
      refine Kept.trans ?_ (complete_kept ..)
      exact commitCreate_kept ..
  · unfold v1
    refine Kept.trans ?_ (complete_kept ..)
    exact commitDelete_kept ..
  · unfold v1
    refine Kept.trans ?_ (complete_kept ..)
    exact commitAttach_kept ..
  · unfold v1
    refine Kept.trans ?_ (complete_kept ..)
    exact commitAttach_kept ..
  · unfold v1
    refine Kept.trans ?_ (complete_kept ..)
    exact commitHold_kept ..
  · unfold v1
    refine Kept.trans ?_ (complete_kept ..)
    exact commitRelease_kept ..
  · unfold v1
    refine Kept.trans ?_ (complete_kept ..)
    exact commitFormat_kept ..
  · unfold v1
    refine Kept.trans ?_ (complete_kept ..)
    exact commitSanitize_kept ..
  · unfold v1
    refine Kept.trans ?_ (complete_kept ..)
    exact commitOnline_kept ..
  · exact Kept.refl _

theorem commitDue_kept (s : State) : Kept s (commitDue s) := by
  unfold commitDue
  extract_lets v1
  refine Kept.foldl (fun a x => ?_) ?_
  · exact commitTrans_kept ..
  · exact Kept.upd rfl rfl rfl rfl rfl rfl

theorem execUnitTransitionCommit_kept (s : State) : KeptO s (execUnitTransitionCommit s) := by
  unfold execUnitTransitionCommit
  refine KeptO.next ?_
  refine Kept.ite (fun _ => ?_) (fun _ => ?_)
  · exact commitDue_kept ..
  · exact Kept.refl _

theorem nsCreate_kept (q data) (s : State) : Kept s (nsCreate q data s) := by
  unfold nsCreate
  extract_lets v1
  unfold orElse
  split
  · exact done_kept ..
  · exact addTrans_kept ..

theorem execNamespaceCreate_kept (q data) (s : State) : KeptO s (execNamespaceCreate q data s) := by
  unfold execNamespaceCreate
  unfold adminFetch
  refine KeptO.next ?_
  refine Kept.ite (fun _ => ?_) (fun _ => ?_)
  · split
    · refine Kept.trans ?_ (toFollower_kept ..)
      exact takeEntry_kept ..
    · unfold adminRun
      split
      · refine Kept.trans ?_ (done_kept ..)
        exact takeEntry_kept ..
      · refine Kept.ite (fun _ => ?_) (fun _ => ?_)
        · refine Kept.trans ?_ (done_kept ..)
          refine Kept.trans ?_ (takeDeferred_kept ..)
          exact takeEntry_kept ..
        · refine Kept.trans ?_ (nsCreate_kept ..)
          exact takeEntry_kept ..
  · exact Kept.refl _

theorem addEach_kept (k : TransKind) (q : Sqe) (l : List Nat) (s : State) : Kept s (addEach k q l s) := by
  induction l generalizing s with
  | nil =>
    unfold addEach
    exact done_kept ..
  | cons n t ih =>
    cases t with
    | nil =>
      unfold addEach
      exact addTrans_kept ..
    | cons =>
      unfold addEach
      refine Kept.trans ?_ (ih _)
      exact addTrans_kept ..

theorem nsDelete_kept (q) (s : State) : Kept s (nsDelete q s) := by
  unfold nsDelete
  unfold orElse
  split
  · exact done_kept ..
  · exact addEach_kept ..

theorem execNamespaceDelete_kept (q) (s : State) : KeptO s (execNamespaceDelete q s) := by
  unfold execNamespaceDelete
  unfold adminFetch
  refine KeptO.next ?_
  refine Kept.ite (fun _ => ?_) (fun _ => ?_)
  · split
    · refine Kept.trans ?_ (toFollower_kept ..)
      exact takeEntry_kept ..
    · unfold adminRun
      split
      · refine Kept.trans ?_ (done_kept ..)
        exact takeEntry_kept ..
      · refine Kept.ite (fun _ => ?_) (fun _ => ?_)
        · refine Kept.trans ?_ (done_kept ..)
          refine Kept.trans ?_ (takeDeferred_kept ..)
          exact takeEntry_kept ..
        · refine Kept.trans ?_ (nsDelete_kept ..)
          exact takeEntry_kept ..
  · exact Kept.refl _

theorem nsAttach_kept (q fs) (s : State) : Kept s (nsAttach q fs s) := by
  unfold nsAttach
  unfold orElse
  split
  · exact done_kept ..
  · exact addTrans_kept ..

theorem execNamespaceAttach_kept (q ctrls) (s : State) : KeptO s (execNamespaceAttach q ctrls s) := by
  unfold execNamespaceAttach
  unfold adminFetch
  refine KeptO.next ?_
  refine Kept.ite (fun _ => ?_) (fun _ => ?_)
  · split
    · refine Kept.trans ?_ (toFollower_kept ..)
      exact takeEntry_kept ..
    · unfold adminRun
      split
      · refine Kept.trans ?_ (done_kept ..)
        exact takeEntry_kept ..
      · refine Kept.ite (fun _ => ?_) (fun _ => ?_)
        · refine Kept.trans ?_ (done_kept ..)
          refine Kept.trans ?_ (takeDeferred_kept ..)
          exact takeEntry_kept ..
        · refine Kept.trans ?_ (nsAttach_kept ..)
          exact takeEntry_kept ..
  · exact Kept.refl _

theorem nsDetach_kept (q fs) (s : State) : Kept s (nsDetach q fs s) := by
  unfold nsDetach
  unfold orElse
  split
  · exact done_kept ..
  · exact addTrans_kept ..

theorem execNamespaceDetach_kept (q ctrls) (s : State) : KeptO s (execNamespaceDetach q ctrls s) := by
  unfold execNamespaceDetach
  unfold adminFetch
  refine KeptO.next ?_
  refine Kept.ite (fun _ => ?_) (fun _ => ?_)
  · split
    · refine Kept.trans ?_ (toFollower_kept ..)
      exact takeEntry_kept ..
    · unfold adminRun
      split
      · refine Kept.trans ?_ (done_kept ..)
        exact takeEntry_kept ..
      · refine Kept.ite (fun _ => ?_) (fun _ => ?_)
        · refine Kept.trans ?_ (done_kept ..)
          refine Kept.trans ?_ (takeDeferred_kept ..)
          exact takeEntry_kept ..
        · refine Kept.trans ?_ (nsDetach_kept ..)
          exact takeEntry_kept ..
  · exact Kept.refl _

theorem formatNvm_kept (q lbaf ses) (s : State) : Kept s (formatNvm q lbaf ses s) := by
  unfold formatNvm
  unfold orElse
  split
  · exact done_kept ..
  · exact addEach_kept ..

theorem execFormatNvm_kept (q lbaf ses) (s : State) : KeptO s (execFormatNvm q lbaf ses s) := by
  unfold execFormatNvm
  unfold adminFetch
  refine KeptO.next ?_
  refine Kept.ite (fun _ => ?_) (fun _ => ?_)
  · split
    · refine Kept.trans ?_ (toFollower_kept ..)
      exact takeEntry_kept ..
    · unfold adminRun
      split
      · refine Kept.trans ?_ (done_kept ..)
        exact takeEntry_kept ..
      · refine Kept.ite (fun _ => ?_) (fun _ => ?_)
        · refine Kept.trans ?_ (done_kept ..)
          refine Kept.trans ?_ (takeDeferred_kept ..)
          exact takeEntry_kept ..
        · refine Kept.trans ?_ (formatNvm_kept ..)
          exact takeEntry_kept ..
  · exact Kept.refl _

theorem execFormatDone_kept (nsid) (s : State) : KeptO s (execFormatDone nsid s) := by
  unfold execFormatDone
  refine KeptO.next ?_
  refine Kept.ite (fun _ => ?_) (fun _ => ?_)
  · exact updNs_kept ..
  · exact Kept.refl _

theorem sanitize_kept (q action) (s : State) : Kept s (sanitize q action s) := by
  unfold sanitize
  unfold orElse
  split
  · exact done_kept ..
  · exact addTrans_kept ..

theorem execSanitizeCryptoErase_kept (q) (s : State) : KeptO s (execSanitizeCryptoErase q s) := by
  unfold execSanitizeCryptoErase
  unfold adminFetch
  refine KeptO.next ?_
  refine Kept.ite (fun _ => ?_) (fun _ => ?_)
  · split
    · refine Kept.trans ?_ (toFollower_kept ..)
      exact takeEntry_kept ..
    · unfold adminRun
      split
      · refine Kept.trans ?_ (done_kept ..)
        exact takeEntry_kept ..
      · refine Kept.ite (fun _ => ?_) (fun _ => ?_)
        · refine Kept.trans ?_ (done_kept ..)
          refine Kept.trans ?_ (takeDeferred_kept ..)
          exact takeEntry_kept ..
        · refine Kept.trans ?_ (sanitize_kept ..)
          exact takeEntry_kept ..
  · exact Kept.refl _

theorem execSanitizeBlockErase_kept (q) (s : State) : KeptO s (execSanitizeBlockErase q s) := by
  unfold execSanitizeBlockErase
  unfold adminFetch
  refine KeptO.next ?_
  refine Kept.ite (fun _ => ?_) (fun _ => ?_)
  · split
    · refine Kept.trans ?_ (toFollower_kept ..)
      exact takeEntry_kept ..
    · unfold adminRun
      split
      · refine Kept.trans ?_ (done_kept ..)
        exact takeEntry_kept ..
      · refine Kept.ite (fun _ => ?_) (fun _ => ?_)
        · refine Kept.trans ?_ (done_kept ..)
          refine Kept.trans ?_ (takeDeferred_kept ..)
          exact takeEntry_kept ..
        · refine Kept.trans ?_ (sanitize_kept ..)
          exact takeEntry_kept ..
  · exact Kept.refl _

theorem execSanitizeDone_kept (s : State) : KeptO s (execSanitizeDone s) := by
  unfold execSanitizeDone
  refine KeptO.next ?_
  refine Kept.ite (fun _ => ?_) (fun _ => ?_)
  · refine Kept.trans ?_ (switchMode_kept ..)
    exact Kept.upd rfl rfl rfl rfl rfl rfl
  · exact Kept.refl _

theorem vmAssign_kept (q cntlid primary rt nr) (s : State) : Kept s (vmAssign q cntlid primary rt nr s) := by
  unfold vmAssign
  unfold orElse
  split
  · exact done_kept ..
  · beta_reduce
    refine Kept.trans ?_ (done_kept ..)
    refine Kept.trans ?_ (showFn_kept ..)
    exact updFn_kept ..

theorem execVmAssignResources_kept (q cntlid primary rt nr) (s : State) :
    KeptO s (execVmAssignResources q cntlid primary rt nr s) := by
  unfold execVmAssignResources
  unfold adminFetch
  refine KeptO.next ?_
  refine Kept.ite (fun _ => ?_) (fun _ => ?_)
  · split
    · refine Kept.trans ?_ (toFollower_kept ..)
      exact takeEntry_kept ..
    · unfold adminRun
      split
      · refine Kept.trans ?_ (done_kept ..)
        exact takeEntry_kept ..
      · refine Kept.ite (fun _ => ?_) (fun _ => ?_)
        · refine Kept.trans ?_ (done_kept ..)
          refine Kept.trans ?_ (takeDeferred_kept ..)
          exact takeEntry_kept ..
        · refine Kept.trans ?_ (vmAssign_kept ..)
          exact takeEntry_kept ..
  · exact Kept.refl _

theorem vmOnline_kept (q f) (s : State) : Kept s (vmOnline q f s) := by
  unfold vmOnline
  unfold orElse
  split
  · exact done_kept ..
  · beta_reduce
    refine Kept.ite (fun _ => ?_) (fun _ => ?_)
    · exact done_kept ..
    · exact addTrans_kept ..

theorem execVmOnline_kept (q cntlid) (s : State) : KeptO s (execVmOnline q cntlid s) := by
  unfold execVmOnline
  unfold adminFetch
  refine KeptO.next ?_
  refine Kept.ite (fun _ => ?_) (fun _ => ?_)
  · split
    · refine Kept.trans ?_ (toFollower_kept ..)
      exact takeEntry_kept ..
    · unfold adminRun
      split
      · refine Kept.trans ?_ (done_kept ..)
        exact takeEntry_kept ..
      · refine Kept.ite (fun _ => ?_) (fun _ => ?_)
        · refine Kept.trans ?_ (done_kept ..)
          refine Kept.trans ?_ (takeDeferred_kept ..)
          exact takeEntry_kept ..
        · refine Kept.trans ?_ (vmOnline_kept ..)
          exact takeEntry_kept ..
  · exact Kept.refl _

theorem vmOffline_kept (q f) (s : State) : Kept s (vmOffline q f s) := by
  unfold vmOffline
  unfold orElse
  split
  · exact done_kept ..
  · beta_reduce
    refine Kept.ite (fun _ => ?_) (fun _ => ?_)
    · refine Kept.trans ?_ (startFlr_kept ..)
      exact addTrans_kept ..
    · exact done_kept ..

theorem execVmOffline_kept (q cntlid) (s : State) : KeptO s (execVmOffline q cntlid s) := by
  unfold execVmOffline
  unfold adminFetch
  refine KeptO.next ?_
  refine Kept.ite (fun _ => ?_) (fun _ => ?_)
  · split
    · refine Kept.trans ?_ (toFollower_kept ..)
      exact takeEntry_kept ..
    · unfold adminRun
      split
      · refine Kept.trans ?_ (done_kept ..)
        exact takeEntry_kept ..
      · refine Kept.ite (fun _ => ?_) (fun _ => ?_)
        · refine Kept.trans ?_ (done_kept ..)
          refine Kept.trans ?_ (takeDeferred_kept ..)
          exact takeEntry_kept ..
        · refine Kept.trans ?_ (vmOffline_kept ..)
          exact takeEntry_kept ..
  · exact Kept.refl _

theorem selfTest_kept (q stc) (s : State) : Kept s (selfTest q stc s) := by
  unfold selfTest
  extract_lets v1
  refine Kept.ite (fun _ => ?_) (fun _ => ?_)
  · unfold v1
    refine Kept.trans ?_ (done_kept ..)
    exact Kept.upd rfl rfl rfl rfl rfl rfl
  · refine Kept.ite (fun _ => ?_) (fun _ => ?_)
    · exact done_kept ..
    · refine Kept.ite (fun _ => ?_) (fun _ => ?_)
      · exact done_kept ..
      · unfold v1
        refine Kept.trans ?_ (done_kept ..)
        exact Kept.upd rfl rfl rfl rfl rfl rfl

theorem execDeviceSelfTest_kept (q stc) (s : State) : KeptO s (execDeviceSelfTest q stc s) := by
  unfold execDeviceSelfTest
  unfold adminFetch
  refine KeptO.next ?_
  refine Kept.ite (fun _ => ?_) (fun _ => ?_)
  · split
    · refine Kept.trans ?_ (toFollower_kept ..)
      exact takeEntry_kept ..
    · unfold adminRun
      split
      · refine Kept.trans ?_ (done_kept ..)
        exact takeEntry_kept ..
      · refine Kept.ite (fun _ => ?_) (fun _ => ?_)
        · refine Kept.trans ?_ (done_kept ..)
          refine Kept.trans ?_ (takeDeferred_kept ..)
          exact takeEntry_kept ..
        · refine Kept.trans ?_ (selfTest_kept ..)
          exact takeEntry_kept ..
  · exact Kept.refl _

theorem directiveSend_kept (q dtype doper value) (s : State) : Kept s (directiveSend q dtype doper value s) := by
  unfold directiveSend
  unfold onDirective
  refine Kept.ite (fun _ => ?_) (fun _ => ?_)
  · exact done_kept ..
  · split
    · exact done_kept ..
    · refine Kept.ite (fun _ => ?_) (fun _ => ?_)
      · exact done_kept ..
      · split
        · exact done_kept ..
        · refine Kept.ite (fun _ => ?_) (fun _ => ?_)
          · exact done_kept ..
          · beta_reduce
            refine Kept.ite (fun _ => ?_) (fun _ => ?_)
            · refine Kept.trans ?_ (done_kept ..)
              exact updNs_kept ..
            · refine Kept.ite (fun _ => ?_) (fun _ => ?_)
              · exact done_kept ..
              · refine Kept.ite (fun _ => ?_) (fun _ => ?_)
                · refine Kept.trans ?_ (done_kept ..)
                  exact updNs_kept ..
                · exact done_kept ..

theorem execDirectiveSend_kept (q dtype doper _dspec value) (s : State) :
    KeptO s (execDirectiveSend q dtype doper _dspec value s) := by
  unfold execDirectiveSend
  unfold adminFetch
  refine KeptO.next ?_
  refine Kept.ite (fun _ => ?_) (fun _ => ?_)
  · split
    · refine Kept.trans ?_ (toFollower_kept ..)
      exact takeEntry_kept ..
    · unfold adminRun
      split
      · refine Kept.trans ?_ (done_kept ..)
        exact takeEntry_kept ..
      · refine Kept.ite (fun _ => ?_) (fun _ => ?_)
        · refine Kept.trans ?_ (done_kept ..)
          refine Kept.trans ?_ (takeDeferred_kept ..)
          exact takeEntry_kept ..
        · refine Kept.trans ?_ (directiveSend_kept ..)
          exact takeEntry_kept ..
  · exact Kept.refl _

theorem directiveReceive_kept (q dtype doper numd value) (s : State) :
    Kept s (directiveReceive q dtype doper numd value s) := by
  unfold directiveReceive
  extract_lets v1
  unfold onDirective
  refine Kept.ite (fun _ => ?_) (fun _ => ?_)
  · exact done_kept ..
  · split
    · exact done_kept ..
    · refine Kept.ite (fun _ => ?_) (fun _ => ?_)
      · exact done_kept ..
      · split
        · exact done_kept ..
        · refine Kept.ite (fun _ => ?_) (fun _ => ?_)
          · exact done_kept ..
          · beta_reduce
            refine Kept.ite (fun _ => ?_) (fun _ => ?_)
            · exact answer_kept ..
            · refine Kept.ite (fun _ => ?_) (fun _ => ?_)
              · exact answer_kept ..
              · refine Kept.ite (fun _ => ?_) (fun _ => ?_)
                · exact answer_kept ..
                · refine Kept.ite (fun _ => ?_) (fun _ => ?_)
                  · extract_lets v2
                    refine Kept.trans ?_ (done_kept ..)
                    exact updNs_kept ..
                  · exact done_kept ..

theorem execDirectiveReceive_kept (q dtype doper numd value) (s : State) :
    KeptO s (execDirectiveReceive q dtype doper numd value s) := by
  unfold execDirectiveReceive
  extract_lets v1
  unfold adminFetch
  refine KeptO.next ?_
  refine Kept.ite (fun _ => ?_) (fun _ => ?_)
  · split
    · refine Kept.trans ?_ (toFollower_kept ..)
      exact takeEntry_kept ..
    · unfold adminRun
      split
      · refine Kept.trans ?_ (done_kept ..)
        exact takeEntry_kept ..
      · refine Kept.ite (fun _ => ?_) (fun _ => ?_)
        · refine Kept.trans ?_ (done_kept ..)
          refine Kept.trans ?_ (takeDeferred_kept ..)
          exact takeEntry_kept ..
        · refine Kept.trans ?_ (directiveReceive_kept ..)
          exact takeEntry_kept ..
  · exact Kept.refl _

/-! ### Sys2Proof/Machine/Loads.lean -/

theorem setPartial_kept (f b) (s : State) : Kept s (setPartial f b s) := by
  unfold setPartial
  exact Kept.upd rfl rfl rfl rfl rfl rfl

theorem finishLoad_kept (q : Sqe) (m : Bytes) (s : State) : Kept s (finishLoad q m s) := by
  have h := (setPartial_kept q.fn none s).trans (loadGraph_kept q.fn m (setPartial q.fn none s))
  unfold finishLoad
  generalize loadGraph q.fn m (setPartial q.fn none s) = r at h
  obtain ⟨x, t⟩ := r
  cases x with
  | ok y => exact h.trans (done_kept _ _ _ _ _)
  | error y => exact h.trans (done_kept _ _ _ _ _)

theorem loadPart_kept (q numd off total data) (s : State) : Kept s (loadPart q numd off total data s) := by
  unfold loadPart
  extract_lets v1 v2 v3 v4
  have h5 : Kept s v4 := charge_kept ..
  clear_value v4
  refine Kept.ite (fun _ => ?_) (fun _ => ?_)
  · exact pushLate_kept ..
  · refine Kept.ite (fun _ => ?_) (fun _ => ?_)
    · unfold v3
      refine Kept.trans ?_ (done_kept ..)
      refine Kept.trans ?_ (setPartial_kept ..)
      refine Kept.trans ?_ (loadRefused_kept ..)
      assumption
    · refine Kept.ite (fun _ => ?_) (fun _ => ?_)
      · unfold v3
        refine Kept.trans ?_ (done_kept ..)
        refine Kept.trans ?_ (setPartial_kept ..)
        refine Kept.trans ?_ (loadRefused_kept ..)
        assumption
      · refine Kept.ite (fun _ => ?_) (fun _ => ?_)
        · unfold v3
          refine Kept.trans ?_ (done_kept ..)
          refine Kept.trans ?_ (setPartial_kept ..)
          assumption
        · refine Kept.ite (fun _ => ?_) (fun _ => ?_)
          · refine Kept.trans ?_ (finishLoad_kept ..)
            assumption
          · refine Kept.trans ?_ (done_kept ..)
            refine Kept.trans ?_ (setPartial_kept ..)
            assumption

theorem execGraphLoad_kept (q numd off total data) (s : State) : KeptO s (execGraphLoad q numd off total data s) := by
  unfold execGraphLoad
  extract_lets v1
  unfold ioFetch
  refine KeptO.next ?_
  refine Kept.ite (fun _ => ?_) (fun _ => ?_)
  · split
    · refine Kept.trans ?_ (toFollower_kept ..)
      exact takeEntry_kept ..
    · extract_lets v2
      have h3 : Kept s v2 := by
        unfold v2
        refine Kept.trans ?_ (charge_kept ..)
        exact takeEntry_kept ..
      clear_value v2
      refine Kept.ite (fun _ => ?_) (fun _ => ?_)
      · refine Kept.trans ?_ (done_kept ..)
        assumption
      · unfold onZero
        refine Kept.ite (fun _ => ?_) (fun _ => ?_)
        · refine Kept.trans ?_ (done_kept ..)
          assumption
        · unfold orElse
          split
          · refine Kept.trans ?_ (done_kept ..)
            assumption
          · split
            · refine Kept.trans ?_ (done_kept ..)
              assumption
            · refine Kept.trans ?_ (loadPart_kept ..)
              assumption
  · exact Kept.refl _

theorem releaseOne_kept (q numd off handle high) (s : State) : Kept s (releaseOne q numd off handle high s) := by
  unfold releaseOne
  refine Kept.ite (fun _ => ?_) (fun _ => ?_)
  · exact pushLate_kept ..
  · extract_lets v1
    have h2 : Kept s v1 := charge_kept ..
    clear_value v1
    refine Kept.ite (fun _ => ?_) (fun _ => ?_)
    · refine Kept.trans ?_ (done_kept ..)
      assumption
    · split
      · refine Kept.trans ?_ (done_kept ..)
        assumption
      · refine Kept.ite (fun _ => ?_) (fun _ => ?_)
        · refine Kept.trans ?_ (done_kept ..)
          assumption
        · refine Kept.trans ?_ (done_kept ..)
          refine Kept.trans ?_ (releaseGraph_kept ..)
          assumption

theorem execGraphRelease_kept (q numd off handle high) (s : State) :
    KeptO s (execGraphRelease q numd off handle high s) := by
  unfold execGraphRelease
  extract_lets v1
  unfold ioFetch
  refine KeptO.next ?_
  refine Kept.ite (fun _ => ?_) (fun _ => ?_)
  · split
    · refine Kept.trans ?_ (toFollower_kept ..)
      exact takeEntry_kept ..
    · extract_lets v2
      have h3 : Kept s v2 := by
        unfold v2
        refine Kept.trans ?_ (charge_kept ..)
        exact takeEntry_kept ..
      clear_value v2
      refine Kept.ite (fun _ => ?_) (fun _ => ?_)
      · refine Kept.trans ?_ (done_kept ..)
        assumption
      · unfold onZero
        refine Kept.ite (fun _ => ?_) (fun _ => ?_)
        · refine Kept.trans ?_ (done_kept ..)
          assumption
        · unfold orElse
          split
          · refine Kept.trans ?_ (done_kept ..)
            assumption
          · refine Kept.trans ?_ (releaseOne_kept ..)
            assumption
  · exact Kept.refl _

theorem startGraph_kept (q handle tag limit) (s : State) : Kept s (startGraph q handle tag limit s) := by
  unfold startGraph
  split
  · exact done_kept ..
  · refine Kept.ite (fun _ => ?_) (fun _ => ?_)
    · exact done_kept ..
    · exact Kept.upd rfl rfl rfl rfl rfl rfl

theorem execGraphStart_kept (q handle tag limit) (s : State) : KeptO s (execGraphStart q handle tag limit s) := by
  unfold execGraphStart
  unfold ioFetch
  refine KeptO.next ?_
  refine Kept.ite (fun _ => ?_) (fun _ => ?_)
  · split
    · refine Kept.trans ?_ (toFollower_kept ..)
      exact takeEntry_kept ..
    · extract_lets v1
      have h2 : Kept s v1 := by
        unfold v1
        refine Kept.trans ?_ (charge_kept ..)
        exact takeEntry_kept ..
      clear_value v1
      refine Kept.ite (fun _ => ?_) (fun _ => ?_)
      · refine Kept.trans ?_ (done_kept ..)
        assumption
      · unfold onZero
        refine Kept.ite (fun _ => ?_) (fun _ => ?_)
        · refine Kept.trans ?_ (done_kept ..)
          assumption
        · unfold orElse
          split
          · refine Kept.trans ?_ (done_kept ..)
            assumption
          · refine Kept.trans ?_ (startGraph_kept ..)
            assumption
  · exact Kept.refl _

theorem graphResult_kept (q handle run len wait) (s : State) : Kept s (graphResult q handle run len wait s) := by
  unfold graphResult
  extract_lets v1
  have h2 : Kept s v1 := addCmd_kept ..
  clear_value v1
  split
  · exact done_kept ..
  · refine Kept.ite (fun _ => ?_) (fun _ => ?_)
    · assumption
    · split
      · exact done_kept ..
      · refine Kept.ite (fun _ => ?_) (fun _ => ?_)
        · assumption
        · exact writeResult_kept ..

theorem execGraphResult_kept (q handle run numd wait) (s : State) : KeptO s (execGraphResult q handle run numd wait s) := by
  unfold execGraphResult
  extract_lets v1
  unfold ioFetch
  refine KeptO.next ?_
  refine Kept.ite (fun _ => ?_) (fun _ => ?_)
  · split
    · refine Kept.trans ?_ (toFollower_kept ..)
      exact takeEntry_kept ..
    · extract_lets v2
      have h3 : Kept s v2 := by
        unfold v2
        refine Kept.trans ?_ (charge_kept ..)
        exact takeEntry_kept ..
      clear_value v2
      refine Kept.ite (fun _ => ?_) (fun _ => ?_)
      · refine Kept.trans ?_ (done_kept ..)
        assumption
      · unfold onZero
        refine Kept.ite (fun _ => ?_) (fun _ => ?_)
        · refine Kept.trans ?_ (done_kept ..)
          assumption
        · unfold orElse
          split
          · refine Kept.trans ?_ (done_kept ..)
            assumption
          · refine Kept.trans ?_ (graphResult_kept ..)
            assumption
  · exact Kept.refl _

theorem loadBlob_kept (q numd slot wrap b) (s : State) : Kept s (loadBlob q numd slot wrap b s) := by
  unfold loadBlob
  split
  · refine Kept.trans ?_ (done_kept ..)
    exact applyBlob_kept ..
  · refine Kept.trans ?_ (done_kept ..)
    refine Kept.ite (fun _ => ?_) (fun _ => ?_)
    · exact incF_kept ..
    · exact Kept.refl _

theorem startBlob_kept (q numd slot wrap b) (s : State) : Kept s (startBlob q numd slot wrap b s) := by
  unfold startBlob
  extract_lets v1
  refine Kept.ite (fun _ => ?_) (fun _ => ?_)
  · exact done_kept ..
  · refine Kept.ite (fun _ => ?_) (fun _ => ?_)
    · exact done_kept ..
    · refine Kept.ite (fun _ => ?_) (fun _ => ?_)
      · exact done_kept ..
      · refine Kept.ite (fun _ => ?_) (fun _ => ?_)
        · refine Kept.ite (fun _ => ?_) (fun _ => ?_)
          · refine Kept.trans ?_ (loadBlob_kept ..)
            exact spendSign_kept ..
          · exact pushSign_kept ..
        · exact loadBlob_kept ..

theorem execKeyBlobLoad_kept (q numd slot wrap blob) (s : State) : KeptO s (execKeyBlobLoad q numd slot wrap blob s) := by
  unfold execKeyBlobLoad
  extract_lets v1
  unfold adminFetch
  refine KeptO.next ?_
  refine Kept.ite (fun _ => ?_) (fun _ => ?_)
  · split
    · refine Kept.trans ?_ (toFollower_kept ..)
      exact takeEntry_kept ..
    · unfold adminRun
      split
      · refine Kept.trans ?_ (done_kept ..)
        exact takeEntry_kept ..
      · refine Kept.ite (fun _ => ?_) (fun _ => ?_)
        · refine Kept.trans ?_ (done_kept ..)
          refine Kept.trans ?_ (takeDeferred_kept ..)
          exact takeEntry_kept ..
        · refine Kept.trans ?_ (startBlob_kept ..)
          exact takeEntry_kept ..
  · exact Kept.refl _

/-! ### Sys2Proof/Machine/Sign.lean -/

theorem runLate_kept (c mine) (s : State) : Kept s (runLate c mine s) := by
  unfold runLate
  split
  · exact answerProof_kept ..
  · exact startExport_kept ..
  · exact loadPart_kept ..
  · exact releaseOne_kept ..
  · exact checkToken_kept ..
  · exact loadBlob_kept ..
  · split
    · refine Kept.trans ?_ (advanceAll_kept ..)
      refine Kept.trans ?_ (endRead_kept ..)
      exact dropCmd_kept ..
    · exact Kept.refl _

theorem serveLate_kept (s : State) : Kept s (serveLate s) := by
  unfold serveLate
  refine Kept.foldl (fun a x => ?_) ?_
  · exact runLate_kept ..
  · exact Kept.upd rfl rfl rfl rfl rfl rfl

theorem takeUse_kept (u) (s : State) : Kept s (takeUse u s) := by
  unfold takeUse
  extract_lets v1 v2 v3
  have h4 : Kept s v2 := by
    unfold v2
    refine Kept.trans ?_ (spendSign_kept ..)
    exact Kept.upd rfl rfl rfl rfl rfl rfl
  clear_value v2
  split
  · exact startFlourish_kept ..
  · refine Kept.trans ?_ (showSign_kept ..)
    refine Kept.trans ?_ (Kept.upd rfl rfl rfl rfl rfl rfl)
    assumption
  · refine Kept.trans ?_ (runLate_kept ..)
    assumption

theorem signFrom_kept (fuel : Nat) (s : State) : Kept s (signFrom fuel s) := by
  induction fuel generalizing s with
  | zero => exact Kept.refl s
  | succ k ih =>
    unfold signFrom
    refine Kept.ite (fun _ => ?_) (fun _ => ?_)
    · exact Kept.refl _
    · split
      · exact Kept.refl _
      · refine Kept.trans ?_ (ih _)
        exact takeUse_kept ..

theorem signTurn_kept (s : State) : Kept s (signTurn s) := by
  unfold signTurn
  refine Kept.trans ?_ (showSign_kept ..)
  exact signFrom_kept ..

theorem execFlourishSigned_kept (frac) (s : State) : KeptO s (execFlourishSigned frac s) := by
  unfold execFlourishSigned
  extract_lets v1
  have h2 : Kept s v1 := atFrac_kept ..
  clear_value v1
  refine KeptO.next ?_
  refine Kept.ite (fun _ => ?_) (fun _ => ?_)
  · refine Kept.trans ?_ (signTurn_kept ..)
    refine Kept.trans ?_ (signFlourish_kept ..)
    assumption
  · assumption

theorem execNodeEnd_kept (frac graph node res) (s : State) : KeptO s (execNodeEnd frac graph node res s) := by
  unfold execNodeEnd
  refine KeptO.next ?_
  refine Kept.trans ?_ (signTurn_kept ..)
  refine Kept.trans ?_ (nodeEnd_kept ..)
  exact atFrac_kept ..

theorem execNodeDispatch_kept (frac graph node core) (s : State) : KeptO s (execNodeDispatch frac graph node core s) := by
  unfold execNodeDispatch
  refine KeptO.next ?_
  refine Kept.trans ?_ (signTurn_kept ..)
  refine Kept.trans ?_ (nodeDispatch_kept ..)
  refine Kept.trans ?_ (chargeCores_kept ..)
  exact atFrac_kept ..

/-! ### Sys2Proof/Machine/Boundary.lean -/

theorem countOverrun_kept (s : State) : Kept s (countOverrun s) := by
  unfold countOverrun
  refine Kept.trans ?_ (incF_kept ..)
  exact Kept.upd rfl rfl rfl rfl rfl rfl

theorem overrunStep_kept (s : State) : Kept s (overrunStep s) := by
  unfold overrunStep
  refine Kept.ite (fun _ => ?_) (fun _ => ?_)
  · refine Kept.ite (fun _ => ?_) (fun _ => ?_)
    · refine Kept.trans ?_ (anchorRec_kept ..)
      exact setF_kept ..
    · exact countOverrun_kept ..
  · refine Kept.ite (fun _ => ?_) (fun _ => ?_)
    · refine Kept.trans ?_ (countOverrun_kept ..)
      refine Kept.trans ?_ (vendorEvent_kept ..)
      refine Kept.trans ?_ (anchorRec_kept ..)
      exact setF_kept ..
    · exact Kept.refl _

theorem renewVectors_kept (s : State) : Kept s (renewVectors s) := by
  unfold renewVectors
  exact Kept.upd rfl rfl rfl rfl rfl rfl

theorem countHot_kept (s : State) : Kept s (countHot s) := by
  unfold countHot
  extract_lets v1 v2 v3
  exact Kept.upd rfl rfl rfl rfl rfl rfl

theorem testRuns_kept (s : State) : Kept s (testRuns s) := by
  unfold testRuns
  apply Kept.ite
  · intro _; exact Kept.refl s
  · intro _
    extract_lets r
    have : Kept s r.2 := takeFree_kept s
    apply Kept.ite
    · intro _; exact this.trans (Kept.same rfl rfl rfl rfl rfl rfl rfl rfl rfl)
    · intro _; exact this

theorem oxvBoundary_kept (s : State) : Kept s (oxvBoundary s) := by
  unfold oxvBoundary
  refine Kept.ite (fun _ => ?_) (fun _ => ?_)
  · exact Kept.refl _
  · extract_lets v1
    have h2 : Kept s v1 := sendMark_kept ..
    clear_value v1
    refine Kept.ite (fun _ => ?_) (fun _ => ?_)
    · refine Kept.trans ?_ (repeatCommit_kept ..)
      refine Kept.trans ?_ (sendDelays_kept ..)
      refine Kept.trans ?_ (sendStatus_kept ..)
      assumption
    · assumption

theorem keepClean_kept (s : State) : Kept s (keepClean s) := by
  unfold keepClean
  refine Kept.ite (fun _ => ?_) (fun _ => ?_)
  · refine Kept.trans ?_ (placeForced_kept ..)
    exact journalFlush_kept ..
  · exact Kept.refl _

theorem latchClocks_kept (s : State) : Kept s (latchClocks s) := by
  unfold latchClocks
  refine Kept.trans ?_ (showRefresh_kept ..)
  exact Kept.upd rfl rfl rfl rfl rfl rfl

theorem turn_kept (s : State) : Kept s (turn s) := by
  unfold turn
  refine Kept.trans ?_ (oxvBoundary_kept ..)
  refine Kept.trans ?_ (strokeIoPulse_kept ..)
  refine Kept.trans ?_ (countHot_kept ..)
  refine Kept.trans ?_ (generatorBoundary_kept ..)
  refine Kept.trans ?_ (tickStroke_kept ..)
  refine Kept.trans ?_ (noteUnsealed_kept ..)
  exact latchClocks_kept ..

theorem turnSealing_kept (s : State) : Kept s (turnSealing s) := by
  unfold turnSealing
  refine Kept.trans ?_ (countHot_kept ..)
  refine Kept.trans ?_ (generatorBoundary_kept ..)
  refine Kept.trans ?_ (openStroke_kept ..)
  refine Kept.trans ?_ (tickStroke_kept ..)
  refine Kept.trans ?_ (closeStroke_kept ..)
  refine Kept.trans ?_ (noteUnsealed_kept ..)
  refine Kept.trans ?_ (layAll_kept ..)
  exact latchClocks_kept ..

theorem refill_kept (ended scale) (s : State) : Kept s (refill ended scale s) := by
  unfold refill
  extract_lets v1 v2 v3
  have h4 : Kept s v1 := setCapacity_kept ..
  clear_value v1
  have h5 : Kept s v2 := by
    unfold v2
    refine Kept.trans ?_ (renewVectors_kept ..)
    refine Kept.trans ?_ (ingestBoundary_kept ..)
    assumption
  clear_value v2
  have h6 : Kept s v3 := by
    unfold v3
    refine Kept.trans ?_ (retainBoundary_kept ..)
    refine Kept.trans ?_ (flourishBoundary_kept ..)
    refine Kept.trans ?_ (keepClean_kept ..)
    refine Kept.trans ?_ (settleOps_kept ..)
    refine Kept.trans ?_ (ftlBoundary_kept ..)
    refine Kept.trans ?_ (allotEngines_kept ..)
    refine Kept.trans ?_ (deepBoundary_kept ..)
    refine Kept.trans ?_ (qosBoundary_kept ..)
    assumption
  clear_value v3
  refine Kept.trans ?_ (dramBoundary_kept ..)
  refine Kept.trans ?_ (beginNext_kept ..)
  refine Kept.trans ?_ (ductBoundary_kept ..)
  refine Kept.trans ?_ (signTurn_kept ..)
  refine Kept.trans ?_ (serveLate_kept ..)
  assumption

theorem sealingBoundary_kept (katFail) (s : State) : Kept s (sealingBoundary katFail s) := by
  unfold sealingBoundary
  extract_lets v1 v2
  have h3 : Kept s v1 := by
    unfold v1
    refine Kept.trans ?_ (overrunStep_kept ..)
    refine Kept.trans ?_ (markLate_kept ..)
    exact turnSealing_kept ..
  clear_value v1
  have h4 : Kept s v2 := by
    unfold v2
    refine Kept.trans ?_ (mirrorBoundary_kept ..)
    refine Kept.trans ?_ (showClocks_kept ..)
    refine Kept.trans ?_ (testRuns_kept ..)
    refine Kept.trans ?_ (refill_kept ..)
    assumption
  clear_value v2
  refine Kept.trans ?_ (resumeHeld_kept ..)
  refine Kept.foldl (fun a x => ?_) ?_
  · exact laneFail_kept ..
  · refine Kept.trans ?_ (strokeIoPulse_kept ..)
    refine Kept.trans ?_ (oxvBoundary_kept ..)
    assumption

theorem execStrokeBoundary_kept (katFail) (s : State) : KeptO s (execStrokeBoundary katFail s) := by
  unfold execStrokeBoundary
  refine KeptO.next ?_
  split
  · exact Kept.refl _
  · exact turn_kept ..
  · refine Kept.trans ?_ (markLate_kept ..)
    exact turn_kept ..
  · refine Kept.trans ?_ (beginNext_kept ..)
    exact turn_kept ..
  · refine Kept.trans ?_ (beginNext_kept ..)
    exact turn_kept ..
  · refine Kept.trans ?_ (beginNext_kept ..)
    exact turn_kept ..
  · exact sealingBoundary_kept ..

/-! ### Sys2Proof/Machine/Firmware.lean -/

theorem showStagedRevs_kept (p) (s : State) : Kept s (showStagedRevs p s) := by
  unfold showStagedRevs
  refine Kept.foldl (fun a x => ?_) ?_
  · exact setF_kept ..
  · exact Kept.refl _

theorem reject_kept (reason) (s : State) : Kept s (reject reason s) := by
  unfold reject
  refine Kept.trans ?_ (setF_kept ..)
  exact setF_kept ..

theorem discard_kept (reason) (s : State) : Kept s (discard reason s) := by
  unfold discard
  refine Kept.trans ?_ (reject_kept ..)
  refine Kept.trans ?_ (showStagedRevs_kept ..)
  exact setF_kept ..

theorem newPackage_kept (s : State) : Kept s (newPackage s) := by
  unfold newPackage
  extract_lets v1 v2
  refine Kept.trans ?_ (showStagedRevs_kept ..)
  refine Kept.trans ?_ (setF_kept ..)
  refine Kept.trans ?_ (setF_kept ..)
  exact Kept.upd rfl rfl rfl rfl rfl rfl

theorem absorbBody_kept (got part) (s : State) : Kept s (absorbBody got part s) := by
  unfold absorbBody
  exact spendEng_kept ..

theorem takePart_kept (q got part) (s : State) : Kept s (takePart q got part s) := by
  unfold takePart
  extract_lets v1 v2 v3
  have h4 : Kept s v2 := inkWriteBytes_kept ..
  clear_value v2
  refine Kept.ite (fun _ => ?_) (fun _ => ?_)
  · refine Kept.trans ?_ (done_kept ..)
    refine Kept.trans ?_ (setF_kept ..)
    assumption
  · split
    · refine Kept.trans ?_ (done_kept ..)
      refine Kept.trans ?_ (discard_kept ..)
      assumption
    · refine Kept.ite (fun _ => ?_) (fun _ => ?_)
      · refine Kept.trans ?_ (done_kept ..)
        exact setF_kept ..
      · refine Kept.trans ?_ (done_kept ..)
        refine Kept.trans ?_ (setF_kept ..)
        refine Kept.trans ?_ (setF_kept ..)
        refine Kept.trans ?_ (showStagedRevs_kept ..)
        refine Kept.trans ?_ (absorbBody_kept ..)
        assumption

theorem firmwareDownload_kept (q off part sectorLost) (s : State) : Kept s (firmwareDownload q off part sectorLost s) := by
  unfold firmwareDownload
  extract_lets v1 v2
  have h3 : Kept s v2 := by
    unfold v2
    refine Kept.ite (fun _ => ?_) (fun _ => ?_)
    · exact newPackage_kept ..
    · exact Kept.refl _
  clear_value v2
  refine Kept.ite (fun _ => ?_) (fun _ => ?_)
  · exact done_kept ..
  · refine Kept.ite (fun _ => ?_) (fun _ => ?_)
    · exact done_kept ..
    · refine Kept.ite (fun _ => ?_) (fun _ => ?_)
      · exact done_kept ..
      · refine Kept.ite (fun _ => ?_) (fun _ => ?_)
        · refine Kept.trans ?_ (done_kept ..)
          refine Kept.trans ?_ (discard_kept ..)
          assumption
        · refine Kept.trans ?_ (takePart_kept ..)
          assumption

theorem execFirmwareDownload_kept (q ofst numd data sectorLost) (s : State) :
    KeptO s (execFirmwareDownload q ofst numd data sectorLost s) := by
  unfold execFirmwareDownload
  extract_lets v1
  unfold adminFetch
  refine KeptO.next ?_
  refine Kept.ite (fun _ => ?_) (fun _ => ?_)
  · split
    · refine Kept.trans ?_ (toFollower_kept ..)
      exact takeEntry_kept ..
    · unfold adminRun
      split
      · refine Kept.trans ?_ (done_kept ..)
        exact takeEntry_kept ..
      · refine Kept.ite (fun _ => ?_) (fun _ => ?_)
        · refine Kept.trans ?_ (done_kept ..)
          refine Kept.trans ?_ (takeDeferred_kept ..)
          exact takeEntry_kept ..
        · beta_reduce
          refine Kept.ite (fun _ => ?_) (fun _ => ?_)
          · refine Kept.trans ?_ (done_kept ..)
            exact takeEntry_kept ..
          · refine Kept.trans ?_ (firmwareDownload_kept ..)
            exact takeEntry_kept ..
  · exact Kept.refl _

theorem runPackage_kept (s : State) : Kept s (runPackage s) := by
  unfold runPackage
  refine Kept.foldl (fun a x => ?_) ?_
  · extract_lets v1
    have h2 : Kept a v1 := setF_kept ..
    clear_value v1
    refine Kept.ite (fun _ => ?_) (fun _ => ?_)
    · refine Kept.trans ?_ (setF_kept ..)
      refine Kept.trans ?_ (setF_kept ..)
      refine Kept.trans ?_ (setF_kept ..)
      assumption
    · assumption
  · exact Kept.refl _

theorem recordActivation_kept (s : State) : Kept s (recordActivation s) := by
  unfold recordActivation
  refine Kept.trans ?_ (setF_kept ..)
  refine Kept.trans ?_ (setF_kept ..)
  exact Kept.upd rfl rfl rfl rfl rfl rfl

theorem activate_kept (q) (s : State) : Kept s (activate q s) := by
  unfold activate
  refine Kept.ite (fun _ => ?_) (fun _ => ?_)
  · refine Kept.trans ?_ (deviceReset_kept ..)
    refine Kept.trans ?_ (done_kept ..)
    refine Kept.trans ?_ (recordActivation_kept ..)
    exact runPackage_kept ..
  · exact Kept.upd rfl rfl rfl rfl rfl rfl

theorem firmwareCommit_kept (q fs ca) (s : State) : Kept s (firmwareCommit q fs ca s) := by
  unfold firmwareCommit
  refine Kept.ite (fun _ => ?_) (fun _ => ?_)
  · exact done_kept ..
  · refine Kept.ite (fun _ => ?_) (fun _ => ?_)
    · exact done_kept ..
    · refine Kept.ite (fun _ => ?_) (fun _ => ?_)
      · exact done_kept ..
      · refine Kept.ite (fun _ => ?_) (fun _ => ?_)
        · refine Kept.trans ?_ (done_kept ..)
          exact reject_kept ..
        · extract_lets v1
          have h2 : Kept s v1 := setF_kept ..
          clear_value v1
          refine Kept.ite (fun _ => ?_) (fun _ => ?_)
          · refine Kept.trans ?_ (done_kept ..)
            assumption
          · refine Kept.ite (fun _ => ?_) (fun _ => ?_)
            · refine Kept.trans ?_ (done_kept ..)
              exact setF_kept ..
            · refine Kept.trans ?_ (activate_kept ..)
              assumption

theorem execFirmwareCommit_kept (q fs ca) (s : State) : KeptO s (execFirmwareCommit q fs ca s) := by
  unfold execFirmwareCommit
  unfold adminFetch
  refine KeptO.next ?_
  refine Kept.ite (fun _ => ?_) (fun _ => ?_)
  · split
    · refine Kept.trans ?_ (toFollower_kept ..)
      exact takeEntry_kept ..
    · unfold adminRun
      split
      · refine Kept.trans ?_ (done_kept ..)
        exact takeEntry_kept ..
      · refine Kept.ite (fun _ => ?_) (fun _ => ?_)
        · refine Kept.trans ?_ (done_kept ..)
          refine Kept.trans ?_ (takeDeferred_kept ..)
          exact takeEntry_kept ..
        · refine Kept.trans ?_ (firmwareCommit_kept ..)
          exact takeEntry_kept ..
  · exact Kept.refl _

theorem execActivateBegin_kept (s : State) : KeptO s (execActivateBegin s) := by
  unfold execActivateBegin
  refine KeptO.next ?_
  refine Kept.ite (fun _ => ?_) (fun _ => ?_)
  · exact beginActivate_kept ..
  · exact Kept.refl _

theorem activated_kept (s : State) : Kept s (activated s) := by
  unfold activated
  extract_lets v1 v2
  have h3 : Kept s v2 := by
    unfold v2
    refine Kept.trans ?_ (recordActivation_kept ..)
    exact runPackage_kept ..
  clear_value v2
  refine Kept.ite (fun _ => ?_) (fun _ => ?_)
  · assumption
  · refine Kept.trans ?_ (setF_kept ..)
    assumption

theorem noticeAll_kept (s : State) : Kept s (noticeAll s) := by
  unfold noticeAll
  refine Kept.foldl (fun a x => ?_) ?_
  · refine Kept.ite (fun _ => ?_) (fun _ => ?_)
    · exact raiseEvent_kept ..
    · exact Kept.refl _
  · exact Kept.refl _

theorem endCommit_kept (st) (s : State) : Kept s (endCommit st s) := by
  unfold endCommit
  split
  · exact Kept.refl _
  · refine Kept.trans ?_ (complete_kept ..)
    exact Kept.upd rfl rfl rfl rfl rfl rfl

theorem execActivateEnd_kept (frac ok us) (s : State) : KeptO s (execActivateEnd frac ok us s) := by
  unfold execActivateEnd
  extract_lets v1 v2 v3 v4 v5
  have h6 : Kept s v1 := atFrac_kept ..
  clear_value v1
  have h7 : Kept s v3 := by
    unfold v3
    refine Kept.trans ?_ (setF_kept ..)
    refine Kept.ite (fun _ => ?_) (fun _ => ?_)
    · refine Kept.trans ?_ (activated_kept ..)
      assumption
    · refine Kept.trans ?_ (reject_kept ..)
      assumption
  clear_value v3
  have h8 : Kept s v5 := by
    unfold v5
    refine Kept.trans ?_ (switchMode_kept ..)
    refine Kept.trans ?_ (Kept.upd rfl rfl rfl rfl rfl rfl)
    assumption
  clear_value v5
  refine KeptO.next ?_
  refine Kept.ite (fun _ => ?_) (fun _ => ?_)
  · assumption
  · refine Kept.ite (fun _ => ?_) (fun _ => ?_)
    · refine Kept.trans ?_ (endCommit_kept ..)
      refine Kept.trans ?_ (noticeAll_kept ..)
      assumption
    · refine Kept.trans ?_ (endCommit_kept ..)
      assumption

theorem copyBody_kept (comp d) (s : State) : Kept s (copyBody comp d s) := by
  unfold copyBody
  extract_lets v1 v2 v3 v4
  refine Kept.trans ?_ (inkWriteBytes_kept ..)
  exact Kept.upd rfl rfl rfl rfl rfl rfl

theorem recordCopy_kept (comp) (s : State) : Kept s (recordCopy comp s) := by
  unfold recordCopy
  extract_lets v1 v2 v3
  have h4 : Kept s v2 := Kept.upd rfl rfl rfl rfl rfl rfl
  clear_value v2
  refine Kept.ite (fun _ => ?_) (fun _ => ?_)
  · assumption
  · refine Kept.trans ?_ (setF_kept ..)
    refine Kept.trans ?_ (setF_kept ..)
    refine Kept.trans ?_ (Kept.upd rfl rfl rfl rfl rfl rfl)
    assumption

theorem execBootCopyDone_kept (comp ok ms) (s : State) : KeptO s (execBootCopyDone comp ok ms s) := by
  unfold execBootCopyDone
  refine KeptO.next ?_
  refine Kept.ite (fun _ => ?_) (fun _ => ?_)
  · exact Kept.refl _
  · refine Kept.ite (fun _ => ?_) (fun _ => ?_)
    · split
      · exact Kept.refl _
      · refine Kept.trans ?_ (recordCopy_kept ..)
        refine Kept.trans ?_ (copyBody_kept ..)
        exact setF_kept ..
    · refine Kept.ite (fun _ => ?_) (fun _ => ?_)
      · exact Kept.refl _
      · exact enterSafe_kept ..

/-! ### Sys2Proof/Machine/RegWrite.lean -/

theorem latchHi_kept (off) (s : State) : Kept s (latchHi off s) := by
  unfold latchHi
  split
  · exact Kept.upd rfl rfl rfl rfl rfl rfl
  · exact Kept.refl _

theorem readAccess_kept (off) (s : State) : Kept s (readAccess off s) := by
  unfold readAccess
  split
  · refine Kept.trans ?_ (emit_kept ..)
    refine Kept.ite (fun _ => ?_) (fun _ => ?_)
    · exact Kept.refl _
    · exact latchHi_kept ..
  · exact Kept.refl _

theorem execLatchedReadLo_kept (off) (s : State) : KeptO s (execLatchedReadLo off s) := by
  unfold execLatchedReadLo
  refine KeptO.ite (fun _ => ?_) (fun _ => ?_)
  · exact KeptO.fault
  · refine KeptO.next ?_
    refine Kept.ite (fun _ => ?_) (fun _ => ?_)
    · exact readAccess_kept ..
    · exact Kept.refl _

theorem releaseParts_kept (off) (s : State) : Kept s (releaseParts off s) := by
  unfold releaseParts
  refine Kept.foldl (fun a x => ?_) ?_
  · split
    · refine Kept.trans ?_ (guardedWrite_kept ..)
      exact Kept.upd rfl rfl rfl rfl rfl rfl
    · exact Kept.refl _
  · exact Kept.refl _

theorem noteStored_kept (off) (s : State) : Kept s (noteStored off s) := by
  unfold noteStored
  refine Kept.ite (fun _ => ?_) (fun _ => ?_)
  · refine Kept.trans ?_ (setF_kept ..)
    exact Kept.upd rfl rfl rfl rfl rfl rfl
  · exact Kept.refl _

theorem retrain_kept (s : State) : Kept s (retrain s) := by
  unfold retrain
  refine Kept.ite (fun _ => ?_) (fun _ => ?_)
  · exact incF_kept ..
  · exact Kept.refl _

theorem periodWritten_kept (p) (s : State) : Kept s (periodWritten p s) := by
  unfold periodWritten
  refine Kept.ite (fun _ => ?_) (fun _ => ?_)
  · exact Kept.refl _
  · refine Kept.trans ?_ (setF_kept ..)
    exact setF_kept ..

theorem hashWritten_kept (s : State) : Kept s (hashWritten s) := by
  unfold hashWritten
  extract_lets v1 v2
  refine Kept.ite (fun _ => ?_) (fun _ => ?_)
  · exact Kept.upd rfl rfl rfl rfl rfl rfl
  · exact Kept.refl _

theorem oxvEnWritten_kept (s : State) : Kept s (oxvEnWritten s) := by
  unfold oxvEnWritten
  refine Kept.foldl (fun a x => ?_) ?_
  · refine Kept.ite (fun _ => ?_) (fun _ => ?_)
    · exact oxvDown_kept ..
    · exact Kept.refl _
  · exact Kept.refl _

theorem afterWrite_kept (off old v) (s : State) : Kept s (afterWrite off old v s) := by
  unfold afterWrite
  extract_lets v1
  refine Kept.ite (fun _ => ?_) (fun _ => ?_)
  · exact periodWritten_kept ..
  · refine Kept.ite (fun _ => ?_) (fun _ => ?_)
    · refine Kept.trans ?_ (resumeHeld_kept ..)
      exact showSeal_kept ..
    · refine Kept.ite (fun _ => ?_) (fun _ => ?_)
      · exact hashWritten_kept ..
      · refine Kept.ite (fun _ => ?_) (fun _ => ?_)
        · exact showBusy_kept ..
        · refine Kept.ite (fun _ => ?_) (fun _ => ?_)
          · exact applyPortEn_kept ..
          · refine Kept.ite (fun _ => ?_) (fun _ => ?_)
            · refine Kept.ite (fun _ => ?_) (fun _ => ?_)
              · exact disableEvt_kept ..
              · exact Kept.refl _
            · refine Kept.ite (fun _ => ?_) (fun _ => ?_)
              · exact setCores_kept ..
              · refine Kept.ite (fun _ => ?_) (fun _ => ?_)
                · exact dropEq_kept ..
                · refine Kept.ite (fun _ => ?_) (fun _ => ?_)
                  · exact showSlots_kept ..
                  · refine Kept.ite (fun _ => ?_) (fun _ => ?_)
                    · refine Kept.ite (fun _ => ?_) (fun _ => ?_)
                      · exact clearPart_kept ..
                      · exact Kept.refl _
                    · refine Kept.ite (fun _ => ?_) (fun _ => ?_)
                      · refine Kept.ite (fun _ => ?_) (fun _ => ?_)
                        · exact requestPoint_kept ..
                        · exact Kept.refl _
                      · refine Kept.ite (fun _ => ?_) (fun _ => ?_)
                        · exact oxvEnWritten_kept ..
                        · exact Kept.refl _

theorem settingWrite_kept (off v) (s : State) : Kept s (settingWrite off v s) := by
  unfold settingWrite
  extract_lets v1 v2
  have h3 : Kept s v1 := releaseParts_kept ..
  clear_value v1
  refine Kept.trans ?_ (noteStored_kept ..)
  refine Kept.trans ?_ (afterWrite_kept ..)
  refine Kept.trans ?_ (guardedWrite_kept ..)
  assumption

theorem glbErr_kept (s : State) : Kept s (glbErr s) := by
  unfold glbErr
  exact setF_kept ..

theorem writeDword_kept (off v) (s : State) : Kept s (writeDword off v s) := by
  unfold writeDword
  refine Kept.ite (fun _ => ?_) (fun _ => ?_)
  · refine Kept.ite (fun _ => ?_) (fun _ => ?_)
    · exact glbErr_kept ..
    · refine Kept.ite (fun _ => ?_) (fun _ => ?_)
      · exact deviceReset_kept ..
      · exact Kept.refl _
  · refine Kept.ite (fun _ => ?_) (fun _ => ?_)
    · refine Kept.ite (fun _ => ?_) (fun _ => ?_)
      · exact glbErr_kept ..
      · refine Kept.ite (fun _ => ?_) (fun _ => ?_)
        · exact clearLog_kept ..
        · exact Kept.refl _
    · refine Kept.ite (fun _ => ?_) (fun _ => ?_)
      · split
        · refine Kept.trans ?_ (retrain_kept ..)
          exact settingWrite_kept ..
        · dsimp only [id]
          exact settingWrite_kept ..
      · refine Kept.ite (fun _ => ?_) (fun _ => ?_)
        · exact Kept.refl _
        · refine Kept.ite (fun _ => ?_) (fun _ => ?_)
          · exact feedOpen_kept ..
          · refine Kept.ite (fun _ => ?_) (fun _ => ?_)
            · exact feedData_kept ..
            · refine Kept.ite (fun _ => ?_) (fun _ => ?_)
              · refine Kept.ite (fun _ => ?_) (fun _ => ?_)
                · exact setF_kept ..
                · exact plainWrite_kept ..
              · refine Kept.ite (fun _ => ?_) (fun _ => ?_)
                · exact feedLast_kept ..
                · refine Kept.ite (fun _ => ?_) (fun _ => ?_)
                  · refine Kept.ite (fun _ => ?_) (fun _ => ?_)
                    · exact feedAbort_kept ..
                    · exact Kept.refl _
                  · refine Kept.ite (fun _ => ?_) (fun _ => ?_)
                    · exact Kept.upd rfl rfl rfl rfl rfl rfl
                    · refine Kept.ite (fun _ => ?_) (fun _ => ?_)
                      · exact clearSlot_kept ..
                      · refine Kept.ite (fun _ => ?_) (fun _ => ?_)
                        · extract_lets v1 v2
                          have h3 : Kept s v1 := plainWrite_kept ..
                          clear_value v1
                          have h4 : Kept s v2 := by
                            unfold v2
                            refine Kept.ite (fun _ => ?_) (fun _ => ?_)
                            · refine Kept.trans ?_ (sieveGo_kept ..)
                              assumption
                            · assumption
                          clear_value v2
                          refine Kept.ite (fun _ => ?_) (fun _ => ?_)
                          · refine Kept.trans ?_ (sieveNext_kept ..)
                            assumption
                          · assumption
                        · refine Kept.ite (fun _ => ?_) (fun _ => ?_)
                          · refine Kept.ite (fun _ => ?_) (fun _ => ?_)
                            · exact requestPoint_kept ..
                            · exact Kept.refl _
                          · refine Kept.ite (fun _ => ?_) (fun _ => ?_)
                            · refine Kept.ite (fun _ => ?_) (fun _ => ?_)
                              · exact Kept.upd rfl rfl rfl rfl rfl rfl
                              · exact Kept.refl _
                            · refine Kept.ite (fun _ => ?_) (fun _ => ?_)
                              · exact inkCommand_kept ..
                              · refine Kept.ite (fun _ => ?_) (fun _ => ?_)
                                · exact remoteWrite_kept ..
                                · refine Kept.ite (fun _ => ?_) (fun _ => ?_)
                                  · exact Kept.upd rfl rfl rfl rfl rfl rfl
                                  · exact settingWrite_kept ..

theorem gatedWrite_kept (off v) (s : State) : Kept s (gatedWrite off v s) := by
  unfold gatedWrite
  extract_lets v1 v2
  have h3 : Kept s v2 := Kept.upd rfl rfl rfl rfl rfl rfl
  clear_value v2
  refine Kept.ite (fun _ => ?_) (fun _ => ?_)
  · assumption
  · refine Kept.ite (fun _ => ?_) (fun _ => ?_)
    · refine Kept.trans ?_ (Kept.upd rfl rfl rfl rfl rfl rfl)
      assumption
    · refine Kept.trans ?_ (noteStored_kept ..)
      refine Kept.trans ?_ (guardedWrite_kept ..)
      refine Kept.trans ?_ (releaseParts_kept ..)
      assumption

theorem replayWrites_kept (s : State) : Kept s (replayWrites s) := by
  unfold replayWrites
  refine Kept.ite (fun _ => ?_) (fun _ => ?_)
  · exact Kept.refl _
  · refine Kept.foldl (fun a x => ?_) ?_
    · exact writeDword_kept ..
    · exact Kept.upd rfl rfl rfl rfl rfl rfl

theorem busWrite_kept (off v) (s : State) : Kept s (busWrite off v s) := by
  unfold busWrite
  split
  · exact Kept.refl _
  · exact Kept.refl _
  · refine Kept.ite (fun _ => ?_) (fun _ => ?_)
    · exact writeDword_kept ..
    · exact glbErr_kept ..
  · split
    · exact writeDword_kept ..
    · exact gatedWrite_kept ..
  · split
    · exact writeDword_kept ..
    · exact gatedWrite_kept ..
  · exact writeDword_kept ..

theorem execRegisterWrite_kept (off value full) (s : State) : KeptO s (execRegisterWrite off value full s) := by
  unfold execRegisterWrite
  refine KeptO.ite (fun _ => ?_) (fun _ => ?_)
  · exact KeptO.fault
  · refine KeptO.next ?_
    refine Kept.ite (fun _ => ?_) (fun _ => ?_)
    · exact Kept.refl _
    · refine Kept.ite (fun _ => ?_) (fun _ => ?_)
      · exact busWrite_kept ..
      · exact glbErr_kept ..

theorem takeEntryFrom_kept (sqid cid) (s : State) : Kept s (takeEntryFrom sqid cid s) := by
  unfold takeEntryFrom
  extract_lets v1 v2
  refine Kept.trans ?_ (commandArrives_kept ..)
  refine Kept.trans ?_ (updFn_kept ..)
  exact Kept.upd rfl rfl rfl rfl rfl rfl

theorem proxyDone_kept (dev sqid cid st dw0 dw1) (s : State) : Kept s (proxyDone dev sqid cid st dw0 dw1 s) := by
  unfold proxyDone
  extract_lets v1 v2
  refine Kept.ite (fun _ => ?_) (fun _ => ?_)
  · refine Kept.trans ?_ (showDomainAttn_kept ..)
    refine Kept.trans ?_ (complete_kept ..)
    exact Kept.upd rfl rfl rfl rfl rfl rfl
  · exact Kept.refl _

theorem proxyData_kept (cid bytes) (s : State) : Kept s (proxyData cid bytes s) := by
  unfold proxyData
  split
  · exact dataArrived_kept ..
  · exact Kept.refl _

theorem takeProxy_kept (h m) (s : State) : Kept s (takeProxy h m s) := by
  unfold takeProxy
  split
  · refine Kept.ite (fun _ => ?_) (fun _ => ?_)
    · exact takeEntryFrom_kept ..
    · exact Kept.refl _
  · refine Kept.ite (fun _ => ?_) (fun _ => ?_)
    · exact proxyDone_kept ..
    · exact Kept.refl _
  · refine Kept.ite (fun _ => ?_) (fun _ => ?_)
    · exact proxyDone_kept ..
    · exact Kept.refl _
  · refine Kept.ite (fun _ => ?_) (fun _ => ?_)
    · exact hostWrite_kept ..
    · refine Kept.ite (fun _ => ?_) (fun _ => ?_)
      · exact proxyData_kept ..
      · exact Kept.refl _
  · refine Kept.ite (fun _ => ?_) (fun _ => ?_)
    · exact Kept.refl _
    · refine Kept.ite (fun _ => ?_) (fun _ => ?_)
      · refine Kept.trans ?_ (oxvTo_kept ..)
        exact busWrite_kept ..
      · refine Kept.trans ?_ (oxvTo_kept ..)
        exact latchHi_kept ..
  · refine Kept.ite (fun _ => ?_) (fun _ => ?_)
    · exact Kept.refl _
    · extract_lets v1
      have h2 : Kept s v1 := setF_kept ..
      clear_value v1
      refine Kept.ite (fun _ => ?_) (fun _ => ?_)
      · assumption
      · refine Kept.trans ?_ (setF_kept ..)
        assumption

theorem execProxyFrame_kept (h m) (s : State) : KeptO s (execProxyFrame h m s) := by
  unfold execProxyFrame
  refine KeptO.next ?_
  unfold oxvReceive
  refine Kept.ite (fun _ => ?_) (fun _ => ?_)
  · exact Kept.refl _
  · extract_lets v1 v2 v3 v4 v5
    have h6 : Kept s v1 := oxvAck_kept ..
    clear_value v1
    have h7 : Kept s v5 := by
      unfold v5
      refine Kept.ite (fun _ => ?_) (fun _ => ?_)
      · refine Kept.trans ?_ (updLink_kept ..)
        assumption
      · assumption
    clear_value v5
    refine Kept.ite (fun _ => ?_) (fun _ => ?_)
    · refine Kept.ite (fun _ => ?_) (fun _ => ?_)
      · assumption
      · refine Kept.trans ?_ (takeProxy_kept ..)
        refine Kept.trans ?_ (floodOn_kept ..)
        refine Kept.trans ?_ (Kept.upd rfl rfl rfl rfl rfl rfl)
        assumption
    · refine Kept.ite (fun _ => ?_) (fun _ => ?_)
      · refine Kept.ite (fun _ => ?_) (fun _ => ?_)
        · refine Kept.trans ?_ (sendNak_kept ..)
          assumption
        · assumption
      · refine Kept.ite (fun _ => ?_) (fun _ => ?_)
        · refine Kept.trans ?_ (takeProxy_kept ..)
          assumption
        · refine Kept.trans ?_ (forwardOn_kept ..)
          assumption

/-! ### Sys2Proof/Machine/Mi.lean -/

theorem miRefuse_kept (s : State) : Kept s (miRefuse s).after := by
  unfold miRefuse
  dsimp only
  exact Kept.refl _

theorem miStructure_kept (dtyp port ctrl) (s : State) : Kept s (miStructure dtyp port ctrl s).after := by
  unfold miStructure
  split
  · unfold miData
    dsimp only
    exact openLog_kept ..
  · refine Kept.mi_ite (fun _ => ?_) (fun _ => ?_)
    · exact miRefuse_kept ..
    · unfold miData
      dsimp only
      exact openLog_kept ..
  · dsimp only
    unfold miData
    dsimp only
    exact Kept.refl _
  · refine Kept.mi_ite (fun _ => ?_) (fun _ => ?_)
    · exact miRefuse_kept ..
    · unfold miData
      dsimp only
      exact openLog_kept ..
  · exact miRefuse_kept ..

theorem miSubsystem_kept (clear) (s : State) : Kept s (miSubsystem clear s).after := by
  unfold miSubsystem
  unfold miData
  dsimp only
  refine Kept.trans ?_ (openLog_kept ..)
  refine Kept.ite (fun _ => ?_) (fun _ => ?_)
  · exact Kept.upd rfl rfl rfl rfl rfl rfl
  · exact Kept.refl _

theorem miControllers_kept (first max) (s : State) : Kept s (miControllers first max s).after := by
  unfold miControllers
  dsimp only
  refine Kept.mi_ite (fun _ => ?_) (fun _ => ?_)
  · exact miRefuse_kept ..
  · dsimp only
    exact Kept.refl _

theorem miSet_kept (cid port value) (s : State) : Kept s (miSet cid port value s).after := by
  unfold miSet
  dsimp only
  split
  · refine Kept.mi_ite (fun _ => ?_) (fun _ => ?_)
    · exact miRefuse_kept ..
    · dsimp only
      exact Kept.upd rfl rfl rfl rfl rfl rfl
  · dsimp only
    exact Kept.upd rfl rfl rfl rfl rfl rfl
  · refine Kept.mi_ite (fun _ => ?_) (fun _ => ?_)
    · exact miRefuse_kept ..
    · dsimp only
      exact Kept.upd rfl rfl rfl rfl rfl rfl
  · exact miRefuse_kept ..

theorem miGet_kept (cid port) (s : State) : Kept s (miGet cid port s).after := by
  unfold miGet
  dsimp only
  split
  · refine Kept.mi_ite (fun _ => ?_) (fun _ => ?_)
    · exact miRefuse_kept ..
    · dsimp only
      exact Kept.refl _
  · dsimp only
    exact Kept.refl _
  · refine Kept.mi_ite (fun _ => ?_) (fun _ => ?_)
    · exact miRefuse_kept ..
    · dsimp only
      exact Kept.refl _
  · exact miRefuse_kept ..

theorem miVpdRead_kept (off len) (s : State) : Kept s (miVpdRead off len s).after := by
  unfold miVpdRead
  refine Kept.mi_ite (fun _ => ?_) (fun _ => ?_)
  · exact miRefuse_kept ..
  · dsimp only
    exact Kept.refl _

theorem miVpdWrite_kept (off data) (s : State) : Kept s (miVpdWrite off data s).after := by
  unfold miVpdWrite
  refine Kept.mi_ite (fun _ => ?_) (fun _ => ?_)
  · exact miRefuse_kept ..
  · dsimp only
    refine Kept.trans ?_ (setF_kept ..)
    exact Kept.upd rfl rfl rfl rfl rfl rfl

theorem execMiReadDataStructure_kept (dtyp port ctrl) (s : State) : KeptO s (execMiReadDataStructure dtyp port ctrl s) := by
  unfold execMiReadDataStructure
  unfold miReply
  refine KeptO.next ?_
  refine Kept.ite (fun _ => ?_) (fun _ => ?_)
  · exact Kept.refl _
  · extract_lets v1
    have h2 : Kept s v1.after := miStructure_kept ..
    clear_value v1
    refine Kept.trans ?_ (emit_kept ..)
    assumption

theorem execMiSubsystemHealthPoll_kept (clear) (s : State) : KeptO s (execMiSubsystemHealthPoll clear s) := by
  unfold execMiSubsystemHealthPoll
  unfold miReply
  refine KeptO.next ?_
  refine Kept.ite (fun _ => ?_) (fun _ => ?_)
  · exact Kept.refl _
  · extract_lets v1
    have h2 : Kept s v1.after := miSubsystem_kept ..
    clear_value v1
    refine Kept.trans ?_ (emit_kept ..)
    assumption

theorem execMiControllerHealthPoll_kept (first max) (s : State) : KeptO s (execMiControllerHealthPoll first max s) := by
  unfold execMiControllerHealthPoll
  unfold miReply
  refine KeptO.next ?_
  refine Kept.ite (fun _ => ?_) (fun _ => ?_)
  · exact Kept.refl _
  · extract_lets v1
    have h2 : Kept s v1.after := miControllers_kept ..
    clear_value v1
    refine Kept.trans ?_ (emit_kept ..)
    assumption

theorem execMiConfigurationSet_kept (cid port value) (s : State) : KeptO s (execMiConfigurationSet cid port value s) := by
  unfold execMiConfigurationSet
  unfold miReply
  refine KeptO.next ?_
  refine Kept.ite (fun _ => ?_) (fun _ => ?_)
  · exact Kept.refl _
  · extract_lets v1
    have h2 : Kept s v1.after := miSet_kept ..
    clear_value v1
    refine Kept.trans ?_ (emit_kept ..)
    assumption

theorem execMiConfigurationGet_kept (cid port) (s : State) : KeptO s (execMiConfigurationGet cid port s) := by
  unfold execMiConfigurationGet
  unfold miReply
  refine KeptO.next ?_
  refine Kept.ite (fun _ => ?_) (fun _ => ?_)
  · exact Kept.refl _
  · extract_lets v1
    have h2 : Kept s v1.after := miGet_kept ..
    clear_value v1
    refine Kept.trans ?_ (emit_kept ..)
    assumption

theorem execMiVpdRead_kept (off len) (s : State) : KeptO s (execMiVpdRead off len s) := by
  unfold execMiVpdRead
  unfold miReply
  refine KeptO.next ?_
  refine Kept.ite (fun _ => ?_) (fun _ => ?_)
  · exact Kept.refl _
  · extract_lets v1
    have h2 : Kept s v1.after := miVpdRead_kept ..
    clear_value v1
    refine Kept.trans ?_ (emit_kept ..)
    assumption

theorem execMiVpdWrite_kept (off data) (s : State) : KeptO s (execMiVpdWrite off data s) := by
  unfold execMiVpdWrite
  unfold miReply
  refine KeptO.next ?_
  refine Kept.ite (fun _ => ?_) (fun _ => ?_)
  · exact Kept.refl _
  · extract_lets v1
    have h2 : Kept s v1.after := miVpdWrite_kept ..
    clear_value v1
    refine Kept.trans ?_ (emit_kept ..)
    assumption

theorem execMiReset_kept (s : State) : KeptO s (execMiReset s) := by
  unfold execMiReset
  unfold miReply
  refine KeptO.next ?_
  refine Kept.ite (fun _ => ?_) (fun _ => ?_)
  · exact Kept.refl _
  · extract_lets v1
    have h2 : Kept s v1.after := miRefuse_kept ..
    clear_value v1
    refine Kept.trans ?_ (emit_kept ..)
    assumption

theorem miReceive_kept (op dw0 dw1) (s : State) : Kept s (miReceive op dw0 dw1 s).after := by
  unfold miReceive
  split
  · exact miStructure_kept ..
  · exact miSubsystem_kept ..
  · exact miControllers_kept ..
  · exact miGet_kept ..
  · exact miVpdRead_kept ..
  · dsimp only
    exact Kept.refl _

theorem miSend_kept (op dw0 dw1 data) (s : State) : Kept s (miSend op dw0 dw1 data s).after := by
  unfold miSend
  split
  · dsimp only
    exact miSet_kept ..
  · exact miVpdWrite_kept ..
  · exact miRefuse_kept ..
  · dsimp only
    exact Kept.refl _

theorem execNvmeMiSend_kept (q opcode dw0 dw1 data) (s : State) : KeptO s (execNvmeMiSend q opcode dw0 dw1 data s) := by
  unfold execNvmeMiSend
  unfold adminFetch
  refine KeptO.next ?_
  refine Kept.ite (fun _ => ?_) (fun _ => ?_)
  · split
    · refine Kept.trans ?_ (toFollower_kept ..)
      exact takeEntry_kept ..
    · unfold adminRun
      split
      · refine Kept.trans ?_ (done_kept ..)
        exact takeEntry_kept ..
      · refine Kept.ite (fun _ => ?_) (fun _ => ?_)
        · refine Kept.trans ?_ (done_kept ..)
          refine Kept.trans ?_ (takeDeferred_kept ..)
          exact takeEntry_kept ..
        · unfold miInBand
          extract_lets v1 v2
          have h3 : Kept s v1.after := by
            unfold v1
            refine Kept.trans ?_ (miSend_kept ..)
            exact takeEntry_kept ..
          clear_value v1
          refine Kept.ite (fun _ => ?_) (fun _ => ?_)
          · refine Kept.trans ?_ (done_kept ..)
            assumption
          · refine Kept.trans ?_ (answer_kept ..)
            assumption
  · exact Kept.refl _

theorem execNvmeMiReceive_kept (q opcode dw0 dw1) (s : State) : KeptO s (execNvmeMiReceive q opcode dw0 dw1 s) := by
  unfold execNvmeMiReceive
  extract_lets v1
  unfold adminFetch
  refine KeptO.next ?_
  refine Kept.ite (fun _ => ?_) (fun _ => ?_)
  · split
    · refine Kept.trans ?_ (toFollower_kept ..)
      exact takeEntry_kept ..
    · unfold adminRun
      split
      · refine Kept.trans ?_ (done_kept ..)
        exact takeEntry_kept ..
      · refine Kept.ite (fun _ => ?_) (fun _ => ?_)
        · refine Kept.trans ?_ (done_kept ..)
          refine Kept.trans ?_ (takeDeferred_kept ..)
          exact takeEntry_kept ..
        · unfold miInBand
          extract_lets v2 v3
          have h4 : Kept s v2.after := by
            unfold v2
            unfold v1
            refine Kept.trans ?_ (miReceive_kept ..)
            exact takeEntry_kept ..
          clear_value v2
          refine Kept.ite (fun _ => ?_) (fun _ => ?_)
          · refine Kept.trans ?_ (done_kept ..)
            assumption
          · refine Kept.trans ?_ (answer_kept ..)
            assumption
  · exact Kept.refl _

theorem tunnelled_kept (ctrl c) (s : State) : Kept s (tunnelled ctrl c s) := by
  unfold tunnelled
  extract_lets v1
  split
  · unfold v1
    extract_lets v2
    unfold adminRun
    split
    · exact done_kept ..
    · refine Kept.ite (fun _ => ?_) (fun _ => ?_)
      · refine Kept.trans ?_ (done_kept ..)
        exact takeDeferred_kept ..
      · beta_reduce
        exact identify_kept ..
  · unfold v1
    extract_lets v3
    unfold adminRun
    split
    · exact done_kept ..
    · refine Kept.ite (fun _ => ?_) (fun _ => ?_)
      · refine Kept.trans ?_ (done_kept ..)
        exact takeDeferred_kept ..
      · beta_reduce
        exact getFeatures_kept ..
  · unfold v1
    extract_lets v4
    unfold adminRun
    split
    · exact done_kept ..
    · refine Kept.ite (fun _ => ?_) (fun _ => ?_)
      · refine Kept.trans ?_ (done_kept ..)
        exact takeDeferred_kept ..
      · beta_reduce
        exact setFeatures_kept ..
  · unfold v1
    extract_lets v5
    unfold adminRun
    split
    · exact done_kept ..
    · refine Kept.ite (fun _ => ?_) (fun _ => ?_)
      · refine Kept.trans ?_ (done_kept ..)
        exact takeDeferred_kept ..
      · beta_reduce
        exact getLogPage_kept ..
  · unfold v1
    extract_lets v6
    unfold adminRun
    split
    · exact done_kept ..
    · refine Kept.ite (fun _ => ?_) (fun _ => ?_)
      · refine Kept.trans ?_ (done_kept ..)
        exact takeDeferred_kept ..
      · beta_reduce
        exact nsCreate_kept ..
  · unfold v1
    extract_lets v7
    unfold adminRun
    split
    · exact done_kept ..
    · refine Kept.ite (fun _ => ?_) (fun _ => ?_)
      · refine Kept.trans ?_ (done_kept ..)
        exact takeDeferred_kept ..
      · exact nsDelete_kept ..
  · unfold v1
    extract_lets v8
    unfold adminRun
    split
    · exact done_kept ..
    · refine Kept.ite (fun _ => ?_) (fun _ => ?_)
      · refine Kept.trans ?_ (done_kept ..)
        exact takeDeferred_kept ..
      · beta_reduce
        exact nsAttach_kept ..
  · unfold v1
    extract_lets v9
    unfold adminRun
    split
    · exact done_kept ..
    · refine Kept.ite (fun _ => ?_) (fun _ => ?_)
      · refine Kept.trans ?_ (done_kept ..)
        exact takeDeferred_kept ..
      · beta_reduce
        exact nsDetach_kept ..
  · unfold v1
    extract_lets v10
    unfold adminRun
    split
    · exact done_kept ..
    · refine Kept.ite (fun _ => ?_) (fun _ => ?_)
      · refine Kept.trans ?_ (done_kept ..)
        exact takeDeferred_kept ..
      · beta_reduce
        exact vmAssign_kept ..
  · unfold v1
    extract_lets v11
    unfold adminRun
    split
    · exact done_kept ..
    · refine Kept.ite (fun _ => ?_) (fun _ => ?_)
      · refine Kept.trans ?_ (done_kept ..)
        exact takeDeferred_kept ..
      · beta_reduce
        exact vmOnline_kept ..
  · unfold v1
    extract_lets v12
    unfold adminRun
    split
    · exact done_kept ..
    · refine Kept.ite (fun _ => ?_) (fun _ => ?_)
      · refine Kept.trans ?_ (done_kept ..)
        exact takeDeferred_kept ..
      · beta_reduce
        exact vmOffline_kept ..
  · unfold v1
    extract_lets v13
    unfold adminRun
    split
    · exact done_kept ..
    · refine Kept.ite (fun _ => ?_) (fun _ => ?_)
      · refine Kept.trans ?_ (done_kept ..)
        exact takeDeferred_kept ..
      · beta_reduce
        exact formatNvm_kept ..
  · unfold v1
    extract_lets v14
    unfold adminRun
    split
    · exact done_kept ..
    · refine Kept.ite (fun _ => ?_) (fun _ => ?_)
      · refine Kept.trans ?_ (done_kept ..)
        exact takeDeferred_kept ..
      · beta_reduce
        exact sanitize_kept ..
  · unfold v1
    extract_lets v15
    unfold adminRun
    split
    · exact done_kept ..
    · refine Kept.ite (fun _ => ?_) (fun _ => ?_)
      · refine Kept.trans ?_ (done_kept ..)
        exact takeDeferred_kept ..
      · beta_reduce
        exact selfTest_kept ..
  · unfold v1
    extract_lets v16
    unfold adminRun
    split
    · exact done_kept ..
    · refine Kept.ite (fun _ => ?_) (fun _ => ?_)
      · refine Kept.trans ?_ (done_kept ..)
        exact takeDeferred_kept ..
      · beta_reduce
        exact modeRequest_kept ..
  · unfold v1
    extract_lets v17
    unfold adminRun
    split
    · exact done_kept ..
    · refine Kept.ite (fun _ => ?_) (fun _ => ?_)
      · refine Kept.trans ?_ (done_kept ..)
        exact takeDeferred_kept ..
      · beta_reduce
        exact firmwareDownload_kept ..
  · unfold v1
    extract_lets v18
    unfold adminRun
    split
    · exact done_kept ..
    · refine Kept.ite (fun _ => ?_) (fun _ => ?_)
      · refine Kept.trans ?_ (done_kept ..)
        exact takeDeferred_kept ..
      · beta_reduce
        exact firmwareCommit_kept ..
  · unfold v1
    extract_lets v19
    unfold adminRun
    split
    · exact done_kept ..
    · refine Kept.ite (fun _ => ?_) (fun _ => ?_)
      · refine Kept.trans ?_ (done_kept ..)
        exact takeDeferred_kept ..
      · beta_reduce
        exact startBlob_kept ..
  · unfold v1
    extract_lets v20
    unfold adminRun
    split
    · exact done_kept ..
    · refine Kept.ite (fun _ => ?_) (fun _ => ?_)
      · refine Kept.trans ?_ (done_kept ..)
        exact takeDeferred_kept ..
      · beta_reduce
        exact domainConfigure_kept ..
  · unfold v1
    extract_lets v21
    unfold adminRun
    split
    · exact done_kept ..
    · refine Kept.ite (fun _ => ?_) (fun _ => ?_)
      · refine Kept.trans ?_ (done_kept ..)
        exact takeDeferred_kept ..
      · exact domainRealign_kept ..

theorem tunnelArrives_kept (ctrl) (s : State) : Kept s (tunnelArrives ctrl s) := by
  unfold tunnelArrives
  exact commandArrives_kept ..

theorem serveTunnels_kept (s : State) : Kept s (serveTunnels s) := by
  unfold serveTunnels
  refine Kept.ite (fun _ => ?_) (fun _ => ?_)
  · exact Kept.refl _
  · refine Kept.foldl (fun a x => ?_) ?_
    · exact tunnelled_kept ..
    · exact Kept.upd rfl rfl rfl rfl rfl rfl

theorem execModeTransitionDone_kept (frac) (s : State) : KeptO s (execModeTransitionDone frac s) := by
  unfold execModeTransitionDone
  refine KeptO.next ?_
  refine Kept.trans ?_ (serveTunnels_kept ..)
  refine Kept.trans ?_ (replayWrites_kept ..)
  refine Kept.trans ?_ (finishTrans_kept ..)
  refine Kept.trans ?_ (advanceStop_kept ..)
  exact atFrac_kept ..

theorem takeTunnel_kept (ctrl cmd) (s : State) : Kept s (takeTunnel ctrl cmd s) := by
  unfold takeTunnel
  extract_lets v1 v2
  have h3 : Kept s v1 := tunnelArrives_kept ..
  clear_value v1
  refine Kept.ite (fun _ => ?_) (fun _ => ?_)
  · refine Kept.trans ?_ (Kept.upd rfl rfl rfl rfl rfl rfl)
    assumption
  · refine Kept.trans ?_ (tunnelled_kept ..)
    assumption

theorem execMiAdminTunnel_kept (ctrl dlen cmd) (s : State) : KeptO s (execMiAdminTunnel ctrl dlen cmd s) := by
  unfold execMiAdminTunnel
  refine KeptO.next ?_
  refine Kept.ite (fun _ => ?_) (fun _ => ?_)
  · exact Kept.refl _
  · refine Kept.ite (fun _ => ?_) (fun _ => ?_)
    · exact emit_kept ..
    · refine Kept.ite (fun _ => ?_) (fun _ => ?_)
      · exact done_kept ..
      · refine Kept.ite (fun _ => ?_) (fun _ => ?_)
        · exact done_kept ..
        · exact takeTunnel_kept ..

end Sys2Proof.Machine
end

