-- ==== Sys2Proof/Laws/KeptNib.lean ====
section
/-!
SUPPORT. What every command but ALWAYS_ON_POWER_LOST keeps (`Kept`), operation by operation: the operations of a Nib core.
-/

namespace Sys2Proof.Machine

/-! ### Sys2Proof/Machine/Nib.lean -/

theorem execNop_kept (o) (s : State) : KeptO s (execNop o s) := by
  unfold execNop
  refine KeptO.next ?_
  exact nibIssue_kept ..

theorem execAdd_kept (o) (s : State) : KeptO s (execAdd o s) := by
  unfold execAdd
  refine KeptO.next ?_
  exact nibIssue_kept ..

theorem execAddc_kept (o) (s : State) : KeptO s (execAddc o s) := by
  unfold execAddc
  refine KeptO.next ?_
  exact nibIssue_kept ..

theorem execAdds_kept (o) (s : State) : KeptO s (execAdds o s) := by
  unfold execAdds
  refine KeptO.next ?_
  exact nibIssue_kept ..

theorem execSub_kept (o) (s : State) : KeptO s (execSub o s) := by
  unfold execSub
  refine KeptO.next ?_
  exact nibIssue_kept ..

theorem execSubb_kept (o) (s : State) : KeptO s (execSubb o s) := by
  unfold execSubb
  refine KeptO.next ?_
  exact nibIssue_kept ..

theorem execSubs_kept (o) (s : State) : KeptO s (execSubs o s) := by
  unfold execSubs
  refine KeptO.next ?_
  exact nibIssue_kept ..

theorem execNeg_kept (o) (s : State) : KeptO s (execNeg o s) := by
  unfold execNeg
  refine KeptO.next ?_
  exact nibIssue_kept ..

theorem execNegs_kept (o) (s : State) : KeptO s (execNegs o s) := by
  unfold execNegs
  refine KeptO.next ?_
  exact nibIssue_kept ..

theorem execAbs_kept (o) (s : State) : KeptO s (execAbs o s) := by
  unfold execAbs
  refine KeptO.next ?_
  exact nibIssue_kept ..

theorem execAbss_kept (o) (s : State) : KeptO s (execAbss o s) := by
  unfold execAbss
  refine KeptO.next ?_
  exact nibIssue_kept ..

theorem execCmp_kept (o) (s : State) : KeptO s (execCmp o s) := by
  unfold execCmp
  refine KeptO.next ?_
  exact nibIssue_kept ..

theorem execCmpc_kept (o) (s : State) : KeptO s (execCmpc o s) := by
  unfold execCmpc
  refine KeptO.next ?_
  exact nibIssue_kept ..

theorem execAndOp_kept (o) (s : State) : KeptO s (execAndOp o s) := by
  unfold execAndOp
  refine KeptO.next ?_
  exact nibIssue_kept ..

theorem execOrOp_kept (o) (s : State) : KeptO s (execOrOp o s) := by
  unfold execOrOp
  refine KeptO.next ?_
  exact nibIssue_kept ..

theorem execXor_kept (o) (s : State) : KeptO s (execXor o s) := by
  unfold execXor
  refine KeptO.next ?_
  exact nibIssue_kept ..

theorem execAndn_kept (o) (s : State) : KeptO s (execAndn o s) := by
  unfold execAndn
  refine KeptO.next ?_
  exact nibIssue_kept ..

theorem execNotOp_kept (o) (s : State) : KeptO s (execNotOp o s) := by
  unfold execNotOp
  refine KeptO.next ?_
  exact nibIssue_kept ..

theorem execMov_kept (o) (s : State) : KeptO s (execMov o s) := by
  unfold execMov
  refine KeptO.next ?_
  exact nibIssue_kept ..

theorem execMinOp_kept (o) (s : State) : KeptO s (execMinOp o s) := by
  unfold execMinOp
  refine KeptO.next ?_
  exact nibIssue_kept ..

theorem execMaxOp_kept (o) (s : State) : KeptO s (execMaxOp o s) := by
  unfold execMaxOp
  refine KeptO.next ?_
  exact nibIssue_kept ..

theorem execMinu_kept (o) (s : State) : KeptO s (execMinu o s) := by
  unfold execMinu
  refine KeptO.next ?_
  exact nibIssue_kept ..

theorem execMaxu_kept (o) (s : State) : KeptO s (execMaxu o s) := by
  unfold execMaxu
  refine KeptO.next ?_
  exact nibIssue_kept ..

theorem execSel_kept (o) (s : State) : KeptO s (execSel o s) := by
  unfold execSel
  refine KeptO.next ?_
  exact nibIssue_kept ..

theorem execSext8_kept (o) (s : State) : KeptO s (execSext8 o s) := by
  unfold execSext8
  refine KeptO.next ?_
  exact nibIssue_kept ..

theorem execZext8_kept (o) (s : State) : KeptO s (execZext8 o s) := by
  unfold execZext8
  refine KeptO.next ?_
  exact nibIssue_kept ..

theorem execClz_kept (o) (s : State) : KeptO s (execClz o s) := by
  unfold execClz
  refine KeptO.next ?_
  exact nibIssue_kept ..

theorem execPopc_kept (o) (s : State) : KeptO s (execPopc o s) := by
  unfold execPopc
  refine KeptO.next ?_
  exact nibIssue_kept ..

theorem execTst_kept (o) (s : State) : KeptO s (execTst o s) := by
  unfold execTst
  refine KeptO.next ?_
  exact nibIssue_kept ..

theorem execMovf_kept (o) (s : State) : KeptO s (execMovf o s) := by
  unfold execMovf
  refine KeptO.next ?_
  exact nibIssue_kept ..

theorem execMovt_kept (o) (s : State) : KeptO s (execMovt o s) := by
  unfold execMovt
  refine KeptO.next ?_
  exact nibIssue_kept ..

theorem execLdi_kept (o) (s : State) : KeptO s (execLdi o s) := by
  unfold execLdi
  refine KeptO.next ?_
  exact nibIssue_kept ..

theorem execMul_kept (o) (s : State) : KeptO s (execMul o s) := by
  unfold execMul
  refine KeptO.next ?_
  exact nibIssue_kept ..

theorem execMull_kept (o) (s : State) : KeptO s (execMull o s) := by
  unfold execMull
  refine KeptO.next ?_
  exact nibIssue_kept ..

theorem execMullu_kept (o) (s : State) : KeptO s (execMullu o s) := by
  unfold execMullu
  refine KeptO.next ?_
  exact nibIssue_kept ..

theorem execMulq_kept (o) (s : State) : KeptO s (execMulq o s) := by
  unfold execMulq
  refine KeptO.next ?_
  exact nibIssue_kept ..

theorem execMulqr_kept (o) (s : State) : KeptO s (execMulqr o s) := by
  unfold execMulqr
  refine KeptO.next ?_
  exact nibIssue_kept ..

theorem execMac_kept (o) (s : State) : KeptO s (execMac o s) := by
  unfold execMac
  refine KeptO.next ?_
  exact nibIssue_kept ..

theorem execMacs_kept (o) (s : State) : KeptO s (execMacs o s) := by
  unfold execMacs
  refine KeptO.next ?_
  exact nibIssue_kept ..

theorem execShl_kept (o) (s : State) : KeptO s (execShl o s) := by
  unfold execShl
  refine KeptO.next ?_
  exact nibIssue_kept ..

theorem execShr_kept (o) (s : State) : KeptO s (execShr o s) := by
  unfold execShr
  refine KeptO.next ?_
  exact nibIssue_kept ..

theorem execSar_kept (o) (s : State) : KeptO s (execSar o s) := by
  unfold execSar
  refine KeptO.next ?_
  exact nibIssue_kept ..

theorem execAsl_kept (o) (s : State) : KeptO s (execAsl o s) := by
  unfold execAsl
  refine KeptO.next ?_
  exact nibIssue_kept ..

theorem execRol_kept (o) (s : State) : KeptO s (execRol o s) := by
  unfold execRol
  refine KeptO.next ?_
  exact nibIssue_kept ..

theorem execRor_kept (o) (s : State) : KeptO s (execRor o s) := by
  unfold execRor
  refine KeptO.next ?_
  exact nibIssue_kept ..

theorem execDivs_kept (o) (s : State) : KeptO s (execDivs o s) := by
  unfold execDivs
  refine KeptO.next ?_
  exact nibIssue_kept ..

theorem execDivu_kept (o) (s : State) : KeptO s (execDivu o s) := by
  unfold execDivu
  refine KeptO.next ?_
  exact nibIssue_kept ..

theorem execShl32_kept (o) (s : State) : KeptO s (execShl32 o s) := by
  unfold execShl32
  refine KeptO.next ?_
  exact nibIssue_kept ..

theorem execShr32_kept (o) (s : State) : KeptO s (execShr32 o s) := by
  unfold execShr32
  refine KeptO.next ?_
  exact nibIssue_kept ..

theorem execSar32_kept (o) (s : State) : KeptO s (execSar32 o s) := by
  unfold execSar32
  refine KeptO.next ?_
  exact nibIssue_kept ..

theorem execExtu_kept (o) (s : State) : KeptO s (execExtu o s) := by
  unfold execExtu
  refine KeptO.next ?_
  exact nibIssue_kept ..

theorem execExts_kept (o) (s : State) : KeptO s (execExts o s) := by
  unfold execExts
  refine KeptO.next ?_
  exact nibIssue_kept ..

theorem execLd_kept (o) (s : State) : KeptO s (execLd o s) := by
  unfold execLd
  refine KeptO.next ?_
  exact nibIssue_kept ..

theorem execSt_kept (o) (s : State) : KeptO s (execSt o s) := by
  unfold execSt
  refine KeptO.next ?_
  exact nibIssue_kept ..

theorem execLdpi_kept (o) (s : State) : KeptO s (execLdpi o s) := by
  unfold execLdpi
  refine KeptO.next ?_
  exact nibIssue_kept ..

theorem execStpi_kept (o) (s : State) : KeptO s (execStpi o s) := by
  unfold execStpi
  refine KeptO.next ?_
  exact nibIssue_kept ..

theorem execLds_kept (o) (s : State) : KeptO s (execLds o s) := by
  unfold execLds
  refine KeptO.next ?_
  exact nibIssue_kept ..

theorem execSts_kept (o) (s : State) : KeptO s (execSts o s) := by
  unfold execSts
  refine KeptO.next ?_
  exact nibIssue_kept ..

theorem execLdp_kept (o) (s : State) : KeptO s (execLdp o s) := by
  unfold execLdp
  refine KeptO.next ?_
  exact nibIssue_kept ..

theorem execStp_kept (o) (s : State) : KeptO s (execStp o s) := by
  unfold execStp
  refine KeptO.next ?_
  exact nibIssue_kept ..

theorem execBranch_kept (o) (s : State) : KeptO s (execBranch o s) := by
  unfold execBranch
  refine KeptO.next ?_
  exact nibIssue_kept ..

theorem execCall_kept (o) (s : State) : KeptO s (execCall o s) := by
  unfold execCall
  refine KeptO.next ?_
  exact nibIssue_kept ..

theorem execCallx_kept (o) (s : State) : KeptO s (execCallx o s) := by
  unfold execCallx
  refine KeptO.next ?_
  exact nibIssue_kept ..

theorem execJmpx_kept (o) (s : State) : KeptO s (execJmpx o s) := by
  unfold execJmpx
  refine KeptO.next ?_
  exact nibIssue_kept ..

theorem execRet_kept (o) (s : State) : KeptO s (execRet o s) := by
  unfold execRet
  refine KeptO.next ?_
  exact nibIssue_kept ..

theorem execRett_kept (o) (s : State) : KeptO s (execRett o s) := by
  unfold execRett
  refine KeptO.next ?_
  exact nibIssue_kept ..

theorem execRepi_kept (o) (s : State) : KeptO s (execRepi o s) := by
  unfold execRepi
  refine KeptO.next ?_
  exact nibIssue_kept ..

theorem execRepn_kept (o) (s : State) : KeptO s (execRepn o s) := by
  unfold execRepn
  refine KeptO.next ?_
  exact nibIssue_kept ..

theorem execTrap_kept (o) (s : State) : KeptO s (execTrap o s) := by
  unfold execTrap
  refine KeptO.next ?_
  exact nibIssue_kept ..

theorem execMfc_kept (o) (s : State) : KeptO s (execMfc o s) := by
  unfold execMfc
  refine KeptO.next ?_
  exact nibIssue_kept ..

theorem execMtc_kept (o) (s : State) : KeptO s (execMtc o s) := by
  unfold execMtc
  refine KeptO.next ?_
  exact nibIssue_kept ..

theorem execHaltOp_kept (o) (s : State) : KeptO s (execHaltOp o s) := by
  unfold execHaltOp
  refine KeptO.next ?_
  exact nibIssue_kept ..

theorem execWait_kept (o) (s : State) : KeptO s (execWait o s) := by
  unfold execWait
  refine KeptO.next ?_
  exact nibIssue_kept ..

theorem execBar_kept (o) (s : State) : KeptO s (execBar o s) := by
  unfold execBar
  refine KeptO.next ?_
  exact nibIssue_kept ..

end Sys2Proof.Machine
end

