-- ==== Sys2Proof/Laws/State.lean ====
section
/-!
SUPPORT. The shared updates of State, field by field: what each leaves as it was. True by computation and tagged for the
simplifier, so that no later proof unfolds a record update.
-/

namespace Sys2Proof.Machine

variable (s : State)

/-! ### emit -/

@[simp] theorem emit_regs (o : Out) : (emit o s).regs = s.regs := rfl
@[simp] theorem emit_latch (o : Out) : (emit o s).latch = s.latch := rfl
@[simp] theorem emit_heldWrites (o : Out) : (emit o s).heldWrites = s.heldWrites := rfl
@[simp] theorem emit_qos (o : Out) : (emit o s).qos = s.qos := rfl
@[simp] theorem emit_mode (o : Out) : (emit o s).mode = s.mode := rfl
@[simp] theorem emit_time (o : Out) : (emit o s).time = s.time := rfl
@[simp] theorem emit_stats (o : Out) : (emit o s).stats = s.stats := rfl
@[simp] theorem emit_chain (o : Out) : (emit o s).chain = s.chain := rfl
@[simp] theorem emit_fns (o : Out) : (emit o s).fns = s.fns := rfl
@[simp] theorem emit_numVfs (o : Out) : (emit o s).numVfs = s.numVfs := rfl
@[simp] theorem emit_cmds (o : Out) : (emit o s).cmds = s.cmds := rfl
@[simp] theorem emit_orderNext (o : Out) : (emit o s).orderNext = s.orderNext := rfl
@[simp] theorem emit_trans (o : Out) : (emit o s).trans = s.trans := rfl
@[simp] theorem emit_nss (o : Out) : (emit o s).nss = s.nss := rfl
@[simp] theorem emit_ftl (o : Out) : (emit o s).ftl = s.ftl := rfl
@[simp] theorem emit_ing (o : Out) : (emit o s).ing = s.ing := rfl
@[simp] theorem emit_mon (o : Out) : (emit o s).mon = s.mon := rfl
@[simp] theorem emit_oxv (o : Out) : (emit o s).oxv = s.oxv := rfl
@[simp] theorem emit_ink (o : Out) : (emit o s).ink = s.ink := rfl
@[simp] theorem emit_fw (o : Out) : (emit o s).fw = s.fw := rfl
@[simp] theorem emit_duct (o : Out) : (emit o s).duct = s.duct := rfl
@[simp] theorem emit_crypt (o : Out) : (emit o s).crypt = s.crypt := rfl
@[simp] theorem emit_sieve (o : Out) : (emit o s).sieve = s.sieve := rfl
@[simp] theorem emit_dram (o : Out) : (emit o s).dram = s.dram := rfl
@[simp] theorem emit_exports (o : Out) : (emit o s).exports = s.exports := rfl
@[simp] theorem emit_late (o : Out) : (emit o s).late = s.late := rfl
@[simp] theorem emit_spill (o : Out) : (emit o s).spill = s.spill := rfl
@[simp] theorem emit_freeCount (o : Out) : (emit o s).freeCount = s.freeCount := rfl
@[simp] theorem emit_pending (o : Out) : (emit o s).pending = s.pending := rfl

/-! ### setReg -/

@[simp] theorem setReg_latch (o v : Nat) : (setReg o v s).latch = s.latch := rfl
@[simp] theorem setReg_heldWrites (o v : Nat) : (setReg o v s).heldWrites = s.heldWrites := rfl
@[simp] theorem setReg_qos (o v : Nat) : (setReg o v s).qos = s.qos := rfl
@[simp] theorem setReg_mode (o v : Nat) : (setReg o v s).mode = s.mode := rfl
@[simp] theorem setReg_time (o v : Nat) : (setReg o v s).time = s.time := rfl
@[simp] theorem setReg_stats (o v : Nat) : (setReg o v s).stats = s.stats := rfl
@[simp] theorem setReg_chain (o v : Nat) : (setReg o v s).chain = s.chain := rfl
@[simp] theorem setReg_fns (o v : Nat) : (setReg o v s).fns = s.fns := rfl
@[simp] theorem setReg_numVfs (o v : Nat) : (setReg o v s).numVfs = s.numVfs := rfl
@[simp] theorem setReg_cmds (o v : Nat) : (setReg o v s).cmds = s.cmds := rfl
@[simp] theorem setReg_orderNext (o v : Nat) : (setReg o v s).orderNext = s.orderNext := rfl
@[simp] theorem setReg_trans (o v : Nat) : (setReg o v s).trans = s.trans := rfl
@[simp] theorem setReg_nss (o v : Nat) : (setReg o v s).nss = s.nss := rfl
@[simp] theorem setReg_ftl (o v : Nat) : (setReg o v s).ftl = s.ftl := rfl
@[simp] theorem setReg_ing (o v : Nat) : (setReg o v s).ing = s.ing := rfl
@[simp] theorem setReg_mon (o v : Nat) : (setReg o v s).mon = s.mon := rfl
@[simp] theorem setReg_oxv (o v : Nat) : (setReg o v s).oxv = s.oxv := rfl
@[simp] theorem setReg_ink (o v : Nat) : (setReg o v s).ink = s.ink := rfl
@[simp] theorem setReg_fw (o v : Nat) : (setReg o v s).fw = s.fw := rfl
@[simp] theorem setReg_duct (o v : Nat) : (setReg o v s).duct = s.duct := rfl
@[simp] theorem setReg_crypt (o v : Nat) : (setReg o v s).crypt = s.crypt := rfl
@[simp] theorem setReg_sieve (o v : Nat) : (setReg o v s).sieve = s.sieve := rfl
@[simp] theorem setReg_dram (o v : Nat) : (setReg o v s).dram = s.dram := rfl
@[simp] theorem setReg_exports (o v : Nat) : (setReg o v s).exports = s.exports := rfl
@[simp] theorem setReg_late (o v : Nat) : (setReg o v s).late = s.late := rfl
@[simp] theorem setReg_spill (o v : Nat) : (setReg o v s).spill = s.spill := rfl
@[simp] theorem setReg_out (o v : Nat) : (setReg o v s).out = s.out := rfl
@[simp] theorem setReg_freeCount (o v : Nat) : (setReg o v s).freeCount = s.freeCount := rfl
@[simp] theorem setReg_pending (o v : Nat) : (setReg o v s).pending = s.pending := rfl

/-! ### setF -/

@[simp] theorem setF_latch (f : Fld) (v : Nat) : (setF f v s).latch = s.latch := rfl
@[simp] theorem setF_heldWrites (f : Fld) (v : Nat) : (setF f v s).heldWrites = s.heldWrites := rfl
@[simp] theorem setF_qos (f : Fld) (v : Nat) : (setF f v s).qos = s.qos := rfl
@[simp] theorem setF_mode (f : Fld) (v : Nat) : (setF f v s).mode = s.mode := rfl
@[simp] theorem setF_time (f : Fld) (v : Nat) : (setF f v s).time = s.time := rfl
@[simp] theorem setF_stats (f : Fld) (v : Nat) : (setF f v s).stats = s.stats := rfl
@[simp] theorem setF_chain (f : Fld) (v : Nat) : (setF f v s).chain = s.chain := rfl
@[simp] theorem setF_fns (f : Fld) (v : Nat) : (setF f v s).fns = s.fns := rfl
@[simp] theorem setF_numVfs (f : Fld) (v : Nat) : (setF f v s).numVfs = s.numVfs := rfl
@[simp] theorem setF_cmds (f : Fld) (v : Nat) : (setF f v s).cmds = s.cmds := rfl
@[simp] theorem setF_orderNext (f : Fld) (v : Nat) : (setF f v s).orderNext = s.orderNext := rfl
@[simp] theorem setF_trans (f : Fld) (v : Nat) : (setF f v s).trans = s.trans := rfl
@[simp] theorem setF_nss (f : Fld) (v : Nat) : (setF f v s).nss = s.nss := rfl
@[simp] theorem setF_ftl (f : Fld) (v : Nat) : (setF f v s).ftl = s.ftl := rfl
@[simp] theorem setF_ing (f : Fld) (v : Nat) : (setF f v s).ing = s.ing := rfl
@[simp] theorem setF_mon (f : Fld) (v : Nat) : (setF f v s).mon = s.mon := rfl
@[simp] theorem setF_oxv (f : Fld) (v : Nat) : (setF f v s).oxv = s.oxv := rfl
@[simp] theorem setF_ink (f : Fld) (v : Nat) : (setF f v s).ink = s.ink := rfl
@[simp] theorem setF_fw (f : Fld) (v : Nat) : (setF f v s).fw = s.fw := rfl
@[simp] theorem setF_duct (f : Fld) (v : Nat) : (setF f v s).duct = s.duct := rfl
@[simp] theorem setF_crypt (f : Fld) (v : Nat) : (setF f v s).crypt = s.crypt := rfl
@[simp] theorem setF_sieve (f : Fld) (v : Nat) : (setF f v s).sieve = s.sieve := rfl
@[simp] theorem setF_dram (f : Fld) (v : Nat) : (setF f v s).dram = s.dram := rfl
@[simp] theorem setF_exports (f : Fld) (v : Nat) : (setF f v s).exports = s.exports := rfl
@[simp] theorem setF_late (f : Fld) (v : Nat) : (setF f v s).late = s.late := rfl
@[simp] theorem setF_spill (f : Fld) (v : Nat) : (setF f v s).spill = s.spill := rfl
@[simp] theorem setF_out (f : Fld) (v : Nat) : (setF f v s).out = s.out := rfl
@[simp] theorem setF_freeCount (f : Fld) (v : Nat) : (setF f v s).freeCount = s.freeCount := rfl
@[simp] theorem setF_pending (f : Fld) (v : Nat) : (setF f v s).pending = s.pending := rfl

/-! ### incF -/

@[simp] theorem incF_latch (f : Fld) (n : Nat) : (incF f n s).latch = s.latch := rfl
@[simp] theorem incF_heldWrites (f : Fld) (n : Nat) : (incF f n s).heldWrites = s.heldWrites := rfl
@[simp] theorem incF_qos (f : Fld) (n : Nat) : (incF f n s).qos = s.qos := rfl
@[simp] theorem incF_mode (f : Fld) (n : Nat) : (incF f n s).mode = s.mode := rfl
@[simp] theorem incF_time (f : Fld) (n : Nat) : (incF f n s).time = s.time := rfl
@[simp] theorem incF_stats (f : Fld) (n : Nat) : (incF f n s).stats = s.stats := rfl
@[simp] theorem incF_chain (f : Fld) (n : Nat) : (incF f n s).chain = s.chain := rfl
@[simp] theorem incF_fns (f : Fld) (n : Nat) : (incF f n s).fns = s.fns := rfl
@[simp] theorem incF_numVfs (f : Fld) (n : Nat) : (incF f n s).numVfs = s.numVfs := rfl
@[simp] theorem incF_cmds (f : Fld) (n : Nat) : (incF f n s).cmds = s.cmds := rfl
@[simp] theorem incF_orderNext (f : Fld) (n : Nat) : (incF f n s).orderNext = s.orderNext := rfl
@[simp] theorem incF_trans (f : Fld) (n : Nat) : (incF f n s).trans = s.trans := rfl
@[simp] theorem incF_nss (f : Fld) (n : Nat) : (incF f n s).nss = s.nss := rfl
@[simp] theorem incF_ftl (f : Fld) (n : Nat) : (incF f n s).ftl = s.ftl := rfl
@[simp] theorem incF_ing (f : Fld) (n : Nat) : (incF f n s).ing = s.ing := rfl
@[simp] theorem incF_mon (f : Fld) (n : Nat) : (incF f n s).mon = s.mon := rfl
@[simp] theorem incF_oxv (f : Fld) (n : Nat) : (incF f n s).oxv = s.oxv := rfl
@[simp] theorem incF_ink (f : Fld) (n : Nat) : (incF f n s).ink = s.ink := rfl
@[simp] theorem incF_fw (f : Fld) (n : Nat) : (incF f n s).fw = s.fw := rfl
@[simp] theorem incF_duct (f : Fld) (n : Nat) : (incF f n s).duct = s.duct := rfl
@[simp] theorem incF_crypt (f : Fld) (n : Nat) : (incF f n s).crypt = s.crypt := rfl
@[simp] theorem incF_sieve (f : Fld) (n : Nat) : (incF f n s).sieve = s.sieve := rfl
@[simp] theorem incF_dram (f : Fld) (n : Nat) : (incF f n s).dram = s.dram := rfl
@[simp] theorem incF_exports (f : Fld) (n : Nat) : (incF f n s).exports = s.exports := rfl
@[simp] theorem incF_late (f : Fld) (n : Nat) : (incF f n s).late = s.late := rfl
@[simp] theorem incF_spill (f : Fld) (n : Nat) : (incF f n s).spill = s.spill := rfl
@[simp] theorem incF_out (f : Fld) (n : Nat) : (incF f n s).out = s.out := rfl
@[simp] theorem incF_freeCount (f : Fld) (n : Nat) : (incF f n s).freeCount = s.freeCount := rfl
@[simp] theorem incF_pending (f : Fld) (n : Nat) : (incF f n s).pending = s.pending := rfl

/-! ### cfgErr -/

@[simp] theorem cfgErr_latch (off : Nat) : (cfgErr off s).latch = s.latch := rfl
@[simp] theorem cfgErr_heldWrites (off : Nat) : (cfgErr off s).heldWrites = s.heldWrites := rfl
@[simp] theorem cfgErr_qos (off : Nat) : (cfgErr off s).qos = s.qos := rfl
@[simp] theorem cfgErr_mode (off : Nat) : (cfgErr off s).mode = s.mode := rfl
@[simp] theorem cfgErr_time (off : Nat) : (cfgErr off s).time = s.time := rfl
@[simp] theorem cfgErr_stats (off : Nat) : (cfgErr off s).stats = s.stats := rfl
@[simp] theorem cfgErr_chain (off : Nat) : (cfgErr off s).chain = s.chain := rfl
@[simp] theorem cfgErr_fns (off : Nat) : (cfgErr off s).fns = s.fns := rfl
@[simp] theorem cfgErr_numVfs (off : Nat) : (cfgErr off s).numVfs = s.numVfs := rfl
@[simp] theorem cfgErr_cmds (off : Nat) : (cfgErr off s).cmds = s.cmds := rfl
@[simp] theorem cfgErr_orderNext (off : Nat) : (cfgErr off s).orderNext = s.orderNext := rfl
@[simp] theorem cfgErr_trans (off : Nat) : (cfgErr off s).trans = s.trans := rfl
@[simp] theorem cfgErr_nss (off : Nat) : (cfgErr off s).nss = s.nss := rfl
@[simp] theorem cfgErr_ftl (off : Nat) : (cfgErr off s).ftl = s.ftl := rfl
@[simp] theorem cfgErr_ing (off : Nat) : (cfgErr off s).ing = s.ing := rfl
@[simp] theorem cfgErr_mon (off : Nat) : (cfgErr off s).mon = s.mon := rfl
@[simp] theorem cfgErr_oxv (off : Nat) : (cfgErr off s).oxv = s.oxv := rfl
@[simp] theorem cfgErr_ink (off : Nat) : (cfgErr off s).ink = s.ink := rfl
@[simp] theorem cfgErr_fw (off : Nat) : (cfgErr off s).fw = s.fw := rfl
@[simp] theorem cfgErr_duct (off : Nat) : (cfgErr off s).duct = s.duct := rfl
@[simp] theorem cfgErr_crypt (off : Nat) : (cfgErr off s).crypt = s.crypt := rfl
@[simp] theorem cfgErr_sieve (off : Nat) : (cfgErr off s).sieve = s.sieve := rfl
@[simp] theorem cfgErr_dram (off : Nat) : (cfgErr off s).dram = s.dram := rfl
@[simp] theorem cfgErr_exports (off : Nat) : (cfgErr off s).exports = s.exports := rfl
@[simp] theorem cfgErr_late (off : Nat) : (cfgErr off s).late = s.late := rfl
@[simp] theorem cfgErr_spill (off : Nat) : (cfgErr off s).spill = s.spill := rfl
@[simp] theorem cfgErr_out (off : Nat) : (cfgErr off s).out = s.out := rfl
@[simp] theorem cfgErr_freeCount (off : Nat) : (cfgErr off s).freeCount = s.freeCount := rfl
@[simp] theorem cfgErr_pending (off : Nat) : (cfgErr off s).pending = s.pending := rfl

/-! ### setFn -/

@[simp] theorem setFn_regs (f : Nat) (x : Fn) : (setFn f x s).regs = s.regs := rfl
@[simp] theorem setFn_latch (f : Nat) (x : Fn) : (setFn f x s).latch = s.latch := rfl
@[simp] theorem setFn_heldWrites (f : Nat) (x : Fn) : (setFn f x s).heldWrites = s.heldWrites := rfl
@[simp] theorem setFn_qos (f : Nat) (x : Fn) : (setFn f x s).qos = s.qos := rfl
@[simp] theorem setFn_mode (f : Nat) (x : Fn) : (setFn f x s).mode = s.mode := rfl
@[simp] theorem setFn_time (f : Nat) (x : Fn) : (setFn f x s).time = s.time := rfl
@[simp] theorem setFn_stats (f : Nat) (x : Fn) : (setFn f x s).stats = s.stats := rfl
@[simp] theorem setFn_chain (f : Nat) (x : Fn) : (setFn f x s).chain = s.chain := rfl
@[simp] theorem setFn_numVfs (f : Nat) (x : Fn) : (setFn f x s).numVfs = s.numVfs := rfl
@[simp] theorem setFn_cmds (f : Nat) (x : Fn) : (setFn f x s).cmds = s.cmds := rfl
@[simp] theorem setFn_orderNext (f : Nat) (x : Fn) : (setFn f x s).orderNext = s.orderNext := rfl
@[simp] theorem setFn_trans (f : Nat) (x : Fn) : (setFn f x s).trans = s.trans := rfl
@[simp] theorem setFn_nss (f : Nat) (x : Fn) : (setFn f x s).nss = s.nss := rfl
@[simp] theorem setFn_ftl (f : Nat) (x : Fn) : (setFn f x s).ftl = s.ftl := rfl
@[simp] theorem setFn_ing (f : Nat) (x : Fn) : (setFn f x s).ing = s.ing := rfl
@[simp] theorem setFn_mon (f : Nat) (x : Fn) : (setFn f x s).mon = s.mon := rfl
@[simp] theorem setFn_oxv (f : Nat) (x : Fn) : (setFn f x s).oxv = s.oxv := rfl
@[simp] theorem setFn_ink (f : Nat) (x : Fn) : (setFn f x s).ink = s.ink := rfl
@[simp] theorem setFn_fw (f : Nat) (x : Fn) : (setFn f x s).fw = s.fw := rfl
@[simp] theorem setFn_duct (f : Nat) (x : Fn) : (setFn f x s).duct = s.duct := rfl
@[simp] theorem setFn_crypt (f : Nat) (x : Fn) : (setFn f x s).crypt = s.crypt := rfl
@[simp] theorem setFn_sieve (f : Nat) (x : Fn) : (setFn f x s).sieve = s.sieve := rfl
@[simp] theorem setFn_dram (f : Nat) (x : Fn) : (setFn f x s).dram = s.dram := rfl
@[simp] theorem setFn_exports (f : Nat) (x : Fn) : (setFn f x s).exports = s.exports := rfl
@[simp] theorem setFn_late (f : Nat) (x : Fn) : (setFn f x s).late = s.late := rfl
@[simp] theorem setFn_spill (f : Nat) (x : Fn) : (setFn f x s).spill = s.spill := rfl
@[simp] theorem setFn_out (f : Nat) (x : Fn) : (setFn f x s).out = s.out := rfl
@[simp] theorem setFn_freeCount (f : Nat) (x : Fn) : (setFn f x s).freeCount = s.freeCount := rfl
@[simp] theorem setFn_pending (f : Nat) (x : Fn) : (setFn f x s).pending = s.pending := rfl

/-! ### updFn -/

@[simp] theorem updFn_regs (f : Nat) (g : Fn → Fn) : (updFn f g s).regs = s.regs := rfl
@[simp] theorem updFn_latch (f : Nat) (g : Fn → Fn) : (updFn f g s).latch = s.latch := rfl
@[simp] theorem updFn_heldWrites (f : Nat) (g : Fn → Fn) : (updFn f g s).heldWrites = s.heldWrites := rfl
@[simp] theorem updFn_qos (f : Nat) (g : Fn → Fn) : (updFn f g s).qos = s.qos := rfl
@[simp] theorem updFn_mode (f : Nat) (g : Fn → Fn) : (updFn f g s).mode = s.mode := rfl
@[simp] theorem updFn_time (f : Nat) (g : Fn → Fn) : (updFn f g s).time = s.time := rfl
@[simp] theorem updFn_stats (f : Nat) (g : Fn → Fn) : (updFn f g s).stats = s.stats := rfl
@[simp] theorem updFn_chain (f : Nat) (g : Fn → Fn) : (updFn f g s).chain = s.chain := rfl
@[simp] theorem updFn_numVfs (f : Nat) (g : Fn → Fn) : (updFn f g s).numVfs = s.numVfs := rfl
@[simp] theorem updFn_cmds (f : Nat) (g : Fn → Fn) : (updFn f g s).cmds = s.cmds := rfl
@[simp] theorem updFn_orderNext (f : Nat) (g : Fn → Fn) : (updFn f g s).orderNext = s.orderNext := rfl
@[simp] theorem updFn_trans (f : Nat) (g : Fn → Fn) : (updFn f g s).trans = s.trans := rfl
@[simp] theorem updFn_nss (f : Nat) (g : Fn → Fn) : (updFn f g s).nss = s.nss := rfl
@[simp] theorem updFn_ftl (f : Nat) (g : Fn → Fn) : (updFn f g s).ftl = s.ftl := rfl
@[simp] theorem updFn_ing (f : Nat) (g : Fn → Fn) : (updFn f g s).ing = s.ing := rfl
@[simp] theorem updFn_mon (f : Nat) (g : Fn → Fn) : (updFn f g s).mon = s.mon := rfl
@[simp] theorem updFn_oxv (f : Nat) (g : Fn → Fn) : (updFn f g s).oxv = s.oxv := rfl
@[simp] theorem updFn_ink (f : Nat) (g : Fn → Fn) : (updFn f g s).ink = s.ink := rfl
@[simp] theorem updFn_fw (f : Nat) (g : Fn → Fn) : (updFn f g s).fw = s.fw := rfl
@[simp] theorem updFn_duct (f : Nat) (g : Fn → Fn) : (updFn f g s).duct = s.duct := rfl
@[simp] theorem updFn_crypt (f : Nat) (g : Fn → Fn) : (updFn f g s).crypt = s.crypt := rfl
@[simp] theorem updFn_sieve (f : Nat) (g : Fn → Fn) : (updFn f g s).sieve = s.sieve := rfl
@[simp] theorem updFn_dram (f : Nat) (g : Fn → Fn) : (updFn f g s).dram = s.dram := rfl
@[simp] theorem updFn_exports (f : Nat) (g : Fn → Fn) : (updFn f g s).exports = s.exports := rfl
@[simp] theorem updFn_late (f : Nat) (g : Fn → Fn) : (updFn f g s).late = s.late := rfl
@[simp] theorem updFn_spill (f : Nat) (g : Fn → Fn) : (updFn f g s).spill = s.spill := rfl
@[simp] theorem updFn_out (f : Nat) (g : Fn → Fn) : (updFn f g s).out = s.out := rfl
@[simp] theorem updFn_freeCount (f : Nat) (g : Fn → Fn) : (updFn f g s).freeCount = s.freeCount := rfl
@[simp] theorem updFn_pending (f : Nat) (g : Fn → Fn) : (updFn f g s).pending = s.pending := rfl

/-! ### updVec -/

@[simp] theorem updVec_regs (f v : Nat) (g : Vec → Vec) : (updVec f v g s).regs = s.regs := rfl
@[simp] theorem updVec_latch (f v : Nat) (g : Vec → Vec) : (updVec f v g s).latch = s.latch := rfl
@[simp] theorem updVec_heldWrites (f v : Nat) (g : Vec → Vec) : (updVec f v g s).heldWrites = s.heldWrites := rfl
@[simp] theorem updVec_qos (f v : Nat) (g : Vec → Vec) : (updVec f v g s).qos = s.qos := rfl
@[simp] theorem updVec_mode (f v : Nat) (g : Vec → Vec) : (updVec f v g s).mode = s.mode := rfl
@[simp] theorem updVec_time (f v : Nat) (g : Vec → Vec) : (updVec f v g s).time = s.time := rfl
@[simp] theorem updVec_stats (f v : Nat) (g : Vec → Vec) : (updVec f v g s).stats = s.stats := rfl
@[simp] theorem updVec_chain (f v : Nat) (g : Vec → Vec) : (updVec f v g s).chain = s.chain := rfl
@[simp] theorem updVec_numVfs (f v : Nat) (g : Vec → Vec) : (updVec f v g s).numVfs = s.numVfs := rfl
@[simp] theorem updVec_cmds (f v : Nat) (g : Vec → Vec) : (updVec f v g s).cmds = s.cmds := rfl
@[simp] theorem updVec_orderNext (f v : Nat) (g : Vec → Vec) : (updVec f v g s).orderNext = s.orderNext := rfl
@[simp] theorem updVec_trans (f v : Nat) (g : Vec → Vec) : (updVec f v g s).trans = s.trans := rfl
@[simp] theorem updVec_nss (f v : Nat) (g : Vec → Vec) : (updVec f v g s).nss = s.nss := rfl
@[simp] theorem updVec_ftl (f v : Nat) (g : Vec → Vec) : (updVec f v g s).ftl = s.ftl := rfl
@[simp] theorem updVec_ing (f v : Nat) (g : Vec → Vec) : (updVec f v g s).ing = s.ing := rfl
@[simp] theorem updVec_mon (f v : Nat) (g : Vec → Vec) : (updVec f v g s).mon = s.mon := rfl
@[simp] theorem updVec_oxv (f v : Nat) (g : Vec → Vec) : (updVec f v g s).oxv = s.oxv := rfl
@[simp] theorem updVec_ink (f v : Nat) (g : Vec → Vec) : (updVec f v g s).ink = s.ink := rfl
@[simp] theorem updVec_fw (f v : Nat) (g : Vec → Vec) : (updVec f v g s).fw = s.fw := rfl
@[simp] theorem updVec_duct (f v : Nat) (g : Vec → Vec) : (updVec f v g s).duct = s.duct := rfl
@[simp] theorem updVec_crypt (f v : Nat) (g : Vec → Vec) : (updVec f v g s).crypt = s.crypt := rfl
@[simp] theorem updVec_sieve (f v : Nat) (g : Vec → Vec) : (updVec f v g s).sieve = s.sieve := rfl
@[simp] theorem updVec_dram (f v : Nat) (g : Vec → Vec) : (updVec f v g s).dram = s.dram := rfl
@[simp] theorem updVec_exports (f v : Nat) (g : Vec → Vec) : (updVec f v g s).exports = s.exports := rfl
@[simp] theorem updVec_late (f v : Nat) (g : Vec → Vec) : (updVec f v g s).late = s.late := rfl
@[simp] theorem updVec_spill (f v : Nat) (g : Vec → Vec) : (updVec f v g s).spill = s.spill := rfl
@[simp] theorem updVec_out (f v : Nat) (g : Vec → Vec) : (updVec f v g s).out = s.out := rfl
@[simp] theorem updVec_freeCount (f v : Nat) (g : Vec → Vec) : (updVec f v g s).freeCount = s.freeCount := rfl
@[simp] theorem updVec_pending (f v : Nat) (g : Vec → Vec) : (updVec f v g s).pending = s.pending := rfl

/-! ### updLink -/

@[simp] theorem updLink_regs (l : Nat) (g : OxvLink → OxvLink) : (updLink l g s).regs = s.regs := rfl
@[simp] theorem updLink_latch (l : Nat) (g : OxvLink → OxvLink) : (updLink l g s).latch = s.latch := rfl
@[simp] theorem updLink_heldWrites (l : Nat) (g : OxvLink → OxvLink) : (updLink l g s).heldWrites = s.heldWrites := rfl
@[simp] theorem updLink_qos (l : Nat) (g : OxvLink → OxvLink) : (updLink l g s).qos = s.qos := rfl
@[simp] theorem updLink_mode (l : Nat) (g : OxvLink → OxvLink) : (updLink l g s).mode = s.mode := rfl
@[simp] theorem updLink_time (l : Nat) (g : OxvLink → OxvLink) : (updLink l g s).time = s.time := rfl
@[simp] theorem updLink_stats (l : Nat) (g : OxvLink → OxvLink) : (updLink l g s).stats = s.stats := rfl
@[simp] theorem updLink_chain (l : Nat) (g : OxvLink → OxvLink) : (updLink l g s).chain = s.chain := rfl
@[simp] theorem updLink_fns (l : Nat) (g : OxvLink → OxvLink) : (updLink l g s).fns = s.fns := rfl
@[simp] theorem updLink_numVfs (l : Nat) (g : OxvLink → OxvLink) : (updLink l g s).numVfs = s.numVfs := rfl
@[simp] theorem updLink_cmds (l : Nat) (g : OxvLink → OxvLink) : (updLink l g s).cmds = s.cmds := rfl
@[simp] theorem updLink_orderNext (l : Nat) (g : OxvLink → OxvLink) : (updLink l g s).orderNext = s.orderNext := rfl
@[simp] theorem updLink_trans (l : Nat) (g : OxvLink → OxvLink) : (updLink l g s).trans = s.trans := rfl
@[simp] theorem updLink_nss (l : Nat) (g : OxvLink → OxvLink) : (updLink l g s).nss = s.nss := rfl
@[simp] theorem updLink_ftl (l : Nat) (g : OxvLink → OxvLink) : (updLink l g s).ftl = s.ftl := rfl
@[simp] theorem updLink_ing (l : Nat) (g : OxvLink → OxvLink) : (updLink l g s).ing = s.ing := rfl
@[simp] theorem updLink_mon (l : Nat) (g : OxvLink → OxvLink) : (updLink l g s).mon = s.mon := rfl
@[simp] theorem updLink_ink (l : Nat) (g : OxvLink → OxvLink) : (updLink l g s).ink = s.ink := rfl
@[simp] theorem updLink_fw (l : Nat) (g : OxvLink → OxvLink) : (updLink l g s).fw = s.fw := rfl
@[simp] theorem updLink_duct (l : Nat) (g : OxvLink → OxvLink) : (updLink l g s).duct = s.duct := rfl
@[simp] theorem updLink_crypt (l : Nat) (g : OxvLink → OxvLink) : (updLink l g s).crypt = s.crypt := rfl
@[simp] theorem updLink_sieve (l : Nat) (g : OxvLink → OxvLink) : (updLink l g s).sieve = s.sieve := rfl
@[simp] theorem updLink_dram (l : Nat) (g : OxvLink → OxvLink) : (updLink l g s).dram = s.dram := rfl
@[simp] theorem updLink_exports (l : Nat) (g : OxvLink → OxvLink) : (updLink l g s).exports = s.exports := rfl
@[simp] theorem updLink_late (l : Nat) (g : OxvLink → OxvLink) : (updLink l g s).late = s.late := rfl
@[simp] theorem updLink_spill (l : Nat) (g : OxvLink → OxvLink) : (updLink l g s).spill = s.spill := rfl
@[simp] theorem updLink_out (l : Nat) (g : OxvLink → OxvLink) : (updLink l g s).out = s.out := rfl
@[simp] theorem updLink_freeCount (l : Nat) (g : OxvLink → OxvLink) : (updLink l g s).freeCount = s.freeCount := rfl
@[simp] theorem updLink_pending (l : Nat) (g : OxvLink → OxvLink) : (updLink l g s).pending = s.pending := rfl

/-! ### dropCmd -/

@[simp] theorem dropCmd_regs (f q c : Nat) : (dropCmd f q c s).regs = s.regs := rfl
@[simp] theorem dropCmd_latch (f q c : Nat) : (dropCmd f q c s).latch = s.latch := rfl
@[simp] theorem dropCmd_heldWrites (f q c : Nat) : (dropCmd f q c s).heldWrites = s.heldWrites := rfl
@[simp] theorem dropCmd_qos (f q c : Nat) : (dropCmd f q c s).qos = s.qos := rfl
@[simp] theorem dropCmd_mode (f q c : Nat) : (dropCmd f q c s).mode = s.mode := rfl
@[simp] theorem dropCmd_time (f q c : Nat) : (dropCmd f q c s).time = s.time := rfl
@[simp] theorem dropCmd_stats (f q c : Nat) : (dropCmd f q c s).stats = s.stats := rfl
@[simp] theorem dropCmd_chain (f q c : Nat) : (dropCmd f q c s).chain = s.chain := rfl
@[simp] theorem dropCmd_fns (f q c : Nat) : (dropCmd f q c s).fns = s.fns := rfl
@[simp] theorem dropCmd_numVfs (f q c : Nat) : (dropCmd f q c s).numVfs = s.numVfs := rfl
@[simp] theorem dropCmd_orderNext (f q c : Nat) : (dropCmd f q c s).orderNext = s.orderNext := rfl
@[simp] theorem dropCmd_trans (f q c : Nat) : (dropCmd f q c s).trans = s.trans := rfl
@[simp] theorem dropCmd_nss (f q c : Nat) : (dropCmd f q c s).nss = s.nss := rfl
@[simp] theorem dropCmd_ftl (f q c : Nat) : (dropCmd f q c s).ftl = s.ftl := rfl
@[simp] theorem dropCmd_ing (f q c : Nat) : (dropCmd f q c s).ing = s.ing := rfl
@[simp] theorem dropCmd_mon (f q c : Nat) : (dropCmd f q c s).mon = s.mon := rfl
@[simp] theorem dropCmd_oxv (f q c : Nat) : (dropCmd f q c s).oxv = s.oxv := rfl
@[simp] theorem dropCmd_ink (f q c : Nat) : (dropCmd f q c s).ink = s.ink := rfl
@[simp] theorem dropCmd_fw (f q c : Nat) : (dropCmd f q c s).fw = s.fw := rfl
@[simp] theorem dropCmd_duct (f q c : Nat) : (dropCmd f q c s).duct = s.duct := rfl
@[simp] theorem dropCmd_crypt (f q c : Nat) : (dropCmd f q c s).crypt = s.crypt := rfl
@[simp] theorem dropCmd_sieve (f q c : Nat) : (dropCmd f q c s).sieve = s.sieve := rfl
@[simp] theorem dropCmd_dram (f q c : Nat) : (dropCmd f q c s).dram = s.dram := rfl
@[simp] theorem dropCmd_exports (f q c : Nat) : (dropCmd f q c s).exports = s.exports := rfl
@[simp] theorem dropCmd_late (f q c : Nat) : (dropCmd f q c s).late = s.late := rfl
@[simp] theorem dropCmd_spill (f q c : Nat) : (dropCmd f q c s).spill = s.spill := rfl
@[simp] theorem dropCmd_out (f q c : Nat) : (dropCmd f q c s).out = s.out := rfl
@[simp] theorem dropCmd_freeCount (f q c : Nat) : (dropCmd f q c s).freeCount = s.freeCount := rfl
@[simp] theorem dropCmd_pending (f q c : Nat) : (dropCmd f q c s).pending = s.pending := rfl

/-! ### updCmd -/

@[simp] theorem updCmd_regs (f q c : Nat) (g : Cmd → Cmd) : (updCmd f q c g s).regs = s.regs := rfl
@[simp] theorem updCmd_latch (f q c : Nat) (g : Cmd → Cmd) : (updCmd f q c g s).latch = s.latch := rfl
@[simp] theorem updCmd_heldWrites (f q c : Nat) (g : Cmd → Cmd) : (updCmd f q c g s).heldWrites = s.heldWrites := rfl
@[simp] theorem updCmd_qos (f q c : Nat) (g : Cmd → Cmd) : (updCmd f q c g s).qos = s.qos := rfl
@[simp] theorem updCmd_mode (f q c : Nat) (g : Cmd → Cmd) : (updCmd f q c g s).mode = s.mode := rfl
@[simp] theorem updCmd_time (f q c : Nat) (g : Cmd → Cmd) : (updCmd f q c g s).time = s.time := rfl
@[simp] theorem updCmd_stats (f q c : Nat) (g : Cmd → Cmd) : (updCmd f q c g s).stats = s.stats := rfl
@[simp] theorem updCmd_chain (f q c : Nat) (g : Cmd → Cmd) : (updCmd f q c g s).chain = s.chain := rfl
@[simp] theorem updCmd_fns (f q c : Nat) (g : Cmd → Cmd) : (updCmd f q c g s).fns = s.fns := rfl
@[simp] theorem updCmd_numVfs (f q c : Nat) (g : Cmd → Cmd) : (updCmd f q c g s).numVfs = s.numVfs := rfl
@[simp] theorem updCmd_orderNext (f q c : Nat) (g : Cmd → Cmd) : (updCmd f q c g s).orderNext = s.orderNext := rfl
@[simp] theorem updCmd_trans (f q c : Nat) (g : Cmd → Cmd) : (updCmd f q c g s).trans = s.trans := rfl
@[simp] theorem updCmd_nss (f q c : Nat) (g : Cmd → Cmd) : (updCmd f q c g s).nss = s.nss := rfl
@[simp] theorem updCmd_ftl (f q c : Nat) (g : Cmd → Cmd) : (updCmd f q c g s).ftl = s.ftl := rfl
@[simp] theorem updCmd_ing (f q c : Nat) (g : Cmd → Cmd) : (updCmd f q c g s).ing = s.ing := rfl
@[simp] theorem updCmd_mon (f q c : Nat) (g : Cmd → Cmd) : (updCmd f q c g s).mon = s.mon := rfl
@[simp] theorem updCmd_oxv (f q c : Nat) (g : Cmd → Cmd) : (updCmd f q c g s).oxv = s.oxv := rfl
@[simp] theorem updCmd_ink (f q c : Nat) (g : Cmd → Cmd) : (updCmd f q c g s).ink = s.ink := rfl
@[simp] theorem updCmd_fw (f q c : Nat) (g : Cmd → Cmd) : (updCmd f q c g s).fw = s.fw := rfl
@[simp] theorem updCmd_duct (f q c : Nat) (g : Cmd → Cmd) : (updCmd f q c g s).duct = s.duct := rfl
@[simp] theorem updCmd_crypt (f q c : Nat) (g : Cmd → Cmd) : (updCmd f q c g s).crypt = s.crypt := rfl
@[simp] theorem updCmd_sieve (f q c : Nat) (g : Cmd → Cmd) : (updCmd f q c g s).sieve = s.sieve := rfl
@[simp] theorem updCmd_dram (f q c : Nat) (g : Cmd → Cmd) : (updCmd f q c g s).dram = s.dram := rfl
@[simp] theorem updCmd_exports (f q c : Nat) (g : Cmd → Cmd) : (updCmd f q c g s).exports = s.exports := rfl
@[simp] theorem updCmd_late (f q c : Nat) (g : Cmd → Cmd) : (updCmd f q c g s).late = s.late := rfl
@[simp] theorem updCmd_spill (f q c : Nat) (g : Cmd → Cmd) : (updCmd f q c g s).spill = s.spill := rfl
@[simp] theorem updCmd_out (f q c : Nat) (g : Cmd → Cmd) : (updCmd f q c g s).out = s.out := rfl
@[simp] theorem updCmd_freeCount (f q c : Nat) (g : Cmd → Cmd) : (updCmd f q c g s).freeCount = s.freeCount := rfl
@[simp] theorem updCmd_pending (f q c : Nat) (g : Cmd → Cmd) : (updCmd f q c g s).pending = s.pending := rfl

/-! ### addCmd -/

@[simp] theorem addCmd_regs (c : Cmd) : (addCmd c s).regs = s.regs := rfl
@[simp] theorem addCmd_latch (c : Cmd) : (addCmd c s).latch = s.latch := rfl
@[simp] theorem addCmd_heldWrites (c : Cmd) : (addCmd c s).heldWrites = s.heldWrites := rfl
@[simp] theorem addCmd_qos (c : Cmd) : (addCmd c s).qos = s.qos := rfl
@[simp] theorem addCmd_mode (c : Cmd) : (addCmd c s).mode = s.mode := rfl
@[simp] theorem addCmd_time (c : Cmd) : (addCmd c s).time = s.time := rfl
@[simp] theorem addCmd_stats (c : Cmd) : (addCmd c s).stats = s.stats := rfl
@[simp] theorem addCmd_chain (c : Cmd) : (addCmd c s).chain = s.chain := rfl
@[simp] theorem addCmd_fns (c : Cmd) : (addCmd c s).fns = s.fns := rfl
@[simp] theorem addCmd_numVfs (c : Cmd) : (addCmd c s).numVfs = s.numVfs := rfl
@[simp] theorem addCmd_trans (c : Cmd) : (addCmd c s).trans = s.trans := rfl
@[simp] theorem addCmd_nss (c : Cmd) : (addCmd c s).nss = s.nss := rfl
@[simp] theorem addCmd_ftl (c : Cmd) : (addCmd c s).ftl = s.ftl := rfl
@[simp] theorem addCmd_ing (c : Cmd) : (addCmd c s).ing = s.ing := rfl
@[simp] theorem addCmd_mon (c : Cmd) : (addCmd c s).mon = s.mon := rfl
@[simp] theorem addCmd_oxv (c : Cmd) : (addCmd c s).oxv = s.oxv := rfl
@[simp] theorem addCmd_ink (c : Cmd) : (addCmd c s).ink = s.ink := rfl
@[simp] theorem addCmd_fw (c : Cmd) : (addCmd c s).fw = s.fw := rfl
@[simp] theorem addCmd_duct (c : Cmd) : (addCmd c s).duct = s.duct := rfl
@[simp] theorem addCmd_crypt (c : Cmd) : (addCmd c s).crypt = s.crypt := rfl
@[simp] theorem addCmd_sieve (c : Cmd) : (addCmd c s).sieve = s.sieve := rfl
@[simp] theorem addCmd_dram (c : Cmd) : (addCmd c s).dram = s.dram := rfl
@[simp] theorem addCmd_exports (c : Cmd) : (addCmd c s).exports = s.exports := rfl
@[simp] theorem addCmd_late (c : Cmd) : (addCmd c s).late = s.late := rfl
@[simp] theorem addCmd_spill (c : Cmd) : (addCmd c s).spill = s.spill := rfl
@[simp] theorem addCmd_out (c : Cmd) : (addCmd c s).out = s.out := rfl
@[simp] theorem addCmd_freeCount (c : Cmd) : (addCmd c s).freeCount = s.freeCount := rfl
@[simp] theorem addCmd_pending (c : Cmd) : (addCmd c s).pending = s.pending := rfl

/-! ### takeEntry -/

@[simp] theorem takeEntry_regs (f q : Nat) : (takeEntry f q s).regs = s.regs := rfl
@[simp] theorem takeEntry_latch (f q : Nat) : (takeEntry f q s).latch = s.latch := rfl
@[simp] theorem takeEntry_heldWrites (f q : Nat) : (takeEntry f q s).heldWrites = s.heldWrites := rfl
@[simp] theorem takeEntry_qos (f q : Nat) : (takeEntry f q s).qos = s.qos := rfl
@[simp] theorem takeEntry_mode (f q : Nat) : (takeEntry f q s).mode = s.mode := rfl
@[simp] theorem takeEntry_time (f q : Nat) : (takeEntry f q s).time = s.time := rfl
@[simp] theorem takeEntry_stats (f q : Nat) : (takeEntry f q s).stats = s.stats := rfl
@[simp] theorem takeEntry_chain (f q : Nat) : (takeEntry f q s).chain = s.chain := rfl
@[simp] theorem takeEntry_numVfs (f q : Nat) : (takeEntry f q s).numVfs = s.numVfs := rfl
@[simp] theorem takeEntry_cmds (f q : Nat) : (takeEntry f q s).cmds = s.cmds := rfl
@[simp] theorem takeEntry_orderNext (f q : Nat) : (takeEntry f q s).orderNext = s.orderNext := rfl
@[simp] theorem takeEntry_trans (f q : Nat) : (takeEntry f q s).trans = s.trans := rfl
@[simp] theorem takeEntry_nss (f q : Nat) : (takeEntry f q s).nss = s.nss := rfl
@[simp] theorem takeEntry_ftl (f q : Nat) : (takeEntry f q s).ftl = s.ftl := rfl
@[simp] theorem takeEntry_ing (f q : Nat) : (takeEntry f q s).ing = s.ing := rfl
@[simp] theorem takeEntry_mon (f q : Nat) : (takeEntry f q s).mon = s.mon := rfl
@[simp] theorem takeEntry_oxv (f q : Nat) : (takeEntry f q s).oxv = s.oxv := rfl
@[simp] theorem takeEntry_ink (f q : Nat) : (takeEntry f q s).ink = s.ink := rfl
@[simp] theorem takeEntry_fw (f q : Nat) : (takeEntry f q s).fw = s.fw := rfl
@[simp] theorem takeEntry_duct (f q : Nat) : (takeEntry f q s).duct = s.duct := rfl
@[simp] theorem takeEntry_crypt (f q : Nat) : (takeEntry f q s).crypt = s.crypt := rfl
@[simp] theorem takeEntry_sieve (f q : Nat) : (takeEntry f q s).sieve = s.sieve := rfl
@[simp] theorem takeEntry_dram (f q : Nat) : (takeEntry f q s).dram = s.dram := rfl
@[simp] theorem takeEntry_exports (f q : Nat) : (takeEntry f q s).exports = s.exports := rfl
@[simp] theorem takeEntry_late (f q : Nat) : (takeEntry f q s).late = s.late := rfl
@[simp] theorem takeEntry_spill (f q : Nat) : (takeEntry f q s).spill = s.spill := rfl
@[simp] theorem takeEntry_out (f q : Nat) : (takeEntry f q s).out = s.out := rfl
@[simp] theorem takeEntry_freeCount (f q : Nat) : (takeEntry f q s).freeCount = s.freeCount := rfl
@[simp] theorem takeEntry_pending (f q : Nat) : (takeEntry f q s).pending = s.pending := rfl

/-! ### atFrac -/

@[simp] theorem atFrac_regs (x : Nat) : (atFrac x s).regs = s.regs := by unfold atFrac; split <;> rfl
@[simp] theorem atFrac_latch (x : Nat) : (atFrac x s).latch = s.latch := by unfold atFrac; split <;> rfl
@[simp] theorem atFrac_heldWrites (x : Nat) : (atFrac x s).heldWrites = s.heldWrites := by unfold atFrac; split <;> rfl
@[simp] theorem atFrac_qos (x : Nat) : (atFrac x s).qos = s.qos := by unfold atFrac; split <;> rfl
@[simp] theorem atFrac_mode (x : Nat) : (atFrac x s).mode = s.mode := by unfold atFrac; split <;> rfl
@[simp] theorem atFrac_stats (x : Nat) : (atFrac x s).stats = s.stats := by unfold atFrac; split <;> rfl
@[simp] theorem atFrac_chain (x : Nat) : (atFrac x s).chain = s.chain := by unfold atFrac; split <;> rfl
@[simp] theorem atFrac_fns (x : Nat) : (atFrac x s).fns = s.fns := by unfold atFrac; split <;> rfl
@[simp] theorem atFrac_numVfs (x : Nat) : (atFrac x s).numVfs = s.numVfs := by unfold atFrac; split <;> rfl
@[simp] theorem atFrac_cmds (x : Nat) : (atFrac x s).cmds = s.cmds := by unfold atFrac; split <;> rfl
@[simp] theorem atFrac_orderNext (x : Nat) : (atFrac x s).orderNext = s.orderNext := by unfold atFrac; split <;> rfl
@[simp] theorem atFrac_trans (x : Nat) : (atFrac x s).trans = s.trans := by unfold atFrac; split <;> rfl
@[simp] theorem atFrac_nss (x : Nat) : (atFrac x s).nss = s.nss := by unfold atFrac; split <;> rfl
@[simp] theorem atFrac_ftl (x : Nat) : (atFrac x s).ftl = s.ftl := by unfold atFrac; split <;> rfl
@[simp] theorem atFrac_ing (x : Nat) : (atFrac x s).ing = s.ing := by unfold atFrac; split <;> rfl
@[simp] theorem atFrac_mon (x : Nat) : (atFrac x s).mon = s.mon := by unfold atFrac; split <;> rfl
@[simp] theorem atFrac_oxv (x : Nat) : (atFrac x s).oxv = s.oxv := by unfold atFrac; split <;> rfl
@[simp] theorem atFrac_ink (x : Nat) : (atFrac x s).ink = s.ink := by unfold atFrac; split <;> rfl
@[simp] theorem atFrac_fw (x : Nat) : (atFrac x s).fw = s.fw := by unfold atFrac; split <;> rfl
@[simp] theorem atFrac_duct (x : Nat) : (atFrac x s).duct = s.duct := by unfold atFrac; split <;> rfl
@[simp] theorem atFrac_crypt (x : Nat) : (atFrac x s).crypt = s.crypt := by unfold atFrac; split <;> rfl
@[simp] theorem atFrac_sieve (x : Nat) : (atFrac x s).sieve = s.sieve := by unfold atFrac; split <;> rfl
@[simp] theorem atFrac_dram (x : Nat) : (atFrac x s).dram = s.dram := by unfold atFrac; split <;> rfl
@[simp] theorem atFrac_exports (x : Nat) : (atFrac x s).exports = s.exports := by unfold atFrac; split <;> rfl
@[simp] theorem atFrac_late (x : Nat) : (atFrac x s).late = s.late := by unfold atFrac; split <;> rfl
@[simp] theorem atFrac_spill (x : Nat) : (atFrac x s).spill = s.spill := by unfold atFrac; split <;> rfl
@[simp] theorem atFrac_out (x : Nat) : (atFrac x s).out = s.out := by unfold atFrac; split <;> rfl
@[simp] theorem atFrac_freeCount (x : Nat) : (atFrac x s).freeCount = s.freeCount := by unfold atFrac; split <;> rfl
@[simp] theorem atFrac_pending (x : Nat) : (atFrac x s).pending = s.pending := by unfold atFrac; split <;> rfl

/-! ### What the updates do change -/

@[simp] theorem emit_out (o : Out) : (emit o s).out = s.out ++ [o] := rfl
@[simp] theorem setFn_fns (f : Nat) (x : Fn) : (setFn f x s).fns = mset s.fns f x := rfl
@[simp] theorem updFn_fns (f : Nat) (g : Fn → Fn) : (updFn f g s).fns = mset s.fns f (g (getFn s f)) := rfl
@[simp] theorem addCmd_orderNext (c : Cmd) : (addCmd c s).orderNext = s.orderNext + 1 := rfl
@[simp] theorem atFrac_stroke (x : Nat) : (atFrac x s).time.stroke = s.time.stroke := by unfold atFrac; split <;> rfl
@[simp] theorem atFrac_src (x : Nat) : (atFrac x s).time.src = s.time.src := by unfold atFrac; split <;> rfl
@[simp] theorem atFrac_period (x : Nat) : (atFrac x s).time.period = s.time.period := by unfold atFrac; split <;> rfl
@[simp] theorem atFrac_misses (x : Nat) : (atFrac x s).time.misses = s.time.misses := by unfold atFrac; split <;> rfl
@[simp] theorem atFrac_below (x : Nat) : (atFrac x s).time.below = s.time.below := by unfold atFrac; split <;> rfl
@[simp] theorem atFrac_holdUs (x : Nat) : (atFrac x s).time.holdUs = s.time.holdUs := by unfold atFrac; split <;> rfl
@[simp] theorem atFrac_sinceMark (x : Nat) : (atFrac x s).time.sinceMark = s.time.sinceMark := by
  unfold atFrac; split <;> rfl
@[simp] theorem atFrac_bootWait (x : Nat) : (atFrac x s).time.bootWait = s.time.bootWait := by
  unfold atFrac; split <;> rfl
@[simp] theorem atFrac_acqFromHoldover (x : Nat) : (atFrac x s).time.acqFromHoldover = s.time.acqFromHoldover := by
  unfold atFrac; split <;> rfl
@[simp] theorem atFrac_epochNs (x : Nat) : (atFrac x s).time.epochNs = s.time.epochNs := by unfold atFrac; split <;> rfl
@[simp] theorem atFrac_offsetNs (x : Nat) : (atFrac x s).time.offsetNs = s.time.offsetNs := by
  unfold atFrac; split <;> rfl

/-! ### Reads through the updates -/

@[simp] theorem getReg_emit (o : Out) (a : Nat) : getReg (emit o s) a = getReg s a := rfl
@[simp] theorem getReg_setFn (f : Nat) (x : Fn) (a : Nat) : getReg (setFn f x s) a = getReg s a := rfl
@[simp] theorem getReg_updFn (f : Nat) (g : Fn → Fn) (a : Nat) : getReg (updFn f g s) a = getReg s a := rfl
@[simp] theorem getReg_atFrac (x a : Nat) : getReg (atFrac x s) a = getReg s a := by unfold atFrac; split <;> rfl
@[simp] theorem getF_emit (o : Out) (f : Fld) : getF (emit o s) f = getF s f := rfl
@[simp] theorem getF_setFn (k : Nat) (x : Fn) (f : Fld) : getF (setFn k x s) f = getF s f := rfl
@[simp] theorem getF_updFn (k : Nat) (g : Fn → Fn) (f : Fld) : getF (updFn k g s) f = getF s f := rfl
@[simp] theorem getF_updVec (k v : Nat) (g : Vec → Vec) (f : Fld) : getF (updVec k v g s) f = getF s f := rfl
@[simp] theorem getF_takeEntry (k q : Nat) (f : Fld) : getF (takeEntry k q s) f = getF s f := rfl
@[simp] theorem getF_addCmd (c : Cmd) (f : Fld) : getF (addCmd c s) f = getF s f := rfl
@[simp] theorem getF_dropCmd (k q c : Nat) (f : Fld) : getF (dropCmd k q c s) f = getF s f := rfl
@[simp] theorem getF_updCmd (k q c : Nat) (g : Cmd → Cmd) (f : Fld) : getF (updCmd k q c g s) f = getF s f := rfl
@[simp] theorem getF_atFrac (x : Nat) (f : Fld) : getF (atFrac x s) f = getF s f := by simp [getF]
@[simp] theorem getFn_setFn (f : Nat) (x : Fn) : getFn (setFn f x s) f = x := by
  unfold getFn setFn
  have : ∀ m : Map Fn, mget (mset m f x) f = some x := by
    intro m
    induction m with
    | nil => simp [mset, mget]
    | cons e t ih =>
      obtain ⟨k', v'⟩ := e
      simp only [mset]
      split
      · simp [mget]
      · split
        · simp [mget]
        · simp [mget, *]
  simp [this]
@[simp] theorem getFn_updFn (f : Nat) (g : Fn → Fn) : getFn (updFn f g s) f = g (getFn s f) := getFn_setFn s f _
@[simp] theorem getFn_atFrac (x f : Nat) : getFn (atFrac x s) f = getFn s f := by unfold getFn; simp
@[simp] theorem getFn_emit (o : Out) (f : Nat) : getFn (emit o s) f = getFn s f := rfl
@[simp] theorem getFn_setF (g : Fld) (v f : Nat) : getFn (setF g v s) f = getFn s f := rfl

/-! ### Register reads past the other parts of the state -/

@[simp] theorem getF_with_latch (x : Map Word32) (f : Fld) : getF { s with latch := x } f = getF s f := rfl
@[simp] theorem getF_with_heldWrites (x : Map Word32) (f : Fld) : getF { s with heldWrites := x } f = getF s f := rfl
@[simp] theorem getF_with_qos (x : Map QosInForce) (f : Fld) : getF { s with qos := x } f = getF s f := rfl
@[simp] theorem getF_with_mode (x : ModeSt) (f : Fld) : getF { s with mode := x } f = getF s f := rfl
@[simp] theorem getF_with_time (x : TimeSt) (f : Fld) : getF { s with time := x } f = getF s f := rfl
@[simp] theorem getF_with_stats (x : List StrokeStat) (f : Fld) : getF { s with stats := x } f = getF s f := rfl
@[simp] theorem getF_with_chain (x : ChainSt) (f : Fld) : getF { s with chain := x } f = getF s f := rfl
@[simp] theorem getF_with_fns (x : Map Fn) (f : Fld) : getF { s with fns := x } f = getF s f := rfl
@[simp] theorem getF_with_numVfs (x : Nat) (f : Fld) : getF { s with numVfs := x } f = getF s f := rfl
@[simp] theorem getF_with_cmds (x : List Cmd) (f : Fld) : getF { s with cmds := x } f = getF s f := rfl
@[simp] theorem getF_with_orderNext (x : Nat) (f : Fld) : getF { s with orderNext := x } f = getF s f := rfl
@[simp] theorem getF_with_trans (x : List Transition) (f : Fld) : getF { s with trans := x } f = getF s f := rfl
@[simp] theorem getF_with_nss (x : Map Ns) (f : Fld) : getF { s with nss := x } f = getF s f := rfl
@[simp] theorem getF_with_ftl (x : FtlSt) (f : Fld) : getF { s with ftl := x } f = getF s f := rfl
@[simp] theorem getF_with_ing (x : IngSt) (f : Fld) : getF { s with ing := x } f = getF s f := rfl
@[simp] theorem getF_with_mon (x : MonSt) (f : Fld) : getF { s with mon := x } f = getF s f := rfl
@[simp] theorem getF_with_oxv (x : OxvSt) (f : Fld) : getF { s with oxv := x } f = getF s f := rfl
@[simp] theorem getF_with_ink (x : InkSt) (f : Fld) : getF { s with ink := x } f = getF s f := rfl
@[simp] theorem getF_with_fw (x : FwSt) (f : Fld) : getF { s with fw := x } f = getF s f := rfl
@[simp] theorem getF_with_duct (x : DuctSt) (f : Fld) : getF { s with duct := x } f = getF s f := rfl
@[simp] theorem getF_with_crypt (x : CryptSt) (f : Fld) : getF { s with crypt := x } f = getF s f := rfl
@[simp] theorem getF_with_sieve (x : SieveSt) (f : Fld) : getF { s with sieve := x } f = getF s f := rfl
@[simp] theorem getF_with_dram (x : DramSt) (f : Fld) : getF { s with dram := x } f = getF s f := rfl
@[simp] theorem getF_with_exports (x : List ExportSt) (f : Fld) : getF { s with exports := x } f = getF s f := rfl
@[simp] theorem getF_with_late (x : List LateCmd) (f : Fld) : getF { s with late := x } f = getF s f := rfl
@[simp] theorem getF_with_spill (x : Map (Nat × Nat)) (f : Fld) : getF { s with spill := x } f = getF s f := rfl
@[simp] theorem getF_with_out (x : List Out) (f : Fld) : getF { s with out := x } f = getF s f := rfl
@[simp] theorem getF_with_freeCount (x : Nat) (f : Fld) : getF { s with freeCount := x } f = getF s f := rfl
@[simp] theorem getF_with_pending (x : List Instr) (f : Fld) : getF { s with pending := x } f = getF s f := rfl

end Sys2Proof.Machine
end

