-- ==== Sys2Proof/Laws/Lists.lean ====
section
/-!
SUPPORT. Folds over lists of functions, dies and links: when they change nothing, and when only one element acts.
-/

namespace Sys2Proof.Machine

/-- A fold whose steps all leave the state as it is leaves it. -/
theorem foldl_same {α β : Type} (g : β → α → β) (b : β) (l : List α) (h : ∀ a ∈ l, g b a = b) : l.foldl g b = b := by
  induction l with
  | nil => rfl
  | cons a t ih =>
    rw [List.foldl_cons, h a (List.mem_cons_self ..)]
    exact ih (fun x hx => h x (List.mem_cons_of_mem _ hx))

/-- A fold in which one element acts, once, and every other leaves the state as it is. -/
theorem foldl_one {α β : Type} [DecidableEq α] (g : β → α → β) (b : β) (l : List α) (x : α) (hx : x ∈ l) (hn : l.Nodup)
    (h1 : ∀ a ∈ l, a ≠ x → g b a = b) (h2 : ∀ a ∈ l, a ≠ x → g (g b x) a = g b x) : l.foldl g b = g b x := by
  induction l with
  | nil => cases hx
  | cons a t ih =>
    rw [List.foldl_cons]
    by_cases e : a = x
    · subst e
      refine foldl_same g _ t (fun y hy => h2 y (List.mem_cons_of_mem _ hy) ?_)
      intro e; subst e
      exact (List.nodup_cons.mp hn).1 hy
    · rw [h1 a (List.mem_cons_self ..) e]
      refine ih ?_ (List.nodup_cons.mp hn).2 (fun y hy => h1 y (List.mem_cons_of_mem _ hy))
        (fun y hy => h2 y (List.mem_cons_of_mem _ hy))
      rcases List.mem_cons.mp hx with h | h
      · exact absurd h.symm e
      · exact h

theorem mem_allFns (f : Nat) : f ∈ allFns ↔ f < 128 := by simp [allFns]

theorem nodup_allFns : allFns.Nodup := List.nodup_range

/-- What a map gives for a key is the value of one of its entries. -/
theorem mget_mem {α : Type} (m : Map α) (k : Nat) (v : α) (h : mget m k = some v) : (k, v) ∈ m := by
  induction m with
  | nil => cases h
  | cons e t ih =>
    obtain ⟨k', v'⟩ := e
    simp only [mget] at h
    split at h
    · rename_i hk; cases h; subst hk; exact List.mem_cons_self ..
    · exact List.mem_cons_of_mem _ (ih h)

end Sys2Proof.Machine
end

