-- ==== Sys2Proof/Laws/Ops.lean ====
section
/-!
SUPPORT. The shared operations of Machine/Ops.lean: which parts of the state each one can change. Every other part is as before, and
the field lemmas that follow are tagged for the simplifier.
-/

namespace Sys2Proof.Machine

/-- The state with other functions, outputs and Oxvia links: all that a signal or a completion can change. -/
def Told (s t : State) : Prop := ∃ (f : Map Fn) (o : List Out) (x : OxvSt), t = { s with fns := f, out := o, oxv := x }

/-- The state with other registers and another blot log and always-on queue. -/
def Blotted (s t : State) : Prop := ∃ (r : Map Word32) (m : MonSt), t = { s with regs := r, mon := m }

/-- The state with another chain as well: all that a stream-0 record can change. -/
def Recorded (s t : State) : Prop :=
  ∃ (r : Map Word32) (m : MonSt) (c : ChainSt), t = { s with regs := r, mon := m, chain := c }

theorem Told.rfl' {s : State} : Told s s := ⟨s.fns, s.out, s.oxv, rfl⟩

theorem Told.comp {s t u : State} (h : Told s t) (h' : Told t u) : Told s u := by
  obtain ⟨f, o, x, rfl⟩ := h
  obtain ⟨f', o', x', rfl⟩ := h'
  exact ⟨f', o', x', rfl⟩

theorem Told.foldl {α : Type} (g : State → α → State) (l : List α) (s : State) (h : ∀ a e, Told a (g a e)) :
    Told s (l.foldl g s) := by
  induction l generalizing s with
  | nil => exact Told.rfl'
  | cons e t ih => exact (h s e).comp (ih (g s e))

theorem Blotted.rfl' {s : State} : Blotted s s := ⟨s.regs, s.mon, rfl⟩

theorem Blotted.comp {s t u : State} (h : Blotted s t) (h' : Blotted t u) : Blotted s u := by
  obtain ⟨r, m, rfl⟩ := h
  obtain ⟨r', m', rfl⟩ := h'
  exact ⟨r', m', rfl⟩

theorem Recorded.comp {s t u : State} (h : Recorded s t) (h' : Recorded t u) : Recorded s u := by
  obtain ⟨r, m, c, rfl⟩ := h
  obtain ⟨r', m', c', rfl⟩ := h'
  exact ⟨r', m', c', rfl⟩

theorem told_emit (o : Out) (s : State) : Told s (emit o s) := ⟨s.fns, s.out ++ [o], s.oxv, rfl⟩

theorem told_updFn (f : Nat) (g : Fn → Fn) (s : State) : Told s (updFn f g s) := ⟨(updFn f g s).fns, s.out, s.oxv, rfl⟩

theorem told_updVec (f v : Nat) (g : Vec → Vec) (s : State) : Told s (updVec f v g s) := told_updFn f _ s

theorem told_updLink (l : Nat) (g : OxvLink → OxvLink) (s : State) : Told s (updLink l g s) := ⟨s.fns, s.out, _, rfl⟩

theorem told_signal (f v : Nat) (s : State) : Told s (signal f v s) := by
  unfold signal
  simp only
  split
  · exact Told.rfl'
  · split
    · exact told_updVec ..
    · exact told_emit ..

theorem told_noteCompletion (f v : Nat) (s : State) : Told s (noteCompletion f v s) := by
  unfold noteCompletion
  simp only
  split
  · exact told_signal ..
  · split
    · split
      · exact ((told_updVec ..).comp (told_updVec ..)).comp (told_signal ..)
      · exact told_updVec ..
    · split
      · exact ((told_updVec ..).comp (told_updVec ..)).comp (told_signal ..)
      · exact told_updVec ..

theorem told_pushCqe (f q : Nat) (e : Cqe) (s : State) : Told s (pushCqe f q e s) := by
  unfold pushCqe
  split
  · exact Told.rfl'
  · simp only
    split
    · exact ((told_updFn ..).comp (told_emit ..)).comp (told_noteCompletion ..)
    · exact (told_updFn ..).comp (told_emit ..)

theorem told_postCqe (f q : Nat) (e : Cqe) (s : State) : Told s (postCqe f q e s) := by
  unfold postCqe
  split
  · exact Told.rfl'
  · split
    · exact told_pushCqe ..
    · exact told_updFn ..

theorem told_drainCq (f q n : Nat) (s : State) : Told s (drainCq f q n s) := by
  induction n generalizing s with
  | zero => exact Told.rfl'
  | succ k ih =>
    unfold drainCq
    split
    · exact Told.rfl'
    · split
      · exact Told.rfl'
      · split
        · exact ((told_updFn ..).comp (told_pushCqe ..)).comp (ih _)
        · exact Told.rfl'

theorem told_drainFn (f : Nat) (s : State) : Told s (drainFn f s) := Told.foldl _ _ _ (fun _ _ => told_drainCq ..)

theorem told_oxvPut (l type flags dst src hops bseq : Nat) (p : Bytes) (s : State) :
    Told s (oxvPut l type flags dst src hops bseq p s) := by
  unfold oxvPut
  split
  · exact Told.rfl'
  · simp only
    split
    · refine Told.comp ?_ (told_updLink ..)
      split
      · exact told_emit ..
      · exact Told.rfl'
    · exact told_emit ..

theorem told_oxvSendOn (l type flags dst : Nat) (p : Bytes) (s : State) : Told s (oxvSendOn l type flags dst p s) :=
  told_oxvPut ..

theorem told_oxvSendAll (type flags dst : Nat) (p : Bytes) (s : State) : Told s (oxvSendAll type flags dst p s) :=
  Told.foldl _ _ _ (fun _ _ => told_oxvSendOn ..)

theorem told_oxvFlood (type : Nat) (p : Bytes) (s : State) : Told s (oxvFlood type p s) := by
  unfold oxvFlood
  refine Told.comp ?_ (Told.foldl _ _ _ (fun _ _ => told_oxvPut ..))
  exact ⟨s.fns, s.out, _, rfl⟩

theorem told_oxvTo (dst type : Nat) (p : Bytes) (s : State) : Told s (oxvTo dst type p s) := by
  unfold oxvTo
  split
  · split
    · exact ⟨s.fns, s.out, _, rfl⟩
    · exact Told.rfl'
  · split
    · exact told_oxvSendOn ..
    · exact Told.rfl'

theorem told_complete (f q c : Nat) (st : Status) (a b : Nat) (s : State) : Told s (complete f q c st a b s) := by
  unfold complete
  split
  · exact told_emit ..
  · split
    · exact Told.rfl'
    · split
      · refine Told.comp ?_ (told_oxvTo ..)
        exact ⟨s.fns, s.out, _, rfl⟩
      · split
        · exact Told.rfl'
        · exact told_postCqe ..

theorem told_toFollower (d f q c n : Nat) (s : State) : Told s (toFollower d f q c n s) := by
  unfold toFollower
  split
  · refine Told.comp ?_ (told_oxvTo ..)
    exact ⟨s.fns, s.out, _, rfl⟩
  · exact told_complete ..

theorem told_raiseEvent (f : Nat) (e : AsyncEvent) (s : State) : Told s (raiseEvent f e s) := by
  unfold raiseEvent
  simp only
  split
  · exact Told.rfl'
  · split
    · exact (told_updFn ..).comp (told_complete ..)
    · split
      · exact Told.rfl'
      · exact told_updFn ..

theorem told_vendorEvent (i : Nat) (s : State) : Told s (vendorEvent i s) := by
  unfold vendorEvent
  refine Told.foldl _ _ _ (fun a e => ?_)
  split
  · exact told_raiseEvent ..
  · exact Told.rfl'

theorem told_takeEntry (f q : Nat) (s : State) : Told s (takeEntry f q s) := told_updFn ..

theorem blotted_setF (f : Fld) (v : Nat) (s : State) : Blotted s (setF f v s) := ⟨_, s.mon, rfl⟩

theorem blotted_incF (f : Fld) (n : Nat) (s : State) : Blotted s (incF f n s) := ⟨_, s.mon, rfl⟩

theorem blotted_recordBlot (c v u : Nat) (a : Bytes) (s : State) : Blotted s (recordBlot c v u a s) := by
  unfold recordBlot
  simp only
  split
  · split
    · exact ⟨s.regs, _, rfl⟩
    · exact ⟨_, _, rfl⟩
  · exact ⟨_, _, rfl⟩

theorem blotted_blot (c v u : Nat) (a : Bytes) (s : State) : Blotted s (blot c v u a s) := by
  unfold blot
  split
  · exact ⟨s.regs, s.mon, rfl⟩
  · exact blotted_recordBlot ..

theorem Blotted.recorded {s t : State} (h : Blotted s t) : Recorded s t := by
  obtain ⟨r, m, rfl⟩ := h
  exact ⟨r, m, s.chain, rfl⟩

theorem recorded_addRecAt (type d : Nat) (p : Bytes) (s : State) : Recorded s (addRecAt type d p s) := by
  unfold addRecAt
  split
  · exact ⟨s.regs, s.mon, _, rfl⟩
  · split
    · split
      · exact ⟨_, _, _, rfl⟩
      · exact (blotted_incF ..).recorded
    · exact ⟨s.regs, s.mon, _, rfl⟩

theorem recorded_addRec (type : Nat) (p : Bytes) (s : State) : Recorded s (addRec type p s) := recorded_addRecAt ..

theorem recorded_anchorRec (k c : Nat) (s : State) : Recorded s (anchorRec k c s) := recorded_addRec ..

theorem recorded_faultRec (c u n d : Nat) (s : State) : Recorded s (faultRec c u n d s) := recorded_addRec ..

theorem recorded_namespaceRec (n a t : Nat) (s : State) : Recorded s (namespaceRec n a t s) := recorded_addRec ..

theorem recorded_modeRec (a b c f : Nat) (n : Bytes) (s : State) : Recorded s (modeRec a b c f n s) := recorded_addRec ..

theorem recorded_setLockState (v : Nat) (s : State) : Recorded s (setLockState v s) := by
  unfold setLockState
  split
  · exact ⟨s.regs, s.mon, s.chain, rfl⟩
  · exact (blotted_setF ..).recorded.comp (recorded_anchorRec ..)

/-! ### Field by field -/

variable (s : State)

theorem Told.regs {s t : State} (h : Told s t) : t.regs = s.regs := by obtain ⟨_, _, _, rfl⟩ := h; rfl
theorem Told.latch {s t : State} (h : Told s t) : t.latch = s.latch := by obtain ⟨_, _, _, rfl⟩ := h; rfl
theorem Told.heldWrites {s t : State} (h : Told s t) : t.heldWrites = s.heldWrites := by obtain ⟨_, _, _, rfl⟩ := h; rfl
theorem Told.qos {s t : State} (h : Told s t) : t.qos = s.qos := by obtain ⟨_, _, _, rfl⟩ := h; rfl
theorem Told.mode {s t : State} (h : Told s t) : t.mode = s.mode := by obtain ⟨_, _, _, rfl⟩ := h; rfl
theorem Told.time {s t : State} (h : Told s t) : t.time = s.time := by obtain ⟨_, _, _, rfl⟩ := h; rfl
theorem Told.stats {s t : State} (h : Told s t) : t.stats = s.stats := by obtain ⟨_, _, _, rfl⟩ := h; rfl
theorem Told.chain {s t : State} (h : Told s t) : t.chain = s.chain := by obtain ⟨_, _, _, rfl⟩ := h; rfl
theorem Told.numVfs {s t : State} (h : Told s t) : t.numVfs = s.numVfs := by obtain ⟨_, _, _, rfl⟩ := h; rfl
theorem Told.cmds {s t : State} (h : Told s t) : t.cmds = s.cmds := by obtain ⟨_, _, _, rfl⟩ := h; rfl
theorem Told.orderNext {s t : State} (h : Told s t) : t.orderNext = s.orderNext := by obtain ⟨_, _, _, rfl⟩ := h; rfl
theorem Told.trans {s t : State} (h : Told s t) : t.trans = s.trans := by obtain ⟨_, _, _, rfl⟩ := h; rfl
theorem Told.nss {s t : State} (h : Told s t) : t.nss = s.nss := by obtain ⟨_, _, _, rfl⟩ := h; rfl
theorem Told.ftl {s t : State} (h : Told s t) : t.ftl = s.ftl := by obtain ⟨_, _, _, rfl⟩ := h; rfl
theorem Told.ing {s t : State} (h : Told s t) : t.ing = s.ing := by obtain ⟨_, _, _, rfl⟩ := h; rfl
theorem Told.mon {s t : State} (h : Told s t) : t.mon = s.mon := by obtain ⟨_, _, _, rfl⟩ := h; rfl
theorem Told.ink {s t : State} (h : Told s t) : t.ink = s.ink := by obtain ⟨_, _, _, rfl⟩ := h; rfl
theorem Told.fw {s t : State} (h : Told s t) : t.fw = s.fw := by obtain ⟨_, _, _, rfl⟩ := h; rfl
theorem Told.duct {s t : State} (h : Told s t) : t.duct = s.duct := by obtain ⟨_, _, _, rfl⟩ := h; rfl
theorem Told.crypt {s t : State} (h : Told s t) : t.crypt = s.crypt := by obtain ⟨_, _, _, rfl⟩ := h; rfl
theorem Told.sieve {s t : State} (h : Told s t) : t.sieve = s.sieve := by obtain ⟨_, _, _, rfl⟩ := h; rfl
theorem Told.dram {s t : State} (h : Told s t) : t.dram = s.dram := by obtain ⟨_, _, _, rfl⟩ := h; rfl
theorem Told.exports {s t : State} (h : Told s t) : t.exports = s.exports := by obtain ⟨_, _, _, rfl⟩ := h; rfl
theorem Told.late {s t : State} (h : Told s t) : t.late = s.late := by obtain ⟨_, _, _, rfl⟩ := h; rfl
theorem Told.spill {s t : State} (h : Told s t) : t.spill = s.spill := by obtain ⟨_, _, _, rfl⟩ := h; rfl
theorem Told.freeCount {s t : State} (h : Told s t) : t.freeCount = s.freeCount := by obtain ⟨_, _, _, rfl⟩ := h; rfl
theorem Told.pending {s t : State} (h : Told s t) : t.pending = s.pending := by obtain ⟨_, _, _, rfl⟩ := h; rfl

theorem Blotted.latch {s t : State} (h : Blotted s t) : t.latch = s.latch := by obtain ⟨_, _, rfl⟩ := h; rfl
theorem Blotted.heldWrites {s t : State} (h : Blotted s t) : t.heldWrites = s.heldWrites := by obtain ⟨_, _, rfl⟩ := h; rfl
theorem Blotted.qos {s t : State} (h : Blotted s t) : t.qos = s.qos := by obtain ⟨_, _, rfl⟩ := h; rfl
theorem Blotted.mode {s t : State} (h : Blotted s t) : t.mode = s.mode := by obtain ⟨_, _, rfl⟩ := h; rfl
theorem Blotted.time {s t : State} (h : Blotted s t) : t.time = s.time := by obtain ⟨_, _, rfl⟩ := h; rfl
theorem Blotted.stats {s t : State} (h : Blotted s t) : t.stats = s.stats := by obtain ⟨_, _, rfl⟩ := h; rfl
theorem Blotted.chain {s t : State} (h : Blotted s t) : t.chain = s.chain := by obtain ⟨_, _, rfl⟩ := h; rfl
theorem Blotted.fns {s t : State} (h : Blotted s t) : t.fns = s.fns := by obtain ⟨_, _, rfl⟩ := h; rfl
theorem Blotted.numVfs {s t : State} (h : Blotted s t) : t.numVfs = s.numVfs := by obtain ⟨_, _, rfl⟩ := h; rfl
theorem Blotted.cmds {s t : State} (h : Blotted s t) : t.cmds = s.cmds := by obtain ⟨_, _, rfl⟩ := h; rfl
theorem Blotted.orderNext {s t : State} (h : Blotted s t) : t.orderNext = s.orderNext := by obtain ⟨_, _, rfl⟩ := h; rfl
theorem Blotted.trans {s t : State} (h : Blotted s t) : t.trans = s.trans := by obtain ⟨_, _, rfl⟩ := h; rfl
theorem Blotted.nss {s t : State} (h : Blotted s t) : t.nss = s.nss := by obtain ⟨_, _, rfl⟩ := h; rfl
theorem Blotted.ftl {s t : State} (h : Blotted s t) : t.ftl = s.ftl := by obtain ⟨_, _, rfl⟩ := h; rfl
theorem Blotted.ing {s t : State} (h : Blotted s t) : t.ing = s.ing := by obtain ⟨_, _, rfl⟩ := h; rfl
theorem Blotted.oxv {s t : State} (h : Blotted s t) : t.oxv = s.oxv := by obtain ⟨_, _, rfl⟩ := h; rfl
theorem Blotted.ink {s t : State} (h : Blotted s t) : t.ink = s.ink := by obtain ⟨_, _, rfl⟩ := h; rfl
theorem Blotted.fw {s t : State} (h : Blotted s t) : t.fw = s.fw := by obtain ⟨_, _, rfl⟩ := h; rfl
theorem Blotted.duct {s t : State} (h : Blotted s t) : t.duct = s.duct := by obtain ⟨_, _, rfl⟩ := h; rfl
theorem Blotted.crypt {s t : State} (h : Blotted s t) : t.crypt = s.crypt := by obtain ⟨_, _, rfl⟩ := h; rfl
theorem Blotted.sieve {s t : State} (h : Blotted s t) : t.sieve = s.sieve := by obtain ⟨_, _, rfl⟩ := h; rfl
theorem Blotted.dram {s t : State} (h : Blotted s t) : t.dram = s.dram := by obtain ⟨_, _, rfl⟩ := h; rfl
theorem Blotted.exports {s t : State} (h : Blotted s t) : t.exports = s.exports := by obtain ⟨_, _, rfl⟩ := h; rfl
theorem Blotted.late {s t : State} (h : Blotted s t) : t.late = s.late := by obtain ⟨_, _, rfl⟩ := h; rfl
theorem Blotted.spill {s t : State} (h : Blotted s t) : t.spill = s.spill := by obtain ⟨_, _, rfl⟩ := h; rfl
theorem Blotted.out {s t : State} (h : Blotted s t) : t.out = s.out := by obtain ⟨_, _, rfl⟩ := h; rfl
theorem Blotted.freeCount {s t : State} (h : Blotted s t) : t.freeCount = s.freeCount := by obtain ⟨_, _, rfl⟩ := h; rfl
theorem Blotted.pending {s t : State} (h : Blotted s t) : t.pending = s.pending := by obtain ⟨_, _, rfl⟩ := h; rfl

theorem Recorded.latch {s t : State} (h : Recorded s t) : t.latch = s.latch := by obtain ⟨_, _, _, rfl⟩ := h; rfl
theorem Recorded.heldWrites {s t : State} (h : Recorded s t) : t.heldWrites = s.heldWrites := by obtain ⟨_, _, _, rfl⟩ := h; rfl
theorem Recorded.qos {s t : State} (h : Recorded s t) : t.qos = s.qos := by obtain ⟨_, _, _, rfl⟩ := h; rfl
theorem Recorded.mode {s t : State} (h : Recorded s t) : t.mode = s.mode := by obtain ⟨_, _, _, rfl⟩ := h; rfl
theorem Recorded.time {s t : State} (h : Recorded s t) : t.time = s.time := by obtain ⟨_, _, _, rfl⟩ := h; rfl
theorem Recorded.stats {s t : State} (h : Recorded s t) : t.stats = s.stats := by obtain ⟨_, _, _, rfl⟩ := h; rfl
theorem Recorded.fns {s t : State} (h : Recorded s t) : t.fns = s.fns := by obtain ⟨_, _, _, rfl⟩ := h; rfl
theorem Recorded.numVfs {s t : State} (h : Recorded s t) : t.numVfs = s.numVfs := by obtain ⟨_, _, _, rfl⟩ := h; rfl
theorem Recorded.cmds {s t : State} (h : Recorded s t) : t.cmds = s.cmds := by obtain ⟨_, _, _, rfl⟩ := h; rfl
theorem Recorded.orderNext {s t : State} (h : Recorded s t) : t.orderNext = s.orderNext := by obtain ⟨_, _, _, rfl⟩ := h; rfl
theorem Recorded.trans {s t : State} (h : Recorded s t) : t.trans = s.trans := by obtain ⟨_, _, _, rfl⟩ := h; rfl
theorem Recorded.nss {s t : State} (h : Recorded s t) : t.nss = s.nss := by obtain ⟨_, _, _, rfl⟩ := h; rfl
theorem Recorded.ftl {s t : State} (h : Recorded s t) : t.ftl = s.ftl := by obtain ⟨_, _, _, rfl⟩ := h; rfl
theorem Recorded.ing {s t : State} (h : Recorded s t) : t.ing = s.ing := by obtain ⟨_, _, _, rfl⟩ := h; rfl
theorem Recorded.oxv {s t : State} (h : Recorded s t) : t.oxv = s.oxv := by obtain ⟨_, _, _, rfl⟩ := h; rfl
theorem Recorded.ink {s t : State} (h : Recorded s t) : t.ink = s.ink := by obtain ⟨_, _, _, rfl⟩ := h; rfl
theorem Recorded.fw {s t : State} (h : Recorded s t) : t.fw = s.fw := by obtain ⟨_, _, _, rfl⟩ := h; rfl
theorem Recorded.duct {s t : State} (h : Recorded s t) : t.duct = s.duct := by obtain ⟨_, _, _, rfl⟩ := h; rfl
theorem Recorded.crypt {s t : State} (h : Recorded s t) : t.crypt = s.crypt := by obtain ⟨_, _, _, rfl⟩ := h; rfl
theorem Recorded.sieve {s t : State} (h : Recorded s t) : t.sieve = s.sieve := by obtain ⟨_, _, _, rfl⟩ := h; rfl
theorem Recorded.dram {s t : State} (h : Recorded s t) : t.dram = s.dram := by obtain ⟨_, _, _, rfl⟩ := h; rfl
theorem Recorded.exports {s t : State} (h : Recorded s t) : t.exports = s.exports := by obtain ⟨_, _, _, rfl⟩ := h; rfl
theorem Recorded.late {s t : State} (h : Recorded s t) : t.late = s.late := by obtain ⟨_, _, _, rfl⟩ := h; rfl
theorem Recorded.spill {s t : State} (h : Recorded s t) : t.spill = s.spill := by obtain ⟨_, _, _, rfl⟩ := h; rfl
theorem Recorded.out {s t : State} (h : Recorded s t) : t.out = s.out := by obtain ⟨_, _, _, rfl⟩ := h; rfl
theorem Recorded.freeCount {s t : State} (h : Recorded s t) : t.freeCount = s.freeCount := by obtain ⟨_, _, _, rfl⟩ := h; rfl
theorem Recorded.pending {s t : State} (h : Recorded s t) : t.pending = s.pending := by obtain ⟨_, _, _, rfl⟩ := h; rfl

@[simp] theorem signal_regs (f v : Nat) : (signal f v s).regs = s.regs := (told_signal ..).regs
@[simp] theorem signal_latch (f v : Nat) : (signal f v s).latch = s.latch := (told_signal ..).latch
@[simp] theorem signal_heldWrites (f v : Nat) : (signal f v s).heldWrites = s.heldWrites := (told_signal ..).heldWrites
@[simp] theorem signal_qos (f v : Nat) : (signal f v s).qos = s.qos := (told_signal ..).qos
@[simp] theorem signal_mode (f v : Nat) : (signal f v s).mode = s.mode := (told_signal ..).mode
@[simp] theorem signal_time (f v : Nat) : (signal f v s).time = s.time := (told_signal ..).time
@[simp] theorem signal_stats (f v : Nat) : (signal f v s).stats = s.stats := (told_signal ..).stats
@[simp] theorem signal_chain (f v : Nat) : (signal f v s).chain = s.chain := (told_signal ..).chain
@[simp] theorem signal_numVfs (f v : Nat) : (signal f v s).numVfs = s.numVfs := (told_signal ..).numVfs
@[simp] theorem signal_cmds (f v : Nat) : (signal f v s).cmds = s.cmds := (told_signal ..).cmds
@[simp] theorem signal_orderNext (f v : Nat) : (signal f v s).orderNext = s.orderNext := (told_signal ..).orderNext
@[simp] theorem signal_trans (f v : Nat) : (signal f v s).trans = s.trans := (told_signal ..).trans
@[simp] theorem signal_nss (f v : Nat) : (signal f v s).nss = s.nss := (told_signal ..).nss
@[simp] theorem signal_ftl (f v : Nat) : (signal f v s).ftl = s.ftl := (told_signal ..).ftl
@[simp] theorem signal_ing (f v : Nat) : (signal f v s).ing = s.ing := (told_signal ..).ing
@[simp] theorem signal_mon (f v : Nat) : (signal f v s).mon = s.mon := (told_signal ..).mon
@[simp] theorem signal_ink (f v : Nat) : (signal f v s).ink = s.ink := (told_signal ..).ink
@[simp] theorem signal_fw (f v : Nat) : (signal f v s).fw = s.fw := (told_signal ..).fw
@[simp] theorem signal_duct (f v : Nat) : (signal f v s).duct = s.duct := (told_signal ..).duct
@[simp] theorem signal_crypt (f v : Nat) : (signal f v s).crypt = s.crypt := (told_signal ..).crypt
@[simp] theorem signal_sieve (f v : Nat) : (signal f v s).sieve = s.sieve := (told_signal ..).sieve
@[simp] theorem signal_dram (f v : Nat) : (signal f v s).dram = s.dram := (told_signal ..).dram
@[simp] theorem signal_exports (f v : Nat) : (signal f v s).exports = s.exports := (told_signal ..).exports
@[simp] theorem signal_late (f v : Nat) : (signal f v s).late = s.late := (told_signal ..).late
@[simp] theorem signal_spill (f v : Nat) : (signal f v s).spill = s.spill := (told_signal ..).spill
@[simp] theorem signal_freeCount (f v : Nat) : (signal f v s).freeCount = s.freeCount := (told_signal ..).freeCount
@[simp] theorem signal_pending (f v : Nat) : (signal f v s).pending = s.pending := (told_signal ..).pending

@[simp] theorem noteCompletion_regs (f v : Nat) : (noteCompletion f v s).regs = s.regs := (told_noteCompletion ..).regs
@[simp] theorem noteCompletion_latch (f v : Nat) : (noteCompletion f v s).latch = s.latch := (told_noteCompletion ..).latch
@[simp] theorem noteCompletion_heldWrites (f v : Nat) : (noteCompletion f v s).heldWrites = s.heldWrites := (told_noteCompletion ..).heldWrites
@[simp] theorem noteCompletion_qos (f v : Nat) : (noteCompletion f v s).qos = s.qos := (told_noteCompletion ..).qos
@[simp] theorem noteCompletion_mode (f v : Nat) : (noteCompletion f v s).mode = s.mode := (told_noteCompletion ..).mode
@[simp] theorem noteCompletion_time (f v : Nat) : (noteCompletion f v s).time = s.time := (told_noteCompletion ..).time
@[simp] theorem noteCompletion_stats (f v : Nat) : (noteCompletion f v s).stats = s.stats := (told_noteCompletion ..).stats
@[simp] theorem noteCompletion_chain (f v : Nat) : (noteCompletion f v s).chain = s.chain := (told_noteCompletion ..).chain
@[simp] theorem noteCompletion_numVfs (f v : Nat) : (noteCompletion f v s).numVfs = s.numVfs := (told_noteCompletion ..).numVfs
@[simp] theorem noteCompletion_cmds (f v : Nat) : (noteCompletion f v s).cmds = s.cmds := (told_noteCompletion ..).cmds
@[simp] theorem noteCompletion_orderNext (f v : Nat) : (noteCompletion f v s).orderNext = s.orderNext := (told_noteCompletion ..).orderNext
@[simp] theorem noteCompletion_trans (f v : Nat) : (noteCompletion f v s).trans = s.trans := (told_noteCompletion ..).trans
@[simp] theorem noteCompletion_nss (f v : Nat) : (noteCompletion f v s).nss = s.nss := (told_noteCompletion ..).nss
@[simp] theorem noteCompletion_ftl (f v : Nat) : (noteCompletion f v s).ftl = s.ftl := (told_noteCompletion ..).ftl
@[simp] theorem noteCompletion_ing (f v : Nat) : (noteCompletion f v s).ing = s.ing := (told_noteCompletion ..).ing
@[simp] theorem noteCompletion_mon (f v : Nat) : (noteCompletion f v s).mon = s.mon := (told_noteCompletion ..).mon
@[simp] theorem noteCompletion_ink (f v : Nat) : (noteCompletion f v s).ink = s.ink := (told_noteCompletion ..).ink
@[simp] theorem noteCompletion_fw (f v : Nat) : (noteCompletion f v s).fw = s.fw := (told_noteCompletion ..).fw
@[simp] theorem noteCompletion_duct (f v : Nat) : (noteCompletion f v s).duct = s.duct := (told_noteCompletion ..).duct
@[simp] theorem noteCompletion_crypt (f v : Nat) : (noteCompletion f v s).crypt = s.crypt := (told_noteCompletion ..).crypt
@[simp] theorem noteCompletion_sieve (f v : Nat) : (noteCompletion f v s).sieve = s.sieve := (told_noteCompletion ..).sieve
@[simp] theorem noteCompletion_dram (f v : Nat) : (noteCompletion f v s).dram = s.dram := (told_noteCompletion ..).dram
@[simp] theorem noteCompletion_exports (f v : Nat) : (noteCompletion f v s).exports = s.exports := (told_noteCompletion ..).exports
@[simp] theorem noteCompletion_late (f v : Nat) : (noteCompletion f v s).late = s.late := (told_noteCompletion ..).late
@[simp] theorem noteCompletion_spill (f v : Nat) : (noteCompletion f v s).spill = s.spill := (told_noteCompletion ..).spill
@[simp] theorem noteCompletion_freeCount (f v : Nat) : (noteCompletion f v s).freeCount = s.freeCount := (told_noteCompletion ..).freeCount
@[simp] theorem noteCompletion_pending (f v : Nat) : (noteCompletion f v s).pending = s.pending := (told_noteCompletion ..).pending

@[simp] theorem pushCqe_regs (f q : Nat) (e : Cqe) : (pushCqe f q e s).regs = s.regs := (told_pushCqe ..).regs
@[simp] theorem pushCqe_latch (f q : Nat) (e : Cqe) : (pushCqe f q e s).latch = s.latch := (told_pushCqe ..).latch
@[simp] theorem pushCqe_heldWrites (f q : Nat) (e : Cqe) : (pushCqe f q e s).heldWrites = s.heldWrites := (told_pushCqe ..).heldWrites
@[simp] theorem pushCqe_qos (f q : Nat) (e : Cqe) : (pushCqe f q e s).qos = s.qos := (told_pushCqe ..).qos
@[simp] theorem pushCqe_mode (f q : Nat) (e : Cqe) : (pushCqe f q e s).mode = s.mode := (told_pushCqe ..).mode
@[simp] theorem pushCqe_time (f q : Nat) (e : Cqe) : (pushCqe f q e s).time = s.time := (told_pushCqe ..).time
@[simp] theorem pushCqe_stats (f q : Nat) (e : Cqe) : (pushCqe f q e s).stats = s.stats := (told_pushCqe ..).stats
@[simp] theorem pushCqe_chain (f q : Nat) (e : Cqe) : (pushCqe f q e s).chain = s.chain := (told_pushCqe ..).chain
@[simp] theorem pushCqe_numVfs (f q : Nat) (e : Cqe) : (pushCqe f q e s).numVfs = s.numVfs := (told_pushCqe ..).numVfs
@[simp] theorem pushCqe_cmds (f q : Nat) (e : Cqe) : (pushCqe f q e s).cmds = s.cmds := (told_pushCqe ..).cmds
@[simp] theorem pushCqe_orderNext (f q : Nat) (e : Cqe) : (pushCqe f q e s).orderNext = s.orderNext := (told_pushCqe ..).orderNext
@[simp] theorem pushCqe_trans (f q : Nat) (e : Cqe) : (pushCqe f q e s).trans = s.trans := (told_pushCqe ..).trans
@[simp] theorem pushCqe_nss (f q : Nat) (e : Cqe) : (pushCqe f q e s).nss = s.nss := (told_pushCqe ..).nss
@[simp] theorem pushCqe_ftl (f q : Nat) (e : Cqe) : (pushCqe f q e s).ftl = s.ftl := (told_pushCqe ..).ftl
@[simp] theorem pushCqe_ing (f q : Nat) (e : Cqe) : (pushCqe f q e s).ing = s.ing := (told_pushCqe ..).ing
@[simp] theorem pushCqe_mon (f q : Nat) (e : Cqe) : (pushCqe f q e s).mon = s.mon := (told_pushCqe ..).mon
@[simp] theorem pushCqe_ink (f q : Nat) (e : Cqe) : (pushCqe f q e s).ink = s.ink := (told_pushCqe ..).ink
@[simp] theorem pushCqe_fw (f q : Nat) (e : Cqe) : (pushCqe f q e s).fw = s.fw := (told_pushCqe ..).fw
@[simp] theorem pushCqe_duct (f q : Nat) (e : Cqe) : (pushCqe f q e s).duct = s.duct := (told_pushCqe ..).duct
@[simp] theorem pushCqe_crypt (f q : Nat) (e : Cqe) : (pushCqe f q e s).crypt = s.crypt := (told_pushCqe ..).crypt
@[simp] theorem pushCqe_sieve (f q : Nat) (e : Cqe) : (pushCqe f q e s).sieve = s.sieve := (told_pushCqe ..).sieve
@[simp] theorem pushCqe_dram (f q : Nat) (e : Cqe) : (pushCqe f q e s).dram = s.dram := (told_pushCqe ..).dram
@[simp] theorem pushCqe_exports (f q : Nat) (e : Cqe) : (pushCqe f q e s).exports = s.exports := (told_pushCqe ..).exports
@[simp] theorem pushCqe_late (f q : Nat) (e : Cqe) : (pushCqe f q e s).late = s.late := (told_pushCqe ..).late
@[simp] theorem pushCqe_spill (f q : Nat) (e : Cqe) : (pushCqe f q e s).spill = s.spill := (told_pushCqe ..).spill
@[simp] theorem pushCqe_freeCount (f q : Nat) (e : Cqe) : (pushCqe f q e s).freeCount = s.freeCount := (told_pushCqe ..).freeCount
@[simp] theorem pushCqe_pending (f q : Nat) (e : Cqe) : (pushCqe f q e s).pending = s.pending := (told_pushCqe ..).pending

@[simp] theorem postCqe_regs (f q : Nat) (e : Cqe) : (postCqe f q e s).regs = s.regs := (told_postCqe ..).regs
@[simp] theorem postCqe_latch (f q : Nat) (e : Cqe) : (postCqe f q e s).latch = s.latch := (told_postCqe ..).latch
@[simp] theorem postCqe_heldWrites (f q : Nat) (e : Cqe) : (postCqe f q e s).heldWrites = s.heldWrites := (told_postCqe ..).heldWrites
@[simp] theorem postCqe_qos (f q : Nat) (e : Cqe) : (postCqe f q e s).qos = s.qos := (told_postCqe ..).qos
@[simp] theorem postCqe_mode (f q : Nat) (e : Cqe) : (postCqe f q e s).mode = s.mode := (told_postCqe ..).mode
@[simp] theorem postCqe_time (f q : Nat) (e : Cqe) : (postCqe f q e s).time = s.time := (told_postCqe ..).time
@[simp] theorem postCqe_stats (f q : Nat) (e : Cqe) : (postCqe f q e s).stats = s.stats := (told_postCqe ..).stats
@[simp] theorem postCqe_chain (f q : Nat) (e : Cqe) : (postCqe f q e s).chain = s.chain := (told_postCqe ..).chain
@[simp] theorem postCqe_numVfs (f q : Nat) (e : Cqe) : (postCqe f q e s).numVfs = s.numVfs := (told_postCqe ..).numVfs
@[simp] theorem postCqe_cmds (f q : Nat) (e : Cqe) : (postCqe f q e s).cmds = s.cmds := (told_postCqe ..).cmds
@[simp] theorem postCqe_orderNext (f q : Nat) (e : Cqe) : (postCqe f q e s).orderNext = s.orderNext := (told_postCqe ..).orderNext
@[simp] theorem postCqe_trans (f q : Nat) (e : Cqe) : (postCqe f q e s).trans = s.trans := (told_postCqe ..).trans
@[simp] theorem postCqe_nss (f q : Nat) (e : Cqe) : (postCqe f q e s).nss = s.nss := (told_postCqe ..).nss
@[simp] theorem postCqe_ftl (f q : Nat) (e : Cqe) : (postCqe f q e s).ftl = s.ftl := (told_postCqe ..).ftl
@[simp] theorem postCqe_ing (f q : Nat) (e : Cqe) : (postCqe f q e s).ing = s.ing := (told_postCqe ..).ing
@[simp] theorem postCqe_mon (f q : Nat) (e : Cqe) : (postCqe f q e s).mon = s.mon := (told_postCqe ..).mon
@[simp] theorem postCqe_ink (f q : Nat) (e : Cqe) : (postCqe f q e s).ink = s.ink := (told_postCqe ..).ink
@[simp] theorem postCqe_fw (f q : Nat) (e : Cqe) : (postCqe f q e s).fw = s.fw := (told_postCqe ..).fw
@[simp] theorem postCqe_duct (f q : Nat) (e : Cqe) : (postCqe f q e s).duct = s.duct := (told_postCqe ..).duct
@[simp] theorem postCqe_crypt (f q : Nat) (e : Cqe) : (postCqe f q e s).crypt = s.crypt := (told_postCqe ..).crypt
@[simp] theorem postCqe_sieve (f q : Nat) (e : Cqe) : (postCqe f q e s).sieve = s.sieve := (told_postCqe ..).sieve
@[simp] theorem postCqe_dram (f q : Nat) (e : Cqe) : (postCqe f q e s).dram = s.dram := (told_postCqe ..).dram
@[simp] theorem postCqe_exports (f q : Nat) (e : Cqe) : (postCqe f q e s).exports = s.exports := (told_postCqe ..).exports
@[simp] theorem postCqe_late (f q : Nat) (e : Cqe) : (postCqe f q e s).late = s.late := (told_postCqe ..).late
@[simp] theorem postCqe_spill (f q : Nat) (e : Cqe) : (postCqe f q e s).spill = s.spill := (told_postCqe ..).spill
@[simp] theorem postCqe_freeCount (f q : Nat) (e : Cqe) : (postCqe f q e s).freeCount = s.freeCount := (told_postCqe ..).freeCount
@[simp] theorem postCqe_pending (f q : Nat) (e : Cqe) : (postCqe f q e s).pending = s.pending := (told_postCqe ..).pending

@[simp] theorem drainCq_regs (f q n : Nat) : (drainCq f q n s).regs = s.regs := (told_drainCq ..).regs
@[simp] theorem drainCq_latch (f q n : Nat) : (drainCq f q n s).latch = s.latch := (told_drainCq ..).latch
@[simp] theorem drainCq_heldWrites (f q n : Nat) : (drainCq f q n s).heldWrites = s.heldWrites := (told_drainCq ..).heldWrites
@[simp] theorem drainCq_qos (f q n : Nat) : (drainCq f q n s).qos = s.qos := (told_drainCq ..).qos
@[simp] theorem drainCq_mode (f q n : Nat) : (drainCq f q n s).mode = s.mode := (told_drainCq ..).mode
@[simp] theorem drainCq_time (f q n : Nat) : (drainCq f q n s).time = s.time := (told_drainCq ..).time
@[simp] theorem drainCq_stats (f q n : Nat) : (drainCq f q n s).stats = s.stats := (told_drainCq ..).stats
@[simp] theorem drainCq_chain (f q n : Nat) : (drainCq f q n s).chain = s.chain := (told_drainCq ..).chain
@[simp] theorem drainCq_numVfs (f q n : Nat) : (drainCq f q n s).numVfs = s.numVfs := (told_drainCq ..).numVfs
@[simp] theorem drainCq_cmds (f q n : Nat) : (drainCq f q n s).cmds = s.cmds := (told_drainCq ..).cmds
@[simp] theorem drainCq_orderNext (f q n : Nat) : (drainCq f q n s).orderNext = s.orderNext := (told_drainCq ..).orderNext
@[simp] theorem drainCq_trans (f q n : Nat) : (drainCq f q n s).trans = s.trans := (told_drainCq ..).trans
@[simp] theorem drainCq_nss (f q n : Nat) : (drainCq f q n s).nss = s.nss := (told_drainCq ..).nss
@[simp] theorem drainCq_ftl (f q n : Nat) : (drainCq f q n s).ftl = s.ftl := (told_drainCq ..).ftl
@[simp] theorem drainCq_ing (f q n : Nat) : (drainCq f q n s).ing = s.ing := (told_drainCq ..).ing
@[simp] theorem drainCq_mon (f q n : Nat) : (drainCq f q n s).mon = s.mon := (told_drainCq ..).mon
@[simp] theorem drainCq_ink (f q n : Nat) : (drainCq f q n s).ink = s.ink := (told_drainCq ..).ink
@[simp] theorem drainCq_fw (f q n : Nat) : (drainCq f q n s).fw = s.fw := (told_drainCq ..).fw
@[simp] theorem drainCq_duct (f q n : Nat) : (drainCq f q n s).duct = s.duct := (told_drainCq ..).duct
@[simp] theorem drainCq_crypt (f q n : Nat) : (drainCq f q n s).crypt = s.crypt := (told_drainCq ..).crypt
@[simp] theorem drainCq_sieve (f q n : Nat) : (drainCq f q n s).sieve = s.sieve := (told_drainCq ..).sieve
@[simp] theorem drainCq_dram (f q n : Nat) : (drainCq f q n s).dram = s.dram := (told_drainCq ..).dram
@[simp] theorem drainCq_exports (f q n : Nat) : (drainCq f q n s).exports = s.exports := (told_drainCq ..).exports
@[simp] theorem drainCq_late (f q n : Nat) : (drainCq f q n s).late = s.late := (told_drainCq ..).late
@[simp] theorem drainCq_spill (f q n : Nat) : (drainCq f q n s).spill = s.spill := (told_drainCq ..).spill
@[simp] theorem drainCq_freeCount (f q n : Nat) : (drainCq f q n s).freeCount = s.freeCount := (told_drainCq ..).freeCount
@[simp] theorem drainCq_pending (f q n : Nat) : (drainCq f q n s).pending = s.pending := (told_drainCq ..).pending

@[simp] theorem drainFn_regs (f : Nat) : (drainFn f s).regs = s.regs := (told_drainFn ..).regs
@[simp] theorem drainFn_latch (f : Nat) : (drainFn f s).latch = s.latch := (told_drainFn ..).latch
@[simp] theorem drainFn_heldWrites (f : Nat) : (drainFn f s).heldWrites = s.heldWrites := (told_drainFn ..).heldWrites
@[simp] theorem drainFn_qos (f : Nat) : (drainFn f s).qos = s.qos := (told_drainFn ..).qos
@[simp] theorem drainFn_mode (f : Nat) : (drainFn f s).mode = s.mode := (told_drainFn ..).mode
@[simp] theorem drainFn_time (f : Nat) : (drainFn f s).time = s.time := (told_drainFn ..).time
@[simp] theorem drainFn_stats (f : Nat) : (drainFn f s).stats = s.stats := (told_drainFn ..).stats
@[simp] theorem drainFn_chain (f : Nat) : (drainFn f s).chain = s.chain := (told_drainFn ..).chain
@[simp] theorem drainFn_numVfs (f : Nat) : (drainFn f s).numVfs = s.numVfs := (told_drainFn ..).numVfs
@[simp] theorem drainFn_cmds (f : Nat) : (drainFn f s).cmds = s.cmds := (told_drainFn ..).cmds
@[simp] theorem drainFn_orderNext (f : Nat) : (drainFn f s).orderNext = s.orderNext := (told_drainFn ..).orderNext
@[simp] theorem drainFn_trans (f : Nat) : (drainFn f s).trans = s.trans := (told_drainFn ..).trans
@[simp] theorem drainFn_nss (f : Nat) : (drainFn f s).nss = s.nss := (told_drainFn ..).nss
@[simp] theorem drainFn_ftl (f : Nat) : (drainFn f s).ftl = s.ftl := (told_drainFn ..).ftl
@[simp] theorem drainFn_ing (f : Nat) : (drainFn f s).ing = s.ing := (told_drainFn ..).ing
@[simp] theorem drainFn_mon (f : Nat) : (drainFn f s).mon = s.mon := (told_drainFn ..).mon
@[simp] theorem drainFn_ink (f : Nat) : (drainFn f s).ink = s.ink := (told_drainFn ..).ink
@[simp] theorem drainFn_fw (f : Nat) : (drainFn f s).fw = s.fw := (told_drainFn ..).fw
@[simp] theorem drainFn_duct (f : Nat) : (drainFn f s).duct = s.duct := (told_drainFn ..).duct
@[simp] theorem drainFn_crypt (f : Nat) : (drainFn f s).crypt = s.crypt := (told_drainFn ..).crypt
@[simp] theorem drainFn_sieve (f : Nat) : (drainFn f s).sieve = s.sieve := (told_drainFn ..).sieve
@[simp] theorem drainFn_dram (f : Nat) : (drainFn f s).dram = s.dram := (told_drainFn ..).dram
@[simp] theorem drainFn_exports (f : Nat) : (drainFn f s).exports = s.exports := (told_drainFn ..).exports
@[simp] theorem drainFn_late (f : Nat) : (drainFn f s).late = s.late := (told_drainFn ..).late
@[simp] theorem drainFn_spill (f : Nat) : (drainFn f s).spill = s.spill := (told_drainFn ..).spill
@[simp] theorem drainFn_freeCount (f : Nat) : (drainFn f s).freeCount = s.freeCount := (told_drainFn ..).freeCount
@[simp] theorem drainFn_pending (f : Nat) : (drainFn f s).pending = s.pending := (told_drainFn ..).pending

@[simp] theorem oxvSendOn_regs (l type flags dst : Nat) (p : Bytes) : (oxvSendOn l type flags dst p s).regs = s.regs := (told_oxvSendOn ..).regs
@[simp] theorem oxvSendOn_latch (l type flags dst : Nat) (p : Bytes) : (oxvSendOn l type flags dst p s).latch = s.latch := (told_oxvSendOn ..).latch
@[simp] theorem oxvSendOn_heldWrites (l type flags dst : Nat) (p : Bytes) : (oxvSendOn l type flags dst p s).heldWrites = s.heldWrites := (told_oxvSendOn ..).heldWrites
@[simp] theorem oxvSendOn_qos (l type flags dst : Nat) (p : Bytes) : (oxvSendOn l type flags dst p s).qos = s.qos := (told_oxvSendOn ..).qos
@[simp] theorem oxvSendOn_mode (l type flags dst : Nat) (p : Bytes) : (oxvSendOn l type flags dst p s).mode = s.mode := (told_oxvSendOn ..).mode
@[simp] theorem oxvSendOn_time (l type flags dst : Nat) (p : Bytes) : (oxvSendOn l type flags dst p s).time = s.time := (told_oxvSendOn ..).time
@[simp] theorem oxvSendOn_stats (l type flags dst : Nat) (p : Bytes) : (oxvSendOn l type flags dst p s).stats = s.stats := (told_oxvSendOn ..).stats
@[simp] theorem oxvSendOn_chain (l type flags dst : Nat) (p : Bytes) : (oxvSendOn l type flags dst p s).chain = s.chain := (told_oxvSendOn ..).chain
@[simp] theorem oxvSendOn_numVfs (l type flags dst : Nat) (p : Bytes) : (oxvSendOn l type flags dst p s).numVfs = s.numVfs := (told_oxvSendOn ..).numVfs
@[simp] theorem oxvSendOn_cmds (l type flags dst : Nat) (p : Bytes) : (oxvSendOn l type flags dst p s).cmds = s.cmds := (told_oxvSendOn ..).cmds
@[simp] theorem oxvSendOn_orderNext (l type flags dst : Nat) (p : Bytes) : (oxvSendOn l type flags dst p s).orderNext = s.orderNext := (told_oxvSendOn ..).orderNext
@[simp] theorem oxvSendOn_trans (l type flags dst : Nat) (p : Bytes) : (oxvSendOn l type flags dst p s).trans = s.trans := (told_oxvSendOn ..).trans
@[simp] theorem oxvSendOn_nss (l type flags dst : Nat) (p : Bytes) : (oxvSendOn l type flags dst p s).nss = s.nss := (told_oxvSendOn ..).nss
@[simp] theorem oxvSendOn_ftl (l type flags dst : Nat) (p : Bytes) : (oxvSendOn l type flags dst p s).ftl = s.ftl := (told_oxvSendOn ..).ftl
@[simp] theorem oxvSendOn_ing (l type flags dst : Nat) (p : Bytes) : (oxvSendOn l type flags dst p s).ing = s.ing := (told_oxvSendOn ..).ing
@[simp] theorem oxvSendOn_mon (l type flags dst : Nat) (p : Bytes) : (oxvSendOn l type flags dst p s).mon = s.mon := (told_oxvSendOn ..).mon
@[simp] theorem oxvSendOn_ink (l type flags dst : Nat) (p : Bytes) : (oxvSendOn l type flags dst p s).ink = s.ink := (told_oxvSendOn ..).ink
@[simp] theorem oxvSendOn_fw (l type flags dst : Nat) (p : Bytes) : (oxvSendOn l type flags dst p s).fw = s.fw := (told_oxvSendOn ..).fw
@[simp] theorem oxvSendOn_duct (l type flags dst : Nat) (p : Bytes) : (oxvSendOn l type flags dst p s).duct = s.duct := (told_oxvSendOn ..).duct
@[simp] theorem oxvSendOn_crypt (l type flags dst : Nat) (p : Bytes) : (oxvSendOn l type flags dst p s).crypt = s.crypt := (told_oxvSendOn ..).crypt
@[simp] theorem oxvSendOn_sieve (l type flags dst : Nat) (p : Bytes) : (oxvSendOn l type flags dst p s).sieve = s.sieve := (told_oxvSendOn ..).sieve
@[simp] theorem oxvSendOn_dram (l type flags dst : Nat) (p : Bytes) : (oxvSendOn l type flags dst p s).dram = s.dram := (told_oxvSendOn ..).dram
@[simp] theorem oxvSendOn_exports (l type flags dst : Nat) (p : Bytes) : (oxvSendOn l type flags dst p s).exports = s.exports := (told_oxvSendOn ..).exports
@[simp] theorem oxvSendOn_late (l type flags dst : Nat) (p : Bytes) : (oxvSendOn l type flags dst p s).late = s.late := (told_oxvSendOn ..).late
@[simp] theorem oxvSendOn_spill (l type flags dst : Nat) (p : Bytes) : (oxvSendOn l type flags dst p s).spill = s.spill := (told_oxvSendOn ..).spill
@[simp] theorem oxvSendOn_freeCount (l type flags dst : Nat) (p : Bytes) : (oxvSendOn l type flags dst p s).freeCount = s.freeCount := (told_oxvSendOn ..).freeCount
@[simp] theorem oxvSendOn_pending (l type flags dst : Nat) (p : Bytes) : (oxvSendOn l type flags dst p s).pending = s.pending := (told_oxvSendOn ..).pending

@[simp] theorem oxvSendAll_regs (type flags dst : Nat) (p : Bytes) : (oxvSendAll type flags dst p s).regs = s.regs := (told_oxvSendAll ..).regs
@[simp] theorem oxvSendAll_latch (type flags dst : Nat) (p : Bytes) : (oxvSendAll type flags dst p s).latch = s.latch := (told_oxvSendAll ..).latch
@[simp] theorem oxvSendAll_heldWrites (type flags dst : Nat) (p : Bytes) : (oxvSendAll type flags dst p s).heldWrites = s.heldWrites := (told_oxvSendAll ..).heldWrites
@[simp] theorem oxvSendAll_qos (type flags dst : Nat) (p : Bytes) : (oxvSendAll type flags dst p s).qos = s.qos := (told_oxvSendAll ..).qos
@[simp] theorem oxvSendAll_mode (type flags dst : Nat) (p : Bytes) : (oxvSendAll type flags dst p s).mode = s.mode := (told_oxvSendAll ..).mode
@[simp] theorem oxvSendAll_time (type flags dst : Nat) (p : Bytes) : (oxvSendAll type flags dst p s).time = s.time := (told_oxvSendAll ..).time
@[simp] theorem oxvSendAll_stats (type flags dst : Nat) (p : Bytes) : (oxvSendAll type flags dst p s).stats = s.stats := (told_oxvSendAll ..).stats
@[simp] theorem oxvSendAll_chain (type flags dst : Nat) (p : Bytes) : (oxvSendAll type flags dst p s).chain = s.chain := (told_oxvSendAll ..).chain
@[simp] theorem oxvSendAll_numVfs (type flags dst : Nat) (p : Bytes) : (oxvSendAll type flags dst p s).numVfs = s.numVfs := (told_oxvSendAll ..).numVfs
@[simp] theorem oxvSendAll_cmds (type flags dst : Nat) (p : Bytes) : (oxvSendAll type flags dst p s).cmds = s.cmds := (told_oxvSendAll ..).cmds
@[simp] theorem oxvSendAll_orderNext (type flags dst : Nat) (p : Bytes) : (oxvSendAll type flags dst p s).orderNext = s.orderNext := (told_oxvSendAll ..).orderNext
@[simp] theorem oxvSendAll_trans (type flags dst : Nat) (p : Bytes) : (oxvSendAll type flags dst p s).trans = s.trans := (told_oxvSendAll ..).trans
@[simp] theorem oxvSendAll_nss (type flags dst : Nat) (p : Bytes) : (oxvSendAll type flags dst p s).nss = s.nss := (told_oxvSendAll ..).nss
@[simp] theorem oxvSendAll_ftl (type flags dst : Nat) (p : Bytes) : (oxvSendAll type flags dst p s).ftl = s.ftl := (told_oxvSendAll ..).ftl
@[simp] theorem oxvSendAll_ing (type flags dst : Nat) (p : Bytes) : (oxvSendAll type flags dst p s).ing = s.ing := (told_oxvSendAll ..).ing
@[simp] theorem oxvSendAll_mon (type flags dst : Nat) (p : Bytes) : (oxvSendAll type flags dst p s).mon = s.mon := (told_oxvSendAll ..).mon
@[simp] theorem oxvSendAll_ink (type flags dst : Nat) (p : Bytes) : (oxvSendAll type flags dst p s).ink = s.ink := (told_oxvSendAll ..).ink
@[simp] theorem oxvSendAll_fw (type flags dst : Nat) (p : Bytes) : (oxvSendAll type flags dst p s).fw = s.fw := (told_oxvSendAll ..).fw
@[simp] theorem oxvSendAll_duct (type flags dst : Nat) (p : Bytes) : (oxvSendAll type flags dst p s).duct = s.duct := (told_oxvSendAll ..).duct
@[simp] theorem oxvSendAll_crypt (type flags dst : Nat) (p : Bytes) : (oxvSendAll type flags dst p s).crypt = s.crypt := (told_oxvSendAll ..).crypt
@[simp] theorem oxvSendAll_sieve (type flags dst : Nat) (p : Bytes) : (oxvSendAll type flags dst p s).sieve = s.sieve := (told_oxvSendAll ..).sieve
@[simp] theorem oxvSendAll_dram (type flags dst : Nat) (p : Bytes) : (oxvSendAll type flags dst p s).dram = s.dram := (told_oxvSendAll ..).dram
@[simp] theorem oxvSendAll_exports (type flags dst : Nat) (p : Bytes) : (oxvSendAll type flags dst p s).exports = s.exports := (told_oxvSendAll ..).exports
@[simp] theorem oxvSendAll_late (type flags dst : Nat) (p : Bytes) : (oxvSendAll type flags dst p s).late = s.late := (told_oxvSendAll ..).late
@[simp] theorem oxvSendAll_spill (type flags dst : Nat) (p : Bytes) : (oxvSendAll type flags dst p s).spill = s.spill := (told_oxvSendAll ..).spill
@[simp] theorem oxvSendAll_freeCount (type flags dst : Nat) (p : Bytes) : (oxvSendAll type flags dst p s).freeCount = s.freeCount := (told_oxvSendAll ..).freeCount
@[simp] theorem oxvSendAll_pending (type flags dst : Nat) (p : Bytes) : (oxvSendAll type flags dst p s).pending = s.pending := (told_oxvSendAll ..).pending

@[simp] theorem oxvFlood_regs (type : Nat) (p : Bytes) : (oxvFlood type p s).regs = s.regs := (told_oxvFlood ..).regs
@[simp] theorem oxvFlood_latch (type : Nat) (p : Bytes) : (oxvFlood type p s).latch = s.latch := (told_oxvFlood ..).latch
@[simp] theorem oxvFlood_heldWrites (type : Nat) (p : Bytes) : (oxvFlood type p s).heldWrites = s.heldWrites := (told_oxvFlood ..).heldWrites
@[simp] theorem oxvFlood_qos (type : Nat) (p : Bytes) : (oxvFlood type p s).qos = s.qos := (told_oxvFlood ..).qos
@[simp] theorem oxvFlood_mode (type : Nat) (p : Bytes) : (oxvFlood type p s).mode = s.mode := (told_oxvFlood ..).mode
@[simp] theorem oxvFlood_time (type : Nat) (p : Bytes) : (oxvFlood type p s).time = s.time := (told_oxvFlood ..).time
@[simp] theorem oxvFlood_stats (type : Nat) (p : Bytes) : (oxvFlood type p s).stats = s.stats := (told_oxvFlood ..).stats
@[simp] theorem oxvFlood_chain (type : Nat) (p : Bytes) : (oxvFlood type p s).chain = s.chain := (told_oxvFlood ..).chain
@[simp] theorem oxvFlood_numVfs (type : Nat) (p : Bytes) : (oxvFlood type p s).numVfs = s.numVfs := (told_oxvFlood ..).numVfs
@[simp] theorem oxvFlood_cmds (type : Nat) (p : Bytes) : (oxvFlood type p s).cmds = s.cmds := (told_oxvFlood ..).cmds
@[simp] theorem oxvFlood_orderNext (type : Nat) (p : Bytes) : (oxvFlood type p s).orderNext = s.orderNext := (told_oxvFlood ..).orderNext
@[simp] theorem oxvFlood_trans (type : Nat) (p : Bytes) : (oxvFlood type p s).trans = s.trans := (told_oxvFlood ..).trans
@[simp] theorem oxvFlood_nss (type : Nat) (p : Bytes) : (oxvFlood type p s).nss = s.nss := (told_oxvFlood ..).nss
@[simp] theorem oxvFlood_ftl (type : Nat) (p : Bytes) : (oxvFlood type p s).ftl = s.ftl := (told_oxvFlood ..).ftl
@[simp] theorem oxvFlood_ing (type : Nat) (p : Bytes) : (oxvFlood type p s).ing = s.ing := (told_oxvFlood ..).ing
@[simp] theorem oxvFlood_mon (type : Nat) (p : Bytes) : (oxvFlood type p s).mon = s.mon := (told_oxvFlood ..).mon
@[simp] theorem oxvFlood_ink (type : Nat) (p : Bytes) : (oxvFlood type p s).ink = s.ink := (told_oxvFlood ..).ink
@[simp] theorem oxvFlood_fw (type : Nat) (p : Bytes) : (oxvFlood type p s).fw = s.fw := (told_oxvFlood ..).fw
@[simp] theorem oxvFlood_duct (type : Nat) (p : Bytes) : (oxvFlood type p s).duct = s.duct := (told_oxvFlood ..).duct
@[simp] theorem oxvFlood_crypt (type : Nat) (p : Bytes) : (oxvFlood type p s).crypt = s.crypt := (told_oxvFlood ..).crypt
@[simp] theorem oxvFlood_sieve (type : Nat) (p : Bytes) : (oxvFlood type p s).sieve = s.sieve := (told_oxvFlood ..).sieve
@[simp] theorem oxvFlood_dram (type : Nat) (p : Bytes) : (oxvFlood type p s).dram = s.dram := (told_oxvFlood ..).dram
@[simp] theorem oxvFlood_exports (type : Nat) (p : Bytes) : (oxvFlood type p s).exports = s.exports := (told_oxvFlood ..).exports
@[simp] theorem oxvFlood_late (type : Nat) (p : Bytes) : (oxvFlood type p s).late = s.late := (told_oxvFlood ..).late
@[simp] theorem oxvFlood_spill (type : Nat) (p : Bytes) : (oxvFlood type p s).spill = s.spill := (told_oxvFlood ..).spill
@[simp] theorem oxvFlood_freeCount (type : Nat) (p : Bytes) : (oxvFlood type p s).freeCount = s.freeCount := (told_oxvFlood ..).freeCount
@[simp] theorem oxvFlood_pending (type : Nat) (p : Bytes) : (oxvFlood type p s).pending = s.pending := (told_oxvFlood ..).pending

@[simp] theorem oxvTo_regs (dst type : Nat) (p : Bytes) : (oxvTo dst type p s).regs = s.regs := (told_oxvTo ..).regs
@[simp] theorem oxvTo_latch (dst type : Nat) (p : Bytes) : (oxvTo dst type p s).latch = s.latch := (told_oxvTo ..).latch
@[simp] theorem oxvTo_heldWrites (dst type : Nat) (p : Bytes) : (oxvTo dst type p s).heldWrites = s.heldWrites := (told_oxvTo ..).heldWrites
@[simp] theorem oxvTo_qos (dst type : Nat) (p : Bytes) : (oxvTo dst type p s).qos = s.qos := (told_oxvTo ..).qos
@[simp] theorem oxvTo_mode (dst type : Nat) (p : Bytes) : (oxvTo dst type p s).mode = s.mode := (told_oxvTo ..).mode
@[simp] theorem oxvTo_time (dst type : Nat) (p : Bytes) : (oxvTo dst type p s).time = s.time := (told_oxvTo ..).time
@[simp] theorem oxvTo_stats (dst type : Nat) (p : Bytes) : (oxvTo dst type p s).stats = s.stats := (told_oxvTo ..).stats
@[simp] theorem oxvTo_chain (dst type : Nat) (p : Bytes) : (oxvTo dst type p s).chain = s.chain := (told_oxvTo ..).chain
@[simp] theorem oxvTo_numVfs (dst type : Nat) (p : Bytes) : (oxvTo dst type p s).numVfs = s.numVfs := (told_oxvTo ..).numVfs
@[simp] theorem oxvTo_cmds (dst type : Nat) (p : Bytes) : (oxvTo dst type p s).cmds = s.cmds := (told_oxvTo ..).cmds
@[simp] theorem oxvTo_orderNext (dst type : Nat) (p : Bytes) : (oxvTo dst type p s).orderNext = s.orderNext := (told_oxvTo ..).orderNext
@[simp] theorem oxvTo_trans (dst type : Nat) (p : Bytes) : (oxvTo dst type p s).trans = s.trans := (told_oxvTo ..).trans
@[simp] theorem oxvTo_nss (dst type : Nat) (p : Bytes) : (oxvTo dst type p s).nss = s.nss := (told_oxvTo ..).nss
@[simp] theorem oxvTo_ftl (dst type : Nat) (p : Bytes) : (oxvTo dst type p s).ftl = s.ftl := (told_oxvTo ..).ftl
@[simp] theorem oxvTo_ing (dst type : Nat) (p : Bytes) : (oxvTo dst type p s).ing = s.ing := (told_oxvTo ..).ing
@[simp] theorem oxvTo_mon (dst type : Nat) (p : Bytes) : (oxvTo dst type p s).mon = s.mon := (told_oxvTo ..).mon
@[simp] theorem oxvTo_ink (dst type : Nat) (p : Bytes) : (oxvTo dst type p s).ink = s.ink := (told_oxvTo ..).ink
@[simp] theorem oxvTo_fw (dst type : Nat) (p : Bytes) : (oxvTo dst type p s).fw = s.fw := (told_oxvTo ..).fw
@[simp] theorem oxvTo_duct (dst type : Nat) (p : Bytes) : (oxvTo dst type p s).duct = s.duct := (told_oxvTo ..).duct
@[simp] theorem oxvTo_crypt (dst type : Nat) (p : Bytes) : (oxvTo dst type p s).crypt = s.crypt := (told_oxvTo ..).crypt
@[simp] theorem oxvTo_sieve (dst type : Nat) (p : Bytes) : (oxvTo dst type p s).sieve = s.sieve := (told_oxvTo ..).sieve
@[simp] theorem oxvTo_dram (dst type : Nat) (p : Bytes) : (oxvTo dst type p s).dram = s.dram := (told_oxvTo ..).dram
@[simp] theorem oxvTo_exports (dst type : Nat) (p : Bytes) : (oxvTo dst type p s).exports = s.exports := (told_oxvTo ..).exports
@[simp] theorem oxvTo_late (dst type : Nat) (p : Bytes) : (oxvTo dst type p s).late = s.late := (told_oxvTo ..).late
@[simp] theorem oxvTo_spill (dst type : Nat) (p : Bytes) : (oxvTo dst type p s).spill = s.spill := (told_oxvTo ..).spill
@[simp] theorem oxvTo_freeCount (dst type : Nat) (p : Bytes) : (oxvTo dst type p s).freeCount = s.freeCount := (told_oxvTo ..).freeCount
@[simp] theorem oxvTo_pending (dst type : Nat) (p : Bytes) : (oxvTo dst type p s).pending = s.pending := (told_oxvTo ..).pending

@[simp] theorem complete_regs (f q c : Nat) (st : Status) (a b : Nat) : (complete f q c st a b s).regs = s.regs := (told_complete ..).regs
@[simp] theorem complete_latch (f q c : Nat) (st : Status) (a b : Nat) : (complete f q c st a b s).latch = s.latch := (told_complete ..).latch
@[simp] theorem complete_heldWrites (f q c : Nat) (st : Status) (a b : Nat) : (complete f q c st a b s).heldWrites = s.heldWrites := (told_complete ..).heldWrites
@[simp] theorem complete_qos (f q c : Nat) (st : Status) (a b : Nat) : (complete f q c st a b s).qos = s.qos := (told_complete ..).qos
@[simp] theorem complete_mode (f q c : Nat) (st : Status) (a b : Nat) : (complete f q c st a b s).mode = s.mode := (told_complete ..).mode
@[simp] theorem complete_time (f q c : Nat) (st : Status) (a b : Nat) : (complete f q c st a b s).time = s.time := (told_complete ..).time
@[simp] theorem complete_stats (f q c : Nat) (st : Status) (a b : Nat) : (complete f q c st a b s).stats = s.stats := (told_complete ..).stats
@[simp] theorem complete_chain (f q c : Nat) (st : Status) (a b : Nat) : (complete f q c st a b s).chain = s.chain := (told_complete ..).chain
@[simp] theorem complete_numVfs (f q c : Nat) (st : Status) (a b : Nat) : (complete f q c st a b s).numVfs = s.numVfs := (told_complete ..).numVfs
@[simp] theorem complete_cmds (f q c : Nat) (st : Status) (a b : Nat) : (complete f q c st a b s).cmds = s.cmds := (told_complete ..).cmds
@[simp] theorem complete_orderNext (f q c : Nat) (st : Status) (a b : Nat) : (complete f q c st a b s).orderNext = s.orderNext := (told_complete ..).orderNext
@[simp] theorem complete_trans (f q c : Nat) (st : Status) (a b : Nat) : (complete f q c st a b s).trans = s.trans := (told_complete ..).trans
@[simp] theorem complete_nss (f q c : Nat) (st : Status) (a b : Nat) : (complete f q c st a b s).nss = s.nss := (told_complete ..).nss
@[simp] theorem complete_ftl (f q c : Nat) (st : Status) (a b : Nat) : (complete f q c st a b s).ftl = s.ftl := (told_complete ..).ftl
@[simp] theorem complete_ing (f q c : Nat) (st : Status) (a b : Nat) : (complete f q c st a b s).ing = s.ing := (told_complete ..).ing
@[simp] theorem complete_mon (f q c : Nat) (st : Status) (a b : Nat) : (complete f q c st a b s).mon = s.mon := (told_complete ..).mon
@[simp] theorem complete_ink (f q c : Nat) (st : Status) (a b : Nat) : (complete f q c st a b s).ink = s.ink := (told_complete ..).ink
@[simp] theorem complete_fw (f q c : Nat) (st : Status) (a b : Nat) : (complete f q c st a b s).fw = s.fw := (told_complete ..).fw
@[simp] theorem complete_duct (f q c : Nat) (st : Status) (a b : Nat) : (complete f q c st a b s).duct = s.duct := (told_complete ..).duct
@[simp] theorem complete_crypt (f q c : Nat) (st : Status) (a b : Nat) : (complete f q c st a b s).crypt = s.crypt := (told_complete ..).crypt
@[simp] theorem complete_sieve (f q c : Nat) (st : Status) (a b : Nat) : (complete f q c st a b s).sieve = s.sieve := (told_complete ..).sieve
@[simp] theorem complete_dram (f q c : Nat) (st : Status) (a b : Nat) : (complete f q c st a b s).dram = s.dram := (told_complete ..).dram
@[simp] theorem complete_exports (f q c : Nat) (st : Status) (a b : Nat) : (complete f q c st a b s).exports = s.exports := (told_complete ..).exports
@[simp] theorem complete_late (f q c : Nat) (st : Status) (a b : Nat) : (complete f q c st a b s).late = s.late := (told_complete ..).late
@[simp] theorem complete_spill (f q c : Nat) (st : Status) (a b : Nat) : (complete f q c st a b s).spill = s.spill := (told_complete ..).spill
@[simp] theorem complete_freeCount (f q c : Nat) (st : Status) (a b : Nat) : (complete f q c st a b s).freeCount = s.freeCount := (told_complete ..).freeCount
@[simp] theorem complete_pending (f q c : Nat) (st : Status) (a b : Nat) : (complete f q c st a b s).pending = s.pending := (told_complete ..).pending

@[simp] theorem toFollower_regs (d f q c n : Nat) : (toFollower d f q c n s).regs = s.regs := (told_toFollower ..).regs
@[simp] theorem toFollower_latch (d f q c n : Nat) : (toFollower d f q c n s).latch = s.latch := (told_toFollower ..).latch
@[simp] theorem toFollower_heldWrites (d f q c n : Nat) : (toFollower d f q c n s).heldWrites = s.heldWrites := (told_toFollower ..).heldWrites
@[simp] theorem toFollower_qos (d f q c n : Nat) : (toFollower d f q c n s).qos = s.qos := (told_toFollower ..).qos
@[simp] theorem toFollower_mode (d f q c n : Nat) : (toFollower d f q c n s).mode = s.mode := (told_toFollower ..).mode
@[simp] theorem toFollower_time (d f q c n : Nat) : (toFollower d f q c n s).time = s.time := (told_toFollower ..).time
@[simp] theorem toFollower_stats (d f q c n : Nat) : (toFollower d f q c n s).stats = s.stats := (told_toFollower ..).stats
@[simp] theorem toFollower_chain (d f q c n : Nat) : (toFollower d f q c n s).chain = s.chain := (told_toFollower ..).chain
@[simp] theorem toFollower_numVfs (d f q c n : Nat) : (toFollower d f q c n s).numVfs = s.numVfs := (told_toFollower ..).numVfs
@[simp] theorem toFollower_cmds (d f q c n : Nat) : (toFollower d f q c n s).cmds = s.cmds := (told_toFollower ..).cmds
@[simp] theorem toFollower_orderNext (d f q c n : Nat) : (toFollower d f q c n s).orderNext = s.orderNext := (told_toFollower ..).orderNext
@[simp] theorem toFollower_trans (d f q c n : Nat) : (toFollower d f q c n s).trans = s.trans := (told_toFollower ..).trans
@[simp] theorem toFollower_nss (d f q c n : Nat) : (toFollower d f q c n s).nss = s.nss := (told_toFollower ..).nss
@[simp] theorem toFollower_ftl (d f q c n : Nat) : (toFollower d f q c n s).ftl = s.ftl := (told_toFollower ..).ftl
@[simp] theorem toFollower_ing (d f q c n : Nat) : (toFollower d f q c n s).ing = s.ing := (told_toFollower ..).ing
@[simp] theorem toFollower_mon (d f q c n : Nat) : (toFollower d f q c n s).mon = s.mon := (told_toFollower ..).mon
@[simp] theorem toFollower_ink (d f q c n : Nat) : (toFollower d f q c n s).ink = s.ink := (told_toFollower ..).ink
@[simp] theorem toFollower_fw (d f q c n : Nat) : (toFollower d f q c n s).fw = s.fw := (told_toFollower ..).fw
@[simp] theorem toFollower_duct (d f q c n : Nat) : (toFollower d f q c n s).duct = s.duct := (told_toFollower ..).duct
@[simp] theorem toFollower_crypt (d f q c n : Nat) : (toFollower d f q c n s).crypt = s.crypt := (told_toFollower ..).crypt
@[simp] theorem toFollower_sieve (d f q c n : Nat) : (toFollower d f q c n s).sieve = s.sieve := (told_toFollower ..).sieve
@[simp] theorem toFollower_dram (d f q c n : Nat) : (toFollower d f q c n s).dram = s.dram := (told_toFollower ..).dram
@[simp] theorem toFollower_exports (d f q c n : Nat) : (toFollower d f q c n s).exports = s.exports := (told_toFollower ..).exports
@[simp] theorem toFollower_late (d f q c n : Nat) : (toFollower d f q c n s).late = s.late := (told_toFollower ..).late
@[simp] theorem toFollower_spill (d f q c n : Nat) : (toFollower d f q c n s).spill = s.spill := (told_toFollower ..).spill
@[simp] theorem toFollower_freeCount (d f q c n : Nat) : (toFollower d f q c n s).freeCount = s.freeCount := (told_toFollower ..).freeCount
@[simp] theorem toFollower_pending (d f q c n : Nat) : (toFollower d f q c n s).pending = s.pending := (told_toFollower ..).pending

@[simp] theorem raiseEvent_regs (f : Nat) (e : AsyncEvent) : (raiseEvent f e s).regs = s.regs := (told_raiseEvent ..).regs
@[simp] theorem raiseEvent_latch (f : Nat) (e : AsyncEvent) : (raiseEvent f e s).latch = s.latch := (told_raiseEvent ..).latch
@[simp] theorem raiseEvent_heldWrites (f : Nat) (e : AsyncEvent) : (raiseEvent f e s).heldWrites = s.heldWrites := (told_raiseEvent ..).heldWrites
@[simp] theorem raiseEvent_qos (f : Nat) (e : AsyncEvent) : (raiseEvent f e s).qos = s.qos := (told_raiseEvent ..).qos
@[simp] theorem raiseEvent_mode (f : Nat) (e : AsyncEvent) : (raiseEvent f e s).mode = s.mode := (told_raiseEvent ..).mode
@[simp] theorem raiseEvent_time (f : Nat) (e : AsyncEvent) : (raiseEvent f e s).time = s.time := (told_raiseEvent ..).time
@[simp] theorem raiseEvent_stats (f : Nat) (e : AsyncEvent) : (raiseEvent f e s).stats = s.stats := (told_raiseEvent ..).stats
@[simp] theorem raiseEvent_chain (f : Nat) (e : AsyncEvent) : (raiseEvent f e s).chain = s.chain := (told_raiseEvent ..).chain
@[simp] theorem raiseEvent_numVfs (f : Nat) (e : AsyncEvent) : (raiseEvent f e s).numVfs = s.numVfs := (told_raiseEvent ..).numVfs
@[simp] theorem raiseEvent_cmds (f : Nat) (e : AsyncEvent) : (raiseEvent f e s).cmds = s.cmds := (told_raiseEvent ..).cmds
@[simp] theorem raiseEvent_orderNext (f : Nat) (e : AsyncEvent) : (raiseEvent f e s).orderNext = s.orderNext := (told_raiseEvent ..).orderNext
@[simp] theorem raiseEvent_trans (f : Nat) (e : AsyncEvent) : (raiseEvent f e s).trans = s.trans := (told_raiseEvent ..).trans
@[simp] theorem raiseEvent_nss (f : Nat) (e : AsyncEvent) : (raiseEvent f e s).nss = s.nss := (told_raiseEvent ..).nss
@[simp] theorem raiseEvent_ftl (f : Nat) (e : AsyncEvent) : (raiseEvent f e s).ftl = s.ftl := (told_raiseEvent ..).ftl
@[simp] theorem raiseEvent_ing (f : Nat) (e : AsyncEvent) : (raiseEvent f e s).ing = s.ing := (told_raiseEvent ..).ing
@[simp] theorem raiseEvent_mon (f : Nat) (e : AsyncEvent) : (raiseEvent f e s).mon = s.mon := (told_raiseEvent ..).mon
@[simp] theorem raiseEvent_ink (f : Nat) (e : AsyncEvent) : (raiseEvent f e s).ink = s.ink := (told_raiseEvent ..).ink
@[simp] theorem raiseEvent_fw (f : Nat) (e : AsyncEvent) : (raiseEvent f e s).fw = s.fw := (told_raiseEvent ..).fw
@[simp] theorem raiseEvent_duct (f : Nat) (e : AsyncEvent) : (raiseEvent f e s).duct = s.duct := (told_raiseEvent ..).duct
@[simp] theorem raiseEvent_crypt (f : Nat) (e : AsyncEvent) : (raiseEvent f e s).crypt = s.crypt := (told_raiseEvent ..).crypt
@[simp] theorem raiseEvent_sieve (f : Nat) (e : AsyncEvent) : (raiseEvent f e s).sieve = s.sieve := (told_raiseEvent ..).sieve
@[simp] theorem raiseEvent_dram (f : Nat) (e : AsyncEvent) : (raiseEvent f e s).dram = s.dram := (told_raiseEvent ..).dram
@[simp] theorem raiseEvent_exports (f : Nat) (e : AsyncEvent) : (raiseEvent f e s).exports = s.exports := (told_raiseEvent ..).exports
@[simp] theorem raiseEvent_late (f : Nat) (e : AsyncEvent) : (raiseEvent f e s).late = s.late := (told_raiseEvent ..).late
@[simp] theorem raiseEvent_spill (f : Nat) (e : AsyncEvent) : (raiseEvent f e s).spill = s.spill := (told_raiseEvent ..).spill
@[simp] theorem raiseEvent_freeCount (f : Nat) (e : AsyncEvent) : (raiseEvent f e s).freeCount = s.freeCount := (told_raiseEvent ..).freeCount
@[simp] theorem raiseEvent_pending (f : Nat) (e : AsyncEvent) : (raiseEvent f e s).pending = s.pending := (told_raiseEvent ..).pending

@[simp] theorem vendorEvent_regs (i : Nat) : (vendorEvent i s).regs = s.regs := (told_vendorEvent ..).regs
@[simp] theorem vendorEvent_latch (i : Nat) : (vendorEvent i s).latch = s.latch := (told_vendorEvent ..).latch
@[simp] theorem vendorEvent_heldWrites (i : Nat) : (vendorEvent i s).heldWrites = s.heldWrites := (told_vendorEvent ..).heldWrites
@[simp] theorem vendorEvent_qos (i : Nat) : (vendorEvent i s).qos = s.qos := (told_vendorEvent ..).qos
@[simp] theorem vendorEvent_mode (i : Nat) : (vendorEvent i s).mode = s.mode := (told_vendorEvent ..).mode
@[simp] theorem vendorEvent_time (i : Nat) : (vendorEvent i s).time = s.time := (told_vendorEvent ..).time
@[simp] theorem vendorEvent_stats (i : Nat) : (vendorEvent i s).stats = s.stats := (told_vendorEvent ..).stats
@[simp] theorem vendorEvent_chain (i : Nat) : (vendorEvent i s).chain = s.chain := (told_vendorEvent ..).chain
@[simp] theorem vendorEvent_numVfs (i : Nat) : (vendorEvent i s).numVfs = s.numVfs := (told_vendorEvent ..).numVfs
@[simp] theorem vendorEvent_cmds (i : Nat) : (vendorEvent i s).cmds = s.cmds := (told_vendorEvent ..).cmds
@[simp] theorem vendorEvent_orderNext (i : Nat) : (vendorEvent i s).orderNext = s.orderNext := (told_vendorEvent ..).orderNext
@[simp] theorem vendorEvent_trans (i : Nat) : (vendorEvent i s).trans = s.trans := (told_vendorEvent ..).trans
@[simp] theorem vendorEvent_nss (i : Nat) : (vendorEvent i s).nss = s.nss := (told_vendorEvent ..).nss
@[simp] theorem vendorEvent_ftl (i : Nat) : (vendorEvent i s).ftl = s.ftl := (told_vendorEvent ..).ftl
@[simp] theorem vendorEvent_ing (i : Nat) : (vendorEvent i s).ing = s.ing := (told_vendorEvent ..).ing
@[simp] theorem vendorEvent_mon (i : Nat) : (vendorEvent i s).mon = s.mon := (told_vendorEvent ..).mon
@[simp] theorem vendorEvent_ink (i : Nat) : (vendorEvent i s).ink = s.ink := (told_vendorEvent ..).ink
@[simp] theorem vendorEvent_fw (i : Nat) : (vendorEvent i s).fw = s.fw := (told_vendorEvent ..).fw
@[simp] theorem vendorEvent_duct (i : Nat) : (vendorEvent i s).duct = s.duct := (told_vendorEvent ..).duct
@[simp] theorem vendorEvent_crypt (i : Nat) : (vendorEvent i s).crypt = s.crypt := (told_vendorEvent ..).crypt
@[simp] theorem vendorEvent_sieve (i : Nat) : (vendorEvent i s).sieve = s.sieve := (told_vendorEvent ..).sieve
@[simp] theorem vendorEvent_dram (i : Nat) : (vendorEvent i s).dram = s.dram := (told_vendorEvent ..).dram
@[simp] theorem vendorEvent_exports (i : Nat) : (vendorEvent i s).exports = s.exports := (told_vendorEvent ..).exports
@[simp] theorem vendorEvent_late (i : Nat) : (vendorEvent i s).late = s.late := (told_vendorEvent ..).late
@[simp] theorem vendorEvent_spill (i : Nat) : (vendorEvent i s).spill = s.spill := (told_vendorEvent ..).spill
@[simp] theorem vendorEvent_freeCount (i : Nat) : (vendorEvent i s).freeCount = s.freeCount := (told_vendorEvent ..).freeCount
@[simp] theorem vendorEvent_pending (i : Nat) : (vendorEvent i s).pending = s.pending := (told_vendorEvent ..).pending

@[simp] theorem blot_latch (c v u : Nat) (a : Bytes) : (blot c v u a s).latch = s.latch := (blotted_blot ..).latch
@[simp] theorem blot_heldWrites (c v u : Nat) (a : Bytes) : (blot c v u a s).heldWrites = s.heldWrites := (blotted_blot ..).heldWrites
@[simp] theorem blot_qos (c v u : Nat) (a : Bytes) : (blot c v u a s).qos = s.qos := (blotted_blot ..).qos
@[simp] theorem blot_mode (c v u : Nat) (a : Bytes) : (blot c v u a s).mode = s.mode := (blotted_blot ..).mode
@[simp] theorem blot_time (c v u : Nat) (a : Bytes) : (blot c v u a s).time = s.time := (blotted_blot ..).time
@[simp] theorem blot_stats (c v u : Nat) (a : Bytes) : (blot c v u a s).stats = s.stats := (blotted_blot ..).stats
@[simp] theorem blot_chain (c v u : Nat) (a : Bytes) : (blot c v u a s).chain = s.chain := (blotted_blot ..).chain
@[simp] theorem blot_fns (c v u : Nat) (a : Bytes) : (blot c v u a s).fns = s.fns := (blotted_blot ..).fns
@[simp] theorem blot_numVfs (c v u : Nat) (a : Bytes) : (blot c v u a s).numVfs = s.numVfs := (blotted_blot ..).numVfs
@[simp] theorem blot_cmds (c v u : Nat) (a : Bytes) : (blot c v u a s).cmds = s.cmds := (blotted_blot ..).cmds
@[simp] theorem blot_orderNext (c v u : Nat) (a : Bytes) : (blot c v u a s).orderNext = s.orderNext := (blotted_blot ..).orderNext
@[simp] theorem blot_trans (c v u : Nat) (a : Bytes) : (blot c v u a s).trans = s.trans := (blotted_blot ..).trans
@[simp] theorem blot_nss (c v u : Nat) (a : Bytes) : (blot c v u a s).nss = s.nss := (blotted_blot ..).nss
@[simp] theorem blot_ftl (c v u : Nat) (a : Bytes) : (blot c v u a s).ftl = s.ftl := (blotted_blot ..).ftl
@[simp] theorem blot_ing (c v u : Nat) (a : Bytes) : (blot c v u a s).ing = s.ing := (blotted_blot ..).ing
@[simp] theorem blot_oxv (c v u : Nat) (a : Bytes) : (blot c v u a s).oxv = s.oxv := (blotted_blot ..).oxv
@[simp] theorem blot_ink (c v u : Nat) (a : Bytes) : (blot c v u a s).ink = s.ink := (blotted_blot ..).ink
@[simp] theorem blot_fw (c v u : Nat) (a : Bytes) : (blot c v u a s).fw = s.fw := (blotted_blot ..).fw
@[simp] theorem blot_duct (c v u : Nat) (a : Bytes) : (blot c v u a s).duct = s.duct := (blotted_blot ..).duct
@[simp] theorem blot_crypt (c v u : Nat) (a : Bytes) : (blot c v u a s).crypt = s.crypt := (blotted_blot ..).crypt
@[simp] theorem blot_sieve (c v u : Nat) (a : Bytes) : (blot c v u a s).sieve = s.sieve := (blotted_blot ..).sieve
@[simp] theorem blot_dram (c v u : Nat) (a : Bytes) : (blot c v u a s).dram = s.dram := (blotted_blot ..).dram
@[simp] theorem blot_exports (c v u : Nat) (a : Bytes) : (blot c v u a s).exports = s.exports := (blotted_blot ..).exports
@[simp] theorem blot_late (c v u : Nat) (a : Bytes) : (blot c v u a s).late = s.late := (blotted_blot ..).late
@[simp] theorem blot_spill (c v u : Nat) (a : Bytes) : (blot c v u a s).spill = s.spill := (blotted_blot ..).spill
@[simp] theorem blot_out (c v u : Nat) (a : Bytes) : (blot c v u a s).out = s.out := (blotted_blot ..).out
@[simp] theorem blot_freeCount (c v u : Nat) (a : Bytes) : (blot c v u a s).freeCount = s.freeCount := (blotted_blot ..).freeCount
@[simp] theorem blot_pending (c v u : Nat) (a : Bytes) : (blot c v u a s).pending = s.pending := (blotted_blot ..).pending

@[simp] theorem addRecAt_latch (type d : Nat) (p : Bytes) : (addRecAt type d p s).latch = s.latch := (recorded_addRecAt ..).latch
@[simp] theorem addRecAt_heldWrites (type d : Nat) (p : Bytes) : (addRecAt type d p s).heldWrites = s.heldWrites := (recorded_addRecAt ..).heldWrites
@[simp] theorem addRecAt_qos (type d : Nat) (p : Bytes) : (addRecAt type d p s).qos = s.qos := (recorded_addRecAt ..).qos
@[simp] theorem addRecAt_mode (type d : Nat) (p : Bytes) : (addRecAt type d p s).mode = s.mode := (recorded_addRecAt ..).mode
@[simp] theorem addRecAt_time (type d : Nat) (p : Bytes) : (addRecAt type d p s).time = s.time := (recorded_addRecAt ..).time
@[simp] theorem addRecAt_stats (type d : Nat) (p : Bytes) : (addRecAt type d p s).stats = s.stats := (recorded_addRecAt ..).stats
@[simp] theorem addRecAt_fns (type d : Nat) (p : Bytes) : (addRecAt type d p s).fns = s.fns := (recorded_addRecAt ..).fns
@[simp] theorem addRecAt_numVfs (type d : Nat) (p : Bytes) : (addRecAt type d p s).numVfs = s.numVfs := (recorded_addRecAt ..).numVfs
@[simp] theorem addRecAt_cmds (type d : Nat) (p : Bytes) : (addRecAt type d p s).cmds = s.cmds := (recorded_addRecAt ..).cmds
@[simp] theorem addRecAt_orderNext (type d : Nat) (p : Bytes) : (addRecAt type d p s).orderNext = s.orderNext := (recorded_addRecAt ..).orderNext
@[simp] theorem addRecAt_trans (type d : Nat) (p : Bytes) : (addRecAt type d p s).trans = s.trans := (recorded_addRecAt ..).trans
@[simp] theorem addRecAt_nss (type d : Nat) (p : Bytes) : (addRecAt type d p s).nss = s.nss := (recorded_addRecAt ..).nss
@[simp] theorem addRecAt_ftl (type d : Nat) (p : Bytes) : (addRecAt type d p s).ftl = s.ftl := (recorded_addRecAt ..).ftl
@[simp] theorem addRecAt_ing (type d : Nat) (p : Bytes) : (addRecAt type d p s).ing = s.ing := (recorded_addRecAt ..).ing
@[simp] theorem addRecAt_oxv (type d : Nat) (p : Bytes) : (addRecAt type d p s).oxv = s.oxv := (recorded_addRecAt ..).oxv
@[simp] theorem addRecAt_ink (type d : Nat) (p : Bytes) : (addRecAt type d p s).ink = s.ink := (recorded_addRecAt ..).ink
@[simp] theorem addRecAt_fw (type d : Nat) (p : Bytes) : (addRecAt type d p s).fw = s.fw := (recorded_addRecAt ..).fw
@[simp] theorem addRecAt_duct (type d : Nat) (p : Bytes) : (addRecAt type d p s).duct = s.duct := (recorded_addRecAt ..).duct
@[simp] theorem addRecAt_crypt (type d : Nat) (p : Bytes) : (addRecAt type d p s).crypt = s.crypt := (recorded_addRecAt ..).crypt
@[simp] theorem addRecAt_sieve (type d : Nat) (p : Bytes) : (addRecAt type d p s).sieve = s.sieve := (recorded_addRecAt ..).sieve
@[simp] theorem addRecAt_dram (type d : Nat) (p : Bytes) : (addRecAt type d p s).dram = s.dram := (recorded_addRecAt ..).dram
@[simp] theorem addRecAt_exports (type d : Nat) (p : Bytes) : (addRecAt type d p s).exports = s.exports := (recorded_addRecAt ..).exports
@[simp] theorem addRecAt_late (type d : Nat) (p : Bytes) : (addRecAt type d p s).late = s.late := (recorded_addRecAt ..).late
@[simp] theorem addRecAt_spill (type d : Nat) (p : Bytes) : (addRecAt type d p s).spill = s.spill := (recorded_addRecAt ..).spill
@[simp] theorem addRecAt_out (type d : Nat) (p : Bytes) : (addRecAt type d p s).out = s.out := (recorded_addRecAt ..).out
@[simp] theorem addRecAt_freeCount (type d : Nat) (p : Bytes) : (addRecAt type d p s).freeCount = s.freeCount := (recorded_addRecAt ..).freeCount
@[simp] theorem addRecAt_pending (type d : Nat) (p : Bytes) : (addRecAt type d p s).pending = s.pending := (recorded_addRecAt ..).pending

@[simp] theorem addRec_latch (type : Nat) (p : Bytes) : (addRec type p s).latch = s.latch := (recorded_addRec ..).latch
@[simp] theorem addRec_heldWrites (type : Nat) (p : Bytes) : (addRec type p s).heldWrites = s.heldWrites := (recorded_addRec ..).heldWrites
@[simp] theorem addRec_qos (type : Nat) (p : Bytes) : (addRec type p s).qos = s.qos := (recorded_addRec ..).qos
@[simp] theorem addRec_mode (type : Nat) (p : Bytes) : (addRec type p s).mode = s.mode := (recorded_addRec ..).mode
@[simp] theorem addRec_time (type : Nat) (p : Bytes) : (addRec type p s).time = s.time := (recorded_addRec ..).time
@[simp] theorem addRec_stats (type : Nat) (p : Bytes) : (addRec type p s).stats = s.stats := (recorded_addRec ..).stats
@[simp] theorem addRec_fns (type : Nat) (p : Bytes) : (addRec type p s).fns = s.fns := (recorded_addRec ..).fns
@[simp] theorem addRec_numVfs (type : Nat) (p : Bytes) : (addRec type p s).numVfs = s.numVfs := (recorded_addRec ..).numVfs
@[simp] theorem addRec_cmds (type : Nat) (p : Bytes) : (addRec type p s).cmds = s.cmds := (recorded_addRec ..).cmds
@[simp] theorem addRec_orderNext (type : Nat) (p : Bytes) : (addRec type p s).orderNext = s.orderNext := (recorded_addRec ..).orderNext
@[simp] theorem addRec_trans (type : Nat) (p : Bytes) : (addRec type p s).trans = s.trans := (recorded_addRec ..).trans
@[simp] theorem addRec_nss (type : Nat) (p : Bytes) : (addRec type p s).nss = s.nss := (recorded_addRec ..).nss
@[simp] theorem addRec_ftl (type : Nat) (p : Bytes) : (addRec type p s).ftl = s.ftl := (recorded_addRec ..).ftl
@[simp] theorem addRec_ing (type : Nat) (p : Bytes) : (addRec type p s).ing = s.ing := (recorded_addRec ..).ing
@[simp] theorem addRec_oxv (type : Nat) (p : Bytes) : (addRec type p s).oxv = s.oxv := (recorded_addRec ..).oxv
@[simp] theorem addRec_ink (type : Nat) (p : Bytes) : (addRec type p s).ink = s.ink := (recorded_addRec ..).ink
@[simp] theorem addRec_fw (type : Nat) (p : Bytes) : (addRec type p s).fw = s.fw := (recorded_addRec ..).fw
@[simp] theorem addRec_duct (type : Nat) (p : Bytes) : (addRec type p s).duct = s.duct := (recorded_addRec ..).duct
@[simp] theorem addRec_crypt (type : Nat) (p : Bytes) : (addRec type p s).crypt = s.crypt := (recorded_addRec ..).crypt
@[simp] theorem addRec_sieve (type : Nat) (p : Bytes) : (addRec type p s).sieve = s.sieve := (recorded_addRec ..).sieve
@[simp] theorem addRec_dram (type : Nat) (p : Bytes) : (addRec type p s).dram = s.dram := (recorded_addRec ..).dram
@[simp] theorem addRec_exports (type : Nat) (p : Bytes) : (addRec type p s).exports = s.exports := (recorded_addRec ..).exports
@[simp] theorem addRec_late (type : Nat) (p : Bytes) : (addRec type p s).late = s.late := (recorded_addRec ..).late
@[simp] theorem addRec_spill (type : Nat) (p : Bytes) : (addRec type p s).spill = s.spill := (recorded_addRec ..).spill
@[simp] theorem addRec_out (type : Nat) (p : Bytes) : (addRec type p s).out = s.out := (recorded_addRec ..).out
@[simp] theorem addRec_freeCount (type : Nat) (p : Bytes) : (addRec type p s).freeCount = s.freeCount := (recorded_addRec ..).freeCount
@[simp] theorem addRec_pending (type : Nat) (p : Bytes) : (addRec type p s).pending = s.pending := (recorded_addRec ..).pending

@[simp] theorem anchorRec_latch (k c : Nat) : (anchorRec k c s).latch = s.latch := (recorded_anchorRec ..).latch
@[simp] theorem anchorRec_heldWrites (k c : Nat) : (anchorRec k c s).heldWrites = s.heldWrites := (recorded_anchorRec ..).heldWrites
@[simp] theorem anchorRec_qos (k c : Nat) : (anchorRec k c s).qos = s.qos := (recorded_anchorRec ..).qos
@[simp] theorem anchorRec_mode (k c : Nat) : (anchorRec k c s).mode = s.mode := (recorded_anchorRec ..).mode
@[simp] theorem anchorRec_time (k c : Nat) : (anchorRec k c s).time = s.time := (recorded_anchorRec ..).time
@[simp] theorem anchorRec_stats (k c : Nat) : (anchorRec k c s).stats = s.stats := (recorded_anchorRec ..).stats
@[simp] theorem anchorRec_fns (k c : Nat) : (anchorRec k c s).fns = s.fns := (recorded_anchorRec ..).fns
@[simp] theorem anchorRec_numVfs (k c : Nat) : (anchorRec k c s).numVfs = s.numVfs := (recorded_anchorRec ..).numVfs
@[simp] theorem anchorRec_cmds (k c : Nat) : (anchorRec k c s).cmds = s.cmds := (recorded_anchorRec ..).cmds
@[simp] theorem anchorRec_orderNext (k c : Nat) : (anchorRec k c s).orderNext = s.orderNext := (recorded_anchorRec ..).orderNext
@[simp] theorem anchorRec_trans (k c : Nat) : (anchorRec k c s).trans = s.trans := (recorded_anchorRec ..).trans
@[simp] theorem anchorRec_nss (k c : Nat) : (anchorRec k c s).nss = s.nss := (recorded_anchorRec ..).nss
@[simp] theorem anchorRec_ftl (k c : Nat) : (anchorRec k c s).ftl = s.ftl := (recorded_anchorRec ..).ftl
@[simp] theorem anchorRec_ing (k c : Nat) : (anchorRec k c s).ing = s.ing := (recorded_anchorRec ..).ing
@[simp] theorem anchorRec_oxv (k c : Nat) : (anchorRec k c s).oxv = s.oxv := (recorded_anchorRec ..).oxv
@[simp] theorem anchorRec_ink (k c : Nat) : (anchorRec k c s).ink = s.ink := (recorded_anchorRec ..).ink
@[simp] theorem anchorRec_fw (k c : Nat) : (anchorRec k c s).fw = s.fw := (recorded_anchorRec ..).fw
@[simp] theorem anchorRec_duct (k c : Nat) : (anchorRec k c s).duct = s.duct := (recorded_anchorRec ..).duct
@[simp] theorem anchorRec_crypt (k c : Nat) : (anchorRec k c s).crypt = s.crypt := (recorded_anchorRec ..).crypt
@[simp] theorem anchorRec_sieve (k c : Nat) : (anchorRec k c s).sieve = s.sieve := (recorded_anchorRec ..).sieve
@[simp] theorem anchorRec_dram (k c : Nat) : (anchorRec k c s).dram = s.dram := (recorded_anchorRec ..).dram
@[simp] theorem anchorRec_exports (k c : Nat) : (anchorRec k c s).exports = s.exports := (recorded_anchorRec ..).exports
@[simp] theorem anchorRec_late (k c : Nat) : (anchorRec k c s).late = s.late := (recorded_anchorRec ..).late
@[simp] theorem anchorRec_spill (k c : Nat) : (anchorRec k c s).spill = s.spill := (recorded_anchorRec ..).spill
@[simp] theorem anchorRec_out (k c : Nat) : (anchorRec k c s).out = s.out := (recorded_anchorRec ..).out
@[simp] theorem anchorRec_freeCount (k c : Nat) : (anchorRec k c s).freeCount = s.freeCount := (recorded_anchorRec ..).freeCount
@[simp] theorem anchorRec_pending (k c : Nat) : (anchorRec k c s).pending = s.pending := (recorded_anchorRec ..).pending

@[simp] theorem faultRec_latch (c u n d : Nat) : (faultRec c u n d s).latch = s.latch := (recorded_faultRec ..).latch
@[simp] theorem faultRec_heldWrites (c u n d : Nat) : (faultRec c u n d s).heldWrites = s.heldWrites := (recorded_faultRec ..).heldWrites
@[simp] theorem faultRec_qos (c u n d : Nat) : (faultRec c u n d s).qos = s.qos := (recorded_faultRec ..).qos
@[simp] theorem faultRec_mode (c u n d : Nat) : (faultRec c u n d s).mode = s.mode := (recorded_faultRec ..).mode
@[simp] theorem faultRec_time (c u n d : Nat) : (faultRec c u n d s).time = s.time := (recorded_faultRec ..).time
@[simp] theorem faultRec_stats (c u n d : Nat) : (faultRec c u n d s).stats = s.stats := (recorded_faultRec ..).stats
@[simp] theorem faultRec_fns (c u n d : Nat) : (faultRec c u n d s).fns = s.fns := (recorded_faultRec ..).fns
@[simp] theorem faultRec_numVfs (c u n d : Nat) : (faultRec c u n d s).numVfs = s.numVfs := (recorded_faultRec ..).numVfs
@[simp] theorem faultRec_cmds (c u n d : Nat) : (faultRec c u n d s).cmds = s.cmds := (recorded_faultRec ..).cmds
@[simp] theorem faultRec_orderNext (c u n d : Nat) : (faultRec c u n d s).orderNext = s.orderNext := (recorded_faultRec ..).orderNext
@[simp] theorem faultRec_trans (c u n d : Nat) : (faultRec c u n d s).trans = s.trans := (recorded_faultRec ..).trans
@[simp] theorem faultRec_nss (c u n d : Nat) : (faultRec c u n d s).nss = s.nss := (recorded_faultRec ..).nss
@[simp] theorem faultRec_ftl (c u n d : Nat) : (faultRec c u n d s).ftl = s.ftl := (recorded_faultRec ..).ftl
@[simp] theorem faultRec_ing (c u n d : Nat) : (faultRec c u n d s).ing = s.ing := (recorded_faultRec ..).ing
@[simp] theorem faultRec_oxv (c u n d : Nat) : (faultRec c u n d s).oxv = s.oxv := (recorded_faultRec ..).oxv
@[simp] theorem faultRec_ink (c u n d : Nat) : (faultRec c u n d s).ink = s.ink := (recorded_faultRec ..).ink
@[simp] theorem faultRec_fw (c u n d : Nat) : (faultRec c u n d s).fw = s.fw := (recorded_faultRec ..).fw
@[simp] theorem faultRec_duct (c u n d : Nat) : (faultRec c u n d s).duct = s.duct := (recorded_faultRec ..).duct
@[simp] theorem faultRec_crypt (c u n d : Nat) : (faultRec c u n d s).crypt = s.crypt := (recorded_faultRec ..).crypt
@[simp] theorem faultRec_sieve (c u n d : Nat) : (faultRec c u n d s).sieve = s.sieve := (recorded_faultRec ..).sieve
@[simp] theorem faultRec_dram (c u n d : Nat) : (faultRec c u n d s).dram = s.dram := (recorded_faultRec ..).dram
@[simp] theorem faultRec_exports (c u n d : Nat) : (faultRec c u n d s).exports = s.exports := (recorded_faultRec ..).exports
@[simp] theorem faultRec_late (c u n d : Nat) : (faultRec c u n d s).late = s.late := (recorded_faultRec ..).late
@[simp] theorem faultRec_spill (c u n d : Nat) : (faultRec c u n d s).spill = s.spill := (recorded_faultRec ..).spill
@[simp] theorem faultRec_out (c u n d : Nat) : (faultRec c u n d s).out = s.out := (recorded_faultRec ..).out
@[simp] theorem faultRec_freeCount (c u n d : Nat) : (faultRec c u n d s).freeCount = s.freeCount := (recorded_faultRec ..).freeCount
@[simp] theorem faultRec_pending (c u n d : Nat) : (faultRec c u n d s).pending = s.pending := (recorded_faultRec ..).pending

@[simp] theorem namespaceRec_latch (n a t : Nat) : (namespaceRec n a t s).latch = s.latch := (recorded_namespaceRec ..).latch
@[simp] theorem namespaceRec_heldWrites (n a t : Nat) : (namespaceRec n a t s).heldWrites = s.heldWrites := (recorded_namespaceRec ..).heldWrites
@[simp] theorem namespaceRec_qos (n a t : Nat) : (namespaceRec n a t s).qos = s.qos := (recorded_namespaceRec ..).qos
@[simp] theorem namespaceRec_mode (n a t : Nat) : (namespaceRec n a t s).mode = s.mode := (recorded_namespaceRec ..).mode
@[simp] theorem namespaceRec_time (n a t : Nat) : (namespaceRec n a t s).time = s.time := (recorded_namespaceRec ..).time
@[simp] theorem namespaceRec_stats (n a t : Nat) : (namespaceRec n a t s).stats = s.stats := (recorded_namespaceRec ..).stats
@[simp] theorem namespaceRec_fns (n a t : Nat) : (namespaceRec n a t s).fns = s.fns := (recorded_namespaceRec ..).fns
@[simp] theorem namespaceRec_numVfs (n a t : Nat) : (namespaceRec n a t s).numVfs = s.numVfs := (recorded_namespaceRec ..).numVfs
@[simp] theorem namespaceRec_cmds (n a t : Nat) : (namespaceRec n a t s).cmds = s.cmds := (recorded_namespaceRec ..).cmds
@[simp] theorem namespaceRec_orderNext (n a t : Nat) : (namespaceRec n a t s).orderNext = s.orderNext := (recorded_namespaceRec ..).orderNext
@[simp] theorem namespaceRec_trans (n a t : Nat) : (namespaceRec n a t s).trans = s.trans := (recorded_namespaceRec ..).trans
@[simp] theorem namespaceRec_nss (n a t : Nat) : (namespaceRec n a t s).nss = s.nss := (recorded_namespaceRec ..).nss
@[simp] theorem namespaceRec_ftl (n a t : Nat) : (namespaceRec n a t s).ftl = s.ftl := (recorded_namespaceRec ..).ftl
@[simp] theorem namespaceRec_ing (n a t : Nat) : (namespaceRec n a t s).ing = s.ing := (recorded_namespaceRec ..).ing
@[simp] theorem namespaceRec_oxv (n a t : Nat) : (namespaceRec n a t s).oxv = s.oxv := (recorded_namespaceRec ..).oxv
@[simp] theorem namespaceRec_ink (n a t : Nat) : (namespaceRec n a t s).ink = s.ink := (recorded_namespaceRec ..).ink
@[simp] theorem namespaceRec_fw (n a t : Nat) : (namespaceRec n a t s).fw = s.fw := (recorded_namespaceRec ..).fw
@[simp] theorem namespaceRec_duct (n a t : Nat) : (namespaceRec n a t s).duct = s.duct := (recorded_namespaceRec ..).duct
@[simp] theorem namespaceRec_crypt (n a t : Nat) : (namespaceRec n a t s).crypt = s.crypt := (recorded_namespaceRec ..).crypt
@[simp] theorem namespaceRec_sieve (n a t : Nat) : (namespaceRec n a t s).sieve = s.sieve := (recorded_namespaceRec ..).sieve
@[simp] theorem namespaceRec_dram (n a t : Nat) : (namespaceRec n a t s).dram = s.dram := (recorded_namespaceRec ..).dram
@[simp] theorem namespaceRec_exports (n a t : Nat) : (namespaceRec n a t s).exports = s.exports := (recorded_namespaceRec ..).exports
@[simp] theorem namespaceRec_late (n a t : Nat) : (namespaceRec n a t s).late = s.late := (recorded_namespaceRec ..).late
@[simp] theorem namespaceRec_spill (n a t : Nat) : (namespaceRec n a t s).spill = s.spill := (recorded_namespaceRec ..).spill
@[simp] theorem namespaceRec_out (n a t : Nat) : (namespaceRec n a t s).out = s.out := (recorded_namespaceRec ..).out
@[simp] theorem namespaceRec_freeCount (n a t : Nat) : (namespaceRec n a t s).freeCount = s.freeCount := (recorded_namespaceRec ..).freeCount
@[simp] theorem namespaceRec_pending (n a t : Nat) : (namespaceRec n a t s).pending = s.pending := (recorded_namespaceRec ..).pending

@[simp] theorem modeRec_latch (a b c f : Nat) (n : Bytes) : (modeRec a b c f n s).latch = s.latch := (recorded_modeRec ..).latch
@[simp] theorem modeRec_heldWrites (a b c f : Nat) (n : Bytes) : (modeRec a b c f n s).heldWrites = s.heldWrites := (recorded_modeRec ..).heldWrites
@[simp] theorem modeRec_qos (a b c f : Nat) (n : Bytes) : (modeRec a b c f n s).qos = s.qos := (recorded_modeRec ..).qos
@[simp] theorem modeRec_mode (a b c f : Nat) (n : Bytes) : (modeRec a b c f n s).mode = s.mode := (recorded_modeRec ..).mode
@[simp] theorem modeRec_time (a b c f : Nat) (n : Bytes) : (modeRec a b c f n s).time = s.time := (recorded_modeRec ..).time
@[simp] theorem modeRec_stats (a b c f : Nat) (n : Bytes) : (modeRec a b c f n s).stats = s.stats := (recorded_modeRec ..).stats
@[simp] theorem modeRec_fns (a b c f : Nat) (n : Bytes) : (modeRec a b c f n s).fns = s.fns := (recorded_modeRec ..).fns
@[simp] theorem modeRec_numVfs (a b c f : Nat) (n : Bytes) : (modeRec a b c f n s).numVfs = s.numVfs := (recorded_modeRec ..).numVfs
@[simp] theorem modeRec_cmds (a b c f : Nat) (n : Bytes) : (modeRec a b c f n s).cmds = s.cmds := (recorded_modeRec ..).cmds
@[simp] theorem modeRec_orderNext (a b c f : Nat) (n : Bytes) : (modeRec a b c f n s).orderNext = s.orderNext := (recorded_modeRec ..).orderNext
@[simp] theorem modeRec_trans (a b c f : Nat) (n : Bytes) : (modeRec a b c f n s).trans = s.trans := (recorded_modeRec ..).trans
@[simp] theorem modeRec_nss (a b c f : Nat) (n : Bytes) : (modeRec a b c f n s).nss = s.nss := (recorded_modeRec ..).nss
@[simp] theorem modeRec_ftl (a b c f : Nat) (n : Bytes) : (modeRec a b c f n s).ftl = s.ftl := (recorded_modeRec ..).ftl
@[simp] theorem modeRec_ing (a b c f : Nat) (n : Bytes) : (modeRec a b c f n s).ing = s.ing := (recorded_modeRec ..).ing
@[simp] theorem modeRec_oxv (a b c f : Nat) (n : Bytes) : (modeRec a b c f n s).oxv = s.oxv := (recorded_modeRec ..).oxv
@[simp] theorem modeRec_ink (a b c f : Nat) (n : Bytes) : (modeRec a b c f n s).ink = s.ink := (recorded_modeRec ..).ink
@[simp] theorem modeRec_fw (a b c f : Nat) (n : Bytes) : (modeRec a b c f n s).fw = s.fw := (recorded_modeRec ..).fw
@[simp] theorem modeRec_duct (a b c f : Nat) (n : Bytes) : (modeRec a b c f n s).duct = s.duct := (recorded_modeRec ..).duct
@[simp] theorem modeRec_crypt (a b c f : Nat) (n : Bytes) : (modeRec a b c f n s).crypt = s.crypt := (recorded_modeRec ..).crypt
@[simp] theorem modeRec_sieve (a b c f : Nat) (n : Bytes) : (modeRec a b c f n s).sieve = s.sieve := (recorded_modeRec ..).sieve
@[simp] theorem modeRec_dram (a b c f : Nat) (n : Bytes) : (modeRec a b c f n s).dram = s.dram := (recorded_modeRec ..).dram
@[simp] theorem modeRec_exports (a b c f : Nat) (n : Bytes) : (modeRec a b c f n s).exports = s.exports := (recorded_modeRec ..).exports
@[simp] theorem modeRec_late (a b c f : Nat) (n : Bytes) : (modeRec a b c f n s).late = s.late := (recorded_modeRec ..).late
@[simp] theorem modeRec_spill (a b c f : Nat) (n : Bytes) : (modeRec a b c f n s).spill = s.spill := (recorded_modeRec ..).spill
@[simp] theorem modeRec_out (a b c f : Nat) (n : Bytes) : (modeRec a b c f n s).out = s.out := (recorded_modeRec ..).out
@[simp] theorem modeRec_freeCount (a b c f : Nat) (n : Bytes) : (modeRec a b c f n s).freeCount = s.freeCount := (recorded_modeRec ..).freeCount
@[simp] theorem modeRec_pending (a b c f : Nat) (n : Bytes) : (modeRec a b c f n s).pending = s.pending := (recorded_modeRec ..).pending

@[simp] theorem setLockState_latch (v : Nat) : (setLockState v s).latch = s.latch := (recorded_setLockState ..).latch
@[simp] theorem setLockState_heldWrites (v : Nat) : (setLockState v s).heldWrites = s.heldWrites := (recorded_setLockState ..).heldWrites
@[simp] theorem setLockState_qos (v : Nat) : (setLockState v s).qos = s.qos := (recorded_setLockState ..).qos
@[simp] theorem setLockState_mode (v : Nat) : (setLockState v s).mode = s.mode := (recorded_setLockState ..).mode
@[simp] theorem setLockState_time (v : Nat) : (setLockState v s).time = s.time := (recorded_setLockState ..).time
@[simp] theorem setLockState_stats (v : Nat) : (setLockState v s).stats = s.stats := (recorded_setLockState ..).stats
@[simp] theorem setLockState_fns (v : Nat) : (setLockState v s).fns = s.fns := (recorded_setLockState ..).fns
@[simp] theorem setLockState_numVfs (v : Nat) : (setLockState v s).numVfs = s.numVfs := (recorded_setLockState ..).numVfs
@[simp] theorem setLockState_cmds (v : Nat) : (setLockState v s).cmds = s.cmds := (recorded_setLockState ..).cmds
@[simp] theorem setLockState_orderNext (v : Nat) : (setLockState v s).orderNext = s.orderNext := (recorded_setLockState ..).orderNext
@[simp] theorem setLockState_trans (v : Nat) : (setLockState v s).trans = s.trans := (recorded_setLockState ..).trans
@[simp] theorem setLockState_nss (v : Nat) : (setLockState v s).nss = s.nss := (recorded_setLockState ..).nss
@[simp] theorem setLockState_ftl (v : Nat) : (setLockState v s).ftl = s.ftl := (recorded_setLockState ..).ftl
@[simp] theorem setLockState_ing (v : Nat) : (setLockState v s).ing = s.ing := (recorded_setLockState ..).ing
@[simp] theorem setLockState_oxv (v : Nat) : (setLockState v s).oxv = s.oxv := (recorded_setLockState ..).oxv
@[simp] theorem setLockState_ink (v : Nat) : (setLockState v s).ink = s.ink := (recorded_setLockState ..).ink
@[simp] theorem setLockState_fw (v : Nat) : (setLockState v s).fw = s.fw := (recorded_setLockState ..).fw
@[simp] theorem setLockState_duct (v : Nat) : (setLockState v s).duct = s.duct := (recorded_setLockState ..).duct
@[simp] theorem setLockState_crypt (v : Nat) : (setLockState v s).crypt = s.crypt := (recorded_setLockState ..).crypt
@[simp] theorem setLockState_sieve (v : Nat) : (setLockState v s).sieve = s.sieve := (recorded_setLockState ..).sieve
@[simp] theorem setLockState_dram (v : Nat) : (setLockState v s).dram = s.dram := (recorded_setLockState ..).dram
@[simp] theorem setLockState_exports (v : Nat) : (setLockState v s).exports = s.exports := (recorded_setLockState ..).exports
@[simp] theorem setLockState_late (v : Nat) : (setLockState v s).late = s.late := (recorded_setLockState ..).late
@[simp] theorem setLockState_spill (v : Nat) : (setLockState v s).spill = s.spill := (recorded_setLockState ..).spill
@[simp] theorem setLockState_out (v : Nat) : (setLockState v s).out = s.out := (recorded_setLockState ..).out
@[simp] theorem setLockState_freeCount (v : Nat) : (setLockState v s).freeCount = s.freeCount := (recorded_setLockState ..).freeCount
@[simp] theorem setLockState_pending (v : Nat) : (setLockState v s).pending = s.pending := (recorded_setLockState ..).pending

/-! ### Registers -/

/-- What a completion or a signal leaves in the registers. -/
theorem Told.getF {s t : State} (h : Told s t) (f : Fld) : getF t f = getF s f := by obtain ⟨_, _, _, rfl⟩ := h; rfl

@[simp] theorem getF_complete (f q c : Nat) (st : Status) (a b : Nat) (g : Fld) : getF (complete f q c st a b s) g = getF s g :=
  (told_complete ..).getF g

@[simp] theorem getF_raiseEvent (f : Nat) (e : AsyncEvent) (g : Fld) : getF (raiseEvent f e s) g = getF s g :=
  (told_raiseEvent ..).getF g

end Sys2Proof.Machine
end

