-- ==== Sys2Proof/WellFormed.lean ====
section
/-!
DEFINITION. Well-formed commands: the operands that the interfaces of the part can express (spec/02_stroke_and_domain_time.md R7,
spec/03 R50, spec/08 R161, spec/19 R429, R431, spec/20 R446), and the fraction of a stroke at which a command falls.
-/

namespace Sys2Proof

/-- A submission entry: one of the 128 functions, a 16-bit queue and CID, a 32-bit NSID. -/
def Sqe.wf (q : Sqe) : Bool := q.fn < 128 && q.sqid < 65536 && q.cid < 65536 && q.nsid < 2 ^ 32 && q.fuse < 4

/-- An operation of a Nib core: one of the 32 cores, one of the four units. -/
def NibOp.wf (o : NibOp) : Bool := o.core < 32 && o.unit < 4

/-- The header of an Oxvia frame: one of the four links, 9-bit device IDs. -/
def OxvHdr.wf (h : OxvHdr) : Bool := h.link < 4 && h.dst < 512 && h.src < 512

/-- A fraction of a stroke (R7). -/
def inStroke (frac : Nat) : Bool := frac < 65536

/-- The operands are ones the interfaces can express. -/
def Instr.wf : Instr → Bool
  | .strokeBoundary _ => true
  | .summaryPost _ => true
  | .vectorSignal fn _ => decide (fn < 128)
  | .pounceCommit frac _ _ _ _ => inStroke frac && true
  | .flourishSigned frac => inStroke frac && true
  | .laneParityFail frac x => inStroke frac && decide (x.lane < 17)
  | .referenceEdge frac _ _ => inStroke frac && true
  | .referenceLost frac _ => inStroke frac && true
  | .acquireLocked frac => inStroke frac && true
  | .holdoverLimit frac => inStroke frac && true
  | .ptpMessage frac port _ _ => inStroke frac && decide (port < 4)
  | .marksMissing frac => inStroke frac && true
  | .appendHoldExpiry fn sqid cid => decide (fn < 128) && decide (sqid < 65536) && decide (cid < 65536)
  | .linkTrained frac _ _ _ _ _ => inStroke frac && true
  | .linkDown frac => inStroke frac && true
  | .hotReset frac => inStroke frac && true
  | .perstAssert frac => inStroke frac && true
  | .perstDeassert frac => inStroke frac && true
  | .retrain => true
  | .linkAttnTimeout => true
  | .noIrqTimeout => true
  | .attentionBurst => true
  | .msixUnmask fn _ => decide (fn < 128)
  | .dStateChange fn _ => decide (fn < 128)
  | .numvfsWrite _ => true
  | .dmaReadFault fn sqid cid => decide (fn < 128) && decide (sqid < 65536) && decide (cid < 65536)
  | .completionTimeout fn sqid cid => decide (fn < 128) && decide (sqid < 65536) && decide (cid < 65536)
  | .dmaWriteRejected fn sqid cid => decide (fn < 128) && decide (sqid < 65536) && decide (cid < 65536)
  | .writeDataArrived fn sqid cid _ => decide (fn < 128) && decide (sqid < 65536) && decide (cid < 65536)
  | .sqTailDoorbell frac fn sqid _ => inStroke frac && (decide (fn < 128) && decide (sqid < 65536))
  | .cqHeadDoorbell fn cqid _ => decide (fn < 128) && decide (cqid < 65536)
  | .ccEnSet fn _ _ _ _ _ _ => decide (fn < 128)
  | .ccEnClear frac fn => inStroke frac && decide (fn < 128)
  | .flrInitiate frac fn => inStroke frac && decide (fn < 128)
  | .flrCommit => true
  | .identify q _ _ => q.wf
  | .getFeatures q _ _ _ => q.wf
  | .setFeatures q _ _ _ _ => q.wf
  | .getLogPage q _ _ _ _ _ => q.wf
  | .createIoSq q sqid _ _ cqid _ _ => q.wf && decide (sqid < 65536) && decide (cqid < 65536)
  | .createIoCq q cqid _ _ _ _ _ => q.wf && decide (cqid < 65536)
  | .deleteIoSq q sqid => q.wf && decide (sqid < 65536)
  | .deleteIoCq q cqid => q.wf && decide (cqid < 65536)
  | .abortCmd q sqid cid => q.wf && decide (sqid < 65536) && decide (cid < 65536)
  | .asyncEventRequest q => q.wf
  | .namespaceCreate q _ => q.wf
  | .namespaceDelete q => q.wf
  | .namespaceAttach q _ => q.wf
  | .namespaceDetach q _ => q.wf
  | .unitTransitionCommit => true
  | .vmAssignResources q _ _ _ _ => q.wf
  | .vmOnline q _ => q.wf
  | .vmOffline q _ => q.wf
  | .formatNvm q _ _ => q.wf
  | .formatDone nsid => decide (nsid < 2 ^ 32)
  | .sanitizeCryptoErase q => q.wf
  | .sanitizeBlockErase q => q.wf
  | .sanitizeDone => true
  | .deviceSelfTest q _ => q.wf
  | .directiveSend q _ _ _ _ => q.wf
  | .directiveReceive q _ _ _ _ => q.wf
  | .nvmeMiSend q _ _ _ _ => q.wf
  | .nvmeMiReceive q _ _ _ => q.wf
  | .firmwareDownload q _ _ _ _ => q.wf
  | .firmwareCommit q _ _ => q.wf
  | .activateBegin => true
  | .activateEnd frac _ _ => inStroke frac && true
  | .readCmd q _ _ => q.wf
  | .writeCmd q _ _ _ _ => q.wf
  | .compareCmd q _ _ _ => q.wf
  | .verifyCmd q _ _ => q.wf
  | .writeZeroes q _ _ _ => q.wf
  | .datasetManagement q _ _ => q.wf
  | .deallocatePass => true
  | .flushCmd q => q.wf
  | .sealedAppend q _ _ _ => q.wf
  | .verifyRange q _ _ _ => q.wf
  | .proofRead q _ _ _ => q.wf
  | .holdPlace q _ _ _ => q.wf
  | .holdQuery q _ _ => q.wf
  | .exportBundle q _ _ _ _ _ _ _ _ => q.wf
  | .exportCookieLapse => true
  | .releaseCmd q _ _ => q.wf
  | .releaseDryrun q _ _ => q.wf
  | .graphLoad q _ _ _ _ => q.wf
  | .graphRelease q _ _ _ _ => q.wf
  | .graphStart q _ _ _ => q.wf
  | .graphResult q _ _ _ _ => q.wf
  | .flowBind q _ _ => q.wf
  | .flowUnbind q _ _ _ => q.wf
  | .flowModify q _ _ _ => q.wf
  | .ringBind q _ _ _ _ => q.wf
  | .ringRemove q _ _ _ => q.wf
  | .bindCommit => true
  | .keyBlobLoad q _ _ _ _ => q.wf
  | .domainConfigure q _ _ => q.wf
  | .domainRealign q => q.wf
  | .domainCommit => true
  | .domainPrepareTimeout => true
  | .modeRequest q _ _ => q.wf
  | .modeTransitionBegin => true
  | .modeTransitionDone frac => inStroke frac && true
  | .orderlyStop => true
  | .orderlyStopDrainTimeout frac => inStroke frac && true
  | .parkBurst => true
  | .parkChannelIdle => true
  | .wakeTimer => true
  | .ignitionOffDelay => true
  | .deviceReset => true
  | .scribeWatchdog _ => true
  | .droopTrip frac _ => inStroke frac && true
  | .droopRestore frac => inStroke frac && true
  | .thermalSample frac _ => inStroke frac && true
  | .thermalStepDown => true
  | .sensorFail sensor _ => decide (sensor < 24)
  | .vmonSample frac _ => inStroke frac && true
  | .vmonOvervoltage mon _ => decide (mon < 32)
  | .vmonSelfCheck _ => true
  | .pmonMeasure _ => true
  | .evtSample frac _ => inStroke frac && true
  | .logClear => true
  | .pfailTrip frac => inStroke frac && true
  | .pfailGlitch frac _ => inStroke frac && true
  | .holdSenseTrip frac _ => inStroke frac && true
  | .railUndervoltage frac mon _ => inStroke frac && decide (mon < 32)
  | .dieLinkFail frac => inStroke frac && true
  | .holdArmChange frac _ => inStroke frac && true
  | .sealInflightDeadline => true
  | .sealEnd frac _ _ _ => inStroke frac && true
  | .alwaysOnPowerApplied => true
  | .alwaysOnResetEnd => true
  | .computeRailsGood => true
  | .powerUpTimeout => true
  | .mediaBringupStart _ _ _ _ => true
  | .alwaysOnPowerLost => true
  | .mountComplete frac _ => inStroke frac && true
  | .nb5210ScanComplete _ => true
  | .bootCopyDone _ _ _ => true
  | .nandStatusPoll die => decide (die < 256)
  | .nandReadDone die _ => decide (die < 256)
  | .nandProgramDone die _ => decide (die < 256)
  | .nandEraseDone die _ => decide (die < 256)
  | .nandTimeout die => decide (die < 256)
  | .operationSuspend x => inStroke x.frac && decide (x.die < 256)
  | .dqsRecenter channel _ => decide (channel < 16)
  | .deepDecodeDone frac _ => inStroke frac && true
  | .stripeRebuildDone frac die _ => inStroke frac && decide (die < 256)
  | .dieRebuildDone die => decide (die < 256)
  | .nodeDispatch frac _ _ _ => inStroke frac && true
  | .nodeEnd frac _ _ _ => inStroke frac && true
  | .nodePreempt frac _ => inStroke frac && true
  | .nodeWaitTimeout _ _ => true
  | .nibInterrupt frac _ => inStroke frac && true
  | .nibMachineCheck frac _ => inStroke frac && true
  | .digestGroupDone frac _ _ => inStroke frac && true
  | .compressBlockDone _ _ _ => true
  | .sieveLookup _ _ => true
  | .sieveWrite _ _ => true
  | .sieveInsert _ _ => true
  | .sieveInvalidate _ _ => true
  | .sieveRead _ _ => true
  | .sieveScan _ => true
  | .sieveGo _ => true
  | .sieveNext => true
  | .feedOpen _ => true
  | .feedData word => decide (word < 2 ^ 32)
  | .feedLast word => decide (word < 2 ^ 32)
  | .feedAbort => true
  | .feedDone _ => true
  | .slotClear _ _ => true
  | .dramFreqRequest _ => true
  | .dramRetrainGather frac _ => inStroke frac && true
  | .dramGatherEnd frac => inStroke frac && true
  | .dramRefreshPoll _ _ => true
  | .dramRequestPromote _ _ _ => true
  | .dramUe _ _ _ _ => true
  | .inkwellUe _ _ => true
  | .inkProgram _ _ _ => true
  | .inkErase _ _ => true
  | .inkRead _ _ _ => true
  | .inkOpDone bank _ _ => decide (bank < 2)
  | .settingsSave => true
  | .settingsSaveTimer => true
  | .portEnable port => decide (port < 4)
  | .portLinkUp frac port x => inStroke frac && (decide (port < 4) && (x.mbps == 10 || x.mbps == 100 || x.mbps == 1000))
  | .portLinkLost frac port => inStroke frac && decide (port < 4)
  | .txPolarityToggle port _ => decide (port < 4)
  | .arpRequest port _ _ _ => decide (port < 4)
  | .neighbourSolicitation port _ _ _ => decide (port < 4)
  | .frameReceived frac port _ _ _ _ => inStroke frac && decide (port < 4)
  | .silentTimeout frac _ => inStroke frac && true
  | .oxvLinkUp frac link _ _ _ => inStroke frac && decide (link < 4)
  | .oxvLinkDown frac link => inStroke frac && decide (link < 4)
  | .markFrame frac h _ _ _ _ _ _ _ _ => inStroke frac && h.wf
  | .delayReq link _ => decide (link < 4)
  | .delayResp link _ => decide (link < 4)
  | .helloFrame link _ _ _ _ => decide (link < 4)
  | .fdFrame h _ _ _ => h.wf
  | .controlFrame h _ => h.wf
  | .oxvStatusFrame h _ _ _ _ _ _ _ => h.wf
  | .mirrorFrame h nsid _ _ _ => h.wf && decide (nsid < 2 ^ 32)
  | .mirrorAck h nsid _ => h.wf && decide (nsid < 2 ^ 32)
  | .proxyFrame h _ => h.wf
  | .nakFrame link _ => decide (link < 4)
  | .replayTimeout link => decide (link < 4)
  | .memberUnreachable _ => true
  | .remoteGo value => decide (value < 2 ^ 32)
  | .miReadDataStructure _ port _ => decide (port < 4)
  | .miSubsystemHealthPoll _ => true
  | .miControllerHealthPoll _ _ => true
  | .miConfigurationSet cid port _ => decide (cid < 65536) && decide (port < 4)
  | .miConfigurationGet cid port => decide (cid < 65536) && decide (port < 4)
  | .miVpdRead _ _ => true
  | .miVpdWrite _ _ => true
  | .miReset => true
  | .miAdminTunnel _ _ _ => true
  | .latchedReadLo _ => true
  | .registerWrite _ value _ => decide (value < 2 ^ 32)
  | .nop o => o.wf
  | .add o => o.wf
  | .addc o => o.wf
  | .adds o => o.wf
  | .sub o => o.wf
  | .subb o => o.wf
  | .subs o => o.wf
  | .neg o => o.wf
  | .negs o => o.wf
  | .abs o => o.wf
  | .abss o => o.wf
  | .cmp o => o.wf
  | .cmpc o => o.wf
  | .andOp o => o.wf
  | .orOp o => o.wf
  | .xor o => o.wf
  | .andn o => o.wf
  | .notOp o => o.wf
  | .mov o => o.wf
  | .minOp o => o.wf
  | .maxOp o => o.wf
  | .minu o => o.wf
  | .maxu o => o.wf
  | .sel o => o.wf
  | .sext8 o => o.wf
  | .zext8 o => o.wf
  | .clz o => o.wf
  | .popc o => o.wf
  | .tst o => o.wf
  | .movf o => o.wf
  | .movt o => o.wf
  | .ldi o => o.wf
  | .mul o => o.wf
  | .mull o => o.wf
  | .mullu o => o.wf
  | .mulq o => o.wf
  | .mulqr o => o.wf
  | .mac o => o.wf
  | .macs o => o.wf
  | .shl o => o.wf
  | .shr o => o.wf
  | .sar o => o.wf
  | .asl o => o.wf
  | .rol o => o.wf
  | .ror o => o.wf
  | .divs o => o.wf
  | .divu o => o.wf
  | .shl32 o => o.wf
  | .shr32 o => o.wf
  | .sar32 o => o.wf
  | .extu o => o.wf
  | .exts o => o.wf
  | .ld o => o.wf
  | .st o => o.wf
  | .ldpi o => o.wf
  | .stpi o => o.wf
  | .lds o => o.wf
  | .sts o => o.wf
  | .ldp o => o.wf
  | .stp o => o.wf
  | .branch o => o.wf
  | .call o => o.wf
  | .callx o => o.wf
  | .jmpx o => o.wf
  | .ret o => o.wf
  | .rett o => o.wf
  | .repi o => o.wf
  | .repn o => o.wf
  | .trap o => o.wf
  | .mfc o => o.wf
  | .mtc o => o.wf
  | .haltOp o => o.wf
  | .wait o => o.wf
  | .bar o => o.wf
  | .crystalStops => true
  | .referenceWaitExpiry => true
  | .busMasterEnable fn _ => decide (fn < 128)
  | .autonomousPowerStateTransition fn => decide (fn < 128)
  | .scribeMemoryUe _ => true
  | .missedSync link _ => decide (link < 4)
  | .oxvBadFrame link _ _ _ => decide (link < 4)

/-- The fraction of the stroke at which the command falls; 0 where its row does not say. -/
def Instr.frac : Instr → Nat
  | .strokeBoundary _ => 0
  | .summaryPost _ => 0
  | .vectorSignal _ _ => 0
  | .pounceCommit frac _ _ _ _ => frac
  | .flourishSigned frac => frac
  | .laneParityFail frac _ => frac
  | .referenceEdge frac _ _ => frac
  | .referenceLost frac _ => frac
  | .acquireLocked frac => frac
  | .holdoverLimit frac => frac
  | .ptpMessage frac _ _ _ => frac
  | .marksMissing frac => frac
  | .appendHoldExpiry _ _ _ => 0
  | .linkTrained frac _ _ _ _ _ => frac
  | .linkDown frac => frac
  | .hotReset frac => frac
  | .perstAssert frac => frac
  | .perstDeassert frac => frac
  | .retrain => 0
  | .linkAttnTimeout => 0
  | .noIrqTimeout => 0
  | .attentionBurst => 0
  | .msixUnmask _ _ => 0
  | .dStateChange _ _ => 0
  | .numvfsWrite _ => 0
  | .dmaReadFault _ _ _ => 0
  | .completionTimeout _ _ _ => 0
  | .dmaWriteRejected _ _ _ => 0
  | .writeDataArrived _ _ _ _ => 0
  | .sqTailDoorbell frac _ _ _ => frac
  | .cqHeadDoorbell _ _ _ => 0
  | .ccEnSet _ _ _ _ _ _ _ => 0
  | .ccEnClear frac _ => frac
  | .flrInitiate frac _ => frac
  | .flrCommit => 0
  | .identify _ _ _ => 0
  | .getFeatures _ _ _ _ => 0
  | .setFeatures _ _ _ _ _ => 0
  | .getLogPage _ _ _ _ _ _ => 0
  | .createIoSq _ _ _ _ _ _ _ => 0
  | .createIoCq _ _ _ _ _ _ _ => 0
  | .deleteIoSq _ _ => 0
  | .deleteIoCq _ _ => 0
  | .abortCmd _ _ _ => 0
  | .asyncEventRequest _ => 0
  | .namespaceCreate _ _ => 0
  | .namespaceDelete _ => 0
  | .namespaceAttach _ _ => 0
  | .namespaceDetach _ _ => 0
  | .unitTransitionCommit => 0
  | .vmAssignResources _ _ _ _ _ => 0
  | .vmOnline _ _ => 0
  | .vmOffline _ _ => 0
  | .formatNvm _ _ _ => 0
  | .formatDone _ => 0
  | .sanitizeCryptoErase _ => 0
  | .sanitizeBlockErase _ => 0
  | .sanitizeDone => 0
  | .deviceSelfTest _ _ => 0
  | .directiveSend _ _ _ _ _ => 0
  | .directiveReceive _ _ _ _ _ => 0
  | .nvmeMiSend _ _ _ _ _ => 0
  | .nvmeMiReceive _ _ _ _ => 0
  | .firmwareDownload _ _ _ _ _ => 0
  | .firmwareCommit _ _ _ => 0
  | .activateBegin => 0
  | .activateEnd frac _ _ => frac
  | .readCmd _ _ _ => 0
  | .writeCmd _ _ _ _ _ => 0
  | .compareCmd _ _ _ _ => 0
  | .verifyCmd _ _ _ => 0
  | .writeZeroes _ _ _ _ => 0
  | .datasetManagement _ _ _ => 0
  | .deallocatePass => 0
  | .flushCmd _ => 0
  | .sealedAppend _ _ _ _ => 0
  | .verifyRange _ _ _ _ => 0
  | .proofRead _ _ _ _ => 0
  | .holdPlace _ _ _ _ => 0
  | .holdQuery _ _ _ => 0
  | .exportBundle _ _ _ _ _ _ _ _ _ => 0
  | .exportCookieLapse => 0
  | .releaseCmd _ _ _ => 0
  | .releaseDryrun _ _ _ => 0
  | .graphLoad _ _ _ _ _ => 0
  | .graphRelease _ _ _ _ _ => 0
  | .graphStart _ _ _ _ => 0
  | .graphResult _ _ _ _ _ => 0
  | .flowBind _ _ _ => 0
  | .flowUnbind _ _ _ _ => 0
  | .flowModify _ _ _ _ => 0
  | .ringBind _ _ _ _ _ => 0
  | .ringRemove _ _ _ _ => 0
  | .bindCommit => 0
  | .keyBlobLoad _ _ _ _ _ => 0
  | .domainConfigure _ _ _ => 0
  | .domainRealign _ => 0
  | .domainCommit => 0
  | .domainPrepareTimeout => 0
  | .modeRequest _ _ _ => 0
  | .modeTransitionBegin => 0
  | .modeTransitionDone frac => frac
  | .orderlyStop => 0
  | .orderlyStopDrainTimeout frac => frac
  | .parkBurst => 0
  | .parkChannelIdle => 0
  | .wakeTimer => 0
  | .ignitionOffDelay => 0
  | .deviceReset => 0
  | .scribeWatchdog _ => 0
  | .droopTrip frac _ => frac
  | .droopRestore frac => frac
  | .thermalSample frac _ => frac
  | .thermalStepDown => 0
  | .sensorFail _ _ => 0
  | .vmonSample frac _ => frac
  | .vmonOvervoltage _ _ => 0
  | .vmonSelfCheck _ => 0
  | .pmonMeasure _ => 0
  | .evtSample frac _ => frac
  | .logClear => 0
  | .pfailTrip frac => frac
  | .pfailGlitch frac _ => frac
  | .holdSenseTrip frac _ => frac
  | .railUndervoltage frac _ _ => frac
  | .dieLinkFail frac => frac
  | .holdArmChange frac _ => frac
  | .sealInflightDeadline => 0
  | .sealEnd frac _ _ _ => frac
  | .alwaysOnPowerApplied => 0
  | .alwaysOnResetEnd => 0
  | .computeRailsGood => 0
  | .powerUpTimeout => 0
  | .mediaBringupStart _ _ _ _ => 0
  | .alwaysOnPowerLost => 0
  | .mountComplete frac _ => frac
  | .nb5210ScanComplete _ => 0
  | .bootCopyDone _ _ _ => 0
  | .nandStatusPoll _ => 0
  | .nandReadDone _ _ => 0
  | .nandProgramDone _ _ => 0
  | .nandEraseDone _ _ => 0
  | .nandTimeout _ => 0
  | .operationSuspend x => x.frac
  | .dqsRecenter _ _ => 0
  | .deepDecodeDone frac _ => frac
  | .stripeRebuildDone frac _ _ => frac
  | .dieRebuildDone _ => 0
  | .nodeDispatch frac _ _ _ => frac
  | .nodeEnd frac _ _ _ => frac
  | .nodePreempt frac _ => frac
  | .nodeWaitTimeout _ _ => 0
  | .nibInterrupt frac _ => frac
  | .nibMachineCheck frac _ => frac
  | .digestGroupDone frac _ _ => frac
  | .compressBlockDone _ _ _ => 0
  | .sieveLookup _ _ => 0
  | .sieveWrite _ _ => 0
  | .sieveInsert _ _ => 0
  | .sieveInvalidate _ _ => 0
  | .sieveRead _ _ => 0
  | .sieveScan _ => 0
  | .sieveGo _ => 0
  | .sieveNext => 0
  | .feedOpen _ => 0
  | .feedData _ => 0
  | .feedLast _ => 0
  | .feedAbort => 0
  | .feedDone _ => 0
  | .slotClear _ _ => 0
  | .dramFreqRequest _ => 0
  | .dramRetrainGather frac _ => frac
  | .dramGatherEnd frac => frac
  | .dramRefreshPoll _ _ => 0
  | .dramRequestPromote _ _ _ => 0
  | .dramUe _ _ _ _ => 0
  | .inkwellUe _ _ => 0
  | .inkProgram _ _ _ => 0
  | .inkErase _ _ => 0
  | .inkRead _ _ _ => 0
  | .inkOpDone _ _ _ => 0
  | .settingsSave => 0
  | .settingsSaveTimer => 0
  | .portEnable _ => 0
  | .portLinkUp frac _ _ => frac
  | .portLinkLost frac _ => frac
  | .txPolarityToggle _ _ => 0
  | .arpRequest _ _ _ _ => 0
  | .neighbourSolicitation _ _ _ _ => 0
  | .frameReceived frac _ _ _ _ _ => frac
  | .silentTimeout frac _ => frac
  | .oxvLinkUp frac _ _ _ _ => frac
  | .oxvLinkDown frac _ => frac
  | .markFrame frac _ _ _ _ _ _ _ _ _ => frac
  | .delayReq _ _ => 0
  | .delayResp _ _ => 0
  | .helloFrame _ _ _ _ _ => 0
  | .fdFrame _ _ _ _ => 0
  | .controlFrame _ _ => 0
  | .oxvStatusFrame _ _ _ _ _ _ _ _ => 0
  | .mirrorFrame _ _ _ _ _ => 0
  | .mirrorAck _ _ _ => 0
  | .proxyFrame _ _ => 0
  | .nakFrame _ _ => 0
  | .replayTimeout _ => 0
  | .memberUnreachable _ => 0
  | .remoteGo _ => 0
  | .miReadDataStructure _ _ _ => 0
  | .miSubsystemHealthPoll _ => 0
  | .miControllerHealthPoll _ _ => 0
  | .miConfigurationSet _ _ _ => 0
  | .miConfigurationGet _ _ => 0
  | .miVpdRead _ _ => 0
  | .miVpdWrite _ _ => 0
  | .miReset => 0
  | .miAdminTunnel _ _ _ => 0
  | .latchedReadLo _ => 0
  | .registerWrite _ _ _ => 0
  | .nop _ => 0
  | .add _ => 0
  | .addc _ => 0
  | .adds _ => 0
  | .sub _ => 0
  | .subb _ => 0
  | .subs _ => 0
  | .neg _ => 0
  | .negs _ => 0
  | .abs _ => 0
  | .abss _ => 0
  | .cmp _ => 0
  | .cmpc _ => 0
  | .andOp _ => 0
  | .orOp _ => 0
  | .xor _ => 0
  | .andn _ => 0
  | .notOp _ => 0
  | .mov _ => 0
  | .minOp _ => 0
  | .maxOp _ => 0
  | .minu _ => 0
  | .maxu _ => 0
  | .sel _ => 0
  | .sext8 _ => 0
  | .zext8 _ => 0
  | .clz _ => 0
  | .popc _ => 0
  | .tst _ => 0
  | .movf _ => 0
  | .movt _ => 0
  | .ldi _ => 0
  | .mul _ => 0
  | .mull _ => 0
  | .mullu _ => 0
  | .mulq _ => 0
  | .mulqr _ => 0
  | .mac _ => 0
  | .macs _ => 0
  | .shl _ => 0
  | .shr _ => 0
  | .sar _ => 0
  | .asl _ => 0
  | .rol _ => 0
  | .ror _ => 0
  | .divs _ => 0
  | .divu _ => 0
  | .shl32 _ => 0
  | .shr32 _ => 0
  | .sar32 _ => 0
  | .extu _ => 0
  | .exts _ => 0
  | .ld _ => 0
  | .st _ => 0
  | .ldpi _ => 0
  | .stpi _ => 0
  | .lds _ => 0
  | .sts _ => 0
  | .ldp _ => 0
  | .stp _ => 0
  | .branch _ => 0
  | .call _ => 0
  | .callx _ => 0
  | .jmpx _ => 0
  | .ret _ => 0
  | .rett _ => 0
  | .repi _ => 0
  | .repn _ => 0
  | .trap _ => 0
  | .mfc _ => 0
  | .mtc _ => 0
  | .haltOp _ => 0
  | .wait _ => 0
  | .bar _ => 0
  | .crystalStops => 0
  | .referenceWaitExpiry => 0
  | .busMasterEnable _ _ => 0
  | .autonomousPowerStateTransition _ => 0
  | .scribeMemoryUe _ => 0
  | .missedSync _ _ => 0
  | .oxvBadFrame _ _ _ _ => 0

end Sys2Proof
end

