-- ==== Sys2Proof/Laws/PerInstr.lean ====
section
/-!
SUPPORT. One lemma for each command: a well-formed command falls inside a stroke (spec/02_stroke_and_domain_time.md R7).
-/

namespace Sys2Proof.Laws.Frac

/-- A well-formed command falls at a fraction of a stroke. -/
def Statement (i : Instr) : Prop := i.wf = true → i.frac < 65536

/-- The first check of a timed command. -/
theorem of_inStroke {frac : Nat} {b : Bool} (h : (inStroke frac && b) = true) : frac < 65536 := by
  simp only [Bool.and_eq_true, inStroke, decide_eq_true_eq] at h
  exact h.1

theorem strokeBoundary (katFail : List Nat) : Statement (.strokeBoundary katFail) := fun _ => Nat.succ_pos 65535
theorem summaryPost (cons : List (Nat × Nat)) : Statement (.summaryPost cons) := fun _ => Nat.succ_pos 65535
theorem vectorSignal (fn : Nat) (vec : Nat) : Statement (.vectorSignal fn vec) := fun _ => Nat.succ_pos 65535
theorem pounceCommit (frac : Nat) (flag : Nat) (flag2 : Nat) (attempts : Nat) (loserB : Bool) : Statement (.pounceCommit frac flag flag2 attempts loserB) := of_inStroke
theorem flourishSigned (frac : Nat) : Statement (.flourishSigned frac) := of_inStroke
theorem laneParityFail (frac : Nat) (check : LaneCheck) : Statement (.laneParityFail frac check) := of_inStroke
theorem referenceEdge (frac : Nat) (edge : RefEdge) (offsetNs : Int) : Statement (.referenceEdge frac edge offsetNs) := of_inStroke
theorem referenceLost (frac : Nat) (absent : Nat) : Statement (.referenceLost frac absent) := of_inStroke
theorem acquireLocked (frac : Nat) : Statement (.acquireLocked frac) := of_inStroke
theorem holdoverLimit (frac : Nat) : Statement (.holdoverLimit frac) := of_inStroke
theorem ptpMessage (frac : Nat) (port : Nat) (hdr : PtpHdr) (msg : PtpMsg) : Statement (.ptpMessage frac port hdr msg) := of_inStroke
theorem marksMissing (frac : Nat) : Statement (.marksMissing frac) := of_inStroke
theorem appendHoldExpiry (fn : Nat) (sqid : Nat) (cid : Nat) : Statement (.appendHoldExpiry fn sqid cid) := fun _ => Nat.succ_pos 65535
theorem linkTrained (frac : Nat) (speed : Nat) (width : Nat) (reversed : Bool) (polarity : Nat) (fault : Bool) : Statement (.linkTrained frac speed width reversed polarity fault) := of_inStroke
theorem linkDown (frac : Nat) : Statement (.linkDown frac) := of_inStroke
theorem hotReset (frac : Nat) : Statement (.hotReset frac) := of_inStroke
theorem perstAssert (frac : Nat) : Statement (.perstAssert frac) := of_inStroke
theorem perstDeassert (frac : Nat) : Statement (.perstDeassert frac) := of_inStroke
theorem retrain : Statement (.retrain) := fun _ => Nat.succ_pos 65535
theorem linkAttnTimeout : Statement (.linkAttnTimeout) := fun _ => Nat.succ_pos 65535
theorem noIrqTimeout : Statement (.noIrqTimeout) := fun _ => Nat.succ_pos 65535
theorem attentionBurst : Statement (.attentionBurst) := fun _ => Nat.succ_pos 65535
theorem msixUnmask (fn : Nat) (w : MsixWrite) : Statement (.msixUnmask fn w) := fun _ => Nat.succ_pos 65535
theorem dStateChange (fn : Nat) (d3 : Bool) : Statement (.dStateChange fn d3) := fun _ => Nat.succ_pos 65535
theorem numvfsWrite (n : Nat) : Statement (.numvfsWrite n) := fun _ => Nat.succ_pos 65535
theorem dmaReadFault (fn : Nat) (sqid : Nat) (cid : Nat) : Statement (.dmaReadFault fn sqid cid) := fun _ => Nat.succ_pos 65535
theorem completionTimeout (fn : Nat) (sqid : Nat) (cid : Nat) : Statement (.completionTimeout fn sqid cid) := fun _ => Nat.succ_pos 65535
theorem dmaWriteRejected (fn : Nat) (sqid : Nat) (cid : Nat) : Statement (.dmaWriteRejected fn sqid cid) := fun _ => Nat.succ_pos 65535
theorem writeDataArrived (fn : Nat) (sqid : Nat) (cid : Nat) (data : Bytes) : Statement (.writeDataArrived fn sqid cid data) := fun _ => Nat.succ_pos 65535
theorem sqTailDoorbell (frac : Nat) (fn : Nat) (sqid : Nat) (tail : Nat) : Statement (.sqTailDoorbell frac fn sqid tail) := of_inStroke
theorem cqHeadDoorbell (fn : Nat) (cqid : Nat) (head : Nat) : Statement (.cqHeadDoorbell fn cqid head) := fun _ => Nat.succ_pos 65535
theorem ccEnSet (fn : Nat) (ams : Nat) (mps : Nat) (asqBase : Nat) (asqSize : Nat) (acqBase : Nat) (acqSize : Nat) : Statement (.ccEnSet fn ams mps asqBase asqSize acqBase acqSize) := fun _ => Nat.succ_pos 65535
theorem ccEnClear (frac : Nat) (fn : Nat) : Statement (.ccEnClear frac fn) := of_inStroke
theorem flrInitiate (frac : Nat) (fn : Nat) : Statement (.flrInitiate frac fn) := of_inStroke
theorem flrCommit : Statement (.flrCommit) := fun _ => Nat.succ_pos 65535
theorem identify (q : Sqe) (cns : Nat) (cntid : Nat) : Statement (.identify q cns cntid) := fun _ => Nat.succ_pos 65535
theorem getFeatures (q : Sqe) (fid : Nat) (sel : Nat) (dw11 : Nat) : Statement (.getFeatures q fid sel dw11) := fun _ => Nat.succ_pos 65535
theorem setFeatures (q : Sqe) (fid : Nat) (save : Bool) (dw11 : Nat) (data : Bytes) : Statement (.setFeatures q fid save dw11 data) := fun _ => Nat.succ_pos 65535
theorem getLogPage (q : Sqe) (lid lsp numd off : Nat) (how : LogRead) : Statement (.getLogPage q lid lsp numd off how) := fun _ => Nat.succ_pos 65535
theorem createIoSq (q : Sqe) (sqid : Nat) (size : Nat) (base : Nat) (cqid : Nat) (prio : Nat) (pc : Bool) : Statement (.createIoSq q sqid size base cqid prio pc) := fun _ => Nat.succ_pos 65535
theorem createIoCq (q : Sqe) (cqid : Nat) (size : Nat) (base : Nat) (vector : Nat) (ien : Bool) (pc : Bool) : Statement (.createIoCq q cqid size base vector ien pc) := fun _ => Nat.succ_pos 65535
theorem deleteIoSq (q : Sqe) (sqid : Nat) : Statement (.deleteIoSq q sqid) := fun _ => Nat.succ_pos 65535
theorem deleteIoCq (q : Sqe) (cqid : Nat) : Statement (.deleteIoCq q cqid) := fun _ => Nat.succ_pos 65535
theorem abortCmd (q : Sqe) (sqid : Nat) (cid : Nat) : Statement (.abortCmd q sqid cid) := fun _ => Nat.succ_pos 65535
theorem asyncEventRequest (q : Sqe) : Statement (.asyncEventRequest q) := fun _ => Nat.succ_pos 65535
theorem namespaceCreate (q : Sqe) (data : Bytes) : Statement (.namespaceCreate q data) := fun _ => Nat.succ_pos 65535
theorem namespaceDelete (q : Sqe) : Statement (.namespaceDelete q) := fun _ => Nat.succ_pos 65535
theorem namespaceAttach (q : Sqe) (ctrls : List Nat) : Statement (.namespaceAttach q ctrls) := fun _ => Nat.succ_pos 65535
theorem namespaceDetach (q : Sqe) (ctrls : List Nat) : Statement (.namespaceDetach q ctrls) := fun _ => Nat.succ_pos 65535
theorem unitTransitionCommit : Statement (.unitTransitionCommit) := fun _ => Nat.succ_pos 65535
theorem vmAssignResources (q : Sqe) (cntlid : Nat) (primary : Bool) (rt : Nat) (nr : Nat) : Statement (.vmAssignResources q cntlid primary rt nr) := fun _ => Nat.succ_pos 65535
theorem vmOnline (q : Sqe) (cntlid : Nat) : Statement (.vmOnline q cntlid) := fun _ => Nat.succ_pos 65535
theorem vmOffline (q : Sqe) (cntlid : Nat) : Statement (.vmOffline q cntlid) := fun _ => Nat.succ_pos 65535
theorem formatNvm (q : Sqe) (lbaf : Nat) (ses : Nat) : Statement (.formatNvm q lbaf ses) := fun _ => Nat.succ_pos 65535
theorem formatDone (nsid : Nat) : Statement (.formatDone nsid) := fun _ => Nat.succ_pos 65535
theorem sanitizeCryptoErase (q : Sqe) : Statement (.sanitizeCryptoErase q) := fun _ => Nat.succ_pos 65535
theorem sanitizeBlockErase (q : Sqe) : Statement (.sanitizeBlockErase q) := fun _ => Nat.succ_pos 65535
theorem sanitizeDone : Statement (.sanitizeDone) := fun _ => Nat.succ_pos 65535
theorem deviceSelfTest (q : Sqe) (stc : Nat) : Statement (.deviceSelfTest q stc) := fun _ => Nat.succ_pos 65535
theorem directiveSend (q : Sqe) (dtype : Nat) (doper : Nat) (dspec : Nat) (value : Nat) : Statement (.directiveSend q dtype doper dspec value) := fun _ => Nat.succ_pos 65535
theorem directiveReceive (q : Sqe) (dtype : Nat) (doper : Nat) (numd : Nat) (value : Nat) : Statement (.directiveReceive q dtype doper numd value) := fun _ => Nat.succ_pos 65535
theorem nvmeMiSend (q : Sqe) (opcode : Nat) (dw0 : Nat) (dw1 : Nat) (data : Bytes) : Statement (.nvmeMiSend q opcode dw0 dw1 data) := fun _ => Nat.succ_pos 65535
theorem nvmeMiReceive (q : Sqe) (opcode : Nat) (dw0 : Nat) (dw1 : Nat) : Statement (.nvmeMiReceive q opcode dw0 dw1) := fun _ => Nat.succ_pos 65535
theorem firmwareDownload (q : Sqe) (ofst : Nat) (numd : Nat) (data : Bytes) (sectorLost : Bool) : Statement (.firmwareDownload q ofst numd data sectorLost) := fun _ => Nat.succ_pos 65535
theorem firmwareCommit (q : Sqe) (fs : Nat) (ca : Nat) : Statement (.firmwareCommit q fs ca) := fun _ => Nat.succ_pos 65535
theorem activateBegin : Statement (.activateBegin) := fun _ => Nat.succ_pos 65535
theorem activateEnd (frac : Nat) (ok : Bool) (us : Nat) : Statement (.activateEnd frac ok us) := of_inStroke
theorem readCmd (q : Sqe) (slba : Nat) (nlb : Nat) : Statement (.readCmd q slba nlb) := fun _ => Nat.succ_pos 65535
theorem writeCmd (q : Sqe) (slba : Nat) (nlb : Nat) (dtype : Nat) (dspec : Nat) : Statement (.writeCmd q slba nlb dtype dspec) := fun _ => Nat.succ_pos 65535
theorem compareCmd (q : Sqe) (slba : Nat) (nlb : Nat) (host : Bytes) : Statement (.compareCmd q slba nlb host) := fun _ => Nat.succ_pos 65535
theorem verifyCmd (q : Sqe) (slba : Nat) (nlb : Nat) : Statement (.verifyCmd q slba nlb) := fun _ => Nat.succ_pos 65535
theorem writeZeroes (q : Sqe) (slba : Nat) (nlb : Nat) (deac : Bool) : Statement (.writeZeroes q slba nlb deac) := fun _ => Nat.succ_pos 65535
theorem datasetManagement (q : Sqe) (ad : Bool) (ranges : List (Nat × Nat)) : Statement (.datasetManagement q ad ranges) := fun _ => Nat.succ_pos 65535
theorem deallocatePass : Statement (.deallocatePass) := fun _ => Nat.succ_pos 65535
theorem flushCmd (q : Sqe) : Statement (.flushCmd q) := fun _ => Nat.succ_pos 65535
theorem sealedAppend (q : Sqe) (nlb : Nat) (lastBytes : Nat) (expected : Nat) : Statement (.sealedAppend q nlb lastBytes expected) := fun _ => Nat.succ_pos 65535
theorem verifyRange (q : Sqe) (slba : Nat) (nlb : Nat) (chain : Bool) : Statement (.verifyRange q slba nlb chain) := fun _ => Nat.succ_pos 65535
theorem proofRead (q : Sqe) (stroke : Nat) (kind : Nat) (numd : Nat) : Statement (.proofRead q stroke kind numd) := fun _ => Nat.succ_pos 65535
theorem holdPlace (q : Sqe) (first : Nat) (last : Nat) (tag : Nat) : Statement (.holdPlace q first last tag) := fun _ => Nat.succ_pos 65535
theorem holdQuery (q : Sqe) (first : Nat) (last : Nat) : Statement (.holdQuery q first last) := fun _ => Nat.succ_pos 65535
theorem exportBundle (q : Sqe) (first : Nat) (last : Nat) (comp : Nat) (level : Nat) (proofs : Bool) (sign : Bool) (numd : Nat) (resume : Nat) : Statement (.exportBundle q first last comp level proofs sign numd resume) := fun _ => Nat.succ_pos 65535
theorem exportCookieLapse : Statement (.exportCookieLapse) := fun _ => Nat.succ_pos 65535
theorem releaseCmd (q : Sqe) (numd : Nat) (token : Bytes) : Statement (.releaseCmd q numd token) := fun _ => Nat.succ_pos 65535
theorem releaseDryrun (q : Sqe) (numd : Nat) (token : Bytes) : Statement (.releaseDryrun q numd token) := fun _ => Nat.succ_pos 65535
theorem graphLoad (q : Sqe) (numd : Nat) (off : Nat) (total : Nat) (data : Bytes) : Statement (.graphLoad q numd off total data) := fun _ => Nat.succ_pos 65535
theorem graphRelease (q : Sqe) (numd : Nat) (off : Nat) (handle : Nat) (high : Nat) : Statement (.graphRelease q numd off handle high) := fun _ => Nat.succ_pos 65535
theorem graphStart (q : Sqe) (handle : Nat) (tag : Nat) (limit : Nat) : Statement (.graphStart q handle tag limit) := fun _ => Nat.succ_pos 65535
theorem graphResult (q : Sqe) (handle : Nat) (run : Nat) (numd : Nat) (wait : Bool) : Statement (.graphResult q handle run numd wait) := fun _ => Nat.succ_pos 65535
theorem flowBind (q : Sqe) (numd : Nat) (desc : Bytes) : Statement (.flowBind q numd desc) := fun _ => Nat.succ_pos 65535
theorem flowUnbind (q : Sqe) (numd : Nat) (flow : Nat) (desc : Bytes) : Statement (.flowUnbind q numd flow desc) := fun _ => Nat.succ_pos 65535
theorem flowModify (q : Sqe) (numd : Nat) (flow : Nat) (desc : Bytes) : Statement (.flowModify q numd flow desc) := fun _ => Nat.succ_pos 65535
theorem ringBind (q : Sqe) (numd : Nat) (action : Nat) (flow : Nat) (desc : Bytes) : Statement (.ringBind q numd action flow desc) := fun _ => Nat.succ_pos 65535
theorem ringRemove (q : Sqe) (numd : Nat) (flow : Nat) (desc : Bytes) : Statement (.ringRemove q numd flow desc) := fun _ => Nat.succ_pos 65535
theorem bindCommit : Statement (.bindCommit) := fun _ => Nat.succ_pos 65535
theorem keyBlobLoad (q : Sqe) (numd : Nat) (slot : Nat) (wrap : Nat) (blob : Bytes) : Statement (.keyBlobLoad q numd slot wrap blob) := fun _ => Nat.succ_pos 65535
theorem domainConfigure (q : Sqe) (numd : Nat) (data : Bytes) : Statement (.domainConfigure q numd data) := fun _ => Nat.succ_pos 65535
theorem domainRealign (q : Sqe) : Statement (.domainRealign q) := fun _ => Nat.succ_pos 65535
theorem domainCommit : Statement (.domainCommit) := fun _ => Nat.succ_pos 65535
theorem domainPrepareTimeout : Statement (.domainPrepareTimeout) := fun _ => Nat.succ_pos 65535
theorem modeRequest (q : Sqe) (target : Nat) (note : Option Bytes) : Statement (.modeRequest q target note) := fun _ => Nat.succ_pos 65535
theorem modeTransitionBegin : Statement (.modeTransitionBegin) := fun _ => Nat.succ_pos 65535
theorem modeTransitionDone (frac : Nat) : Statement (.modeTransitionDone frac) := of_inStroke
theorem orderlyStop : Statement (.orderlyStop) := fun _ => Nat.succ_pos 65535
theorem orderlyStopDrainTimeout (frac : Nat) : Statement (.orderlyStopDrainTimeout frac) := of_inStroke
theorem parkBurst : Statement (.parkBurst) := fun _ => Nat.succ_pos 65535
theorem parkChannelIdle : Statement (.parkChannelIdle) := fun _ => Nat.succ_pos 65535
theorem wakeTimer : Statement (.wakeTimer) := fun _ => Nat.succ_pos 65535
theorem ignitionOffDelay : Statement (.ignitionOffDelay) := fun _ => Nat.succ_pos 65535
theorem deviceReset : Statement (.deviceReset) := fun _ => Nat.succ_pos 65535
theorem scribeWatchdog (core : Nat) : Statement (.scribeWatchdog core) := fun _ => Nat.succ_pos 65535
theorem droopTrip (frac : Nat) (regions : List Nat) : Statement (.droopTrip frac regions) := of_inStroke
theorem droopRestore (frac : Nat) : Statement (.droopRestore frac) := of_inStroke
theorem thermalSample (frac : Nat) (readings : List Int) : Statement (.thermalSample frac readings) := of_inStroke
theorem thermalStepDown : Statement (.thermalStepDown) := fun _ => Nat.succ_pos 65535
theorem sensorFail (sensor : Nat) (last : Int) : Statement (.sensorFail sensor last) := fun _ => Nat.succ_pos 65535
theorem vmonSample (frac : Nat) (mv : List Nat) : Statement (.vmonSample frac mv) := of_inStroke
theorem vmonOvervoltage (mon : Nat) (mv : Nat) : Statement (.vmonOvervoltage mon mv) := fun _ => Nat.succ_pos 65535
theorem vmonSelfCheck (bad : List Nat) : Statement (.vmonSelfCheck bad) := fun _ => Nat.succ_pos 65535
theorem pmonMeasure (freqs : List (Nat × Int)) : Statement (.pmonMeasure freqs) := fun _ => Nat.succ_pos 65535
theorem evtSample (frac : Nat) (samples : List EvtSample) : Statement (.evtSample frac samples) := of_inStroke
theorem logClear : Statement (.logClear) := fun _ => Nat.succ_pos 65535
theorem pfailTrip (frac : Nat) : Statement (.pfailTrip frac) := of_inStroke
theorem pfailGlitch (frac : Nat) (width : Nat) : Statement (.pfailGlitch frac width) := of_inStroke
theorem holdSenseTrip (frac : Nat) (mv : Nat) : Statement (.holdSenseTrip frac mv) := of_inStroke
theorem railUndervoltage (frac : Nat) (mon : Nat) (mv : Nat) : Statement (.railUndervoltage frac mon mv) := of_inStroke
theorem dieLinkFail (frac : Nat) : Statement (.dieLinkFail frac) := of_inStroke
theorem holdArmChange (frac : Nat) (mv : Nat) : Statement (.holdArmChange frac mv) := of_inStroke
theorem sealInflightDeadline : Statement (.sealInflightDeadline) := fun _ => Nat.succ_pos 65535
theorem sealEnd (frac : Nat) (clear : Bool) (summaryOk : Bool) (snapshotOk : Bool) : Statement (.sealEnd frac clear summaryOk snapshotOk) := of_inStroke
theorem alwaysOnPowerApplied : Statement (.alwaysOnPowerApplied) := fun _ => Nat.succ_pos 65535
theorem alwaysOnResetEnd : Statement (.alwaysOnResetEnd) := fun _ => Nat.succ_pos 65535
theorem computeRailsGood : Statement (.computeRailsGood) := fun _ => Nat.succ_pos 65535
theorem powerUpTimeout : Statement (.powerUpTimeout) := fun _ => Nat.succ_pos 65535
theorem mediaBringupStart (chans : List ChanUp) (dram : DramUp) (rawGib : Nat) (entropyOk : Bool) : Statement (.mediaBringupStart chans dram rawGib entropyOk) := fun _ => Nat.succ_pos 65535
theorem alwaysOnPowerLost : Statement (.alwaysOnPowerLost) := fun _ => Nat.succ_pos 65535
theorem mountComplete (frac : Nat) (media : MountMedia) : Statement (.mountComplete frac media) := of_inStroke
theorem nb5210ScanComplete (units : List OldUnit) : Statement (.nb5210ScanComplete units) := fun _ => Nat.succ_pos 65535
theorem bootCopyDone (comp : Nat) (ok : Bool) (ms : Nat) : Statement (.bootCopyDone comp ok ms) := fun _ => Nat.succ_pos 65535
theorem nandStatusPoll (die : Nat) : Statement (.nandStatusPoll die) := fun _ => Nat.succ_pos 65535
theorem nandReadDone (die : Nat) (res : List DecodeRes) : Statement (.nandReadDone die res) := fun _ => Nat.succ_pos 65535
theorem nandProgramDone (die : Nat) (pass : Bool) : Statement (.nandProgramDone die pass) := fun _ => Nat.succ_pos 65535
theorem nandEraseDone (die : Nat) (pass : Bool) : Statement (.nandEraseDone die pass) := fun _ => Nat.succ_pos 65535
theorem nandTimeout (die : Nat) : Statement (.nandTimeout die) := fun _ => Nat.succ_pos 65535
theorem operationSuspend (at_ : DieAt) : Statement (.operationSuspend at_) := of_inStroke
theorem dqsRecenter (channel : Nat) (ce : Nat) : Statement (.dqsRecenter channel ce) := fun _ => Nat.succ_pos 65535
theorem deepDecodeDone (frac : Nat) (res : DecodeRes) : Statement (.deepDecodeDone frac res) := of_inStroke
theorem stripeRebuildDone (frac die unit : Nat) : Statement (.stripeRebuildDone frac die unit) := of_inStroke
theorem dieRebuildDone (die : Nat) : Statement (.dieRebuildDone die) := fun _ => Nat.succ_pos 65535
theorem nodeDispatch (frac : Nat) (graph : Nat) (node : Nat) (core : Nat) : Statement (.nodeDispatch frac graph node core) := of_inStroke
theorem nodeEnd (frac : Nat) (graph : Nat) (node : Nat) (res : JobRes) : Statement (.nodeEnd frac graph node res) := of_inStroke
theorem nodePreempt (frac : Nat) (core : Nat) : Statement (.nodePreempt frac core) := of_inStroke
theorem nodeWaitTimeout (graph : Nat) (node : Nat) : Statement (.nodeWaitTimeout graph node) := fun _ => Nat.succ_pos 65535
theorem nibInterrupt (frac : Nat) (core : Nat) : Statement (.nibInterrupt frac core) := of_inStroke
theorem nibMachineCheck (frac : Nat) (core : Nat) : Statement (.nibMachineCheck frac core) := of_inStroke
theorem digestGroupDone (frac graph node : Nat) : Statement (.digestGroupDone frac graph node) := of_inStroke
theorem compressBlockDone (graph : Nat) (node : Nat) (verifyBad : Bool) : Statement (.compressBlockDone graph node verifyBad) := fun _ => Nat.succ_pos 65535
theorem sieveLookup (graph : Nat) (node : LookupNode) : Statement (.sieveLookup graph node) := fun _ => Nat.succ_pos 65535
theorem sieveWrite (graph : Nat) (node : Nat) : Statement (.sieveWrite graph node) := fun _ => Nat.succ_pos 65535
theorem sieveInsert (graph : Nat) (node : Nat) : Statement (.sieveInsert graph node) := fun _ => Nat.succ_pos 65535
theorem sieveInvalidate (graph : Nat) (node : Nat) : Statement (.sieveInvalidate graph node) := fun _ => Nat.succ_pos 65535
theorem sieveRead (graph : Nat) (node : Nat) : Statement (.sieveRead graph node) := fun _ => Nat.succ_pos 65535
theorem sieveScan (parityBad : Bool) : Statement (.sieveScan parityBad) := fun _ => Nat.succ_pos 65535
theorem sieveGo (go : LookupGo) : Statement (.sieveGo go) := fun _ => Nat.succ_pos 65535
theorem sieveNext : Statement (.sieveNext) := fun _ => Nat.succ_pos 65535
theorem feedOpen (value : Nat) : Statement (.feedOpen value) := fun _ => Nat.succ_pos 65535
theorem feedData (word : Nat) : Statement (.feedData word) := fun _ => Nat.succ_pos 65535
theorem feedLast (word : Nat) : Statement (.feedLast word) := fun _ => Nat.succ_pos 65535
theorem feedAbort : Statement (.feedAbort) := fun _ => Nat.succ_pos 65535
theorem feedDone (flags : Nat) : Statement (.feedDone flags) := fun _ => Nat.succ_pos 65535
theorem slotClear (slot : Nat) (all : Bool) : Statement (.slotClear slot all) := fun _ => Nat.succ_pos 65535
theorem dramFreqRequest (point : Nat) : Statement (.dramFreqRequest point) := fun _ => Nat.succ_pos 65535
theorem dramRetrainGather (frac : Nat) (reading : DramReading) : Statement (.dramRetrainGather frac reading) := of_inStroke
theorem dramGatherEnd (frac : Nat) : Statement (.dramGatherEnd frac) := of_inStroke
theorem dramRefreshPoll (mult : List Nat) (hot : List (Nat × Nat)) : Statement (.dramRefreshPoll mult hot) := fun _ => Nat.succ_pos 65535
theorem dramRequestPromote (cls : Nat) (waitedUs : Nat) (bytes : Nat) : Statement (.dramRequestPromote cls waitedUs bytes) := fun _ => Nat.succ_pos 65535
theorem dramUe (addr source cls : Nat) (hit : DramHit) : Statement (.dramUe addr source cls hit) := fun _ => Nat.succ_pos 65535
theorem inkwellUe (offset : Nat) (hit : WellHit) : Statement (.inkwellUe offset hit) := fun _ => Nat.succ_pos 65535
theorem inkProgram (who : Nat) (addr : Nat) (data : Bytes) : Statement (.inkProgram who addr data) := fun _ => Nat.succ_pos 65535
theorem inkErase (who : Nat) (addr : Nat) : Statement (.inkErase who addr) := fun _ => Nat.succ_pos 65535
theorem inkRead (who : Nat) (addr : Nat) (chk : Chk) : Statement (.inkRead who addr chk) := fun _ => Nat.succ_pos 65535
theorem inkOpDone (bank : Nat) (pulses : Nat) (fail : Bool) : Statement (.inkOpDone bank pulses fail) := fun _ => Nat.succ_pos 65535
theorem settingsSave : Statement (.settingsSave) := fun _ => Nat.succ_pos 65535
theorem settingsSaveTimer : Statement (.settingsSaveTimer) := fun _ => Nat.succ_pos 65535
theorem portEnable (port : Nat) : Statement (.portEnable port) := fun _ => Nat.succ_pos 65535
theorem portLinkUp (frac port : Nat) (up : PortUp) : Statement (.portLinkUp frac port up) := of_inStroke
theorem portLinkLost (frac : Nat) (port : Nat) : Statement (.portLinkLost frac port) := of_inStroke
theorem txPolarityToggle (port : Nat) (look : PortTry) : Statement (.txPolarityToggle port look) := fun _ => Nat.succ_pos 65535
theorem arpRequest (port : Nat) (senderMac : Nat) (senderIp : Nat) (targetIp : Nat) : Statement (.arpRequest port senderMac senderIp targetIp) := fun _ => Nat.succ_pos 65535
theorem neighbourSolicitation (port : Nat) (senderMac : Nat) (senderIp : Nat) (targetIp : Nat) : Statement (.neighbourSolicitation port senderMac senderIp targetIp) := fun _ => Nat.succ_pos 65535
theorem frameReceived (frac : Nat) (port : Nat) (frame : Bytes) (fcsBad : Bool) (noRoom : Bool) (levelKib : Nat) : Statement (.frameReceived frac port frame fcsBad noRoom levelKib) := of_inStroke
theorem silentTimeout (frac : Nat) (flow : Nat) : Statement (.silentTimeout frac flow) := of_inStroke
theorem oxvLinkUp (frac : Nat) (link : Nat) (width : Nat) (polarity : Nat) (laneMap : Nat) : Statement (.oxvLinkUp frac link width polarity laneMap) := of_inStroke
theorem oxvLinkDown (frac : Nat) (link : Nat) : Statement (.oxvLinkDown frac link) := of_inStroke
theorem markFrame (frac : Nat) (h : OxvHdr) (count : Nat) (state : Nat) (flog2 : Nat) (period : Nat) (root : Nat) (corr : Nat) (tag : Nat) (arrivalNs : Int) : Statement (.markFrame frac h count state flog2 period root corr tag arrivalNs) := of_inStroke
theorem delayReq (link : Nat) (payload : Bytes) : Statement (.delayReq link payload) := fun _ => Nat.succ_pos 65535
theorem delayResp (link : Nat) (ns : Nat) : Statement (.delayResp link ns) := fun _ => Nat.succ_pos 65535
theorem helloFrame (link : Nat) (rev : Nat) (min : Nat) (tag : Nat) (dev : Nat) : Statement (.helloFrame link rev min tag dev) := fun _ => Nat.succ_pos 65535
theorem fdFrame (h : OxvHdr) (dev : Nat) (index : Nat) (fd : Bytes) : Statement (.fdFrame h dev index fd) := fun _ => Nat.succ_pos 65535
theorem controlFrame (h : OxvHdr) (m : ControlMsg) : Statement (.controlFrame h m) := fun _ => Nat.succ_pos 65535
theorem oxvStatusFrame (h : OxvHdr) (mode : Nat) (attn : Nat) (rev : Nat) (min : Nat) (index : Nat) (lag : Nat) (ups : Nat) : Statement (.oxvStatusFrame h mode attn rev min index lag ups) := fun _ => Nat.succ_pos 65535
theorem mirrorFrame (h : OxvHdr) (nsid : Nat) (stroke : Nat) (lba : Nat) (data : Bytes) : Statement (.mirrorFrame h nsid stroke lba data) := fun _ => Nat.succ_pos 65535
theorem mirrorAck (h : OxvHdr) (nsid : Nat) (stroke : Nat) : Statement (.mirrorAck h nsid stroke) := fun _ => Nat.succ_pos 65535
theorem proxyFrame (h : OxvHdr) (m : ProxyMsg) : Statement (.proxyFrame h m) := fun _ => Nat.succ_pos 65535
theorem nakFrame (link : Nat) (seq : Nat) : Statement (.nakFrame link seq) := fun _ => Nat.succ_pos 65535
theorem replayTimeout (link : Nat) : Statement (.replayTimeout link) := fun _ => Nat.succ_pos 65535
theorem memberUnreachable (dev : Nat) : Statement (.memberUnreachable dev) := fun _ => Nat.succ_pos 65535
theorem remoteGo (value : Nat) : Statement (.remoteGo value) := fun _ => Nat.succ_pos 65535
theorem miReadDataStructure (dtyp : Nat) (port : Nat) (ctrl : Nat) : Statement (.miReadDataStructure dtyp port ctrl) := fun _ => Nat.succ_pos 65535
theorem miSubsystemHealthPoll (clear : Bool) : Statement (.miSubsystemHealthPoll clear) := fun _ => Nat.succ_pos 65535
theorem miControllerHealthPoll (first : Nat) (max : Nat) : Statement (.miControllerHealthPoll first max) := fun _ => Nat.succ_pos 65535
theorem miConfigurationSet (cid : Nat) (port : Nat) (value : Nat) : Statement (.miConfigurationSet cid port value) := fun _ => Nat.succ_pos 65535
theorem miConfigurationGet (cid : Nat) (port : Nat) : Statement (.miConfigurationGet cid port) := fun _ => Nat.succ_pos 65535
theorem miVpdRead (off : Nat) (len : Nat) : Statement (.miVpdRead off len) := fun _ => Nat.succ_pos 65535
theorem miVpdWrite (off : Nat) (data : Bytes) : Statement (.miVpdWrite off data) := fun _ => Nat.succ_pos 65535
theorem miReset : Statement (.miReset) := fun _ => Nat.succ_pos 65535
theorem miAdminTunnel (ctrl : Nat) (dlen : Nat) (cmd : TunnelCmd) : Statement (.miAdminTunnel ctrl dlen cmd) := fun _ => Nat.succ_pos 65535
theorem latchedReadLo (off : Nat) : Statement (.latchedReadLo off) := fun _ => Nat.succ_pos 65535
theorem registerWrite (off : Nat) (value : Nat) (full : Bool) : Statement (.registerWrite off value full) := fun _ => Nat.succ_pos 65535
theorem nop (o : NibOp) : Statement (.nop o) := fun _ => Nat.succ_pos 65535
theorem add (o : NibOp) : Statement (.add o) := fun _ => Nat.succ_pos 65535
theorem addc (o : NibOp) : Statement (.addc o) := fun _ => Nat.succ_pos 65535
theorem adds (o : NibOp) : Statement (.adds o) := fun _ => Nat.succ_pos 65535
theorem sub (o : NibOp) : Statement (.sub o) := fun _ => Nat.succ_pos 65535
theorem subb (o : NibOp) : Statement (.subb o) := fun _ => Nat.succ_pos 65535
theorem subs (o : NibOp) : Statement (.subs o) := fun _ => Nat.succ_pos 65535
theorem neg (o : NibOp) : Statement (.neg o) := fun _ => Nat.succ_pos 65535
theorem negs (o : NibOp) : Statement (.negs o) := fun _ => Nat.succ_pos 65535
theorem abs (o : NibOp) : Statement (.abs o) := fun _ => Nat.succ_pos 65535
theorem abss (o : NibOp) : Statement (.abss o) := fun _ => Nat.succ_pos 65535
theorem cmp (o : NibOp) : Statement (.cmp o) := fun _ => Nat.succ_pos 65535
theorem cmpc (o : NibOp) : Statement (.cmpc o) := fun _ => Nat.succ_pos 65535
theorem andOp (o : NibOp) : Statement (.andOp o) := fun _ => Nat.succ_pos 65535
theorem orOp (o : NibOp) : Statement (.orOp o) := fun _ => Nat.succ_pos 65535
theorem xor (o : NibOp) : Statement (.xor o) := fun _ => Nat.succ_pos 65535
theorem andn (o : NibOp) : Statement (.andn o) := fun _ => Nat.succ_pos 65535
theorem notOp (o : NibOp) : Statement (.notOp o) := fun _ => Nat.succ_pos 65535
theorem mov (o : NibOp) : Statement (.mov o) := fun _ => Nat.succ_pos 65535
theorem minOp (o : NibOp) : Statement (.minOp o) := fun _ => Nat.succ_pos 65535
theorem maxOp (o : NibOp) : Statement (.maxOp o) := fun _ => Nat.succ_pos 65535
theorem minu (o : NibOp) : Statement (.minu o) := fun _ => Nat.succ_pos 65535
theorem maxu (o : NibOp) : Statement (.maxu o) := fun _ => Nat.succ_pos 65535
theorem sel (o : NibOp) : Statement (.sel o) := fun _ => Nat.succ_pos 65535
theorem sext8 (o : NibOp) : Statement (.sext8 o) := fun _ => Nat.succ_pos 65535
theorem zext8 (o : NibOp) : Statement (.zext8 o) := fun _ => Nat.succ_pos 65535
theorem clz (o : NibOp) : Statement (.clz o) := fun _ => Nat.succ_pos 65535
theorem popc (o : NibOp) : Statement (.popc o) := fun _ => Nat.succ_pos 65535
theorem tst (o : NibOp) : Statement (.tst o) := fun _ => Nat.succ_pos 65535
theorem movf (o : NibOp) : Statement (.movf o) := fun _ => Nat.succ_pos 65535
theorem movt (o : NibOp) : Statement (.movt o) := fun _ => Nat.succ_pos 65535
theorem ldi (o : NibOp) : Statement (.ldi o) := fun _ => Nat.succ_pos 65535
theorem mul (o : NibOp) : Statement (.mul o) := fun _ => Nat.succ_pos 65535
theorem mull (o : NibOp) : Statement (.mull o) := fun _ => Nat.succ_pos 65535
theorem mullu (o : NibOp) : Statement (.mullu o) := fun _ => Nat.succ_pos 65535
theorem mulq (o : NibOp) : Statement (.mulq o) := fun _ => Nat.succ_pos 65535
theorem mulqr (o : NibOp) : Statement (.mulqr o) := fun _ => Nat.succ_pos 65535
theorem mac (o : NibOp) : Statement (.mac o) := fun _ => Nat.succ_pos 65535
theorem macs (o : NibOp) : Statement (.macs o) := fun _ => Nat.succ_pos 65535
theorem shl (o : NibOp) : Statement (.shl o) := fun _ => Nat.succ_pos 65535
theorem shr (o : NibOp) : Statement (.shr o) := fun _ => Nat.succ_pos 65535
theorem sar (o : NibOp) : Statement (.sar o) := fun _ => Nat.succ_pos 65535
theorem asl (o : NibOp) : Statement (.asl o) := fun _ => Nat.succ_pos 65535
theorem rol (o : NibOp) : Statement (.rol o) := fun _ => Nat.succ_pos 65535
theorem ror (o : NibOp) : Statement (.ror o) := fun _ => Nat.succ_pos 65535
theorem divs (o : NibOp) : Statement (.divs o) := fun _ => Nat.succ_pos 65535
theorem divu (o : NibOp) : Statement (.divu o) := fun _ => Nat.succ_pos 65535
theorem shl32 (o : NibOp) : Statement (.shl32 o) := fun _ => Nat.succ_pos 65535
theorem shr32 (o : NibOp) : Statement (.shr32 o) := fun _ => Nat.succ_pos 65535
theorem sar32 (o : NibOp) : Statement (.sar32 o) := fun _ => Nat.succ_pos 65535
theorem extu (o : NibOp) : Statement (.extu o) := fun _ => Nat.succ_pos 65535
theorem exts (o : NibOp) : Statement (.exts o) := fun _ => Nat.succ_pos 65535
theorem ld (o : NibOp) : Statement (.ld o) := fun _ => Nat.succ_pos 65535
theorem st (o : NibOp) : Statement (.st o) := fun _ => Nat.succ_pos 65535
theorem ldpi (o : NibOp) : Statement (.ldpi o) := fun _ => Nat.succ_pos 65535
theorem stpi (o : NibOp) : Statement (.stpi o) := fun _ => Nat.succ_pos 65535
theorem lds (o : NibOp) : Statement (.lds o) := fun _ => Nat.succ_pos 65535
theorem sts (o : NibOp) : Statement (.sts o) := fun _ => Nat.succ_pos 65535
theorem ldp (o : NibOp) : Statement (.ldp o) := fun _ => Nat.succ_pos 65535
theorem stp (o : NibOp) : Statement (.stp o) := fun _ => Nat.succ_pos 65535
theorem branch (o : NibOp) : Statement (.branch o) := fun _ => Nat.succ_pos 65535
theorem call (o : NibOp) : Statement (.call o) := fun _ => Nat.succ_pos 65535
theorem callx (o : NibOp) : Statement (.callx o) := fun _ => Nat.succ_pos 65535
theorem jmpx (o : NibOp) : Statement (.jmpx o) := fun _ => Nat.succ_pos 65535
theorem ret (o : NibOp) : Statement (.ret o) := fun _ => Nat.succ_pos 65535
theorem rett (o : NibOp) : Statement (.rett o) := fun _ => Nat.succ_pos 65535
theorem repi (o : NibOp) : Statement (.repi o) := fun _ => Nat.succ_pos 65535
theorem repn (o : NibOp) : Statement (.repn o) := fun _ => Nat.succ_pos 65535
theorem trap (o : NibOp) : Statement (.trap o) := fun _ => Nat.succ_pos 65535
theorem mfc (o : NibOp) : Statement (.mfc o) := fun _ => Nat.succ_pos 65535
theorem mtc (o : NibOp) : Statement (.mtc o) := fun _ => Nat.succ_pos 65535
theorem haltOp (o : NibOp) : Statement (.haltOp o) := fun _ => Nat.succ_pos 65535
theorem wait (o : NibOp) : Statement (.wait o) := fun _ => Nat.succ_pos 65535
theorem bar (o : NibOp) : Statement (.bar o) := fun _ => Nat.succ_pos 65535
theorem crystalStops : Statement (.crystalStops) := fun _ => Nat.succ_pos 65535
theorem referenceWaitExpiry : Statement (.referenceWaitExpiry) := fun _ => Nat.succ_pos 65535
theorem busMasterEnable (fn : Nat) (w : CfgWrite) : Statement (.busMasterEnable fn w) := fun _ => Nat.succ_pos 65535
theorem autonomousPowerStateTransition (fn : Nat) : Statement (.autonomousPowerStateTransition fn) := fun _ => Nat.succ_pos 65535
theorem scribeMemoryUe (core : Nat) : Statement (.scribeMemoryUe core) := fun _ => Nat.succ_pos 65535
theorem missedSync (link : Nat) (early : Nat) : Statement (.missedSync link early) := fun _ => Nat.succ_pos 65535
theorem oxvBadFrame (link : Nat) (fault : FrameFault) (rel : Bool) (seq : Nat) : Statement (.oxvBadFrame link fault rel seq) := fun _ => Nat.succ_pos 65535

end Sys2Proof.Laws.Frac
end

