-- ==== Sys2Proof/Tests/Slice0.lean ====
section
/-!
SUPPORT. Tests: the words of the table, an ill-formed term for each check of WellFormed, and for every statement of
Certificates/Slice0/Obligations.lean states and operands that meet its hypotheses, clause by clause.
-/

namespace Sys2Proof.Tests

set_option Elab.async false

open Sys2Proof Sys2Proof.Machine

/-! ### States and operands of the tests -/

/-- A part in RUN whose PCIe link is up, whose random source is good and whose bank is armed. -/
def live : State := setF FN_LINK_STATUS_UP 1 (setF FN_LINK_STATUS_SPEED 4 (setF CIP_STATUS_DRBG_OK 1
  (setF PWR_HOLD_STATUS_ARMED 1 { State.reset with
    mode := { State.reset.mode with cur := .run, mounted := true, stage := .up, busyLow := false },
    time := { State.reset.time with bootWait := false } })))

/-- The PF's controller with its admin queue pair and one pair of I/O queues, each with an entry that waits. -/
def pf : Fn := {
  en := true, rdy := true, bme := true, msixEn := true, gCmd := 100, gRd := 1000000, gWr := 1000000,
  sqs := [(0, { size := 16, base := 0, cqid := 0, prio := 0, head := 0, tail := 1 }),
          (1, { size := 16, base := 4096, cqid := 1, prio := 0, head := 0, tail := 1 })],
  cqs := [(0, { size := 16, base := 8192, vector := 0, ien := true }), (1, { size := 16, base := 12288, vector := 1, ien := true })] }

/-- The part with that controller. -/
def served : State := { live with fns := [(0, pf)] }

def inMode (m : Mode) (s : State) : State := { s with mode := { s.mode with cur := m } }

/-- A good transfer, and an entry of the PF with it. -/
def plain : Xfer := { psdt := 0, prp1Off := 0, prpListOff := false, sglBytes := 0, sglCount := 0, sglBadType := false }

def ent (sqid nsid : Nat) : Sqe := { fn := 0, sqid := sqid, cid := 7, nsid := nsid, fuse := 0, reservedSet := false, xfer := plain }

/-- The state after the fetch of an admin entry, and of an I/O entry that has been charged. -/
def taken : State := takeEntry 0 0 served

/-- Only the I/O queue has entries that wait. -/
def ioOnly (s : State) : State :=
  updFn 0 (fun x => { x with sqs := x.sqs.map (fun e => (e.1, { e.2 with tail := if e.1 = 0 then e.2.head else e.2.tail })) }) s

def fetch (s : State) : State := charge 0 .cmds 1 (takeEntry 0 1 (ioOnly s))


/-! ### The stroke generator -/

/-- A generator in a lock state, following a source. -/
def genAt (st src : Nat) : State :=
  { setF STK_STATUS_STATE st live with time := { live.time with
      src := src, misses := 3, below := 16, sinceMark := 2, holdUs := 3600000000 } }

theorem witness_GeneratorStates_edges :
    genAt 2 2 = atFrac 0 (genAt 2 2) ∧ (genAt 2 2).time.src = 2 ∧ (genAt 2 2).time.bootWait = false ∧
    getF (genAt 2 2) STK_STATUS_STATE = 2 ∧ getF (genAt 2 2) STK_PPS_WIN_NS = 1000 ∧
    getF (genAt 2 2) STK_PPS_WIN_NS < (-1001 : Int).natAbs ∧
    (1000 : Int).natAbs ≤ getF (genAt 2 2) STK_PPS_WIN_NS ∧ (1000 : Int).natAbs ≤ (genAt 2 2).time.period * 1000 ∧
    getF (genAt 0 2) STK_STATUS_STATE = 0 ∧ flagF (genAt 2 2) STK_CTL_PPS_EDGE = false ∧
    flagF (genAt 2 2) STK_CTL_PPS_EDGE ≠ true := by decide

/-- A delay of STROKE_IO of 5 ns. -/
def ioDelay : State := setF STK_IO_DELAY_NS 5 (genAt 3 4)

theorem witness_GeneratorStates_strokeIo :
    ioDelay.time.src = 4 ∧ ioDelay.time.bootWait = false ∧ (12 : Int) = 7 + (getF ioDelay STK_IO_DELAY_NS : Nat) ∧
    getF ioDelay STK_STATUS_STATE = 3 ∧ (12 : Int).natAbs ≤ ioDelay.time.period * 1000 ∧
    ioDelay.time.period * 1000 < (1000001 : Int).natAbs ∧ getF (genAt 4 4) STK_STATUS_STATE = 4 := by decide

/-- A window of 300 µs is wider than the least period. -/
def wideWindow : State := setF STK_PPS_WIN_NS 65535 { genAt 2 2 with time := { (genAt 2 2).time with period := 50 } }

theorem witness_GeneratorStates_mismatch :
    getF wideWindow STK_STATUS_STATE = 2 ∧ (50001 : Int).natAbs ≤ getF wideWindow STK_PPS_WIN_NS ∧
    wideWindow.time.period * 1000 < (50001 : Int).natAbs := by decide

theorem witness_GeneratorStates_states :
    getF (genAt 2 1) STK_STATUS_STATE = 2 ∧ 3 ≤ (genAt 2 1).time.misses + 0 ∧ getF (genAt 1 1) STK_STATUS_STATE = 1 ∧
    16 ≤ (genAt 1 1).time.below ∧ getF (genAt 3 1) STK_STATUS_STATE = 3 ∧
    getF (genAt 3 1) STK_HOLDOVER_LIMIT_S * 1000000 ≤ (genAt 3 1).time.holdUs ∧
    (genAt 2 3).time.src = 3 ∧ 2 ≤ (genAt 2 3).time.sinceMark ∧ getF (genAt 2 3) STK_STATUS_STATE ≠ 3 := by decide

/-- BOOT waits for the first PTP message; stroke 5 was the last to be sealed. -/
def bootPtp : State := { State.reset with
  time := { State.reset.time with src := 1, stroke := 4 }, chain := { State.reset.chain with lastSealed := some 5 } }

/-- A generator that follows PTP and whose request waits for its answer. -/
def ptpAsked : State := { genAt 2 1 with time := { (genAt 2 1).time with ptpReq := some 7, ptpRx := some 9, ptpDelayNs := 3 } }

theorem witness_StartAndMismatch_delay :
    ptpAsked = atFrac 0 ptpAsked ∧ ptpAsked.time.src = 1 ∧ getF ptpAsked STK_CTL_PTP_PORT = 0 ∧
    getF ptpAsked STK_CTL_PTP_DOMAIN = 0 ∧ ptpAsked.time.ptpReq = some 7 ∧ ptpAsked.time.ptpRx = some 9 ∧
    103 = 100 + ptpAsked.time.ptpDelayNs ∧ getF ptpAsked STK_STATUS_STATE = 2 ∧
    ((103 : Int) - localNs ptpAsked).natAbs ≤ ptpAsked.time.period * 1000 := by decide

theorem witness_StartAndMismatch :
    bootPtp = atFrac 0 bootPtp ∧ bootPtp.mode.cur = .boot ∧ bootPtp.time.bootWait = true ∧ bootPtp.chain.lastSealed = some 5 ∧
    bootPtp.time.src = 1 ∧ getF bootPtp STK_STATUS_STATE = 0 ∧ getF bootPtp STK_CTL_PTP_PORT = 0 ∧
    getF bootPtp STK_CTL_PTP_DOMAIN = 0 ∧ 6 = (6000000 - bootPtp.time.epochNs) / (bootPtp.time.period * 1000) ∧
    bootPtp.time.stroke < 6 ∧ 5 < 6 ∧ 5 = (5999999 - bootPtp.time.epochNs) / (bootPtp.time.period * 1000) ∧
    5 < max bootPtp.time.stroke (5 + 1) := by decide

/-! ### The link, functions and interrupts -/

theorem witness_LinkAndInterrupts_link :
    live = atFrac 0 live ∧ live.mode.perst = false ∧ live.mode.cur = .run ∧ follower live = false ∧
    4 ≤ getF live FN_LINK_CTL_MAX_SPEED ∧ 8 ≤ maxWidth live ∧ (∀ x ∈ live.fns, x.2.resetAtLink = false) ∧ linkUp live = true ∧
    (inMode .seal live).mode.cur = .seal ∧ follower (inMode .seal live) = false ∧
    (inMode .sanitize live).mode.cur = .sanitize ∧ follower (inMode .sanitize live) = false ∧ live.mode.wakeLow = false ∧ flagF (setF PWR_WAKE_PERST 0 live) PWR_WAKE_PERST = false := by decide

/-- The link is down; a vector of the PF waits; an attention condition holds at the device's slot. -/
def attn : State := setF FN_RDYBSY_PULSE_EN 1 (setF FN_ATTN_LINK 1 (setF FN_LINK_STATUS_UP 0 { live with
  fns := [(0, { pf with vecs := [(3, { masked := false, pend := true }), (4, { masked := false, count := 2 })] })],
  time := { live.time with stroke := 64 }, mode := { live.mode with attnLast := 0 } }))

theorem witness_LinkAndInterrupts_attention :
    linkUp attn = false ∧ follower attn = false ∧ attn.mode.cur = .run ∧ signalBlocked attn 0 = true ∧
    flagF attn FN_RDYBSY_PULSE_EN = true ∧ attn.mode.busyLow = false ∧ attn.mode.cur ≠ .halt ∧
    attn.time.stroke % 64 = deviceId attn % 64 ∧
    (attnCodes attn).find? (fun k => attn.mode.attnLast < k) = some 1 := by decide

/-- The link is up again. -/
def attnUp : State := setF FN_LINK_STATUS_UP 1 attn

theorem witness_LinkAndInterrupts_vectors :
    configReaches served 0 = true ∧ 1023 < 1024 ∧ signalHeld attnUp 0 = false ∧
    signalHeld { attnUp with fns := [(0, { pf with bme := false })] } 0 = true ∧ 4 ≠ 0 ∧ (getVec (getFn attnUp 0) 4).cd = false ∧ (getVec (getFn attnUp 0) 4).count ≠ 0 ∧
    flagF attnUp (FN_FUNC_ALIGN 0) = false ∧ (getFn attnUp 0).msixEn = true ∧
    4 < vectors attnUp 0 ∧ (getVec (getFn attnUp 0) 4).masked = false := by decide

/-- VF 127 is online and its host can reach it. -/
def withVf : State := setF (FN_FUNC_ONLINE 127) 1 { served with numVfs := 127 }

/-- The reset of VF 127 began 50 strokes ago. -/
def inFlr : State := { withVf with
  time := { withVf.time with stroke := 50 }, fns := [(0, pf), (127, { flr := some (0, 0) })] }

theorem witness_ControllersAndFunctions :
    0 ≤ 1 ∧ 4 ≤ 4 ∧ configReaches withVf 127 = true ∧ hostReaches live 0 = true ∧ (getFn live 0).d3 = false ∧ (getFn live 0).en = false ∧ hostReaches served 0 = true ∧
    (getFn served 0).en = true ∧ withVf.mode.cur = .run ∧ (getFn withVf 127).flr = none ∧ online withVf 127 = true ∧
    linkUp withVf = true ∧ served.time.frac = 0 ∧ (∀ f, f ∈ allFns → (getFn served f).flr = none) ∧
    (0 = 0 ∧ 127 ≤ 127 ∧ ∀ f ∈ onlineVfs withVf, f ≤ 127) := by decide +kernel

theorem witness_ControllersAndFunctions_flr :
    inFlr.time.frac = 0 ∧ (∀ f, f ∈ allFns → f ≠ 127 → (getFn inFlr f).flr = none) ∧
    (∀ f, f ∈ allFns → f ≠ 127 → (getFn (commitFlr 127 inFlr) f).flr = none) ∧ (getFn inFlr 127).flr = some (0, 0) ∧
    50 ≤ flrUs inFlr (0, 0) ∧ flrUs { inFlr with time := { inFlr.time with stroke := 0 } } (0, 0) < 50 := by decide +kernel

/-! ### Modes, wakes and device resets -/

/-- The PF asks for the power state. -/
def asksFor (ps : Nat) : State := { live with fns := [(0, { pf with feats := { pf.feats with power := ps } })] }

/-- A transition from RUN to LEAN that has begun. -/
def toLean : State := { asksFor 1 with mode := { live.mode with trans := some { dest := .lean, cause := 2, fn := 0, note := [] } } }

/-- A stop that waits for its boundary, and one that runs. -/
def stopWaits : State := { live with mode := { live.mode with stop := some (.halt, 2, 0, []) } }

theorem witness_ModeChanges_transitions :
    mayBegin live = true ∧ live.mode.stop = none ∧ live.mode.wantActivate = false ∧ live.mode.wantSanitize = none ∧
    live.mode.cur = .run ∧ live.mode.readOnlyCond = false ∧ powerTarget (asksFor 1) = .lean ∧ mayBegin (asksFor 1) = true ∧
    (asksFor 1).mode.readOnlyCond = false ∧ toLean.mode.trans = some { dest := .lean, cause := 2, fn := 0, note := [] } ∧
    toLean.mode.stopping = false ∧ toLean.mode.cur = .run ∧
    (changeAwake { dest := .lean, cause := 2, fn := 0, note := [] } toLean).mode.trans = none ∧
    stopWaits.mode.stopping = false ∧ mayBegin stopWaits = true ∧ stopWaits.mode.cur = .run ∧
    stopWaits.mode.stop = some (.halt, 2, 0, []) := by decide +kernel

theorem witness_ModeChanges_requests :
    AdminOk (modeRow none) (ent 0 0) served ∧ AdminOk (modeRow none) (ent 0 0) (inMode .lean served) ∧
    (takeEntry 0 0 served).mode.trans = none ∧
    (setPowers 1 2 0 (zeros 16) (takeEntry 0 0 (inMode .lean served))).mode.trans = none ∧
    (setPowers 1 2 0 (zeros 16) (takeEntry 0 0 (inMode .lean served))).mode.cur = .lean ∧
    Mode.ps .lean = 1 ∧ psMode (setPowers 1 2 0 (zeros 16) (takeEntry 0 0 served)) 1 = .lean ∧
    (setPowers 1 2 0 (zeros 16) (takeEntry 0 0 served)).mode.cur = .run ∧ (takeEntry 0 0 served).mode.stop = none := by
  repeat' (first | decide +kernel | constructor)

/-- A function that has been idle for 10 ms, whose table sends it from 0 to 3 after 10 ms; its ignition contact opened 60 s ago. -/
def idle : State := setF PWR_IGN_EN 1 (setF PWR_IGN_DELAY_S 60 { live with
  fns := [(0, { en := true, feats := { apstEn := true, apst := [(3, 10)] } })],
  time := { live.time with stroke := 60000 }, mode := { live.mode with ignNormalSince := some 0 } })

/-- HIBERNATE since stroke 0, with the wake timer at 100 strokes. -/
def asleep : State := setF PWR_WAKE_TIMER 1 (setF PWR_TIMER_STROKES 100 { live with
  time := { live.time with stroke := 100 }, mode := { live.mode with cur := .hibernate, enteredAt := 0 } })

theorem witness_PowerEvents :
    (getFn idle 0).en = true ∧ online idle 0 = true ∧ (getFn idle 0).feats.apstEn = true ∧
    (getFn idle 0).feats.apst[(getFn idle 0).feats.power % 32]? = some (3, 10) ∧ 10 ≠ 0 ∧ (∀ c ∈ idle.cmds, c.fn ≠ 0) ∧ (∀ c ∈ lateCmds idle, c.who.1 ≠ 0) ∧
    (∀ e ∈ (getFn idle 0).sqs, e.2.waiting = 0) ∧ 10 ≤ msSince idle (getFn idle 0).idleFrom ∧
    (getFn idle 0).feats.power % 32 < 3 ∧ idle.mode.ignNormalSince = some 0 ∧ flagF idle PWR_IGN_EN = true ∧
    flagF idle PWR_STATUS_IGN_OFF = false ∧ getF idle PWR_IGN_DELAY_S * 1000 ≤ msSince idle 0 ∧ asleep.mode.cur = .hibernate ∧
    flagF asleep PWR_WAKE_TIMER = true ∧ getF asleep PWR_TIMER_STROKES ≠ 0 ∧
    asleep.mode.enteredAt + getF asleep PWR_TIMER_STROKES ≤ asleep.time.stroke := by decide

/-- PARK with nothing to keep back, and a burst whose dies are idle. -/
def parked : State := inMode .park (setF PWR_PARK_BURST_KIB 0 live)

theorem witness_PowerEvents_bursts :
    parked.mode.cur = .park ∧ parked.time.frac = 0 ∧ flagF parked PWR_STATUS_BURST = false ∧
    min (getF parked PWR_PARK_BURST_KIB) (effLimitKib parked / 2) * 1024 ≤ dirtyBytes parked ∧
    flagF (setF PWR_STATUS_BURST 1 parked) PWR_STATUS_BURST = true ∧
    (∀ e ∈ ({ parked with ftl := { parked.ftl with dies := [(0, {})] } } : State).ftl.dies,
      e.2.queue = [] ∧ e.2.running = none ∧ e.2.suspended = none) := by decide

theorem witness_DeviceResets :
    live.mode.cur = .run ∧ (blot 0x0803 3 0 [] live).mode.cur = .run ∧ asleep.mode.cur = .hibernate ∧
    (inMode .halt live).mode.cur = .halt := by decide

/-! ### Admin queues, Abort, events and Features -/

theorem witness_QueuesAndFeatures :
    AdminOk { nsid0 := true, atHead := true } (ent 0 0) served ∧ AdminOk { nsid0 := true } (ent 0 0) served ∧
    AdminOk {} (ent 0 0) served ∧ (2 ≤ 4096 ∧ 4096 ≤ 4096 ∧ 512 ≠ 0) ∧ 512 ≤ queueLimit taken 0 true ∧
    mhas (getFn taken 0).cqs 512 = false ∧ 63 < vectors taken 0 ∧ 512 ≤ queueLimit taken 0 false ∧
    mhas (getFn taken 0).sqs 512 = false ∧ mhas (getFn taken 0).cqs 1 = true ∧ mhas (getFn taken 0).sqs 1 = true ∧
    (∃ e ∈ (getFn taken 0).sqs, e.2.cqid = 1) ∧ (getFn taken 0).aers.length < 8 ∧ (getFn taken 0).events.find? (eventOn (getFn taken 0)) = none ∧
    hasIoSq taken 0 = true ∧ 65535 < 65536 ∧ 3 < 4 := by
  repeat' (first | decide | constructor)

/-- A completion queue that no submission queue feeds. -/
def spareCq : State := { served with fns := [(0, { pf with
  cqs := pf.cqs ++ [(2, { size := 16, base := 0, vector := 2, ien := true })] })] }

theorem witness_QueuesAndFeatures_spare :
    AdminOk { nsid0 := true, atHead := true } (ent 0 0) spareCq ∧ mhas (getFn (takeEntry 0 0 spareCq) 0).cqs 2 = true ∧
    (∀ e ∈ (getFn (takeEntry 0 0 spareCq) 0).sqs, e.2.cqid ≠ 2) := by
  repeat' (first | decide | constructor)

/-- An event request that waits, a read that has not moved data and a write that has. -/
def outstanding : State := { served with
  fns := [(0, { pf with aers := [3] })],
  cmds := [{ fn := 0, sqid := 1, cid := 1, nsid := 1, order := 0, kind := .read 0 1 [] },
           { fn := 0, sqid := 1, cid := 2, nsid := 1, order := 1, kind := .write 0 1 0 none, moved := true }] }

theorem witness_AbortCommand :
    AdminOk { nsid0 := true } (ent 0 0) outstanding ∧ 3 ∈ (getFn (takeEntry 0 0 outstanding) 0).aers ∧
    ¬(1 = 0 ∧ 1 ∈ (getFn (takeEntry 0 0 outstanding) 0).aers) ∧
    (∃ c, findCmd (takeEntry 0 0 outstanding) 0 1 1 = some c ∧ c.moved = false) ∧
    (∃ c, findCmd (takeEntry 0 0 outstanding) 0 1 2 = some c ∧ c.moved = true) ∧
    findCmd (takeEntry 0 0 outstanding) 0 1 3 = none ∧ lateCmds (takeEntry 0 0 outstanding) = [] ∧
    (takeEntry 0 0 outstanding).trans = [] ∧ (takeEntry 0 0 outstanding).duct.starts = [] ∧
    (takeEntry 0 0 outstanding).mode.modeReqs = [] ∧ (takeEntry 0 0 outstanding).fw.commit ≠ some (0, 1, 3) :=
  ⟨by repeat' (first | decide | constructor), by decide, by decide, ⟨_, rfl, rfl⟩, ⟨_, rfl, rfl⟩, by decide, by decide, by decide,
    by decide, by decide, by decide⟩

/-- A HOLD and a GRAPH START that wait for their boundaries, and an error event that waits for a request. -/
def askedFor : State := { served with
  fns := [(0, { pf with events := [{ type := 0, info := 0, log := 1 }] })],
  trans := [{ unit := .ns 1, kind := .hold 0 0 9 0, at_ := 0, fn := 0, sqid := 1, cid := 1 }],
  duct := { served.duct with starts := [{ graph := 0, tag := 0, limit := 0, fn := 0, sqid := 1, cid := 2, at_ := 0 }] } }

theorem witness_AbortCommand_late :
    AdminOk { nsid0 := true } (ent 0 0) askedFor ∧ findCmd (takeEntry 0 0 askedFor) 0 1 1 = none ∧
    lateCmds (takeEntry 0 0 askedFor) = [] ∧ (abortTrans 0 1 1 (takeEntry 0 0 askedFor)).isSome = true ∧
    abortTrans 0 1 2 (takeEntry 0 0 askedFor) = none ∧ (abortStart 0 1 2 (takeEntry 0 0 askedFor)).isSome = true ∧
    (getFn (takeEntry 0 0 askedFor) 0).events.find? (eventOn (getFn (takeEntry 0 0 askedFor) 0)) =
      some { type := 0, info := 0, log := 1 } := by
  repeat' (first | decide | constructor)

/-! ### Identify, logs, namespaces, virtualization and directives -/

theorem witness_IdentifyAndLogs :
    AdminOk { safeOk := true, len := 4096, toNs := nsScoped 0 } (ent 0 1) served ∧ AdminOk { safeOk := true, len := 4096, toNs := nsScoped 0x20 } (ent 0 1024) served ∧
    AdminOk { safeOk := true, len := 4096, toNs := nsScoped 1 } (ent 0 0) served ∧
    (1 ≤ 1 ∧ 1024 ≤ 1024) ∧ attachedNs taken 0 1 = none ∧ nsPending taken 1 = false ∧ attachedNs taken 0 1024 = none ∧
    nsPending taken 1024 = false ∧ AdminOk { safeOk := true, len := (524287 + 1) * 4 } (ent 0 0) served ∧
    (524287 + 1) * 4 ≤ 2097152 ∧ 2108 % 4 = 0 ∧ 2108 < (strokeLog taken).length ∧ (strokeLog taken).length ≤ 2112 ∧
    2112 % 4 = 0 := by
  repeat' (first | decide +kernel | constructor)

/-- A plain and a sealed namespace attached to the PF, 1 MiB each, on media of 2 TiB. -/
def plainNs : Ns := { sealed := false, nsze := 256, ncap := 256, attached := [0], stream := 0 }

def sealedNsp : Ns := { sealed := true, nsze := 1024, ncap := 1024, attached := [0], stream := 1 }

def stored : State := setF FTL_CFG_WIDTH 16 (setF FTL_CFG_RESERVE 4
  { served with nss := [(1, plainNs), (2, sealedNsp)], ftl := { served.ftl with rawGib := 2048 } })

/-- A create structure for a plain namespace of 256 blocks. -/
def createData : Bytes := le 8 256 ++ le 8 256 ++ zeros 4080

theorem witness_Namespaces_create :
    AdminOk { pfOnly := true, nsid0 := true, len := 4096, got := some createData.length } (ent 0 0) stored ∧
    createError (takeEntry 0 0 stored) (fixLen 4096 createData) = none := by
  repeat' (first | decide +kernel | constructor)

def held : State := { stored with nss := [(1, plainNs), (2, { sealedNsp with holds := [(0, { first := 0, last := 9, tag := 0 })] })] }

theorem witness_Namespaces_commands :
    1 ≠ 0xFFFFFFFF ∧ getNs (takeEntry 0 0 stored) 1 = some plainNs ∧ plainNs.busy ≠ .converting ∧ nsPending (takeEntry 0 0 stored) 1 = false ∧
    AdminOk { pfOnly := true, toNs := true } (ent 0 1) stored ∧ plainNs.holds = [] ∧
    flowsHeld (takeEntry 0 0 stored) 1 (fun _ => true) = false ∧
    getNs (takeEntry 0 0 held) 2 = some { sealedNsp with holds := [(0, { first := 0, last := 9, tag := 0 })] } ∧
    AdminOk { pfOnly := true, toNs := true } (ent 0 2) held ∧ AdminOk { pfOnly := true, len := 4096, toNs := true } (ent 0 1) stored ∧ badCtrls [127] = false ∧
    (∀ f ∈ [127], plainNs.attached.contains f = false) ∧ (∀ f ∈ [0], plainNs.attached.contains f = true) ∧
    badCtrls [0] = false ∧ flowsHeld (takeEntry 0 0 stored) 1 [0].contains = false ∧
    AdminOk { pfOnly := true, toNs := true } (ent 0 2) stored ∧ attachedNs (takeEntry 0 0 stored) 0 1 = some plainNs ∧
    attachedNs (takeEntry 0 0 stored) 0 2 = some sealedNsp ∧ 1 < 2 ∧ 2 < 3 ∧ plainNs.busy = .none ∧
    AdminOk { pfOnly := true, nsid0 := true } (ent 0 0) stored ∧ (takeEntry 0 0 stored).mode.cur = .run ∧
    (takeEntry 0 0 stored).mode.wantSanitize = none ∧ (takeEntry 0 0 stored).trans = [] ∧
    (∀ e ∈ (takeEntry 0 0 stored).nss, e.2.holds = []) := by
  repeat' (first | decide +kernel | constructor)

/-- A delete that was accepted a stroke ago; a namespace that is being formatted; SANITIZE at a boundary. -/
def toCommit : State := { stored with
  time := { stored.time with stroke := 1 },
  trans := [{ unit := .ns 1, kind := .nsDelete, at_ := 0, fn := 0, sqid := 0, cid := 1 }] }

theorem witness_Namespaces_commits :
    toCommit.time.frac = 0 ∧ (∀ t ∈ toCommit.trans, transDue toCommit t = true) ∧
    ({ toCommit with time := { toCommit.time with frac := 1 } } : State).time.frac ≠ 0 ∧
    getNs ({ stored with nss := [(1, { plainNs with busy := .formatting })] } : State) 1 = some { plainNs with busy := .formatting } ∧
    (inMode .sanitize stored).mode.cur = .sanitize ∧ mayBegin (inMode .sanitize stored) = true := by decide

/-- VF 127 is offline and has a queue pair and a vector. -/
def offlineVf : State := { served with numVfs := 127, fns := [(0, pf), (127, { flexQ := 1, flexV := 1 })] }

theorem witness_VirtualizationAndDirectives_virtual :
    AdminOk { pfOnly := true, nsid0 := true } (ent 0 0) offlineVf ∧ (1 ≤ 127 ∧ 127 ≤ 127) ∧
    fnPending (takeEntry 0 0 offlineVf) 127 = false ∧ online (takeEntry 0 0 offlineVf) 127 = false ∧
    badResources (takeEntry 0 0 offlineVf) 127 0 1024 = false ∧ 127 ≤ (takeEntry 0 0 offlineVf).numVfs ∧
    noFollower (takeEntry 0 0 offlineVf) 127 = false ∧ queuePairs (takeEntry 0 0 offlineVf) 127 ≠ 0 ∧
    vectors (takeEntry 0 0 offlineVf) 127 ≠ 0 ∧ AdminOk { pfOnly := true, nsid0 := true } (ent 0 0) withVf ∧
    online (takeEntry 0 0 withVf) 127 = true ∧ fnPending (takeEntry 0 0 withVf) 127 = false := by
  repeat' (first | decide +kernel | constructor)

/-- The PF has the Streams directive enabled in namespace 1. -/
def streaming : State := { stored with nss := [(1, { plainNs with dirOn := [0] })] }

theorem witness_VirtualizationAndDirectives_directives :
    AdminOk {} (ent 0 1) streaming ∧ AdminOk { toNs := true } (ent 0 1) streaming ∧ (takeEntry 0 0 streaming).mon.selfTest = 0 ∧
    attachedNs (takeEntry 0 0 streaming) 0 1 = some { plainNs with dirOn := [0] } ∧
    nsPending (takeEntry 0 0 streaming) 1 = false ∧ ({ plainNs with dirOn := [0] } : Ns).dirOn.contains 0 = true ∧
    65535 < 65536 ∧ AdminOk { len := (7 + 1) * 4, toNs := true } (ent 0 1) streaming ∧ 7 < 2 ^ 32 := by
  repeat' (first | decide +kernel | constructor)

/-! ### Graphs, keys, firmware and the management endpoint -/

/-- A graph of one node of the kind, with no run, and with one whose node is in the state. -/
def aNode (k : NodeKind) : GNode :=
  { kind := k, flags := 0, succs := [], affinity := 0, fallback := 0, timeout := 5, binds := [], image := 0, entry := 0,
    xpage := 0, params := [] }

def aGraph (k : NodeKind) : Graph :=
  { fn := 0, nodes := [aNode k], bufs := [], images := [], timeout := 5, coreUs := 100, engineKib := 100 }

def aRun (st : Nat) : GRun :=
  { id := 1, tag := 0, limit := 0, gCore := 100, gEng := 100, nodes := [{ st := st, waited := 6 }] }

def withGraph (k : NodeKind) (st : Nat) : State := { served with
  duct := { served.duct with graphs := [(1, { aGraph k with run := some (aRun st) }), (2, aGraph k)],
                             partials := [(0, zeros 4)] } }

theorem witness_GraphCommands_load :
    affords (fetch (withGraph .nib 2)) 0 .wrBytes = true ∧ mayMove (fetch (withGraph .nib 2)) 0 = true ∧
    ioGate (ent 1 0) (ioOnly (withGraph .nib 2)) = true ∧ (ent 1 0).badOpcode = false ∧ (0 + 1) * 4 ≤ (zeros 4).length ∧
    ([] : Bytes).length < (0 + 1) * 4 ∧ proxyOf (ioOnly (withGraph .nib 2)) 0 = none ∧ badEntry (ent 1 0) = false ∧ (ent 1 0).nsid = 0 ∧ 0 < 2 ^ 19 ∧
    xferError plain false ((0 + 1) * 4) = none ∧
    (numdData 0 (zeros 4)).length < 64 * 2 ^ 20 ∧ 4 = (partialOf (fetch (withGraph .nib 2)) 0).length ∧ 4 ≠ 0 ∧
    4 + (numdData 0 (zeros 4)).length = 8 ∧ 8 ≠ (partialOf (fetch (withGraph .nib 2)) 0).length ∧ 8 < 2 ^ 32 := by decide +kernel

theorem witness_GraphCommands_runs :
    ownGraph (fetch (withGraph .nib 2)) 0 2 = some (aGraph .nib) ∧ startPending (fetch (withGraph .nib 2)) 2 = false ∧
    runLive (aGraph .nib) = false ∧ ownGraph (fetch (withGraph .nib 2)) 0 1 = some { aGraph .nib with run := some (aRun 2) } ∧
    startPending (fetch (withGraph .nib 2)) 1 = false ∧ runLive { aGraph .nib with run := some (aRun 2) } = true ∧
    (aRun 2).id = 1 ∧ ownGraph (charge 0 .wrBytes 4 (fetch (withGraph .nib 2))) 0 2 = some (aGraph .nib) ∧
    startPending (charge 0 .wrBytes 4 (fetch (withGraph .nib 2))) 2 = false := by decide +kernel

/-- A blob for slot 0: a cipher key of 32 bytes, wrapped with the key of slot 1 by RFC 3394. -/
def keyBlob : Bytes := [0x20#8, 1#8] ++ le 2 136 ++ [1#8, 3#8] ++ le 2 1 ++ zeros 128

def keyed : State := { served with crypt := { served.crypt with
  slots := [(1, { use := 4, owner := 0, any := false, key := zeros 32 })] } }

/-- The blob passes every check but the unwrap, which is opaque: it passes whenever the unwrap gives 32 bytes. -/
theorem witness_KeysAndFirmware_blob :
    AdminOk { pfOnly := true, len := (33 + 1) * 4, toNs := true, got := some keyBlob.length } (ent 0 0) keyed ∧
    (∀ k, blobKey (takeEntry 0 0 keyed) 0 (numdData 33 keyBlob) = some k → k.length = 32 →
      blobError (takeEntry 0 0 keyed) 0 33 0 0 (numdData 33 keyBlob) = none) ∧
    AdminOk { pfOnly := true, len := (33 + 1) * 4, toNs := true, got := some keyBlob.length } (ent 0 1) keyed ∧ getNs (takeEntry 0 0 keyed) 1 = none := by
  refine ⟨by repeat' (first | decide +kernel | constructor), ?_, by repeat' (first | decide +kernel | constructor), by decide⟩
  intro k hk hl
  have h1 : blobForm (takeEntry 0 0 keyed) 0 33 0 0 (numdData 33 keyBlob) = none := by decide +kernel
  have h3 : byteAt (numdData 33 keyBlob) 4 = 1 := by decide +kernel
  have h4 : byteAt (numdData 33 keyBlob) 5 = 3 := by decide +kernel
  simp [blobError, firstError, h1, h3, h4, hk, useLenOk, hl]

/-- A blob for slot 0 that the signature unit unwraps: a cipher key of 32 bytes. -/
def importBlob : Bytes := [0x20#8, 1#8] ++ le 2 136 ++ [0#8, 3#8] ++ le 2 0 ++ zeros 128

theorem witness_KeysAndFirmware_import :
    byteAt (numdData 33 importBlob) 4 = 0 ∧ blobForm (takeEntry 0 0 keyed) 0 33 0 0 (numdData 33 importBlob) = none ∧
    signIdle (takeEntry 0 0 keyed) = true ∧ byteAt (numdData 33 keyBlob) 4 ≠ 0 := by decide +kernel

/-- A package of no component is in the staging area, complete; a commit runs. -/
def staged : State := setF FWU_STATUS_STAGE 3 { served with ink := { served.ink with bytes := [(stagingBase + 2, 0#8)] } }

theorem witness_KeysAndFirmware_package :
    AdminOk { pfOnly := true, safeOk := true, nsid0 := true, len := (254 + 1) * 4, got := some 1020 } (ent 0 0) served ∧ 254 < 255 ∧
    flagF taken FWU_STATUS_COPY_DUE = false ∧ AdminOk { pfOnly := true, safeOk := true, nsid0 := true } (ent 0 0) staged ∧
    (takeEntry 0 0 staged).fw.commit = none ∧ packageOk (takeEntry 0 0 staged) = true ∧ taken.fw.commit = none ∧
    packageOk taken = false := by
  repeat' (first | decide +kernel | constructor)

/-- ACTIVATE is wanted, and runs after LEAN; BOOT with a boot copy of component 1 to be made. -/
def toActivate : State := { live with mode := { live.mode with wantActivate := true } }

def activating : State := { live with mode := { live.mode with cur := .activate, lastOp := .lean } }

def copying : State := { live with
  mode := { live.mode with cur := .boot, stage := .computeGood }, fw := { live.fw with record := some [] },
  ink := { live.ink with bytes := [(stagingBase + 2, 1#8), (stagingBase + 16, 1#8)] } }

theorem witness_KeysAndFirmware_activation :
    mayBegin toActivate = true ∧ toActivate.mode.wantActivate = true ∧ toActivate.mode.cur = .run ∧ toActivate.mode.stop = none ∧
    packageOk activating = false ∧
    packageOk { staged with mode := activating.mode } = true ∧ activating = atFrac 0 activating ∧ activating.mode.cur = .activate ∧ activating.mode.lastOp = .lean ∧
    copying.mode.cur = .boot ∧ copying.mode.stage = .computeGood ∧ (nextCopy copying).map (byteAt · 0) = some 1 := by
  decide +kernel

theorem witness_ManagementEndpoint :
    miHears served = true ∧ 127 < 128 ∧ 2 ^ 32 - 1 < 2 ^ 32 ∧ 255 + 1 ≤ 256 ∧ 255 + (zeros 1).length ≤ 256 ∧
    served.mode.cur = .run ∧ served.mode.trans = none ∧ served.mon.selfTest = 0 ∧ fnPending served 127 = false ∧ AdminOk {} (ent 0 0) served := by
  repeat' (first | decide +kernel | constructor)

/-! ### Doorbells, transfers and NVM commands -/

theorem witness_DoorbellsAndTransfers_doorbells :
    served = atFrac 0 served ∧ hearsDoorbell served 0 = true ∧
    mget (getFn served 0).sqs 1 = some { size := 16, base := 4096, cqid := 1, prio := 0, head := 0, tail := 1 } ∧ 15 < 16 ∧
    16 ≤ 16 ∧ served.mode.trans = none ∧ served.mode.cur.deep = false ∧ mget (getFn served 0).sqs 2 = none ∧
    hearsDoorbell live 0 = false ∧
    mget (getFn served 0).cqs 1 = some { size := 16, base := 12288, vector := 1, ien := true } ∧
    ({ size := 16, base := 12288, vector := 1, ien := true } : Cq).waiting = [] ∧ mget (getFn served 0).cqs 2 = none := by
  decide

/-- A command of the PF that is outstanding. -/
def out1 (c : Cmd) : State := setF STK_OVR_CTL_HOLD_STROKES 64 { stored with time := { stored.time with stroke := 64 }, cmds := [c] }

def aCmd (nsid : Nat) (k : CmdKind) (moved held : Bool) : Cmd :=
  { fn := 0, sqid := 1, cid := 1, nsid := nsid, order := 0, kind := k, moved := moved, held := held }

theorem witness_DoorbellsAndTransfers_data :
    4096 = 1 * ((getNs (out1 (aCmd 1 (.write 0 1 0 none) true false)) 1).map (·.blk)).getD 4096 ∧ 4096 ≤ 4096 ∧ 4095 < 4096 ∧
    mayMove (out1 (aCmd 2 (.append 1 4096 0 (some 0) none) true false)) 0 = true ∧
    flowsOn (out1 (aCmd 2 (.append 1 4096 0 (some 0) none) true false)) 2 = false ∧
    mirrorTarget (out1 (aCmd 2 (.append 1 4096 0 (some 0) none) true false)) 2 = false ∧ appendBytes 1 4096 ≤ 4096 := by
  decide +kernel

theorem witness_DoorbellsAndTransfers_transfers :
    findCmd (out1 (aCmd 1 (.write 0 1 0 none) true false)) 0 1 1 = some (aCmd 1 (.write 0 1 0 none) true false) ∧
    mayMove (out1 (aCmd 1 (.write 0 1 0 none) true false)) 0 = true ∧
    findCmd (out1 (aCmd 2 (.append 1 4096 0 (some 0) none) true false)) 0 1 1 =
      some (aCmd 2 (.append 1 4096 0 (some 0) none) true false) ∧
    findCmd (out1 (aCmd 1 (.read 0 1 []) false false)) 0 1 1 = some (aCmd 1 (.read 0 1 []) false false) ∧
    (aCmd 1 (.read 0 1 []) false false).blocked = false ∧
    findCmd (out1 (aCmd 2 (.append 1 4096 0 none (some 0)) false true)) 0 1 1 =
      some (aCmd 2 (.append 1 4096 0 none (some 0)) false true) ∧
    getF (out1 (aCmd 2 (.append 1 4096 0 none (some 0)) false true)) STK_OVR_CTL_HOLD_STROKES = 64 ∧
    0 + 64 ≤ (out1 (aCmd 2 (.append 1 4096 0 none (some 0)) false true)).time.stroke ∧
    (out1 (aCmd 2 (.append 1 4096 0 none (some 1)) false true)).time.stroke < 1 + 64 := by decide +kernel

theorem witness_HostReads :
    IoOk (ent 1 1) (ioOnly stored) (fetch stored) ∧ NsOk (ent 1 1) plainNs (fetch stored) ∧ 1 = 65536 % 65536 + 1 ∧
    lengthError (ent 1 1) plainNs 255 1 true = none ∧ lengthError (ent 1 1) plainNs 255 1 false = none ∧
    513 = 512 % 65536 + 1 ∧ 2097152 < 513 * plainNs.blk ∧ 512 * plainNs.blk ≤ 2097152 ∧ plainNs.nsze < 256 + 1 ∧
    badEntry (ent 1 3) = false ∧ IoOk (ent 1 3) (ioOnly stored) (fetch stored) ∧ attachedNs (fetch stored) 0 3 = none ∧
    converting (fetch stored) 3 = false := by
  repeat' (first | decide +kernel | constructor)

theorem witness_HostWrites :
    hazardRoom (ioOnly stored) = true ∧ IoOk (ent 1 1) (ioOnly stored) (fetch stored) ∧ NsOk (ent 1 1) plainNs (fetch stored) ∧
    plainNs.sealed = false ∧ (fetch stored).mode.cur ≠ .readOnly ∧ lengthError (ent 1 1) plainNs 255 1 true = none ∧
    255 + 1 ≤ plainNs.nsze ∧ xferError plain false 16 = none ∧ (fetch stored).cmds = [] ∧ plainNs.nsze < 256 + 1 ∧
    IoOk (ent 1 2) (ioOnly stored) (fetch stored) ∧ NsOk (ent 1 2) sealedNsp (fetch stored) ∧ sealedNsp.sealed = true ∧ 4096 ≤ 4096 ∧
    512 ≤ 512 ∧ 512 = 511 % 65536 + 1 ∧ xferError plain false (appendBytes 512 4096) = none ∧ 4096 < 4097 ∧ 512 < 513 ∧
    IoOk (ent 1 1) (ioOnly (inMode .readOnly stored)) (fetch (inMode .readOnly stored)) ∧
    NsOk (ent 1 1) plainNs (fetch (inMode .readOnly stored)) ∧ (fetch (inMode .readOnly stored)).mode.cur = .readOnly ∧
    1 ≠ 0xFFFFFFFF ∧ IoOk (ent 1 0xFFFFFFFF) (ioOnly stored) (fetch stored) ∧ badEntry (ent 1 0xFFFFFFFF) = false ∧
    deferredHit (fetch stored) (ent 1 0xFFFFFFFF) = false ∧
    (∀ e ∈ (fetch stored).nss, e.2.attached.contains 0 = true → nsPending (fetch stored) e.1 = false) := by
  repeat' (first | decide +kernel | constructor)

/-- A deallocation of unit 3 waits; units 2 to 4 are mapped. -/
def toDealloc : State := { stored with
  nss := [(1, { plainNs with map := [(2, .zeroed), (3, .zeroed), (4, .zeroed)] })],
  ftl := { stored.ftl with deallocs := [{ nsid := 1, unit := 3, count := 1, seq := 5 }] } }

theorem witness_DeallocatePass :
    stored.ftl.deallocs = [] ∧ toDealloc.ftl.deallocs = { nsid := 1, unit := 3, count := 1, seq := 5 } :: [] ∧
    getNs toDealloc 1 = some { plainNs with map := [(2, .zeroed), (3, .zeroed), (4, .zeroed)] } ∧
    Map.wf ([(2, Loc.zeroed), (3, .zeroed), (4, .zeroed)] : Map Loc) = true ∧
    unitSeq toDealloc { plainNs with map := [(2, .zeroed), (3, .zeroed), (4, .zeroed)] } 3 < 5 := by decide

/-! ### Evidence, flows and ports -/

/-- Sixteen holds on namespace 2. -/
def fullHolds : State := { stored with nss := [(2, { sealedNsp with
  holds := (List.range 16).map (fun i => (i, { first := 0, last := 9, tag := i })) })] }

/-- A token of 128 bytes: ACTION and ALG, hold, range, NSID, nonce and expiry; its signature is zeros. -/
def token (action nsid first last nonce : Nat) (key : Bytes) : Bytes :=
  [0x10#8, 1#8] ++ le 2 128 ++ le 2 0 ++ zeros 2 ++ fixLen 8 key ++ le 4 nsid ++ le 1 action ++ [1#8] ++ le 2 0 ++ le 6 first
    ++ zeros 2 ++ le 6 last ++ zeros 2 ++ le 8 nonce ++ le 8 (2 ^ 63) ++ zeros 72

def authNs : Ns := { sealedNsp with rakAlg := 1, holds := [(1, { first := 0, last := 9, tag := 0 })] }

theorem witness_HoldAndRelease :
    IoOk (ent 1 2) (ioOnly stored) (fetch stored) ∧ NsOk (ent 1 2) sealedNsp (fetch stored) ∧ sealedNsp.sealed = true ∧
    sealedNsp.holds.length < 16 ∧ IoOk (ent 1 2) (ioOnly fullHolds) (fetch fullHolds) ∧
    NsOk (ent 1 2) { sealedNsp with holds := (List.range 16).map (fun i => (i, { first := 0, last := 9, tag := i })) }
      (fetch fullHolds) ∧
    16 ≤ ((List.range 16).map (fun i => (i, ({ first := 0, last := 9, tag := i } : Hold)))).length ∧
    authNs.holds = [(1, { first := 0, last := 9, tag := 0 })] ∧ 2 ^ 48 - 2 < 2 ^ 48 - 1 ∧ 2 ^ 48 - 1 < 2 ^ 48 ∧
    xferError plain false ((31 + 1) * 4) = none ∧ signIdle (fetch stored) = true ∧ (zeros 128).length = (31 + 1) * 4 ∧
    tokenError (fetch stored) 2 31 sealedNsp (numdData 31 (token 1 3 0 9 1 [])) = some .authFail := by
  repeat' (first | decide +kernel | constructor)

/-- Where the device's key identifier is 0 and the signature verifies (both are opaque), a token for its own hold is accepted; one that
frees strokes under another hold meets HOLD_ACTIVE. -/
theorem witness_HoldAndRelease_signed
    (own : keyId (fetch stored).chain.hashSel (fetch stored).chain.alg (fetch stored).chain.keyEpoch = zeros 8)
    (v : ∀ t : Bytes, Config.sigVerifies 1 [] (slice t 0 64) (t.drop 64) = true) :
    tokenError (fetch stored) 2 31 authNs (numdData 31 (token 1 2 0 9 1 [])) = none ∧
    tokenError (fetch stored) 2 31 authNs (numdData 31 (token 2 2 0 9 1 [])) = some .holdActive := by
  have f1 : deviceId (fetch stored) = 0 := by decide
  have f2 : now (fetch stored) = 0 := by decide
  have f3 : authNs.rakAlg = 1 ∧ authNs.lastNonce = 0 ∧ authNs.rak = [] := by decide
  have g : ∀ act, act = 1 ∨ act = 2 → ∀ t, t = numdData 31 (token act 2 0 9 1 []) → leAt t 2 2 = 128 ∧ byteAt t 0 = 16 ∧
      byteAt t 1 = 1 ∧ byteAt t 20 = act ∧ byteAt t 21 = 1 ∧ leAt t 4 2 = 0 ∧ leAt t 16 4 = 2 ∧ leAt t 40 8 = 1 ∧
      leAt t 48 8 = 2 ^ 63 ∧ slice t 8 8 = zeros 8 ∧ tokenReserved t = false ∧ otherHold authNs t = decide (act = 2 ∨ act = 1) := by
    rintro _ (rfl | rfl) _ rfl <;> decide +kernel
  constructor
  · obtain ⟨g0, g1, g2, g3, g4, g5, g6, g7, g8, g9, g10, _⟩ := g 1 (.inl rfl) _ rfl
    simp [tokenError, tokenForm, firstError, tokenRefused, g0, g1, g2, g3, g4, g5, g6, g7, g8, g9, g10, f1, f2, f3, own, v]
  · obtain ⟨g0, g1, g2, g3, g4, g5, g6, g7, g8, g9, g10, g11⟩ := g 2 (.inr rfl) _ rfl
    simp [tokenError, tokenForm, firstError, tokenRefused, g0, g1, g2, g3, g4, g5, g6, g7, g8, g9, g10, g11, f1, f2, f3, own, v]

/-- Stroke 5 is sealed and covered by a flourish of 100 bytes; an export lapsed at stroke 1,024. -/
def proven : State := { stored with
  time := { stored.time with stroke := 1024 },
  crypt := { stored.crypt with engs := [(4, { allot := { spare := 1 } })] },
  chain := { stored.chain with
    flourishes := [({ index := 0, first := 0, last := 9, alg := 1, epoch := 0, body := [], fd := [] }, zeros 100)],
    roots := [{ n := 5, prevSealed := none, count := 1, flags := 0, hashSel := 1, t := [], c := [], cPrev := [], leaves := [],
                recs := [], rseq := 0, dtime := 0, inkAddr := 0 }] } }

theorem witness_ProofAndExport :
    IoOk (ent 1 2) (ioOnly proven) (fetch proven) ∧ NsOk (ent 1 2) sealedNsp (fetch proven) ∧
    1023 + (0 % 2 ^ 32 + 1) ≤ sealedNsp.nsze ∧ sealedNsp.nsze < 1024 + (0 % 2 ^ 32 + 1) ∧ readWaits (fetch proven) 0 = false ∧
    signFree (fetch proven) (qosOf (fetch proven) 0).cls = true ∧ 2 ≠ 0 ∧ 3 < 4 ∧ xferError plain false ((24 + 1) * 4) = none ∧
    proofOut (fetch proven) 2 (5 % 2 ^ 48) 2 = .ok (zeros 100) ∧ (zeros 100).length ≤ (24 + 1) * 4 ∧
    (23 + 1) * 4 < (zeros 100).length ∧ 4 ≤ 4 ∧ compOk 2 9 = true ∧ compOk 0 0 = true ∧ 2 ^ 32 % 2 ^ 32 = 0 ∧
    5 % 2 ^ 48 ≤ 5 % 2 ^ 48 ∧ 1 % 2 ^ 32 ≠ 0 ∧ (fetch proven).exports = [] := by
  repeat' (first | decide +kernel | constructor)

/-- A buffer as large as the bundle holds it, whatever the opaque parts of the bundle are. -/
theorem witness_ProofAndExport_fits (bs : Bytes)
    (_ : bundleHead (fetch proven) 2 sealedNsp 5 5 0 0 false = bs) :
    (bs ++ bundleTail (fetch proven) false bs).length ≤ ((bs ++ bundleTail (fetch proven) false bs).length + 1) * 4 ∧
    xferError plain false (((bs ++ bundleTail (fetch proven) false bs).length + 1) * 4) = none := by
  refine ⟨by omega, ?_⟩
  simp [xferError, plain]

/-- A descriptor of a flow on port 3, payload type 96, without SSRC_LEARN or rate. -/
def flowDesc : Bytes := [1#8, 1#8] ++ le 2 64 ++ [3#8, 0#8, 0#8, 96#8] ++ zeros 56

/-- The PF may bind one flow to namespace 2, and has bound flow 9; a request that is due waits. -/
def aFlow : Flow := { fn := 0, nsid := 2, stream := 1, desc := flowDesc }

def binding : State := setF (FN_FUNC_FLOW_QUOTA 0) 1 stored

def bound : State := setF (FN_FUNC_FLOW_QUOTA 0) 1 { stored with ing := { stored.ing with flows := [(9, aFlow)] } }

theorem witness_FlowAndRingCommands_flows :
    IoOk (ent 1 2) (ioOnly binding) (fetch binding) ∧ badEntry (ent 1 2) = false ∧
    converting (fetch binding) 2 = false ∧ deferredHit (fetch binding) (ent 1 2) = false ∧ nsPending (fetch binding) 2 = false ∧
    attachedNs (fetch binding) 0 3 = none ∧ xferError plain false ((15 + 1) * 4) = none ∧
    bindError (bindRows (fetch binding) (ent 1 2) 15 (numdData 15 flowDesc)) = none ∧
    leAt (numdData 14 flowDesc) 2 2 ≠ (14 + 1) * 4 ∧ IoOk (ent 1 2) (ioOnly bound) (fetch bound) ∧
    leAt (numdData 0 [1#8, 1#8, 4#8, 0#8]) 2 2 = 4 ∧ byteAt (numdData 0 [1#8, 1#8, 4#8, 0#8]) 0 = 1 ∧
    byteAt (numdData 0 [1#8, 1#8, 4#8, 0#8]) 1 = 1 ∧ (ownFlow (fetch bound) 0 (9 % 65536)).isSome = true ∧
    sealedNs (fetch bound) 0 2 = true ∧
    bindError (modifyRows (fetch bound) (ent 1 2) 15 (9 % 65536) (numdData 15 flowDesc)) = none := by
  repeat' (first | decide +kernel | constructor)

def aBind : BindReq := { op := 1, fn := 0, sqid := 1, cid := 1, nsid := 2, flow := 9, desc := [], at_ := 0 }

theorem witness_FlowAndRingCommands_commit :
    ({ bound with ing := { bound.ing with binds := [aBind] } } : State).ing.binds = [aBind] ∧
    dueAt { bound with time := { bound.time with stroke := 1 }, ing := { bound.ing with binds := [aBind] } } aBind.at_ = true ∧
    dueAt { bound with ing := { bound.ing with binds := [aBind] } } aBind.at_ = false := by decide

/-- A ring of 64 slots at 4,096 with its consumer index at 4, on a vector. -/
def ringDesc (vec items : Nat) : Bytes := [2#8, 1#8] ++ le 2 32 ++ le 4 64 ++ le 8 4096 ++ le 8 4 ++ le 2 vec ++ le 1 items ++ zeros 5

theorem witness_FlowAndRingCommands_rings :
    IoOk (ent 1 0) (ioOnly served) (fetch served) ∧ badEntry (ent 1 0) = false ∧ (ent 1 0).nsid = 0 ∧
    xferError plain false ((7 + 1) * 4) = none ∧ leAt (numdData 7 (ringDesc 63 3)) 2 2 = (7 + 1) * 4 ∧
    ringBad 0 (numdData 7 (ringDesc 63 3)) = false ∧ leAt (numdData 7 (ringDesc 63 3)) 24 2 < vectors (fetch served) 0 ∧
    leAt (numdData 7 (ringDesc 64 4)) 2 2 = (7 + 1) * 4 ∧ ringBad 0 (numdData 7 (ringDesc 64 4)) = true ∧
    ringBad 0 (numdData 7 (ringDesc 64 3)) = false ∧ vectors (fetch served) 0 ≤ leAt (numdData 7 (ringDesc 64 3)) 24 2 ∧
    leAt (numdData 7 (ringDesc 64 3)) 2 2 = (7 + 1) * 4 ∧
    leAt (numdData 0 [2#8, 1#8, 4#8, 0#8]) 2 2 = (0 + 1) * 4 ∧ byteAt (numdData 0 [2#8, 1#8, 4#8, 0#8]) 0 = 2 ∧
    byteAt (numdData 0 [2#8, 1#8, 4#8, 0#8]) 1 = 1 := by
  repeat' (first | decide +kernel | constructor)

/-- Port 3 in auto-negotiation, running, with and without link, and with its own addresses. -/
def port3 (link : Nat) : State := setF (ING_PORT_LINK 3) link (setF (ING_PORT_ARP_EN 3) 1 (setF (ING_PORT_NDP_EN 3) 1
  (setF (ING_PORT_IPV4 3) 5 (setF (ING_PORT_IPV6_3 3) 6 (setF ING_CTL_PORT_EN 8 (setF (ING_PORT_TX_INV_AUTO 3) 1 { live with
    ing := { live.ing with ports := [(3, { running := true, mode := 2 })] } }))))))

theorem witness_Ports :
    3 < 4 ∧ bitAt (getF (port3 0) ING_CTL_PORT_EN) 2 = false ∧ bitAt (getF (port3 0) ING_CTL_PORT_EN) 3 = true ∧
    (getPort (port3 0) 3).running = true ∧ flagF (port3 0) (ING_PORT_LINK 3) = false ∧ (getPort (port3 0) 3).quiet = false ∧
    flagF (port3 1) (ING_PORT_LINK 3) = true ∧ 2 ≤ (getPort (port3 0) 3).mode ∧
    flagF (port3 0) (ING_PORT_TX_INV_AUTO 3) = true ∧
    (getPort { port3 0 with ing := { (port3 0).ing with ports := [(3, { running := true, mode := 0 })] } } 3).mode ≤ 1 ∧
    flagF (port3 1) (ING_PORT_ARP_EN 3) = true ∧
    getF (port3 1) (ING_PORT_IPV4 3) ≠ 0 ∧ flagF (port3 1) (ING_PORT_NDP_EN 3) = true ∧ portIpv6 (port3 1) 3 ≠ 0 := by decide +kernel

/-! ### Flash media and the mount -/

/-- Die 0 runs an operation; a host read waits behind it. -/
def hostRead : QueuedOp := { pos := 2, op := .read 0 1 }

def dieRuns (o : NandOp) : State := setF (MED_STATUS_TRAINED 0) 1 { stored with
  ftl := { stored.ftl with dies := [(0, { running := some { pos := 2, op := o }, queue := [hostRead] }), (1, {})] } }

/-- One codeword that decodes, and one that does not. -/
def goodRes : DecodeRes := { decoded := true, up := 0, down := 3 }

def badRes : DecodeRes := { decoded := false, up := 300, down := 300 }

theorem witness_FlashOperations :
    (getDie (dieRuns (.read 0 1)) 0).running = some { pos := 2, op := .read 0 1 } ∧
    (({ pos := 2, op := .read 0 1 } : QueuedOp).cws.filter (fun k => !((QueuedOp.cws { pos := 2, op := .read 0 1 }).zip [goodRes]).any (fun e => e.1 == k && hardOk (countRead 0 0 (dieRuns (.read 0 1))) e.2))) = [] ∧
    (({ pos := 2, op := .read 0 1 } : QueuedOp).cws.filter (fun k => !((QueuedOp.cws { pos := 2, op := .read 0 1 }).zip [badRes]).any (fun e => e.1 == k && hardOk (countRead 0 0 (dieRuns (.read 0 1))) e.2))) ≠ [] ∧
    0 < getF (countRead 0 0 (dieRuns (.read 0 1))) LDP_CTL_RETRIES ∧
    getF (countRead 0 0 (setF LDP_CTL_RETRIES 0 (dieRuns (.read 0 1)))) LDP_CTL_RETRIES ≤ 0 ∧
    (getDie (dieRuns (.readSoft 0)) 0).running = some { pos := 2, op := .readSoft 0 } ∧
    (getDie (dieRuns (.program 0 0)) 0).running = some { pos := 2, op := .program 0 0 } ∧
    (getDie (dieRuns (.erase 0 0)) 0).running = some { pos := 2, op := .erase 0 0 } ∧
    (getDie (dieRuns (.erase 0 0)) 0).suspends = 0 ∧ 0 < getF (dieRuns (.erase 0 0)) (MED_SUSP_ERS_MAX (0 / 16)) ∧
    getF (dieRuns (.erase 0 0)) (MED_SUSP_ERS_SLICE_US (0 / 16)) ≤
      ranUs { dieRuns (.erase 0 0) with time := { stored.time with stroke := 4 } } 0 ∧
    (getDie (dieRuns (.erase 0 0)) 0).suspended = none ∧ hostRead ∈ (getDie (dieRuns (.erase 0 0)) 0).queue ∧ hostRead.pos = 2 ∧
    hostRead.op = .read 0 1 := by decide +kernel

/-- Whether a die is QLC of two passes is opaque: a program that has made its first pass ends in either case. -/
theorem witness_FlashOperations_passes (h : slotCws 0 = 64) (two : Config.twoPass 0 = true) :
    (slotCws 0 = 64 ∧ Config.twoPass 0 = true ∧ ({ pos := 2, op := .program 0 0 } : QueuedOp).tries = 0) ∧
    ({ pos := 2, op := .program 0 0, tries := 1 } : QueuedOp).tries ≠ 0 := ⟨⟨h, two, rfl⟩, by decide⟩

/-- Channel 0, with one chip enable re-centred, with three, and at the temperature of its training. -/
def warmed (ces : List Nat) (t : Int) : State := setF (MED_STATUS_TRAINED 0) 1 (setF (MED_DRIFT_TEMP_C 0) 5 { live with
  ftl := { live.ftl with chans := [(0, { temp := t, ces := ces })] } })

theorem witness_Recentring :
    drifted (warmed [] (chanTemp live 0)) 0 = false ∧ flagF (warmed [0] 400) (MED_STATUS_TRAINED 0) = true ∧
    flagF (warmed [0] 400) (MED_STATUS_CH_FENCED 0) = false ∧ drifted (warmed [0] 400) 0 = true ∧
    (∀ l, l < 4 → (getDie (warmed [0] 400) (0 * 16 + 3 * 4 + l)).running = none) ∧
    (getChan (warmed [0, 1, 2] 400) 0).ces.contains 3 = false ∧ (getChan (warmed [0, 1, 2] 400) 0).ces.length = 3 ∧
    drifted (warmed [0, 1, 2] 400) 0 = true ∧ (getChan (warmed [0] 400) 0).ces.length ≠ 3 ∧ 3 < 4 := by decide +kernel

/-- The limit of suspends that the die's parameter page declares is opaque; any limit above 0 admits the first suspend. -/
theorem witness_FlashOperations_suspend (h : 0 < Config.eraseSuspendLimit 0) :
    (getDie (dieRuns (.erase 0 0)) 0).suspends <
      min (getF (dieRuns (.erase 0 0)) (MED_SUSP_ERS_MAX (0 / 16))) (Config.eraseSuspendLimit 0) := by
  rw [show (getDie (dieRuns (.erase 0 0)) 0).suspends = 0 by decide +kernel, Nat.lt_min]
  exact ⟨by decide +kernel, h⟩

/-- The state after the timed-out operation has been taken off die 0: another die of the channel answers. -/
def timedOut (t : Option Nat) : State := { dieRuns (.erase 0 0) with
  time := { stored.time with stroke := 1024 },
  ftl := { stored.ftl with dies := [(0, { running := some { pos := 2, op := .erase 0 0 }, timeoutAt := t }), (1, {})] } }

def afterTimeout (s : State) (again : Bool) : State :=
  blot 0x0402 2 0 (le 1 (opCode (.erase 0 0)) ++ le 1 (bit again)) (opTimedOut 0 { pos := 2, op := .erase 0 0 }
    (emit (.nand (0 / 16) 0 8 0) (updDie 0 (fun y => { y with
      running := none, suspended := none, served := 0, timeoutAt := some s.time.stroke }) s)))

theorem witness_FlashRecovery_timeout :
    (getDie stored 0).running = none ∧ (getDie (timedOut none) 0).running = some { pos := 2, op := .erase 0 0 } ∧
    (getDie (timedOut none) 0).timeoutAt.any (fun t => (timedOut none).time.stroke ≤ t + 1024) = false ∧
    (getDie (timedOut (some 0)) 0).timeoutAt.any (fun t => (timedOut (some 0)).time.stroke ≤ t + 1024) = true ∧
    1 ∈ usableDies (afterTimeout (timedOut none) false) ∧ 1 ∈ usableDies (afterTimeout (timedOut (some 0)) true) ∧ 1 / 16 = 0 / 16 ∧
    (getDie (afterTimeout (timedOut none) false) 1).timeoutAt ≠ some 1024 ∧
    (getDie (afterTimeout (timedOut (some 0)) true) 1).timeoutAt ≠ some 1024 := by decide +kernel

/-- A codeword of die 0 waits for the deep decoder, with and without allotment; two stripe rebuilds, whole and with a member lost. -/
def softWait (why : Nat) : DeepWait := { die := 0, unit := 0, cls := 0, waited := 0, req := { hostRead with why := why } }

def deep (why n : Nat) : State := { stored with ftl := { stored.ftl with
  dies := [(0, {})], media := [(0, [(0, { kind := .plain, nsid := 1, lba := 0, seq := 0, copy := false, data := [] })])],
  deepAllot := [(deepKey 0 (deepClass stored (softWait why)), n)],
  deepQ := [softWait why] } }

def repairs (waits : List (Nat × Nat)) (lost : Nat) : Rebuild := { die := 0, unit := 0, req := hostRead, waits := waits, lost := lost }

theorem witness_FlashRecovery_deep :
    deep 0 0 = atFrac 0 (deep 0 0) ∧ deep 0 1 = atFrac 0 (deep 0 1) ∧ deep 3 1 = atFrac 0 (deep 3 1) ∧
    nextDeep (deep 0 0) = none ∧ nextDeep (deep 0 1) = some (softWait 0) ∧ nextDeep (deep 3 1) = some (softWait 3) ∧
    badRes.decoded = false ∧ 360 < badRes.up + badRes.down ∧ goodRes.decoded = true ∧ (softWait 0).req.why ≠ 3 ∧
    (softWait 0).req.why ≠ 6 ∧ (softWait 3).req.why = 3 ∧
    ({ deep 0 0 with ftl := { (deep 0 0).ftl with rebuilds := [repairs [(1, 0)] 0] } } : State).ftl.rebuilds = [repairs [(1, 0)] 0] ∧
    (repairs [(1, 0)] 0).waits ≠ [] ∧ (repairs [] 0).waits = [] ∧ (repairs [] 0).lost = 0 ∧ (repairs [] 1).lost ≠ 0 ∧
    mediaAt { deep 0 0 with ftl := { (deep 0 0).ftl with rebuilds := [] } } 0 0 =
      some { kind := .plain, nsid := 1, lba := 0, seq := 0, copy := false, data := [] } ∧
    ({ (deep 0 0).ftl with rebuildDie := [0] } : FtlSt).rebuildDie = [0] ∧
    rebuildUnits { deep 0 0 with ftl := { (deep 0 0).ftl with rebuildDie := [0] } } 0 = 0 := by
  decide +kernel

/-- A passed slot of die 0, and a die under rebuild one of whose units is still the namespace's. -/
def passedSlot : Slot := { die := 0, unit := 0, row := 0, parity := false, items := [], st := .passed }

def oneSlot : Band := { kind := .plain, copy := false, feed := 0, dies := [0], members := [(0, 0)], slots := [passedSlot] }

def halfRebuilt : State := { deep 0 0 with
  nss := [(1, { plainNs with map := [(0, .media 0 0)] })],
  ftl := { (deep 0 0).ftl with rebuildDie := [0], bands := [(0, oneSlot)] } }

/-- Whatever the cell mode of the die is, which is opaque. -/
theorem witness_FlashRecovery_unfinished : rebuildUnits halfRebuilt 0 ≠ 0 := by
  have h : slotCws 0 = 16 ∨ slotCws 0 = 48 ∨ slotCws 0 = 64 := by unfold slotCws; split <;> simp
  have e : slotUnits halfRebuilt passedSlot =
      [(0, { kind := .plain, nsid := 1, lba := 0, seq := 0, copy := false, data := [] })] := by
    unfold slotUnits
    rcases h with h | h | h <;> (rw [show slotCws passedSlot.die = _ from h]; decide +kernel)
  have b : bandValid halfRebuilt oneSlot =
      [(0, 0, { kind := .plain, nsid := 1, lba := 0, seq := 0, copy := false, data := [] })] := by
    unfold bandValid
    rw [show oneSlot.slots.filter (fun t => !t.parity && t.st == .passed) = [passedSlot] by decide +kernel,
      List.flatMap_singleton, e]
    decide +kernel
  unfold rebuildUnits
  rw [show halfRebuilt.ftl.bands = [(0, oneSlot)] by decide +kernel, List.flatMap_singleton, b]
  decide

/-- BOOT with the compute rails good, with a boot copy due, and after bring-up on formatted media. -/
def booting (st : PowerStage) (due : Nat) (fmt : Bool) : State := setF FWU_STATUS_COPY_DUE due { live with
  mode := { live.mode with cur := .boot, stage := st, mounted := false }, ftl := { live.ftl with formatted := fmt } }

theorem witness_MediaBoot :
    (booting .resetDone 0 true).mode.stage ≠ .computeGood ∧ (booting .computeGood 1 true).mode.cur = .boot ∧
    flagF (booting .computeGood 1 true) FWU_STATUS_COPY_DUE = true ∧ (booting .computeGood 0 true).mode.stage = .computeGood ∧
    flagF (booting .computeGood 0 true) FWU_STATUS_COPY_DUE = false ∧ (booting .computeGood 0 true).mode.bootSafe = false ∧
    live.mode.cur ≠ .boot ∧ (booting .computeGood 0 true).mode.stage ≠ .bringUp ∧ (booting .bringUp 0 true).mode.cur = .boot ∧
    (booting .bringUp 0 true).mode.stage = .bringUp ∧ (booting .bringUp 0 true).time.bootWait = false ∧
    (booting .bringUp 0 false).ftl.formatted = false ∧ 8192 < 8193 ∧
    (inMode .seal live).mode.cur.seals = false ∧ live.mode.cur.seals = true ∧
    ({ live with nss := [(1, { plainNs with busy := .converting })] } : State).nss = [(1, { plainNs with busy := .converting })] := by
  decide +kernel

/-! ### The Ductus and the engines -/

/-- Graph 1 has a ready node of the kind, and core 0 is idle. -/
def readyNode (k : NodeKind) : State := setF (NIB_CORE_STATE 0) 1 { withGraph k 1 with
  duct := { (withGraph k 1).duct with ready := [(1, 1, 0)] } }

theorem witness_NodeEvents_dispatch :
    getGraph (readyNode .nib) 1 = some { aGraph .nib with run := some (aRun 1) } ∧ nodeDesc (readyNode .nib) 1 0 = some (aNode .nib) ∧
    nodeRun (readyNode .nib) 1 0 = some { st := 1, waited := 6 } ∧ (inMode .park (readyNode .nib)).mode.cur.dispatches = false ∧
    (readyNode .nib).mode.cur.dispatches = true ∧ (graphClass (readyNode .nib) 1, 1, 0) ∈ (readyNode .nib).duct.ready ∧
    dispatchable (readyNode .nib) 1 0 = true ∧ firstInLine (readyNode .nib) 1 0 = true ∧ (aNode .nib).kind = .nib ∧
    chooseCore (readyNode .nib) 1 (aNode .nib) { st := 1, waited := 6 } = some 0 ∧ some 0 ≠ some 31 ∧
    chargeCores (readyNode .nib) = readyNode .nib ∧ chargeCores (readyNode .digest) = readyNode .digest ∧
    dispatchError (readyNode .digest) 1 0 (aNode .digest) = none ∧
    dispatchError (readyNode .mediaRead) 1 0 (aNode .mediaRead) = some .invalidNamespaceOrFormat ∧
    (graphClass (readyNode .mediaRead) 1, 1, 0) ∈ (readyNode .mediaRead).duct.ready ∧
    dispatchable (readyNode .mediaRead) 1 0 = true ∧ firstInLine (readyNode .mediaRead) 1 0 = true ∧
    chargeCores (readyNode .mediaRead) = readyNode .mediaRead ∧
    nodeDesc (readyNode .mediaRead) 1 0 = some (aNode .mediaRead) ∧
    nodeDesc (readyNode .digest) 1 0 = some (aNode .digest) ∧ (graphClass (readyNode .digest) 1, 1, 0) ∈ (readyNode .digest).duct.ready ∧
    dispatchable (readyNode .digest) 1 0 = true ∧ firstInLine (readyNode .digest) 1 0 = true ∧ (aNode .digest).kind ≠ .nib := by
  decide +kernel

/-- Core 31 runs node 0 of graph `g`; graph 1 has spent its grant; a node of graph 2, of any core, waits and finds none idle. -/
def coreRuns (g : Nat) : State := setF (NIB_CORE_STATE 31) 2 (setF (NIB_CORE_GRAPH 31) g (setF DCT_CTL_PREEMPT_EN 1 (setF DCT_CTL_MIN_US 0
  { withGraph .nib 2 with duct := { (withGraph .nib 2).duct with
      ready := [(1, 2, 0)], graphs := [(1, { aGraph .nib with run := some { aRun 2 with gCore := 0 } }),
        (2, { aGraph .nib with nodes := [{ aNode .nib with affinity := 128 }], run := some (aRun 1) })] } })))

/-- The same with no node waiting. -/
def loneRun : State := { coreRuns 1 with duct := { (coreRuns 1).duct with ready := [] } }

theorem witness_NodeEvents_events :
    nodeDesc (withGraph .join 2) 1 0 = some (aNode .join) ∧ nodeRun (withGraph .join 2) 1 0 = some { st := 2, waited := 6 } ∧
    (aNode .join).kind = .join ∧ nodeRun (withGraph .nib 3) 1 0 = some { st := 3, waited := 6 } ∧ 3 ≠ 2 ∧
    getGraph (withGraph .nib 3) 1 = some { aGraph .nib with run := some (aRun 3) } ∧ (aRun 3).state = 0 ∧
    nodeLimit (aGraph .nib) (aRun 3) (aNode .nib) = 5 ∧ 5 < 6 ∧ 31 < 32 ∧ getF (coreRuns 1) (NIB_CORE_STATE 31) = 2 ∧
    (nibCore (coreRuns 1) 31).tick = false ∧ (nibCore (coreRuns 1) 31).notify = false ∧ (nibCore (coreRuns 1) 31).preempt = false ∧
    preemptReason (chargeCores loneRun) 31 = false ∧ getF loneRun (NIB_CORE_STATE 31) = 2 ∧
    getF (chargeCores (coreRuns 1)) (NIB_CORE_STATE 31) = 2 ∧ flagF (chargeCores (coreRuns 1)) DCT_CTL_PREEMPT_EN = true ∧
    nodeDesc (chargeCores (coreRuns 1)) (getF (chargeCores (coreRuns 1)) (NIB_CORE_GRAPH 31))
      (getF (chargeCores (coreRuns 1)) (NIB_CORE_NODE 31)) = some (aNode .nib) ∧
    bitAt (aNode .nib).flags 1 = false ∧ getF (chargeCores (coreRuns 1)) DCT_CTL_MIN_US = 0 ∧
    slotFree (chargeCores (coreRuns 1)) = true ∧ preemptReason (chargeCores (coreRuns 1)) 31 = true ∧
    (∀ j < 32, candidate (chargeCores (coreRuns 1)) j = true → j = 31) ∧
    getF (blot 0x0701 3 31 (le 2 0xFF ++ le 4 ((nibCore (coreRuns 0) 31).pc + 65536 * bit (nibCore (coreRuns 0) 31).xip)) (coreRuns 0))
      (NIB_CORE_GRAPH 31) = 0 := by decide +kernel

/-- The job of node 0 of graph 1 holds an instance of shared engine `e`, with the allotment. -/
def onEngine (k : NodeKind) (e : Nat) (a : Allot) : State := { withGraph k 2 with
  duct := { (withGraph k 2).duct with graphs := [(1, { aGraph k with
    run := some { aRun 2 with nodes := [{ st := 2, waited := 6, job := { eng := some e } }] } })] },
  crypt := { (withGraph k 2).crypt with engs := [(e, { allot := a, on := [(1, 0)] })] } }

def outOfContexts (k : NodeKind) (e : Nat) : State := { onEngine k e {} with crypt := { (onEngine k e {}).crypt with
  contexts := (List.range 239).map (fun i => (i + 1, i, false)) } }

theorem witness_NodeEvents_served :
    Machine.served (onEngine .digest 0 {}) 1 0 (aNode .digest) = true ∧ Machine.served (withGraph .sign 2) 1 0 (aNode .sign) = false ∧
    Machine.served (withGraph .join 2) 1 0 (aNode .join) = true := by decide +kernel

theorem witness_EngineEvents_turns :
    onEngine .digest 0 {} = atFrac 0 (onEngine .digest 0 {}) ∧ outOfContexts .digest 0 = atFrac 0 (outOfContexts .digest 0) ∧
    nodeDesc (onEngine .digest 0 {}) 1 0 = some (aNode .digest) ∧ (1, 0) ∈ (engQ (onEngine .digest 0 {}) 0).on ∧
    (1, 0) ∈ (engQ (onEngine .cipher 1 {}) 1).on ∧ (aNode .digest).kind = .digest ∧ (aNode .cipher).kind = .cipher ∧
    yieldWhy (spendEng 0 (graphClass (onEngine .digest 0 { spare := 2 ^ 40 }) 1) (groupCost (aNode .digest))
      (onEngine .digest 0 { spare := 2 ^ 40 })) 0 (1, 0) = 0 ∧
    yieldWhy (spendEng 0 (graphClass (onEngine .digest 0 {}) 1) (groupCost (aNode .digest)) (onEngine .digest 0 {})) 0 (1, 0) = 4 ∧
    mayYield (spendEng 0 (graphClass (onEngine .digest 0 {}) 1) (groupCost (aNode .digest)) (onEngine .digest 0 {}))
      (aNode .digest) (4 == 1) = true ∧
    yieldWhy (spendEng 0 (graphClass (outOfContexts .digest 0) 1) (groupCost (aNode .digest)) (outOfContexts .digest 0)) 0 (1, 0) = 4 ∧
    mayYield (spendEng 0 (graphClass (outOfContexts .digest 0) 1) (groupCost (aNode .digest)) (outOfContexts .digest 0))
      (aNode .digest) (4 == 1) = false ∧ (1, 0) ∉ (engQ (withGraph .digest 2) 0).on := by decide +kernel

theorem witness_EngineEvents_blocks :
    (jobHold (onEngine .compress 2 {}) 1 0).eng = some 2 ∧ (1, 0) ∈ (engQ (onEngine .compress 2 {}) 2).on ∧
    nodeDesc (onEngine .compress 2 {}) 1 0 = some (aNode .compress) ∧ (aNode .compress).kind = .compress ∧
    nodeDesc (onEngine .decompress 2 {}) 1 0 = some (aNode .decompress) ∧ (aNode .decompress).kind = .decompress ∧
    yieldWhy (spendEng 2 (graphClass (onEngine .decompress 2 { spare := 2 ^ 40 }) 1) 65536 (onEngine .decompress 2 { spare := 2 ^ 40 }))
      2 (1, 0) = 0 ∧
    yieldWhy (spendEng 2 (graphClass (onEngine .decompress 2 {}) 1) 65536 (onEngine .decompress 2 {})) 2 (1, 0) ≠ 0 := by decide +kernel

/-- All contexts of interactive jobs are taken. -/
def noContext : State := { withGraph .digest 2 with crypt := { (withGraph .digest 2).crypt with
  contexts := (List.range 239).map (fun i => (2, i, false)) } }

/-- The parameters of a node: its operation. -/
def opNode (k : NodeKind) (op st : Nat) : State := { withGraph k st with duct := { (withGraph k st).duct with
  graphs := [(1, { aGraph k with nodes := [{ aNode k with params := le 1 op }], run := some (aRun st) })] } }

theorem witness_EngineEvents_nodes :
    nodeDesc (withGraph .digest 2) 1 0 = some (aNode .digest) ∧ nodeRun (withGraph .digest 2) 1 0 = some { st := 2, waited := 6 } ∧
    contextFree (withGraph .digest 2) (1 == 1) = true ∧ contextFree noContext (2 == 1) = false ∧
    nodeDesc noContext 1 0 = some (aNode .digest) ∧
    (nodeDesc (opNode .decompress 1 2) 1 0).map (fun d => (d.kind, pByte d 24)) = some (.decompress, 1) ∧
    nodeRun (opNode .decompress 1 2) 1 0 = some { st := 2, waited := 6 } ∧ NodeKind.decompress ≠ .digest ∧
    nodeRun (withGraph .digest 1) 1 0 = some { st := 1, waited := 6 } ∧
    (∀ op ∈ [1, 2, 3, 4, 5], (nodeDesc (opNode .sieve op 2) 1 0).map (fun d => (d.kind, pByte d 24)) = some (.sieve, op)) ∧
    nodeRun (opNode .sieve 1 1) 1 0 = some { st := 1, waited := 6 } := by decide +kernel

/-- The feed is open for 8 bytes of SHA-256; open with 4 of them taken; closed. -/
def aFeed (count : Nat) (closed compare : Bool) : Feed :=
  { alg := 1, hmac := false, compare := compare, trunc := 32, key := [], len := 8, count := count, data := zeros count, closed := closed }

def feeding (f : Feed) : State := setF DIG_FEED_LASTV 4 { live with crypt := { live.crypt with feed := some f } }

theorem witness_EngineEvents_feed :
    (feeding (aFeed 0 false false)).crypt.feed.isSome = true ∧ live.crypt.feed = none ∧ bits 0x01 2 0 = 1 ∧ bits 0 2 0 = 0 ∧
    bitAt 0x01 3 = false ∧ bits 0x01 9 5 = 0 ∧ (aFeed 4 false false).closed = false ∧ (aFeed 4 false false).count + 4 ≤ 8 ∧
    8 < (aFeed 8 false false).count + 4 ∧ (aFeed 8 true false).closed = true ∧ (aFeed 4 false false).tooLong = false ∧
    (aFeed 4 false false).count + getF (feeding (aFeed 4 false false)) DIG_FEED_LASTV = (aFeed 4 false false).len ∧
    (aFeed 0 false false).count + getF (feeding (aFeed 0 false false)) DIG_FEED_LASTV ≠ (aFeed 0 false false).len ∧
    (0 + 4) % groupBytes 1 ≠ 0 ∧ (({ aFeed 0 false false with len := 16384, count := 16380 } : Feed).count + 4) % groupBytes 1 = 0 ∧
    (aFeed 8 true false).compare = false ∧ (aFeed 8 true true).compare = true := by decide

/-- Two entries of partition 0 that match key 0, of which the second ranks higher. -/
def twoHits : State := setF SIV_SCAN_EN 1 { live with sieve := { live.sieve with
  parts := [(0, [(4, { value := 0, care := 0, cls := 1, result := 0 }), (9, { value := 0, care := 0, cls := 2, result := 0 })])] } }

theorem witness_SieveRegisters :
    flagF (setF SIV_SCAN_EN 0 live) SIV_SCAN_EN = false ∧ flagF twoHits SIV_SCAN_EN = true ∧
    (matchesOf twoHits 0 0)[0]? = some (9, { value := 0, care := 0, cls := 2, result := 0 }) ∧
    (matchesOf twoHits 0 0)[1]? = some (4, { value := 0, care := 0, cls := 1, result := 0 }) ∧
    partOf { twoHits with sieve := { twoHits.sieve with sizes := [(0, 16384)], scanAt := 4 } } 4 = some (0, 4) ∧
    mhas (partEntries twoHits 0) 4 = true ∧ matchesOf twoHits 0 (regKey twoHits) ≠ [] ∧ 1 < 2 := by decide

/-! ### DRAM, the Inkwell and the Inkstone -/

def points (pt pend gath : Nat) : State := setF DRM_STATUS_AVAIL 7 (setF DRM_STATUS_POINT pt (setF DRM_STATUS_PENDING pend
  (setF DRM_STATUS_GATHERING gath live)))

theorem witness_DramAndInkwell :
    bitAt (getF (points 0 0 0) DRM_STATUS_AVAIL) (0 % 4) = true ∧ 0 % 4 = getF (points 0 0 0) DRM_STATUS_POINT ∧
    bitAt (getF (points 0 0 0) DRM_STATUS_AVAIL) (2 % 4) = true ∧ 2 % 4 ≠ getF (points 0 0 0) DRM_STATUS_POINT ∧
    flagF (points 0 1 0) DRM_STATUS_PENDING = true ∧ (points 0 0 0).mode.cur = .run ∧
    flagF (points 0 0 0) DRM_STATUS_PENDING = false ∧ flagF (points 0 0 0) DRM_STATUS_GATHERING = false ∧
    getF (points 0 0 0) DRM_TRAIN_DRIFT_C ≤ ((200 : Int) - (points 0 0 0).dram.lastTemp).natAbs ∧
    flagF (points 0 0 1) DRM_STATUS_GATHERING = true ∧ live.dram.force2x = false ∧ { live.dram with force2x := true }.force2x = true ∧
    5 ≤ { live.dram with bulk := 5 }.bulk ∧ 0 < { live.dram with bulk := 4 }.bulk ∧ { live.dram with bulk := 4 }.bulk < 5 ∧
    5 ≤ { live.dram with cmd := 5 }.cmd ∧ { live.dram with cmd := 0 }.cmd = 0 ∧ findStaged live 0 = none ∧
    getF live DRM_AGE_AGE_US - 1 < getF live DRM_AGE_AGE_US ∧ getF live DRM_AGE_AGE_US ≤ getF live DRM_AGE_AGE_US := by decide

/-- Bank 1 is busy with a program, and with an erase; the scribe (0) has the array. -/
def inkBusy (op : Nat) : State :=
  setInkBank 1 { inkBank live 1 with running := some { who := 0, op := op, addr := 2 ^ 23, data := zeros 256 } } live

theorem witness_InkstoneCommands :
    inkGranted live 0 = true ∧
    (inkRefusal live 1 1 0).isSome = true ∧ inkGranted live 1 = true ∧ (2 ^ 24 - 256) % 256 = 0 ∧ 2 ^ 24 - 256 < 2 ^ 24 ∧ inkBadIn live (2 ^ 24 - 256) 256 = false ∧
    inkBadIn { live with ink := { live.ink with bad := [2 ^ 20 - 1] } } (2 ^ 24 - 256) 256 = true ∧
    bankBusy live ((2 ^ 24 - 256) / 2 ^ 23) = false ∧ bankBusy (inkBusy 1) ((2 ^ 24 - 256) / 2 ^ 23) = true ∧
    inkGranted (inkBusy 1) 0 = true ∧ 1 % 256 ≠ 0 ∧ ((mget live.duct.cores 31).map (·.grant4)).getD false = false ∧
    (inkBank (inkBusy 1) 1).running = some { who := 0, op := 1, addr := 2 ^ 23, data := zeros 256 } ∧
    (inkBank (inkBusy 2) 1).running = some { who := 0, op := 2, addr := 2 ^ 23, data := zeros 256 } ∧
    firmwareSector (2 ^ 23) = false ∧ firmwareSector 0 = true ∧ (inkBank live 0).running = none := by decide +kernel

/-- The factory marks of a bank are opaque; while they are fewer than the 16 spares, one is free. -/
theorem witness_InkstoneCommands_spare (h : (factoryMarks 1).length < 16) : sparesFree (inkBusy 1) 1 ≠ 0 := by
  have e : ((inkBank (inkBusy 1) 1).table.filter (fun e => e.2.isSome)).length = 0 := by decide
  simp only [sparesFree, sparesUsed, e]
  omega

/-- With 16 failed sectors in its table the bank has no spare left, whatever the factory marked. -/
def inkSpent : State := setInkBank 1 { inkBank (inkBusy 1) 1 with table := (List.range 16).map (fun i => (i, some i)) } (inkBusy 1)

theorem witness_InkstoneCommands_spent :
    sparesFree inkSpent 1 = 0 ∧ (inkBank inkSpent 1).running = some { who := 0, op := 1, addr := 2 ^ 23, data := zeros 256 } := by
  have e : ((inkBank inkSpent 1).table.filter (fun e => e.2.isSome)).length = 16 := by decide +kernel
  refine ⟨?_, by decide +kernel⟩
  simp only [sparesFree, sparesUsed, e]
  omega

/-- An erased sector of the staging area that the factory did not mark and that has not failed takes a program and an erase. -/
theorem witness_InkstoneCommands_accepted (h : sectorRetired live stagingBase = false) :
    inkRefusal live 0 1 stagingBase = none ∧ inkRefusal live 0 2 stagingBase = none := by
  have e : (inkBytesAt live stagingBase 256).all (· == 0xFF#8) = true := by decide +kernel
  have b : bankBusy live (stagingBase / 8388608) = false := by decide +kernel
  have a : stagingBase % 256 = 0 ∧ stagingBase % 32768 = 0 ∧ ¬16777216 ≤ stagingBase := by decide
  constructor <;> simp [inkRefusal, e, b, h, a]

/-- A save was asked for; a Stored field was written at stroke 0, and 10 s have passed, or 1 stroke less. -/
def saving (t : Nat) : State := { live with
  time := { live.time with stroke := t }, ink := { live.ink with storedAt := some 0, saveNow := true } }

theorem witness_SettingsCopies :
    (saving 10000).mode.cur ∈ [Mode.run, .readOnly, .lean, .safe] ∧ flagF (saving 10000) INK_STATUS_SAVE_HELD = false ∧ (saving 10000).ink.saveNow = true ∧
    (saving 10000).ink.storedAt = some 0 ∧
    0 * (saving 10000).time.period / 65536 + 10000000 ≤ now (saving 10000) * (saving 10000).time.period / 65536 ∧
    now (saving 9999) * (saving 9999).time.period / 65536 < 0 * (saving 9999).time.period / 65536 + 10000000 ∧
    live.ink.saveNow = false ∧ live.ink.storedAt = none ∧
    (∀ m ∈ [Mode.park, .drowse, .hibernate, .seal, .halt, .boot],
      (inMode m live).mode.cur ∈ [Mode.park, .drowse, .hibernate, .seal, .halt, .boot]) := by decide

/-! ### Stream ingest -/

/-- An RTP packet of the sequence number from SSRC 7, and the packet that carries it to port 5004 of 10.0.0.2. -/
def rtp (seq : Nat) : Bytes := [0x80#8, 96#8] ++ be 2 seq ++ be 4 0 ++ be 4 7 ++ zeros 4

def aPkt (seq : Nat) : Pkt := { v6 := false, vlan := none, src := 0x0A000001, dst := 0x0A000002, sport := 1, dport := 5004, udp := rtp seq }

/-- Its IPv4 frame, without the FCS. -/
def aFrame : Bytes :=
  be 6 1 ++ be 6 2 ++ be 2 0x0800 ++ [0x45#8, 0#8] ++ be 2 44 ++ be 4 0 ++ [64#8, 17#8] ++ be 2 0x66BF ++ be 4 0x0A000001
    ++ be 4 0x0A000002 ++ be 2 1 ++ be 2 5004 ++ be 2 24 ++ be 2 0 ++ rtp 5 ++ zeros 2

theorem witness_FrameReceived_parse :
    parseFrame 1518 true aFrame = .bad ∧ parseFrame 1518 false (zeros 60) = .unmatched ∧
    parseFrame 1518 false aFrame = .pkt (aPkt 5) := by decide +kernel

/-- Port 3 has its link; flow 9 takes packets whose entry of the flow partition matches, into namespace 2. -/
def inFlow (e : Option Nat) (left : Nat) : Flow := { aFlow with e := e, left := left, hist := [4] }

def ingesting (x : Flow) : State := setF PWR_SEAL_EFF_LIMIT_KIB 30720 (setF (ING_PORT_LINK 3) 1 { stored with
  ing := { stored.ing with flows := [(9, x)], ports := [(3, { running := true })] },
  sieve := { stored.sieve with parts := [(1, [(0, { value := 0, care := 0, cls := 0, result := 9 })])] } })

def fl0 : Flow := inFlow none 0
def fl1 : Flow := inFlow (some 5) 1

theorem witness_FrameReceived_ports :
    (getPort stored 3).running = false ∧ (getPort (ingesting fl1) 3).running = true ∧
    flagF (ingesting fl1) (ING_PORT_LINK 3) = true ∧ (ingesting fl1).ing.paused = false ∧
    parseFrame (getF (ingesting fl1) (ING_PORT_MAX_FRAME 3)) false aFrame = .pkt (aPkt 5) ∧ 12 ≤ (aPkt 5).udp.length ∧
    (ingesting fl1).mode.cur = .run ∧ classify stored 3 (aPkt 5) = none ∧
    classify (countLookup 1 (pktKey 3 (aPkt 5) 7) (updPort 3 (fun y => { y with frames := cnt32 y.frames }) (ingesting fl1))) 3 (aPkt 5) =
      some (9, fl1) ∧ getF (ingesting fl1) STK_CTL_PTP_PORT = 0 ∧ 3 ≠ 0 ∧ ptpEvent aFrame (.pkt (aPkt 5)) = false ∧
    ptpEvent aFrame (.pkt { aPkt 5 with dport := 319 }) = true ∧ (aPkt 5).udp.take 4 ≠ [] ∧ ((aPkt 5).udp.take 4).length < 12 ∧
    (inMode .readOnly (ingesting fl1)).mode.cur = .readOnly ∧ (inMode .park (ingesting fl1)).mode.cur = .park ∧
    fl1.parks = false := by decide +kernel

theorem witness_FrameReceived_packets :
    4 ≤ (aPkt 5).udp.length ∧ beAt (aPkt 5).udp 2 2 = 5 ∧ atDirtyLimit (setF PWR_HOLD_STATUS_ARMED 0 stored) = true ∧
    atDirtyLimit (ingesting fl1) = false ∧ parseRtp (zeros 16) = none ∧ (parseRtp (aPkt 5).udp).map (·.seq) = some 5 ∧
    (parseRtp (aPkt 5).udp).map (·.payload.length) = some 4 ∧
    nsFull { ingesting fl1 with nss := [] } fl1 4 = true ∧ nsFull (ingesting fl1) fl1 4 = false ∧ fl0.left = 0 ∧ fl1.left ≠ 0 ∧
    (seqTrack 4 0 true fl1).1 = none ∧ (seqTrack 5 0 true fl1).1 = some 0 := by decide +kernel

/-- Flow 9 has been idle for 10 strokes, which is its threshold; once more when it is silent already. -/
def silentAt (n : Nat) (done : Bool) : State := setF ING_CTL_SILENT_STROKES 10 (ingesting { fl1 with idle := n, silent := done })

theorem witness_SilenceAndSummaries_silence :
    mget (silentAt 10 true).ing.flows 9 = some { fl1 with idle := 10, silent := true } ∧
    mget (silentAt 9 false).ing.flows 9 = some { fl1 with idle := 9 } ∧ 9 < getF (silentAt 9 false) ING_CTL_SILENT_STROKES ∧
    mget (silentAt 10 false).ing.flows 9 = some { fl1 with idle := 10 } ∧ getF (silentAt 10 false) ING_CTL_SILENT_STROKES ≠ 0 ∧
    getF (silentAt 10 false) ING_CTL_SILENT_STROKES ≤ 10 ∧ flagF (silentAt 10 false) (ING_PORT_LINK fl1.port) = true ∧
    (silentAt 10 false).mode.cur = .run := by decide +kernel

/-- A post waits for a ring of 64 slots whose next slot is 63, and whose consumer has taken nothing yet. -/
def aPost : RingPost := { fn := 0, stroke := 0, flows := 0, bytes := 0, lost := 0, gaps := 0, packets := 0, items := [] }

def aRing : Ring := { slots := 64, addr := 4096, cons := 4, vector := 0, items := 3, prod := 63 }

theorem witness_SilenceAndSummaries_posts :
    live.ing.posts = [] ∧ (getFn { live with fns := [(0, { pf with ring := some aRing })] } 0).ring = some aRing ∧
    (mget [(0, 64)] 0).getD 0 % aRing.slots = (aRing.prod + 1) % aRing.slots ∧ aRing.prod < aRing.slots ∧
    hostSide live 0 = false ∧ hostSide { served with fns := [(0, { pf with ring := some aRing })] } 0 = true ∧ 1 < aRing.slots ∧
    (mget [(0, 63)] 0).getD 0 % aRing.slots = aRing.prod ∧ pf.d3 = false ∧ pf.flr = none := by decide

/-! ### Oxvia -/

/-- Links enabled with revisions 2 to 3; the neighbour of link 0 has said HELLO; link 0 is up, with a measurement under way. -/
def oxv (up : Nat) (d : Option Nat) : State := setF OXV_CTL_EN 3 (setF FWU_LINK_REV 3 (setF FWU_LINK_MIN 2 (setF (OXV_LINK_UP 0) up
  { live with mode := { live.mode with reqs := 7 },
              oxv := { live.oxv with tag := 77, root := 5, links := [(0, { hello := some (3, 2, 77, 1), delayAt := d })],
                                     seen := [(4, 10)], lastMark := some 6 } })))

theorem witness_OxviaLinks :
    oxv 0 none = atFrac 0 (oxv 0 none) ∧ (getLink (oxv 0 none) 0).hello = some (3, 2, 77, 1) ∧ oxvPowered (oxv 0 none) = true ∧
    linkPresent (oxv 0 none) 0 = true ∧ flagF (oxv 0 none) (OXV_LINK_UP 0) = false ∧ revsAgree (oxv 0 none) 3 2 = true ∧
    revsAgree (oxv 0 none) 1 1 = false ∧ flagF (oxv 0 none) OXV_CTL_SPLIT = false ∧ flagF (setF OXV_CTL_SPLIT 1 (oxv 0 none)) OXV_CTL_SPLIT = true ∧ 0 < 4 ∧ flagF (oxv 1 none) (OXV_LINK_UP 0) = true ∧
    oxvAlive (oxv 1 none) 0 = true ∧ (getLink (oxv 1 none) 0).replay = [] ∧ (getLink (oxv 1 (some 0)) 0).delayAt.isSome = true ∧
    (getLink (oxv 1 none) 0).delayAt = none ∧ oxvAlive (oxv 0 none) 0 = false ∧
    (getLink { (oxv 0 none) with oxv := { (oxv 0 none).oxv with links := [(0, { hello := some (1, 1, 77, 1) })] } } 0).hello =
      some (1, 1, 77, 1) := by decide

/-- A routed frame for device 0 on link 0, and a broadcast of device 4. -/
def frame (seq : Nat) : OxvHdr := { link := 0, flags := 0, dst := 0, src := 4, hops := 0, seq := seq, ack := 0 }

def bcast (seq : Nat) : OxvHdr := { link := 0, flags := 2, dst := 0, src := 4, hops := 198, seq := seq, ack := 0 }

theorem witness_OxviaFrames :
    oxvAlive (oxv 0 none) (frame 1).link = false ∧ oxvAlive (oxv 1 none) (frame 1).link = true ∧ bitAt (frame 1).flags 1 = false ∧
    sub16 (frame 1).seq (getLink (oxvAck 0 0 (oxv 1 none)) 0).rxSeq = 1 ∧ (frame 1).dst % 512 = deviceId (oxv 1 none) ∧
    sub16 (frame 0).seq (getLink (oxvAck 0 0 (oxv 1 none)) 0).rxSeq = 0 ∧
    sub16 (frame 2).seq (getLink (oxvAck 0 0 (oxv 1 none)) 0).rxSeq = 2 ∧ bitAt (bcast 10).flags 1 = true ∧
    ((bcast 10).src, (bcast 10).seq) ∈ (oxvAck 0 0 (oxv 1 none)).oxv.seen ∧
    ((bcast 11).src, (bcast 11).seq) ∉ (oxvAck 0 0 (oxv 1 none)).oxv.seen ∧
    (oxv 1 none) = atFrac 0 (oxv 1 none) ∧ 76 ≠ (oxv 1 none).oxv.tag ∧ 77 ≠ 0 ∧ 77 = (oxv 1 none).oxv.tag ∧
    (oxv 1 none).oxv.lastMark = some 6 ∧ (oxv 1 none).oxv.lastMark ≠ some 7 ∧ deviceId (oxv 1 none) ≠ (oxv 1 none).oxv.root ∧
    (bcast 11).hops < 199 := by decide

/-- A domain of this device (0) and device 1: header and tail around the serial number of the first; the second's is zeros. -/
def pairHead : Bytes :=
  [0x60#8, 1#8] ++ le 2 2 ++ le 4 128 ++ le 8 77 ++ [1#8, 1#8, 1#8, 10#8] ++ le 4 1000 ++ le 2 0 ++ zeros 6 ++ zeros 8 ++ zeros 24

def pairTail : Bytes := le 2 0 ++ [1#8] ++ zeros 9 ++ zeros 20 ++ le 2 1 ++ zeros 10

def pairCfg (b : Bytes) : Bytes := pairHead ++ (b ++ pairTail)

/-- Device 1 was last heard at stroke 8. -/
def inDomain (n : Nat) (lost : Bool) : State := { oxv 1 none with
  time := { live.time with stroke := n },
  oxv := { (oxv 1 none).oxv with root := 0, cfg := pairCfg (zeros 20), stats := [(1, { dtime := 8 * 65536, lost := lost })] } }

/-- A domain whose second member is the head of this device's ring, and the request of OXV_REMOTE to it that runs. -/
def headCfg : Bytes := (pairCfg (zeros 20)).take 86 ++ [0#8] ++ slice (pairCfg (zeros 20)) 87 31 ++ [1#8] ++ (pairCfg (zeros 20)).drop 119

theorem witness_DomainCommands_remote :
    flagF (setF OXV_REMOTE_BUSY 1 (setF OXV_REMOTE_DEVICE 1 (inDomain 200 true))) OXV_REMOTE_BUSY = true ∧
    getF (setF OXV_REMOTE_BUSY 1 (setF OXV_REMOTE_DEVICE 1 (inDomain 200 true))) OXV_REMOTE_DEVICE = 1 ∧
    follower { inDomain 200 false with oxv := { (inDomain 200 false).oxv with cfg := headCfg } } = true ∧
    headOf { inDomain 200 false with oxv := { (inDomain 200 false).oxv with cfg := headCfg } } = some 1 := by decide +kernel

theorem witness_DomainCommands_members :
    mget (inDomain 199 false).oxv.stats 1 = some { dtime := 8 * 65536 } ∧ (inDomain 199 false).time.stroke < 8 * 65536 / 65536 + 192 ∧
    mget (inDomain 200 false).oxv.stats 1 = some { dtime := 8 * 65536 } ∧ isMember (inDomain 200 false) 1 = true ∧
    1 ≠ deviceId (inDomain 200 false) ∧ 8 * 65536 / 65536 + 192 ≤ (inDomain 200 false).time.stroke ∧
    flagF (inDomain 200 true) OXV_REMOTE_BUSY = false ∧ follower (inDomain 200 true) = false ∧
    (inDomain 200 true) = { inDomain 200 false with oxv := { (inDomain 200 false).oxv with
      stats := mset (inDomain 200 false).oxv.stats 1 { dtime := 8 * 65536, lost := true } } } ∧
    (inMode .boot live).mode.cur ∈ [Mode.seal, .halt, .boot] ∧ live.mode.cur = .run ∧ bitAt (0 % 2 ^ 32) 28 = false := by
  decide

/-- The PF's entry with NSID 0 passes what the table asks of DOMAIN CONFIGURE and of ACTION 1. -/
theorem witness_DomainCommands_entry :
    AdminOk { domainRow 128 with got := some 128 } (ent 0 0) served ∧ AdminOk (domainRow 0) (ent 0 0) served ∧
    leAt (pairCfg (zeros 20)) 4 4 = (31 + 1) * 4 ∧ leAt (pairCfg (zeros 20)) 4 4 ≠ (30 + 1) * 4 ∧
    numdData 31 (pairCfg (zeros 20)) = pairCfg (zeros 20) ∧
    (cfgOk ([0x61#8] ++ (pairCfg (zeros 20)).drop 1) = false ∧ leAt ([0x61#8] ++ (pairCfg (zeros 20)).drop 1) 4 4 = (31 + 1) * 4) := by
  repeat' (first | decide +kernel | constructor)

/-- The serial number is opaque: its 20 bytes stand in the structure, and the rest of it does not depend on them. -/
theorem slice_pairCfg (b : Bytes) (h : b.length = 20) (off n : Nat) :
    (off + n ≤ 64 → slice (pairCfg b) off n = slice pairHead off n) ∧
    (84 ≤ off → slice (pairCfg b) off n = slice pairTail (off - 84) n) ∧ slice (pairCfg b) 64 20 = b := by
  have hh : pairHead.length = 64 := by decide +kernel
  refine ⟨fun hn => ?_, fun hn => ?_, ?_⟩
  · simp only [slice, pairCfg, List.drop_append, hh, List.take_append, List.length_drop]
    rw [show n - (64 - off) = 0 from by omega]; simp
  · simp only [slice, pairCfg, List.drop_append, hh, h]
    rw [List.drop_eq_nil_of_le (by omega), List.drop_eq_nil_of_le (by omega), show off - 64 - 20 = off - 84 from by omega]; simp
  · simp [slice, pairCfg, hh, h, zeros]

theorem witness_DomainCommands_configure (c : Bytes) (hc : c = pairCfg (fixLen 20 Config.serialNumber)) :
    leAt c 4 4 = (31 + 1) * 4 ∧ cfgOk c = true ∧ myIndex c = some 0 ∧ memberOk taken c 0 = true ∧ memberActivating taken c = false ∧
    taken.oxv.prepared = none ∧ taken.oxv.coord = none := by
  have hl : (fixLen 20 Config.serialNumber).length = 20 := length_fixLen 20 _
  have r := slice_pairCfg _ hl
  rw [← hc] at r
  have lo := fun off n h => (r off n).1 h
  have hi := fun off n h => (r off n).2.1 h
  have hn : leAt c 2 2 = 2 := by rw [leAt, lo _ _ (by decide)]; decide +kernel
  have rs : List.range 2 = [0, 1] := rfl
  refine ⟨?_, ?_, ?_, ?_, ?_, by decide, by decide⟩
  · rw [leAt, lo _ _ (by decide)]; decide +kernel
  · simp (disch := decide) only [cfgOk, cfgTag, cfgReservedOk, membersOf, byteAt, hn, rs, List.all_cons, List.all_nil, List.map_cons,
      List.map_nil, Nat.reduceMul, Nat.reduceAdd]
    simp (disch := decide) only [leAt, lo, hi]
    decide +kernel
  · simp only [myIndex, hn, rs, memberSn, List.find?_cons, Nat.reduceMul, Nat.reduceAdd, (r 0 0).2.2, BEq.rfl]
  · simp (disch := decide) only [memberOk, idAt, byteAt, Nat.reduceMul, Nat.reduceAdd, leAt, lo, hi]
    decide +kernel
  · simp only [memberActivating, indexOfSn, show List.range (leAt taken.oxv.cfg 2 2) = [] from by decide, List.find?_nil]
    simp

/-- A coordinator whose PREPARE went out at stroke 0; the reference is ahead, and the command waits. -/
def coordAt (n : Nat) : State := { served with
  time := { served.time with stroke := n },
  oxv := { served.oxv with coord := some { fn := 0, sqid := 0, cid := 1, cfg := [], since := 0 } } }

def mismatched : State := setF STK_STATUS_STATE 4 { taken with time := { taken.time with offsetNs := 1 } }

theorem witness_DomainCommands_phases :
    (takeEntry 0 0 (coordAt 0)).oxv.coord.isSome = true ∧ AdminOk { domainRow 128 with got := some 128 } (ent 0 0) (coordAt 0) ∧
    (coordAt 64).oxv.coord = some { fn := 0, sqid := 0, cid := 1, cfg := [], since := 0 } ∧ 0 + 64 ≤ (coordAt 64).time.stroke ∧
    (coordAt 63).time.stroke < 0 + 64 ∧ served.oxv.coord = none ∧ lockState taken ≠ 4 := by
  repeat' (first | decide +kernel | constructor)

theorem witness_DomainCommands_realign (s : State) (hs : s = setF STK_STATUS_STATE 4 { served with
      time := { served.time with offsetNs := 1 } }) :
    AdminOk (domainRow 0) (ent 0 0) s ∧ lockState (takeEntry 0 0 s) = 4 ∧ 0 < (takeEntry 0 0 s).time.offsetNs := by
  subst hs
  repeat' (first | decide +kernel | constructor)

theorem witness_DomainCommands_commit (s : State) (hs : s = { inDomain 100 false with oxv := { (inDomain 100 false).oxv with
      prepared := some (0, pairCfg (fixLen 20 Config.serialNumber)), commitAt := some 100 } }) :
    s.oxv.prepared = some (0, pairCfg (fixLen 20 Config.serialNumber)) ∧ s.oxv.commitAt = some 100 ∧ s.time.frac = 0 ∧
    100 ≤ s.time.stroke ∧ strokeOpen s = false ∧ s.time.stroke < 101 := by
  subst hs
  exact ⟨rfl, rfl, by decide, by decide, by decide, by decide⟩

/-- A provisional chain of SHA-256 that a domain of SHA3-256 restarts, while a stroke is open. -/
theorem witness_DomainCommands_restart (s : State) (hs : s = { live with
      chain := { live.chain with genesis := true, provisional := true, hashSel := 1, noOpen := false },
      oxv := { live.oxv with prepared := some (0, (pairCfg (zeros 20)).take 18 ++ [2#8] ++ (pairCfg (zeros 20)).drop 19), commitAt := some 0 } }) :
    strokeOpen s = true ∧ (commitRestarts s).isSome = true ∧
    commitRestarts { s with chain := { s.chain with provisional := false } } = none := by
  subst hs
  decide +kernel

/-! ### The chain and power -/

/-- The die-to-die link fails in each mode that SEAL answers. -/
theorem witness_DieLinkFailure : live = atFrac 0 live ∧
    (∀ m ∈ [Mode.run, .lean, .park, .readOnly, .sanitize, .activate, .drowse],
      (inMode m live).mode.cur ∈ [Mode.run, .lean, .park, .readOnly, .sanitize, .activate, .drowse]) ∧
    (inMode .boot live).mode.cur = .boot ∧ (inMode .boot live).mode.mounted = true := by decide

/-- A bank with its thresholds set; monitor 31 (850 mV, R459) has its default limit of 782 mV. -/
def rails : State := setF PWR_HOLD_TRIP_MV 2800 (setF PWR_HOLD_ARM_MV 3200 (setF PWR_PFAIL_FILT_US 8 live))

def senses (mv : Nat) : State := setF PWR_HOLD_STATUS_SENSE_MV (min mv 4095) rails

theorem witness_SealEntryAndCourse_sources :
    rails = atFrac 0 rails ∧ getF rails PWR_HOLD_TRIP_MV ≤ 2800 ∧
    getF (setF PWR_HOLD_STATUS_SENSE_MV (min 2800 4095) rails) PWR_HOLD_TRIP_MV = getF rails PWR_HOLD_TRIP_MV ∧
    2781 < getF (senses 2799) PWR_HOLD_TRIP_MV ∧ 31 < 32 ∧ vmonMasked rails 31 = false ∧ 781 < getF rails (MON_VMON_UV_MV 31) ∧
    (inMode .seal rails).mode.cur = .seal ∧ 781 < getF (inMode .seal rails) (MON_VMON_UV_MV 31) ∧
    (∀ m ∈ [Mode.hibernate, .halt, .safe], (inMode m rails).mode.cur ∈ [Mode.hibernate, .halt, .safe] ∧
      vmonMasked (inMode m rails) 31 = false ∧ 781 < getF (inMode m rails) (MON_VMON_UV_MV 31)) ∧
    getF rails (MON_VMON_UV_MV 31) ≤ 782 ∧ vmonMasked (setF (MON_VMON_MASKED 31) 1 rails) 31 = true ∧
    7 < getF rails PWR_PFAIL_FILT_US ∧ getF rails PWR_PFAIL_FILT_US ≤ 8 ∧
    (decide (getF (senses 3200) PWR_HOLD_ARM_MV ≤ 3200) = armed (senses 3200)) ∧
    (decide (getF (senses 1) PWR_HOLD_ARM_MV ≤ 1) ≠ armed (senses 1)) := by decide +kernel

theorem witness_SealEntryAndCourse_course :
    (inMode .seal live).mode.cur = .seal ∧ live.mode.cur ≠ .seal ∧ inMode .seal live = atFrac 0 (inMode .seal live) ∧
    live.mode.perstSeal = false ∧ { live.mode with perstSeal := true }.perstSeal = true := by decide

/-- The part at each step of the power-up sequence. -/
def atStage (st : PowerStage) : State := { State.reset with mode := { State.reset.mode with stage := st } }

theorem witness_PowerUp :
    (atStage .off).mode.stage = .off ∧ (atStage .alwaysOn).mode.stage ≠ .off ∧ (atStage .alwaysOn).mode.stage = .alwaysOn ∧
    (atStage .resetDone).mode.stage ≠ .alwaysOn ∧ (atStage .resetDone).mode.stage = .resetDone ∧
    (atStage .computeGood).mode.stage ≠ .resetDone ∧ (inMode .halt live).mode.stage ≠ .off ∧ (inMode .halt live).mode.cur = .halt := by
  decide

/-- A closed stroke waits for its root; a flourish waits for its signature. -/
def closedOne : State := { live with chain := { live.chain with closed := [{ n := 4, recs := [], parts := [] }] } }

def flWaits (f : Flourish) : State := { live with
  chain := { live.chain with flPending := [{ f with keyRec := false }] }, crypt := { live.crypt with signing := some .flourish } }

theorem witness_ChainCommands (f : Flourish) :
    live = atFrac 0 live ∧ live.chain.closed = [] ∧ closedOne.chain.closed = { n := 4, recs := [], parts := [] } :: [] ∧
    live.crypt.signing ≠ some .flourish ∧ (flWaits f).crypt.signing = some .flourish ∧
    (flWaits f).chain.flPending = { f with keyRec := false } :: [] ∧ ({ f with keyRec := false } : Flourish).keyRec = false ∧
    17 ≤ 17 ∧ bitAt (getF (setF PNC_LANE_FAILED (2 ^ 16) live) PNC_LANE_FAILED) 16 = true ∧
    bitAt (getF live PNC_LANE_FAILED) 16 = false ∧ getF live PNC_LANE_FAILED = 0 ∧
    bitAt (getF (setF PNC_LANE_FAILED 1 live) PNC_LANE_FAILED) 16 = false ∧ getF (setF PNC_LANE_FAILED 1 live) PNC_LANE_FAILED ≠ 0 ∧
    bitAt (getF live PNC_LANE_FAILED) 0 = false ∧ 0 < 17 ∧ 0 ≠ 16 := by
  refine ⟨by decide, by decide, by decide, by decide, rfl, rfl, rfl, by decide, by decide, by decide, by decide, by decide, by decide,
    by decide, by decide, by decide⟩

/-! ### Monitors, event inputs and the blot log -/

/-- Monitor 0 reads 811 mV, which is more than 8 percent above its nominal 750 mV (R459). -/
def volts (masked min : Nat) : State := setF (MON_VMON_MASKED 0) masked (setF (MON_VMON_MIN_MV 0) min live)

def reads0 (masked min : Nat) : State := setF (MON_VMON_MV 0) 811 (volts masked min)

theorem witness_VoltageAndTemperature_voltage :
    live = atFrac 0 live ∧ 7 < 8 ∧ 8 ≤ 31 ∧ 31 < 32 ∧ flagF (incF (MON_DROOP_COUNT 7) 1 live) CLK_STATUS_HALVED = false ∧
    flagF (incF (MON_DROOP_COUNT 7) 1 (setF CLK_STATUS_HALVED 1 live)) CLK_STATUS_HALVED = true ∧
    flagF live CLK_STATUS_HALVED = false ∧ overVolt (reads0 1 0) 0 811 = true ∧ vmonMasked (reads0 1 0) 0 = true ∧
    vmonMasked (reads0 0 900) 0 = false ∧ min 811 4095 < getF (reads0 0 900) (MON_VMON_MIN_MV 0) ∧
    overVolt (setF (MON_VMON_MIN_MV 0) 811 (reads0 0 900)) 0 811 = true ∧ 0 ∉ (volts 0 0).mon.overVolts ∧
    0 ∈ { volts 0 0 with mon := { (volts 0 0).mon with overVolts := [0] } }.mon.overVolts ∧ overVolt (volts 0 0) 0 810 = false ∧
    overVolt (volts 0 0) 0 811 = true ∧ flagF live (MON_VMON_FAILED 31) = false ∧
    flagF (setF (MON_VMON_FAILED 31) 1 live) (MON_VMON_FAILED 31) = true ∧ (50 : Int).natAbs ≤ 50 ∧ 50 < (-51 : Int).natAbs ∧
    0 ∉ live.mon.drifted := by decide +kernel

/-- Cooling since stroke 0 in step 3; FAILSAFE in step 2; every sensor failed. -/
def cooling (n step : Nat) : State := setF CLK_STATUS_THERM_STEP step { live with
  time := { live.time with stroke := n }, mode := { live.mode with coolFrom := some 0 } }

def noSensor : State := (List.range 24).foldl (fun a i => setF (MON_TEMP_FAILED i) 1 a) live

theorem witness_VoltageAndTemperature_temperature :
    hottest noSensor (List.range 24) = none ∧ hottest live (List.range 24) = some (0, 0) ∧ (0 : Int) < 460 ∧
    (cooling 16 3).mode.coolFrom = some 0 ∧ getF (cooling 16 3) CLK_STATUS_THERM_STEP = 3 ∧ 0 + 16 ≤ (cooling 16 3).time.stroke ∧
    (cooling 15 3).time.stroke < 0 + 16 ∧ getF (setF MON_STATUS_FAILSAFE 1 (cooling 16 2)) CLK_STATUS_THERM_STEP = 2 ∧
    flagF (setF MON_STATUS_FAILSAFE 1 (cooling 16 2)) MON_STATUS_FAILSAFE = true ∧ getF (cooling 0 0) CLK_STATUS_THERM_STEP = 0 ∧
    flagF noSensor (MON_TEMP_FAILED 23) = true ∧ flagF live (MON_TEMP_FAILED 23) = false := by decide +kernel

/-- Input 0 is enabled; a foreign voltage has been seen there or not. -/
def input (seen : Nat) : State := setF (EVT_CFG_EN 0) 1 (setF (EVT_CFG_FOREIGN_V 0) seen live)

theorem witness_EventInputsAndLog :
    live = atFrac 0 live ∧ live.mode.cur ≠ .seal ∧ flagF (setF (EVT_CFG_EN 0) 0 live) (EVT_CFG_EN 0) = false ∧ flagF (input 0) (EVT_CFG_EN 0) = true ∧ (1000 : Int) < 1001 ∧
    flagF (setEvt 0 { getEvt (input 1) 0 with kept := 0 } (input 1)) (EVT_CFG_FOREIGN_V 0) = true ∧
    flagF (setEvt 0 { getEvt (input 0) 0 with kept := 0 } (input 0)) (EVT_CFG_FOREIGN_V 0) = false := by decide

/-! ### The stroke boundary, accesses to BAR2, the block -/

theorem witness_StrokeBoundary :
    (inMode .halt live).mode.cur = .halt ∧ (inMode .boot live).mode.cur = .boot ∧ (inMode .seal live).mode.cur = .seal ∧
    (inMode .safe live).mode.cur = .safe ∧ (inMode .drowse live).mode.cur = .drowse ∧ (inMode .hibernate live).mode.cur = .hibernate ∧
    live.mode.cur.seals = true ∧ live.mode.cur ≠ .halt := by decide

theorem witness_RegisterReads :
    badOffset 2 = true ∧ badOffset 0x40000 = true ∧ badOffset 0 = false ∧ badOffset 0x3FFFC = false ∧
    barOpen (setF FN_LINK_STATUS_UP 0 live) = false ∧ (inMode .seal live).mode.cur = .seal ∧ barOpen (inMode .boot live) = true ∧
    (inMode .boot live).mode.cur = .boot ∧ barOpen live = true ∧ live.mode.cur = .run ∧ ¬ (0x22024 ≤ 0x22020 ∧ 0x22020 ≤ 0x22030) ∧
    ¬ (0x22024 ≤ 0x22034 ∧ 0x22034 ≤ 0x22030) ∧ isLatchedHi 0x0A010 = true ∧ latchPair live 0x0A010 = none ∧
    isLatchedHi 0 = false ∧ latchPair live 0 = none ∧ isLatchedHi 0x0A00C = false ∧ latchPair live 0x0A00C = some (0x0A010, 0) := by
  decide

theorem witness_RegisterWrites :
    badOffset 0x40000 = true ∧ badOffset 0x0000C = false ∧ (inMode .halt live).mode.cur = .halt ∧
    barOpen (setF FN_LINK_STATUS_UP 0 live) = false ∧ barOpen live = true ∧ live.mode.cur ≠ .seal ∧ live.mode.cur ≠ .halt ∧
    (inMode .boot live).mode.cur = .boot ∧ 0x00010 ≠ 0x0000C ∧ bitAt 0x9C01 0 = true ∧ bits 0x9C01 15 8 = 0x9C ∧
    bits 0x9D01 15 8 ≠ 0x9C ∧ bitAt 0x9C00 0 = false ∧ bitAt 0xA500 0 = false ∧ live.mode.cur = .run ∧ bitAt 0xA501 0 = true ∧ bits 0xA501 15 8 = 0xA5 ∧ bits 0xA401 15 8 ≠ 0xA5 ∧
    sparseWf regDefault live.regs = true ∧ isRoot live = true ∧ getF live STK_CTL_SRC ≠ 2 ∧ 250 ≤ bits 250 15 0 ∧
    bits 40000 15 0 ≤ 40000 ∧ bits 250 15 0 ≠ live.time.period ∧ bits 249 15 0 < 250 ∧ 40000 < bits 40001 15 0 ∧
    bits 249 15 0 ≠ getF live STK_PERIOD_MICROS ∧ bits 40001 15 0 ≠ getF live STK_PERIOD_MICROS := by decide +kernel

theorem witness_StepRunsFront :
    { live with pending := [.crystalStops, .logClear] }.pending = .crystalStops :: [.logClear] ∧ live.pending = [] := by decide

theorem witness_StepKeepsBounds :
    Bounded State.reset ∧ (∃ t, step { State.reset with pending := [.crystalStops] } = .next t) := by
  refine ⟨⟨?_, ?_, ?_, ?_, ?_⟩, ⟨_, rfl⟩⟩
  · simp only [RegsOk]; decide
  · decide
  · decide
  · decide
  · intro e h; have h2 : none = some e := h; cases h2

theorem witness_StrokeCountNeverDecreases :
    Instr.crystalStops ≠ .alwaysOnPowerLost ∧ ∃ t, exec .crystalStops State.reset = .next t := ⟨by decide, ⟨_, rfl⟩⟩

/-- The commit of a closed stroke completes, and gives its root. -/
theorem witness_RootsOnlyGrow :
    Instr.pounceCommit 0 2 2 0 false ≠ .alwaysOnPowerLost ∧ ∃ t, exec (.pounceCommit 0 2 2 0 false) closedOne = .next t :=
  ⟨by decide, ⟨_, rfl⟩⟩

theorem witness_SentIsSent : ∃ t, exec (.replayTimeout 0) live = .next t := ⟨_, rfl⟩

/-! ### The Nib -/

/-- Core 31 runs with the registers `c`. -/
def coreAt (c : NibCore) : State := setF (NIB_CORE_STATE 31) 2 { live with duct := { live.duct with cores := [(31, c)] } }

/-- A whole bundle of one operation of core 31. -/
def oneOp (unit body : Nat) : NibOp :=
  { core := 31, stop := true, unit := unit, body := BitVec.ofNat 23 body, fetch := .good, data := .good }

/-- What `SoloOk` asks, as a check. -/
def soloB (unit op : Nat) (o : NibOp) (c : NibCore) (s : State) : Bool :=
  decide (o.core < 32) && getF s (NIB_CORE_STATE o.core) == 2 && nibCore s o.core == c && (fetchTrap s c o.fetch).isNone &&
    fetchChk s c o.fetch == .good && fetched s c (wordOf unit op o) == some (wordOf unit op o) && o.stop && c.bundle.isEmpty &&
    (bundleTrap s c [wordOf unit op o]).isNone && !f2Bit c fiRA

theorem soloOk_of_soloB (unit op : Nat) (o : NibOp) (c : NibCore) (s : State) (h : soloB unit op o c s = true) :
    SoloOk unit op o c s := by
  simp only [soloB, Bool.and_eq_true, decide_eq_true_eq, beq_iff_eq, Option.isNone_iff_eq_none, List.isEmpty_iff,
    Bool.not_eq_true'] at h
  obtain ⟨⟨⟨⟨⟨⟨⟨⟨⟨h1, h2⟩, h3⟩, h4⟩, h5⟩, h6⟩, h7⟩, h8⟩, h9⟩, h10⟩ := h
  exact ⟨h1, h2, h3, h4, h5, h6, h7, h8, h9, h10⟩

/-- The operations of R249, in A0 and A1; NOP in each unit. -/
theorem witness_NibAdditive_NibLogical : ∀ u ∈ [0, 1], ∀ op ∈ (List.range 32),
    SoloOk ((oneOp u 0).unit % 2) op (oneOp u 0) {} (coreAt {}) := by
  intro u hu op ho
  refine soloOk_of_soloB _ _ _ _ _ ?_
  revert u op
  decide +kernel

/-- The body of an operation of M and of L that its format admits. -/
def bodyM (op : Nat) : Nat := if op = 19 ∨ op = 20 then 4096 else 0

def bodyL (op : Nat) : Nat :=
  if op = 3 ∨ op = 4 then 2 ^ 18 else if op ∈ [11, 12, 16, 17, 18, 19, 20] then 4096 else 0

theorem witness_NibProducts_NibShifts : ∀ op ∈ List.range 21, SoloOk 2 op (oneOp 2 (bodyM op)) {} (coreAt {}) := by
  intro op ho
  refine soloOk_of_soloB _ _ _ _ _ ?_
  revert op
  decide +kernel

/-- w1 is 3; the pair of a division by w0 and by w1; DZT is 1. -/
def threes : NibCore := { w := [(1, 3#16)] }

theorem witness_NibDivision : (∀ op ∈ [0x0E, 0x0F], ∀ b ∈ [0, 1], SoloOk 2 op (oneOp 2 (b * 128)) threes (coreAt threes)) ∧
    wGet threes (opB (oneOp 2 128).body.toNat) ≠ 0 ∧ wGet threes (opB (oneOp 2 0).body.toNat) = 0 := by
  refine ⟨fun op ho b hb => soloOk_of_soloB _ _ _ _ _ ?_, by decide, by decide⟩
  revert op b
  decide +kernel

def dzt : NibCore := { f := [(2, 0x20#16)] }

theorem witness_NibDivision_trap :
    nibCore (coreAt dzt) 31 = dzt ∧ 31 < 32 ∧ getF (coreAt dzt) (NIB_CORE_STATE 31) = 2 ∧ fetchTrap (coreAt dzt) dzt .good = none ∧ fetchChk (coreAt dzt) dzt .good = .good ∧
    (oneOp 2 0).stop = true ∧ dzt.bundle = [] ∧ f2Bit dzt fiRA = false ∧
    (∀ op ∈ [0x0E, 0x0F], fetched (coreAt dzt) dzt (wordOf 2 op (oneOp 2 0)) = some (wordOf 2 op (oneOp 2 0)) ∧
      illegalOp 2 op (oneOp 2 0).body.toNat = none) ∧
    f2Bit dzt fiDZT = true ∧ wGet dzt (opB (oneOp 2 0).body.toNat) = 0 := by decide +kernel

theorem witness_NibMemory : ∀ op ∈ [1, 2, 3, 4, 5, 6, 7, 8, 18, 19, 22], SoloOk 3 op (oneOp 3 (bodyL op)) {} (coreAt {}) := by
  intro op ho
  refine soloOk_of_soloB _ _ _ _ _ ?_
  revert op
  decide +kernel

/-- f4 names page 0 of the shared memory. -/
def sharedSeg : NibCore := { f := [(4, 0x1000#16)] }

theorem witness_NibMemory_places :
    segCheck {} true 0 = .ok (.local_ 0) ∧ segCheck sharedSeg true 0 = .ok (.shared 0) ∧ SegTo.shared 0 ≠ .local_ 0 ∧
    soloB 3 6 (oneOp 3 0) sharedSeg (coreAt sharedSeg) = true ∧ bits (oneOp 3 4096).body.toNat 3 0 ≠ 11 ∧
    bits (oneOp 3 4107).body.toNat 3 0 = 11 ∧ soloB 3 0x12 (oneOp 3 4107) {} (coreAt {}) = true := by decide +kernel

/-- A core five halves deep, with a handler's base and an event that waits. -/
def deepCore (e : Bool) : NibCore := { depth := 5, win := 3, tvbase := 1, tick := e }

theorem witness_NibControl : ∀ op ∈ [9, 10, 11, 12, 13, 14, 15, 16, 17, 20, 21],
    SoloOk 3 op (oneOp 3 (bodyL op)) (deepCore true) (coreAt (deepCore true)) := by
  intro op ho
  refine soloOk_of_soloB _ _ _ _ _ ?_
  revert op
  decide +kernel

theorem witness_NibControl_parts (free : Nat → W16) :
    (slideUp (setF2 fiLH false (fSet 1 1#16 (deepCore true)))).isSome = true ∧ (slideDown free (deepCore true)).isSome = true ∧
    (slideDown2 free (deepCore true)).isSome = true ∧ (slideUp2 { deepCore true with pc := 1 }).isSome = true ∧
    (oneOp 3 0).data ≠ .uncorrectable ∧ opI (oneOp 3 4096).body.toNat = true ∧ opI (oneOp 3 0).body.toNat = false ∧
    (wGet (deepCore true) (opA (oneOp 3 0).body.toNat)).toNat = 0 ∧ (deepCore true).tvbase % 2 = 1 ∧ f2Bit (deepCore true) fiTH = false ∧
    ((deepCore true).tick || (deepCore true).notify || (deepCore true).preempt) = true ∧
    ((deepCore false).tick || (deepCore false).notify || (deepCore false).preempt) = false := by
  refine ⟨by decide, rfl, rfl, by decide, by decide, by decide, by decide, by decide, by decide, by decide, by decide, by decide⟩

theorem witness_NibControl_more :
    soloB 3 15 (oneOp 3 4096) {} (coreAt {}) = true ∧
    soloB 3 15 (oneOp 3 (2 ^ 13)) threes (coreAt threes) = true ∧ wGet threes (opA (oneOp 3 (2 ^ 13)).body.toNat) ≠ 0 ∧
    soloB 3 21 (oneOp 3 0) (deepCore false) (coreAt (deepCore false)) = true := by decide +kernel

/-- A repeat whose count has run out: the branch runs once more and the repeat ends. -/
def lastRound : NibCore := { f := [(2, BitVec.ofNat 16 (2 ^ fiRA))] }

theorem witness_NibControl_repeat :
    nibCore (coreAt lastRound) 31 = lastRound ∧ fetchTrap (coreAt lastRound) lastRound .good = none ∧
    fetchChk (coreAt lastRound) lastRound .good = .good ∧ f2Bit lastRound fiRA = true ∧ fGet lastRound 3 = 0 ∧
    fetched (coreAt lastRound) lastRound (wordOf 3 0x09 (oneOp 3 0)) = some (wordOf 3 0x09 (oneOp 3 0)) ∧
    (oneOp 3 0).data ≠ .uncorrectable := by decide +kernel

theorem witness_NibFetchAndTraps :
    nibCore (coreAt {}) 31 = {} ∧ getF live (NIB_CORE_STATE 31) ≠ 2 ∧ getF (coreAt {}) (NIB_CORE_STATE 31) = 2 ∧
    ({ oneOp 0 0 with fetch := .uncorrectable } : NibOp).fetch = .uncorrectable ∧ fetchTrap (coreAt {}) {} .good = none ∧ fetchChk (coreAt {}) {} .good = .good ∧
    ({ oneOp 0 0 with stop := false } : NibOp).stop = false ∧
    (∀ x ∈ [wordOf 0 1 { oneOp 0 0 with stop := false }, wordOf 2 6 { oneOp 2 0 with stop := false },
      wordOf 3 5 { oneOp 3 0 with stop := false }, wordOf 2 0x0F (oneOp 2 (2 ^ 18))], fetched (coreAt {}) {} x = some x) ∧
    illegalOp 2 0x0F (oneOp 2 (2 ^ 18)).body.toNat = some 3 := by decide +kernel

/-! ### Well-formed commands: an ill-formed term for each check -/

theorem test_wf_inStroke : (Instr.flourishSigned 65536).wf = false ∧ (Instr.flourishSigned 65535).wf = true := by decide

theorem test_wf_sqe :
    (Instr.flushCmd { ent 0 0 with fn := 128 }).wf = false ∧ (Instr.flushCmd { ent 0 0 with sqid := 65536 }).wf = false ∧
    (Instr.flushCmd { ent 0 0 with cid := 65536 }).wf = false ∧ (Instr.flushCmd { ent 0 0 with nsid := 2 ^ 32 }).wf = false ∧
    (Instr.flushCmd { ent 0 0 with fuse := 4 }).wf = false ∧ (Instr.flushCmd (ent 1 1)).wf = true := by decide

theorem test_wf_nib :
    (Instr.add { oneOp 0 0 with core := 32 }).wf = false ∧ (Instr.add (oneOp 4 0)).wf = false ∧ (Instr.add (oneOp 3 0)).wf = true := by
  decide

theorem test_wf_header :
    (Instr.fdFrame { frame 1 with link := 4 } 0 0 []).wf = false ∧ (Instr.fdFrame { frame 1 with dst := 512 } 0 0 []).wf = false ∧
    (Instr.fdFrame { frame 1 with src := 512 } 0 0 []).wf = false ∧ (Instr.fdFrame (frame 1) 0 0 []).wf = true := by decide

theorem test_wf_units :
    (Instr.vectorSignal 128 0).wf = false ∧ (Instr.laneParityFail 0 ⟨17, false⟩).wf = false ∧ (Instr.ptpMessage 0 4 ⟨0, .ethernet⟩ (.sync 0)).wf = false ∧
    (Instr.sensorFail 24 0).wf = false ∧ (Instr.vmonOvervoltage 32 0).wf = false ∧ (Instr.nandTimeout 256).wf = false ∧
    (Instr.dqsRecenter 16 0).wf = false ∧ (Instr.feedLast (2 ^ 32)).wf = false ∧ (Instr.inkOpDone 2 0 true).wf = false ∧
    (Instr.portEnable 4).wf = false ∧ (Instr.delayResp 4 0).wf = false ∧ (Instr.remoteGo (2 ^ 32)).wf = false ∧
    (Instr.registerWrite 0 (2 ^ 32) true).wf = false ∧ (Instr.abortCmd (ent 0 0) 65536 0).wf = false ∧
    (Instr.abortCmd (ent 0 0) 0 65536).wf = false ∧ (Instr.deleteIoCq (ent 0 0) 65536).wf = false := by decide

/-! ### The word decoder: the table gives no row any bits -/

theorem test_no_word : decodeTableWord 32 0 = none ∧ live.withFetchWord 32 0 = live := ⟨rfl, rfl⟩

/-! ### Worked examples of the spec -/

/-- spec/18 R422: LEAN at step 1 with a droop runs the fabric at 225 MHz. -/
theorem test_lean_clock : fabricKhz (setF CLK_STATUS_THERM_STEP 1 (setF CLK_STATUS_HALVED 1 (inMode .lean live))) = 225000 := by
  decide

/-- The words of spec/11's example: A0 ADD w4, w4, w3 is 00908180h, A1 ADDC w5, w5, w6 is 2114A300h, L LDPI w3, [w2], 1 is
E18C5001h, L REPI 3 is E7801002h. -/
def exAdd : NibOp := { core := 31, stop := false, unit := 0, body := 0x908180#32 |>.setWidth 23, fetch := .good, data := .good }

def exAddc : NibOp := { core := 31, stop := false, unit := 1, body := 0x14A300#32 |>.setWidth 23, fetch := .good, data := .good }

def exLdpi : NibOp := { core := 31, stop := true, unit := 3, body := 0x18C5001#32 |>.setWidth 23, fetch := .good, data := .good }

def exRepi : NibOp := { core := 31, stop := true, unit := 3, body := 0x801002#32 |>.setWidth 23, fetch := .good, data := .good }

/-- The core of the example at B3, in cycle `i`: w2 to w6, C, f3. -/
def exCore (w2 w3 w4 w5 : Nat) (c : Bool) (f3 : Nat) : NibCore := {
  pc := 0x88, repAt := 0x86,
  w := [(2, BitVec.ofNat 16 w2), (3, BitVec.ofNat 16 w3), (4, BitVec.ofNat 16 w4), (5, BitVec.ofNat 16 w5)],
  f := [(2, BitVec.ofNat 16 (0x100 + 4 * bit c)), (3, BitVec.ofNat 16 f3)],
  imem := [(0x86, 0xE780#16), (0x87, 0x1002#16), (0x88, 0x0090#16), (0x89, 0x8180#16), (0x8A, 0x2114#16), (0x8B, 0xA300#16),
    (0x8C, 0xE18C#16), (0x8D, 0x5001#16)],
  dmem := [(0x200, 0x9C40#16), (0x201, 0xEA60#16), (0x202, 0x1388#16), (0x203, 0xFFFF#16)] }

/-- B3 with its first two words fetched. -/
def exBundle (c : NibCore) : NibCore := { c with bundle := [wordOf 0 1 exAdd, wordOf 1 2 exAddc] }

/-- What a step leaves of core 31. -/
def core31 (r : Result) : NibCore :=
  match r with
  | .next t => nibCore t 31
  | _ => {}

def shows (c : NibCore) : List Nat × Bool × Nat :=
  ([2, 3, 4, 5].map (fun k => (wGet c k).toNat), f2Bit c 2, (fGet c 3).toNat)

/-- Cycle 1: REPI 3 sets f3 to 3 and RA. -/
theorem test_repi : (let c := core31 (exec (.repi exRepi) (coreAt { exCore 0x201 0x9C40 0 0 false 0 with pc := 0x86, f := [] }));
    ((fGet c 3).toNat, f2Bit c 8, c.pc)) = (3, true, 0x88) := by decide +kernel

/-- Iteration 2 of B3 (cycle 3): the ADD carries out while the ADDC sees no carry. -/
theorem test_bundle_carry_out :
    shows (core31 (exec (.ldpi exLdpi) (coreAt (exBundle (exCore 0x202 0xEA60 0x9C40 0 false 2))))) =
      ([0x203, 0x1388, 0x86A0, 0], true, 1) := by decide +kernel

/-- Iteration 3 (cycle 4): the ADDC adds that carry, and the repeat has ended at B4. -/
theorem test_bundle_carry_in :
    shows (core31 (exec (.ldpi exLdpi) (coreAt (exBundle (exCore 0x203 0x1388 0x86A0 0 true 1))))) =
      ([0x204, 0xFFFF, 0x9A28, 1], false, 0) := by decide +kernel

/-- R252: 8000h by FFFFh gives 8000h and 0, with V. -/
theorem test_divs_overflow :
    (let c := core31 (exec (.divs (oneOp 2 (2 ^ 18 * 2 + 128))) (coreAt { w := [(0, 0x8000#16), (1, 0xFFFF#16)] }));
      (wGet c 2, wGet c 3, f2Bit c 3)) = (0x8000#16, 0#16, true) := by decide +kernel

/-- R249: ADDS of 7FFFh and 1 saturates, with V and Q. -/
theorem test_adds_saturates :
    (let c := core31 (exec (.adds (oneOp 0 (2 ^ 18 * 2 + 128))) (coreAt { w := [(0, 0x7FFF#16), (1, 1#16)] }));
      (wGet c 2, f2Bit c 3, f2Bit c 4)) = (0x7FFF#16, true, true) := by decide +kernel

/-- R250: MULQ of 8000h and 8000h saturates. -/
theorem test_mulq_saturates :
    wGet (core31 (exec (.mulq (oneOp 2 (2 ^ 18 * 2 + 128))) (coreAt { w := [(0, 0x8000#16), (1, 0x8000#16)] }))) 2 = 0x7FFF#16 := by
  decide +kernel

end Sys2Proof.Tests
end

/-!
PROOFS. The chain and power: the sources of SEAL.
-/

namespace Sys2Proof.Machine

/-- The modes in which a tripped source is answered by SEAL (the table of R413): all but HALT, SAFE, HIBERNATE, SEAL itself and BOOT
before the mount. -/
def TripSeals (m : ModeSt) : Prop :=
  m.cur ∈ [.run, .lean, .park, .readOnly, .sanitize, .activate, .drowse] ∨ m.cur = .boot ∧ m.mounted = true

/-- R210: whatever the source, a trip in such a mode is the entry of SEAL. -/
theorem trip_eq_enterSeal {s : State} (h : TripSeals s.mode) (source rail cause boot : Nat) :
    trip source rail cause boot s = enterSeal source rail cause boot s := by
  obtain hmode | ⟨hboot, hmounted⟩ := h
  · simp only [List.mem_cons, List.not_mem_nil, or_false] at hmode
    obtain hm | hm | hm | hm | hm | hm | hm := hmode <;> simp only [trip, hm]
  · simp only [trip, hboot, hmounted, if_true]

/-- Settles O47: both events trip SEAL, and neither the blot nor the level of PFAIL_N written before the trip changes the mode that
decides how the trip is answered. -/
theorem dieLinkFailure : Obligations.DieLinkFailure := by
  rintro s _ _ frac rfl rfl
  have hlink : exec (.dieLinkFail frac) s = .next (trip 4 0 5 6 (blot 0x0104 3 0 (le 1 8) (atFrac frac s))) := rfl
  have hpfail : exec (.pfailTrip frac) s = .next (trip 1 0 5 2 (setF PWR_PFAIL_LEVEL 0 (atFrac frac s))) := rfl
  refine ⟨hlink, hpfail, fun hmode => ?_⟩
  have hseals : TripSeals s.mode := hmode
  constructor
  · rw [hlink, trip_eq_enterSeal (by rwa [blot_mode, atFrac_mode])]
  · rw [hpfail, trip_eq_enterSeal (by rwa [setF_mode, atFrac_mode])]

end Sys2Proof.Machine

/-!
PROOFS. Command queueing: what Abort aborts.
-/

namespace Sys2Proof.Machine

/-- An admin entry that its queue delivers and no shared check refuses is fetched, and its command runs. -/
theorem adminFetch_of_adminOk {r : AdminRow} {q : Sqe} {s : State} (h : AdminOk r q s) (k : State → State) :
    adminFetch r q k s = .next (k (takeEntry q.fn 0 s)) := by
  obtain ⟨hqueue, hfetch, hturn, hlocal, hpasses, hsound⟩ := h
  have hrun : adminRun r q k (takeEntry q.fn 0 s) = k (takeEntry q.fn 0 s) := by
    cases hto : r.toNs with
    | false => simp [adminRun, hpasses, hto]
    | true => simp [adminRun, hpasses, hsound hto]
  simp [adminFetch, hqueue, hfetch, hturn, hlocal, hrun]

/-- The Abort of a function that is no proxy runs as `abortOne` where the entry has been taken. -/
theorem exec_abortCmd_of_adminOk {q : Sqe} {s : State} (h : AdminOk { nsid0 := true } q s) (sqid cid : Nat) :
    exec (.abortCmd q sqid cid) s = .next (abortOne q sqid cid (takeEntry q.fn 0 s)) := by
  rw [exec_abortCmd, execAbortCmd, h.local_, Option.any_none, if_neg Bool.false_ne_true, adminFetch_of_adminOk h]

section
variable {s : State} {f sqid cid : Nat}

/-! ### Which command is taken away -/

theorem abortFetched_of_unmoved {c : Cmd} (hfind : findCmd s f sqid cid = some c) (hmoved : c.moved = false) :
    abortFetched f sqid cid s = some (dropLate (· == (f, sqid, cid)) (dropCmd f sqid cid s)) := by
  simp [abortFetched, hfind, hmoved]

theorem abortFetched_of_moved {c : Cmd} (hfind : findCmd s f sqid cid = some c) (hmoved : c.moved = true) :
    abortFetched f sqid cid s = none := by
  simp [abortFetched, hfind, hmoved]

/-- With no such command outstanding or waiting for a byte budget or the signature unit, what is left is a transition, a graph start or a
change of mode that waits for its boundary. -/
theorem abortFetched_of_not_fetched (hfind : findCmd s f sqid cid = none)
    (hlate : ∀ c ∈ lateCmds s, c.who ≠ (f, sqid, cid)) :
    abortFetched f sqid cid s = ((abortTrans f sqid cid s).or (abortStart f sqid cid s)).or (abortMode f sqid cid s) := by
  have hnone : (lateCmds s).any (fun c => c.who == (f, sqid, cid) && !c.early) = false := by
    rw [List.any_eq_false]
    intro c hc
    simp [hlate c hc]
  simp [abortFetched, hfind, hnone]

theorem abortTrans_eq_none (h : ∀ t ∈ s.trans, ¬ (t.fn = f ∧ t.sqid = sqid ∧ t.cid = cid)) :
    abortTrans f sqid cid s = none := by
  have hfind : s.trans.find? (fun t => t.fn == f && t.sqid == sqid && t.cid == cid && !t.kind.begun) = none := by
    rw [List.find?_eq_none]
    intro t ht
    have := h t ht
    simp only [Bool.and_eq_true, beq_iff_eq]
    tauto
  rw [abortTrans, hfind, Option.map_none]

theorem abortStart_eq_none (h : ∀ t ∈ s.duct.starts, ¬ (t.fn = f ∧ t.sqid = sqid ∧ t.cid = cid)) :
    abortStart f sqid cid s = none := by
  have hany : s.duct.starts.any (fun t => t.fn == f && t.sqid == sqid && t.cid == cid) = false := by
    rw [List.any_eq_false]
    intro t ht
    have := h t ht
    simp only [Bool.and_eq_true, beq_iff_eq]
    tauto
  simp [abortStart, hany]

theorem abortMode_eq_none (hreqs : ∀ r ∈ s.mode.modeReqs, ¬ (r.sqid = sqid ∧ r.cid = cid))
    (hcommit : s.fw.commit ≠ some (f, sqid, cid)) : abortMode f sqid cid s = none := by
  have hfind : s.mode.modeReqs.find? (fun r => r.sqid == sqid && r.cid == cid && !r.moved) = none := by
    rw [List.find?_eq_none]
    intro r hr
    have := hreqs r hr
    simp only [Bool.and_eq_true, beq_iff_eq]
    tauto
  simp [abortMode, hfind, hcommit]

end

/-! ### How Abort and the command complete -/

section
variable {q : Sqe} {sqid cid : Nat} {s : State}

theorem abortOne_of_held_request (hsqid : sqid = 0) (haer : cid ∈ (getFn s q.fn).aers) :
    abortOne q sqid cid s = done q .success 0 0 (complete q.fn 0 cid .abortRequested 0 0
      (updFn q.fn (fun x => { x with aers := dropFirst (· == cid) x.aers }) s)) := by
  simp [abortOne, hsqid, haer]

/-- Abort of anything but a held event request turns on `abortFetched`. -/
theorem abortOne_of_some {a : State} (h : ¬ (sqid = 0 ∧ cid ∈ (getFn s q.fn).aers))
    (ha : abortFetched q.fn sqid cid s = some a) :
    abortOne q sqid cid s =
      done q .success 0 0 (advanceAll (complete q.fn sqid cid .abortRequested 0 0 a)) := by
  simp [abortOne, h, ha]

theorem abortOne_of_none (h : ¬ (sqid = 0 ∧ cid ∈ (getFn s q.fn).aers))
    (ha : abortFetched q.fn sqid cid s = none) : abortOne q sqid cid s = done q .success 1 0 s := by
  simp [abortOne, h, ha]

end

/-- Settles O18: once the entry is taken, each clause says what `abortFetched` finds under its hypotheses, and DW0 follows from
whether it finds anything. -/
theorem abortCommand : Obligations.AbortCommand := by
  rintro s _ q sqid cid hok rfl
  rw [exec_abortCmd_of_adminOk hok]
  refine ⟨fun hsqid haer => ?held, fun hnot c hfind hmoved => ?unmoved, fun hnot hfind hlate a ha => ?waiting,
    fun hnot c hfind hmoved => ?moved, fun hnot hfind hlate htrans hstart hreqs hcommit => ?absent⟩
  case held => rw [abortOne_of_held_request hsqid haer]
  case unmoved => rw [abortOne_of_some hnot (abortFetched_of_unmoved hfind hmoved)]
  case waiting =>
    have hfetched := abortFetched_of_not_fetched hfind hlate
    obtain htrans | ⟨htrans, hstart⟩ := ha
    · rw [abortOne_of_some hnot (by rw [hfetched, htrans, Option.some_or, Option.some_or])]
    · rw [abortOne_of_some hnot (by rw [hfetched, htrans, hstart, Option.none_or, Option.some_or])]
  case moved => rw [abortOne_of_none hnot (abortFetched_of_moved hfind hmoved)]
  case absent =>
    have hnone : abortFetched q.fn sqid cid (takeEntry q.fn 0 s) = none := by
      rw [abortFetched_of_not_fetched hfind hlate, abortTrans_eq_none htrans, abortStart_eq_none hstart,
        abortMode_eq_none hreqs hcommit, Option.none_or, Option.none_or]
    rw [abortOne_of_none hnot hnone]

end Sys2Proof.Machine

/-!
PROOFS. The Nib: a bundle of one operation of the A or M units.
-/

namespace Sys2Proof.Machine

section
variable {unit op : Nat} {o : NibOp} {c : NibCore} {s : State}

/-! ### The word -/

@[simp] theorem wordOf_unit : (wordOf unit op o).unit = unit := rfl

@[simp] theorem wordOf_op : (wordOf unit op o).op = op := rfl

@[simp] theorem wordOf_f : (wordOf unit op o).f = o.body.toNat := rfl

/-! ### The operation is fetched and its bundle runs -/

/-- A good operation word with S = 1 that a running core fetches as the first of its bundle runs as a bundle of its own. -/
theorem nibIssue_of_fetched (hcore : o.core < 32) (hrun : getF s (NIB_CORE_STATE o.core) = 2)
    (hregs : nibCore s o.core = c) (hfetch : fetchTrap s c o.fetch = none) (hgood : fetchChk s c o.fetch = .good)
    (hword : fetched s c (wordOf unit op o) = some (wordOf unit op o)) (hstop : o.stop = true) (hfirst : c.bundle = []) :
    nibIssue unit op o s = nibBundle o.core [wordOf unit op o] s := by
  have hcount : countFetch o.core c o.fetch s = s := by simp [countFetch, hgood]
  have hlive : ¬ (32 ≤ o.core ∨ ¬ getF s (NIB_CORE_STATE o.core) = 2) := by omega
  rw [wordOf, hstop] at hword
  simp [nibIssue, hregs, hlive, hfetch, hword, hcount, hfirst, hstop, wordOf]

theorem bundle_cleared (hfirst : c.bundle = []) : { c with bundle := [] } = c := by
  rw [← hfirst]

/-- A bundle of one operation that meets no trap and has no L operation is its effect on the core. -/
theorem nibBundle_singleton {k : Nat} {x : NibWord} (hunit : x.unit < 3) (hregs : nibCore s k = c)
    (hfirst : c.bundle = []) (hclear : bundleTrap s c [x] = none) (honce : f2Bit c fiRA = false) :
    nibBundle k [x] s = setCore k (runBundle s k c [x]) s := by
  have hL : wUnits [x] 3 = none := by simp [wUnits, Nat.ne_of_lt hunit]
  simp [nibBundle, hregs, bundle_cleared hfirst, honce, hclear, hL]

theorem bundleFlags_singleton {old : NibCore} {x : NibWord} (hunit : x.unit < 3) (hflags : writesFlags x = true)
    (c : NibCore) :
    bundleFlags old [x] c = (let e := flagEffect old x
      let c1 := putFlag 0 e.z (putFlag 1 e.n (putFlag 2 e.c (putFlag 3 e.v c)))
      if e.q then setF2 fiQ true c1 else c1) := by
  have hwriters : ([0, 1, 2].filterMap (wUnits [x])).filter writesFlags = [x] := by
    obtain h | h | h : x.unit = 0 ∨ x.unit = 1 ∨ x.unit = 2 := by omega
    all_goals simp [wUnits, h, hflags]
  simp [bundleFlags, hwriters]

/-- An operation that writes flags is no MOVT. -/
theorem bundleFixed_singleton {old : NibCore} {x : NibWord} (hflags : writesFlags x = true) (c : NibCore) :
    bundleFixed old [x] c = c := by
  have hmovt : ¬ (x.unit ≤ 1 ∧ x.op = 0x1E) := by
    rintro ⟨hunit, hop⟩
    simp [writesFlags, hunit, hop] at hflags
  simp [bundleFixed, hmovt]

/-- R244 to R246: one operation that writes flags and is not of the L unit writes its registers and its flags, and the core goes
on. -/
theorem runBundle_singleton {k : Nat} {x : NibWord} (hunit : x.unit < 3) (hflags : writesFlags x = true)
    (honce : f2Bit c fiRA = false) :
    runBundle s k c [x] = soloDone c (regEffect s k c x) (flagEffect c x) := by
  have hL : wUnits [x] 3 = none := by simp [wUnits, Nat.ne_of_lt hunit]
  simp only [runBundle, hL, List.flatMap_singleton, List.length_singleton, bundleFixed_singleton hflags,
    bundleFlags_singleton hunit hflags, endIteration, honce, Bool.not_false, if_true, soloDone]

/-- What an operation that writes flags does as a bundle of its own. -/
theorem nibIssue_of_soloOk (h : SoloOk unit op o c s) (hunit : unit < 3) (hflags : writesFlags (wordOf unit op o) = true) :
    nibIssue unit op o s = setCore o.core (soloDone c (regEffect s o.core c (wordOf unit op o))
      (flagEffect c (wordOf unit op o))) s := by
  rw [nibIssue_of_fetched h.core h.running h.regs h.fetch h.good h.word h.alone h.first,
    nibBundle_singleton hunit h.regs h.first h.clear h.once, runBundle_singleton hunit hflags h.once]

end

/-! ### The M unit -/

section
variable {op : Nat} {o : NibOp} {c : NibCore} {s : State} {k : Nat}

theorem writesFlags_wordOf_M (hform : (formOf 2 op).isSome = true) (hop : op ≠ 0) :
    writesFlags (wordOf 2 op o) = true := by
  simp [writesFlags, Option.isSome_iff_ne_none.mp hform, hop]

theorem ne_div_of_pairOp_false (hpair : pairOp 2 op = false) : op ≠ 0x0E ∧ op ≠ 0x0F := by
  constructor <;> rintro rfl <;> simp [pairOp] at hpair

theorem regEffect_M16 (hop : op ≠ 0) (hpair : pairOp 2 op = false) :
    regEffect s k c (wordOf 2 op o) =
      [(regIx c (opD o.body.toNat), (mulM op (wGet c (opA o.body.toNat)) (opBK c (wordOf 2 op o))).1)] := by
  obtain ⟨hdivs, hdivu⟩ := ne_div_of_pairOp_false hpair
  simp [regEffect, hop, hdivs, hdivu, hpair]

theorem flagEffect_M16 (hpair : pairOp 2 op = false) :
    flagEffect c (wordOf 2 op o) = (mulM op (wGet c (opA o.body.toNat)) (opBK c (wordOf 2 op o))).2 := by
  obtain ⟨hdivs, hdivu⟩ := ne_div_of_pairOp_false hpair
  simp [flagEffect, hdivs, hdivu, hpair]

/-- The 16-bit operations of the M unit compute `mulM`. -/
theorem mulGives_of_mulM {i : NibOp → Instr} {r : W16 → W16 → W16 × FlagW}
    (hexec : ∀ o s, exec (i o) s = .next (nibIssue 2 op o s)) (hr : ∀ a b, mulM op a b = r a b)
    (hform : (formOf 2 op).isSome = true := by decide) (hop : op ≠ 0 := by decide)
    (hpair : pairOp 2 op = false := by decide) : MulGives i op r := by
  rintro o c s x h rfl
  rw [hexec, nibIssue_of_soloOk h (by decide) (writesFlags_wordOf_M hform hop), regEffect_M16 hop hpair,
    flagEffect_M16 hpair, hr]

theorem regEffect_pair (hpair : pairOp 2 op = true) (hdivs : op ≠ 0x0E) (hdivu : op ≠ 0x0F) (base : Nat)
    (hbase : (if 0x10 ≤ op then opA o.body.toNat else opD o.body.toNat) = base) :
    regEffect s k c (wordOf 2 op o) =
      let r := (pairM op (wGet c (base + 1) ++ wGet c base) (wGet c (opA o.body.toNat)) (opBK c (wordOf 2 op o))).1
      [(regIx c (opD o.body.toNat), r.setWidth 16), (regIx c (opD o.body.toNat + 1), (r >>> 16).setWidth 16)] := by
  have hop : op ≠ 0 := by rintro rfl; simp [pairOp] at hpair
  split_ifs at hbase with hA <;> simp [regEffect, hop, hdivs, hdivu, hpair, hA, hbase]

theorem flagEffect_pair (hpair : pairOp 2 op = true) (hdivs : op ≠ 0x0E) (hdivu : op ≠ 0x0F) (base : Nat)
    (hbase : (if 0x10 ≤ op then opA o.body.toNat else opD o.body.toNat) = base) :
    flagEffect c (wordOf 2 op o) =
      (pairM op (wGet c (base + 1) ++ wGet c base) (wGet c (opA o.body.toNat)) (opBK c (wordOf 2 op o))).2 := by
  split_ifs at hbase with hA <;> simp [flagEffect, hdivs, hdivu, hpair, hA, hbase]

/-- The 32-bit operations of the M unit compute `pairM`: those from 10h on of the pair at A, the others of the pair at D. -/
theorem pairGives_of_pairM {i : NibOp → Instr} {base : Nat → Nat} {r : BitVec 32 → W16 → W16 → BitVec 32 × FlagW}
    (hexec : ∀ o s, exec (i o) s = .next (nibIssue 2 op o s)) (hr : ∀ p a b, pairM op p a b = r p a b)
    (hbase : ∀ f, (if 0x10 ≤ op then opA f else opD f) = base f) (hform : (formOf 2 op).isSome = true := by decide)
    (hpair : pairOp 2 op = true := by decide) (hdivs : op ≠ 0x0E := by decide) (hdivu : op ≠ 0x0F := by decide) :
    PairGives i op base r := by
  rintro o c s x h rfl
  have hop : op ≠ 0 := by rintro rfl; simp [pairOp] at hpair
  rw [hexec, nibIssue_of_soloOk h (by decide) (writesFlags_wordOf_M hform hop),
    regEffect_pair hpair hdivs hdivu _ (hbase _), flagEffect_pair hpair hdivs hdivu _ (hbase _), hr]

end

end Sys2Proof.Machine

/-!
PROOFS. The Nib: division.
-/

namespace Sys2Proof.Machine

section
variable {op : Nat} {o : NibOp} {c : NibCore} {s : State}

theorem illegalOps_singleton {x : NibWord} (hunit : x.unit < 4) :
    illegalOps c [x] = (illegalAt c x).map (fun k => { code := 1, sub := k, info := 0 }) := by
  obtain h | h | h | h : x.unit = 0 ∨ x.unit = 1 ∨ x.unit = 2 ∨ x.unit = 3 := by omega
  all_goals cases hat : illegalAt c x <;> simp [illegalOps, wUnits, posOf, h, hat]

/-- A clear bundle holds no operation that is illegal of its own bits (R248, R261). -/
theorem illegalOp_eq_none_of_bundleTrap {unit : Nat} (hunit : unit < 4)
    (h : bundleTrap s c [wordOf unit op o] = none) : illegalOp unit op o.body.toNat = none := by
  by_contra hill
  obtain ⟨sub, hsub⟩ := Option.ne_none_iff_exists'.mp hill
  have hat : illegalAt c (wordOf unit op o) = some sub := by simp [illegalAt, hsub]
  have hops := illegalOps_singleton (c := c) (x := wordOf unit op o) hunit
  cases hb : illegalBundle c [wordOf unit op o] <;> simp [bundleTrap, hb, hops, hat] at h

/-- The divisions take registers only: I = 1 is a reserved bit (R243, R250). -/
theorem opI_eq_false_of_div (hop : op = 0x0E ∨ op = 0x0F) (h : illegalOp 2 op o.body.toNat = none) :
    opI o.body.toNat = false := by
  have hform : formOf 2 op = some .pdiv := by obtain rfl | rfl := hop <;> rfl
  cases hI : opI o.body.toNat with
  | false => rfl
  | true => simp [illegalOp, hform, fieldsClear, hI] at h

theorem opBK_of_div (hop : op = 0x0E ∨ op = 0x0F) (h : SoloOk 2 op o c s) :
    opBK c (wordOf 2 op o) = wGet c (opB o.body.toNat) := by
  have hI := opI_eq_false_of_div hop (illegalOp_eq_none_of_bundleTrap (by decide) h.clear)
  simp [opBK, hI]

/-- R250, R252: the quotient goes to D, the remainder to D + 1, the flags are the quotient's. -/
theorem exec_divs_of_soloOk (h : SoloOk 2 0x0E o c s) {r : W16 × W16 × FlagW}
    (hr : divS (wGet c (opA o.body.toNat)) (wGet c (opB o.body.toNat)) = r) :
    exec (.divs o) s = .next (setCore o.core (soloDone c
      [(regIx c (opD o.body.toNat), r.1), (regIx c (opD o.body.toNat + 1), r.2.1)] r.2.2) s) := by
  rw [exec_divs, execDivs, nibIssue_of_soloOk h (by decide) (writesFlags_wordOf_M (by decide) (by decide)), ← hr,
    ← opBK_of_div (.inl rfl) h]
  rfl

theorem exec_divu_of_soloOk (h : SoloOk 2 0x0F o c s) {r : W16 × W16 × FlagW}
    (hr : divU (wGet c (opA o.body.toNat)) (wGet c (opB o.body.toNat)) = r) :
    exec (.divu o) s = .next (setCore o.core (soloDone c
      [(regIx c (opD o.body.toNat), r.1), (regIx c (opD o.body.toNat + 1), r.2.1)] r.2.2) s) := by
  rw [exec_divu, execDivu, nibIssue_of_soloOk h (by decide) (writesFlags_wordOf_M (by decide) (by decide)), ← hr,
    ← opBK_of_div (.inr rfl) h]
  rfl

theorem divS_zero (a : W16) : divS a 0 = (if a.msb then 0x8000#16 else 0x7FFF#16, a,
    znV (if a.msb then 0x8000#16 else 0x7FFF#16) true) := rfl

theorem divS_of_ne {a b : W16} (hb : b ≠ 0) : divS a b = (BitVec.ofInt 16 (a.toInt.tdiv b.toInt),
    BitVec.ofInt 16 (a.toInt.tmod b.toInt),
    znV (BitVec.ofInt 16 (a.toInt.tdiv b.toInt)) (!fits16 (a.toInt.tdiv b.toInt))) := by
  rw [divS, if_neg hb]
  rfl

theorem divU_zero (a : W16) : divU a 0 = (0xFFFF#16, a, znV 0xFFFF#16 true) := rfl

theorem divU_of_ne {a b : W16} (hb : b ≠ 0) : divU a b = (a / b, a % b, znV (a / b) false) := by
  rw [divU, if_neg hb, BitVec.udiv_def, BitVec.umod_def]
  rfl

/-- A legal division whose divisor is 0 meets DIV_ZERO where DZT is 1 (R252, R261). -/
theorem bundleTrap_div_zero (hop : op = 0x0E ∨ op = 0x0F) (honce : f2Bit c fiRA = false)
    (hlegal : illegalOp 2 op o.body.toNat = none) (hdzt : f2Bit c fiDZT = true)
    (hzero : wGet c (opB o.body.toNat) = 0) :
    bundleTrap s c [wordOf 2 op o] = some { code := 3, sub := 0, info := 0 } := by
  have hwrites : writesOf (wordOf 2 op o) = [opD o.body.toNat, opD o.body.toNat + 1] := by
    obtain rfl | rfl := hop <;> rfl
  have hbundle : illegalBundle c [wordOf 2 op o] = none := by
    simp [illegalBundle, hwrites, hasDup, List.eraseDups_cons, movtTo, honce]
  have hops : illegalOps c [wordOf 2 op o] = none := by
    rw [illegalOps_singleton (by simp)]
    simp [illegalAt, hlegal]
  have hdiv : divTrap c (wordOf 2 op o) = some { code := 3, sub := 0, info := 0 } := by
    simp [divTrap, hop, hdzt, hzero]
  simp [bundleTrap, hbundle, hops, wUnits, hdiv]

/-- A bundle that meets DIV_ZERO writes nothing; the trap names the bundle. -/
theorem nibBundle_div_zero {k : Nat} {x : NibWord} (hregs : nibCore s k = c) (hfirst : c.bundle = [])
    (honce : f2Bit c fiRA = false) (htrap : bundleTrap s c [x] = some { code := 3, sub := 0, info := 0 }) :
    nibBundle k [x] s = trapEntry k { code := 3, sub := 0, info := 0 } 1 c.pc c.xip (setCore k c s) := by
  simp [nibBundle, hregs, bundle_cleared hfirst, honce, htrap]

theorem exec_div {op : Nat} (hop : op = 0x0E ∨ op = 0x0F) :
    exec (if op = 0x0E then .divs o else .divu o) s = .next (nibIssue 2 op o s) := by
  obtain rfl | rfl := hop <;> rfl

end

/-- Settles O56: `divS` and `divU` by a zero and a non-zero divisor; with DZT the bundle's one trap is DIV_ZERO, and
`trapEntry` finds the core as it was. -/
theorem nibDivision : Obligations.NibDivision := by
  refine ⟨?signed, ?unsigned, ?trapped⟩
  case signed =>
    rintro o c s a b h rfl rfl
    exact ⟨fun hb => exec_divs_of_soloOk h (divS_of_ne hb), fun hb => exec_divs_of_soloOk h (hb ▸ divS_zero _)⟩
  case unsigned =>
    rintro o c s a b h rfl rfl
    exact ⟨fun hb => exec_divu_of_soloOk h (divU_of_ne hb), fun hb => exec_divu_of_soloOk h (hb ▸ divU_zero _)⟩
  case trapped =>
    rintro o c s k op x rfl hregs hcore hrun hfetch hgood hstop hfirst honce hop rfl hword hlegal hdzt hzero
    rw [exec_div hop, nibIssue_of_fetched hcore hrun hregs hfetch hgood hword hstop hfirst,
      nibBundle_div_zero hregs hfirst honce (bundleTrap_div_zero hop honce hlegal hdzt hzero)]

end Sys2Proof.Machine

/-!
PROOFS. The Nib: shifts, rotates and fields.
-/

namespace Sys2Proof.Machine

theorem bitAt_eq_testBit (v i : Nat) : bitAt v i = v.testBit i := by
  rw [bitAt, Nat.testBit_eq_decide_div_mod_eq]
  rfl

theorem bitAt_toNat_last {w : Nat} (a : BitVec w) : bitAt a.toNat (w - 1) = a.msb := by
  rw [bitAt_eq_testBit, BitVec.testBit_toNat, BitVec.msb_eq_getLsbD_last]

/-! ### The model's shifts of a number of `w` bits are the shifts of bit vectors, with the last bit out (R251) -/

section
variable {w : Nat} (a : BitVec w) (v c : Nat)

theorem shlN_fst : (shlN w a.toNat c).1 = (a <<< c).toNat := by
  unfold shlN
  split_ifs with h0 hlt heq
  · simp [h0]
  · rw [BitVec.toNat_shiftLeft, Nat.shiftLeft_eq]
  · rw [BitVec.shiftLeft_eq_zero heq.ge, BitVec.toNat_zero]
  · rw [BitVec.shiftLeft_eq_zero (Nat.le_of_not_lt hlt), BitVec.toNat_zero]

theorem shlN_snd : (shlN w v c).2 = (decide (0 < c ∧ c ≤ w) && bitAt v (w - c)) := by
  unfold shlN
  split_ifs with h0 hlt heq
  · simp [h0]
  · simp [Nat.pos_of_ne_zero h0, hlt.le]
  · simp [heq, heq ▸ Nat.pos_of_ne_zero h0]
  · simp [show ¬ c ≤ w by omega]

theorem shrN_fst : (shrN w a.toNat c).1 = (a >>> c).toNat := by
  rw [BitVec.toNat_ushiftRight, Nat.shiftRight_eq_div_pow]
  unfold shrN
  split_ifs with h0 hlt heq
  · simp [h0]
  · rfl
  · rw [Nat.div_eq_of_lt (heq ▸ a.isLt)]
  · rw [Nat.div_eq_of_lt (a.isLt.trans_le (Nat.pow_le_pow_right two_pos (Nat.le_of_not_lt hlt)))]

theorem shrN_snd : (shrN w v c).2 = (decide (0 < c ∧ c ≤ w) && bitAt v (c - 1)) := by
  unfold shrN
  split_ifs with h0 hlt heq
  · simp [h0]
  · simp [Nat.pos_of_ne_zero h0, hlt.le]
  · simp [heq, heq ▸ Nat.pos_of_ne_zero h0]
  · simp [show ¬ c ≤ w by omega]

/-- Ones that come in from the left are what the complement's zeros leave. -/
theorem div_add_topOnes {v : Nat} (hv : v < 2 ^ w) (hc : c ≤ w) :
    v / 2 ^ c + topOnes w c = 2 ^ w - 1 - (2 ^ w - 1 - v) / 2 ^ c := by
  have hsplit : 2 ^ w = 2 ^ c * 2 ^ (w - c) := by rw [← pow_add, Nat.add_sub_cancel' hc]
  have hcompl : (2 ^ w - 1 - v) / 2 ^ c = 2 ^ (w - c) - (v / 2 ^ c + 1) := by
    rw [Nat.sub_sub, Nat.add_comm 1, hsplit, Nat.mul_sub_div _ _ _ (hsplit ▸ hv)]
  have hhigh : v / 2 ^ c < 2 ^ (w - c) := Nat.div_lt_of_lt_mul (hsplit ▸ hv)
  have hle : 2 ^ (w - c) ≤ 2 ^ w := Nat.pow_le_pow_right two_pos (Nat.sub_le ..)
  rw [topOnes, hcompl]
  generalize 2 ^ (w - c) = high at hhigh hle ⊢
  generalize 2 ^ w = all at hle ⊢
  generalize v / 2 ^ c = low at hhigh ⊢
  omega

theorem sarN_fst : (sarN w a.toNat c).1 = (a.sshiftRight c).toNat := by
  have ha := a.isLt
  have hpow (hlt : ¬ c < w) : 2 ^ w ≤ 2 ^ c := Nat.pow_le_pow_right two_pos (Nat.le_of_not_lt hlt)
  cases hsign : a.msb with
  | false =>
    rw [BitVec.toNat_sshiftRight_of_msb_false hsign, Nat.shiftRight_eq_div_pow]
    simp only [sarN, bitAt_toNat_last, hsign, Bool.false_eq_true, if_false]
    split_ifs with h0 hlt
    · simp [h0]
    · rfl
    · rw [Nat.div_eq_of_lt (ha.trans_le (hpow hlt))]
  | true =>
    rw [BitVec.toNat_sshiftRight_of_msb_true hsign, Nat.shiftRight_eq_div_pow]
    simp only [sarN, bitAt_toNat_last, hsign, if_true]
    split_ifs with h0 hlt
    · simp only [h0, pow_zero, Nat.div_one]
      omega
    · exact div_add_topOnes c ha hlt.le
    · rw [Nat.div_eq_of_lt (by have := hpow hlt; omega), Nat.sub_zero]

theorem sarN_snd : (sarN w v c).2 = (decide (0 < c) && bitAt v (min c w - 1)) := by
  unfold sarN
  by_cases h0 : c = 0
  · simp [h0]
  by_cases hlt : c < w
  · simp [h0, hlt, Nat.pos_of_ne_zero h0, hlt.le]
  · simp [h0, hlt, Nat.pos_of_ne_zero h0, Nat.le_of_not_lt hlt]

theorem aslV_eq : aslV w a.toNat c = decide ((a <<< c).sshiftRight c ≠ a) := by
  unfold aslV
  split_ifs with h0 hlt
  · simp [h0]
  · rw [shlN_fst, sarN_fst, Bool.eq_iff_iff]
    simp [BitVec.toNat_inj]
  · rw [BitVec.shiftLeft_eq_zero (Nat.le_of_not_lt hlt), BitVec.zero_sshiftRight, Bool.eq_iff_iff, bne_iff_ne,
      decide_eq_true_iff, ne_comm, BitVec.toNat_ne, BitVec.toNat_zero]

/-- The two parts of a rotate by `c` to the left do not overlap. -/
theorem mul_mod_add_div_eq_or {v : Nat} (hv : v < 2 ^ w) (hc : c ≤ w) :
    (v * 2 ^ c) % 2 ^ w + v / 2 ^ (w - c) = (v <<< c) % 2 ^ w ||| v >>> (w - c) := by
  have hsplit : 2 ^ w = 2 ^ c * 2 ^ (w - c) := by rw [← pow_add, Nat.add_sub_cancel' hc]
  have hlow : v / 2 ^ (w - c) < 2 ^ c := Nat.div_lt_of_lt_mul (by rwa [Nat.mul_comm, ← hsplit])
  rw [Nat.shiftLeft_eq, Nat.shiftRight_eq_div_pow, Nat.mul_comm v, hsplit, Nat.mul_mod_mul_left,
    Nat.two_pow_add_eq_or_of_lt hlow]

end

/-! ### 16-bit results -/

theorem shiftRes_eq {r : Nat × Bool} {x : W16} {b : Bool} (hval : r.1 = x.toNat) (hout : r.2 = b) :
    shiftRes r = (x, znC x b) := by
  simp only [shiftRes, hval, hout, BitVec.ofNat_toNat, BitVec.setWidth_eq]
  rfl

theorem rotateLeft_zero {w : Nat} (a : BitVec w) : a.rotateLeft 0 = a := by
  rw [BitVec.rotateLeft_def, Nat.zero_mod, Nat.sub_zero, BitVec.shiftLeft_zero, BitVec.ushiftRight_eq_zero le_rfl,
    BitVec.or_zero]

theorem rotateRight_zero {w : Nat} (a : BitVec w) : a.rotateRight 0 = a := by
  rw [BitVec.rotateRight_def, Nat.zero_mod, Nat.sub_zero, BitVec.ushiftRight_zero, BitVec.shiftLeft_eq_zero le_rfl,
    BitVec.or_zero]

theorem rolN_fst (a : W16) (c : Nat) : (rolN a.toNat c).1 = (a.rotateLeft (c % 16)).toNat := by
  simp only [rolN]
  split_ifs with h0
  · rw [h0, rotateLeft_zero]
  · have hk : c % 16 < 16 := Nat.mod_lt _ (by decide)
    rw [BitVec.toNat_rotateLeft, Nat.mod_eq_of_lt hk]
    exact mul_mod_add_div_eq_or _ a.isLt hk.le

theorem rolN_snd (a : W16) (c : Nat) :
    (rolN a.toNat c).2 = (c % 16 != 0 && bitAt (a.rotateLeft (c % 16)).toNat 0) := by
  rw [← rolN_fst]
  simp only [rolN]
  split_ifs with h0 <;> simp [h0]

theorem rorN_fst (a : W16) (c : Nat) : (rorN a.toNat c).1 = (a.rotateRight (c % 16)).toNat := by
  simp only [rorN]
  split_ifs with h0
  · rw [h0, rotateRight_zero]
  · have hk : c % 16 < 16 := Nat.mod_lt _ (by decide)
    have hor := mul_mod_add_div_eq_or (16 - c % 16) a.isLt (Nat.sub_le ..)
    rw [Nat.sub_sub_self hk.le] at hor
    rw [BitVec.toNat_rotateRight, Nat.mod_eq_of_lt hk, Nat.or_comm, Nat.add_comm]
    exact hor

theorem rorN_snd (a : W16) (c : Nat) :
    (rorN a.toNat c).2 = (c % 16 != 0 && bitAt (a.rotateRight (c % 16)).toNat 15) := by
  rw [← rorN_fst]
  simp only [rorN]
  split_ifs with h0 <;> simp [h0]

/-- The sign extension of a field of up to 16 bits (R250). -/
theorem ofNat_signField {n : Nat} (hn : n ≤ 16) (y : BitVec n) :
    BitVec.ofNat 16 (signField y.toNat n) = y.signExtend 16 := by
  apply BitVec.eq_of_toNat_eq
  rw [BitVec.toNat_signExtend, signField, bitAt_toNat_last, BitVec.toNat_setWidth, BitVec.toNat_ofNat]
  have hy := y.isLt
  have hpow : 2 ^ n ≤ 2 ^ 16 := Nat.pow_le_pow_right two_pos hn
  split_ifs <;> omega

theorem ofNat_signField_fieldOf (a k : Nat) :
    BitVec.ofNat 16 (signField (fieldOf a k) (bits k 7 4 + 1)) =
      (BitVec.ofNat (bits k 7 4 + 1) (a / 2 ^ bits k 3 0)).signExtend 16 := by
  have hwidth : bits k 7 4 + 1 ≤ 16 := bits_lt k 7 4
  rw [← ofNat_signField hwidth, BitVec.toNat_ofNat, fieldOf]

/-! ### The operations -/

theorem mulM_asl (a b : W16) : mulM 0x0B a b = (a <<< b.toNat, znCV (a <<< b.toNat)
    (decide (0 < b.toNat ∧ b.toNat ≤ 16) && bitAt a.toNat (16 - b.toNat))
    ((a <<< b.toNat).sshiftRight b.toNat ≠ a)) := by
  simp only [mulM, aslV_eq, shiftRes_eq (shlN_fst a b.toNat) (shlN_snd a.toNat b.toNat)]
  rfl

theorem mulM_exts (a b : W16) :
    mulM 0x14 a b = ((BitVec.ofNat (bits b.toNat 7 4 + 1) (a.toNat / 2 ^ bits b.toNat 3 0)).signExtend 16,
      znOf ((BitVec.ofNat (bits b.toNat 7 4 + 1) (a.toNat / 2 ^ bits b.toNat 3 0)).signExtend 16)) := by
  simp only [mulM, ofNat_signField_fieldOf]
  rfl

/-- A 32-bit shift result with Z, N and C. -/
theorem pairRes_eq {r : Nat × Bool} {x : BitVec 32} {b : Bool} (hval : r.1 = x.toNat) (hout : r.2 = b) :
    (BitVec.ofNat 32 r.1, { zn32 (BitVec.ofNat 32 r.1) with c := some r.2 }) = (x, znC x b) := by
  simp only [hval, hout, BitVec.ofNat_toNat, BitVec.setWidth_eq]
  rfl

/-- Settles O57: each operation is `mulM` or `pairM`, and those are the shifts of bit vectors with the last bit out. -/
theorem nibShifts : Obligations.NibShifts := by
  refine ⟨?shl, ?shr, ?sar, ?asl, ?rol, ?ror, ?shl32, ?shr32, ?sar32, ?extu, ?exts⟩
  case shl => exact mulGives_of_mulM (fun _ _ => rfl) fun a b => shiftRes_eq (shlN_fst a _) (shlN_snd _ _)
  case shr => exact mulGives_of_mulM (fun _ _ => rfl) fun a b => shiftRes_eq (shrN_fst a _) (shrN_snd _ _)
  case sar => exact mulGives_of_mulM (fun _ _ => rfl) fun a b => shiftRes_eq (sarN_fst a _) (sarN_snd _ _)
  case asl => exact mulGives_of_mulM (fun _ _ => rfl) mulM_asl
  case rol => exact mulGives_of_mulM (fun _ _ => rfl) fun a b => shiftRes_eq (rolN_fst a _) (rolN_snd a _)
  case ror => exact mulGives_of_mulM (fun _ _ => rfl) fun a b => shiftRes_eq (rorN_fst a _) (rorN_snd a _)
  case shl32 =>
    exact pairGives_of_pairM (fun _ _ => rfl) (fun p _ b => pairRes_eq (shlN_fst p _) (shlN_snd _ _)) fun _ => rfl
  case shr32 =>
    exact pairGives_of_pairM (fun _ _ => rfl) (fun p _ b => pairRes_eq (shrN_fst p _) (shrN_snd _ _)) fun _ => rfl
  case sar32 =>
    exact pairGives_of_pairM (fun _ _ => rfl) (fun p _ b => pairRes_eq (sarN_fst p _) (sarN_snd _ _)) fun _ => rfl
  case extu => exact mulGives_of_mulM (fun _ _ => rfl) fun _ _ => rfl
  case exts => exact mulGives_of_mulM (fun _ _ => rfl) mulM_exts

end Sys2Proof.Machine

/-!
PROOFS. The block as a whole: what every command keeps.
-/

namespace Sys2Proof.Machine

/-- Every command but the loss of always-on power keeps what `Kept` speaks of: one arm for each constructor, as in `exec`. -/
theorem exec_kept {c : Instr} (hc : c ≠ .alwaysOnPowerLost) (s : State) : KeptO s (exec c s) := by
  cases c with
  | strokeBoundary => rw [exec_strokeBoundary]; exact execStrokeBoundary_kept _ s
  | summaryPost => rw [exec_summaryPost]; exact execSummaryPost_kept _ s
  | vectorSignal => rw [exec_vectorSignal]; exact execVectorSignal_kept _ _ s
  | pounceCommit => rw [exec_pounceCommit]; exact execPounceCommit_kept _ _ _ _ _ s
  | flourishSigned => rw [exec_flourishSigned]; exact execFlourishSigned_kept _ s
  | laneParityFail => rw [exec_laneParityFail]; exact execLaneParityFail_kept _ _ s
  | referenceEdge => rw [exec_referenceEdge]; exact execReferenceEdge_kept _ _ _ s
  | referenceLost => rw [exec_referenceLost]; exact execReferenceLost_kept _ _ s
  | acquireLocked => rw [exec_acquireLocked]; exact execAcquireLocked_kept _ s
  | holdoverLimit => rw [exec_holdoverLimit]; exact execHoldoverLimit_kept _ s
  | ptpMessage => rw [exec_ptpMessage]; exact execPtpMessage_kept _ _ _ _ s
  | marksMissing => rw [exec_marksMissing]; exact execMarksMissing_kept _ s
  | appendHoldExpiry => rw [exec_appendHoldExpiry]; exact execAppendHoldExpiry_kept _ _ _ s
  | linkTrained => rw [exec_linkTrained]; exact execLinkTrained_kept _ _ _ _ _ _ s
  | linkDown => rw [exec_linkDown]; exact execLinkDown_kept _ s
  | hotReset => rw [exec_hotReset]; exact execHotReset_kept _ s
  | perstAssert => rw [exec_perstAssert]; exact execPerstAssert_kept _ s
  | perstDeassert => rw [exec_perstDeassert]; exact execPerstDeassert_kept _ s
  | retrain => rw [exec_retrain]; exact execRetrain_kept s
  | linkAttnTimeout => rw [exec_linkAttnTimeout]; exact execLinkAttnTimeout_kept s
  | noIrqTimeout => rw [exec_noIrqTimeout]; exact execNoIrqTimeout_kept s
  | attentionBurst => rw [exec_attentionBurst]; exact execAttentionBurst_kept s
  | msixUnmask => rw [exec_msixUnmask]; exact execMsixUnmask_kept _ _ s
  | dStateChange => rw [exec_dStateChange]; exact execDStateChange_kept _ _ s
  | numvfsWrite => rw [exec_numvfsWrite]; exact execNumvfsWrite_kept _ s
  | dmaReadFault => rw [exec_dmaReadFault]; exact execDmaReadFault_kept _ _ _ s
  | completionTimeout => rw [exec_completionTimeout]; exact execCompletionTimeout_kept _ _ _ s
  | dmaWriteRejected => rw [exec_dmaWriteRejected]; exact execDmaWriteRejected_kept _ _ _ s
  | writeDataArrived => rw [exec_writeDataArrived]; exact execWriteDataArrived_kept _ _ _ _ s
  | sqTailDoorbell => rw [exec_sqTailDoorbell]; exact execSqTailDoorbell_kept _ _ _ _ s
  | cqHeadDoorbell => rw [exec_cqHeadDoorbell]; exact execCqHeadDoorbell_kept _ _ _ s
  | ccEnSet => rw [exec_ccEnSet]; exact execCcEnSet_kept _ _ _ _ _ _ _ s
  | ccEnClear => rw [exec_ccEnClear]; exact execCcEnClear_kept _ _ s
  | flrInitiate => rw [exec_flrInitiate]; exact execFlrInitiate_kept _ _ s
  | flrCommit => rw [exec_flrCommit]; exact execFlrCommit_kept s
  | identify => rw [exec_identify]; exact execIdentify_kept _ _ _ s
  | getFeatures => rw [exec_getFeatures]; exact execGetFeatures_kept _ _ _ _ s
  | setFeatures => rw [exec_setFeatures]; exact execSetFeatures_kept _ _ _ _ _ s
  | getLogPage => rw [exec_getLogPage]; exact execGetLogPage_kept _ _ _ _ _ _ s
  | createIoSq => rw [exec_createIoSq]; exact execCreateIoSq_kept _ _ _ _ _ _ _ s
  | createIoCq => rw [exec_createIoCq]; exact execCreateIoCq_kept _ _ _ _ _ _ _ s
  | deleteIoSq => rw [exec_deleteIoSq]; exact execDeleteIoSq_kept _ _ s
  | deleteIoCq => rw [exec_deleteIoCq]; exact execDeleteIoCq_kept _ _ s
  | abortCmd => rw [exec_abortCmd]; exact execAbortCmd_kept _ _ _ s
  | asyncEventRequest => rw [exec_asyncEventRequest]; exact execAsyncEventRequest_kept _ s
  | namespaceCreate => rw [exec_namespaceCreate]; exact execNamespaceCreate_kept _ _ s
  | namespaceDelete => rw [exec_namespaceDelete]; exact execNamespaceDelete_kept _ s
  | namespaceAttach => rw [exec_namespaceAttach]; exact execNamespaceAttach_kept _ _ s
  | namespaceDetach => rw [exec_namespaceDetach]; exact execNamespaceDetach_kept _ _ s
  | unitTransitionCommit => rw [exec_unitTransitionCommit]; exact execUnitTransitionCommit_kept s
  | vmAssignResources => rw [exec_vmAssignResources]; exact execVmAssignResources_kept _ _ _ _ _ s
  | vmOnline => rw [exec_vmOnline]; exact execVmOnline_kept _ _ s
  | vmOffline => rw [exec_vmOffline]; exact execVmOffline_kept _ _ s
  | formatNvm => rw [exec_formatNvm]; exact execFormatNvm_kept _ _ _ s
  | formatDone => rw [exec_formatDone]; exact execFormatDone_kept _ s
  | sanitizeCryptoErase => rw [exec_sanitizeCryptoErase]; exact execSanitizeCryptoErase_kept _ s
  | sanitizeBlockErase => rw [exec_sanitizeBlockErase]; exact execSanitizeBlockErase_kept _ s
  | sanitizeDone => rw [exec_sanitizeDone]; exact execSanitizeDone_kept s
  | deviceSelfTest => rw [exec_deviceSelfTest]; exact execDeviceSelfTest_kept _ _ s
  | directiveSend q t op spec v => rw [exec_directiveSend]; exact execDirectiveSend_kept q t op spec v s
  | directiveReceive => rw [exec_directiveReceive]; exact execDirectiveReceive_kept _ _ _ _ _ s
  | nvmeMiSend => rw [exec_nvmeMiSend]; exact execNvmeMiSend_kept _ _ _ _ _ s
  | nvmeMiReceive => rw [exec_nvmeMiReceive]; exact execNvmeMiReceive_kept _ _ _ _ s
  | firmwareDownload => rw [exec_firmwareDownload]; exact execFirmwareDownload_kept _ _ _ _ _ s
  | firmwareCommit => rw [exec_firmwareCommit]; exact execFirmwareCommit_kept _ _ _ s
  | activateBegin => rw [exec_activateBegin]; exact execActivateBegin_kept s
  | activateEnd => rw [exec_activateEnd]; exact execActivateEnd_kept _ _ _ s
  | readCmd => rw [exec_readCmd]; exact execReadCmd_kept _ _ _ s
  | writeCmd => rw [exec_writeCmd]; exact execWriteCmd_kept _ _ _ _ _ s
  | compareCmd => rw [exec_compareCmd]; exact execCompareCmd_kept _ _ _ _ s
  | verifyCmd => rw [exec_verifyCmd]; exact execVerifyCmd_kept _ _ _ s
  | writeZeroes q slba nlb deac => rw [exec_writeZeroes]; exact execWriteZeroes_kept q slba nlb deac s
  | datasetManagement => rw [exec_datasetManagement]; exact execDatasetManagement_kept _ _ _ s
  | deallocatePass => rw [exec_deallocatePass]; exact execDeallocatePass_kept s
  | flushCmd => rw [exec_flushCmd]; exact execFlushCmd_kept _ s
  | sealedAppend => rw [exec_sealedAppend]; exact execSealedAppend_kept _ _ _ _ s
  | verifyRange => rw [exec_verifyRange]; exact execVerifyRange_kept _ _ _ _ s
  | proofRead => rw [exec_proofRead]; exact execProofRead_kept _ _ _ _ s
  | holdPlace => rw [exec_holdPlace]; exact execHoldPlace_kept _ _ _ _ s
  | holdQuery => rw [exec_holdQuery]; exact execHoldQuery_kept _ _ _ s
  | exportBundle => rw [exec_exportBundle]; exact execExportBundle_kept _ _ _ _ _ _ _ _ _ s
  | exportCookieLapse => rw [exec_exportCookieLapse]; exact execExportCookieLapse_kept s
  | releaseCmd => rw [exec_releaseCmd]; exact execReleaseCmd_kept _ _ _ s
  | releaseDryrun => rw [exec_releaseDryrun]; exact execReleaseDryrun_kept _ _ _ s
  | graphLoad => rw [exec_graphLoad]; exact execGraphLoad_kept _ _ _ _ _ s
  | graphRelease => rw [exec_graphRelease]; exact execGraphRelease_kept _ _ _ _ _ s
  | graphStart => rw [exec_graphStart]; exact execGraphStart_kept _ _ _ _ s
  | graphResult => rw [exec_graphResult]; exact execGraphResult_kept _ _ _ _ _ s
  | flowBind => rw [exec_flowBind]; exact execFlowBind_kept _ _ _ s
  | flowUnbind => rw [exec_flowUnbind]; exact execFlowUnbind_kept _ _ _ _ s
  | flowModify => rw [exec_flowModify]; exact execFlowModify_kept _ _ _ _ s
  | ringBind => rw [exec_ringBind]; exact execRingBind_kept _ _ _ _ _ s
  | ringRemove => rw [exec_ringRemove]; exact execRingRemove_kept _ _ _ _ s
  | bindCommit => rw [exec_bindCommit]; exact execBindCommit_kept s
  | keyBlobLoad => rw [exec_keyBlobLoad]; exact execKeyBlobLoad_kept _ _ _ _ _ s
  | domainConfigure => rw [exec_domainConfigure]; exact execDomainConfigure_kept _ _ _ s
  | domainRealign => rw [exec_domainRealign]; exact execDomainRealign_kept _ s
  | domainCommit => rw [exec_domainCommit]; exact execDomainCommit_kept s
  | domainPrepareTimeout => rw [exec_domainPrepareTimeout]; exact execDomainPrepareTimeout_kept s
  | modeRequest => rw [exec_modeRequest]; exact execModeRequest_kept _ _ _ s
  | modeTransitionBegin => rw [exec_modeTransitionBegin]; exact execModeTransitionBegin_kept s
  | modeTransitionDone => rw [exec_modeTransitionDone]; exact execModeTransitionDone_kept _ s
  | orderlyStop => rw [exec_orderlyStop]; exact execOrderlyStop_kept s
  | orderlyStopDrainTimeout => rw [exec_orderlyStopDrainTimeout]; exact execOrderlyStopDrainTimeout_kept _ s
  | parkBurst => rw [exec_parkBurst]; exact execParkBurst_kept s
  | parkChannelIdle => rw [exec_parkChannelIdle]; exact execParkChannelIdle_kept s
  | wakeTimer => rw [exec_wakeTimer]; exact execWakeTimer_kept s
  | ignitionOffDelay => rw [exec_ignitionOffDelay]; exact execIgnitionOffDelay_kept s
  | deviceReset => rw [exec_deviceReset]; exact execDeviceReset_kept s
  | scribeWatchdog => rw [exec_scribeWatchdog]; exact execScribeWatchdog_kept _ s
  | droopTrip => rw [exec_droopTrip]; exact execDroopTrip_kept _ _ s
  | droopRestore => rw [exec_droopRestore]; exact execDroopRestore_kept _ s
  | thermalSample => rw [exec_thermalSample]; exact execThermalSample_kept _ _ s
  | thermalStepDown => rw [exec_thermalStepDown]; exact execThermalStepDown_kept s
  | sensorFail => rw [exec_sensorFail]; exact execSensorFail_kept _ _ s
  | vmonSample => rw [exec_vmonSample]; exact execVmonSample_kept _ _ s
  | vmonOvervoltage => rw [exec_vmonOvervoltage]; exact execVmonOvervoltage_kept _ _ s
  | vmonSelfCheck => rw [exec_vmonSelfCheck]; exact execVmonSelfCheck_kept _ s
  | pmonMeasure => rw [exec_pmonMeasure]; exact execPmonMeasure_kept _ s
  | evtSample => rw [exec_evtSample]; exact execEvtSample_kept _ _ s
  | logClear => rw [exec_logClear]; exact execLogClear_kept s
  | pfailTrip => rw [exec_pfailTrip]; exact execPfailTrip_kept _ s
  | pfailGlitch => rw [exec_pfailGlitch]; exact execPfailGlitch_kept _ _ s
  | holdSenseTrip => rw [exec_holdSenseTrip]; exact execHoldSenseTrip_kept _ _ s
  | railUndervoltage => rw [exec_railUndervoltage]; exact execRailUndervoltage_kept _ _ _ s
  | dieLinkFail => rw [exec_dieLinkFail]; exact execDieLinkFail_kept _ s
  | holdArmChange => rw [exec_holdArmChange]; exact execHoldArmChange_kept _ _ s
  | sealInflightDeadline => rw [exec_sealInflightDeadline]; exact execSealInflightDeadline_kept s
  | sealEnd => rw [exec_sealEnd]; exact execSealEnd_kept _ _ _ _ s
  | alwaysOnPowerApplied => rw [exec_alwaysOnPowerApplied]; exact execAlwaysOnPowerApplied_kept s
  | alwaysOnResetEnd => rw [exec_alwaysOnResetEnd]; exact execAlwaysOnResetEnd_kept s
  | computeRailsGood => rw [exec_computeRailsGood]; exact execComputeRailsGood_kept s
  | powerUpTimeout => rw [exec_powerUpTimeout]; exact execPowerUpTimeout_kept s
  | mediaBringupStart => rw [exec_mediaBringupStart]; exact execMediaBringupStart_kept _ _ _ _ s
  | alwaysOnPowerLost => exact absurd rfl hc
  | mountComplete => rw [exec_mountComplete]; exact execMountComplete_kept _ _ s
  | nb5210ScanComplete => rw [exec_nb5210ScanComplete]; exact execNb5210ScanComplete_kept _ s
  | bootCopyDone => rw [exec_bootCopyDone]; exact execBootCopyDone_kept _ _ _ s
  | nandStatusPoll => rw [exec_nandStatusPoll]; exact execNandStatusPoll_kept _ s
  | nandReadDone => rw [exec_nandReadDone]; exact execNandReadDone_kept _ _ s
  | nandProgramDone => rw [exec_nandProgramDone]; exact execNandProgramDone_kept _ _ s
  | nandEraseDone => rw [exec_nandEraseDone]; exact execNandEraseDone_kept _ _ s
  | nandTimeout => rw [exec_nandTimeout]; exact execNandTimeout_kept _ s
  | operationSuspend => rw [exec_operationSuspend]; exact execOperationSuspend_kept _ s
  | dqsRecenter => rw [exec_dqsRecenter]; exact execDqsRecenter_kept _ _ s
  | deepDecodeDone => rw [exec_deepDecodeDone]; exact execDeepDecodeDone_kept _ _ s
  | stripeRebuildDone => rw [exec_stripeRebuildDone]; exact execStripeRebuildDone_kept _ _ _ s
  | dieRebuildDone => rw [exec_dieRebuildDone]; exact execDieRebuildDone_kept _ s
  | nodeDispatch => rw [exec_nodeDispatch]; exact execNodeDispatch_kept _ _ _ _ s
  | nodeEnd => rw [exec_nodeEnd]; exact execNodeEnd_kept _ _ _ _ s
  | nodePreempt => rw [exec_nodePreempt]; exact execNodePreempt_kept _ _ s
  | nodeWaitTimeout => rw [exec_nodeWaitTimeout]; exact execNodeWaitTimeout_kept _ _ s
  | nibInterrupt => rw [exec_nibInterrupt]; exact execNibInterrupt_kept _ _ s
  | nibMachineCheck => rw [exec_nibMachineCheck]; exact execNibMachineCheck_kept _ _ s
  | digestGroupDone => rw [exec_digestGroupDone]; exact execDigestGroupDone_kept _ _ _ s
  | compressBlockDone => rw [exec_compressBlockDone]; exact execCompressBlockDone_kept _ _ _ s
  | sieveLookup => rw [exec_sieveLookup]; exact execSieveLookup_kept _ _ s
  | sieveWrite => rw [exec_sieveWrite]; exact execSieveWrite_kept _ _ s
  | sieveInsert => rw [exec_sieveInsert]; exact execSieveInsert_kept _ _ s
  | sieveInvalidate => rw [exec_sieveInvalidate]; exact execSieveInvalidate_kept _ _ s
  | sieveRead => rw [exec_sieveRead]; exact execSieveRead_kept _ _ s
  | sieveScan => rw [exec_sieveScan]; exact execSieveScan_kept _ s
  | sieveGo => rw [exec_sieveGo]; exact execSieveGo_kept _ s
  | sieveNext => rw [exec_sieveNext]; exact execSieveNext_kept s
  | feedOpen => rw [exec_feedOpen]; exact execFeedOpen_kept _ s
  | feedData => rw [exec_feedData]; exact execFeedData_kept _ s
  | feedLast => rw [exec_feedLast]; exact execFeedLast_kept _ s
  | feedAbort => rw [exec_feedAbort]; exact execFeedAbort_kept s
  | feedDone => rw [exec_feedDone]; exact execFeedDone_kept _ s
  | slotClear => rw [exec_slotClear]; exact execSlotClear_kept _ _ s
  | dramFreqRequest => rw [exec_dramFreqRequest]; exact execDramFreqRequest_kept _ s
  | dramRetrainGather => rw [exec_dramRetrainGather]; exact execDramRetrainGather_kept _ _ s
  | dramGatherEnd => rw [exec_dramGatherEnd]; exact execDramGatherEnd_kept _ s
  | dramRefreshPoll => rw [exec_dramRefreshPoll]; exact execDramRefreshPoll_kept _ _ s
  | dramRequestPromote => rw [exec_dramRequestPromote]; exact execDramRequestPromote_kept _ _ _ s
  | dramUe => rw [exec_dramUe]; exact execDramUe_kept _ _ _ _ s
  | inkwellUe => rw [exec_inkwellUe]; exact execInkwellUe_kept _ _ s
  | inkProgram => rw [exec_inkProgram]; exact execInkProgram_kept _ _ _ s
  | inkErase => rw [exec_inkErase]; exact execInkErase_kept _ _ s
  | inkRead => rw [exec_inkRead]; exact execInkRead_kept _ _ _ s
  | inkOpDone => rw [exec_inkOpDone]; exact execInkOpDone_kept _ _ _ s
  | settingsSave => rw [exec_settingsSave]; exact execSettingsSave_kept s
  | settingsSaveTimer => rw [exec_settingsSaveTimer]; exact execSettingsSaveTimer_kept s
  | portEnable => rw [exec_portEnable]; exact execPortEnable_kept _ s
  | portLinkUp => rw [exec_portLinkUp]; exact execPortLinkUp_kept _ _ _ s
  | portLinkLost => rw [exec_portLinkLost]; exact execPortLinkLost_kept _ _ s
  | txPolarityToggle => rw [exec_txPolarityToggle]; exact execTxPolarityToggle_kept _ _ s
  | arpRequest => rw [exec_arpRequest]; exact execArpRequest_kept _ _ _ _ s
  | neighbourSolicitation => rw [exec_neighbourSolicitation]; exact execNeighbourSolicitation_kept _ _ _ _ s
  | frameReceived => rw [exec_frameReceived]; exact execFrameReceived_kept _ _ _ _ _ _ s
  | silentTimeout => rw [exec_silentTimeout]; exact execSilentTimeout_kept _ _ s
  | oxvLinkUp => rw [exec_oxvLinkUp]; exact execOxvLinkUp_kept _ _ _ _ _ s
  | oxvLinkDown => rw [exec_oxvLinkDown]; exact execOxvLinkDown_kept _ _ s
  | markFrame => rw [exec_markFrame]; exact execMarkFrame_kept _ _ _ _ _ _ _ _ _ _ s
  | delayReq => rw [exec_delayReq]; exact execDelayReq_kept _ _ s
  | delayResp => rw [exec_delayResp]; exact execDelayResp_kept _ _ s
  | helloFrame => rw [exec_helloFrame]; exact execHelloFrame_kept _ _ _ _ _ s
  | fdFrame => rw [exec_fdFrame]; exact execFdFrame_kept _ _ _ _ s
  | controlFrame => rw [exec_controlFrame]; exact execControlFrame_kept _ _ s
  | oxvStatusFrame => rw [exec_oxvStatusFrame]; exact execOxvStatusFrame_kept _ _ _ _ _ _ _ _ s
  | mirrorFrame => rw [exec_mirrorFrame]; exact execMirrorFrame_kept _ _ _ _ _ s
  | mirrorAck => rw [exec_mirrorAck]; exact execMirrorAck_kept _ _ _ s
  | proxyFrame => rw [exec_proxyFrame]; exact execProxyFrame_kept _ _ s
  | nakFrame => rw [exec_nakFrame]; exact execNakFrame_kept _ _ s
  | replayTimeout => rw [exec_replayTimeout]; exact execReplayTimeout_kept _ s
  | memberUnreachable => rw [exec_memberUnreachable]; exact execMemberUnreachable_kept _ s
  | remoteGo => rw [exec_remoteGo]; exact execRemoteGo_kept _ s
  | miReadDataStructure => rw [exec_miReadDataStructure]; exact execMiReadDataStructure_kept _ _ _ s
  | miSubsystemHealthPoll => rw [exec_miSubsystemHealthPoll]; exact execMiSubsystemHealthPoll_kept _ s
  | miControllerHealthPoll => rw [exec_miControllerHealthPoll]; exact execMiControllerHealthPoll_kept _ _ s
  | miConfigurationSet => rw [exec_miConfigurationSet]; exact execMiConfigurationSet_kept _ _ _ s
  | miConfigurationGet => rw [exec_miConfigurationGet]; exact execMiConfigurationGet_kept _ _ s
  | miVpdRead => rw [exec_miVpdRead]; exact execMiVpdRead_kept _ _ s
  | miVpdWrite => rw [exec_miVpdWrite]; exact execMiVpdWrite_kept _ _ s
  | miReset => rw [exec_miReset]; exact execMiReset_kept s
  | miAdminTunnel => rw [exec_miAdminTunnel]; exact execMiAdminTunnel_kept _ _ _ s
  | latchedReadLo => rw [exec_latchedReadLo]; exact execLatchedReadLo_kept _ s
  | registerWrite => rw [exec_registerWrite]; exact execRegisterWrite_kept _ _ _ s
  | nop => rw [exec_nop]; exact execNop_kept _ s
  | add => rw [exec_add]; exact execAdd_kept _ s
  | addc => rw [exec_addc]; exact execAddc_kept _ s
  | adds => rw [exec_adds]; exact execAdds_kept _ s
  | sub => rw [exec_sub]; exact execSub_kept _ s
  | subb => rw [exec_subb]; exact execSubb_kept _ s
  | subs => rw [exec_subs]; exact execSubs_kept _ s
  | neg => rw [exec_neg]; exact execNeg_kept _ s
  | negs => rw [exec_negs]; exact execNegs_kept _ s
  | abs => rw [exec_abs]; exact execAbs_kept _ s
  | abss => rw [exec_abss]; exact execAbss_kept _ s
  | cmp => rw [exec_cmp]; exact execCmp_kept _ s
  | cmpc => rw [exec_cmpc]; exact execCmpc_kept _ s
  | andOp => rw [exec_andOp]; exact execAndOp_kept _ s
  | orOp => rw [exec_orOp]; exact execOrOp_kept _ s
  | xor => rw [exec_xor]; exact execXor_kept _ s
  | andn => rw [exec_andn]; exact execAndn_kept _ s
  | notOp => rw [exec_notOp]; exact execNotOp_kept _ s
  | mov => rw [exec_mov]; exact execMov_kept _ s
  | minOp => rw [exec_minOp]; exact execMinOp_kept _ s
  | maxOp => rw [exec_maxOp]; exact execMaxOp_kept _ s
  | minu => rw [exec_minu]; exact execMinu_kept _ s
  | maxu => rw [exec_maxu]; exact execMaxu_kept _ s
  | sel => rw [exec_sel]; exact execSel_kept _ s
  | sext8 => rw [exec_sext8]; exact execSext8_kept _ s
  | zext8 => rw [exec_zext8]; exact execZext8_kept _ s
  | clz => rw [exec_clz]; exact execClz_kept _ s
  | popc => rw [exec_popc]; exact execPopc_kept _ s
  | tst => rw [exec_tst]; exact execTst_kept _ s
  | movf => rw [exec_movf]; exact execMovf_kept _ s
  | movt => rw [exec_movt]; exact execMovt_kept _ s
  | ldi => rw [exec_ldi]; exact execLdi_kept _ s
  | mul => rw [exec_mul]; exact execMul_kept _ s
  | mull => rw [exec_mull]; exact execMull_kept _ s
  | mullu => rw [exec_mullu]; exact execMullu_kept _ s
  | mulq => rw [exec_mulq]; exact execMulq_kept _ s
  | mulqr => rw [exec_mulqr]; exact execMulqr_kept _ s
  | mac => rw [exec_mac]; exact execMac_kept _ s
  | macs => rw [exec_macs]; exact execMacs_kept _ s
  | shl => rw [exec_shl]; exact execShl_kept _ s
  | shr => rw [exec_shr]; exact execShr_kept _ s
  | sar => rw [exec_sar]; exact execSar_kept _ s
  | asl => rw [exec_asl]; exact execAsl_kept _ s
  | rol => rw [exec_rol]; exact execRol_kept _ s
  | ror => rw [exec_ror]; exact execRor_kept _ s
  | divs => rw [exec_divs]; exact execDivs_kept _ s
  | divu => rw [exec_divu]; exact execDivu_kept _ s
  | shl32 => rw [exec_shl32]; exact execShl32_kept _ s
  | shr32 => rw [exec_shr32]; exact execShr32_kept _ s
  | sar32 => rw [exec_sar32]; exact execSar32_kept _ s
  | extu => rw [exec_extu]; exact execExtu_kept _ s
  | exts => rw [exec_exts]; exact execExts_kept _ s
  | ld => rw [exec_ld]; exact execLd_kept _ s
  | st => rw [exec_st]; exact execSt_kept _ s
  | ldpi => rw [exec_ldpi]; exact execLdpi_kept _ s
  | stpi => rw [exec_stpi]; exact execStpi_kept _ s
  | lds => rw [exec_lds]; exact execLds_kept _ s
  | sts => rw [exec_sts]; exact execSts_kept _ s
  | ldp => rw [exec_ldp]; exact execLdp_kept _ s
  | stp => rw [exec_stp]; exact execStp_kept _ s
  | branch => rw [exec_branch]; exact execBranch_kept _ s
  | call => rw [exec_call]; exact execCall_kept _ s
  | callx => rw [exec_callx]; exact execCallx_kept _ s
  | jmpx => rw [exec_jmpx]; exact execJmpx_kept _ s
  | ret => rw [exec_ret]; exact execRet_kept _ s
  | rett => rw [exec_rett]; exact execRett_kept _ s
  | repi => rw [exec_repi]; exact execRepi_kept _ s
  | repn => rw [exec_repn]; exact execRepn_kept _ s
  | trap => rw [exec_trap]; exact execTrap_kept _ s
  | mfc => rw [exec_mfc]; exact execMfc_kept _ s
  | mtc => rw [exec_mtc]; exact execMtc_kept _ s
  | haltOp => rw [exec_haltOp]; exact execHaltOp_kept _ s
  | wait => rw [exec_wait]; exact execWait_kept _ s
  | bar => rw [exec_bar]; exact execBar_kept _ s
  | crystalStops => rw [exec_crystalStops]; exact execCrystalStops_kept s
  | referenceWaitExpiry => rw [exec_referenceWaitExpiry]; exact execReferenceWaitExpiry_kept s
  | busMasterEnable => rw [exec_busMasterEnable]; exact execBusMasterEnable_kept _ _ s
  | autonomousPowerStateTransition => rw [exec_autonomousPowerStateTransition]; exact execAutonomousPowerStateTransition_kept _ s
  | scribeMemoryUe => rw [exec_scribeMemoryUe]; exact execScribeMemoryUe_kept _ s
  | missedSync => rw [exec_missedSync]; exact execMissedSync_kept _ _ s
  | oxvBadFrame => rw [exec_oxvBadFrame]; exact execOxvBadFrame_kept _ _ _ _ s

/-! ### The loss of always-on power -/

/-- What even the loss of always-on power keeps: `Kept` without the stroke count and the committed roots (R31, R231, R437). -/
structure Survives (s t : State) : Prop where
  regs : RegsOk s → RegsOk t
  frac : s.time.frac < 65536 → t.time.frac < 65536
  queue : s.mon.queue.length ≤ 64 → t.mon.queue.length ≤ 64
  log : LogOk s → LogOk t
  out : s.out <+: t.out
  pending : t.pending = s.pending

theorem Kept.survives {s t : State} (h : Kept s t) : Survives s t :=
  ⟨h.regs, h.frac, h.queue, h.log, h.out, h.pending⟩

theorem Survives.trans {a b c : State} (h : Survives a b) (k : Survives b c) : Survives a c :=
  ⟨k.regs ∘ h.regs, k.frac ∘ h.frac, k.queue ∘ h.queue, k.log ∘ h.log, h.out.trans k.out, k.pending.trans h.pending⟩

theorem dropPower_survives (s : State) : Survives s (dropPower s) :=
  ⟨id, id, id, id, List.prefix_refl _, rfl⟩

/-- What the media side loses when the supply goes (R221, R231): nothing in HALT, and what only the Inkwell held where the stop was no
orderly one. -/
def supplyLost (s : State) : State :=
  let s0 := if s.mode.cur = .halt then s else inkDrop (s.mode.cur == .seal) s
  if s.mode.cur.settled s.mode.mounted then s0 else dropPower s0

/-- What the always-on domain loses (R437, R463): the count, the blot log, the queue, the losses and its own registers. -/
def retainedLost (s : State) : State := { s with
  regs := s.regs.filter (fun e => !(0x04000 ≤ e.1 && e.1 < 0x05000)),
  mon := { s.mon with blots := [], blotTotal := 0, queue := [] },
  time := { s.time with stroke := 0, frac := 0, onOscillator := false },
  ftl := { s.ftl with losses := [], lossId := 0 },
  mode := { s.mode with aonLost := true } }

/-- The state in which always-on power has gone. -/
def powerLost (s : State) : State :=
  let t := enterMode .halt (retainedLost (supplyLost s))
  { t with mode := { t.mode with stage := .off } }

theorem execAlwaysOnPowerLost_of_off {s : State} (h : s.mode.stage = .off) : execAlwaysOnPowerLost s = .next s := by
  simp [execAlwaysOnPowerLost, h]

theorem execAlwaysOnPowerLost_of_on {s : State} (h : s.mode.stage ≠ .off) :
    execAlwaysOnPowerLost s = .next (powerLost s) := by
  rw [execAlwaysOnPowerLost, if_neg (by simpa using h)]
  rfl

theorem supplyLost_survives (s : State) : Survives s (supplyLost s) := by
  have hink : Survives s (if s.mode.cur = .halt then s else inkDrop (s.mode.cur == .seal) s) :=
    (Kept.ite (fun _ => Kept.refl s) fun _ => inkDrop_kept ..).survives
  unfold supplyLost
  dsimp only
  split
  · exact hink
  · exact hink.trans (dropPower_survives _)

theorem retainedLost_survives (s : State) : Survives s (retainedLost s) :=
  ⟨sparseWf_filter _ _ _, fun _ => Nat.succ_pos _, fun _ => Nat.zero_le _, fun hlog => ⟨Nat.zero_le _, hlog.2⟩,
    List.prefix_refl _, rfl⟩

theorem setStage_kept (p : PowerStage) (s : State) : Kept s { s with mode := { s.mode with stage := p } } :=
  Kept.upd rfl rfl rfl rfl rfl rfl

theorem powerLost_survives (s : State) : Survives s (powerLost s) :=
  ((supplyLost_survives s).trans (retainedLost_survives _)).trans
    ((enterMode_kept .halt _).trans (setStage_kept .off _)).survives

theorem execAlwaysOnPowerLost_survives {s t : State} (h : execAlwaysOnPowerLost s = .next t) : Survives s t := by
  by_cases hoff : s.mode.stage = .off
  · rw [execAlwaysOnPowerLost_of_off hoff] at h
    cases h
    exact (Kept.refl s).survives
  · rw [execAlwaysOnPowerLost_of_on hoff] at h
    cases h
    exact powerLost_survives s

theorem exec_survives {c : Instr} {s t : State} (h : exec c s = .next t) : Survives s t := by
  by_cases hc : c = .alwaysOnPowerLost
  · subst hc
    exact execAlwaysOnPowerLost_survives h
  · exact (exec_kept hc s t h).survives

/-! ### Steps -/

theorem Survives.bounded {s t : State} (h : Survives s t) (hs : Bounded s) : Bounded t :=
  have hlog : LogOk t := h.log ⟨hs.blots, hs.snapshot⟩
  ⟨h.regs hs.regs, h.frac hs.frac, hlog.1, h.queue hs.queue, hlog.2⟩

theorem step_of_pending_nil {s : State} (h : s.pending = []) : step s = .next s := by
  rw [step, h]

theorem step_of_pending_cons {s : State} {c : Instr} {rest : List Instr} (h : s.pending = c :: rest) :
    step s = exec c { s with pending := rest } := by
  rw [step, h]

/-- Settles O1: `step` by the queue. -/
theorem stepRunsFront : Obligations.StepRunsFront :=
  ⟨fun _ _ _ => step_of_pending_cons, fun _ => step_of_pending_nil⟩

/-- Settles O3: what a command answers survives it, and the rest of the queue is no part of the bounds. -/
theorem stepKeepsBounds : Obligations.StepKeepsBounds := by
  intro s t hs hstep
  cases hpending : s.pending with
  | nil =>
    rw [step_of_pending_nil hpending] at hstep
    cases hstep
    exact hs
  | cons c rest =>
    rw [step_of_pending_cons hpending] at hstep
    exact (exec_survives hstep).bounded ⟨hs.regs, hs.frac, hs.blots, hs.queue, hs.snapshot⟩

/-- Settles O4: every command but the excepted one keeps the count. -/
theorem strokeCountNeverDecreases : Obligations.StrokeCountNeverDecreases :=
  fun _ s t hc h => (exec_kept hc s t h).stroke

/-- Settles O5: every command but the excepted one keeps the roots. -/
theorem rootsOnlyGrow : Obligations.RootsOnlyGrow :=
  fun _ s t hc h => (exec_kept hc s t h).roots

/-- Settles O6: the output and the queue survive every command. -/
theorem sentIsSent : Obligations.SentIsSent :=
  fun _ _ _ h => ⟨(exec_survives h).out, (exec_survives h).pending⟩

end Sys2Proof.Machine

/-!
PROOFS. The stroke boundary.
-/

namespace Sys2Proof.Machine

/-- Around a tick of the count only operations that never lower it: the count has risen. -/
theorem stroke_lt_of_tick {s a b : State} (ha : Kept s a) (hb : Kept (tickStroke a) b) :
    s.time.stroke + 1 ≤ b.time.stroke :=
  (Nat.succ_le_succ ha.stroke).trans hb.stroke

theorem stroke_lt_turn (s : State) : s.time.stroke + 1 ≤ (turn s).time.stroke :=
  stroke_lt_of_tick ((latchClocks_kept s).trans (noteUnsealed_kept _))
    ((generatorBoundary_kept _).trans <| (countHot_kept _).trans <| (strokeIoPulse_kept _).trans (oxvBoundary_kept _))

theorem stroke_lt_turnSealing (s : State) : s.time.stroke + 1 ≤ (turnSealing s).time.stroke :=
  stroke_lt_of_tick ((latchClocks_kept s).trans <| (layAll_kept _).trans <| (noteUnsealed_kept _).trans (closeStroke_kept ..))
    ((openStroke_kept _).trans <| (generatorBoundary_kept _).trans (countHot_kept _))

/-- What follows the turn of a sealing boundary. -/
theorem turnSealing_kept_sealingBoundary (katFail : List Nat) (s : State) :
    Kept (turnSealing s) (sealingBoundary katFail s) := by
  refine Kept.trans ?_ (resumeHeld_kept _)
  refine Kept.foldl (fun _ _ => laneFail_kept ..) ?_
  exact (markLate_kept _).trans <| (overrunStep_kept _).trans <| (refill_kept ..).trans <| (testRuns_kept _).trans <|
    (showClocks_kept _).trans <| (mirrorBoundary_kept _).trans <| (oxvBoundary_kept _).trans (strokeIoPulse_kept _)

theorem stroke_lt_sealingBoundary (katFail : List Nat) (s : State) :
    s.time.stroke + 1 ≤ (sealingBoundary katFail s).time.stroke :=
  (stroke_lt_turnSealing s).trans (turnSealing_kept_sealingBoundary katFail s).stroke

section
variable {s : State} (katFail : List Nat)

theorem execStrokeBoundary_of_seals (h : s.mode.cur.seals = true) :
    execStrokeBoundary katFail s = .next (sealingBoundary katFail s) := by
  unfold execStrokeBoundary
  cases hcur : s.mode.cur <;> simp [hcur, Mode.seals] at h ⊢

/-- R31, R43: in every mode with a generator the boundary turns the count. -/
theorem execStrokeBoundary_turns (h : s.mode.cur ≠ .halt) :
    ∃ t, execStrokeBoundary katFail s = .next t ∧ s.time.stroke + 1 ≤ t.time.stroke := by
  refine ⟨_, rfl, ?_⟩
  split
  · contradiction
  · exact stroke_lt_turn s
  · exact (stroke_lt_turn s).trans (markLate_kept _).stroke
  · exact (stroke_lt_turn s).trans (beginNext_kept _).stroke
  · exact (stroke_lt_turn s).trans (beginNext_kept _).stroke
  · exact (stroke_lt_turn s).trans (beginNext_kept _).stroke
  · exact stroke_lt_sealingBoundary katFail s

end

/-- Settles O9: the boundary by its mode; whichever it is, it ticks the count once and nothing around the tick lowers it. -/
theorem strokeBoundary : Obligations.StrokeBoundary := by
  intro katFail s
  simp only [exec_strokeBoundary]
  refine ⟨fun h => ?halt, fun h => ?boot, fun h => ?sealed, fun h => ?low, execStrokeBoundary_of_seals katFail,
    execStrokeBoundary_turns katFail⟩
  case halt => simp only [execStrokeBoundary, h]
  case boot => simp only [execStrokeBoundary, h]
  case sealed => simp only [execStrokeBoundary, h]
  case low => obtain h | h | h := h <;> simp only [execStrokeBoundary, h]

end Sys2Proof.Machine

/-!
PROOFS. The background pass of deallocation.
-/

namespace Sys2Proof.Machine

section
variable {α : Type} (m : Map α)

theorem mget_mupd_same (k : Nat) (f : α → α) : mget (mupd m k f) k = (mget m k).map f := by
  induction m with
  | nil => rfl
  | cons e t ih =>
    obtain ⟨k', v⟩ := e
    by_cases h : k = k' <;> simp [mupd, mget, h, ih]

theorem mget_mupd_other {k j : Nat} (h : j ≠ k) (f : α → α) : mget (mupd m k f) j = mget m j := by
  induction m with
  | nil => rfl
  | cons e t ih =>
    obtain ⟨k', v⟩ := e
    by_cases hk : k = k'
    · subst hk
      simp [mupd, mget, h]
    · simp [mupd, mget, hk, ih]

/-- The map without the units `base` to `base + n - 1` that meet `p`, erased one by one. -/
def eraseUnits (p : Nat → Prop) [DecidablePred p] (base n : Nat) : Map α :=
  (List.range n).foldl (fun a i => if p (base + i) then merase a (base + i) else a) m

variable (p : Nat → Prop) [DecidablePred p] (base n : Nat)

theorem eraseUnits_succ : eraseUnits m p base (n + 1) =
    if p (base + n) then merase (eraseUnits m p base n) (base + n) else eraseUnits m p base n := by
  simp only [eraseUnits, List.range_succ, List.foldl_append, List.foldl_cons, List.foldl_nil]

variable {m}

theorem wf_eraseUnits (hm : Map.wf m = true) : Map.wf (eraseUnits m p base n) = true := by
  induction n with
  | zero => exact hm
  | succ n ih =>
    rw [eraseUnits_succ]
    split_ifs
    · exact Map.wf_merase _ _ ih
    · exact ih

theorem mget_eraseUnits (hm : Map.wf m = true) (k : Nat) :
    mget (eraseUnits m p base n) k = if base ≤ k ∧ k < base + n ∧ p k then none else mget m k := by
  induction n with
  | zero =>
    rw [Nat.add_zero, if_neg (by omega)]
    rfl
  | succ n ih =>
    rw [eraseUnits_succ]
    by_cases hk : k = base + n
    · subst hk
      by_cases hp : p (base + n)
      · simp [hp, mget_merase_same _ 0 _ (wf_eraseUnits p base n hm)]
      · simp [hp, ih]
    · have hrange : k < base + (n + 1) ↔ k < base + n := by omega
      split_ifs with hp h h
      · rw [mget_merase_other _ _ _ hk, ih, if_pos (by rwa [← hrange])]
      · rw [mget_merase_other _ _ _ hk, ih, if_neg (by rwa [← hrange])]
      · rw [ih, if_pos (by rwa [← hrange])]
      · rw [ih, if_neg (by rwa [← hrange])]

end

/-- Settles O28: the pass erases from the namespace's map the units of the range that are older, and touches no other namespace. -/
theorem deallocatePass : Obligations.DeallocatePass := by
  refine ⟨fun s h => ?none, fun s d rest x hq hx hwf => ?some⟩
  case none => simp only [exec_deallocatePass, execDeallocatePass, h]
  case some =>
    refine ⟨_, { x with map := eraseUnits x.map (fun k => unitSeq s x k < d.seq) d.unit d.count },
      by simp only [exec_deallocatePass, execDeallocatePass, hq]; rfl, rfl, fun n hn => ?other, ?same, rfl,
      mget_eraseUnits (fun k => unitSeq s x k < d.seq) d.unit d.count hwf⟩
    case other => exact mget_mupd_other _ hn _
    case same =>
      rw [getNs] at hx
      rw [getNs, updNs, mget_mupd_same, hx]
      rfl

end Sys2Proof.Machine

/-!
PROOFS. The Sieve: register lookups in winner order, and the scan.
-/

namespace Sys2Proof.Machine

/-! ### Winner order (R336) -/

/-- No entry stands behind one of a lower class. -/
def ByClass (l : List (Nat × SieveEntry)) : Prop := l.Pairwise (fun a b => b.2.cls ≤ a.2.cls)

theorem insertHit_perm (x : Nat × SieveEntry) (l : List (Nat × SieveEntry)) : (insertHit x l).Perm (x :: l) := by
  induction l with
  | nil => exact List.Perm.refl _
  | cons y t ih =>
    unfold insertHit
    split_ifs
    · exact List.Perm.refl _
    · exact (ih.cons y).trans (List.Perm.swap x y t)

theorem byClass_insertHit (x : Nat × SieveEntry) {l : List (Nat × SieveEntry)} (hl : ByClass l) : ByClass (insertHit x l) := by
  induction l with
  | nil => exact List.pairwise_singleton _ _
  | cons y t ih =>
    obtain ⟨hy, ht⟩ := List.pairwise_cons.mp hl
    unfold insertHit
    split_ifs with hlt
    · refine List.pairwise_cons.mpr ⟨fun z hz => ?_, hl⟩
      obtain rfl | hz := List.mem_cons.mp hz
      · exact hlt.le
      · exact (hy z hz).trans hlt.le
    · refine List.pairwise_cons.mpr ⟨fun z hz => ?_, ih ht⟩
      obtain rfl | hz := List.mem_cons.mp ((insertHit_perm x t).mem_iff.mp hz)
      · exact Nat.le_of_not_lt hlt
      · exact hy z hz

/-- The entries of `l` inserted one by one. -/
theorem foldl_insertHit (l acc : List (Nat × SieveEntry)) :
    (l.foldl (fun a e => insertHit e a) acc).Perm (l ++ acc) ∧
      (ByClass acc → ByClass (l.foldl (fun a e => insertHit e a) acc)) := by
  induction l generalizing acc with
  | nil => exact ⟨List.Perm.refl _, id⟩
  | cons x t ih =>
    obtain ⟨hperm, hsorted⟩ := ih (insertHit x acc)
    exact ⟨hperm.trans (((insertHit_perm x acc).append_left t).trans List.perm_middle),
      fun hacc => hsorted (byClass_insertHit x hacc)⟩

section
variable (s : State) (p key : Nat)

theorem matchesOf_perm : (matchesOf s p key).Perm ((partEntries s p).filter (fun e => e.2.hits key)) := by
  rw [matchesOf]
  simpa only [List.append_nil] using (foldl_insertHit ((partEntries s p).filter (fun e => e.2.hits key)) []).1

theorem mem_matchesOf (e : Nat × SieveEntry) :
    e ∈ matchesOf s p key ↔ e ∈ partEntries s p ∧ e.2.hits key = true := by
  rw [(matchesOf_perm s p key).mem_iff, List.mem_filter]

theorem byClass_matchesOf : ByClass (matchesOf s p key) := (foldl_insertHit _ []).2 List.Pairwise.nil

end

theorem ByClass.cls_le {l : List (Nat × SieveEntry)} (h : ByClass l) {i j : Nat} {a b : Nat × SieveEntry}
    (ha : l[i]? = some a) (hb : l[j]? = some b) (hij : i < j) : b.2.cls ≤ a.2.cls := by
  obtain ⟨hi, rfl⟩ := List.getElem?_eq_some_iff.mp ha
  obtain ⟨hj, rfl⟩ := List.getElem?_eq_some_iff.mp hb
  exact List.pairwise_iff_getElem.mp h i j hi hj hij

/-! ### Parity (R340) -/

section
variable {s : State} {p : Nat}

theorem lookupParity_good (key : Nat) : lookupParity p key false s = s := by
  simp [lookupParity]

theorem lookupParity_bad {key : Nat} {e : Nat × SieveEntry} {t : List (Nat × SieveEntry)}
    (h : matchesOf s p key = e :: t) : lookupParity p key true s = parityError p e.1 s := by
  simp only [lookupParity, h, List.head?_cons, Option.filter_some, if_true]

theorem parityError_compute (h : 1 < p) (i : Nat) {v : State} (hv : v = setF SIV_PARITY_LOG_INDEX i
    (setF SIV_PARITY_LOG_PART p (setF SIV_PARITY_LOG_VALID 1 (incF SIV_STATUS_PARITY 1 s)))) :
    parityError p i s = setF SIV_SUSPECT (getF v SIV_SUSPECT ||| 2 ^ p)
      (blot 0x0603 1 p (le 4 i) (setPart p (merase (partEntries v p) i) v)) := by
  rw [parityError, if_neg (Nat.not_le_of_lt h), hv]

end

/-! ### The scan -/

/-- The scan after one more index: at the end of a block its left-over map goes (R340). -/
def scanNext (s : State) : State := { s with sieve := { s.sieve with
  scanAt := (s.sieve.scanAt + 1) % 262144,
  ghosts := if s.sieve.scanAt % 1024 = 1023 then merase s.sieve.ghosts (s.sieve.scanAt / 1024) else s.sieve.ghosts } }

section
variable {s : State}

theorem execSieveScan_of_off (h : flagF s SIV_SCAN_EN = false) (bad : Bool) : execSieveScan bad s = .next s := by
  simp [execSieveScan, h]

theorem execSieveScan_good (h : flagF s SIV_SCAN_EN = true) : execSieveScan false s = .next (scanNext s) := by
  simp only [execSieveScan, h, if_true, scanNext]
  cases partOf s s.sieve.scanAt <;> rfl

theorem execSieveScan_bad (h : flagF s SIV_SCAN_EN = true) {p i : Nat} (hat : partOf s s.sieve.scanAt = some (p, i))
    (hhas : mhas (partEntries s p) i = true) : execSieveScan true s = .next (parityError p i (scanNext s)) := by
  simp only [execSieveScan, h, if_true, hat, hhas, Bool.and_self, scanNext]

end

/-- Settles O40: GO and NEXT as they are defined, winner order by the insertions, and the scan by the entry it meets. -/
theorem sieveRegisters : Obligations.SieveRegisters := by
  intro s part
  refine ⟨fun bad u hu => ?go, lookupParity_good _, fun e t => lookupParity_bad, rfl, mem_matchesOf s part,
    fun key i j a b => (byClass_matchesOf s part key).cls_le, execSieveScan_of_off, fun hen u hu => ?scan,
    fun i v h => parityError_compute h i⟩
  case go => rw [hu]; rfl
  case scan => exact hu ▸ ⟨execSieveScan_good hen, fun p i => execSieveScan_bad hen⟩

end Sys2Proof.Machine

/-!
PROOFS. Stream ingest: silent flows and posted stroke summaries.
-/

namespace Sys2Proof.Machine

/-! ### Silence (R122) -/

section
variable {s u : State} {fid frac : Nat} {x : Flow} (hu : u = atFrac frac s) (hflow : mget u.ing.flows fid = some x)
include hu hflow

/-- A flow that is silent already or has not been idle for long enough gives no gap. -/
theorem execSilentTimeout_of_not_due (h : x.silent = true ∨ x.idle < getF u ING_CTL_SILENT_STROKES) :
    execSilentTimeout frac fid s = .next u := by
  simp only [execSilentTimeout, ← hu, hflow]
  rw [if_pos (by obtain h | h := h <;> simp [h])]

theorem execSilentTimeout_of_due (hon : getF u ING_CTL_SILENT_STROKES ≠ 0) (hidle : getF u ING_CTL_SILENT_STROKES ≤ x.idle)
    (hsilent : x.silent = false) (hlink : flagF u (ING_PORT_LINK x.port) = true)
    (hpark : u.mode.cur ≠ .park ∨ x.parks = true) :
    execSilentTimeout frac fid s = .next (setFlow fid { gapAdd 9 none 0 0 (now u) x with
      silent := true, gaps := mset x.gaps 9 { first := x.e.getD 0, dtime := now u } } u) := by
  have hstored : (u.mode.cur == .park && !x.parks) = false := by
    obtain h | h := hpark <;> simp [h]
  simp only [execSilentTimeout, ← hu, hflow]
  rw [if_neg (by simp [hon, Nat.not_lt.mpr hidle, hsilent, hlink, hstored])]

end

/-! ### Summaries (R126, R127) -/

section
variable {s : State} {p : RingPost} {r : Ring} (cons : List (Nat × Nat))

theorem execSummaryPost_nil (h : s.ing.posts = []) : execSummaryPost cons s = .next s := by
  rw [execSummaryPost, h, List.foldl_nil, ← h]

theorem execSummaryPost_singleton (h : s.ing.posts = [p]) :
    execSummaryPost cons s = .next (postSummary cons p { s with ing := { s.ing with posts := [] } }) := by
  rw [execSummaryPost, h, List.foldl_cons, List.foldl_nil]

/-- The ring of `f` after a summary that was not written. -/
def loseSummary (f : Nat) (r : Ring) (s : State) : State :=
  updFn f (fun x => { x with ring := some { r with lost := satAdd r.lost 1 (2 ^ 32 - 1) } }) s

theorem postSummary_of_unreached (hring : (getFn s p.fn).ring = some r)
    (h : hostSide s p.fn = false ∨ (getFn s p.fn).d3 = true ∨ (getFn s p.fn).flr.isSome = true) :
    postSummary cons p s = loseSummary p.fn r s := by
  simp only [postSummary, hring, loseSummary]
  rw [if_pos (by obtain h | h | h := h <;> simp [h])]

/-- One slot stays empty: the ring is full where the host's index is the one after the device's. -/
theorem ringFree_of_full {slots prod c : Nat} (hprod : prod < slots) (hc : c = (prod + 1) % slots) :
    slots - 1 - (prod + slots - c) % slots = 0 := by
  have hdist : (prod + slots - c) % slots = slots - 1 := by
    obtain hlt | heq : prod + 1 < slots ∨ prod + 1 = slots := by omega
    · rw [hc, Nat.mod_eq_of_lt hlt, show prod + slots - (prod + 1) = slots - 1 by omega, Nat.mod_eq_of_lt (by omega)]
    · rw [hc, heq, Nat.mod_self, Nat.sub_zero, Nat.add_mod_right, Nat.mod_eq_of_lt hprod]
      omega
  rw [hdist, Nat.sub_self]

theorem postSummary_of_full (hring : (getFn s p.fn).ring = some r)
    (hfull : (mget cons p.fn).getD 0 % r.slots = (r.prod + 1) % r.slots) (hprod : r.prod < r.slots) :
    postSummary cons p s = loseSummary p.fn r s := by
  simp only [postSummary, hring, ringFree_of_full hprod hfull, if_true, ite_self, loseSummary]

theorem postSummary_of_empty (hring : (getFn s p.fn).ring = some r) (hhost : hostSide s p.fn = true)
    (hd3 : (getFn s p.fn).d3 = false) (hflr : (getFn s p.fn).flr = none) (hslots : 1 < r.slots)
    (hcons : (mget cons p.fn).getD 0 % r.slots = r.prod) {k : Nat} (hk : k = min p.items.length (min (r.slots - 2) 255)) :
    postSummary cons p s = noteSummary p.fn r.vector (writeSlots p.fn
      ((le 1 1 ++ le 1 k ++ le 1 (min 255 (p.items.length - k)) ++ zeros 1 ++ le 4 r.lost ++ le 8 p.stroke ++ le 4 p.flows
        ++ le 4 (min (2 ^ 32 - 1) p.bytes) ++ le 2 (min 65535 p.lost) ++ le 2 (min 65535 p.gaps) ++ le 4 p.packets)
        :: p.items.take k)
      (updFn p.fn (fun x => { x with ring := some { r with lost := 0 } }) s)) := by
  have hfree : r.slots - 1 - (r.prod + r.slots - r.prod) % r.slots = r.slots - 1 := by
    rw [Nat.add_sub_cancel_left, Nat.mod_self, Nat.sub_zero]
  have hroom : r.slots - 1 - 1 = r.slots - 2 := rfl
  have hsome : r.slots - 1 ≠ 0 := by omega
  simp only [postSummary, hring, hhost, hd3, hflr, Bool.not_true, Option.isSome_none, Bool.or_self, Bool.false_eq_true,
    if_false, hcons, hfree, if_neg hsome, hroom, hk]

end

/-- Settles O34: a due flow and each answer of `postSummary`, with the ring's free slots counted. -/
theorem silenceAndSummaries : Obligations.SilenceAndSummaries := by
  refine ⟨?silence, ?summaries⟩
  case silence =>
    intro s u frac fid x hu hflow
    exact ⟨fun h => execSilentTimeout_of_not_due hu hflow (.inl h), fun h => execSilentTimeout_of_not_due hu hflow (.inr h),
      execSilentTimeout_of_due hu hflow⟩
  case summaries =>
    intro s u cons hu
    refine ⟨execSummaryPost_nil cons, fun p hp => ?_⟩
    have hpost : exec (.summaryPost cons) s = .next (postSummary cons p u) := hu ▸ execSummaryPost_singleton cons hp
    refine ⟨hpost, fun r hring lost hlost => ?_⟩
    have hring : (getFn u p.fn).ring = some r := hu ▸ hring
    rw [hpost]
    refine ⟨fun h => ?unreached, fun hfull hprod => ?full, fun k hhost hd3 hflr hslots hcons hk => ?written⟩
    case unreached => rw [hlost, postSummary_of_unreached cons hring h, loseSummary]
    case full => rw [hlost, postSummary_of_full cons hring hfull hprod, loseSummary]
    case written => rw [postSummary_of_empty cons hring hhost hd3 hflr hslots hcons hk]

end Sys2Proof.Machine

/-!
PROOFS. The Nib: additive, logical and moving operations of the A units, and NOP.
-/

namespace Sys2Proof.Machine

section
variable {unit op : Nat} {o : NibOp} {c : NibCore} {s : State}

/-! ### A bundle of one operation that writes no flags -/

theorem bundleFlags_of_no_writer {old : NibCore} {x : NibWord} (hunit : x.unit < 3) (hflags : writesFlags x = false)
    (c : NibCore) : bundleFlags old [x] c = c := by
  have hwriters : ([0, 1, 2].filterMap (wUnits [x])).filter writesFlags = [] := by
    obtain h | h | h : x.unit = 0 ∨ x.unit = 1 ∨ x.unit = 2 := by omega
    all_goals simp [wUnits, h, hflags]
  simp [bundleFlags, hwriters]

theorem runBundle_of_no_flags {k : Nat} {x : NibWord} (hunit : x.unit < 3) (hflags : writesFlags x = false)
    (honce : f2Bit c fiRA = false) :
    runBundle s k c [x] = { bundleFixed c [x] (putRegs (regEffect s k c x) c) with pc := nextPc c 1 } := by
  have hL : wUnits [x] 3 = none := by simp [wUnits, Nat.ne_of_lt hunit]
  simp only [runBundle, hL, List.flatMap_singleton, List.length_singleton, bundleFlags_of_no_writer hunit hflags,
    endIteration, honce, Bool.not_false, if_true]

theorem bundleFixed_of_ne_movt {old : NibCore} {x : NibWord} (hmovt : x.op ≠ 0x1E) (c : NibCore) :
    bundleFixed old [x] c = c := by
  simp [bundleFixed, hmovt]

/-- What an operation does as a bundle of its own, where it is no MOVT and either writes flags or names none. -/
theorem nibIssue_of_soloOk_of_ne_movt (h : SoloOk unit op o c s) (hunit : unit < 3) (hmovt : op ≠ 0x1E)
    (hflags : writesFlags (wordOf unit op o) = false → flagEffect c (wordOf unit op o) = {}) :
    nibIssue unit op o s = setCore o.core (soloDone c (regEffect s o.core c (wordOf unit op o))
      (flagEffect c (wordOf unit op o))) s := by
  cases hw : writesFlags (wordOf unit op o) with
  | true => exact nibIssue_of_soloOk h hunit hw
  | false =>
    rw [nibIssue_of_fetched h.core h.running h.regs h.fetch h.good h.word h.alone h.first,
      nibBundle_singleton hunit h.regs h.first h.clear h.once, runBundle_of_no_flags hunit hw h.once,
      bundleFixed_of_ne_movt hmovt, hflags hw]
    rfl

/-! ### The A units -/

theorem mod_two_le_one (n : Nat) : n % 2 ≤ 1 := Nat.le_of_lt_succ (Nat.mod_lt n two_pos)

/-- Where `aluA` gives flags, the operation writes them. -/
theorem flagEffect_A (hunit : unit ≤ 1) : flagEffect c (wordOf unit op o) =
    (aluA op (flagsIn c) (wGet c (opA o.body.toNat)) (opBK c (wordOf unit op o))).2 := by
  simp [flagEffect, hunit]

theorem formOf_A (hunit : unit ≤ 1) : formOf unit op = formOf 0 op := by
  unfold formOf
  rw [if_pos hunit, if_pos (Nat.zero_le 1)]

/-- An A operation with a form writes flags, but for NOP, MOV, SEL, MOVF, MOVT and LDI. -/
theorem writesFlags_A {x : NibWord} (hunit : x.unit ≤ 1) (hform : (formOf x.unit x.op).isNone = false)
    (hop : ¬ (x.op = 0 ∨ x.op = 0x12 ∨ x.op = 0x17 ∨ x.op = 0x1D ∨ x.op = 0x1E ∨ x.op = 0x1F)) :
    writesFlags x = true := by
  simp only [writesFlags, hform, Bool.false_eq_true, if_false, hunit, if_true, Bool.and_eq_true, bne_iff_ne,
    Bool.not_eq_true', Bool.and_eq_false_iff, decide_eq_false_iff_not]
  omega

/-- For an A operation that writes no flags `aluA` names none. -/
theorem flagEffect_A_of_no_writer (hunit : unit ≤ 1) (hform : (formOf 0 op).isSome = true)
    (hflags : writesFlags (wordOf unit op o) = false) : flagEffect c (wordOf unit op o) = {} := by
  have hform' : (formOf unit op).isNone = false := by
    rw [formOf_A hunit]
    simpa using hform
  have hop : op = 0 ∨ op = 0x12 ∨ op = 0x17 ∨ op = 0x1D ∨ op = 0x1E ∨ op = 0x1F := by
    by_contra hne
    rw [writesFlags_A hunit hform' hne] at hflags
    cases hflags
  rw [flagEffect_A hunit]
  obtain rfl | rfl | rfl | rfl | rfl | rfl := hop <;> rfl

/-- The operation writes one register, the result of `aluA`. -/
def isAlu (op : Nat) : Bool := 1 ≤ op && op ≤ 0x1B && !flagsOnly op

theorem regEffect_A (hunit : unit ≤ 1) (hop : isAlu op = true) {k : Nat} :
    regEffect s k c (wordOf unit op o) = [(regIx c (opD o.body.toNat),
      (aluA op (flagsIn c) (wGet c (opA o.body.toNat)) (opBK c (wordOf unit op o))).1)] := by
  simp only [isAlu, Bool.and_eq_true, decide_eq_true_eq, Bool.not_eq_true'] at hop
  obtain ⟨⟨hlo, hhi⟩, hflagsOnly⟩ := hop
  have hne : op ≠ 0 ∧ op ≠ 0x1D ∧ op ≠ 0x1E ∧ op ≠ 0x1F := by omega
  simp [regEffect, hunit, hflagsOnly, hne]

theorem isSome_formOf_of_isAlu (hop : isAlu op = true) : (formOf 0 op).isSome = true := by
  simp only [isAlu, Bool.and_eq_true, decide_eq_true_eq] at hop
  obtain ⟨⟨hlo, hhi⟩, -⟩ := hop
  interval_cases op <;> rfl

/-- The operations of the A units that write a register compute `aluA`. -/
theorem aluGives_of_aluA {i : NibOp → Instr} {r : FlagsIn → W16 → W16 → W16 × FlagW}
    (hexec : ∀ o s, exec (i o) s = .next (nibIssue (o.unit % 2) op o s)) (hr : ∀ g a b, aluA op g a b = r g a b)
    (hop : isAlu op = true := by decide) : AluGives i op r := by
  rintro o c s x h rfl
  have hunit := mod_two_le_one o.unit
  have hmovt : op ≠ 0x1E := by rintro rfl; cases hop
  rw [hexec, nibIssue_of_soloOk_of_ne_movt h (by omega) hmovt
      (flagEffect_A_of_no_writer hunit (isSome_formOf_of_isAlu hop)),
    regEffect_A hunit hop, flagEffect_A hunit, hr]

/-- The compares of the A units compute the flags of `aluA`. -/
theorem flagsGive_of_aluA {i : NibOp → Instr} {r : FlagsIn → W16 → W16 → FlagW}
    (hexec : ∀ o s, exec (i o) s = .next (nibIssue (o.unit % 2) op o s)) (hr : ∀ g a b, (aluA op g a b).2 = r g a b)
    (hop : flagsOnly op = true := by decide) : FlagsGive i op r := by
  intro o c s h
  have hunit := mod_two_le_one o.unit
  have hne : op = 0x0B ∨ op = 0x0C ∨ op = 0x1C := by simpa [flagsOnly, or_assoc] using hop
  have hform : (formOf 0 op).isSome = true := by obtain rfl | rfl | rfl := hne <;> rfl
  have hregs : regEffect s o.core c (wordOf (o.unit % 2) op o) = [] := by simp [regEffect, hunit, hop]
  rw [hexec, nibIssue_of_soloOk_of_ne_movt h (by omega) (by omega) (flagEffect_A_of_no_writer hunit hform), hregs,
    flagEffect_A hunit, hr]

end

/-! ### Sums and differences -/

section
variable (a b : W16) (g : Bool)

theorem addW_eq : addW a b g = (a + b + BitVec.ofNat 16 (bit g), decide (65536 ≤ a.toNat + b.toNat + bit g),
    !fits16 (a.toInt + b.toInt + (bit g : Nat))) := by
  simp [addW, BitVec.ofNat_add]

theorem ofInt_toInt_sub : BitVec.ofInt 16 (a.toInt - b.toInt) = a - b := by
  rw [Int.sub_eq_add_neg, BitVec.ofInt_add, BitVec.ofInt_neg, BitVec.ofInt_toInt, BitVec.ofInt_toInt,
    BitVec.sub_eq_add_neg]

theorem subW_eq : subW a b g = (a - b - BitVec.ofNat 16 (bit g), decide (a.toNat < b.toNat + bit g),
    !fits16 (a.toInt - b.toInt - (bit g : Nat))) := by
  rw [subW, Int.sub_eq_add_neg (a := a.toInt - b.toInt), BitVec.ofInt_add, BitVec.ofInt_neg, BitVec.ofInt_natCast,
    ofInt_toInt_sub, ← BitVec.sub_eq_add_neg]

/-- Without a carry the sum is the plain one. -/
theorem arith_addW : arith (addW a b false) =
    (a + b, znCV (a + b) (65536 ≤ a.toNat + b.toNat) (!fits16 (a.toInt + b.toInt))) := by
  simp [addW_eq, arith, bit, znCV, zn]

theorem arith_subW : arith (subW a b false) =
    (a - b, znCV (a - b) (a.toNat < b.toNat) (!fits16 (a.toInt - b.toInt))) := by
  simp [subW_eq, arith, bit, znCV, zn]

end

/-- Settles O53: each operation is `aluA`, and its sum or difference is that of bit vectors. -/
theorem nibAdditive : Obligations.NibAdditive := by
  refine ⟨?add, ?addc, ?adds, ?sub, ?subb, ?subs, ?neg, ?negs, ?abs, ?abss, ?cmp, ?cmpc⟩
  case add => exact aluGives_of_aluA (fun _ _ => rfl) fun _ a b => by simp only [aluA, arith_addW]
  case addc => exact aluGives_of_aluA (fun _ _ => rfl) fun g a b => by simp only [aluA, addW_eq]; rfl
  case adds => exact aluGives_of_aluA (fun _ _ => rfl) fun g a b => by simp only [aluA, addW_eq]; rfl
  case sub => exact aluGives_of_aluA (fun _ _ => rfl) fun g a b => by simp only [aluA, arith_subW]
  case subb => exact aluGives_of_aluA (fun _ _ => rfl) fun g a b => by simp only [aluA, subW_eq]; rfl
  case subs => exact aluGives_of_aluA (fun _ _ => rfl) fun g a b => by simp only [aluA, subW_eq]; rfl
  case neg => exact aluGives_of_aluA (fun _ _ => rfl) fun g a b => by simp only [aluA, bne, beq_eq_decide, ne_eq, decide_not]; rfl
  case negs => exact aluGives_of_aluA (fun _ _ => rfl) fun g a b => by simp only [aluA, beq_eq_decide, decide_eq_true_eq]; rfl
  case abs => exact aluGives_of_aluA (fun _ _ => rfl) fun g a b => by simp only [aluA, beq_eq_decide]; rfl
  case abss => exact aluGives_of_aluA (fun _ _ => rfl) fun g a b => by simp only [aluA, beq_eq_decide, decide_eq_true_eq]; rfl
  case cmp => exact flagsGive_of_aluA (fun _ _ => rfl) fun g a b => by simp only [aluA, arith_subW]
  case cmpc => exact flagsGive_of_aluA (fun _ _ => rfl) fun g a b => by simp only [aluA, subW_eq]; rfl

/-! ### Selecting and moving -/

section
variable {unit op : Nat} {o : NibOp} {c : NibCore} {s : State}

/-- SEXT8 extends the sign of the low byte. -/
theorem ofNat_sext8 (a : W16) : BitVec.ofNat 16 (if 128 ≤ a.toNat % 256 then a.toNat % 256 + 0xFF00 else a.toNat % 256) =
    (a.setWidth 8).signExtend 16 := by
  rw [← ofNat_signField (by decide), signField, bitAt_toNat_last, BitVec.msb_eq_decide, BitVec.toNat_setWidth]
  exact congrArg (BitVec.ofNat 16) (if_congr decide_eq_true_iff.symm rfl rfl)

theorem ofNat_zext8 (a : W16) : BitVec.ofNat 16 (a.toNat % 256) = (a.setWidth 8).setWidth 16 := by
  apply BitVec.eq_of_toNat_eq
  simp

/-- MOVF and LDI write one register and no flag. -/
theorem exec_of_no_flags {i : NibOp → Instr} (h : SoloOk (o.unit % 2) op o c s)
    (hexec : ∀ o s, exec (i o) s = .next (nibIssue (o.unit % 2) op o s)) (hop : op = 0x1D ∨ op = 0x1F) :
    exec (i o) s = .next (setCore o.core (soloDone c (regEffect s o.core c (wordOf (o.unit % 2) op o)) {}) s) := by
  have hunit := mod_two_le_one o.unit
  have hflags : flagEffect c (wordOf (o.unit % 2) op o) = {} := by
    rw [flagEffect_A hunit]
    obtain rfl | rfl := hop <;> rfl
  rw [hexec, nibIssue_of_soloOk_of_ne_movt h (by omega) (by omega) fun _ => hflags, hflags]

theorem exec_movf_of_soloOk (h : SoloOk (o.unit % 2) 0x1D o c s) :
    exec (.movf o) s = .next (setCore o.core (soloDone c [(regIx c (opD o.body.toNat),
      if opB o.body.toNat = 2 then BitVec.ofNat 16 (f2Of c) else fGet c (opB o.body.toNat))] {}) s) := by
  rw [exec_of_no_flags h (fun _ _ => rfl) (.inl rfl)]
  simp [regEffect, mod_two_le_one, flagsOnly]

theorem exec_ldi_of_soloOk (h : SoloOk (o.unit % 2) 0x1F o c s) :
    exec (.ldi o) s = .next (setCore o.core (soloDone c [(regIx c (opD o.body.toNat),
      BitVec.ofNat 16 (opK16 o.body.toNat))] {}) s) := by
  rw [exec_of_no_flags h (fun _ _ => rfl) (.inr rfl)]
  simp [regEffect, mod_two_le_one, flagsOnly]

theorem bundleFixed_movt {old : NibCore} {x : NibWord} (hunit : x.unit ≤ 1) (hop : x.op = 0x1E) (c : NibCore) :
    bundleFixed old [x] c = if opD x.f = 2 then fSet 2 (movtF2 c (wGet old (opA x.f))) c
      else fSet (opD x.f) (wGet old (opA x.f)) c := by
  simp [bundleFixed, hunit, hop]

theorem exec_movt_of_soloOk (h : SoloOk (o.unit % 2) 0x1E o c s) :
    exec (.movt o) s = .next (setCore o.core { (if opD o.body.toNat = 2 then fSet 2 (movtF2 c (wGet c (opA o.body.toNat))) c
      else fSet (opD o.body.toNat) (wGet c (opA o.body.toNat)) c) with pc := nextPc c 1 } s) := by
  have hunit := mod_two_le_one o.unit
  have hflags : writesFlags (wordOf (o.unit % 2) 0x1E o) = false := by simp [writesFlags, hunit]
  have hregs : putRegs (regEffect s o.core c (wordOf (o.unit % 2) 0x1E o)) c = c := by simp [regEffect, hunit, putRegs]
  rw [exec_movt, execMovt, nibIssue_of_fetched h.core h.running h.regs h.fetch h.good h.word h.alone h.first,
    nibBundle_singleton (Nat.lt_succ_of_le (hunit.trans one_le_two)) h.regs h.first h.clear h.once,
    runBundle_of_no_flags (Nat.lt_succ_of_le (hunit.trans one_le_two)) hflags h.once, hregs, bundleFixed_movt hunit rfl]
  rfl

/-- R248: NOP leaves the registers and the flags alone. -/
theorem exec_nop_of_soloOk (h : SoloOk (o.unit % 4) 0x00 o c s) (hunit : o.unit % 4 < 3) :
    exec (.nop o) s = .next (setCore o.core { c with pc := nextPc c 1 } s) := by
  have hregs : regEffect s o.core c (wordOf (o.unit % 4) 0 o) = [] := by
    obtain hle | heq : o.unit % 4 ≤ 1 ∨ o.unit % 4 = 2 := by omega
    · simp [regEffect, hle]
    · simp [regEffect, heq]
  have hflags : flagEffect c (wordOf (o.unit % 4) 0 o) = {} := by
    obtain hle | heq : o.unit % 4 ≤ 1 ∨ o.unit % 4 = 2 := by omega
    · rw [flagEffect_A hle]; rfl
    · rw [heq]; rfl
  rw [exec_nop, execNop, nibIssue_of_soloOk_of_ne_movt h hunit (by decide) fun _ => hflags, hregs, hflags]
  rfl

end

/-- Settles O54: each operation is `aluA`, or writes its one register and no flag. -/
theorem nibLogical : Obligations.NibLogical := by
  refine ⟨?and, ?or, ?xor, ?andn, ?not, ?mov, ?min, ?max, ?minu, ?maxu, ?sel, ?sext8, ?zext8, ?clz, ?popc, ?tst,
    fun o c s => exec_movf_of_soloOk, ?movt, fun o c s => exec_ldi_of_soloOk, fun o c s => exec_nop_of_soloOk⟩
  case sext8 => exact aluGives_of_aluA (fun _ _ => rfl) fun _ a _ => by simp only [aluA, ofNat_sext8]; rfl
  case zext8 => exact aluGives_of_aluA (fun _ _ => rfl) fun _ a _ => by simp only [aluA, ofNat_zext8]; rfl
  case movt =>
    rintro o c s _ h rfl
    exact exec_movt_of_soloOk h
  case tst => exact flagsGive_of_aluA (fun _ _ => rfl) fun _ _ _ => rfl
  all_goals exact aluGives_of_aluA (fun _ _ => rfl) fun _ _ _ => rfl

/-! ### Products (R250) -/

section
variable (a b : W16)

theorem ofInt_toInt_mul : BitVec.ofInt 16 (a.toInt * b.toInt) = a * b := by
  rw [BitVec.ofInt_mul, BitVec.ofInt_toInt, BitVec.ofInt_toInt]

/-- Only 8000h × 8000h saturates. -/
theorem mulq_eq (round : Int) : mulq a b round = if a = 0x8000#16 ∧ b = 0x8000#16 then (0x7FFF#16, znVQ 0x7FFF#16 true)
    else (BitVec.ofInt 16 ((a.toInt * b.toInt + round) / 32768),
      znV (BitVec.ofInt 16 ((a.toInt * b.toInt + round) / 32768)) false) := by
  by_cases h : a = 0x8000#16 ∧ b = 0x8000#16
  · obtain ⟨rfl, rfl⟩ := h
    rfl
  · have hsat : (a == 0x8000#16 && b == 0x8000#16) = false := by
      rw [Bool.eq_false_iff]
      simpa using h
    simp only [mulq, hsat, if_neg h]
    rfl

end

/-- Settles O55: each product is `mulM` or `pairM`. -/
theorem nibProducts : Obligations.NibProducts := by
  refine ⟨?mul, ?mull, ?mullu, ?mulq, ?mulqr, ?mac, ?macs⟩
  case mul => exact mulGives_of_mulM (fun _ _ => rfl) fun a b => by simp only [mulM, ofInt_toInt_mul]; rfl
  case mulq => exact mulGives_of_mulM (fun _ _ => rfl) fun a b => (mulq_eq a b 0).trans (by rw [add_zero])
  case mulqr => exact mulGives_of_mulM (fun _ _ => rfl) fun a b => mulq_eq a b 0x4000
  all_goals exact pairGives_of_pairM (fun _ _ => rfl) (fun _ _ _ => rfl) fun _ => rfl

end Sys2Proof.Machine
/-!
PROOFS. Host writes to BAR2 (R5, R30, R450, R454, R456): what the mode and the keys let through, and three dwords of the STK
block field by field.
-/

namespace Sys2Proof.Machine

/-! ### What the mode does with a write -/

theorem exec_registerWrite_of_open (off v : Nat) (full : Bool) (s : State) (hb : badOffset off = false)
    (ho : barOpen s = true) (hs : s.mode.cur ≠ .seal) (hh : s.mode.cur ≠ .halt) :
    exec (.registerWrite off v full) s = .next (if full then busWrite off v s else glbErr s) := by
  simp [execRegisterWrite, hb, ho, hs, hh]

theorem exec_registerWrite_of_closed (off v : Nat) (full : Bool) (s : State) (hb : badOffset off = false)
    (h : s.mode.cur = .seal ∨ s.mode.cur = .halt ∨ barOpen s = false) :
    exec (.registerWrite off v full) s = .next s := by
  rcases h with h | h | h <;> simp [execRegisterWrite, hb, h]

theorem busWrite_of_boot (off v : Nat) (s : State) (hm : s.mode.cur = .boot) (ho : off ≠ 0x0000C) :
    busWrite off v s = glbErr s := by
  simp [busWrite, hm, ho]

/-- A dword whose unit runs in the deep modes takes a write at once in every mode that accepts one. -/
theorem busWrite_eq_writeDword (off v : Nat) (s : State) (hv : v < 2 ^ 32) (hd : runsDeep off = true)
    (hs : s.mode.cur ≠ .seal) (hh : s.mode.cur ≠ .halt) (hb : s.mode.cur = .boot → off = 0x0000C) :
    busWrite off v s = writeDword off v s := by
  have hmod : v % 2 ^ 32 = v := Nat.mod_eq_of_lt hv
  simp only [busWrite, hmod, hd, if_true]
  cases hm : s.mode.cur <;> simp_all

theorem writeDword_reset (v : Nat) (s : State) :
    writeDword 0x0000C v s = if bits v 15 8 != 0x9C then glbErr s else if bitAt v 0 then deviceReset 3 s else s := rfl

theorem writeDword_logClear (v : Nat) (s : State) :
    writeDword 0x04008 v s = if bits v 15 8 != 0xA5 then glbErr s else if bitAt v 0 then clearLog s else s := rfl

theorem writeDword_stk (off v : Nat) (s : State) (ho : off = 0x0A000 ∨ off = 0x0A008 ∨ off = 0x0A01C) :
    writeDword off v s = settingWrite off v s := by
  rcases ho with rfl | rfl | rfl <;> simp [writeDword, isHeldDword]

/-- In RUN a write of an STK dword that is no command dword goes to the dword's fields. -/
theorem exec_registerWrite_stk (off v : Nat) (s : State) (ho : off = 0x0A000 ∨ off = 0x0A008 ∨ off = 0x0A01C)
    (hv : v < 2 ^ 32) (hb : barOpen s = true) (hm : s.mode.cur = .run) :
    exec (.registerWrite off v true) s = .next (settingWrite off v s) := by
  have hbad : badOffset off = false := by rcases ho with rfl | rfl | rfl <;> decide
  have hdeep : runsDeep off = true := by rcases ho with rfl | rfl | rfl <;> decide
  rw [exec_registerWrite_of_open _ _ _ _ hbad hb (by simp [hm]) (by simp [hm]), if_pos rfl,
    busWrite_eq_writeDword _ _ _ hv hdeep (by simp [hm]) (by simp [hm]) (by simp [hm]),
    writeDword_stk _ _ _ ho]

/-! ### The fields of three STK dwords -/

theorem blockOf_stk {off : Nat} (h : 0x0A000 ≤ off) (h' : off < 0x0C000) : blockOf off = regTableSTK := by
  have hpast (n : Nat) (hn : n ≤ 0x0A000) : (off < n) = False := by simp; omega
  simp [blockOf, blockTable, hpast, h, h', List.find?]

theorem fieldsAt_stkPeriod :
    fieldsAt 0x0A000 = [(⟨0x0A000, 1, 0x0, 1, 0x0, 15, 0, .rw, 0x3E8, true, .range 250 40000⟩, 0)] := by
  simp [fieldsAt, blockOf_stk, regTableSTK, regTableSTK0, regTableSTK1, FieldDesc.indexAt]

theorem fieldsAt_stkStatus :
    fieldsAt 0x0A008 = [(⟨0x0A008, 1, 0x0, 1, 0x0, 2, 0, .ro, 0x0, false, .any⟩, 0),
      (⟨0x0A008, 1, 0x0, 1, 0x0, 3, 3, .ro, 0x0, false, .any⟩, 0), (⟨0x0A008, 1, 0x0, 1, 0x0, 4, 4, .ro, 0x0, false, .any⟩, 0),
      (⟨0x0A008, 1, 0x0, 1, 0x0, 8, 8, .rw1c, 0x0, false, .any⟩, 0),
      (⟨0x0A008, 1, 0x0, 1, 0x0, 9, 9, .rw1c, 0x0, false, .any⟩, 0)] := by
  simp [fieldsAt, blockOf_stk, regTableSTK, regTableSTK0, regTableSTK1, FieldDesc.indexAt]

theorem fieldsAt_stkPpsWin :
    fieldsAt 0x0A01C = [(⟨0x0A01C, 1, 0x0, 1, 0x0, 15, 0, .rw, 0x3E8, true, .any⟩, 0),
      (⟨0x0A01C, 1, 0x0, 1, 0x0, 23, 16, .ro, 0x0, false, .any⟩, 0)] := by
  simp [fieldsAt, blockOf_stk, regTableSTK, regTableSTK0, regTableSTK1, FieldDesc.indexAt]

/-- Writing a field's own value into it changes nothing. -/
theorem setBits_bits (v hi lo : Nat) : setBits v hi lo (bits v hi lo) = v := by
  rw [setBits_eq, Nat.mod_eq_of_lt (bits_lt v hi lo)]
  exact (bits_split v hi lo).symm

theorem bits_one_bit (v i : Nat) : bits v i i = if bitAt v i then 1 else 0 := by
  have hlt : v / 2 ^ i % 2 < 2 := Nat.mod_lt _ (by omega)
  have hw : i + 1 - i = 1 := by omega
  simp only [bits, bitAt, hw, beq_iff_eq]
  split <;> omega

/-- One RW1C bit after a write (R5). -/
theorem fieldAfter_rw1c_bit (d : FieldDesc) (i x y : Nat) (ha : d.acc = .rw1c) (hd : d.hi = i) (hl : d.lo = i) :
    fieldAfter d (bits x i i) (bits y i i) = (if bitAt y i then 0 else bits x i i, false) := by
  have hn : d.hi + 1 - d.lo = 1 := by omega
  have h01 : bitAt 0 0 = false ∧ bitAt 1 0 = true := by decide
  obtain ⟨h0, h1⟩ := h01
  simp only [fieldAfter, ha, hn, bits_one_bit]
  cases bitAt x i <;> cases bitAt y i <;> simp [h0, h1]

theorem dwordAfter_stkStatus (old v : Nat) :
    dwordAfter 0x0A008 old v =
      (setBits (setBits old 8 8 (if bitAt v 8 then 0 else bits old 8 8)) 9 9
        (if bitAt v 9 then 0 else bits old 9 9), false) := by
  simp [dwordAfter, fieldsAt_stkStatus, fixedField, fieldAfter_rw1c_bit]
  simp [fieldAfter, setBits_bits]

theorem dwordAfter_stkPpsWin (old v : Nat) :
    dwordAfter 0x0A01C old v = (setBits old 15 0 (bits v 15 0), false) := by
  have hrest : bits old 23 16 = bits (setBits old 15 0 (bits v 15 0)) 23 16 :=
    (bits_setBits_other old 15 0 _ 23 16 (by omega) (by omega) (by omega)).symm
  have hkeep : setBits (setBits old 15 0 (bits v 15 0)) 23 16 (bits old 23 16) = setBits old 15 0 (bits v 15 0) := by
    rw [hrest, setBits_bits]
  simp [dwordAfter, fieldsAt_stkPpsWin, fixedField, fieldAfter, Valid.ok, hkeep]

theorem dwordAfter_stkPeriod_ok (old v : Nat) (h : 250 ≤ bits v 15 0) (h' : bits v 15 0 ≤ 40000) :
    dwordAfter 0x0A000 old v = (setBits old 15 0 (bits v 15 0), false) := by
  simp [dwordAfter, fieldsAt_stkPeriod, fixedField, fieldAfter, Valid.ok, h, h']

theorem dwordAfter_stkPeriod_bad (old v : Nat) (h : bits v 15 0 < 250 ∨ 40000 < bits v 15 0) :
    dwordAfter 0x0A000 old v = (old, true) := by
  have hno : ¬ (250 ≤ bits v 15 0 ∧ bits v 15 0 ≤ 40000) := by omega
  have hok : (Valid.range 250 40000).ok (bits v 15 0) = false := by simpa [Valid.ok] using hno
  simp [dwordAfter, fieldsAt_stkPeriod, fixedField, fieldAfter, hok, setBits_bits]

/-- A write that gives the period back its own bits leaves the dword, whatever its value. -/
theorem dwordAfter_stkPeriod_same (old v : Nat) (h : bits v 15 0 = bits old 15 0) : (dwordAfter 0x0A000 old v).1 = old := by
  simp only [dwordAfter, fieldsAt_stkPeriod, fixedField, fieldAfter, h, List.foldl_cons, List.foldl_nil]
  cases (Valid.range 250 40000).ok (bits old 15 0) <;> simp [setBits_bits]

/-! ### The writes of the three dwords -/

theorem getReg_noteStored (off o : Nat) (s : State) (h : o ≠ 0x34004) : getReg (noteStored off s) o = getReg s o := by
  unfold noteStored
  split
  · exact getReg_setF_other _ _ _ _ h
  · rfl

theorem getF_noteStored (off : Nat) (f : Fld) (s : State) (h : f.off ≠ 0x34004) : getF (noteStored off s) f = getF s f := by
  unfold getF
  rw [getReg_noteStored _ _ _ h]

theorem noteStored_time (off : Nat) (s : State) : (noteStored off s).time = s.time := by
  unfold noteStored
  split
  · rw [setF_time]
  · rfl

theorem settingWrite_stkStatus (v : Nat) (s : State) :
    settingWrite 0x0A008 v s = setReg 0x0A008 (setBits (setBits (getReg s 0x0A008) 8 8
      (if bitAt v 8 then 0 else bits (getReg s 0x0A008) 8 8)) 9 9 (if bitAt v 9 then 0 else bits (getReg s 0x0A008) 9 9)) s := by
  have hst : hasStored 0x0A008 = false := by simp [hasStored, fieldsAt_stkStatus]
  simp [settingWrite, releaseParts, lowerParts, afterWrite, noteStored, hst, guardedWrite, groupBad, notAccepted, keepBits,
    plainWrite, dwordAfter_stkStatus]

theorem settingWrite_stkPpsWin (v : Nat) (s : State) :
    settingWrite 0x0A01C v s = noteStored 0x0A01C (setReg 0x0A01C (setBits (getReg s 0x0A01C) 15 0 (bits v 15 0)) s) := by
  simp [settingWrite, releaseParts, lowerParts, afterWrite, guardedWrite, groupBad, notAccepted, keepBits, plainWrite,
    dwordAfter_stkPpsWin]

theorem settingWrite_stkPeriod (v : Nat) (s : State) :
    settingWrite 0x0A000 v s = noteStored 0x0A000 (periodWritten (bits v 15 0) (guardedWrite 0x0A000 v s)) := by
  simp [settingWrite, releaseParts, lowerParts, afterWrite]

/-- A root whose source is not PPS accepts a period in range (R30). -/
theorem guardedWrite_stkPeriod_ok (v : Nat) (s : State) (hr : isRoot s = true) (hc : getF s STK_CTL_SRC ≠ 2)
    (h : 250 ≤ bits v 15 0) (h' : bits v 15 0 ≤ 40000) :
    guardedWrite 0x0A000 v s = setReg 0x0A000 (setBits (getReg s 0x0A000) 15 0 (bits v 15 0)) s := by
  simp [guardedWrite, groupBad, notAccepted, keepBits, plainWrite, hr, hc, dwordAfter_stkPeriod_ok, h, h']

theorem cfgErr_stk (off : Nat) (s : State) (h : off = 0x0A000) : cfgErr off s = setF STK_STATUS_CFG_ERR 1 s := by
  subst h
  simp [cfgErr, cfgErrFld]

/-- What an out-of-range period leaves: the dword as it was, and CFG_ERR set by the field or by R30's conditions. -/
theorem plainWrite_stkPeriod_keeps (v : Nat) (s : State)
    (h : (dwordAfter 0x0A000 (getReg s 0x0A000) v).1 = getReg s 0x0A000) :
    plainWrite 0x0A000 v s = setReg 0x0A000 (getReg s 0x0A000) s ∨
      plainWrite 0x0A000 v s = setF STK_STATUS_CFG_ERR 1 (setReg 0x0A000 (getReg s 0x0A000) s) := by
  unfold plainWrite
  simp only [h, cfgErr_stk]
  split
  · exact .inr rfl
  · exact .inl rfl

theorem notAccepted_stkPeriod (v : Nat) (s : State) :
    notAccepted s 0x0A000 v = [] ∨ notAccepted s 0x0A000 v = [(15, 0)] := by
  simp only [notAccepted, if_true]
  split
  · exact .inr rfl
  · exact .inl rfl

theorem guardedWrite_stkPeriod_bad (v : Nat) (s : State) (h : bits v 15 0 < 250 ∨ 40000 < bits v 15 0) :
    ∃ u, (u = setReg 0x0A000 (getReg s 0x0A000) s ∨ u = setF STK_STATUS_CFG_ERR 1 (setReg 0x0A000 (getReg s 0x0A000) s)) ∧
      guardedWrite 0x0A000 v s = setF STK_STATUS_CFG_ERR 1 u := by
  rcases notAccepted_stkPeriod v s with hb | hb
  · refine ⟨_, .inl rfl, ?_⟩
    simp [guardedWrite, groupBad, hb, keepBits, plainWrite, dwordAfter_stkPeriod_bad _ _ h, cfgErr_stk]
  · refine ⟨_, plainWrite_stkPeriod_keeps (setBits v 15 0 (bits (getReg s 0x0A000) 15 0)) s
      (dwordAfter_stkPeriod_same _ _ ?_), ?_⟩
    · rw [bits_setBits_same]
      exact Nat.mod_eq_of_lt (bits_lt _ _ _)
    · simp [guardedWrite, groupBad, hb, keepBits, cfgErr_stk]

theorem periodWritten_of_accepted (p : Nat) (s : State) (hr : isRoot s = true) (hp : getF s STK_PERIOD_MICROS = p) :
    periodWritten p s = setF STK_PENDING_VALID 1 (setF STK_PENDING_MICROS p s) := by
  simp [periodWritten, hr, hp]

theorem periodWritten_of_rejected (p : Nat) (s : State) (hp : getF s STK_PERIOD_MICROS ≠ p) : periodWritten p s = s := by
  simp [periodWritten, hp]

theorem getF_setReg_other (s : State) (f : Fld) (o v : Nat) (h : f.off ≠ o) : getF (setReg o v s) f = getF s f := by
  unfold getF
  rw [getReg_setReg_other _ _ _ _ h]

theorem isRoot_setReg (o v : Nat) (s : State) (h : o ≠ 0x35008) : isRoot (setReg o v s) = isRoot s := by
  have hid : deviceId (setReg o v s) = deviceId s := getF_setReg_other _ _ _ _ (Ne.symm h)
  unfold isRoot
  rw [hid]
  rfl

theorem getF_setReg_setBits (s : State) (f : Fld) (x : Nat) (hs : RegsOk s) (hf : f.lo ≤ f.hi ∧ f.hi < 32) :
    getF (setReg f.off (setBits (getReg s f.off) f.hi f.lo x) s) f = x % 2 ^ (f.hi + 1 - f.lo) :=
  getF_setF_same s f x hs hf

/-! ### The three writes as R5 and R30 give them -/

theorem stkStatusWritten (v : Nat) (s t : State) (ht : t = settingWrite 0x0A008 v s) :
    RegsKeep [0x0A008] s t ∧ (RegsOk s → getReg t 0x0A008 = setBits (setBits (getReg s 0x0A008) 8 8
      (if bitAt v 8 then 0 else bits (getReg s 0x0A008) 8 8)) 9 9 (if bitAt v 9 then 0 else bits (getReg s 0x0A008) 9 9)) := by
  rw [settingWrite_stkStatus] at ht
  subst ht
  refine ⟨fun o ho => getReg_setReg_other _ _ _ _ (by simpa using ho), fun hs => getReg_setReg_same _ _ _ hs ?_⟩
  exact setBits_lt _ _ _ _ _ (by omega) (by omega) (setBits_lt _ _ _ _ _ (by omega) (by omega) (getReg_lt _ _))

theorem stkPpsWinWritten (v : Nat) (s t : State) (ht : t = settingWrite 0x0A01C v s) (hs : RegsOk s) :
    getF t STK_PPS_WIN_NS = bits v 15 0 ∧ getF t STK_PPS_WIN_MISS_COUNT = getF s STK_PPS_WIN_MISS_COUNT := by
  rw [settingWrite_stkPpsWin] at ht
  have hw : setReg 0x0A01C (setBits (getReg s 0x0A01C) 15 0 (bits v 15 0)) s = setF STK_PPS_WIN_NS (bits v 15 0) s := rfl
  rw [hw] at ht
  rw [ht, getF_noteStored _ _ _ (by decide), getF_noteStored _ _ _ (by decide)]
  exact ⟨(getF_setF_same _ _ _ hs (by decide)).trans (Nat.mod_eq_of_lt (bits_lt _ _ _)),
    getF_setF_other _ _ _ _ hs (by decide) (by decide) (by decide)⟩

theorem stkPeriodAccepted (v : Nat) (s t : State) (ht : t = settingWrite 0x0A000 v s) (hr : isRoot s = true)
    (hc : getF s STK_CTL_SRC ≠ 2) (hs : RegsOk s) (h : 250 ≤ bits v 15 0) (h' : bits v 15 0 ≤ 40000) :
    getF t STK_PERIOD_MICROS = bits v 15 0 ∧ getF t STK_PENDING_MICROS = bits v 15 0 ∧ getF t STK_PENDING_VALID = 1 ∧
      t.time = s.time := by
  have hlt : bits v 15 0 % 2 ^ 16 = bits v 15 0 := Nat.mod_eq_of_lt (bits_lt _ _ _)
  generalize hu : setReg 0x0A000 (setBits (getReg s 0x0A000) 15 0 (bits v 15 0)) s = u at *
  have hw : u = setF STK_PERIOD_MICROS (bits v 15 0) s := hu.symm
  have hp : getF u STK_PERIOD_MICROS = bits v 15 0 := by
    rw [hw, getF_setF_same _ _ _ hs (by decide)]
    exact hlt
  have hk : sparseWf regDefault u.regs = true := hw ▸ setF_wf _ _ _ hs
  have hru : isRoot u = true := by rw [← hu, isRoot_setReg _ _ _ (by omega), hr]
  have hut : u.time = s.time := by rw [hw]; rfl
  rw [settingWrite_stkPeriod, guardedWrite_stkPeriod_ok v s hr hc h h', hu, periodWritten_of_accepted _ _ hru hp] at ht
  rw [ht, getF_noteStored _ _ _ (by decide), getF_noteStored _ _ _ (by decide), getF_noteStored _ _ _ (by decide),
    noteStored_time]
  refine ⟨?_, ?_, ?_, by rw [setF_time, setF_time, hut]⟩
  · exact ((getF_setF_off _ _ _ _ (by decide)).trans (getF_setF_off _ _ _ _ (by decide))).trans hp
  · rw [getF_setF_other _ _ _ _ (setF_wf _ _ _ hk) (by decide) (by decide) (by decide), getF_setF_same _ _ _ hk (by decide)]
    exact hlt
  · exact getF_setF_same _ _ _ (setF_wf _ _ _ hk) (by decide)

theorem stkPeriodRejected (v : Nat) (s t : State) (ht : t = settingWrite 0x0A000 v s) (hs : RegsOk s)
    (h : bits v 15 0 < 250 ∨ 40000 < bits v 15 0) (hne : bits v 15 0 ≠ getF s STK_PERIOD_MICROS) :
    getF t STK_PERIOD_MICROS = getF s STK_PERIOD_MICROS ∧ getF t STK_STATUS_CFG_ERR = 1 ∧ t.time = s.time := by
  obtain ⟨u, hu, hg⟩ := guardedWrite_stkPeriod_bad v s h
  have hkeep : getF (setReg 0x0A000 (getReg s 0x0A000) s) STK_PERIOD_MICROS = getF s STK_PERIOD_MICROS := by
    unfold getF
    rw [show STK_PERIOD_MICROS.off = 0x0A000 from rfl, getReg_setReg_same _ _ _ hs (getReg_lt _ _)]
  have hk0 : sparseWf regDefault (setReg 0x0A000 (getReg s 0x0A000) s).regs = true := setReg_wf _ _ _ hs
  have hfacts : getF u STK_PERIOD_MICROS = getF s STK_PERIOD_MICROS ∧ sparseWf regDefault u.regs = true ∧ u.time = s.time := by
    rcases hu with rfl | rfl
    · exact ⟨hkeep, hk0, rfl⟩
    · exact ⟨(getF_setF_off _ _ _ _ (by decide)).trans hkeep, setF_wf _ _ _ hk0, rfl⟩
  obtain ⟨hp, hk, hut⟩ := hfacts
  have hp1 : getF (setF STK_STATUS_CFG_ERR 1 u) STK_PERIOD_MICROS = getF s STK_PERIOD_MICROS :=
    (getF_setF_off _ _ _ _ (by decide)).trans hp
  rw [settingWrite_stkPeriod, hg, periodWritten_of_rejected _ _ (by rw [hp1]; exact Ne.symm hne)] at ht
  rw [ht, getF_noteStored _ _ _ (by decide), getF_noteStored _ _ _ (by decide), noteStored_time, setF_time]
  exact ⟨hp1, getF_setF_same _ _ _ hk (by decide), hut⟩

/-! ### The obligation -/

theorem registerWrite_keys (off v : Nat) (s : State) (hv : v < 2 ^ 32) (ho : barOpen s = true) (hs : s.mode.cur ≠ .seal)
    (hh : s.mode.cur ≠ .halt) (hd : off = 0x0000C ∨ (off = 0x04008 ∧ s.mode.cur ≠ .boot)) :
    exec (.registerWrite off v true) s = .next (writeDword off v s) := by
  have hbad : badOffset off = false := by rcases hd with rfl | ⟨rfl, -⟩ <;> decide
  have hdeep : runsDeep off = true := by rcases hd with rfl | ⟨rfl, -⟩ <;> decide
  have hboot : s.mode.cur = .boot → off = 0x0000C := fun hb => hd.resolve_right (fun h => h.2 hb)
  rw [exec_registerWrite_of_open _ _ _ _ hbad ho hs hh, if_pos rfl, busWrite_eq_writeDword _ _ _ hv hdeep hs hh hboot]

/-- Settles O11: what the mode and the key let through, then the three dwords of the STK block field by field. -/
theorem registerWrites : Obligations.RegisterWrites := by
  unfold Obligations.RegisterWrites
  intro off v s hv
  refine ⟨fun full hb => by simp [execRegisterWrite, hb], fun full hb h => exec_registerWrite_of_closed _ _ _ _ hb h,
    fun ho hs hh hb => ⟨exec_registerWrite_of_open _ _ _ _ hb ho hs hh, fun hm hne => ?_, ?_, ?_⟩,
    fun ho hm => ⟨⟨_, exec_registerWrite_stk _ _ _ (by simp) hv ho hm, stkStatusWritten _ _ _ rfl⟩,
      ⟨_, exec_registerWrite_stk _ _ _ (by simp) hv ho hm, stkPpsWinWritten _ _ _ rfl⟩,
      fun hr hc hk h h' => ⟨_, exec_registerWrite_stk _ _ _ (by simp) hv ho hm, stkPeriodAccepted _ _ _ rfl hr hc hk h h'⟩,
      fun hk h hne => ⟨_, exec_registerWrite_stk _ _ _ (by simp) hv ho hm, stkPeriodRejected _ _ _ rfl hk h hne⟩⟩⟩
  · rw [exec_registerWrite_of_open _ _ _ _ hb ho hs hh, if_pos rfl, busWrite_of_boot _ _ _ hm hne]
    rfl
  · rintro rfl
    rw [registerWrite_keys _ _ _ hv ho hs hh (.inl rfl), writeDword_reset]
    exact ⟨fun hk h1 => by simp [hk, h1], fun hk h0 => by simp [hk, h0], fun hk => by simp [hk, glbErr]⟩
  · rintro rfl hm
    rw [registerWrite_keys _ _ _ hv ho hs hh (.inr ⟨rfl, hm⟩), writeDword_logClear]
    exact ⟨fun hk h1 => by simp [hk, h1], fun hk h0 => by simp [hk, h0], fun hk => by simp [hk, glbErr]⟩

end Sys2Proof.Machine
/-!
PROOFS. The stroke generator's edges, states and start (R22, R32 to R41).
-/

namespace Sys2Proof.Machine

/-! ### Reading a register dword of a state given by its parts -/

theorem getF_of_regs (s t : State) (f : Fld) (h : t.regs = s.regs) : getF t f = getF s f := by
  simp only [getF, getReg, h]

theorem getReg_of_regs (s t : State) (o : Nat) (h : t.regs = s.regs) : getReg t o = getReg s o := by
  simp only [getReg, h]

theorem getF_setOffset (e : Int) (f : Fld) (s : State) (h : f.off ≠ 0x0A014) : getF (setOffset e s) f = getF s f := by
  unfold setOffset
  exact (getF_setF_off _ _ _ _ h).trans (getF_of_regs _ _ _ rfl)

theorem lockState_setOffset (e : Int) (s : State) : lockState (setOffset e s) = lockState s := getF_setOffset _ _ _ (by decide)

theorem setLockState_of_ne (st : Nat) (s : State) (h : lockState s ≠ st) :
    setLockState st s = anchorRec 2 0 (setF STK_STATUS_STATE st s) := if_neg h

theorem enterAcquire_of_ne (s : State) (h : lockState s ≠ 1) :
    enterAcquire s = anchorRec 2 0 (setF STK_STATUS_STATE 1
      { s with time := { s.time with acqFromHoldover := lockState s == 3, below := 0, misses := 0 } }) :=
  setLockState_of_ne _ _ h

/-! ### Edges (R34, R40) -/

theorem exec_referenceEdge_of_unselected {s u : State} {frac : Nat} (hu : u = atFrac frac s) (pin : EdgePin) (falling : Bool)
    (off : Int) (h : edgeSelected u pin falling = false) : exec (.referenceEdge frac ⟨pin, falling⟩ off) s = .next u := by
  simp only [exec_referenceEdge, execReferenceEdge, ← hu, h]
  rfl

theorem exec_referenceEdge_of_selected {s u : State} {frac : Nat} (hu : u = atFrac frac s) (pin : EdgePin) (falling : Bool)
    (off e : Int) (hb : u.time.bootWait = false)
    (h : pin = .ppsIn ∧ u.time.src = 2 ∧ falling = flagF u STK_CTL_PPS_EDGE ∧ e = off ∨
      pin = .strokeIo ∧ u.time.src = 4 ∧ falling = false ∧ e = off + (getF u STK_IO_DELAY_NS : Nat)) :
    exec (.referenceEdge frac ⟨pin, falling⟩ off) s = .next
      (if lockState u = 2 && getF u STK_PPS_WIN_NS < e.natAbs then
        incF STK_PPS_WIN_MISS_COUNT 1 { u with time := { u.time with misses := u.time.misses + 1 } }
      else measure e u) := by
  have hsel : edgeSelected u pin falling = true ∧ edgeOffset u pin off = e := by
    rcases h with ⟨rfl, hsrc, hfall, he⟩ | ⟨rfl, hsrc, hfall, he⟩
    · simp [edgeSelected, edgeOffset, hsrc, hfall, he]
    · simp [edgeSelected, edgeOffset, hsrc, hfall, he]
  obtain ⟨hs, he⟩ := hsel
  simp only [exec_referenceEdge, execReferenceEdge, ← hu, hs, he, if_true, takeEdge, hb, Bool.false_and, Bool.false_eq_true,
    if_false]

/-! ### What a measurement does in each state (R34, R37) -/

section Measure

variable (e : Int) (s : State)

theorem measure_of_acquire (h : lockState s = 1) :
    measure e s = setOffset e { s with time := { s.time with misses := 0 } } := by
  simp only [measure, h]

theorem measure_of_free (h : lockState s = 0) :
    measure e s = anchorRec 2 0 (setF STK_STATUS_STATE 1 { setOffset e s with time := { s.time with
      misses := 0, below := 0, offsetNs := e, acqFromHoldover := false } }) := by
  have h1 : lockState (setOffset e { s with time := { s.time with misses := 0 } }) = 0 := (lockState_setOffset _ _).trans h
  simp only [measure, h]
  rw [enterAcquire_of_ne _ (by rw [h1]; decide), h1]
  rfl

theorem measure_of_holdover_near (h : lockState s = 3) (hn : e.natAbs ≤ s.time.period * 1000) :
    measure e s = anchorRec 2 0 (setF STK_STATUS_STATE 1 { setOffset e s with time := { s.time with
      misses := 0, below := 0, offsetNs := e, acqFromHoldover := true } }) := by
  have h1 : lockState (setOffset e { s with time := { s.time with misses := 0 } }) = 3 := (lockState_setOffset _ _).trans h
  have hnear : ¬ ((strokeNs s : Int) < (e.natAbs : Int)) := by simp only [strokeNs]; omega
  simp only [measure, h, hnear, if_false]
  rw [enterAcquire_of_ne _ (by rw [h1]; decide), h1]
  rfl

theorem measure_of_far (h : lockState s = 2 ∨ lockState s = 3) (hf : s.time.period * 1000 < e.natAbs) :
    measure e s = anchorRec 2 0 (setF STK_STATUS_STATE 4 (setOffset e { s with time := { s.time with misses := 0 } })) := by
  have hfar : (strokeNs s : Int) < (e.natAbs : Int) := by simp only [strokeNs]; omega
  have h1 : lockState (setOffset e { s with time := { s.time with misses := 0 } }) ≠ 4 := by
    rw [lockState_setOffset]
    rcases h with h | h <;> exact fun h' => absurd (h.symm.trans h') (by decide)
  rcases h with h | h <;> simp only [measure, h, hfar, if_true, setLockState_of_ne _ _ h1]

theorem measure_of_locked_near (h : lockState s = 2) (hn : e.natAbs ≤ s.time.period * 1000) :
    measure e s = setOffset e { s with time := { s.time with misses := 0 } } := by
  have hnear : ¬ ((strokeNs s : Int) < (e.natAbs : Int)) := by simp only [strokeNs]; omega
  simp only [measure, h, hnear, if_false]

theorem measure_of_mismatch_far (h : lockState s = 4) (hf : s.time.period * 1000 < e.natAbs) :
    measure e s = setOffset e { s with time := { s.time with misses := 0 } } := by
  have hfar : (strokeNs s : Int) < (e.natAbs : Int) := by simp only [strokeNs]; omega
  simp only [measure, h, hfar, if_true]

theorem measure_of_mismatch_near (h : lockState s = 4) (hn : e.natAbs ≤ s.time.period * 1000) :
    measure e s = anchorRec 2 0 (setF STK_STATUS_STATE 2 (setOffset e { s with time := { s.time with misses := 0 } })) := by
  have hnear : ¬ ((strokeNs s : Int) < (e.natAbs : Int)) := by simp only [strokeNs]; omega
  have h1 : lockState (setOffset e { s with time := { s.time with misses := 0 } }) ≠ 2 := by
    rw [lockState_setOffset]
    exact fun h' => absurd (h.symm.trans h') (by decide)
  simp only [measure, h, hnear, if_false, setLockState_of_ne _ _ h1]

end Measure

/-! ### The states the generator leaves (R34, R39) -/

section Leaves

variable {s u : State} {frac : Nat} (hu : u = atFrac frac s)
include hu

theorem exec_referenceLost_eq (absent : Nat) :
    exec (.referenceLost frac absent) s = .next (if 3 ≤ u.time.misses + absent then loseReference u else u) := by
  simp only [exec_referenceLost, execReferenceLost, ← hu]

theorem exec_acquireLocked_eq : exec (.acquireLocked frac) s = .next (if lockState u = 1 && 16 ≤ u.time.below then
    setLockState 2 { u with time := { u.time with misses := 0 } } else u) := by
  simp only [exec_acquireLocked, execAcquireLocked, ← hu]

theorem exec_holdoverLimit_eq : exec (.holdoverLimit frac) s = .next
    (if lockState u = 3 && getF u STK_HOLDOVER_LIMIT_S * 1000000 ≤ u.time.holdUs then setLockState 0 u else u) := by
  simp only [exec_holdoverLimit, execHoldoverLimit, ← hu]

theorem exec_marksMissing_eq : exec (.marksMissing frac) s = .next
    (if u.time.src = 3 && 2 ≤ u.time.sinceMark && lockState u != 3 then
      setLockState 3 { u with time := { u.time with holdUs := 0 } } else u) := by
  simp only [exec_marksMissing, execMarksMissing, ← hu]

theorem edges_taken_by_state (pin : EdgePin) (falling : Bool) (off e : Int) (hb : u.time.bootWait = false)
    (h : pin = .ppsIn ∧ u.time.src = 2 ∧ falling = flagF u STK_CTL_PPS_EDGE ∧ e = off ∨
      pin = .strokeIo ∧ u.time.src = 4 ∧ falling = false ∧ e = off + (getF u STK_IO_DELAY_NS : Nat))
    (hw : lockState u = 2 → e.natAbs ≤ getF u STK_PPS_WIN_NS) :
    exec (.referenceEdge frac ⟨pin, falling⟩ off) s = .next (measure e u) := by
  rw [exec_referenceEdge_of_selected hu pin falling off e hb h, if_neg]
  simp only [Bool.and_eq_true, decide_eq_true_eq, not_and, not_lt]
  exact hw

theorem loseReference_clauses (absent : Nat) :
    (lockState u = 2 → 3 ≤ u.time.misses + absent → exec (.referenceLost frac absent) s = .next (anchorRec 2 0
      (setF STK_STATUS_STATE 3 { u with time := { u.time with holdUs := 0, misses := 0 } }))) ∧
    (lockState u = 1 → 3 ≤ u.time.misses + absent → exec (.referenceLost frac absent) s = .next (anchorRec 2 0
      (setF STK_STATUS_STATE (if u.time.acqFromHoldover then 3 else 0) { u with time := { u.time with misses := 0 } }))) := by
  refine ⟨fun hl hm => ?_, fun hl hm => ?_⟩
  · rw [exec_referenceLost_eq hu, if_pos hm, loseReference, hl]
    exact congrArg Host.Outcome.next (setLockState_of_ne 3 _ (fun h => absurd (hl.symm.trans h) (by decide)))
  · rw [exec_referenceLost_eq hu, if_pos hm, loseReference, hl]
    refine congrArg Host.Outcome.next (setLockState_of_ne _ _ (fun h => ?_))
    have h1 : (1 : Nat) = if u.time.acqFromHoldover then 3 else 0 := hl.symm.trans h
    split at h1 <;> exact absurd h1 (by decide)

end Leaves

/-- Settles O7: an edge by the source and the state, then the states that the generator leaves. -/
theorem generatorStates : Obligations.GeneratorStates := by
  unfold Obligations.GeneratorStates
  refine ⟨fun s u frac pin falling off e hu hb => ⟨fun hp h => exec_referenceEdge_of_unselected hu _ _ _ ?_,
    fun hp h => exec_referenceEdge_of_unselected hu _ _ _ ?_, fun h => ⟨fun hl hw => ?_, fun hl hw hn => ?_, fun hl hw hf => ?_,
      fun hl => ?_, fun hl hn => ?_, fun hl hf => ?_, fun hl => ?_, fun hl hn => ?_⟩⟩,
    fun s u frac absent hu => ⟨(loseReference_clauses hu absent).1, (loseReference_clauses hu absent).2, fun h => ?_,
      fun hl hb => ?_, fun h => ?_, fun hl ht => ?_, fun h => ?_, fun hs hm hl => ?_, fun h => ?_⟩⟩
  · rcases h with h | h <;> simp [edgeSelected, hp, h]
  · rcases h with h | h <;> simp [edgeSelected, hp, h]
  · have hl' : lockState u = 2 := hl
    rw [exec_referenceEdge_of_selected hu _ _ _ e hb h, if_pos (by simp [hl', hw])]
  · rw [edges_taken_by_state hu _ _ _ e hb h (fun _ => hw), measure_of_locked_near e u hl hn]
  · rw [edges_taken_by_state hu _ _ _ e hb h (fun _ => hw), measure_of_far e u (.inl hl) hf]
  · rw [edges_taken_by_state hu _ _ _ e hb h (fun h2 => absurd (hl.symm.trans h2) (by decide)), measure_of_free e u hl]
  · rw [edges_taken_by_state hu _ _ _ e hb h (fun h2 => absurd (hl.symm.trans h2) (by decide)),
      measure_of_holdover_near e u hl hn]
  · rw [edges_taken_by_state hu _ _ _ e hb h (fun h2 => absurd (hl.symm.trans h2) (by decide)),
      measure_of_far e u (.inr hl) hf]
  · rcases hl with hl | ⟨hl, hf⟩
    · rw [edges_taken_by_state hu _ _ _ e hb h (fun h2 => absurd (hl.symm.trans h2) (by decide)), measure_of_acquire e u hl]
    · rw [edges_taken_by_state hu _ _ _ e hb h (fun h2 => absurd (hl.symm.trans h2) (by decide)),
        measure_of_mismatch_far e u hl hf]
  · rw [edges_taken_by_state hu _ _ _ e hb h (fun h2 => absurd (hl.symm.trans h2) (by decide)),
      measure_of_mismatch_near e u hl hn]
  · rw [exec_referenceLost_eq hu, if_neg (by omega)]
  · have hl' : lockState u = 1 := hl
    rw [exec_acquireLocked_eq hu, if_pos (by simp [hl', hb])]
    exact congrArg Host.Outcome.next (setLockState_of_ne 2 _ (fun h => absurd (hl.symm.trans h) (by decide)))
  · rw [exec_acquireLocked_eq hu, if_neg]
    rcases h with h | h <;> simp [lockState, h]
  · have hl' : lockState u = 3 := hl
    rw [exec_holdoverLimit_eq hu, if_pos (by simp [hl', ht]), setLockState_of_ne 0 _ (by rw [hl']; decide)]
  · rw [exec_holdoverLimit_eq hu, if_neg]
    rcases h with h | h <;> simp [lockState, h]
  · have hl' : lockState u ≠ 3 := hl
    rw [exec_marksMissing_eq hu, if_pos (by simp [hl', hs, hm])]
    exact congrArg Host.Outcome.next (setLockState_of_ne 3 _ hl)
  · rw [exec_marksMissing_eq hu, if_neg]
    rcases h with h | h | h <;> simp [lockState, h]

end Sys2Proof.Machine
/-!
PROOFS. The part right after power-on (O2), and how the generator starts: the reference at BOOT, IEEE 1588 messages and
MISMATCH (R22, R32, R36, R37, R110).
-/

namespace Sys2Proof.Machine

/-! ### Power-on -/

theorem getReg_reset (off : Nat) : getReg State.reset off = (regDefault off).toNat := rfl

theorem bounded_reset : Bounded State.reset where
  regs := rfl
  frac := by decide
  blots := by decide
  queue := by decide
  snapshot := by decide

/-- The fields of the STK block that the statement names, by their dwords' power-on values. -/
theorem regDefault_stk :
    (regDefault 0x0A000).toNat = 0x3E8 ∧ (regDefault 0x0A008).toNat = 0 ∧ (regDefault 0x0A028).toNat = 0x1C1E := by
  simp [regDefault, fieldsAt, blockOf_stk, regTableSTK, regTableSTK0, regTableSTK1, FieldDesc.indexAt, fieldReset]

/-- Settles O2: the power-on state field by field. -/
theorem resetState : Obligations.ResetState := by
  unfold Obligations.ResetState
  obtain ⟨hp, hst, ho⟩ := regDefault_stk
  refine ⟨rfl, rfl, rfl, rfl, rfl, rfl, rfl, rfl, rfl, getReg_reset, ?_, ?_, ?_, bounded_reset⟩
  · norm_num [getF, getReg_reset, STK_PERIOD_MICROS, hp, bits]
  · norm_num [getF, getReg_reset, STK_OVR_CTL_RESUME_MIB, ho, bits]
  · norm_num [getF, getReg_reset, STK_STATUS_STATE, hst, bits]

/-! ### IEEE 1588 messages -/

section Ptp

variable {s u : State} {frac : Nat} (hu : u = atFrac frac s)
include hu

theorem exec_ptpMessage_of_other (port domain : Nat) (map : PtpMap) (msg : PtpMsg)
    (h : u.time.src ≠ 1 ∨ getF u STK_CTL_PTP_PORT ≠ port ∨ getF u STK_CTL_PTP_DOMAIN ≠ domain) :
    exec (.ptpMessage frac port ⟨domain, map⟩ msg) s = .next u := by
  have h' : (u.time.src != 1 || port != getF u STK_CTL_PTP_PORT || domain != getF u STK_CTL_PTP_DOMAIN) = true := by
    rcases h with h | h | h
    · simp [h]
    · simp [Ne.symm h]
    · simp [Ne.symm h]
  simp only [exec_ptpMessage, execPtpMessage, ← hu, h', if_true]

theorem exec_ptpMessage_of_selected (port domain : Nat) (map : PtpMap) (msg : PtpMsg) (h1 : u.time.src = 1)
    (hp : getF u STK_CTL_PTP_PORT = port) (hd : getF u STK_CTL_PTP_DOMAIN = domain) :
    exec (.ptpMessage frac port ⟨domain, map⟩ msg) s = .next (takePtp port domain map msg u) := by
  simp [execPtpMessage, ← hu, h1, hp, hd]

end Ptp

/-! ### The reference at BOOT (R36) -/

section Boot

variable (s : State) (n k r : Nat)

/-- A reference whose count is above both counts in hand gives count and phase. -/
theorem bootReference_of_ahead (hn : s.chain.lastSealed = some n) (hl : lockState s = 0) (hk : n < k) (hs : s.time.stroke < k) :
    bootReference k (r % (s.time.period * 1000)) s = anchorRec 2 0 (setF STK_STATUS_STATE 1 { setOffset 0 s with
      time := { s.time with
        bootWait := false, stroke := k,
        frac := r % (s.time.period * 1000) * 65536 / (s.time.period * 1000), offsetNs := 0,
        acqFromHoldover := false, below := 0, misses := 0 } }) := by
  have hf : fracOfNs s (r % (s.time.period * 1000)) = r % (s.time.period * 1000) * 65536 / (s.time.period * 1000) := by
    simp only [fracOfNs, strokeNs, Nat.mod_mod]
  have hc : (decide (n < k) && decide (s.time.stroke < k)) = true := by simp [hk, hs]
  simp only [bootReference, hn, hc, if_true, hf]
  have hl1 (t : TimeSt) : lockState (setOffset 0 { s with time := t }) = 0 := (lockState_setOffset _ _).trans hl
  rw [enterAcquire_of_ne _ (by rw [hl1]; decide), hl1]
  rfl

/-- A reference whose count is behind leaves the count in use and starts in MISMATCH (R37). -/
theorem bootReference_of_behind (hn : s.chain.lastSealed = some n) (hl : lockState s = 0) (hk : k < max s.time.stroke (n + 1)) :
    bootReference k (r % (s.time.period * 1000)) s = anchorRec 2 0 (setF STK_STATUS_STATE 4
      (setOffset (((k : Int) - (max s.time.stroke (n + 1) : Nat)) * (s.time.period * 1000 : Nat)
          + (r % (s.time.period * 1000) : Nat) - (s.time.frac * (s.time.period * 1000) / 65536 : Nat))
        { s with time := { s.time with bootWait := false, stroke := max s.time.stroke (n + 1) } })) := by
  have hb : bootCount s = max s.time.stroke (n + 1) := by simp only [bootCount, hn]
  have hc : (decide (n < k) && decide (s.time.stroke < k)) = false := by simp; omega
  simp only [bootReference, hn, hc, Bool.false_eq_true, if_false, hb, hk, if_true, strokeNs, Nat.mod_mod, phaseNs]
  refine setLockState_of_ne 4 _ ?_
  rw [lockState_setOffset]
  exact fun h => absurd (hl.symm.trans h) (by decide)

theorem ptpTime_of_running (refNs : Nat) (hb : s.time.bootWait = false) : ptpTime refNs s = measure (refNs - localNs s) s := by
  simp [ptpTime, hb]

theorem ptpTime_of_boot (refNs : Nat) (hb : s.time.bootWait = true) (hm : s.mode.cur = .boot) :
    ptpTime refNs s = bootReference ((refNs - s.time.epochNs) / (s.time.period * 1000))
      ((refNs - s.time.epochNs) % (s.time.period * 1000)) s := by
  simp [ptpTime, hb, hm, strokeNs]

end Boot

theorem takePtp_sync (port domain t1 : Nat) (map : PtpMap) (u v : State)
    (hv : v = { u with time := { u.time with refNs := t1, ptpRx := some (localNs u) } }) :
    takePtp port domain map (.sync t1) u = ptpAsk port domain map (ptpTime (t1 + u.time.ptpDelayNs) v) := by
  rw [hv]
  rfl

theorem exec_referenceWaitExpiry_of_waiting (s : State) (n : Nat) (hm : s.mode.cur = .boot) (hb : s.time.bootWait = true)
    (hn : s.chain.lastSealed = some n) : exec .referenceWaitExpiry s =
      .next { s with time := { s.time with bootWait := false, stroke := max s.time.stroke (n + 1) } } := by
  simp [execReferenceWaitExpiry, hm, hb, bootCount, hn]

theorem exec_referenceWaitExpiry_of_not (s : State) (h : s.mode.cur ≠ .boot ∨ s.time.bootWait = false) :
    exec .referenceWaitExpiry s = .next s := by
  rcases h with h | h <;> simp [execReferenceWaitExpiry, h]

/-- Settles O8: the waiting generator, then a PTP message by port and domain, its Sync by mode and state, its answer. -/
theorem startAndMismatch : Obligations.StartAndMismatch := by
  unfold Obligations.StartAndMismatch
  intro s u frac port domain t1 refNs k map msg hu
  refine ⟨rfl, fun hm hb n hn => exec_referenceWaitExpiry_of_waiting s n hm hb hn, exec_referenceWaitExpiry_of_not s,
    exec_ptpMessage_of_other hu port domain map msg, fun h1 hp hd hr => ⟨fun hb hl hnear => ?_, fun hm hb hl hk n hn => ?_⟩,
    fun h1 hp hd hpeer t2 t3 t4 hq hx => ?_⟩
  · obtain ⟨v, hv⟩ : ∃ v, v = { u with time := { u.time with refNs := t1, ptpRx := some (localNs u) } } := ⟨_, rfl⟩
    have hloc : localNs v = localNs u := by rw [hv]; rfl
    have hlv : lockState v = 2 := by rw [hv]; exact hl
    rw [exec_ptpMessage_of_selected hu _ _ _ _ h1 hp hd, takePtp_sync _ _ _ _ _ _ hv, ← hr,
      ptpTime_of_running v refNs (by rw [hv]; exact hb), hloc, measure_of_locked_near _ v hlv (by rw [hv]; exact hnear), hv]
  · obtain ⟨v, hv⟩ : ∃ v, v = { u with time := { u.time with refNs := t1, ptpRx := some (localNs u) } } := ⟨_, rfl⟩
    have hlv : lockState v = 0 := by rw [hv]; exact hl
    have hnv : v.chain.lastSealed = some n := by rw [hv]; exact hn
    have htime : v.time = { u.time with refNs := t1, ptpRx := some (localNs u) } := by rw [hv]
    rw [exec_ptpMessage_of_selected hu _ _ _ _ h1 hp hd, takePtp_sync _ _ _ _ _ _ hv, ← hr,
      ptpTime_of_boot v refNs (by rw [hv]; exact hb) (by rw [hv]; exact hm)]
    have hkv : (refNs - v.time.epochNs) / (v.time.period * 1000) = k := by rw [htime]; exact hk.symm
    rw [hkv]
    refine ⟨fun hs hnk => ?_, fun hlt => ?_⟩
    · rw [bootReference_of_ahead v n k _ hnv hlv hnk (by rw [htime]; exact hs), hv]
      rfl
    · rw [bootReference_of_behind v n k _ hnv hlv (by rw [htime]; exact hlt), hv]
  · rw [exec_ptpMessage_of_selected hu _ _ _ _ h1 hp hd, takePtp, hq, hx]
    simp only [hpeer, Bool.false_eq_true, if_false, ptpDelay]

end Sys2Proof.Machine
/-!
PROOFS. Reads of BAR2 by mode and offset (R447, R452, R454).
-/

namespace Sys2Proof.Machine

section Reads

variable (off : Nat) (s : State)

theorem exec_latchedReadLo_of_good (hb : badOffset off = false) :
    exec (.latchedReadLo off) s = .next (if barOpen s then readAccess off s else s) := by
  simp [execLatchedReadLo, hb]

/-- A read that no completion answers leaves the part as it was. -/
theorem readAccess_of_seal (hm : s.mode.cur = .seal) : readAccess off s = s := by
  simp [readAccess, busRead, readReg, hm]

theorem readAccess_of_boot (hm : s.mode.cur = .boot) :
    readAccess off s = emit (.regRead off (if servedInBoot off then regView s off else 0)) s := by
  cases hs : servedInBoot off <;> simp [readAccess, busRead, readReg, hm, hs]

/-- Outside BOOT, SEAL and HALT a read returns the latch of a HI half, or the dword, and a read of LO latches HI. -/
theorem readAccess_of_serving (hm : s.mode.cur ≠ .boot ∧ s.mode.cur ≠ .seal ∧ s.mode.cur ≠ .halt)
    (h1 : ¬ (0x22024 ≤ off ∧ off ≤ 0x22030)) (h2 : off ≠ 0x34800) (h3 : off ≠ 0x22004) :
    readAccess off s = emit (.regRead off (if isLatchedHi off then ((mget s.latch off).getD 0).toNat else regView s off))
      (latchHi off s) := by
  obtain ⟨hb, hs, hh⟩ := hm
  have hr : readReg s off = some (if isLatchedHi off then ((mget s.latch off).getD 0).toNat else regView s off) := by
    unfold readReg
    split
    · next hc => exact absurd hc hs
    · next hc => exact absurd hc hh
    · next hc => exact absurd hc hb
    · cases isLatchedHi off <;> rfl
  have h1' : (decide (0x22024 ≤ off) && decide (off ≤ 0x22030)) = false := by simpa using h1
  simp only [readAccess, busRead, hr, hb, if_false, h1', Bool.false_eq_true, h3, h2]

theorem latchHi_of_none (h : latchPair s off = none) : latchHi off s = s := by simp only [latchHi, h]

theorem latchHi_of_some (hi v : Nat) (h : latchPair s off = some (hi, v)) :
    latchHi off s = { s with latch := sset (fun _ => 0) s.latch hi (BitVec.ofNat 32 v) } := by simp only [latchHi, h]

end Reads

/-- Settles O10: a read by the offset, the mode and the half of a latched pair. -/
theorem registerReads : Obligations.RegisterReads := by
  unfold Obligations.RegisterReads
  intro off s
  refine ⟨fun hb => by simp [execLatchedReadLo, hb], fun hb ho => ?_, fun hb hm => ?_, fun hb ho hm => ?_,
    fun hb ho hm h1 h2 h3 => ?_⟩
  · rw [exec_latchedReadLo_of_good off s hb, ho, if_neg (by decide)]
  · rw [exec_latchedReadLo_of_good off s hb, readAccess_of_seal off s hm, ite_self]
  · rw [exec_latchedReadLo_of_good off s hb, if_pos ho, readAccess_of_boot off s hm]
  · have hm' : s.mode.cur ≠ .boot ∧ s.mode.cur ≠ .seal ∧ s.mode.cur ≠ .halt := by
      rcases hm with h | h | h <;> simp [h]
    rw [exec_latchedReadLo_of_good off s hb, if_pos ho, readAccess_of_serving off s hm' h1 h2 h3]
    refine ⟨fun hi hp => ?_, fun hi hp => ?_, fun k v hi hp => ?_⟩
    · rw [latchHi_of_none off s hp, if_pos hi]
    · rw [latchHi_of_none off s hp, hi, if_neg (by decide)]
    · rw [latchHi_of_some off s k v hp, hi, if_neg (by decide)]

end Sys2Proof.Machine
/-!
PROOFS. The PCIe link, its resets, attention codes and interrupt vectors (R48, R49, R57 to R67).
-/

namespace Sys2Proof.Machine

/-! ### The link -/

/-- No function waits for the link, so that training resets none. -/
theorem getFn_resetAtLink_of_all {t : State} (h : ∀ x ∈ t.fns, x.2.resetAtLink = false) (f : Nat) :
    (getFn t f).resetAtLink = false := by
  unfold getFn
  cases hg : mget t.fns f with
  | none => rfl
  | some x => exact h (f, x) (mget_mem _ _ _ hg)

theorem resetAtLink_fold_of_none (t : State) (h : ∀ f, (getFn t f).resetAtLink = false) :
    allFns.foldl (fun a f => if (getFn a f).resetAtLink then controllerReset f a else a) t = t :=
  foldl_same _ _ _ (fun f _ => by rw [h f, if_neg (by decide)])

/-- The registers that training shows (R48, R49), `d` being DEGRADED. -/
def trainedRegs (speed width polarity : Nat) (reversed d : Bool) (u : State) : State :=
  setF FN_LINK_STATUS_SPEED speed (setF FN_LINK_STATUS_WIDTH width (setF FN_LINK_STATUS_REVERSED (bit reversed)
    (setF FN_LINK_STATUS_POLARITY (polarity % 256) (setF FN_LINK_STATUS_DEGRADED (bit d)
      (setF FN_LINK_STATUS_UP 1 (setF FN_ATTN_LINK 0 u))))))

theorem trainedRegs_fns (speed width polarity : Nat) (reversed d : Bool) (u : State) :
    (trainedRegs speed width polarity reversed d u).fns = u.fns := by
  unfold trainedRegs
  rw [setF_fns, setF_fns, setF_fns, setF_fns, setF_fns, setF_fns, setF_fns]

section Link

variable {s u : State} {frac : Nat} (hu : u = atFrac frac s)
include hu

theorem exec_linkTrained_eq (speed width polarity : Nat) (reversed fault : Bool) :
    exec (.linkTrained frac speed width reversed polarity fault) s = .next
      (if u.mode.perst || u.mode.cur == .halt || follower u || !trainable u speed width then u
      else allFns.foldl (fun a f => if (getFn a f).resetAtLink then controllerReset f a else a)
        (if fault || speed == 1 then
          blot 0x0201 2 0 (le 1 speed ++ le 1 width) (trainedRegs speed width polarity reversed (fault || speed == 1) u)
        else trainedRegs speed width polarity reversed (fault || speed == 1) u)) := by
  simp only [exec_linkTrained, execLinkTrained, ← hu, trainedRegs]

theorem exec_linkTrained_of_trainable (speed width polarity : Nat) (reversed fault : Bool) (hp : u.mode.perst = false)
    (hh : u.mode.cur ≠ .halt) (hf : follower u = false) (ht : trainable u speed width = true) (h1 : speed ≠ 1)
    (hn : ∀ x ∈ u.fns, x.2.resetAtLink = false) :
    exec (.linkTrained frac speed width reversed polarity fault) s = .next
      (if fault then blot 0x0201 2 0 (le 1 speed ++ le 1 width) (trainedRegs speed width polarity reversed true u)
        else trainedRegs speed width polarity reversed false u) := by
  have hskip : (u.mode.perst || u.mode.cur == .halt || follower u || !trainable u speed width) = false := by
    simp [hp, hh, hf, ht]
  have hdeg : (fault || speed == 1) = fault := by simp [h1]
  have hnone (t : State) (ht : t.fns = u.fns) (f : Nat) : (getFn t f).resetAtLink = false :=
    getFn_resetAtLink_of_all (ht ▸ hn) f
  rw [exec_linkTrained_eq hu, hskip, if_neg (by decide), hdeg]
  cases fault with
  | false =>
    rw [if_neg (by decide), if_neg (by decide), resetAtLink_fold_of_none _ (hnone _ (trainedRegs_fns ..))]
  | true =>
    rw [if_pos rfl, if_pos rfl, resetAtLink_fold_of_none _ (hnone _ ((blotted_blot ..).fns.trans (trainedRegs_fns ..)))]

theorem exec_linkDown_of_up (h : linkUp u = true) :
    exec (.linkDown frac) s = .next (linkLoss (blot 0x0202 1 0 (le 1 u.mode.cur.code)
      (setF FN_LINK_EVENTS_LINK_DOWN 1 (incF FN_LINK_EVENTS_DOWN_COUNT 1 u)))) := by
  simp only [exec_linkDown, execLinkDown, ← hu, h, Bool.not_true, Bool.false_eq_true, if_false]

theorem exec_hotReset_of_up (h : linkUp u = true) :
    exec (.hotReset frac) s = .next (configReset (linkLoss (blot 0x0203 1 0 (le 1 u.mode.cur.code)
      (setF FN_LINK_EVENTS_HOT_RESET 1 u)))) := by
  simp only [exec_hotReset, execHotReset, ← hu, h, Bool.not_true, Bool.false_eq_true, if_false]

theorem exec_perstAssert_of_running (hm : u.mode.cur = .run ∨ u.mode.cur = .lean ∨ u.mode.cur = .park)
    (hf : follower u = false) : exec (.perstAssert frac) s = .next (holdPerst (blot 0x0204 1 0 (le 1 u.mode.cur.code) u)) := by
  rcases hm with hm | hm | hm <;>
    simp only [exec_perstAssert, execPerstAssert, ← hu, hm, hf, Bool.false_eq_true, if_false, reduceCtorEq, decide_false,
      Bool.or_self]

theorem exec_perstAssert_of_starting (hm : u.mode.cur = .boot ∨ u.mode.cur = .activate ∨ u.mode.cur = .sanitize)
    (hf : follower u = false) : exec (.perstAssert frac) s = .next (holdPerst u) := by
  rcases hm with hm | hm | hm <;> simp [execPerstAssert, ← hu, hm, hf]

theorem exec_perstAssert_of_seal (hm : u.mode.cur = .seal) (hf : follower u = false) :
    exec (.perstAssert frac) s = .next (blot 0x0205 1 0 [] { u with mode := { u.mode with perstSeal := true } }) := by
  simp [execPerstAssert, ← hu, hm, hf]

theorem exec_perstDeassert_of_quiet (hf : follower u = false) (hw : u.mode.wakeLow = false)
    (hp : flagF u PWR_WAKE_PERST = false) :
    exec (.perstDeassert frac) s = .next { u with mode := { u.mode with perst := false, wakeLow := false } } := by
  have hp' : flagF { u with mode := { u.mode with perst := false, wakeLow := false } } PWR_WAKE_PERST = false := hp
  simp only [exec_perstDeassert, execPerstDeassert, ← hu, hf, hw, Bool.false_eq_true, if_false, hp']

end Link

theorem trainable_of_limits (u : State) (speed width : Nat) (h4 : 4 ≤ speed) (hs : speed ≤ getF u FN_LINK_CTL_MAX_SPEED)
    (hw : width = 4 ∨ width = 8) (hm : width ≤ maxWidth u) : trainable u speed width = true := by
  rcases hw with rfl | rfl <;> simp [trainable, h4, hs, hm]

/-! ### Attention and interrupts -/

section Attention

variable (s : State) (fn vec : Nat)

theorem exec_linkAttnTimeout_of_down (hl : linkUp s = false) (hf : follower s = false)
    (hm : s.mode.cur = .run ∨ s.mode.cur = .lean ∨ s.mode.cur = .park) :
    exec .linkAttnTimeout s = .next (setF FN_ATTN_LINK 1 s) := by
  rcases hm with h | h | h <;> simp [execLinkAttnTimeout, hl, hf, h]

theorem exec_noIrqTimeout_of_blocked (f : Nat) (hf : f < 128) (h : signalBlocked s f = true) :
    exec .noIrqTimeout s = .next (setF FN_ATTN_NO_IRQ 1 s) := by
  have hany : allFns.any (signalBlocked s) = true := List.any_eq_true.mpr ⟨f, (mem_allFns f).mpr hf, h⟩
  simp only [exec_noIrqTimeout, execNoIrqTimeout, hany, if_true]

theorem exec_attentionBurst_of_due (c : Nat) (he : flagF s FN_RDYBSY_PULSE_EN = true) (hb : s.mode.busyLow = false)
    (hh : s.mode.cur ≠ .halt) (hslot : s.time.stroke % 64 = deviceId s % 64)
    (hc : (attnCodes s).find? (fun k => s.mode.attnLast < k) = some c ∨
      (attnCodes s).find? (fun k => s.mode.attnLast < k) = none ∧ (attnCodes s).head? = some c) :
    exec .attentionBurst s = .next (emit (.attention c) { s with mode := { s.mode with attnLast := c } }) := by
  have hor : ((attnCodes s).find? (fun k => s.mode.attnLast < k)).orElse (fun _ => (attnCodes s).head?) = some c := by
    rcases hc with h | ⟨h, h'⟩
    · rw [h]; rfl
    · rw [h]; exact h'
  have hskip : (!flagF s FN_RDYBSY_PULSE_EN || s.mode.busyLow || s.mode.cur == .halt ||
      s.time.stroke % 64 != deviceId s % 64) = false := by simp [he, hb, hh, hslot]
  simp only [exec_attentionBurst, execAttentionBurst, hskip, Bool.false_eq_true, if_false, hor]

theorem exec_attentionBurst_of_not (h : flagF s FN_RDYBSY_PULSE_EN = false ∨ s.time.stroke % 64 ≠ deviceId s % 64) :
    exec .attentionBurst s = .next s := by
  rcases h with h | h <;> simp [execAttentionBurst, h]

theorem exec_msixUnmask_entry (addr data : Nat) (masked : Bool) (h : configReaches s fn = true) (hv : vec < 1024) :
    exec (.msixUnmask fn (.entry vec addr data masked)) s = .next (signalPending fn
      (updVec fn vec (fun y => { y with addr := addr, data := data, masked := masked }) s)) := by
  simp only [exec_msixUnmask, execMsixUnmask, h, Bool.not_true, Bool.false_eq_true, if_false, msixTableSize,
    Nat.not_le.mpr hv]

theorem exec_msixUnmask_control (on masked : Bool) (h : configReaches s fn = true) :
    exec (.msixUnmask fn (.control on masked)) s = .next (signalPending fn
      (updFn fn (fun x => { x with msixEn := on, fmask := masked }) s)) := by
  simp only [exec_msixUnmask, execMsixUnmask, h, Bool.not_true, Bool.false_eq_true, if_false]

theorem getFn_updVec (g : Vec → Vec) :
    getFn (updVec fn vec g s) fn = { getFn s fn with vecs := mset (getFn s fn).vecs vec (g (getVec (getFn s fn) vec)) } :=
  getFn_updFn _ _ _

theorem getVec_updVec (g : Vec → Vec) : getVec (getFn (updVec fn vec g s) fn) vec = g (getVec (getFn s fn) vec) := by
  rw [getFn_updVec]
  simp [getVec]

/-- Nothing that holds a signal back is in the vector table. -/
theorem signalHeld_updVec (g : Vec → Vec) : signalHeld (updVec fn vec g s) fn = signalHeld s fn := by
  simp only [signalHeld, hostSide, getFn_updVec]
  rfl

theorem signal_of_enabled (hen : (getFn s fn).msixEn = true) (hv : vec < vectors s fn) :
    signal fn vec s = if signalHeld s fn || (getVec (getFn s fn) vec).masked then
      updVec fn vec (fun w => { w with pend := true }) s else emit (.msix fn vec) s := by
  have hskip : (!(getFn s fn).msixEn || decide (vectors s fn ≤ vec)) = false := by simp [hen, hv]
  simp only [signal, hskip, Bool.false_eq_true, if_false]

/-- The end of an aggregation time: the count starts again and the vector signals, or sets its pending bit (R58). -/
theorem exec_vectorSignal_of_aggregated (hv : vec ≠ 0) (hcd : (getVec (getFn s fn) vec).cd = false)
    (hc : (getVec (getFn s fn) vec).count ≠ 0) (ha : flagF s (FN_FUNC_ALIGN fn) = false) (hen : (getFn s fn).msixEn = true)
    (hlt : vec < vectors s fn) (t : State) (ht : t = updVec fn vec (fun y => { y with count := 0, fresh := 0 }) s) :
    exec (.vectorSignal fn vec) s = .next (if signalHeld s fn || (getVec (getFn s fn) vec).masked then
      updVec fn vec (fun w => { w with pend := true }) t else emit (.msix fn vec) t) := by
  have hco : coalesced (getFn s fn) vec = true := by simp [coalesced, hv, hcd]
  have hent : (getFn t fn).msixEn = true := by rw [ht, getFn_updVec]; exact hen
  have hltt : vec < vectors t fn := by rw [ht, vectors, getFn_updVec]; exact hlt
  have hheld : signalHeld t fn = signalHeld s fn := by rw [ht, signalHeld_updVec]
  have hmask : (getVec (getFn t fn) vec).masked = (getVec (getFn s fn) vec).masked := by rw [ht, getVec_updVec]
  have hs := signal_of_enabled t fn vec hent hltt
  rw [hheld, hmask] at hs
  simp only [exec_vectorSignal, execVectorSignal, hco, hc, ha, Bool.not_true, Bool.false_or, decide_false, Bool.false_eq_true,
    if_false, ← ht, hs]

end Attention

/-- Settles O12: the link's events in their order, then attention codes, mask writes and coalesced vectors. -/
theorem linkAndInterrupts : Obligations.LinkAndInterrupts := by
  unfold Obligations.LinkAndInterrupts
  refine ⟨fun s u frac speed width polarity reversed fault hu => ⟨fun hp hh hf h4 hs hw hm hn r hr => ?_,
      fun h => ⟨exec_linkDown_of_up hu h, exec_hotReset_of_up hu h⟩, exec_perstAssert_of_running hu,
      exec_perstAssert_of_starting hu, exec_perstAssert_of_seal hu, exec_perstDeassert_of_quiet hu, fun h => ?_⟩,
    fun s fn vec addr data c on masked => ⟨exec_linkAttnTimeout_of_down s, fun h => ?_, exec_noIrqTimeout_of_blocked s,
      fun he hb hh hslot hc => exec_attentionBurst_of_due s c he hb hh hslot hc, exec_attentionBurst_of_not s,
      fun hr hv => ⟨exec_msixUnmask_entry s fn vec addr data masked hr hv, exec_msixUnmask_control s fn on masked hr⟩,
      fun hv hcd hc ha hen hlt t ht => ⟨fun hh hm => ?_, fun h => ?_⟩⟩⟩
  · rw [exec_linkTrained_of_trainable hu speed width polarity reversed fault hp hh hf
      (trainable_of_limits u speed width h4 hs hw hm) (by omega) hn, hr]
    simp only [trainedRegs]
  · simp only [exec_retrain, execRetrain, h, if_true]
  · simp [execLinkAttnTimeout, h]
  · rw [exec_vectorSignal_of_aggregated s fn vec hv hcd hc ha hen hlt t ht, hh, hm, if_neg (by decide)]
  · rw [exec_vectorSignal_of_aggregated s fn vec hv hcd hc ha hen hlt t ht, if_pos (by simpa using h)]

end Sys2Proof.Machine
/-!
PROOFS. Controllers and function-level resets (R52, R55, R60, R65, R66, R80, R101, R102).
-/

namespace Sys2Proof.Machine

section Controllers

variable (s : State) (fn : Nat)

theorem exec_ccEnSet_of_offered (ams mps sqBase sqSize cqBase cqSize : Nat) (hr : hostReaches s fn = true)
    (hd : (getFn s fn).d3 = false) (he : (getFn s fn).en = false) (ha : ams ≤ 1) (hm : mps ≤ 4) :
    exec (.ccEnSet fn ams mps sqBase sqSize cqBase cqSize) s = .next (setFn fn { getFn s fn with
      en := true, rdy := s.mode.cur != .boot, cfs := false, ams := ams, mps := mps, idleFrom := s.time.stroke,
      sqs := mset (getFn s fn).sqs 0 { size := sqSize, base := sqBase, cqid := 0, prio := 0 },
      cqs := mset (getFn s fn).cqs 0 { size := cqSize, base := cqBase, vector := 0, ien := true } } s) := by
  have hoff : ccOffered ams mps = true := by
    simp only [ccOffered, mpsMax, ha, hm, decide_true, Bool.and_self]
  simp only [exec_ccEnSet, execCcEnSet, hr, hd, he, hoff, Bool.not_true, Bool.or_self, Bool.false_eq_true, if_false,
    Bool.and_true]

theorem exec_ccEnClear_of_enabled {u : State} {frac : Nat} (hu : u = atFrac frac s) (hr : hostReaches u fn = true)
    (he : (getFn u fn).en = true) : exec (.ccEnClear frac fn) s = .next (controllerReset fn u) := by
  simp only [exec_ccEnClear, execCcEnClear, ← hu, hr, he, Bool.and_self, if_true]

/-- A controller reset leaves the function's registers, queues, Features and ring as at power-on (R80). -/
theorem controllerReset_fn : (getFn (controllerReset fn s) fn).en = false ∧ (getFn (controllerReset fn s) fn).rdy = false ∧
    (getFn (controllerReset fn s) fn).sqs = [] ∧ (getFn (controllerReset fn s) fn).cqs = [] ∧
    (getFn (controllerReset fn s) fn).feats = {} ∧ (getFn (controllerReset fn s) fn).aers = [] ∧
    (getFn (controllerReset fn s) fn).ring = none := by
  simp only [controllerReset, getFn_updFn, and_self]

theorem exec_flrInitiate_of_vf {u : State} {frac : Nat} (hu : u = atFrac frac s) (hm : u.mode.cur = .run)
    (hf : (getFn u fn).flr = none) (ho : online u fn = true) (hl : linkUp u = true) (h0 : fn ≠ 0) :
    exec (.flrInitiate frac fn) s = .next (startFlr fn 0 u) := by
  simp [execFlrInitiate, ← hu, hm, hf, ho, hl, h0]

/-- A reset that starts keeps the time of its request and takes the function's grants and debt (R101). -/
theorem startFlr_fn (after : Nat) (hf : (getFn s fn).flr = none) :
    (getFn (startFlr fn after s) fn).flr = some (s.time.stroke, s.time.frac) ∧
      (getFn (startFlr fn after s) fn).gCmd = 0 ∧ (getFn (startFlr fn after s) fn).dCmd = 0 := by
  refine ⟨?_, ?_, ?_⟩ <;> simp only [startFlr, hf, Option.isSome_none, Bool.false_eq_true, if_false, getFn_setF,
    getFn_updFn]

/-- What one function contributes to a boundary's commits. -/
def flrStep (a : State) (f : Nat) : State :=
  match (getFn a f).flr with
  | some t => if 50 ≤ flrUs a t then commitFlr f a else a
  | none => a

theorem exec_flrCommit_eq : exec .flrCommit s = .next (if s.time.frac != 0 then s else allFns.foldl flrStep s) := rfl

theorem flrStep_of_none (f : Nat) (h : (getFn s f).flr = none) : flrStep s f = s := by
  simp only [flrStep, h]

theorem flrStep_of_early (f : Nat) (h : ∀ t, (getFn s f).flr = some t → flrUs s t < 50) : flrStep s f = s := by
  unfold flrStep
  cases hf : (getFn s f).flr with
  | none => rfl
  | some t => exact if_neg (Nat.not_le.mpr (h t hf))

theorem flrStep_of_due (f : Nat) (t : Nat × Nat) (hf : (getFn s f).flr = some t) (h : 50 ≤ flrUs s t) :
    flrStep s f = commitFlr f s := by
  simp only [flrStep, hf, h, if_true]

theorem exec_flrCommit_of_early (h : ∀ f, f ∈ allFns → ∀ t, (getFn s f).flr = some t → flrUs s t < 50) :
    exec .flrCommit s = .next s := by
  rw [exec_flrCommit_eq, foldl_same flrStep s allFns (fun f hf => flrStep_of_early s f (h f hf)), ite_self]

theorem exec_flrCommit_of_one (h0 : s.time.frac = 0) (hn : ∀ f, f ∈ allFns → f ≠ fn → (getFn s f).flr = none)
    (hlt : fn < 128) (hk : ∀ f, f ∈ allFns → f ≠ fn → (getFn (commitFlr fn s) f).flr = none) (t : Nat × Nat)
    (ht : (getFn s fn).flr = some t) (hd : 50 ≤ flrUs s t) : exec .flrCommit s = .next (commitFlr fn s) := by
  have hstep : flrStep s fn = commitFlr fn s := flrStep_of_due s fn t ht hd
  rw [exec_flrCommit_eq, if_neg (by simp [h0]), foldl_one flrStep s allFns fn ((mem_allFns fn).mpr hlt) nodup_allFns
    (fun f hf hne => flrStep_of_none s f (hn f hf hne))
    (fun f hf hne => by rw [hstep]; exact flrStep_of_none _ f (hk f hf hne)), hstep]

theorem exec_numvfsWrite_of_kept (n : Nat) (hr : hostReaches s 0 = true) (hn : n ≤ 127) (ho : ∀ f ∈ onlineVfs s, f ≤ n) :
    exec (.numvfsWrite n) s = .next { s with numVfs := n } := by
  have hnone : (onlineVfs s).filter (fun f => n < f) = [] := by
    rw [List.filter_eq_nil_iff]
    exact fun f hf => by simpa using ho f hf
  have hskip : (decide (127 < n) || !hostReaches s 0) = false := by simp [hr, hn]
  simp only [exec_numvfsWrite, execNumvfsWrite, hskip, Bool.false_eq_true, if_false, hnone, List.foldl_nil]

end Controllers

/-- Settles O13: the controller, its resets and the configuration writes, each under the conditions it names. -/
theorem controllersAndFunctions : Obligations.ControllersAndFunctions := by
  unfold Obligations.ControllersAndFunctions
  refine ⟨fun s u frac fn ams mps sqBase sqSize cqBase cqSize hu => ⟨exec_ccEnSet_of_offered s fn _ _ _ _ _ _,
      fun hr he => ⟨_, exec_ccEnClear_of_enabled s fn hu hr he, controllerReset_fn u fn⟩, fun hm hf ho hl h0 => ?_,
      exec_flrCommit_of_early s, fun h0 hn hlt hk t => exec_flrCommit_of_one s fn h0 hn hlt hk t⟩,
    fun s fn n p r t on relax => ⟨fun hr => ?_, fun hn => ?_, exec_numvfsWrite_of_kept s n⟩⟩
  · obtain ⟨hflr, hcmd, hdebt⟩ := startFlr_fn u fn 0 hf
    exact ⟨_, exec_flrInitiate_of_vf s fn hu hm hf ho hl h0, hflr, hcmd, hdebt⟩
  · simp only [exec_busMasterEnable, execBusMasterEnable, exec_dStateChange, execDStateChange, hr, Bool.not_true,
      Bool.false_eq_true, if_false, and_self]
  · simp [execNumvfsWrite, hn]

end Sys2Proof.Machine
/-!
PROOFS. Mode transitions, the orderly stop and MODE REQUEST (R82, R408, R410, R411, R417).
-/

namespace Sys2Proof.Machine

/-! ### Transitions -/

section Transitions

variable (s : State)

/-- With neither a stop nor ACTIVATE nor SANITIZE waiting, RUN goes to READ-ONLY or to the mode that the power states ask for. -/
theorem beginNext_of_run (hb : mayBegin s = true) (hs : s.mode.stop = none) (ha : s.mode.wantActivate = false)
    (hz : s.mode.wantSanitize = none) (hm : s.mode.cur = .run) :
    beginNext s = if s.mode.readOnlyCond then switchMode .readOnly 6 s
      else if powerTarget s = .run then completeReqs (fun m => !m.stops) s else beginPower s := by
  simp [beginNext, hb, hs, ha, hz, hm, Mode.powered]

theorem exec_modeTransitionBegin_of_condition (hb : mayBegin s = true) (hs : s.mode.stop = none)
    (ha : s.mode.wantActivate = false) (hz : s.mode.wantSanitize = none) (hm : s.mode.cur = .run)
    (hc : s.mode.readOnlyCond = true) : exec .modeTransitionBegin s = .next (switchMode .readOnly 6 s) := by
  rw [exec_modeTransitionBegin, execModeTransitionBegin, beginNext_of_run s hb hs ha hz hm, if_pos hc]

theorem requestPoint_mode (p : Nat) : (requestPoint p s).mode = s.mode := by
  simp only [requestPoint]
  split
  · rw [setF_mode, setF_mode]
  · rw [setF_mode, setF_mode]

theorem completeReqs_cur (p : Mode → Bool) : (completeReqs p s).mode.cur = s.mode.cur := by
  simp only [completeReqs]
  rw [(Told.foldl _ _ _ (fun a (r : ModeReq) => told_complete 0 r.sqid r.cid .success 0 0 a)).mode]

theorem beginTrans_cur (dest : Mode) (cause fn : Nat) (note : Bytes) :
    (beginTrans dest cause fn note s).mode.cur = s.mode.cur := by
  unfold beginTrans
  rw [requestPoint_mode]

/-- From RUN the entry to LEAN needs neither a flush nor power for the compute die. -/
theorem beginPower_of_lean (hm : s.mode.cur = .run) (ht : powerTarget s = .lean) :
    beginPower s = completeReqs (fun m => !m.stops) (beginTrans .lean s.mode.powCause s.mode.powFn s.mode.powNote s) := by
  have hcur (a : State) (ha : a.mode.cur = .run) :
      (if Mode.lean.deep && !a.mode.cur.deep then flushAll a
        else if a.mode.cur = .hibernate then setReqs 1 { a with mode := { a.mode with stage := .resetDone } } else a) = a := by
    rw [ha, if_neg (by decide), if_neg (by decide)]
  unfold beginPower
  rw [ht]
  exact hcur _ ((completeReqs_cur _ _).trans ((beginTrans_cur _ _ _ _ _).trans hm))

theorem exec_modeTransitionBegin_of_lean (hb : mayBegin s = true) (hs : s.mode.stop = none)
    (ha : s.mode.wantActivate = false) (hz : s.mode.wantSanitize = none) (hm : s.mode.cur = .run)
    (hc : s.mode.readOnlyCond = false) (ht : powerTarget s = .lean) :
    exec .modeTransitionBegin s = .next (completeReqs (fun m => !m.stops)
      (beginTrans .lean s.mode.powCause s.mode.powFn s.mode.powNote s)) := by
  rw [exec_modeTransitionBegin, execModeTransitionBegin, beginNext_of_run s hb hs ha hz hm, hc, if_neg (by decide), ht,
    if_neg (by decide), beginPower_of_lean s hm ht]

theorem advanceStop_of_not_stopping (h : s.mode.stopping = false) : advanceStop s = s := by
  simp only [advanceStop, h, Bool.false_and, Bool.false_eq_true, if_false]

theorem finishTrans_of_awake (tr : ModeTrans) (ht : s.mode.trans = some tr) (hs : s.mode.stopping = false)
    (hm : s.mode.cur = .run) (hd : tr.dest = .lean) (v : State) (hv : v = changeAwake tr s) (hn : v.mode.trans = none) :
    finishTrans s = resumeHeld (place (completeReqs (fun m => m == v.mode.cur) v)) := by
  simp [finishTrans, ht, hs, hm, hd, Mode.deep, ← hv, hn]

theorem exec_modeTransitionDone_of_awake {u : State} {frac : Nat} (hu : u = atFrac frac s) (tr : ModeTrans)
    (ht : u.mode.trans = some tr) (hs : u.mode.stopping = false) (hm : u.mode.cur = .run) (hd : tr.dest = .lean) (v : State)
    (hv : v = changeAwake tr u) (hn : v.mode.trans = none) :
    exec (.modeTransitionDone frac) s =
      .next (serveTunnels (replayWrites (resumeHeld (place (completeReqs (fun m => m == v.mode.cur) v))))) := by
  rw [exec_modeTransitionDone, execModeTransitionDone, ← hu, advanceStop_of_not_stopping u hs,
    finishTrans_of_awake u tr ht hs hm hd v hv hn]

/-! ### The orderly stop -/

theorem exec_orderlyStop_of_wanted (dest : Mode) (cause fn : Nat) (note : Bytes) (hs : s.mode.stopping = false)
    (hb : mayBegin s = true) (hm : s.mode.cur = .run) (hw : s.mode.stop = some (dest, cause, fn, note)) :
    exec .orderlyStop s = .next (beginStop dest cause fn note s) := by
  simp [execOrderlyStop, hs, hb, hm, hw, Mode.stoppable]

theorem exec_orderlyStopDrainTimeout_of_stopping {u : State} {frac : Nat} (hu : u = atFrac frac s)
    (hs : u.mode.stopping = true) : exec (.orderlyStopDrainTimeout frac) s =
      .next (advanceStop (abandonCmds (fun _ _ => true) none u)) := by
  simp only [exec_orderlyStopDrainTimeout, execOrderlyStopDrainTimeout, ← hu, hs, if_true]

end Transitions

/-! ### MODE REQUEST -/

theorem requestedMode_table : requestedMode 0 = some .halt ∧ requestedMode 1 = none ∧ requestedMode 2 = some .safe ∧
    requestedMode 3 = some .run ∧ requestedMode 4 = some .lean ∧ requestedMode 5 = some .park ∧
    requestedMode 6 = some .drowse ∧ requestedMode 7 = some .hibernate ∧ ∀ k, 8 ≤ k → requestedMode k = none := by
  refine ⟨rfl, rfl, rfl, rfl, rfl, rfl, rfl, rfl, fun k hk => ?_⟩
  obtain ⟨j, rfl⟩ := Nat.exists_eq_add_of_le' hk
  rfl

section Request

variable {s u : State} {q : Sqe} {k : Nat} {m : Mode} {note : Option Bytes} (hok : AdminOk (modeRow note) q s)
  (hu : u = takeEntry q.fn 0 s)
include hok hu

theorem exec_modeRequest_eq : exec (.modeRequest q k note) s = .next (modeRequest q k note u) := by
  rw [exec_modeRequest, execModeRequest, adminFetch_of_adminOk hok, hu]

theorem exec_modeRequest_of_unassigned (hk : requestedMode k = none) :
    exec (.modeRequest q k note) s = .next (done q .invalidField 0 0 u) := by
  rw [exec_modeRequest_eq hok hu, modeRequest, hk]

theorem exec_modeRequest_of_power (hk : requestedMode k = some m) (hh : m ≠ .halt) (hs : m ≠ .safe) :
    exec (.modeRequest q k note) s = .next (requestPower q m note u) := by
  have hst : m.stops = false := by
    cases m
    case halt => contradiction
    case safe => contradiction
    all_goals rfl
  rw [exec_modeRequest_eq hok hu, modeRequest, hk]
  simp only [hst, Bool.false_eq_true, if_false]

theorem exec_modeRequest_of_stop (hk : requestedMode k = some m) (hm : m = .halt ∨ m = .safe) (hn : u.mode.stop = none) :
    exec (.modeRequest q k note) s = .next { u with mode := { u.mode with
      stop := some (m, 2, q.fn, fixLen 16 (note.getD [])),
      modeReqs := u.mode.modeReqs ++ [{ sqid := q.sqid, cid := q.cid, mode := m, moved := note.isSome }] } } := by
  have hst : m.stops = true := by rcases hm with rfl | rfl <;> rfl
  rw [exec_modeRequest_eq hok hu, modeRequest, hk]
  simp only [hst, if_true, requestStop, hn, Option.none_or]

end Request

theorem requestPower_of_present (q : Sqe) (m : Mode) (note : Option Bytes) (u v : State)
    (hv : v = setPowers m.ps 2 q.fn (fixLen 16 (note.getD [])) u) (ht : v.mode.trans = none)
    (hc : v.mode.cur = psMode v m.ps) : requestPower q m note u = done q .success 0 0 v := by
  have hcond : (v.mode.trans.isNone && v.mode.cur = psMode v m.ps) = true := by
    rw [ht, hc, decide_eq_true rfl]; rfl
  unfold requestPower
  rw [← hv, if_pos hcond]

theorem requestPower_of_elsewhere (q : Sqe) (m : Mode) (note : Option Bytes) (u v : State)
    (hv : v = setPowers m.ps 2 q.fn (fixLen 16 (note.getD [])) u) (h : v.mode.trans ≠ none ∨ v.mode.cur ≠ psMode v m.ps) :
    requestPower q m note u = { v with mode := { v.mode with modeReqs := v.mode.modeReqs ++ [{
      sqid := q.sqid, cid := q.cid, mode := psMode v m.ps, moved := note.isSome,
      before := (allFns.filter (online u)).map (fun f => (f, (getFn u f).feats.power)) }] } } := by
  have hcond : ¬ (v.mode.trans.isNone && v.mode.cur = psMode v m.ps) = true := by
    rw [Bool.and_eq_true, Option.isNone_iff_eq_none, decide_eq_true_eq]
    exact fun hb => h.elim (fun h1 => h1 hb.1) (fun h2 => h2 hb.2)
  unfold requestPower
  rw [← hv, if_neg hcond]

/-- Settles O14: a transition's beginning and end, the orderly stop, and MODE REQUEST by its code. -/
theorem modeChanges : Obligations.ModeChanges := by
  unfold Obligations.ModeChanges
  refine ⟨fun s u frac tr hu => ⟨fun hb hs ha hz hm => ⟨exec_modeTransitionBegin_of_condition s hb hs ha hz hm,
        exec_modeTransitionBegin_of_lean s hb hs ha hz hm⟩,
      fun ht hs hm hd v hv hn => exec_modeTransitionDone_of_awake s hu tr ht hs hm hd v hv hn⟩,
    fun s u frac cause fn note hu => ⟨exec_orderlyStop_of_wanted s .halt cause fn note,
      exec_orderlyStopDrainTimeout_of_stopping s hu⟩,
    requestedMode_table, fun s u q k m note hok hu => ⟨exec_modeRequest_of_unassigned hok hu, fun hk hh hs v hv => ?_,
      exec_modeRequest_of_stop hok hu⟩⟩
  rw [exec_modeRequest_of_power hok hu hk hh hs]
  exact ⟨fun ht hc => by rw [requestPower_of_present q m note u v hv ht hc],
    fun h => by rw [requestPower_of_elsewhere q m note u v hv h]⟩

end Sys2Proof.Machine
/-!
PROOFS. Power events: idle functions, ignition, the wake timer, PARK bursts (R72, R409, R412, R415, R418); device resets and
uncorrectable DRAM errors (R357, R358, R419).
-/

namespace Sys2Proof.Machine

/-! ### Power states that change by themselves -/

section Power

variable (s : State)

/-- A list none of whose elements meets a test. -/
theorem any_eq_false_of_forall {α : Type} (l : List α) (p : α → Bool) (h : ∀ a ∈ l, p a = false) : l.any p = false :=
  List.any_eq_false.mpr (fun a ha => by simp [h a ha])

theorem exec_autonomousPowerStateTransition_of_idle (fn ps ms : Nat) (he : (getFn s fn).en = true) (ho : online s fn = true)
    (ha : (getFn s fn).feats.apstEn = true)
    (hent : (getFn s fn).feats.apst[(getFn s fn).feats.power % 32]? = some (ps, ms)) (hms : ms ≠ 0)
    (hc : ∀ c ∈ s.cmds, c.fn ≠ fn) (hl : ∀ c ∈ lateCmds s, c.who.1 ≠ fn) (hq : ∀ e ∈ (getFn s fn).sqs, e.2.waiting = 0)
    (hidle : ms ≤ msSince s (getFn s fn).idleFrom) (hlow : (getFn s fn).feats.power % 32 < ps) :
    exec (.autonomousPowerStateTransition fn) s = .next (setPower fn ps 1 s) := by
  have hcmds : s.cmds.any (fun c => c.fn == fn) = false := any_eq_false_of_forall _ _ (fun c h => by simp [hc c h])
  have hlate : (lateCmds s).any (fun c => c.who.1 == fn) = false := any_eq_false_of_forall _ _ (fun c h => by simp [hl c h])
  have hwait : (getFn s fn).sqs.any (fun e => 0 < e.2.waiting) = false :=
    any_eq_false_of_forall _ _ (fun e h => by simp [hq e h])
  simp only [exec_autonomousPowerStateTransition, execAutonomousPowerStateTransition, hent, he, ho, ha, hcmds, hlate, hwait,
    hidle, hlow, Bool.or_self, Bool.not_false, Bool.and_self, decide_true, bne_iff_ne, ne_eq, hms, not_false_eq_true,
    Bool.and_true, Bool.true_and, if_true]

theorem exec_ignitionOffDelay_of_elapsed (n : Nat) (hn : s.mode.ignNormalSince = some n) (he : flagF s PWR_IGN_EN = true)
    (hoff : flagF s PWR_STATUS_IGN_OFF = false) (hd : getF s PWR_IGN_DELAY_S * 1000 ≤ msSince s n) :
    exec .ignitionOffDelay s = .next (setF PWR_STATUS_IGN_OFF 1 (setPowers 2 3 0xFF [] s)) := by
  simp only [exec_ignitionOffDelay, execIgnitionOffDelay, hn, he, hoff, hd, decide_true, Bool.not_false, Bool.and_self,
    if_true]

theorem exec_wakeTimer_of_elapsed (hm : s.mode.cur = .hibernate) (hw : flagF s PWR_WAKE_TIMER = true)
    (hn : getF s PWR_TIMER_STROKES ≠ 0) (hd : s.mode.enteredAt + getF s PWR_TIMER_STROKES ≤ s.time.stroke) :
    exec .wakeTimer s = .next (driveWake (setF PWR_WAKE_LAST 3 (setPowers s.mode.lastOp.ps 4 0xFF [] s))) := by
  have hdeep : s.mode.cur.deep = true := by rw [hm]; rfl
  have hn' : (getF s PWR_TIMER_STROKES != 0) = true := by simpa using hn
  simp only [exec_wakeTimer, execWakeTimer, hdeep, hw, hn', hd, decide_true, Bool.and_self, if_true, wake, wakeTo]

/-! ### PARK bursts -/

theorem exec_parkBurst_of_level (hm : s.mode.cur = .park) (h0 : s.time.frac = 0) (hb : flagF s PWR_STATUS_BURST = false)
    (hl : min (getF s PWR_PARK_BURST_KIB) (effLimitKib s / 2) * 1024 ≤ dirtyBytes s) :
    exec .parkBurst s = .next (showClocks (placeForced (journalFlush (setF PWR_STATUS_BURST 1 s)))) := by
  simp only [exec_parkBurst, execParkBurst, hm, h0, hb, hl, decide_true, Bool.not_false, Bool.and_self, Bool.true_or, if_true]

theorem exec_parkChannelIdle_of_idle (hm : s.mode.cur = .park) (hb : flagF s PWR_STATUS_BURST = true)
    (hi : ∀ e ∈ s.ftl.dies, e.2.queue = [] ∧ e.2.running = none ∧ e.2.suspended = none) :
    exec .parkChannelIdle s = .next (showClocks (setF PWR_STATUS_BURST 0 s)) := by
  have hidle : s.ftl.dies.all (fun e => e.2.queue.isEmpty && e.2.running.isNone && e.2.suspended.isNone) = true :=
    List.all_eq_true.mpr (fun e he => by
      obtain ⟨hq, hr, hs⟩ := hi e he
      simp [hq, hr, hs])
  simp only [exec_parkChannelIdle, execParkChannelIdle, hm, hb, hidle, decide_true, Bool.and_self, if_true]

end Power

/-- Settles O15: each event under the conditions that call for it. -/
theorem powerEvents : Obligations.PowerEvents := by
  unfold Obligations.PowerEvents
  exact ⟨fun s fn ps ms n => ⟨exec_autonomousPowerStateTransition_of_idle s fn ps ms, exec_ignitionOffDelay_of_elapsed s n,
      exec_wakeTimer_of_elapsed s⟩,
    fun s hm => ⟨exec_parkBurst_of_level s hm, exec_parkChannelIdle_of_idle s hm⟩⟩

/-! ### Device resets -/

section Resets

variable (s : State)

theorem deviceReset_of_run (cause : Nat) (hm : s.mode.cur = .run) : deviceReset cause s = enterSeal 0 0 0x0B cause s := by
  have ht : TripSeals s.mode := .inl (by simp [hm])
  simp only [deviceReset, hm]
  exact trip_eq_enterSeal ht 0 0 0x0B cause

/-- The registers that an uncorrectable DRAM error writes (R357). -/
def ueShown (addr source cls : Nat) (s : State) : State :=
  incF DRM_UE_COUNT 1 (setF DRM_ERR_ADDR_LO (addr % 2 ^ 32) (setF DRM_ERR_ADDR_HI (addr / 2 ^ 32)
    (setF DRM_ERR_SOURCE source (setF DRM_ERR_CLASS cls (setF DRM_ERR_VALID 1 s)))))

theorem exec_dramUe_deviceState (addr source cls : Nat) : exec (.dramUe addr source cls ⟨.deviceState, false⟩) s =
    .next (controlledRestart (blot 0x0601 3 source (le 8 addr) (ueShown addr source cls s))) := rfl

theorem exec_dramUe_keyIndex (addr source cls stream item : Nat) :
    exec (.dramUe addr source cls ⟨.keyIndex stream item, false⟩) s =
      .next (dropKeyEntry stream item (ueShown addr source cls s)) := rfl

theorem exec_dramUe_of_clean (addr source cls : Nat) (target : DramTarget) :
    exec (.dramUe addr source cls ⟨target, true⟩) s = .next (incF DRM_LINK_CE 1 s) := rfl

end Resets

/-- Settles O16: the resets of RUN pass through SEAL; HIBERNATE boots at once (the model's reading) and HALT ignores one. -/
theorem deviceResets : Obligations.DeviceResets := by
  unfold Obligations.DeviceResets
  intro s w core addr cls hm
  refine ⟨?_, fun hw hwm => ?_, rfl, fun hw => ⟨?_, fun stream item => ?_, fun source target => rfl⟩, fun h hh => ?_,
    fun h hh => ?_⟩
  · rw [exec_deviceReset, execDeviceReset, deviceReset_of_run s 3 hm]
  · rw [exec_scribeWatchdog, execScribeWatchdog, ← hw, deviceReset_of_run w 5 hwm]
  · rw [exec_dramUe_deviceState, hw, ueShown]
  · rw [exec_dramUe_keyIndex, hw, ueShown]
  · simp only [exec_deviceReset, execDeviceReset, deviceReset, hh]
  · simp only [exec_deviceReset, execDeviceReset, deviceReset, hh]

end Sys2Proof.Machine
/-!
PROOFS. I/O queues made and deleted, asynchronous events, Features (R54, R57, R68, R72, R76, R80, R85).
-/

namespace Sys2Proof.Machine

/-! ### Rows of checks -/

theorem firstError_cons_false (st : Status) (t : List (Bool × Status)) : firstError ((false, st) :: t) = firstError t := rfl

theorem firstError_cons_true (st : Status) (t : List (Bool × Status)) : firstError ((true, st) :: t) = some st := rfl

theorem firstError_nil : firstError [] = none := rfl

section Queues

variable {s u : State} {q : Sqe} (hok : AdminOk { nsid0 := true, atHead := true } q s) (hu : u = takeEntry q.fn 0 s)
  {id size base vector cqid prio : Nat} {ien : Bool} (h2 : 2 ≤ size) (hmax : size ≤ 4096) (h0 : id ≠ 0)

theorem badSize_of_range (h2 : 2 ≤ size) (hmax : size ≤ 4096) : badSize size = false := by
  simp only [badSize, Nat.not_lt.mpr h2, Nat.not_lt.mpr hmax, decide_false, Bool.or_self]

include hok hu h2 hmax h0 in
theorem exec_createIoCq_of_free (hl : id ≤ queueLimit u q.fn true) (hn : mhas (getFn u q.fn).cqs id = false)
    (hv : vector < vectors u q.fn) : exec (.createIoCq q id size base vector ien true) s =
      .next (done q .success 0 0 (updFn q.fn (fun x =>
        { x with cqs := mset x.cqs id { size := size, base := base, vector := vector, ien := ien } }) u)) := by
  have hid : (id == 0 || decide (queueLimit u q.fn true < id) || mhas (getFn u q.fn).cqs id) = false := by
    simp [h0, hl, hn]
  have hvec : decide (vectors u q.fn ≤ vector) = false := by simp [hv]
  rw [exec_createIoCq, execCreateIoCq, adminFetch_of_adminOk hok, ← hu]
  simp only [createCq, hid, hvec, badSize_of_range h2 hmax, Bool.not_true, firstError_cons_false, firstError_nil, orElse]

include hok hu h2 hmax h0 in
theorem exec_createIoSq_of_free (hl : id ≤ queueLimit u q.fn false) (hn : mhas (getFn u q.fn).sqs id = false)
    (hc0 : cqid ≠ 0) (hc : mhas (getFn u q.fn).cqs cqid = true) : exec (.createIoSq q id size base cqid prio true) s =
      .next (done q .success 0 0 (updFn q.fn (fun x =>
        { x with sqs := mset x.sqs id { size := size, base := base, cqid := cqid, prio := prio % 4 } }) u)) := by
  have hcq : (cqid == 0 || !mhas (getFn u q.fn).cqs cqid) = false := by simp [hc0, hc]
  have hid : (id == 0 || decide (queueLimit u q.fn false < id) || mhas (getFn u q.fn).sqs id) = false := by
    simp [h0, hl, hn]
  rw [exec_createIoSq, execCreateIoSq, adminFetch_of_adminOk hok, ← hu]
  simp only [createSq, hcq, hid, badSize_of_range h2 hmax, Bool.not_true, firstError_cons_false, firstError_nil, orElse]

include hok hu h0 in
theorem exec_deleteIoSq_of_present (hm : mhas (getFn u q.fn).sqs id = true) :
    exec (.deleteIoSq q id) s = .next (done q .success 0 0 (updFn q.fn (fun x => { x with sqs := merase x.sqs id })
      (abandonCmds (fun f k => f == q.fn && k == id) (some .abortedSqDeletion)
        (endReqs (fun f k => f == q.fn && k == id) u)))) := by
  have hid : ¬ (decide (id = 0) || !mhas (getFn u q.fn).sqs id) = true := by simp [h0, hm]
  rw [exec_deleteIoSq, execDeleteIoSq, adminFetch_of_adminOk hok, ← hu]
  simp only [deleteSq, if_neg hid, orElse]

include hok hu h0 in
theorem exec_deleteIoCq_of_present (hm : mhas (getFn u q.fn).cqs id = true) :
    exec (.deleteIoCq q id) s = .next (if (getFn u q.fn).sqs.any (fun e => e.2.cqid == id) then
      done q .invalidQueueDeletion 0 0 u
    else done q .success 0 0 (updFn q.fn (fun x => { x with cqs := merase x.cqs id }) u)) := by
  have hid : (id == 0 || !mhas (getFn u q.fn).cqs id) = false := by simp [h0, hm]
  rw [exec_deleteIoCq, execDeleteIoCq, adminFetch_of_adminOk hok, ← hu]
  cases hfed : (getFn u q.fn).sqs.any (fun e => e.2.cqid == id) <;>
    simp only [deleteCq, hid, hfed, firstError_cons_false, firstError_cons_true, firstError_nil, orElse, Bool.false_eq_true,
      if_false, if_true]

end Queues

section Events

variable {s u : State} {q : Sqe} (hok : AdminOk { nsid0 := true } q s) (hu : u = takeEntry q.fn 0 s)
  (hlt : (getFn u q.fn).aers.length < 8)
include hok hu hlt

theorem exec_asyncEventRequest_of_none (hn : (getFn u q.fn).events.find? (eventOn (getFn u q.fn)) = none) :
    exec (.asyncEventRequest q) s = .next (updFn q.fn (fun y => { y with aers := y.aers ++ [q.cid] }) u) := by
  rw [exec_asyncEventRequest, execAsyncEventRequest, adminFetch_of_adminOk hok, ← hu]
  simp only [takeRequest, if_neg (Nat.not_le.mpr hlt), hn]

theorem exec_asyncEventRequest_of_some (e : AsyncEvent)
    (he : (getFn u q.fn).events.find? (eventOn (getFn u q.fn)) = some e) :
    exec (.asyncEventRequest q) s = .next (raiseEvent q.fn e (updFn q.fn (fun y =>
      { y with events := dropFirst (· == e) y.events }) (updFn q.fn (fun y => { y with aers := y.aers ++ [q.cid] }) u))) := by
  rw [exec_asyncEventRequest, execAsyncEventRequest, adminFetch_of_adminOk hok, ← hu]
  simp only [takeRequest, if_neg (Nat.not_le.mpr hlt), he]

end Events

section Features

variable {s u : State} {q : Sqe} (hok : AdminOk {} q s) (hu : u = takeEntry q.fn 0 s) (v : Nat)
include hok hu

/-- Features other than 0Ch carry no data, so that the shared checks are those of a command without any. -/
theorem exec_getFeatures_eq (fid sel : Nat) (h : fid ≠ 0x0C) :
    exec (.getFeatures q fid sel v) s = .next (getFeatures q fid sel v u) := by
  rw [exec_getFeatures, execGetFeatures, if_neg h, adminFetch_of_adminOk hok, ← hu]

theorem exec_setFeatures_eq (fid : Nat) (save : Bool) (data : Bytes) (h : fid ≠ 0x0C) :
    exec (.setFeatures q fid save v data) s = .next (setFeatures q fid save v data u) := by
  rw [exec_setFeatures, execSetFeatures, if_neg h, if_neg h, adminFetch_of_adminOk hok, ← hu]

end Features

theorem bits_of_lt (v hi lo : Nat) (h : v < 2 ^ lo) : bits v hi lo = 0 := by
  rw [bits, Nat.div_eq_of_lt h, Nat.zero_mod]

section FeatureValues

variable (q : Sqe) (u : State) (v : Nat)

theorem getFeatures_arbitration :
    getFeatures q 0x01 0 v u = done q .success (getFn u q.fn).feats.arbitration 0 u := rfl

theorem getFeatures_vendorEvents :
    getFeatures q 0xC1 0 v u = done q .success (getFn u q.fn).feats.vendorEvents 0 u := rfl

theorem getFeatures_unknown : getFeatures q 0x05 0 v u = done q .invalidField 0 0 u := rfl

/-- A value that the Feature takes, of a Feature that I/O queues do not fix. -/
theorem setFeatures_of_good (fid : Nat) (data : Bytes) (hv : v < 2 ^ 32) (hid : featureIds.contains fid = true)
    (hb : badFeature u q.fn fid v data = false) (hq : (fid == 0xC0 || fid == 0x07) = false) :
    setFeatures q fid false v data u = done q .success 0 0 (applyFeature q.fn fid v data u) := by
  have h7 : fid ≠ 0x07 := by
    rintro rfl
    exact absurd hq (by decide)
  simp only [setFeatures, Nat.mod_eq_of_lt hv, hid, hb, hq, Bool.not_true, Bool.false_and, firstError_cons_false,
    firstError_nil, orElse, if_neg h7]

theorem setFeatures_coalesce (h : v < 65536) : setFeatures q 0x08 false v [] u = done q .success 0 0
    (updFn q.fn (fun x => { x with feats := { x.feats with coalesce := v } }) u) := by
  have hb : badFeature u q.fn 0x08 v [] = false := by simp [badFeature, bits_of_lt v 31 16 (by omega)]
  exact setFeatures_of_good q u v 0x08 [] (by omega) rfl hb rfl

theorem setFeatures_vendorEvents (h : v < 4) : setFeatures q 0xC1 false v [] u = done q .success 0 0
    (updFn q.fn (fun x => { x with feats := { x.feats with vendorEvents := v } }) u) := by
  have hb : badFeature u q.fn 0xC1 v [] = false := by simp [badFeature, bits_of_lt v 31 2 (by omega)]
  exact setFeatures_of_good q u v 0xC1 [] (by omega) rfl hb rfl

theorem setFeatures_saved : setFeatures q 0x08 true v [] u = done q .featureNotSaveable 0 0 u := rfl

theorem setFeatures_groupMode_late (hq : hasIoSq u q.fn = true) (h : v < 2) :
    setFeatures q 0xC0 false v [] u = done q .commandSequenceError 0 0 u := by
  have hv : v % 2 ^ 32 = v := Nat.mod_eq_of_lt (by omega)
  have hb : badFeature u q.fn 0xC0 v [] = false := by simp [badFeature, bits_of_lt v 31 1 (by omega)]
  have hid : featureIds.contains 0xC0 = true := rfl
  have hc : ((0xC0 : Nat) == 0xC0 || (0xC0 : Nat) == 0x07) = true := rfl
  simp only [setFeatures, hv, hid, hb, hq, hc, Bool.not_true, Bool.and_self, firstError_cons_false, firstError_cons_true,
    orElse]

end FeatureValues

/-- Settles O17: the queue commands, then event requests, then Features. -/
theorem queuesAndFeatures : Obligations.QueuesAndFeatures := by
  unfold Obligations.QueuesAndFeatures
  refine ⟨fun s u q id size base vector cqid prio ien hok hu h2 hmax h0 => ⟨exec_createIoCq_of_free hok hu h2 hmax h0,
      exec_createIoSq_of_free hok hu h2 hmax h0, exec_deleteIoSq_of_present hok hu h0, fun hm hf => ?_, fun hm hf => ?_⟩,
    fun s u q v hu => ⟨fun hok hlt hn => exec_asyncEventRequest_of_none hok hu hlt hn,
      fun hok hlt e he => exec_asyncEventRequest_of_some hok hu hlt e he,
      fun hok => ⟨?_, ?_, ?_, fun h => ?_, fun h => ?_, ?_, fun hq h => ?_⟩⟩⟩
  · have hfed : (getFn u q.fn).sqs.any (fun e => e.2.cqid == id) = false :=
      any_eq_false_of_forall _ _ (fun e he => by simp [hf e he])
    rw [exec_deleteIoCq_of_present hok hu h0 hm, hfed, if_neg (by decide)]
  · have hfed : (getFn u q.fn).sqs.any (fun e => e.2.cqid == id) = true := by
      obtain ⟨e, he, hc⟩ := hf
      exact List.any_eq_true.mpr ⟨e, he, by simp [hc]⟩
    rw [exec_deleteIoCq_of_present hok hu h0 hm, if_pos hfed]
  · rw [exec_getFeatures_eq hok hu v 0x01 0 (by decide), getFeatures_arbitration]
  · rw [exec_getFeatures_eq hok hu v 0xC1 0 (by decide), getFeatures_vendorEvents]
  · rw [exec_getFeatures_eq hok hu v 0x05 0 (by decide), getFeatures_unknown]
  · rw [exec_setFeatures_eq hok hu v 0x08 false [] (by decide), setFeatures_coalesce q u v h]
  · rw [exec_setFeatures_eq hok hu v 0xC1 false [] (by decide), setFeatures_vendorEvents q u v h]
  · rw [exec_setFeatures_eq hok hu v 0x08 true [] (by decide), setFeatures_saved]
  · rw [exec_setFeatures_eq hok hu v 0xC0 false [] (by decide), setFeatures_groupMode_late q u v hq h]

end Sys2Proof.Machine
/-!
PROOFS. Identify and Get Log Page (R46, R70, R71, R87); namespaces: create, delete, attach, detach, format, sanitize (R73, R89,
R105, R106, R147, R413).
-/

namespace Sys2Proof.Machine

/-! ### Identify -/

section Identify

variable {s u : State} {q : Sqe} {cns cntid : Nat}
  (hok : AdminOk { safeOk := true, len := 4096, toNs := nsScoped cns } q s) (hu : u = takeEntry q.fn 0 s)
  (hc : cns < 256) (hi : cntid < 65536)
include hok hu hc hi

theorem exec_identify_eq : exec (.identify q cns cntid) s = .next (identify q cns cntid u) := by
  rw [exec_identify, execIdentify, Nat.mod_eq_of_lt hc, Nat.mod_eq_of_lt hi, adminFetch_of_adminOk hok, ← hu]

variable (hp : nsScoped cns = true → q.nsid ≠ 0xFFFFFFFF → nsPending u q.nsid = false)
include hp

omit hok hu hc hi in
theorem identify_not_pending : (nsScoped cns && q.nsid != 0xFFFFFFFF && nsPending u q.nsid) = false := by
  cases hs : nsScoped cns with
  | false => rfl
  | true =>
    by_cases hn : q.nsid = 0xFFFFFFFF
    · simp [hn]
    · simp [hp hs hn]

theorem exec_identify_of_ok (b : Bytes) (hb : identifyData u q.fn q.nsid cns cntid = .ok b) :
    exec (.identify q cns cntid) s = .next (answer q b 0 u) := by
  rw [exec_identify_eq hok hu hc hi]
  simp only [identify, identify_not_pending hp, hb, Bool.false_eq_true, if_false]

theorem exec_identify_of_error (st : Status) (hb : identifyData u q.fn q.nsid cns cntid = .error st) :
    exec (.identify q cns cntid) s = .next (done q st 0 0 u) := by
  rw [exec_identify_eq hok hu hc hi]
  simp only [identify, identify_not_pending hp, hb, Bool.false_eq_true, if_false]

end Identify

theorem identifyData_of_unattached (s : State) (f nsid cntid : Nat) (h1 : 1 ≤ nsid) (h2 : nsid ≤ 1024)
    (hn : attachedNs s f nsid = none) : identifyData s f nsid 0x00 cntid = .ok (zeros 4096) := by
  have h0 : ¬ (decide (nsid = 0) || decide (1024 < nsid)) = true := by simp; omega
  have hall : nsid ≠ 0xFFFFFFFF := by omega
  simp only [identifyData, if_neg hall, if_neg h0, hn, Option.map_none, Option.getD_none]

/-! ### Get Log Page -/

section Logs

variable {s u : State} {q : Sqe} {numd off : Nat} (hok : AdminOk { safeOk := true, len := (numd + 1) * 4 } q s)
  (hu : u = takeEntry q.fn 0 s) (hn : (numd + 1) * 4 ≤ 2097152)

theorem logBytes_strokeLog (f : Nat) (u : State) : logBytes f 0xC1 u = (some (strokeLog u), u) := rfl

theorem logBytes_unknown (f : Nat) (u : State) : logBytes f 0xD0 u = (none, u) := rfl

include hok hu hn

theorem exec_getLogPage_eq (lid : Nat) (hl : lid < 256) : exec (.getLogPage q lid 0 numd off ⟨true, []⟩) s =
    .next (getLogPage q lid 0 numd off true [] u) := by
  have hmod : numd % 2 ^ 32 = numd := Nat.mod_eq_of_lt (by omega)
  rw [exec_getLogPage, execGetLogPage]
  simp only [hmod, Nat.mod_eq_of_lt hl, Nat.zero_mod, adminFetch_of_adminOk hok, ← hu]

theorem exec_getLogPage_strokeLog (h4 : off % 4 = 0) : exec (.getLogPage q 0xC1 0 numd off ⟨true, []⟩) s =
    .next (if (strokeLog u).length ≤ off then done q .invalidField 0 0 u
      else answer q (slice (strokeLog u) off ((numd + 1) * 4)) 0 u) := by
  have hbad : (0 != 0 || off % 4 != 0 || decide ((strokeLog u).length ≤ off) || decide (2097152 < (numd + 1) * 4)) =
      decide ((strokeLog u).length ≤ off) := by simp [h4, hn]
  have hlid : ¬ (0xC1 : Nat) = 0xC0 := by decide
  rw [exec_getLogPage_eq hok hu hn 0xC1 (by decide)]
  simp only [getLogPage, if_neg hlid, logBytes_strokeLog, hbad, decide_eq_true_eq, if_true]

theorem exec_getLogPage_unknown :
    exec (.getLogPage q 0xD0 0 numd off ⟨true, []⟩) s = .next (done q .invalidLogPage 0 0 u) := by
  have hlid : ¬ (0xD0 : Nat) = 0xC0 := by decide
  rw [exec_getLogPage_eq hok hu hn 0xD0 (by decide)]
  simp only [getLogPage, if_neg hlid, logBytes_unknown]

end Logs

/-- Settles O19: Identify by what its structure is, then Log C1h by the offset and an unknown log page. -/
theorem identifyAndLogs : Obligations.IdentifyAndLogs := by
  unfold Obligations.IdentifyAndLogs
  intro s u q cns cntid numd off hu
  refine ⟨fun hok hc hi hp => ⟨exec_identify_of_ok hok hu hc hi hp, exec_identify_of_error hok hu hc hi hp, fun h1 => ?_,
    fun h0 hlo hhi hn => ?_, fun h20 => ?_⟩, fun hok hn h4 => ⟨fun hlt => ?_, fun hle => ?_, exec_getLogPage_unknown hok hu hn⟩⟩
  · exact exec_identify_of_ok hok hu hc hi hp _ (by rw [h1]; rfl)
  · exact exec_identify_of_ok hok hu hc hi hp _ (by rw [h0]; exact identifyData_of_unattached _ _ _ _ hlo hhi hn)
  · exact exec_identify_of_error hok hu hc hi hp _ (by rw [h20]; rfl)
  · rw [exec_getLogPage_strokeLog hok hu hn h4, if_neg (Nat.not_le.mpr hlt)]
  · rw [exec_getLogPage_strokeLog hok hu hn h4, if_pos hle]

/-! ### Namespace management and attachment -/

section Manage

variable {s u : State} {q : Sqe} (hu : u = takeEntry q.fn 0 s)

theorem orElse_of_none (k : State → State) : orElse q none k u = k u := rfl

theorem orElse_of_some (st : Status) (k : State → State) : orElse q (some st) k u = done q st 0 0 u := rfl

theorem namedNs_of_one (h : q.nsid ≠ 0xFFFFFFFF) : namedNs u q.nsid = [q.nsid] := if_neg h

theorem firstBad_singleton (p : Nat → Option Status) (n : Nat) : firstBad p [n] = p n := by
  unfold firstBad
  cases p n <;> rfl

theorem addEach_singleton (k : TransKind) (n : Nat) : addEach k q [n] u = addTrans (.ns n) k q u := rfl

theorem any_contains_false (x : Ns) (fs : List Nat) (h : ∀ f ∈ fs, x.attached.contains f = false) :
    fs.any x.attached.contains = false := any_eq_false_of_forall _ _ h

include hu

theorem exec_namespaceCreate_of_good (data : Bytes)
    (hok : AdminOk { pfOnly := true, nsid0 := true, len := 4096, got := some data.length } q s)
    (hc : createError u (fixLen 4096 data) = none) :
    exec (.namespaceCreate q data) s = .next (addTrans (.ns 0) (.nsCreate (fixLen 4096 data)) q u) := by
  rw [exec_namespaceCreate, execNamespaceCreate, adminFetch_of_adminOk hok, ← hu]
  simp only [nsCreate, hc, orElse_of_none]

theorem exec_namespaceDelete_eq (hok : AdminOk { pfOnly := true, toNs := true } q s) (hall : q.nsid ≠ 0xFFFFFFFF) :
    exec (.namespaceDelete q) s =
      .next (orElse q (deleteError u q.nsid) (fun a => addTrans (.ns q.nsid) .nsDelete q a) u) := by
  rw [exec_namespaceDelete, execNamespaceDelete, adminFetch_of_adminOk hok, ← hu, nsDelete, namedNs_of_one hall,
    firstBad_singleton]
  rfl

end Manage

section Checks

variable {u : State} {nsid : Nat} {x : Ns} {fs : List Nat} (hx : getNs u nsid = some x) (hb : x.busy ≠ .converting)
  (hp : nsPending u nsid = false)
include hx hb hp

theorem deleteError_eq : deleteError u nsid = if !x.holds.isEmpty then some .holdActive
    else if flowsHeld u nsid (fun _ => true) then some .commandSequenceError else none := by
  have hb' : (x.busy == .converting) = false := by simpa using hb
  simp only [deleteError, hx, hb', hp, firstError_cons_false]
  rfl

theorem attachError_of_good (hc : badCtrls fs = false) (ha : ∀ f ∈ fs, x.attached.contains f = false) :
    attachError u nsid fs = none := by
  have hb' : (x.busy == .converting) = false := by simpa using hb
  simp only [attachError, hx, hc, hb', hp, any_contains_false x fs ha, firstError_cons_false, firstError_nil]

theorem detachError_of_good (hc : badCtrls fs = false) (ha : ∀ f ∈ fs, x.attached.contains f = true) (hh : x.holds = [])
    (hf : flowsHeld u nsid fs.contains = false) : detachError u nsid fs = none := by
  have hb' : (x.busy == .converting) = false := by simpa using hb
  have hall : fs.all x.attached.contains = true := List.all_eq_true.mpr ha
  simp only [detachError, hx, hc, hb', hp, hall, hh, hf, List.isEmpty_nil, Bool.not_true, firstError_cons_false,
    firstError_nil]

end Checks

theorem exec_unitTransitionCommit_of_due (s : State) (h0 : s.time.frac = 0) (hd : ∀ t ∈ s.trans, transDue s t = true) :
    exec .unitTransitionCommit s = .next (s.trans.foldl (fun a t => commitTrans t a) { s with trans := [] }) := by
  have hgo : s.trans.filter (transDue s) = s.trans := List.filter_eq_self.mpr hd
  have hrest : s.trans.filter (fun t => !transDue s t) = [] :=
    List.filter_eq_nil_iff.mpr (fun t ht => by simp [hd t ht])
  simp only [exec_unitTransitionCommit, execUnitTransitionCommit, h0, if_true, commitDue, hgo, hrest]

/-! ### Format NVM and Sanitize -/

theorem getNs_of_attachedNs {s : State} {f nsid : Nat} {x : Ns} (h : attachedNs s f nsid = some x) : getNs s nsid = some x := by
  unfold attachedNs at h
  split at h
  · next y hy =>
    split at h
    · rw [hy, Option.some.inj h]
    · cases h
  · cases h

theorem formatError_of_idle (u : State) (f lbaf ses nsid : Nat) (x : Ns) (hx : attachedNs u f nsid = some x)
    (hp : nsPending u nsid = false) (hh : x.holds = []) (hl : lbaf < 2) (hs : ses < 3) (hb : x.busy = .none) :
    formatError u f lbaf ses nsid = if x.sealed then some .sealedRange else none := by
  have hconv : converting u nsid = false := by simp [converting, getNs_of_attachedNs hx, hb]
  have hl' : decide (2 ≤ lbaf) = false := by simp [hl]
  have hs' : decide (3 ≤ ses) = false := by simp [hs]
  have hf : (x.busy == .formatting) = false := by rw [hb]; rfl
  have hz : (x.busy == .sanitizing) = false := by rw [hb]; rfl
  simp only [formatError, hconv, Bool.false_eq_true, if_false, hx, hp, hh, hl', hs', hf, hz, List.isEmpty_nil, Bool.not_true,
    firstError_cons_false]
  rfl

theorem sanitizeError_of_quiet (u : State) (hm : u.mode.cur = .run) (hw : u.mode.wantSanitize = none) (ht : u.trans = [])
    (hh : ∀ e ∈ u.nss, e.2.holds = []) : sanitizeError u = none := by
  have hp : u.nss.any (fun e => nsPending u e.1) = false :=
    any_eq_false_of_forall _ _ (fun e _ => by simp [nsPending, ht])
  have hn : u.nss.any (fun e => !e.2.holds.isEmpty) = false :=
    any_eq_false_of_forall _ _ (fun e he => by simp [hh e he])
  have hmode : (u.mode.cur == .sanitize || u.mode.wantSanitize.isSome) = false := by rw [hm, hw]; rfl
  simp only [sanitizeError, hmode, hp, hn, ht, List.any_nil, Bool.or_self, firstError_cons_false, firstError_nil]

/-- Settles O20: each command by what its checks find, and the commits. -/
theorem namespaces : Obligations.Namespaces := by
  unfold Obligations.Namespaces
  refine ⟨fun s u q data fs x hu => ⟨exec_namespaceCreate_of_good hu data, fun hall hx hb hp =>
      ⟨fun hok hh hf => ?_, fun hok hh => ?_, fun hok hc => ⟨fun ha => ?_, fun ha hh hf => ?_⟩⟩,
      exec_unitTransitionCommit_of_due s, fun h0 => by simp [execUnitTransitionCommit, h0]⟩,
    fun s u q lbaf ses x hu => ⟨fun hok hall hx hp hh hl hs hb => ?_, fun hok hm hw ht hh => ?_, fun nsid hx hb => ?_,
      fun hm hb => ?_⟩⟩
  · rw [exec_namespaceDelete_eq hu hok hall, deleteError_eq hx hb hp, hh, hf]
    rfl
  · rw [exec_namespaceDelete_eq hu hok hall, deleteError_eq hx hb hp, if_pos (by simpa using hh)]
    rfl
  · rw [exec_namespaceAttach, execNamespaceAttach, adminFetch_of_adminOk hok, ← hu, nsAttach, attachError_of_good hx hb hp hc ha]
    rfl
  · rw [exec_namespaceDetach, execNamespaceDetach, adminFetch_of_adminOk hok, ← hu, nsDetach,
      detachError_of_good hx hb hp hc ha hh hf]
    rfl
  · have hform : exec (.formatNvm q lbaf ses) s = .next (orElse q (formatError u q.fn lbaf ses q.nsid)
        (fun a => addTrans (.ns q.nsid) (.format lbaf ses) q a) u) := by
      rw [exec_formatNvm, execFormatNvm, adminFetch_of_adminOk hok, ← hu, formatNvm, namedNs_of_one hall, firstBad_singleton]
      rfl
    rw [hform, formatError_of_idle u q.fn lbaf ses q.nsid x hx hp hh hl hs hb]
    exact ⟨fun h => by rw [h]; rfl, fun h => by rw [h]; rfl⟩
  · rw [exec_sanitizeCryptoErase, execSanitizeCryptoErase, exec_sanitizeBlockErase, execSanitizeBlockErase,
      adminFetch_of_adminOk hok, adminFetch_of_adminOk hok, ← hu, sanitize, sanitize, sanitizeError_of_quiet u hm hw ht hh]
    exact ⟨rfl, rfl⟩
  · simp [execFormatDone, hx, hb]
  · simp [execSanitizeDone, hm, hb]

end Sys2Proof.Machine
/-!
PROOFS. Virtualization Management, Device Self-test and the Streams directive (R54, R55, R70, R102, R194).
-/

namespace Sys2Proof.Machine

/-! ### Virtualization Management -/

section Virtual

variable {s u : State} {q : Sqe} {f nr : Nat} (hok : AdminOk { pfOnly := true, nsid0 := true } q s)
  (hu : u = takeEntry q.fn 0 s) (h1 : 1 ≤ f) (h127 : f ≤ 127) (hp : fnPending u f = false)

theorem badCntlid_of_vf (h1 : 1 ≤ f) (h127 : f ≤ 127) : (f == 0 || decide (127 < f)) = false := by
  simp; omega

include hok hu h1 h127 hp

theorem exec_vmAssignResources_of_online (ho : online u f = true) :
    exec (.vmAssignResources q f false 0 nr) s = .next (done q .invalidSecondaryState 0 0 u) := by
  rw [exec_vmAssignResources, execVmAssignResources, adminFetch_of_adminOk hok, ← hu]
  simp only [vmAssign, Bool.false_eq_true, if_false, badCntlid_of_vf h1 h127, hp, ho, Bool.not_false, Bool.and_self,
    Bool.and_false, Nat.reduceLeDiff, decide_false, firstError_cons_false, firstError_cons_true, orElse_of_some]

theorem exec_vmAssignResources_of_offline (ho : online u f = false) (hb : badResources u f 0 nr = false) :
    exec (.vmAssignResources q f false 0 nr) s =
      .next (done q .success nr 0 (showFn f (updFn f (fun x => { x with flexQ := nr }) u))) := by
  rw [exec_vmAssignResources, execVmAssignResources, adminFetch_of_adminOk hok, ← hu]
  simp only [vmAssign, Bool.false_eq_true, if_false, badCntlid_of_vf h1 h127, hp, ho, hb, Bool.and_false,
    Nat.reduceLeDiff, decide_false, firstError_cons_false, firstError_nil, orElse_of_none, if_true]

theorem exec_vmOffline_of_online (ho : online u f = true) :
    exec (.vmOffline q f) s = .next (startFlr f 1 (addTrans (.func f) .offline q u)) := by
  rw [exec_vmOffline, execVmOffline, adminFetch_of_adminOk hok, ← hu]
  simp only [vmOffline, badCntlid_of_vf h1 h127, hp, firstError_cons_false, firstError_nil, orElse_of_none, ho, if_true]

theorem exec_vmOnline_of_ready (ho : online u f = false) (hv : f ≤ u.numVfs) (hn : noFollower u f = false)
    (hq : queuePairs u f ≠ 0) (hx : vectors u f ≠ 0) :
    exec (.vmOnline q f) s = .next (addTrans (.func f) .online q u) := by
  have hsec : (decide (u.numVfs < f) || noFollower u f) = false := by simp [hv, hn]
  have hres : (queuePairs u f == 0 || vectors u f == 0) = false := by simp [hq, hx]
  rw [exec_vmOnline, execVmOnline, adminFetch_of_adminOk hok, ← hu]
  simp only [vmOnline, badCntlid_of_vf h1 h127, hp, hsec, hres, Bool.and_false, firstError_cons_false, firstError_nil,
    orElse_of_none, ho, Bool.false_eq_true, if_false]

end Virtual

/-! ### Device Self-test -/

theorem selfTest_of_start (q : Sqe) (stc : Nat) (u : State) (h : stc = 1 ∨ stc = 2) (hn : u.mon.selfTest = 0) :
    selfTest q stc u = done q .success 0 0 { u with mon := { u.mon with selfTest := stc } } := by
  rcases h with rfl | rfl <;> simp [selfTest, hn]

theorem selfTest_of_end (q : Sqe) (u : State) :
    selfTest q 15 u = done q .success 0 0 { u with mon := { u.mon with selfTest := 0 } } := rfl

/-! ### Directives (R194) -/

section Directive

variable {u : State} {q : Sqe} {x : Ns} (hx : attachedNs u q.fn q.nsid = some x) (hb : x.busy = .none)
  (hp : nsPending u q.nsid = false)
include hx hb hp

theorem onDirective_of_ready (streams : Bool) (k : Ns → State → State)
    (hs : (streams && !x.dirOn.contains q.fn) = false) : onDirective q streams k u = k x u := by
  have hconv : converting u q.nsid = false := by simp [converting, getNs_of_attachedNs hx, hb]
  have hst : x.busy.status = none := by rw [hb]; rfl
  simp only [onDirective, hconv, Bool.false_eq_true, if_false, hx, hp, hst, hs]

theorem directiveSend_enable : directiveSend q 0 1 0x101 u =
    done q .success 0 0 (updNs q.nsid (fun y => { y with dirOn := insertNat q.fn y.dirOn }) u) := by
  rw [directiveSend, onDirective_of_ready hx hb hp _ _ rfl]
  rfl

theorem directiveSend_release (hd : x.dirOn.contains q.fn = true) : directiveSend q 1 2 0 u =
    done q .success 0 0 (updNs q.nsid (fun y => { y with dirStreams := [] }) u) := by
  rw [directiveSend, onDirective_of_ready hx hb hp _ _ (by rw [hd]; rfl)]
  rfl

theorem directiveReceive_allocate (hd : x.dirOn.contains q.fn = true) (value : Nat) (hv : value < 65536) :
    directiveReceive q 1 3 0 value u = done q .success (min value (15 - streamsTaken u q.nsid)) 0
      (updNs q.nsid (fun y =>
        { y with dirStreams := (List.range (min value (15 - streamsTaken u q.nsid))).map (· + 1) }) u) := by
  have hbits : bits value 15 0 = value := by
    simp only [bits, pow_zero, Nat.div_one]
    exact Nat.mod_eq_of_lt (by omega)
  rw [directiveReceive, onDirective_of_ready hx hb hp _ _ (by rw [hd]; rfl), hbits]
  rfl

theorem directiveReceive_params (numd : Nat) :
    directiveReceive q 1 1 numd 0 u = answer q (fixLen ((numd + 1) * 4) (streamParams u x)) 0 u := by
  rw [directiveReceive, onDirective_of_ready hx hb hp _ _ rfl]
  rfl

end Directive

/-- Settles O21: the three Virtualization Management actions, the self-test, and the Streams directive. -/
theorem virtualizationAndDirectives : Obligations.VirtualizationAndDirectives := by
  unfold Obligations.VirtualizationAndDirectives
  refine ⟨fun s u q f nr hok hu h1 h127 hp => ⟨fun ho hb => exec_vmAssignResources_of_offline hok hu h1 h127 hp ho hb,
      fun ho => ⟨exec_vmAssignResources_of_online hok hu h1 h127 hp ho, exec_vmOffline_of_online hok hu h1 h127 hp ho⟩,
      fun ho hv hn hq hx => exec_vmOnline_of_ready hok hu h1 h127 hp ho hv hn hq hx⟩,
    fun s u q stc numd value x hu => ⟨fun hok => ⟨fun h hn => ?_, ?_⟩,
      fun hok hx hb hp => ⟨?_, fun hd => ⟨?_, fun hv k hk => ?_⟩⟩, fun hok hn hx hb hp => ?_⟩⟩
  · rw [exec_deviceSelfTest, execDeviceSelfTest, adminFetch_of_adminOk hok, ← hu, selfTest_of_start q stc u h hn]
  · rw [exec_deviceSelfTest, execDeviceSelfTest, adminFetch_of_adminOk hok, ← hu, selfTest_of_end]
  · rw [exec_directiveSend, execDirectiveSend, adminFetch_of_adminOk hok, ← hu, directiveSend_enable hx hb hp]
  · rw [exec_directiveSend, execDirectiveSend, adminFetch_of_adminOk hok, ← hu, directiveSend_release hx hb hp hd]
  · have hrow := adminFetch_of_adminOk hok (directiveReceive q 1 3 0 value)
    rw [← hu, directiveReceive_allocate hx hb hp hd value hv, ← hk] at hrow
    exact hrow
  · have hrow := adminFetch_of_adminOk hok (directiveReceive q 1 1 numd 0)
    rw [← hu, directiveReceive_params hx hb hp numd] at hrow
    rw [exec_directiveReceive, execDirectiveReceive, Nat.mod_eq_of_lt hn]
    exact hrow

end Sys2Proof.Machine
/-!
PROOFS. GRAPH LOAD, START, RESULT and RELEASE (R87, R92, R272 to R275, R285).
-/

namespace Sys2Proof.Machine

/-- An I/O entry of an assigned opcode that its queue delivers is fetched and charged, and its command runs. -/
theorem ioFetch_of_ioOk {q : Sqe} {s u : State} (h : IoOk q s u) (k : State → State) : ioFetch q k s = .next (k u) := by
  obtain ⟨hgate, hlocal, hknown, hfetched⟩ := h
  simp only [ioFetch, hgate, if_true, hlocal, hknown, Bool.false_eq_true, if_false, ← hfetched]

section Graphs

variable {s u : State} {q : Sqe} (hok : IoOk q s u) (he : badEntry q = false) (hn0 : q.nsid = 0)

theorem onZero_of_good (he : badEntry q = false) (hn0 : q.nsid = 0) (len : Nat) (hl : len ≤ 2097152) (k : State → State) :
    onZero q len k u = orElse q (if len = 0 then none else xferError q.xfer false len) k u := by
  have h : ¬ (badEntry q || q.nsid != 0 || decide (2097152 < len)) = true := by simp [he, hn0, hl]
  rw [onZero, if_neg h]

/-! ### GRAPH LOAD -/

section Load

variable (numd off total : Nat) (data : Bytes)

include hok he hn0 in
theorem exec_graphLoad_eq (hnumd : numd < 2 ^ 19) (ho : off < 2 ^ 32) (ht : total ≤ 64 * 2 ^ 20)
    (hx : xferError q.xfer false ((numd + 1) * 4) = none) : exec (.graphLoad q numd off total data) s =
      .next (orElse q (shortData ((numd + 1) * 4) data) (loadPart q numd off total data) u) := by
  rw [exec_graphLoad, execGraphLoad, Nat.mod_eq_of_lt (by omega : numd < 2 ^ 32), Nat.mod_eq_of_lt ho,
    Nat.mod_eq_of_lt (by omega : total < 2 ^ 32)]
  simp only [ioFetch_of_ioOk hok]
  rw [onZero_of_good he hn0 _ (by omega), if_neg (by omega), hx, orElse_of_none]

theorem shortData_of_whole (h : (numd + 1) * 4 ≤ data.length) : shortData ((numd + 1) * 4) data = none :=
  if_neg (Nat.not_lt.mpr h)

/-- A part that the function can pay for: its bytes are charged, and where it lies in the image decides. -/
theorem loadPart_of_affords (ha : affords u q.fn .wrBytes = true) (hm : mayMove u q.fn = true) (ht : total ≤ 64 * 2 ^ 20)
    (v : State) (hv : v = charge q.fn .wrBytes (numdData numd data).length u) (have_ : Bytes)
    (hh : have_ = if off = 0 then [] else partialOf u q.fn) :
    loadPart q numd off total data u =
      if off != have_.length then done q .invalidField 0 0 (setPartial q.fn none (loadRefused q.fn 1 0 v))
      else if total < off + (numdData numd data).length then done q .lengthMismatch 0 0 (setPartial q.fn none v)
      else if off + (numdData numd data).length = total then finishLoad q (have_ ++ numdData numd data) v
      else done q .success 0 0 (setPartial q.fn (some (have_ ++ numdData numd data)) v) := by
  have hpay : ¬ (!affords u q.fn .wrBytes || !mayMove u q.fn) = true := by simp [ha, hm]
  unfold loadPart
  simp only [if_neg hpay, if_neg (Nat.not_lt.mpr ht), ← hv, ← hh]

theorem loadPart_first (ha : affords u q.fn .wrBytes = true) (hm : mayMove u q.fn = true) (ht : total ≤ 64 * 2 ^ 20)
    (v : State) (hv : v = charge q.fn .wrBytes (numdData numd data).length u) (h0 : off = 0)
    (hlt : (numdData numd data).length < total) :
    loadPart q numd off total data u = done q .success 0 0 (setPartial q.fn (some (numdData numd data)) v) := by
  subst h0
  have h1 : ¬ total < 0 + (numdData numd data).length := by omega
  have h2 : ¬ 0 + (numdData numd data).length = total := by omega
  rw [loadPart_of_affords numd 0 total data ha hm ht v hv [] rfl, if_neg (by decide), if_neg h1, if_neg h2, List.nil_append]

theorem loadPart_last (ha : affords u q.fn .wrBytes = true) (hm : mayMove u q.fn = true) (ht : total ≤ 64 * 2 ^ 20)
    (v : State) (hv : v = charge q.fn .wrBytes (numdData numd data).length u) (hoff : off = (partialOf u q.fn).length)
    (h0 : off ≠ 0) (hend : off + (numdData numd data).length = total) :
    loadPart q numd off total data u = finishLoad q (partialOf u q.fn ++ numdData numd data) v := by
  rw [loadPart_of_affords numd off total data ha hm ht v hv (partialOf u q.fn) (if_neg h0).symm,
    if_neg (by simp [hoff]), if_neg (by omega), if_pos hend]

theorem loadPart_out_of_order (ha : affords u q.fn .wrBytes = true) (hm : mayMove u q.fn = true) (ht : total ≤ 64 * 2 ^ 20)
    (v : State) (hv : v = charge q.fn .wrBytes (numdData numd data).length u) (hoff : off ≠ (partialOf u q.fn).length)
    (h0 : off ≠ 0) : loadPart q numd off total data u =
      done q .invalidField 0 0 (setPartial q.fn none (loadRefused q.fn 1 0 v)) := by
  rw [loadPart_of_affords numd off total data ha hm ht v hv (partialOf u q.fn) (if_neg h0).symm, if_pos (by simpa using hoff)]

end Load

/-! ### GRAPH START, RESULT and RELEASE -/

variable (h tag limit run numd : Nat) (g : Graph)

include hok he hn0

theorem exec_graphStart_eq (hh : h < 65536) (ht : tag < 2 ^ 32) (hl : limit < 65536) :
    exec (.graphStart q h tag limit) s = .next (startGraph q h tag limit u) := by
  rw [exec_graphStart, execGraphStart, Nat.mod_eq_of_lt hh, Nat.mod_eq_of_lt ht, Nat.mod_eq_of_lt hl, ioFetch_of_ioOk hok,
    onZero_of_good he hn0 0 (by omega), if_pos rfl, orElse_of_none]

theorem exec_graphResult_of_live (hh : h < 65536) (hr : run < 65536) (hnumd : numd < 2 ^ 19)
    (hx : xferError q.xfer false ((numd + 1) * 4) = none) (hg : ownGraph u q.fn h = some g)
    (hs : startPending u h = false) (hlive : runLive g = true) (r : GRun) (hrun : g.run = some r) (hid : r.id = run) :
    exec (.graphResult q h run numd true) s = .next (addCmd
      { fn := q.fn, sqid := q.sqid, cid := q.cid, nsid := 0, order := 0, kind := .graphResult h run ((numd + 1) * 4) } u) := by
  rw [exec_graphResult, execGraphResult, Nat.mod_eq_of_lt hh, Nat.mod_eq_of_lt hr, Nat.mod_eq_of_lt (by omega : numd < 2 ^ 32)]
  simp only [ioFetch_of_ioOk hok]
  rw [onZero_of_good he hn0 _ (by omega), if_neg (by omega), hx, orElse_of_none]
  have hf : g.run.filter (fun r => r.id == run) = some r := by
    rw [hrun]
    simp [Option.filter, hid]
  simp only [graphResult, hg, hs, hf, hlive, Bool.false_and, Bool.false_eq_true, if_false, Bool.and_self, if_true]

theorem exec_graphRelease_of_idle (hh : h < 65536) (hx : xferError q.xfer false 4 = none)
    (ha : affords u q.fn .wrBytes = true) (hm : mayMove u q.fn = true)
    (hg : ownGraph (charge q.fn .wrBytes 4 u) q.fn h = some g) (hr : runLive g = false)
    (hs : startPending (charge q.fn .wrBytes 4 u) h = false) :
    exec (.graphRelease q 0 0 h 0) s = .next (done q .success 0 0 (releaseGraph h (charge q.fn .wrBytes 4 u))) := by
  have hpay : ¬ (!affords u q.fn .wrBytes || !mayMove u q.fn) = true := by simp [ha, hm]
  have hrow : exec (.graphRelease q 0 0 h 0) s =
      ioFetch q (onZero q 4 (releaseOne q 0 0 (h % 65536) 0)) s := rfl
  rw [hrow, ioFetch_of_ioOk hok, onZero_of_good he hn0 4 (by omega), if_neg (by omega), hx, orElse_of_none,
    Nat.mod_eq_of_lt hh]
  simp only [releaseOne, if_neg hpay, Nat.zero_add, Nat.one_mul, bne_self_eq_false, Bool.or_self, Bool.false_eq_true,
    if_false, hg, hr, hs]

end Graphs

theorem startGraph_of_own (q : Sqe) (h tag limit : Nat) (u : State) (g : Graph) (hg : ownGraph u q.fn h = some g)
    (hs : startPending u h = false) : startGraph q h tag limit u = if runLive g then done q .commandSequenceError 0 0 u
      else { u with duct := { u.duct with starts := u.duct.starts ++ [
        { graph := h, tag := tag, limit := limit, fn := q.fn, sqid := q.sqid, cid := q.cid, at_ := now u }] } } := by
  simp only [startGraph, hg, hs, Bool.or_false]

/-- Settles O22: a part by its place in the image, then the commands to a graph by whether it runs. -/
theorem graphCommands : Obligations.GraphCommands := by
  unfold Obligations.GraphCommands
  intro s u q numd off total tag limit h run data g hok he hn0 hnumd ho ht hh hr htag hlim
  refine ⟨fun hx hlen ha hm v hv => ⟨fun h0 hlt => ?_, fun hoff h0 hend => ?_, fun hoff h0 => ?_⟩, fun hlt hx => ?_,
    fun hg hs => ⟨fun hl => ?_, fun hl => ?_, fun hl hx r hrun hid =>
      exec_graphResult_of_live hok he hn0 h run numd g hh hr hnumd hx hg hs hl r hrun hid⟩,
    fun hx ha hm hg hl hs => exec_graphRelease_of_idle hok he hn0 h g hh hx ha hm hg hl hs⟩
  · rw [exec_graphLoad_eq hok he hn0 numd off total data hnumd ho ht hx, shortData_of_whole numd data hlen, orElse_of_none,
      loadPart_first numd off total data ha hm ht v hv h0 hlt]
  · rw [exec_graphLoad_eq hok he hn0 numd off total data hnumd ho ht hx, shortData_of_whole numd data hlen, orElse_of_none,
      loadPart_last numd off total data ha hm ht v hv hoff h0 hend]
  · rw [exec_graphLoad_eq hok he hn0 numd off total data hnumd ho ht hx, shortData_of_whole numd data hlen, orElse_of_none,
      loadPart_out_of_order numd off total data ha hm ht v hv hoff h0]
  · rw [exec_graphLoad_eq hok he hn0 numd off total data hnumd ho ht hx, shortData, if_pos hlt, orElse_of_some]
  · rw [exec_graphStart_eq hok he hn0 h tag limit hh htag hlim, startGraph_of_own q h tag limit u g hg hs, hl,
      if_neg (by decide)]
  · rw [exec_graphStart_eq hok he hn0 h tag limit hh htag hlim, startGraph_of_own q h tag limit u g hg hs, if_pos hl]

end Sys2Proof.Machine
/-!
PROOFS. KEY BLOB LOAD, firmware packages and boot copies (R307 to R309, R376 to R381).
-/

namespace Sys2Proof.Machine

/-! ### KEY BLOB LOAD -/

section KeyBlob

variable {s u : State} {q : Sqe} {numd slot wrap : Nat} {blob : Bytes}

theorem exec_keyBlobLoad_eq
    (hok : AdminOk { pfOnly := true, len := (numd + 1) * 4, toNs := true, got := some blob.length } q s)
    (hu : u = takeEntry q.fn 0 s) (hn : numd < 2 ^ 32) (hs : slot < 1024) (hw : wrap < 4) :
    exec (.keyBlobLoad q numd slot wrap blob) s = .next (startBlob q numd slot wrap (numdData numd blob) u) := by
  rw [exec_keyBlobLoad, execKeyBlobLoad]
  simp only [Nat.mod_eq_of_lt hn, Nat.mod_eq_of_lt hs, Nat.mod_eq_of_lt hw, adminFetch_of_adminOk hok, ← hu]

theorem loadBlob_of_good (q : Sqe) (numd slot wrap : Nat) (b : Bytes) (v : State) (h0 : q.nsid = 0)
    (hb : blobError v 0 numd slot wrap b = none) :
    loadBlob q numd slot wrap b v = done q .success 0 0 (applyBlob 0 slot wrap b v) := by
  simp only [loadBlob, h0, hb]

/-- A blob for a key slot: its form decides whether the signature unit is asked. -/
theorem startBlob_of_slot (q : Sqe) (numd slot wrap : Nat) (b : Bytes) (u : State) (h0 : q.nsid = 0) :
    startBlob q numd slot wrap b u =
      if (blobForm u 0 numd slot wrap b).isNone && byteAt b 4 == 0 then
        (if signIdle u then loadBlob q numd slot wrap b (spendSign (qosOf u q.fn).cls u)
         else pushSign (.cmd (.blob q numd slot wrap b)) u)
      else loadBlob q numd slot wrap b u := by
  simp only [startBlob, h0, bne_self_eq_false, Bool.false_and, Bool.false_eq_true, if_false]

theorem startBlob_of_missing (q : Sqe) (numd slot wrap : Nat) (b : Bytes) (u : State) (h0 : q.nsid ≠ 0)
    (hn : getNs u q.nsid = none) : startBlob q numd slot wrap b u = done q .invalidNamespaceOrFormat 0 0 u := by
  have h : (q.nsid != 0 && (getNs u q.nsid).isNone) = true := by simp [h0, hn]
  simp only [startBlob, h, if_true]

end KeyBlob

/-! ### Firmware packages -/

/-- The first part of a package, less than its header: it is stored in the erased staging area (R377). -/
theorem firmwareDownload_of_first (q : Sqe) (part : Bytes) (u : State) (hc : flagF u FWU_STATUS_COPY_DUE = false)
    (hl : part.length < 1024) : firmwareDownload q 0 part false u =
      done q .success 0 0 (setF FWU_RECEIVED part.length (inkWriteBytes stagingBase part (newPackage u))) := by
  simp only [firmwareDownload, bne_self_eq_false, Bool.false_and, Bool.false_eq_true, if_false, hc, if_true, takePart,
    Nat.zero_add, Nat.add_zero, hl]

theorem exec_firmwareDownload_of_first {s u : State} {q : Sqe} {numd : Nat} {data : Bytes} (hu : u = takeEntry q.fn 0 s)
    (hok : AdminOk { pfOnly := true, safeOk := true, nsid0 := true, len := (numd + 1) * 4, got := some data.length } q s)
    (hn : numd < 255) (hc : flagF u FWU_STATUS_COPY_DUE = false) : exec (.firmwareDownload q 0 numd data false) s =
      .next (done q .success 0 0 (setF FWU_RECEIVED ((numd + 1) * 4)
        (inkWriteBytes stagingBase (fixLen ((numd + 1) * 4) data) (newPackage u)))) := by
  have hmod : numd % 2 ^ 32 = numd := Nat.mod_eq_of_lt (by omega)
  have hsize : ¬ 2097152 < (numd + 1) * 4 := by omega
  have hlen : (fixLen ((numd + 1) * 4) data).length = (numd + 1) * 4 := length_fixLen _ _
  rw [exec_firmwareDownload, execFirmwareDownload]
  simp only [hmod, adminFetch_of_adminOk hok, ← hu, if_neg hsize, Nat.zero_mod, Nat.zero_mul]
  rw [firmwareDownload_of_first q _ u hc (by omega), hlen]

section Commit

variable (q : Sqe) (u : State)

theorem firmwareCommit_of_slot1 : firmwareCommit q 1 0 u = done q .invalidFirmwareSlot 0 0 u := rfl

/-- Commit with action 0 to the slot of staged packages (R378). -/
theorem firmwareCommit_of_stage (hn : u.fw.commit = none) : firmwareCommit q 2 0 u =
    if packageOk u then done q .success 0 0 (setF FWU_STATUS_STAGE 4 u)
    else done q .invalidFirmwareImage 0 0 (reject 8 u) := by
  have hslot : ¬ (decide ((2 : Nat) = 1) || decide (2 < 2)) = true := by decide
  simp only [firmwareCommit, if_neg hslot, hn, Option.isSome_none, Bool.false_eq_true, if_false, Nat.reduceLeDiff,
    if_true]
  cases packageOk u <;> rfl

end Commit

section Activate

variable {s v : State} (us : Nat)

theorem exec_activateBegin_of_wanted (hb : mayBegin s = true) (hw : s.mode.wantActivate = true) (hm : s.mode.cur = .run)
    (hs : s.mode.stop = none) : exec .activateBegin s = .next (beginActivate s) := by
  simp [execActivateBegin, hb, hw, hm, hs, Mode.working]

/-- The end of ACTIVATE towards LEAN: `good` is the self-check of a good package. -/
theorem exec_activateEnd_of_lean (hv : v = atFrac 0 s) (ok : Bool) (hm : v.mode.cur = .activate) (hl : v.mode.lastOp = .lean)
    (good : Bool) (hg : good = (ok && packageOk v)) (w : State)
    (hw : w = setF FWU_ACT_US us (if good then activated v else reject 10 v)) (t : State)
    (ht : t = switchMode .lean 8 { w with
      mode := { w.mode with fetchStop := false }, fns := w.fns.map (fun e => (e.1, { e.2 with pp := false })) }) :
    exec (.activateEnd 0 ok us) s =
      .next (if good then endCommit .success (noticeAll t) else endCommit .invalidFirmwareImage t) := by
  have hcur : (v.mode.cur != .activate) = false := by rw [hm]; rfl
  simp only [exec_activateEnd, execActivateEnd, ← hv, hcur, Bool.false_eq_true, if_false, hl, if_true, ← hg, ← hw, ← ht]

end Activate

theorem exec_bootCopyDone_of_next (s : State) (comp ms : Nat) (d : Bytes) (hm : s.mode.cur = .boot)
    (hst : s.mode.stage = .computeGood) (hn : nextCopy s = some d) (hd : byteAt d 0 = comp) :
    exec (.bootCopyDone comp true ms) s =
      .next (recordCopy comp (copyBody comp d (setF FWU_COPY_MS (getF s FWU_COPY_MS + ms) s))) := by
  have hskip : (s.mode.cur != .boot || s.mode.stage != .computeGood) = false := by rw [hm, hst]; rfl
  have hf : (nextCopy s).filter (fun d => byteAt d 0 == comp) = some d := by
    rw [hn]
    simp [Option.filter, hd]
  simp only [exec_bootCopyDone, execBootCopyDone, hskip, Bool.false_eq_true, if_false, if_true, hf]

/-- Settles O23: a key blob by its namespace and its wrapper, then a firmware package from its first part to its boot copy. -/
theorem keysAndFirmware : Obligations.KeysAndFirmware := by
  unfold Obligations.KeysAndFirmware
  refine ⟨fun s u q numd slot wrap blob hok hu hn hs hw => ⟨fun h0 hb => ⟨fun h4 => ?_, fun h4 hform hidle v hv hbv => ?_⟩,
      fun h0 hnone => ?_⟩,
    fun s u q numd us ms comp data d hu => ⟨fun hok hn hc => exec_firmwareDownload_of_first hu hok hn hc,
      fun hok => ⟨?_, fun hn hp => ?_, fun hn hp => ?_⟩, exec_activateBegin_of_wanted, fun v hv hm hl w hw => ?_,
      fun v hv hm hl hp w hw => ?_, exec_bootCopyDone_of_next s comp ms d⟩⟩
  · have hno : ((blobForm u 0 numd slot wrap (numdData numd blob)).isNone && byteAt (numdData numd blob) 4 == 0) = false := by
      simp [h4]
    rw [exec_keyBlobLoad_eq hok hu hn hs hw, startBlob_of_slot _ _ _ _ _ _ h0, hno, if_neg (by decide),
      loadBlob_of_good _ _ _ _ _ _ h0 hb]
  · have hyes : ((blobForm u 0 numd slot wrap (numdData numd blob)).isNone && byteAt (numdData numd blob) 4 == 0) = true := by
      simp [h4, hform]
    rw [exec_keyBlobLoad_eq hok hu hn hs hw, startBlob_of_slot _ _ _ _ _ _ h0, if_pos hyes, if_pos hidle, ← hv,
      loadBlob_of_good _ _ _ _ _ _ h0 hbv]
  · rw [exec_keyBlobLoad_eq hok hu hn hs hw, startBlob_of_missing _ _ _ _ _ _ h0 hnone]
  · rw [exec_firmwareCommit, execFirmwareCommit, adminFetch_of_adminOk hok, ← hu]
    exact congrArg Host.Outcome.next (firmwareCommit_of_slot1 q u)
  · rw [exec_firmwareCommit, execFirmwareCommit, adminFetch_of_adminOk hok, ← hu]
    exact congrArg Host.Outcome.next ((firmwareCommit_of_stage q u hn).trans (if_pos hp))
  · rw [exec_firmwareCommit, execFirmwareCommit, adminFetch_of_adminOk hok, ← hu]
    exact congrArg Host.Outcome.next ((firmwareCommit_of_stage q u hn).trans (if_neg (by rw [hp]; decide)))
  · rw [exec_activateEnd_of_lean us hv false hm hl false rfl w (by rw [if_neg Bool.false_ne_true]; exact hw) _ rfl,
      if_neg Bool.false_ne_true]
  · rw [exec_activateEnd_of_lean us hv true hm hl true (by rw [hp]; rfl) w (by rw [if_pos rfl]; exact hw) _ rfl, if_pos rfl]

end Sys2Proof.Machine
/-!
PROOFS. The management endpoint, in band and out of band (R70, R103, R104; the numbers are those of notes/assumptions/67).
-/

namespace Sys2Proof.Machine

section Endpoint

variable {s : State}

theorem miReply_of_hears (hh : miHears s = true) (k : State → MiAnswer) :
    miReply k s = .next (emit (.mi (k s).status (le 3 (k s).response ++ (k s).data)) (k s).after) := by
  simp only [miReply, hh, Bool.not_true, Bool.false_eq_true, if_false]

theorem exec_miReadDataStructure_list (hh : miHears s = true) (port ctrl : Nat) :
    exec (.miReadDataStructure 2 port ctrl) s = .next (emit (.mi 0
      (le 3 (le 2 (allFns.filter (ctrl ≤ ·)).length ++ ((allFns.filter (ctrl ≤ ·)).map (le 2)).flatten).length
        ++ (le 2 (allFns.filter (ctrl ≤ ·)).length ++ ((allFns.filter (ctrl ≤ ·)).map (le 2)).flatten))) s) :=
  miReply_of_hears hh (miStructure 2 port ctrl)

theorem exec_miSubsystemHealthPoll_eq (hh : miHears s = true) (clear : Bool) :
    exec (.miSubsystemHealthPoll clear) s =
      .next (emit (.mi 0 (le 3 (miSubsystem clear s).data.length ++ (miSubsystem clear s).data)) (miSubsystem clear s).after) :=
  miReply_of_hears hh (miSubsystem clear)

theorem exec_miControllerHealthPoll_of_first (hh : miHears s = true) (first max : Nat) (hf : first < 128) (ks : List Nat)
    (hk : ks = (allFns.filter (first ≤ ·)).take max) :
    exec (.miControllerHealthPoll first max) s =
      .next (emit (.mi 0 (le 3 (ks.length * 65536) ++ (ks.map (miController s)).flatten)) s) := by
  have hc : miControllers first max s =
      { status := 0, response := ks.length * 65536, data := (ks.map (miController s)).flatten, after := s } := by
    rw [hk]
    exact if_neg (Nat.not_le.mpr hf)
  rw [exec_miControllerHealthPoll, execMiControllerHealthPoll, miReply_of_hears hh, hc]

theorem miSet_health (port value : Nat) (u : State) (hv : value < 2 ^ 32) :
    miSet 2 port value u = { status := 0, after := { u with mon := { u.mon with miHealth := value } } } := by
  simp only [miSet, Nat.mod_eq_of_lt hv]

theorem exec_miConfigurationSet_health (hh : miHears s = true) (port value : Nat) (hv : value < 2 ^ 32) :
    exec (.miConfigurationSet 2 port value) s =
      .next (emit (.mi 0 (le 3 0)) { s with mon := { s.mon with miHealth := value } }) := by
  rw [exec_miConfigurationSet, execMiConfigurationSet, miReply_of_hears hh, miSet_health port value s hv]
  rfl

theorem exec_miConfigurationGet_health (hh : miHears s = true) (port : Nat) :
    exec (.miConfigurationGet 2 port) s = .next (emit (.mi 0 (le 3 s.mon.miHealth)) s) := by
  rw [exec_miConfigurationGet, execMiConfigurationGet, miReply_of_hears hh]
  simp only [miGet, List.append_nil]

theorem exec_miVpdRead_of_inside (hh : miHears s = true) (off len : Nat) (hl : off + len ≤ 256) :
    exec (.miVpdRead off len) s = .next (emit (.mi 0 (le 3 0 ++ sgetBytes vpdDefault s.ink.vpd off len)) s) := by
  rw [exec_miVpdRead, execMiVpdRead, miReply_of_hears hh, miVpdRead, if_neg (Nat.not_lt.mpr hl)]

theorem exec_miVpdWrite_of_inside (hh : miHears s = true) (off : Nat) (data : Bytes) (hl : off + data.length ≤ 256) :
    exec (.miVpdWrite off data) s = .next (emit (.mi 0 (le 3 0)) (setF INK_STATUS_SAVE_PENDING 1
      { s with ink := { s.ink with vpd := ssetBytes vpdDefault s.ink.vpd off data, storedAt := some (now s) } })) := by
  rw [exec_miVpdWrite, execMiVpdWrite, miReply_of_hears hh, miVpdWrite, if_neg (Nat.not_lt.mpr hl), List.append_nil]

theorem exec_miReset_refused (hh : miHears s = true) : exec .miReset s = .next (emit (.mi 4 (le 3 0)) s) := by
  rw [exec_miReset, execMiReset, miReply_of_hears hh]
  simp only [miRefuse, miInvalidParameter, List.append_nil]

/-! ### The tunnel -/

/-- The self-test of a tunnel meets none of the shared checks where its function has no pending transition. -/
theorem adminError_of_tunnel (ctrl : Nat) (hm : s.mode.cur = .run) (hp : fnPending s ctrl = false) :
    adminError {} (tunnelSqe ctrl 0) s = none := by
  have hsafe : (s.mode.cur == .safe && !({} : AdminRow).safeOk) = false := by rw [hm]; rfl
  have hp' : fnPending s (tunnelSqe ctrl 0).fn = false := hp
  simp only [adminError, hsafe, hp', firstError_cons_false]
  rfl

theorem takeTunnel_of_awake (ctrl : Nat) (cmd : TunnelCmd) (hm : s.mode.cur = .run) (ht : s.mode.trans = none) :
    takeTunnel ctrl cmd s = tunnelled ctrl cmd s := by
  have harr : tunnelArrives ctrl s = s := by
    simp only [tunnelArrives, commandArrives, ht, hm, Mode.deep, Bool.false_eq_true, if_false]
  have haway : away s = false := by
    simp only [away, hm, ht, Mode.deep, Option.any_none, Bool.or_self]
  simp only [takeTunnel, harr, haway, Bool.false_eq_true, if_false]

theorem exec_miAdminTunnel_selfTest (hh : miHears s = true) (ctrl stc : Nat) (hm : s.mode.cur = .run)
    (ht : s.mode.trans = none) (hc : ctrl < 128) (hs : stc = 1 ∨ stc = 2) (hn : s.mon.selfTest = 0)
    (hp : fnPending s ctrl = false) : exec (.miAdminTunnel ctrl 0 (.selfTest stc)) s =
      .next (emit (.mi 0 (le 4 0 ++ le 4 0)) { s with mon := { s.mon with selfTest := stc } }) := by
  have hboot : (s.mode.cur == .boot && !s.mode.mounted) = false := by rw [hm]; rfl
  have hlen : ¬ 4096 < max 0 (tunnelLen (.selfTest stc)) := by simp [tunnelLen]
  have hrun : tunnelled ctrl (.selfTest stc) s = selfTest (tunnelSqe ctrl 0) stc s := by
    simp only [tunnelled, adminRun, adminError_of_tunnel ctrl hm hp, Bool.false_and, Bool.false_eq_true, if_false]
  simp only [exec_miAdminTunnel, execMiAdminTunnel, hh, Bool.not_true, Bool.false_eq_true, if_false,
    if_neg (Nat.not_le.mpr hc), if_neg hlen, hboot, takeTunnel_of_awake ctrl _ hm ht, hrun,
    selfTest_of_start (tunnelSqe ctrl 0) stc s hs hn]
  rfl

end Endpoint

/-! ### In band -/

section InBand

variable {s u : State} {q : Sqe} (hok : AdminOk {} q s) (hu : u = takeEntry q.fn 0 s)
include hok hu

theorem exec_nvmeMiSend_health (value : Nat) (hv : value < 2 ^ 32) : exec (.nvmeMiSend q 3 2 value []) s =
    .next (done q .success 0 0 { u with mon := { u.mon with miHealth := value } }) := by
  have hrow : exec (.nvmeMiSend q 3 2 value []) s = adminFetch {} q (miInBand q (miSend 3 2 (value % 2 ^ 32) [])) s := rfl
  have hsend : miSend 3 2 value [] u = miSet 2 0 value u := rfl
  rw [hrow, adminFetch_of_adminOk hok, ← hu, Nat.mod_eq_of_lt hv]
  simp only [miInBand, hsend, miSet_health 0 value u hv, if_true, Nat.zero_mod, Nat.zero_mul, Nat.add_zero]

theorem exec_nvmeMiReceive_health : exec (.nvmeMiReceive q 4 2 0) s =
    .next (done q .success (u.mon.miHealth % 2 ^ 24 * 256) 0 u) := by
  have hrow : exec (.nvmeMiReceive q 4 2 0) s = adminFetch {} q (miInBand q (miReceive 4 2 0)) s := rfl
  have hget : miReceive 4 2 0 u = { status := 0, response := u.mon.miHealth, after := u } := rfl
  rw [hrow, adminFetch_of_adminOk hok, ← hu]
  simp only [miInBand, hget, if_true, Nat.zero_mod, Nat.zero_add]

end InBand

/-- Settles O24: each command over the endpoint, the tunnelled self-test, and the two commands in band. -/
theorem managementEndpoint : Obligations.ManagementEndpoint := by
  unfold Obligations.ManagementEndpoint
  exact fun s u q port ctrl first max value off len stc data clear => ⟨fun hh => ⟨exec_miReadDataStructure_list hh port ctrl,
      exec_miSubsystemHealthPoll_eq hh clear, fun hf ks hk => exec_miControllerHealthPoll_of_first hh first max hf ks hk,
      exec_miConfigurationSet_health hh port value, exec_miConfigurationGet_health hh port, exec_miVpdRead_of_inside hh off len,
      exec_miVpdWrite_of_inside hh off data, exec_miReset_refused hh,
      fun hm ht hc hs hn hp => exec_miAdminTunnel_selfTest hh ctrl stc hm ht hc hs hn hp⟩,
    fun hok hu => ⟨exec_nvmeMiSend_health hok hu value, exec_nvmeMiReceive_health hok hu⟩⟩

end Sys2Proof.Machine
/-!
PROOFS. Doorbells, the transfers of a command's data, and held appends (R14, R45, R64, R74, R75, R78, R87, R148).
-/

namespace Sys2Proof.Machine

/-! ### Doorbells -/

section Doorbells

variable {s u : State} {frac fn qid v : Nat}

/-- Awake and with no transition running, a command's arrival moves no mode (R83). -/
theorem commandArrives_of_awake (f : Nat) (s : State) (ht : s.mode.trans = none) (hd : s.mode.cur.deep = false) :
    commandArrives f s = s := by
  simp only [commandArrives, ht, hd, Bool.false_eq_true, if_false]

theorem exec_sqTailDoorbell_of_unheard (hu : u = atFrac frac s) (hh : hearsDoorbell u fn = false) :
    exec (.sqTailDoorbell frac fn qid v) s = .next u := by
  simp only [exec_sqTailDoorbell, execSqTailDoorbell, ← hu, hh, Bool.not_false, if_true]

theorem sqTailDoorbell_clauses (hu : u = atFrac frac s) (hh : hearsDoorbell u fn = true) :
    (∀ q, mget (getFn u fn).sqs qid = some q → v < q.size → u.mode.trans = none → u.mode.cur.deep = false →
      exec (.sqTailDoorbell frac fn qid v) s = .next (updFn fn (fun x => { x with
        sqs := mset x.sqs qid { q with tail := v }, idleFrom := u.time.stroke }) u)) ∧
    (∀ q, mget (getFn u fn).sqs qid = some q → q.size ≤ v →
      exec (.sqTailDoorbell frac fn qid v) s = .next (raiseEvent fn { type := 0, info := 1, log := 1 } u)) ∧
    (mget (getFn u fn).sqs qid = none →
      exec (.sqTailDoorbell frac fn qid v) s = .next (raiseEvent fn { type := 0, info := 0, log := 1 } u)) := by
  refine ⟨fun q hq hlt ht hd => ?_, fun q hq hle => ?_, fun hn => ?_⟩
  · simp only [exec_sqTailDoorbell, execSqTailDoorbell, ← hu, hh, hq, Bool.not_true, Bool.false_eq_true, if_false, if_neg (Nat.not_le.mpr hlt)]
    rw [commandArrives_of_awake _ _ (by rw [updFn_mode]; exact ht) (by rw [updFn_mode]; exact hd)]
  · simp only [exec_sqTailDoorbell, execSqTailDoorbell, ← hu, hh, hq, Bool.not_true, Bool.false_eq_true, if_false, if_pos hle, doorbellError]
  · simp only [exec_sqTailDoorbell, execSqTailDoorbell, ← hu, hh, hn, Bool.not_true, Bool.false_eq_true, if_false, doorbellError]

theorem cqHeadDoorbell_clauses (hh : hearsDoorbell s fn = true) :
    (∀ q, mget (getFn s fn).cqs qid = some q → v < q.size → q.waiting = [] → s.mode.trans = none → s.mode.cur.deep = false →
      exec (.cqHeadDoorbell fn qid v) s =
        .next (updFn fn (fun x => { x with cqs := mset x.cqs qid { q with head := v } }) s)) ∧
    (∀ q, mget (getFn s fn).cqs qid = some q → q.size ≤ v →
      exec (.cqHeadDoorbell fn qid v) s = .next (raiseEvent fn { type := 0, info := 1, log := 1 } s)) ∧
    (mget (getFn s fn).cqs qid = none →
      exec (.cqHeadDoorbell fn qid v) s = .next (raiseEvent fn { type := 0, info := 0, log := 1 } s)) := by
  refine ⟨fun q hq hlt hw ht hd => ?_, fun q hq hle => ?_, fun hn => ?_⟩
  · simp only [exec_cqHeadDoorbell, execCqHeadDoorbell, hh, hq, Bool.not_true, Bool.false_eq_true, if_false,
      if_neg (Nat.not_le.mpr hlt), hw, List.length_nil, drainCq]
    rw [commandArrives_of_awake _ _ (by rw [updFn_mode]; exact ht) (by rw [updFn_mode]; exact hd)]
  · simp only [exec_cqHeadDoorbell, execCqHeadDoorbell, hh, hq, Bool.not_true, Bool.false_eq_true, if_false, if_pos hle, doorbellError]
  · simp only [exec_cqHeadDoorbell, execCqHeadDoorbell, hh, hn, Bool.not_true, Bool.false_eq_true, if_false, doorbellError]

end Doorbells

/-! ### Transfers -/

section Transfers

variable {s : State} {fn sqid cid : Nat} {data : Bytes} {c : Cmd} (hc : findCmd s fn sqid cid = some c)
include hc

theorem dataArrived_of_short (hm : c.moved = true) (hmay : mayMove s fn = true) (hlt : data.length < writeLen s c) :
    dataArrived fn sqid cid data s =
      advanceAll (complete fn sqid cid .dataTransferError 0 0 (dropCmd fn sqid cid s)) := by
  simp only [dataArrived, hc, hm, hmay, if_pos hlt, Bool.not_true, Bool.or_self, Bool.false_eq_true, if_false]

theorem dataArrived_of_write (hm : c.moved = true) (hmay : mayMove s fn = true) (hle : writeLen s c ≤ data.length)
    (lba n dir : Nat) (hk : c.kind = .write lba n dir none) : dataArrived fn sqid cid data s =
      advanceAll (updCmd fn sqid cid (fun x => { x with kind := .write lba n dir (some (fixLen (writeLen s c) data)) }) s) := by
  simp only [dataArrived, hc, hm, hmay, if_neg (Nat.not_lt.mpr hle), hk, Bool.not_true, Bool.or_self, Bool.false_eq_true,
    if_false]

theorem dataArrived_of_append (hm : c.moved = true) (hmay : mayMove s fn = true) (hle : writeLen s c ≤ data.length)
    (n l e : Nat) (st held : Option Nat) (hk : c.kind = .append n l e st held) (hf : flowsOn s c.nsid = false)
    (ht : mirrorTarget s c.nsid = false) : dataArrived fn sqid cid data s =
      advanceAll (complete fn sqid cid .success (s.time.stroke % 2 ^ 32) (st.getD 0 % 2 ^ 32)
        (dropCmd fn sqid cid (applyAppend c n l data s))) := by
  simp only [dataArrived, hc, hm, hmay, if_neg (Nat.not_lt.mpr hle), hk, hf, ht, Bool.not_true, Bool.or_self,
    Bool.false_eq_true, if_false]

/-- A transfer that fails before its data is complete ends the command (R64). -/
theorem failTransfer_of_write (timeout : Bool) (lba n : Nat) (dir : Nat) (hk : c.kind = .write lba n dir none)
    (hm : c.moved = true) : failTransfer timeout fn sqid cid s =
      advanceAll (complete fn sqid cid .dataTransferError 0 0 (dropCmd fn sqid cid (logAer fn timeout s))) := by
  simp only [failTransfer, hc, hk, hm, if_true]

theorem exec_dmaWriteRejected_of_read (lba n : Nat) (got : Bytes) (hk : c.kind = .read lba n got)
    (hb : c.blocked = false) : exec (.dmaWriteRejected fn sqid cid) s =
      .next (advanceAll (complete fn sqid cid .dataTransferError 0 0 (dropCmd fn sqid cid (logAer fn false s)))) := by
  simp only [exec_dmaWriteRejected, execDmaWriteRejected, hc, hk, hb, Bool.false_eq_true, if_false]

theorem exec_appendHoldExpiry_of_held (n l e : Nat) (first : Option Nat) (since : Nat)
    (hk : c.kind = .append n l e first (some since)) (hh : c.held = true) (h0 : getF s STK_OVR_CTL_HOLD_STROKES ≠ 0) :
    exec (.appendHoldExpiry fn sqid cid) s = .next (if since + getF s STK_OVR_CTL_HOLD_STROKES ≤ s.time.stroke then
      advanceAll (complete fn sqid cid .strokeOverrun 0 0 (dropCmd fn sqid cid s)) else s) := by
  have h0' : (getF s STK_OVR_CTL_HOLD_STROKES != 0) = true := by simpa using h0
  simp only [exec_appendHoldExpiry, execAppendHoldExpiry, hc, hk, hh, h0', Bool.true_and, decide_eq_true_eq]

end Transfers

/-- Settles O25: the doorbells of both kinds of queue, then a transfer by the kind of its command. -/
theorem doorbellsAndTransfers : Obligations.DoorbellsAndTransfers := by
  unfold Obligations.DoorbellsAndTransfers
  refine ⟨fun s u frac fn qid v hu => ⟨sqTailDoorbell_clauses hu, exec_sqTailDoorbell_of_unheard hu, cqHeadDoorbell_clauses⟩,
    fun s fn sqid cid data c hc => ⟨fun lba n dir hk hm => ⟨fun hmay len hlen => ?_, ?_, ?_⟩,
      fun n l e first held hk hm hmay hf ht hlen => ?_, exec_dmaWriteRejected_of_read hc,
      fun n l e first since hk hh h0 => ⟨fun hle => ?_, fun hlt => ?_⟩⟩⟩
  · have hl : writeLen s c = len := by rw [hlen]; simp only [writeLen, hk]
    rw [exec_writeDataArrived, execWriteDataArrived, ← hl]
    exact ⟨fun hle => by rw [dataArrived_of_write hc hm hmay hle lba n dir hk],
      fun hlt => by rw [dataArrived_of_short hc hm hmay hlt]⟩
  · rw [exec_dmaReadFault, execDmaReadFault, failTransfer_of_write hc false lba n dir hk hm]
  · rw [exec_completionTimeout, execCompletionTimeout, failTransfer_of_write hc true lba n dir hk hm]
  · have hl : writeLen s c = appendBytes n l := by simp only [writeLen, hk]
    rw [exec_writeDataArrived, execWriteDataArrived,
      dataArrived_of_append hc hm hmay (hl.trans_le hlen) n l e _ _ hk hf ht, Option.getD_some]
  · rw [exec_appendHoldExpiry_of_held hc n l e first since hk hh h0, if_pos hle]
  · rw [exec_appendHoldExpiry_of_held hc n l e first since hk hh h0, if_neg (Nat.not_le.mpr hlt)]

end Sys2Proof.Machine
/-!
PROOFS. The I/O commands to a namespace: Read, Compare, Verify, Write, Write Zeroes, Dataset Management, SEALED APPEND and Flush
(R77, R78, R80, R87 to R91, R148, R201, R202).
-/

namespace Sys2Proof.Machine

/-! ### What every command to a namespace asks first -/

section OnNs

variable {q : Sqe} {x : Ns} {u : State}

theorem converting_of_idle {nsid : Nat} (hx : getNs u nsid = some x) (hb : x.busy = .none) : converting u nsid = false := by
  simp [converting, hx, hb]

/-- At rest, the namespace takes every command but a SEALED APPEND to a plain one. -/
theorem onNs_of_nsOk (h : NsOk q x u) {needSealed : Bool} (hs : (needSealed && !x.sealed) = false) (k : Ns → State → State) :
    onNs q needSealed k u = k x u := by
  obtain ⟨hentry, hattached, hsound, hsettled, hidle⟩ := h
  have hbusy : x.busy.status = none := by rw [hidle]; rfl
  simp only [onNs, hentry, converting_of_idle (getNs_of_attachedNs hattached) hidle, hattached, hs, hsound, hsettled, hbusy,
    Bool.false_eq_true, if_false]

theorem onNs_of_plain (h : NsOk q x u) (hs : x.sealed = false) (k : Ns → State → State) :
    onNs q true k u = done q .invalidNamespaceOrFormat 0 0 u := by
  obtain ⟨hentry, hattached, -, -, hidle⟩ := h
  simp only [onNs, hentry, converting_of_idle (getNs_of_attachedNs hattached) hidle, hattached, hs, Bool.not_false,
    Bool.and_self, Bool.false_eq_true, if_false, if_true]

theorem onNs_of_unattached (he : badEntry q = false) (hc : converting u q.nsid = false) (hx : attachedNs u q.fn q.nsid = none)
    (needSealed : Bool) (k : Ns → State → State) : onNs q needSealed k u = done q .invalidNamespaceOrFormat 0 0 u := by
  simp only [onNs, he, hc, hx, Bool.false_eq_true, if_false]

/-! ### The length rows of R87 -/

theorem lengthError_of_long {slba n : Nat} (h : 2097152 < n * x.blk) :
    lengthError q x slba n true = some .invalidField := by
  simp only [lengthError, h, decide_true, Bool.and_self, if_true]

theorem lengthError_of_beyond {slba n : Nat} (hn : n * x.blk ≤ 2097152) (h : x.nsze < slba + n) (transfers : Bool) :
    lengthError q x slba n transfers = some .lbaOutOfRange := by
  simp only [lengthError, decide_eq_false (Nat.not_lt.mpr hn), Bool.and_false, Bool.false_eq_true, if_false, if_pos h]

theorem lengthError_of_verify {slba n : Nat} :
    lengthError q x slba n false = if x.nsze < slba + n then some .lbaOutOfRange else none := by
  simp only [lengthError, Bool.false_and, Bool.false_eq_true, if_false]

end OnNs

/-! ### Reads -/

section Reads

variable {s u : State} {q : Sqe} {x : Ns} {slba nlb : Nat} (hok : IoOk q s u) (hns : NsOk q x u)
include hok hns

theorem exec_readCmd_of_nsOk : exec (.readCmd q slba nlb) s = .next (orElse q (lengthError q x slba (nlb % 65536 + 1) true)
    (enlist q (.read slba (nlb % 65536 + 1) []) true) u) := by
  rw [exec_readCmd, execReadCmd, ioFetch_of_ioOk hok, onNs_of_nsOk hns rfl]

theorem exec_compareCmd_of_nsOk (host : Bytes) : exec (.compareCmd q slba nlb host) s =
    .next (orElse q (lengthError q x slba (nlb % 65536 + 1) true)
      (enlist q (.compare slba (nlb % 65536 + 1) (fixLen ((nlb % 65536 + 1) * x.blk) host) []) true) u) := by
  rw [exec_compareCmd, execCompareCmd, ioFetch_of_ioOk hok, onNs_of_nsOk hns rfl]

theorem exec_verifyCmd_of_nsOk : exec (.verifyCmd q slba nlb) s =
    .next (orElse q (lengthError q x slba (nlb % 65536 + 1) false) (enlist q (.verify slba (nlb % 65536 + 1) 0) true) u) := by
  rw [exec_verifyCmd, execVerifyCmd, ioFetch_of_ioOk hok, onNs_of_nsOk hns rfl]

end Reads

/-- Settles O26: each command past the checks of its namespace, by the first length row that fails. -/
theorem hostReads : Obligations.HostReads := by
  unfold Obligations.HostReads
  intro s u q x slba nlb n host hn hok
  subst hn
  refine ⟨fun hns => ⟨fun hl => ⟨?_, ?_⟩, fun hl => ?_, fun hl => ?_, fun hl hlt => ⟨?_, ?_⟩, fun hlt => ?_⟩,
    fun he hx hc => ?_⟩
  · rw [exec_readCmd_of_nsOk hok hns, hl, orElse_of_none]
  · rw [exec_compareCmd_of_nsOk hok hns, hl, orElse_of_none]
  · rw [exec_verifyCmd_of_nsOk hok hns, hl, orElse_of_none]
  · rw [exec_readCmd_of_nsOk hok hns, lengthError_of_long hl, orElse_of_some]
  · rw [exec_readCmd_of_nsOk hok hns, lengthError_of_beyond hl hlt, orElse_of_some]
  · rw [exec_compareCmd_of_nsOk hok hns, lengthError_of_beyond hl hlt, orElse_of_some]
  · rw [exec_verifyCmd_of_nsOk hok hns, lengthError_of_verify, if_pos hlt, orElse_of_some]
  · rw [exec_readCmd, execReadCmd, ioFetch_of_ioOk hok, onNs_of_unattached he hc hx]

/-! ### Writes -/

/-- A single waiting item is the whole order of service, whatever its function's class and weight (R99). -/
theorem serveOrder_singleton {α : Type} (s : State) (fn : α → Nat) (c : α) : serveOrder s fn [c] = [c] := by
  have hone : ∀ w : Nat, [c].take (max 1 w) = [c] := fun w => List.take_of_length_le (by simp)
  have hcls : min 2 (qosOf s (fn c)).cls = 0 ∨ min 2 (qosOf s (fn c)).cls = 1 ∨ min 2 (qosOf s (fn c)).cls = 2 := by omega
  rcases hcls with h | h | h <;>
    simp [serveOrder, insertNat, weightedRounds, h, hone]

section Writes

variable {s u : State} {q : Sqe} {x : Ns} {slba nlb dtype dspec : Nat}

theorem writeRefused_of_sealed (hs : x.sealed = true) : writeRefused u x = some .sealedRange := if_pos hs

theorem writeRefused_of_readOnly (hs : x.sealed = false) (hm : u.mode.cur = .readOnly) :
    writeRefused u x = some .readOnlyMedia := by
  simp only [writeRefused, hs, hm, Bool.false_eq_true, if_false, if_true]

theorem writeRefused_of_plain (hs : x.sealed = false) (hm : u.mode.cur ≠ .readOnly) : writeRefused u x = none := by
  simp only [writeRefused, hs, hm, Bool.false_eq_true, if_false]

/-- Alone, a Write Zeroes meets no command and is applied as it is fetched (R77, R202). -/
theorem enlist_zeroes_of_alone (h0 : u.cmds = []) (n : Nat) : enlist q (.zeroes slba n) true u =
    showHazards (complete q.fn q.sqid q.cid .success 0 0 (dropCmd q.fn q.sqid q.cid (markWrite q.nsid (applyZeroes q.nsid slba n
      { fn := q.fn, sqid := q.sqid, cid := q.cid, directive := 0 }
      (addCmd { fn := q.fn, sqid := q.sqid, cid := q.cid, nsid := q.nsid, order := 0, kind := .zeroes slba n, blocked := true }
        u))))) := by
  rw [enlist, advanceAll, addCmd, h0, List.nil_append, serveOrder_singleton]
  simp only [List.foldl_cons, List.foldl_nil, findCmd, List.find?_cons, beq_self_eq_true, Bool.and_self, advanceCmd, hazard,
    List.any_cons, List.any_nil, Nat.lt_irrefl, decide_false, Bool.false_and, Bool.or_self, Bool.false_eq_true, if_false,
    writerOf]

section

variable (hok : IoOk q s u) (hroom : hazardRoom s = true) (hns : NsOk q x u)
include hok hroom hns

theorem exec_writeCmd_of_nsOk : exec (.writeCmd q slba nlb dtype dspec) s = .next (orElse q (writeRefused u x)
    (orElse q (lengthError q x slba (nlb % 65536 + 1) true)
      (enlist q (.write slba (nlb % 65536 + 1) (directiveOf q x dtype dspec) none) false)) u) := by
  rw [exec_writeCmd, execWriteCmd, if_pos hroom, ioFetch_of_ioOk hok, onNs_of_nsOk hns rfl]

theorem exec_writeZeroes_of_nsOk (deac : Bool) : exec (.writeZeroes q slba nlb deac) s = .next (orElse q (writeRefused u x)
    (orElse q (lengthError q x slba (nlb % 65536 + 1) false) (enlist q (.zeroes slba (nlb % 65536 + 1)) true)) u) := by
  rw [exec_writeZeroes, execWriteZeroes, if_pos hroom, ioFetch_of_ioOk hok, onNs_of_nsOk hns rfl]

theorem exec_datasetManagement_of_nsOk (ad : Bool) {n : Nat} (hn : n ≠ 0) :
    exec (.datasetManagement q ad [(slba, n)]) s = .next (orElse q (if ad then writeRefused u x else none)
      (orElse q (xferError q.xfer false 16) (orElse q (if x.nsze < slba + n then some .lbaOutOfRange else none)
        (fun b => if ad then enlist q (.dealloc [(slba, n)]) true b else done q .success 0 0 b))) u) := by
  have hn' : (n != 0) = true := by simpa using hn
  rw [exec_datasetManagement, execDatasetManagement]
  simp only [hroom, Bool.true_or, if_true, ioFetch_of_ioOk hok, onNs_of_nsOk hns (needSealed := false) rfl,
    List.take_of_length_le (l := [(slba, n)]) (i := 256) (by simp), List.filter_cons, List.filter_nil, hn', List.any_cons,
    List.any_nil, Bool.or_false, decide_eq_true_eq, List.length_singleton, Nat.max_self, Nat.mul_one]

theorem exec_sealedAppend_of_nsOk {last expected : Nat} (hs : x.sealed = true) : exec (.sealedAppend q nlb last expected) s =
    .next (orElse q (if 4096 < last || 2097152 < (nlb % 65536 + 1) * 4096 then some .invalidField
        else if u.mode.cur = .readOnly then some .readOnlyMedia
        else xferError q.xfer false (appendBytes (nlb % 65536 + 1) last))
      (enlist q (.append (nlb % 65536 + 1) last expected none none) false) u) := by
  have hs' : (true && !x.sealed) = false := by rw [hs]; rfl
  simp only [exec_sealedAppend, execSealedAppend, if_pos hroom, ioFetch_of_ioOk hok, onNs_of_nsOk hns hs']

theorem exec_sealedAppend_of_plain {last expected : Nat} (hs : x.sealed = false) :
    exec (.sealedAppend q nlb last expected) s = .next (done q .invalidNamespaceOrFormat 0 0 u) := by
  simp only [exec_sealedAppend, execSealedAppend, if_pos hroom, ioFetch_of_ioOk hok, onNs_of_plain hns hs]

end

theorem exec_flushCmd_of_all (hok : IoOk q s u) (hall : q.nsid = 0xFFFFFFFF) (he : badEntry q = false)
    (hd : deferredHit u q = false) (hp : ∀ e ∈ u.nss, e.2.attached.contains q.fn = true → nsPending u e.1 = false) :
    exec (.flushCmd q) s = .next (enlist q (.flush (flushWaits u q)) false u) := by
  have hquiet : u.nss.any (fun e => e.2.attached.contains q.fn && nsPending u e.1) = false := by
    refine any_eq_false_of_forall _ _ fun e hmem => ?_
    cases hc : e.2.attached.contains q.fn with
    | false => rfl
    | true => rw [hp e hmem hc]; rfl
  simp only [exec_flushCmd, execFlushCmd, ioFetch_of_ioOk hok, allNs, hall, if_true, he, hd, hquiet, Bool.false_eq_true,
    if_false]

theorem exec_flushCmd_of_one (hok : IoOk q s u) (hns : NsOk q x u) (hone : q.nsid ≠ 0xFFFFFFFF) :
    exec (.flushCmd q) s = .next (enlist q (.flush (flushWaits u q)) false u) := by
  simp only [exec_flushCmd, execFlushCmd, ioFetch_of_ioOk hok, allNs, if_neg hone, onNs_of_nsOk hns (needSealed := false) rfl]

end Writes

/-- Settles O27: Flush, then each write-type command on a plain namespace, on a sealed one and in READ-ONLY. -/
theorem hostWrites : Obligations.HostWrites := by
  unfold Obligations.HostWrites
  intro s u q x slba nlb n dtype dspec last expected deac hn hok
  subst hn
  refine ⟨exec_flushCmd_of_all hok, exec_flushCmd_of_one hok, fun hroom hns =>
    ⟨fun hs hm => ⟨fun hl => ?_, fun hin => ?_, fun hx => ?_, exec_sealedAppend_of_plain hok hroom hns hs⟩,
      fun hs => ⟨?_, ?_, ?_, fun hm hl hn hx => ?_, fun hbad => ?_⟩, fun hs hm => ⟨?_, ?_⟩⟩⟩
  · rw [exec_writeCmd_of_nsOk hok hroom hns, writeRefused_of_plain hs hm, orElse_of_none, hl, orElse_of_none]
  · have hz : exec (.writeZeroes q slba nlb deac) s = .next (enlist q (.zeroes slba (nlb % 65536 + 1)) true u) := by
      rw [exec_writeZeroes_of_nsOk hok hroom hns, writeRefused_of_plain hs hm, orElse_of_none, lengthError_of_verify,
        if_neg (Nat.not_lt.mpr hin), orElse_of_none]
    refine ⟨hz, fun hx => ?_, fun h0 => by rw [hz, enlist_zeroes_of_alone h0]⟩
    rw [exec_datasetManagement_of_nsOk hok hroom hns true (Nat.succ_ne_zero _), if_pos rfl, writeRefused_of_plain hs hm,
      orElse_of_none, hx, orElse_of_none, if_neg (Nat.not_lt.mpr hin), orElse_of_none, if_pos rfl]
  · rw [exec_datasetManagement_of_nsOk hok hroom hns false (Nat.succ_ne_zero _), if_neg Bool.false_ne_true, orElse_of_none, hx,
      orElse_of_none]
    split
    · rw [orElse_of_some]
    · rw [orElse_of_none, if_neg Bool.false_ne_true]
  · rw [exec_writeCmd_of_nsOk hok hroom hns, writeRefused_of_sealed hs, orElse_of_some]
  · rw [exec_writeZeroes_of_nsOk hok hroom hns, writeRefused_of_sealed hs, orElse_of_some]
  · rw [exec_datasetManagement_of_nsOk hok hroom hns true (Nat.succ_ne_zero _), if_pos rfl, writeRefused_of_sealed hs,
      orElse_of_some]
  · have hfit : (decide (4096 < last) || decide (2097152 < (nlb % 65536 + 1) * 4096)) = false := by simp; omega
    rw [exec_sealedAppend_of_nsOk hok hroom hns hs, hfit, if_neg Bool.false_ne_true, if_neg hm, hx, orElse_of_none]
  · have hno : (decide (4096 < last) || decide (2097152 < (nlb % 65536 + 1) * 4096)) = true := by simp; omega
    rw [exec_sealedAppend_of_nsOk hok hroom hns hs, hno, if_pos rfl, orElse_of_some]
  · rw [exec_writeCmd_of_nsOk hok hroom hns, writeRefused_of_readOnly hs hm, orElse_of_some]
  · rw [exec_writeZeroes_of_nsOk hok hroom hns, writeRefused_of_readOnly hs hm, orElse_of_some]

end Sys2Proof.Machine
/-!
PROOFS. The evidence commands: HOLD, RELEASE, VERIFY RANGE, PROOF READ and EXPORT (R87, R105, R149, R151 to R155, R309).
-/

namespace Sys2Proof.Machine

section Evidence

variable {s u : State} {q : Sqe} {x : Ns} (hok : IoOk q s u) (hns : NsOk q x u) (hsealed : x.sealed = true)

theorem onNs_of_sealed (hns : NsOk q x u) (hsealed : x.sealed = true) (k : Ns → State → State) : onNs q true k u = k x u :=
  onNs_of_nsOk hns (by rw [hsealed]; rfl) k

/-! ### Holds -/

theorem holdBounds_of_part {first last : Nat} (hf : first < 2 ^ 48 - 1) : holdBounds first last = (first, last) := by
  have hpart : (first == 2 ^ 48 - 1) = false := beq_eq_false_iff_ne.mpr (Nat.ne_of_lt hf)
  simp only [holdBounds, wholeNs, hpart, Bool.false_and, Bool.false_eq_true, if_false]

section

include hok hns hsealed

theorem exec_holdPlace_of_nsOk (first last tag : Nat) : exec (.holdPlace q first last tag) s =
    .next (if 16 ≤ x.holds.length then done q .invalidField 0 0 u
      else addTrans (.ns q.nsid) (.hold (mfree x.holds 0) (first % 2 ^ 48) (last % 2 ^ 48) (tag % 2 ^ 32)) q u) := by
  rw [exec_holdPlace, execHoldPlace, ioFetch_of_ioOk hok, onNs_of_sealed hns hsealed]

theorem exec_holdQuery_of_one (h : Nat × Hold) (hx : x.holds = [h]) {first last : Nat} (hf : first < 2 ^ 48 - 1)
    (hl : last < 2 ^ 48) : exec (.holdQuery q first last) s =
      .next (done q .success (if h.2.first ≤ last ∧ first ≤ h.2.last then h.1 else 0xFFFF) 0 u) := by
  simp only [exec_holdQuery, execHoldQuery, ioFetch_of_ioOk hok, onNs_of_sealed hns hsealed, Nat.mod_eq_of_lt hl,
    Nat.mod_eq_of_lt (Nat.lt_of_lt_of_le hf (Nat.sub_le _ _)), holdBounds_of_part hf, hx]
  by_cases hmeet : h.2.first ≤ last ∧ first ≤ h.2.last
  · simp [hmeet]
  · rw [if_neg hmeet, List.find?_eq_none.mpr (by simpa using hmeet)]; rfl

theorem release_of_nsOk (numd : Nat) (token : Bytes) (dryrun : Bool) (hx : xferError q.xfer false ((numd + 1) * 4) = none) :
    release q numd token dryrun s =
      .next (orElse q (shortData ((numd + 1) * 4) token) (startToken q numd token dryrun) u) := by
  rw [release, ioFetch_of_ioOk hok, onNs_of_sealed hns hsealed, hx, Option.none_or]

end

/-! ### Release tokens -/

theorem tokenForm_cases (numd : Nat) (t : Bytes) :
    tokenForm numd t = none ∨ tokenForm numd t = some .lengthMismatch ∨ tokenForm numd t = some .invalidField := by
  unfold tokenForm
  generalize (leAt t 2 2 != (numd + 1) * 4 || leAt t 2 2 != (if byteAt t 21 = 2 then 160 else 128)) = b
  generalize (byteAt t 0 != 0x10 || byteAt t 1 != 1 || byteAt t 20 == 0 || 4 ≤ byteAt t 20 || tokenReserved t) = c
  cases b with
  | true => exact .inr (.inl (firstError_cons_true _ _))
  | false =>
    rw [firstError_cons_false]
    cases c with
    | true => exact .inr (.inr (firstError_cons_true _ _))
    | false => exact .inl (by rw [firstError_cons_false, firstError_nil])

/-- Only a token whose form is right fails its checks, so it has taken the signature unit. -/
theorem tokenForm_of_checked {numd : Nat} {t : Bytes} {r : Option Status} (h : tokenError u q.nsid numd x t = r)
    (h1 : r ≠ some .lengthMismatch) (h2 : r ≠ some .invalidField) : tokenForm numd t = none := by
  subst h
  rcases tokenForm_cases numd t with h | h | h
  · exact h
  · exact absurd (by rw [tokenError, h]; rfl) h1
  · exact absurd (by rw [tokenError, h]; rfl) h2

theorem tokenError_spendSign (c nsid numd : Nat) (t : Bytes) :
    tokenError (spendSign c u) nsid numd x t = tokenError u nsid numd x t := rfl

theorem startToken_of_idle {numd : Nat} {token : Bytes} (dryrun : Bool) (hform : tokenForm numd (numdData numd token) = none)
    (hidle : signIdle u = true) : startToken q numd token dryrun u =
      checkToken q numd token dryrun (spendSign (qosOf u q.fn).cls u) := by
  simp only [startToken, hform, hidle, Option.isSome_none, Bool.not_true, Bool.false_eq_true, if_false]

/-- What a checked token comes to, after its operation of the signature unit. -/
theorem release_of_checked (hok : IoOk q s u) (hns : NsOk q x u) (hsealed : x.sealed = true) {numd : Nat} {token : Bytes}
    (dryrun : Bool) (hx : xferError q.xfer false ((numd + 1) * 4) = none) (hlen : (numd + 1) * 4 ≤ token.length)
    (hidle : signIdle u = true) {r : Option Status} (hr : tokenError u q.nsid numd x (numdData numd token) = r)
    (h1 : r ≠ some .lengthMismatch) (h2 : r ≠ some .invalidField) :
    release q numd token dryrun s = .next (checkToken q numd token dryrun (spendSign (qosOf u q.fn).cls u)) := by
  rw [release_of_nsOk hok hns hsealed numd token dryrun hx, shortData, if_neg (Nat.not_lt.mpr hlen), orElse_of_none,
    startToken_of_idle dryrun (tokenForm_of_checked hr h1 h2) hidle]

section Check

variable {numd : Nat} {token : Bytes} {r : Option Status} (c : Nat) (hattached : attachedNs u q.fn q.nsid = some x)
  (hr : tokenError u q.nsid numd x (numdData numd token) = r)
include hattached hr

theorem checkToken_of_good (h : r = none) (dryrun : Bool) : checkToken q numd token dryrun (spendSign c u) =
    if dryrun then done q .success 0 0 (spendSign c u)
    else addTrans (.ns q.nsid) (.release (byteAt (numdData numd token) 20) (leAt (numdData numd token) 22 2)
      (leAt (numdData numd token) 24 6) (leAt (numdData numd token) 32 6) (leAt (numdData numd token) 40 8)
      (slice (numdData numd token) 0 64)) q (spendSign c u) := by
  have hx : getNs (spendSign c u) q.nsid = some x := getNs_of_attachedNs hattached
  simp only [checkToken, hx, tokenError_spendSign, hr, h]

theorem checkToken_of_refused (h : r = some .authFail) (dryrun : Bool) : checkToken q numd token dryrun (spendSign c u) =
    done q .authFail 0 0 (incF SGN_VERIFY_FAIL_COUNT 1 (spendSign c u)) := by
  have hx : getNs (spendSign c u) q.nsid = some x := getNs_of_attachedNs hattached
  simp only [checkToken, hx, tokenError_spendSign, hr, h]

theorem checkToken_of_held (h : r = some .holdActive) (dryrun : Bool) : checkToken q numd token dryrun (spendSign c u) =
    done q .holdActive 0 0 (spendSign c u) := by
  have hx : getNs (spendSign c u) q.nsid = some x := getNs_of_attachedNs hattached
  simp only [checkToken, hx, tokenError_spendSign, hr, h]

end Check

/-! ### Proofs and exports -/

theorem exec_verifyRange_of_nsOk (hok : IoOk q s u) (hns : NsOk q x u) (hsealed : x.sealed = true) (slba nlb : Nat)
    (chain : Bool) : exec (.verifyRange q slba nlb chain) s = .next (orElse q
      (if x.nsze < slba + (nlb % 2 ^ 32 + 1) then some .lbaOutOfRange else none)
      (enlist q (.verifyRange slba (nlb % 2 ^ 32 + 1) chain 0) true) u) := by
  simp only [exec_verifyRange, execVerifyRange, ioFetch_of_ioOk hok, onNs_of_sealed hns hsealed, lengthError_of_verify]

theorem exec_proofRead_of_nsOk (hok : IoOk q s u) (hns : NsOk q x u) (hsealed : x.sealed = true) (hn : q.nsid ≠ 0)
    (stroke kind numd : Nat) : exec (.proofRead q stroke kind numd) s = .next (orElse q
      (if 4 ≤ kind then some .invalidField else xferError q.xfer false ((numd + 1) * 4)) (answerProof q stroke kind numd) u) := by
  simp only [exec_proofRead, execProofRead, if_neg hn, ioFetch_of_ioOk hok, onNs_of_sealed hns hsealed]

theorem exec_exportBundle_of_nsOk (hok : IoOk q s u) (hns : NsOk q x u) (hsealed : x.sealed = true)
    {comp level numd : Nat} (hc : compOk comp level = true) (hx : xferError q.xfer false ((numd + 1) * 4) = none)
    (first last resume : Nat) (proofs sign : Bool) :
    exec (.exportBundle q first last comp level proofs sign numd resume) s = .next
      (startExport q (first % 2 ^ 48) (last % 2 ^ 48) comp level proofs sign numd (resume % 2 ^ 32) false u) := by
  simp only [exec_exportBundle, execExportBundle, ioFetch_of_ioOk hok, onNs_of_sealed hns hsealed, hc, Bool.not_true,
    Bool.false_eq_true, if_false, hx, orElse_of_none]

theorem answerProof_of_ok (hw : readWaits u q.fn = false) {stroke kind numd : Nat} {bs : Bytes}
    (hb : proofOut u q.nsid (stroke % 2 ^ 48) kind = .ok bs) : answerProof q stroke kind numd u =
      if (numd + 1) * 4 < bs.length then done q .invalidField bs.length 0 u
      else done q .success bs.length 0 (hostWrite q.fn q.cid bs (charge q.fn .rdBytes bs.length u)) := by
  simp only [answerProof, hb, hw, Bool.false_eq_true, if_false]

theorem writeBundle_of_fits (b : Bytes) {numd : Nat} (h : b.length ≤ (numd + 1) * 4) (v : State) :
    writeBundle q numd b v = done q .success b.length 0 (hostWrite q.fn q.cid b (charge q.fn .rdBytes b.length v)) := by
  simp only [writeBundle, List.take_of_length_le h, if_pos h]

/-- A new bundle that the budget and the signature unit let begin (R309). -/
theorem startExport_of_new (hattached : attachedNs u q.fn q.nsid = some x) (hw : readWaits u q.fn = false)
    {first last comp level numd : Nat} {proofs sign : Bool} (hrange : first ≤ last)
    (hfree : sign = true → signFree u (qosOf u q.fn).cls = true) (v : State)
    (hv : v = if sign then spendSign (qosOf u q.fn).cls u else u)
    (hcover : proofs = true → (coveredTo v).any (fun n => last ≤ n) = true) :
    startExport q first last comp level proofs sign numd 0 false u =
      writeBundle q numd (bundleHead v q.nsid x first last comp level proofs ++
        bundleTail v sign (bundleHead v q.nsid x first last comp level proofs))
        (if sign then incF SGN_COUNT_SIGNED 1 v else v) := by
  have hno : (sign && !signFree u (qosOf u q.fn).cls) = false := by
    cases sign with
    | false => rfl
    | true => rw [hfree rfl]; rfl
  have hgood : (decide (last < first) || (proofs && !(coveredTo v).any (fun n => decide (last ≤ n)))) = false := by
    rw [decide_eq_false (Nat.not_lt.mpr hrange), Bool.false_or]
    cases proofs with
    | false => rfl
    | true => rw [hcover rfl]; rfl
  simp only [startExport, getNs_of_attachedNs hattached, hw, beq_self_eq_true, Bool.and_true, Bool.not_false, hno,
    Bool.false_eq_true, if_false, ← hv, exportPart, bne_self_eq_false, hgood]

theorem startExport_of_unknown (hattached : attachedNs u q.fn q.nsid = some x) (hw : readWaits u q.fn = false)
    {first last comp level numd resume : Nat} {proofs sign : Bool} (hr : resume ≠ 0) (h0 : u.exports = []) :
    startExport q first last comp level proofs sign numd resume false u = done q .invalidField 0 0 u := by
  have hz : (resume == 0) = false := by simpa using hr
  have hnz : (resume != 0) = true := by simpa using hr
  simp only [startExport, getNs_of_attachedNs hattached, hw, hz, Bool.and_false, Bool.false_and, Bool.false_eq_true, if_false,
    exportPart, hnz, if_true, h0, List.find?_nil]

end Evidence

/-- Settles O29: a hold by how many there are, then a token by its length and by what its checks say. -/
theorem holdAndRelease : Obligations.HoldAndRelease := by
  unfold Obligations.HoldAndRelease
  intro s u q x first last tag numd token t hok hns hsealed ht
  subst ht
  have hat := hns.attached
  refine ⟨fun hlt => ?_, fun hle => ?_, fun h hx hf hl => exec_holdQuery_of_one hok hns hsealed h hx hf hl,
    fun hx hshort => ?_, fun hx hlen hidle v hv => ⟨fun hr => ?_, fun hr => ?_, fun hr => ?_⟩⟩
  · rw [exec_holdPlace_of_nsOk hok hns hsealed, if_neg (Nat.not_le.mpr hlt), addTrans]
  · rw [exec_holdPlace_of_nsOk hok hns hsealed, if_pos hle]
  · have hend : ∀ dryrun, release q numd token dryrun s = .next (done q .dataTransferError 0 0 u) := fun dryrun => by
      rw [release_of_nsOk hok hns hsealed numd token dryrun hx, shortData, if_pos hshort, orElse_of_some]
    exact ⟨hend false, hend true⟩
  · have hgood : ∀ dryrun, release q numd token dryrun s = _ := fun dryrun =>
      (release_of_checked hok hns hsealed dryrun hx hlen hidle hr (by decide) (by decide)).trans
        (congrArg Host.Outcome.next (checkToken_of_good _ hat hr rfl dryrun))
    rw [hv]
    exact ⟨hgood false, hgood true⟩
  · rw [exec_releaseCmd, execReleaseCmd, release_of_checked hok hns hsealed false hx hlen hidle hr (by decide) (by decide),
      checkToken_of_refused _ hat hr rfl, hv]
  · rw [exec_releaseCmd, execReleaseCmd, release_of_checked hok hns hsealed false hx hlen hidle hr (by decide) (by decide),
      checkToken_of_held _ hat hr rfl, hv]

/-- Settles O30: the range, the proof and the bundle each by what its buffer and its namespace allow, then the cookies. -/
theorem proofAndExport : Obligations.ProofAndExport := by
  unfold Obligations.ProofAndExport
  intro s u q x slba nlb stroke kind numd first last comp level resume chain proofs sign bs hok hns hsealed
  have hat := hns.attached
  refine ⟨fun hin => ?_, fun hout => ?_, fun hw => ⟨fun hn hk hx hb => ⟨fun hle => ?_, fun hlt => ?_⟩, fun hn hk => ?_,
    fun hc hx => ⟨fun hr hrange hfree v b hv hcover hbs hb hfit => ?_, fun hr h0 => ?_⟩⟩, ?_⟩
  · rw [exec_verifyRange_of_nsOk hok hns hsealed, if_neg (Nat.not_lt.mpr hin), orElse_of_none]
  · rw [exec_verifyRange_of_nsOk hok hns hsealed, if_pos hout, orElse_of_some]
  · rw [exec_proofRead_of_nsOk hok hns hsealed hn, if_neg (Nat.not_le.mpr hk), hx, orElse_of_none, answerProof_of_ok hw hb,
      if_neg (Nat.not_lt.mpr hle)]
  · rw [exec_proofRead_of_nsOk hok hns hsealed hn, if_neg (Nat.not_le.mpr hk), hx, orElse_of_none, answerProof_of_ok hw hb,
      if_pos hlt]
  · rw [exec_proofRead_of_nsOk hok hns hsealed hn, if_pos hk, orElse_of_some]
  · rw [exec_exportBundle_of_nsOk hok hns hsealed hc hx, hr, startExport_of_new hat hw hrange hfree v hv hcover, hbs, ← hb,
      writeBundle_of_fits b hfit]
  · rw [exec_exportBundle_of_nsOk hok hns hsealed hc hx, startExport_of_unknown hat hw hr h0]
  · rw [exec_exportCookieLapse, execExportCookieLapse]

end Sys2Proof.Machine
/-!
PROOFS. STREAM BIND and the summary ring (R113, R114, R126), and the ports (R108 to R110, R122).
-/

namespace Sys2Proof.Machine

/-! ### STREAM BIND -/

theorem bindError_cons_true (st : Status) (r : Nat) (rows : List (Bool × Status × Nat)) :
    bindError ((true, st, r) :: rows) = some (st, if r = 0 then 0 else bindReason r) := rfl

theorem bindError_cons_false (st : Status) (r : Nat) (rows : List (Bool × Status × Nat)) :
    bindError ((false, st, r) :: rows) = bindError rows := rfl

section Binds

variable {s u : State} {q : Sqe} {numd flow : Nat} {desc d : Bytes}

theorem vendorGate_of_good (he : badEntry q = false) (hc : converting u q.nsid = false)
    (hq : attachedNs u q.fn q.nsid = none ∨ deferredHit u q = false ∧ nsPending u q.nsid = false)
    (hx : xferError q.xfer false ((numd + 1) * 4) = none) (hlen : (numd + 1) * 4 ≤ desc.length) (k : State → State) :
    vendorGate q numd desc k u = k u := by
  have hdef : ((attachedNs u q.fn q.nsid).isSome && deferredHit u q) = false := by
    rcases hq with h | ⟨h, -⟩ <;> simp [h]
  have hpend : ((attachedNs u q.fn q.nsid).isSome && nsPending u q.nsid) = false := by
    rcases hq with h | ⟨-, h⟩ <;> simp [h]
  simp only [vendorGate, he, hdef, hc, hpend, Bool.false_eq_true, if_false, hx, shortData, if_neg (Nat.not_lt.mpr hlen),
    Option.or_none, orElse_of_none]

theorem bindError_of_length {st : Status} {r len : Nat} (h : leAt d 2 2 ≠ len) (rows : List (Bool × Status × Nat)) :
    bindError ((leAt d 2 2 != len, st, r) :: rows) = some (st, if r = 0 then 0 else bindReason r) := by
  rw [bne_iff_ne.mpr h, bindError_cons_true]

theorem bindError_of_bindRows_length (h : leAt d 2 2 ≠ (numd + 1) * 4) :
    bindError (bindRows u q numd d) = some (.lengthMismatch, 0) := bindError_of_length h _

theorem bindError_of_modifyRows_length (h : leAt d 2 2 ≠ (numd + 1) * 4) :
    bindError (modifyRows u q numd flow d) = some (.lengthMismatch, 0) := bindError_of_length h _

section

variable (hok : IoOk q s u) (hgate : ∀ k, vendorGate q numd desc k u = k u) (hd : d = numdData numd desc)
include hok hgate hd

theorem exec_flowBind_of_gate :
    exec (.flowBind q numd desc) s = .next (takeBind q 0 0 d (bindError (bindRows u q numd d)) u) := by
  rw [exec_flowBind, execFlowBind, ioFetch_of_ioOk hok, hgate, hd]

theorem exec_flowModify_of_gate : exec (.flowModify q numd flow desc) s =
    .next (takeBind q 2 (flow % 65536) d (bindError (modifyRows u q numd (flow % 65536) d)) u) := by
  rw [exec_flowModify, execFlowModify, ioFetch_of_ioOk hok, hgate, hd]

theorem exec_flowUnbind_of_length (h : leAt d 2 2 ≠ (numd + 1) * 4) :
    exec (.flowUnbind q numd flow desc) s = .next (done q .lengthMismatch 0 0 u) := by
  simp only [exec_flowUnbind, execFlowUnbind, ioFetch_of_ioOk hok, hgate, ← hd, bindError_of_length h, if_true, takeBind]

theorem exec_flowUnbind_of_good (hl : leAt d 2 2 = 4) (hn : numd = 0) (h0 : byteAt d 0 = 1) (h1 : byteAt d 1 = 1)
    (hown : (ownFlow u q.fn (flow % 65536)).isSome = true) (hsealed : sealedNs u q.fn q.nsid = true) :
    exec (.flowUnbind q numd flow desc) s = .next (takeBind q 1 (flow % 65536) d none u) := by
  have hnone : (ownFlow u q.fn (flow % 65536)).isNone = false := by
    obtain ⟨x, hx⟩ := Option.isSome_iff_exists.mp hown
    rw [hx]; rfl
  rw [exec_flowUnbind, execFlowUnbind, ioFetch_of_ioOk hok, hgate, ← hd]
  subst hn
  simp only [hl, h0, h1, hnone, hsealed]
  rfl

end

theorem exec_bindCommit_of_one {b : BindReq} (hb : s.ing.binds = [b]) : exec .bindCommit s = .next
    (if dueAt s b.at_ then commitBind b { s with ing := { s.ing with binds := [] } } else s) := by
  rw [exec_bindCommit, execBindCommit, hb]
  cases hdue : dueAt s b.at_ with
  | true => simp only [List.filter_cons, List.filter_nil, hdue, Bool.not_true, Bool.false_eq_true, if_true, if_false,
      List.foldl_cons, List.foldl_nil]
  | false =>
    simp only [List.filter_cons, List.filter_nil, hdue, Bool.not_false, Bool.false_eq_true, if_true, if_false, List.foldl_nil]
    rw [← hb]

end Binds

/-! ### The summary ring -/

section Rings

variable {s u : State} {q : Sqe} {numd action : Nat} {desc d : Bytes}

theorem ringGate_of_good (hok : IoOk q s u) (he : badEntry q = false) (hn : q.nsid = 0)
    (hx : xferError q.xfer false ((numd + 1) * 4) = none) (hlen : (numd + 1) * 4 ≤ desc.length) (hd : d = numdData numd desc)
    (hl : leAt d 2 2 = (numd + 1) * 4) (k : Bytes → State → State) : ringGate q numd 0 desc k s = .next (k d u) := by
  subst hd
  simp only [ringGate, ioFetch_of_ioOk hok, he, hn, hx, hl, shortData, if_neg (Nat.not_lt.mpr hlen), bne_self_eq_false,
    Bool.or_self, Bool.false_eq_true, if_false, Option.or_none, orElse_of_none]

variable (hgate : ∀ k, ringGate q numd 0 desc k s = .next (k d u))
include hgate

theorem exec_ringBind_of_gate : exec (.ringBind q numd action 0 desc) s = .next (
    if ringBad action d then done q .invalidField (0xFFFF + 65536) 0 u
    else if vectors u q.fn ≤ leAt d 24 2 then done q .invalidInterruptVector 0 0 u
    else done q .success 0 0 (updFn q.fn (fun x => { x with ring := some {
      slots := leAt d 4 4, addr := leAt d 8 8, cons := leAt d 16 8, vector := leAt d 24 2, items := byteAt d 26 } }) u)) := by
  rw [exec_ringBind, execRingBind, hgate]
  rfl

theorem exec_ringRemove_of_gate (hn : numd = 0) (h0 : byteAt d 0 = 2) (h1 : byteAt d 1 = 1) :
    exec (.ringRemove q numd 0 desc) s = .next (done q .success 0 0 (updFn q.fn (fun x => { x with ring := none }) u)) := by
  rw [exec_ringRemove, execRingRemove, hgate, h0, h1]
  subst hn
  rfl

end Rings

/-- Settles O31: the binds by the row that fails, their commits, then the ring's two commands. -/
theorem flowAndRingCommands : Obligations.FlowAndRingCommands := by
  unfold Obligations.FlowAndRingCommands
  refine ⟨⟨fun s u q numd flow desc d hok he hc hq hx hlen hd => ?_, fun s b hb => ⟨fun hdue => ?_, fun hdue => ?_⟩⟩,
    fun s u q numd action desc d hok he hn hx hlen hd hl => ?_⟩
  · have hgate := vendorGate_of_good (numd := numd) (desc := desc) he hc hq hx hlen
    refine ⟨fun hgood => ?_, fun hl => ⟨?_, exec_flowUnbind_of_length hok hgate hd hl, ?_⟩,
      exec_flowUnbind_of_good hok hgate hd, fun hgood => ?_⟩
    · rw [exec_flowBind_of_gate hok hgate hd, hgood]
    · rw [exec_flowBind_of_gate hok hgate hd, bindError_of_bindRows_length hl, takeBind]
    · rw [exec_flowModify_of_gate hok hgate hd, bindError_of_modifyRows_length hl, takeBind]
    · rw [exec_flowModify_of_gate hok hgate hd, hgood]
  · rw [exec_bindCommit_of_one hb, if_pos hdue]
  · rw [exec_bindCommit_of_one hb, hdue, if_neg Bool.false_ne_true]
  · have hgate := ringGate_of_good hok he hn hx hlen hd hl
    refine ⟨fun hgood hv => ?_, fun hbad => ?_, fun hgood hv => ?_, exec_ringRemove_of_gate hgate⟩
    · rw [exec_ringBind_of_gate hgate, hgood, if_neg Bool.false_ne_true, if_neg (Nat.not_le.mpr hv)]
    · rw [exec_ringBind_of_gate hgate, if_pos hbad]
    · rw [exec_ringBind_of_gate hgate, hgood, if_neg Bool.false_ne_true, if_pos hv]

/-! ### Ports -/

section Ports

variable {s u : State} {frac p : Nat} (hp : p < 4)
include hp

theorem exec_portEnable_eq : exec (.portEnable p) s = .next (if bitAt (getF s ING_CTL_PORT_EN) p then s
    else applyPortEn (setF ING_CTL_PORT_EN (getF s ING_CTL_PORT_EN + 2 ^ p) s)) := by
  simp only [exec_portEnable, execPortEnable, Nat.mod_eq_of_lt hp]

theorem exec_portLinkUp_of_down (hu : u = atFrac frac s) (up : PortUp) (hr : (getPort u p).running = true)
    (hl : flagF u (ING_PORT_LINK p) = false) (hq : (getPort u p).quiet = false) :
    exec (.portLinkUp frac p up) s = .next (linkRec p 8 (setF (ING_PORT_LINK p) 1 (setF (ING_PORT_LOCK p) 1
      (setF (ING_PORT_RX_INV p) (bit up.rxInv) (setF (ING_PORT_AN_DONE p) (bit (2 ≤ (getPort u p).mode))
        (setF (ING_PORT_REMOTE_FAULT p) 0 (updPort p (fun y => { y with
          quiet := false, sgmii := if (getPort u p).mode = 3 then some up.mbps else y.sgmii }) u))))))) := by
  simp only [exec_portLinkUp, execPortLinkUp, Nat.mod_eq_of_lt hp, ← hu, hr, hl, hq, Bool.not_true, Bool.or_self,
    Bool.false_eq_true, if_false]

theorem exec_portLinkLost_eq (hu : u = atFrac frac s) : exec (.portLinkLost frac p) s =
    .next (if flagF u (ING_PORT_LINK p) then linkRec p 7 (dropLink p u) else u) := by
  simp only [exec_portLinkLost, execPortLinkLost, Nat.mod_eq_of_lt hp, ← hu]

theorem exec_txPolarityToggle_of_link (hl : flagF s (ING_PORT_LINK p) = true) (look : PortTry) :
    exec (.txPolarityToggle p look) s = .next s := by
  simp only [exec_txPolarityToggle, execTxPolarityToggle, Nat.mod_eq_of_lt hp, hl, Bool.or_true, if_true]

section

variable (hr : (getPort s p).running = true) (hl : flagF s (ING_PORT_LINK p) = false)
  (ha : flagF s (ING_PORT_TX_INV_AUTO p) = true)
include hr hl ha

/-- In the modes of auto-negotiation the polarity turns each time that it does not complete. -/
theorem exec_txPolarityToggle_of_negotiated (hm : 2 ≤ (getPort s p).mode) (look : PortTry) :
    exec (.txPolarityToggle p look) s = .next (setF (ING_PORT_TX_INV p) (1 - getF s (ING_PORT_TX_INV p))
      (setF (ING_PORT_LOCK p) 1 (setF (ING_PORT_RX_INV p) (bit look.rxInv) s))) := by
  have hno : ¬ (getPort s p).mode ≤ 1 := by omega
  simp only [exec_txPolarityToggle, execTxPolarityToggle, Nat.mod_eq_of_lt hp, hr, hl, ha, Bool.not_true, Bool.or_self,
    Bool.false_eq_true, if_false, if_neg hno, decide_eq_true hm, Bool.true_or, Bool.and_self, if_true]

/-- In the other modes the polarity turns on a remote fault, which is shown. -/
theorem exec_txPolarityToggle_of_fault (hm : (getPort s p).mode ≤ 1) (look : PortTry) (r : State)
    (hr' : r = setF (ING_PORT_REMOTE_FAULT p) (bit look.remoteFault)
      (setF (ING_PORT_LOCK p) 1 (setF (ING_PORT_RX_INV p) (bit look.rxInv) s))) :
    exec (.txPolarityToggle p look) s = .next (if look.remoteFault then
      setF (ING_PORT_TX_INV p) (1 - getF s (ING_PORT_TX_INV p)) r else r) := by
  have hno : decide (2 ≤ (getPort s p).mode) = false := decide_eq_false (by omega)
  simp only [exec_txPolarityToggle, execTxPolarityToggle, Nat.mod_eq_of_lt hp, hr, hl, ha, Bool.not_true, Bool.or_self,
    Bool.false_eq_true, if_false, if_pos hm, hno, Bool.false_or, Bool.true_and, ← hr']

end

section

variable (hl : flagF s (ING_PORT_LINK p) = true) (mac ip : Nat)
include hl

theorem exec_arpRequest_of_own (ha : flagF s (ING_PORT_ARP_EN p) = true) (h0 : getF s (ING_PORT_IPV4 p) ≠ 0) :
    ∃ b, exec (.arpRequest p mac ip (getF s (ING_PORT_IPV4 p))) s = .next (emit (.frame p b) s) := by
  have hmeant : (flagF s (ING_PORT_LINK p) && flagF s (ING_PORT_ARP_EN p) && getF s (ING_PORT_IPV4 p) != 0 &&
      getF s (ING_PORT_IPV4 p) == getF s (ING_PORT_IPV4 p)) = true := by simp [hl, ha, h0]
  simp only [exec_arpRequest, execArpRequest, Nat.mod_eq_of_lt hp, if_pos hmeant]
  exact ⟨_, rfl⟩

theorem exec_neighbourSolicitation_of_own (ha : flagF s (ING_PORT_NDP_EN p) = true) (h0 : portIpv6 s p ≠ 0) :
    ∃ b, exec (.neighbourSolicitation p mac ip (portIpv6 s p)) s = .next (emit (.frame p b) s) := by
  have hmeant : (flagF s (ING_PORT_LINK p) && flagF s (ING_PORT_NDP_EN p) && portIpv6 s p != 0 &&
      portIpv6 s p == portIpv6 s p) = true := by simp [hl, ha, h0]
  simp only [exec_neighbourSolicitation, execNeighbourSolicitation, Nat.mod_eq_of_lt hp, if_pos hmeant]
  exact ⟨_, rfl⟩

end

theorem exec_arpRequest_of_other {mac ip target : Nat} (h : getF s (ING_PORT_IPV4 p) ≠ target) :
    exec (.arpRequest p mac ip target) s = .next s := by
  have hother : (target == getF s (ING_PORT_IPV4 p)) = false := beq_eq_false_iff_ne.mpr (Ne.symm h)
  simp only [exec_arpRequest, execArpRequest, Nat.mod_eq_of_lt hp, hother, Bool.and_false, Bool.false_eq_true, if_false]

theorem exec_neighbourSolicitation_of_other {mac ip target : Nat} (h : portIpv6 s p ≠ target) :
    exec (.neighbourSolicitation p mac ip target) s = .next s := by
  have hother : (target == portIpv6 s p) = false := beq_eq_false_iff_ne.mpr (Ne.symm h)
  simp only [exec_neighbourSolicitation, execNeighbourSolicitation, Nat.mod_eq_of_lt hp, hother, Bool.and_false,
    Bool.false_eq_true, if_false]

end Ports

/-- Settles O32: enabling, the two link events, the polarity by the port's mode, and the frames a port answers. -/
theorem ports : Obligations.Ports := by
  unfold Obligations.Ports
  intro s u frac p mac ip mbps inv fault hp hu
  refine ⟨fun hb => ?_, fun hb => ?_, exec_portLinkUp_of_down hp hu ⟨inv, mbps⟩, fun hl => ?_, fun hl => ?_,
    fun hr hl hm ha => exec_txPolarityToggle_of_negotiated hp hr hl ha hm ⟨fault, inv⟩,
    fun hr hl hm ha => exec_txPolarityToggle_of_fault hp hr hl ha hm ⟨fault, inv⟩,
    fun hl => ⟨exec_txPolarityToggle_of_link hp hl _, exec_arpRequest_of_own hp hl mac ip, exec_arpRequest_of_other hp,
      exec_neighbourSolicitation_of_own hp hl mac ip, exec_neighbourSolicitation_of_other hp⟩⟩
  · rw [exec_portEnable_eq hp, hb, if_neg Bool.false_ne_true]
  · rw [exec_portEnable_eq hp, if_pos hb]
  · rw [exec_portLinkLost_eq hp hu, if_pos hl]
  · rw [exec_portLinkLost_eq hp hu, hl, if_neg Bool.false_ne_true]

end Sys2Proof.Machine
/-!
PROOFS. A received frame: counted, classified, refused or stored (R111, R116 to R119, R124, R125).
-/

namespace Sys2Proof.Machine

/-! ### At the port -/

section Port

variable {s u : State} {frac p kib : Nat} {frame : Bytes} {bad room : Bool}

theorem exec_frameReceived_of_unheard (hp : p < 4) (hu : u = atFrac frac s)
    (h : (getPort u p).running = false ∨ flagF u (ING_PORT_LINK p) = false ∨ u.ing.paused = true) :
    exec (.frameReceived frac p frame bad room kib) s = .next u := by
  have hno : (!(getPort u p).running || !flagF u (ING_PORT_LINK p) || u.ing.paused) = true := by
    rcases h with h | h | h <;> simp [h]
  simp only [exec_frameReceived, execFrameReceived, Nat.mod_eq_of_lt hp, ← hu, hno, if_true]

theorem exec_frameReceived_of_heard (hp : p < 4) (hu : u = atFrac frac s) (hr : (getPort u p).running = true)
    (hl : flagF u (ING_PORT_LINK p) = true) (hpause : u.ing.paused = false) :
    exec (.frameReceived frac p frame bad room kib) s = .next (receiveFrame p frame bad room
      (setPanic p (getF u (ING_PORT_PANIC_KIB p) < kib) (setF (ING_PORT_LEVEL_KIB p) (min 256 kib) u))) := by
  simp only [exec_frameReceived, execFrameReceived, Nat.mod_eq_of_lt hp, ← hu, hr, hl, hpause, Bool.not_true, Bool.or_self,
    Bool.false_eq_true, if_false]

end Port

/-! ### Its classification -/

section Classified

variable {s u v : State} {p : Nat} {frame : Bytes} {bad room : Bool} {q : FrameRes}
  (hu : u = updPort p (fun y => { y with frames := cnt32 y.frames }) s)
  (hq : q = parseFrame (getF s (ING_PORT_MAX_FRAME p)) bad frame)
include hu hq

theorem receiveFrame_of_event (hp : p = getF s STK_CTL_PTP_PORT) (he : ptpEvent frame q = true) :
    receiveFrame p frame bad room s = u := by
  have hev : (decide (p = getF s STK_CTL_PTP_PORT) && ptpEvent frame q) = true := by rw [he, decide_eq_true hp]; rfl
  simp only [receiveFrame, ← hq, ← hu, hev, if_true]

section

variable (hev : (decide (p = getF s STK_CTL_PTP_PORT) && ptpEvent frame q) = false)
include hev

theorem receiveFrame_of_bad (hb : q = .bad) :
    receiveFrame p frame bad room s = updPort p (fun y => { y with bad := cnt32 y.bad }) u := by
  simp only [receiveFrame, ← hq, ← hu, hev, Bool.false_eq_true, if_false]
  rw [hb]

theorem receiveFrame_of_unmatched (hb : q = .unmatched) :
    receiveFrame p frame bad room s = updPort p (fun y => { y with unmatched := cnt32 y.unmatched }) u := by
  simp only [receiveFrame, ← hq, ← hu, hev, Bool.false_eq_true, if_false]
  rw [hb]

/-- A packet's lookup is counted, and its flow decides (R116). -/
theorem receiveFrame_of_pkt {k : Pkt} (hk : q = .pkt k)
    (hv : v = if k.udp.length < 12 then incF SIV_LOOKUPS 1 u else countLookup 1 (pktKey p k (beAt k.udp 8 4)) u) :
    (classify v p k = none →
      receiveFrame p frame bad room s = updPort p (fun y => { y with unmatched := cnt32 y.unmatched }) v) ∧
    (∀ fid x, classify v p k = some (fid, x) → receiveFrame p frame bad room s =
      if s.mode.cur = .readOnly || (s.mode.cur = .park && !x.parks) then
        updPort p (fun y => { y with unmatched := cnt32 y.unmatched }) v
      else takePkt fid (learnSsrc x k) k room (setFlow fid (learnSsrc x k) v)) := by
  subst hk
  refine ⟨fun hc => ?_, fun fid x hc => ?_⟩
  · simp only [receiveFrame, ← hq, ← hu, hev, Bool.false_eq_true, if_false, ← hv, hc]
  · simp only [receiveFrame, ← hq, ← hu, hev, Bool.false_eq_true, if_false, ← hv, hc]

end

end Classified

/-! ### A packet of a flow -/

section Packet

variable {s : State} {fid n : Nat} {x : Flow} {k : Pkt} {room : Bool} (hlen : 4 ≤ k.udp.length) (hn : n = beAt k.udp 2 2)
include hlen hn

theorem takePkt_of_dirtyLimit (hd : atDirtyLimit s = true) :
    takePkt fid x k room s = refusePkt fid 3 k.udp.length (some n) s := by
  simp only [takePkt, hd, if_true, if_neg (Nat.not_lt.mpr hlen), ← hn]

variable (hd : atDirtyLimit s = false)
include hd

theorem takePkt_of_noRoom : takePkt fid x k true s = refusePkt fid 5 k.udp.length (some n) s := by
  simp only [takePkt, hd, Bool.false_eq_true, if_true, if_false, if_neg (Nat.not_lt.mpr hlen), ← hn]

theorem takePkt_of_badLength (hr : parseRtp k.udp = none) :
    takePkt fid x k false s = refusePkt fid 6 k.udp.length (some n) s := by
  simp only [takePkt, hd, Bool.false_eq_true, if_false, if_neg (Nat.not_lt.mpr hlen), ← hn, hr]

section

variable {r : Rtp} (hr : parseRtp k.udp = some r)
include hr

theorem takePkt_of_nsFull (hf : nsFull s x r.payload.length = true) :
    takePkt fid x k false s = refusePkt fid 10 k.udp.length (some n) s := by
  simp only [takePkt, hd, Bool.false_eq_true, if_false, if_neg (Nat.not_lt.mpr hlen), ← hn, hr, hf, if_true]

theorem takePkt_of_overRate (hf : nsFull s x r.payload.length = false) (h0 : x.left = 0) :
    takePkt fid x k false s = refusePkt fid 2 k.udp.length (some n) s := by
  simp only [takePkt, hd, Bool.false_eq_true, if_false, if_neg (Nat.not_lt.mpr hlen), ← hn, hr, hf, h0, if_true]

omit hlen hn

theorem takePkt_of_duplicate (hf : nsFull s x r.payload.length = false) (h0 : x.left ≠ 0)
    (ht : (seqTrack r.seq (now s) true x).1 = none) : takePkt fid x k false s =
      setFlow fid { x with dup := cnt32 x.dup, touched := true, seen := true, silent := false, idle := 0 } s := by
  simp only [takePkt, hd, Bool.false_eq_true, if_false, hr, hf, h0, ht]

theorem takePkt_of_stored (hf : nsFull s x r.payload.length = false) (h0 : x.left ≠ 0) (fl : Nat)
    (ht : (seqTrack r.seq (now s) true x).1 = some fl) :
    takePkt fid x k false s = storeUnit fid r fl (seqTrack r.seq (now s) true x).2 s := by
  simp only [takePkt, hd, Bool.false_eq_true, if_false, hr, hf, h0, ht]

end

end Packet

/-- Settles O33: the port, then the frame by what it parses to and what flow it names, then the packet by the first refusal that
meets it. -/
theorem frameReceived : Obligations.FrameReceived := by
  unfold Obligations.FrameReceived
  refine ⟨fun s u frac p kib frame bad room hp hu => ⟨exec_frameReceived_of_unheard hp hu, exec_frameReceived_of_heard hp hu⟩,
    fun s u p frame bad room hu q hq => ⟨receiveFrame_of_event hu hq, fun hno => ?_⟩,
    fun s fid x k room hlen n hn => ⟨takePkt_of_dirtyLimit hlen hn, fun hd => ⟨takePkt_of_noRoom hlen hn hd,
      takePkt_of_badLength hlen hn hd, fun r hr => ⟨takePkt_of_nsFull hlen hn hd hr, takePkt_of_overRate hlen hn hd hr,
        fun hf h0 => ⟨takePkt_of_duplicate hd hr hf h0, takePkt_of_stored hd hr hf h0⟩⟩⟩⟩⟩
  have hev : (decide (p = getF s STK_CTL_PTP_PORT) && ptpEvent frame q) = false := by
    rcases hno with h | h <;> simp [h]
  refine ⟨receiveFrame_of_bad hu hq hev, receiveFrame_of_unmatched hu hq hev, fun k v fid x hk hlong hshort => ?_⟩
  have hv : v = if k.udp.length < 12 then incF SIV_LOOKUPS 1 u else countLookup 1 (pktKey p k (beAt k.udp 8 4)) u := by
    split
    · next h => exact hshort h
    · next h => exact hlong (Nat.not_lt.mp h)
  obtain ⟨hnone, hsome⟩ := receiveFrame_of_pkt (room := room) hu hq hev hk hv
  refine ⟨hnone, fun hc => ⟨fun hm => ?_, fun hro hpark => ?_⟩⟩
  · rw [hsome fid x hc, if_pos]
    rcases hm with h | ⟨h, hx⟩
    · simp [h]
    · simp [h, hx]
  · rw [hsome fid x hc, if_neg]
    rcases hpark with h | h <;> simp [hro, h]

end Sys2Proof.Machine
/-!
PROOFS. Operations on a flash die and how they end (R165 to R175, R179, R203, R205), and the recovery of codewords and dies (R165,
R174 to R178, R191, R192).
-/

namespace Sys2Proof.Machine

/-! ### The ends of a die's operation -/

section Die

variable {s u : State} {die : Nat} {q : QueuedOp} (hrun : (getDie s die).running = some q)

section

include hrun

theorem exec_nandStatusPoll_of_running : exec (.nandStatusPoll die) s = .next (emit (.nand (die / 16) die 7 0) s) := by
  simp only [exec_nandStatusPoll, execNandStatusPoll, hrun, Option.isSome_some, if_true]

theorem exec_nandReadDone_of_read {unit count : Nat} (hop : q.op = .read unit count) (res : List DecodeRes) :
    exec (.nandReadDone die res) s = .next (settleOps (readResults die q res (countRead die unit s))) := by
  simp only [exec_nandReadDone, execNandReadDone, hrun, hop]

theorem exec_nandReadDone_of_soft {unit : Nat} (hop : q.op = .readSoft unit) (res : List DecodeRes) :
    exec (.nandReadDone die res) s = .next (settleOps (idleDie die { s with ftl := { s.ftl with deepQ := s.ftl.deepQ ++ [{
      die := die, unit := unit, cls := q.pos - 2, waited := 0, req := q }] } })) := by
  simp only [exec_nandReadDone, execNandReadDone, hrun, hop]

theorem exec_nandReadDone_of_program {band slot : Nat} (hop : q.op = .program band slot) (res : List DecodeRes) :
    exec (.nandReadDone die res) s = .next s := by
  simp only [exec_nandReadDone, execNandReadDone, hrun, hop]

theorem exec_nandReadDone_of_erase {m band : Nat} (hop : q.op = .erase m band) (res : List DecodeRes) :
    exec (.nandReadDone die res) s = .next s := by
  simp only [exec_nandReadDone, execNandReadDone, hrun, hop]

theorem exec_nandProgramDone_of_read {unit count : Nat} (hop : q.op = .read unit count) (pass : Bool) :
    exec (.nandProgramDone die pass) s = .next s := by
  simp only [exec_nandProgramDone, execNandProgramDone, hrun, hop]

theorem exec_nandEraseDone_of_read {unit count : Nat} (hop : q.op = .read unit count) (pass : Bool) :
    exec (.nandEraseDone die pass) s = .next s := by
  simp only [exec_nandEraseDone, execNandEraseDone, hrun, hop]

theorem exec_nandProgramDone_of_program {band slot : Nat} (hop : q.op = .program band slot) (pass : Bool) :
    exec (.nandProgramDone die pass) s = .next (if pass && slotCws die == 64 && Config.twoPass die && q.tries == 0 then
        runOp die { q with tries := 1 } s
      else idleDie die (if pass then slotPass die band slot s else slotFail die band slot s)) := by
  simp only [exec_nandProgramDone, execNandProgramDone, hrun, hop]

theorem exec_nandEraseDone_of_erase {m band : Nat} (hop : q.op = .erase m band) :
    exec (.nandEraseDone die true) s = .next (idleDie die (memberErased die m band s)) := by
  simp only [exec_nandEraseDone, execNandEraseDone, hrun, hop, if_true]

end

/-- What the results of a READ lead to, in the names that the obligation gives them (R174). -/
theorem readResults_eq {res : List DecodeRes} {rs : List (Nat × DecodeRes)} {left : List Nat} {t : State}
    (hrs : rs = q.cws.zip res) (hleft : left = q.cws.filter (fun k => !rs.any (fun e => e.1 == k && hardOk u e.2)))
    (ht : t = (rs.filter (fun e => hardOk u e.2)).foldl (hardDone die q.tries) u) :
    readResults die q res u =
      if left.isEmpty then idleDie die (place (deliverOp die { q with tries := 0, left := none } true t))
      else if q.tries < getF u LDP_CTL_RETRIES then retryRead die { q with tries := q.tries + 1, left := some left } t
      else idleDie die (softReads die q left t) := by
  subst hrs hleft ht
  rfl

/-- An erase that has run its slice gives way to a read of position 2 (R171). -/
theorem exec_operationSuspend_of_erase {frac m band : Nat} (hu : u = atFrac frac s) (hrun : (getDie u die).running = some q)
    (hop : q.op = .erase m band)
    (hleft : (getDie u die).suspends < min (getF u (MED_SUSP_ERS_MAX (die / 16))) (Config.eraseSuspendLimit die))
    (hran : getF u (MED_SUSP_ERS_SLICE_US (die / 16)) ≤ ranUs u die) (hnone : (getDie u die).suspended = none)
    (hread : ∃ z ∈ (getDie u die).queue, z.pos = 2 ∧ ∃ a b, z.op = .read a b) :
    exec (.operationSuspend ⟨frac, die⟩) s = .next (nextOp die (incF (MED_SUSPENDS (die / 16)) 1
      (emit (.nand (die / 16) die 6 0) (updDie die (fun y => { y with
        running := none, suspended := some q, suspends := y.suspends + 1, served := 0 }) u)))) := by
  have hwanted : (getDie u die).queue.any (fun z => (z.pos == 2 || z.pos == 3) && z.op.readAt.isSome) = true := by
    obtain ⟨z, hz, hpos, a, b, hzop⟩ := hread
    exact List.any_eq_true.mpr ⟨z, hz, by rw [hpos, hzop]; rfl⟩
  simp only [exec_operationSuspend, execOperationSuspend, ← hu, hrun, suspendRule, hop, hwanted, hnone, decide_eq_true hleft,
    decide_eq_true hran, Option.isNone_none, Bool.and_self, if_true]

end Die

/-! ### Re-centring -/

section Recenter

variable {s : State} {ch ce : Nat}

theorem exec_dqsRecenter_of_steady (hd : drifted s ch = false) : exec (.dqsRecenter ch ce) s = .next s := by
  simp only [exec_dqsRecenter, execDqsRecenter, hd, Bool.and_false, Bool.false_and, Bool.false_eq_true, if_false]

theorem exec_dqsRecenter_of_drifted {k : Chan} (hk : k = getChan s ch) (hce : ce < 4)
    (ht : flagF s (MED_STATUS_TRAINED ch) = true) (hf : flagF s (MED_STATUS_CH_FENCED ch) = false) (hd : drifted s ch = true)
    (hidle : ∀ l, l < 4 → (getDie s (ch * 16 + ce * 4 + l)).running = none) (hnew : k.ces.contains ce = false) :
    exec (.dqsRecenter ch ce) s = .next (emit (.nand ch (ch * 16 + ce * 4) 9 ce) { s with ftl := { s.ftl with
      chans := mset s.ftl.chans ch (if k.ces.length = 3 then { k with temp := chanTemp s ch, ces := [] }
        else { k with ces := k.ces ++ [ce] }) } }) := by
  have hquiet : (List.range 4).any (fun l => (getDie s (ch * 16 + ce * 4 + l)).running.isSome) = false :=
    any_eq_false_of_forall _ _ fun l hl => by rw [hidle l (List.mem_range.mp hl)]; rfl
  simp only [exec_dqsRecenter, execDqsRecenter, Nat.mod_eq_of_lt hce, ← hk, ht, hf, hd, hquiet, hnew, Bool.not_false,
    Bool.and_self, if_true, List.length_append, List.length_singleton, Nat.reduceEqDiff]

end Recenter

/-- Settles O35: a running operation by its kind and what ends it, then the re-centring of a chip enable. -/
theorem flashOperations : Obligations.FlashOperations := by
  unfold Obligations.FlashOperations
  refine ⟨fun s u die frac q res pass hrun => ⟨exec_nandStatusPoll_of_running hrun,
    fun unit count rs left t hop hu hrs hleft ht => ?_, fun unit hop => exec_nandReadDone_of_soft hrun hop res,
    fun band slot hop => ⟨fun hone => ?_, fun h64 h2 h0 => ?_, ?_, exec_nandReadDone_of_program hrun hop res⟩,
    fun m band hop => ⟨exec_nandEraseDone_of_erase hrun hop, exec_nandReadDone_of_erase hrun hop res,
      fun hu hrun' => exec_operationSuspend_of_erase hu hrun' hop⟩⟩,
    fun s ch ce k hk hce => ⟨exec_dqsRecenter_of_steady, fun ht hf hd hidle hnew => ⟨fun h3 => ?_, fun h3 => ?_⟩⟩⟩
  · have hdone : exec (.nandReadDone die res) s = _ := (exec_nandReadDone_of_read hrun hop res).trans
      (congrArg (fun a => Host.Outcome.next (settleOps a)) ((congrArg (readResults die q res) hu.symm).trans
        (readResults_eq hrs hleft ht)))
    refine ⟨fun h0 => ?_, fun h0 htry => ?_, fun h0 htry => ?_, exec_nandProgramDone_of_read hrun hop pass,
      exec_nandEraseDone_of_read hrun hop pass⟩
    · rw [hdone, h0, if_pos List.isEmpty_nil]
    · rw [hdone, if_neg (by simpa using h0), if_pos htry]
    · rw [hdone, if_neg (by simpa using h0), if_neg (Nat.not_lt.mpr htry)]
  · have hlast : (true && slotCws die == 64 && Config.twoPass die && q.tries == 0) = false := by
      rcases hone with h | h | h <;> simp [h]
    rw [exec_nandProgramDone_of_program hrun hop, hlast, if_neg Bool.false_ne_true, if_pos rfl]
  · rw [exec_nandProgramDone_of_program hrun hop, if_pos (by simp [h64, h2, h0])]
  · rw [exec_nandProgramDone_of_program hrun hop, if_neg (by simp), if_neg Bool.false_ne_true]
  · rw [exec_dqsRecenter_of_drifted hk hce ht hf hd hidle hnew, if_pos h3]
  · rw [exec_dqsRecenter_of_drifted hk hce ht hf hd hidle hnew, if_neg h3]

/-! ### Timeouts, deep decodes and rebuilds -/

section Recovery

variable {s u v z : State} {die frac : Nat}

theorem exec_nandTimeout_of_idle (h : (getDie s die).running = none) : exec (.nandTimeout die) s = .next s := by
  simp only [exec_nandTimeout, execNandTimeout, h]

/-- Where another usable die of the channel has not timed out in this stroke, only the die itself may be fenced (R165). -/
theorem exec_nandTimeout_of_running {other : Nat} {q : QueuedOp} {again : Bool} (hrun : (getDie s die).running = some q)
    (hagain : again = (getDie s die).timeoutAt.any (fun t => s.time.stroke ≤ t + 1024))
    (hu : u = (getDie s die).suspended.toList.foldl (fun a p => opTimedOut die p a)
      (blot 0x0402 2 die (le 1 (opCode q.op) ++ le 1 (bit again)) (opTimedOut die q (emit (.nand (die / 16) die 8 0)
        (updDie die (fun y => { y with
          running := none, suspended := none, served := 0, timeoutAt := some s.time.stroke }) s)))))
    (hmem : other ∈ usableDies u) (hch : other / 16 = die / 16) (hnot : (getDie u other).timeoutAt ≠ some s.time.stroke) :
    exec (.nandTimeout die) s = .next (settleOps (if again then fenceDie die 1 u else startDie die u)) := by
  have hsome : ((usableDies u).filter (fun d => d / 16 == die / 16)).all
      (fun d => (getDie u d).timeoutAt == some s.time.stroke) = false := by
    refine List.all_eq_false.mpr ⟨other, List.mem_filter.mpr ⟨hmem, by simp [hch]⟩, by simpa using hnot⟩
  have hcode : le 1 (bit again) = le 1 (if again then 1 else 0) := by cases again <;> rfl
  rw [hcode] at hu
  cases hat : (getDie s die).timeoutAt with
  | none =>
    rw [hat, Option.any_none] at hagain
    subst hagain
    rw [if_neg Bool.false_ne_true] at hu
    simp only [exec_nandTimeout, execNandTimeout, hrun, hat, ← hu, hsome, Bool.false_and, Bool.false_eq_true, if_false]
  | some t =>
    rw [hat, Option.any_some] at hagain
    simp only [exec_nandTimeout, execNandTimeout, hrun, hat, ← hagain, ← hu, hsome, Bool.false_and, Bool.false_eq_true, if_false]

theorem exec_deepDecodeDone_of_none (hs : s = atFrac frac z) (res : DecodeRes) (hn : nextDeep s = none) :
    exec (.deepDecodeDone frac res) z = .next s := by
  simp only [exec_deepDecodeDone, execDeepDecodeDone, ← hs, hn]

theorem exec_deepDecodeDone_of_next (hs : s = atFrac frac z) (res : DecodeRes) {w : DeepWait} (hn : nextDeep s = some w)
    (hv : v = chargeDeep w s) : exec (.deepDecodeDone frac res) z = .next (settleOps (
      if res.decoded || res.up + res.down ≤ 360 then recovered w.die w.unit true (incF LDP_DEEP_OK 1 v)
      else if w.req.why = 3 || w.req.why = 6 then recovered w.die w.unit false (incF LDP_DEEP_FAIL 1 v)
      else startRebuild w.die w.unit w.req (incF LDP_DEEP_FAIL 1 v))) := by
  simp only [exec_deepDecodeDone, execDeepDecodeDone, ← hs, hn, ← hv]

section

variable {r : Rebuild} (hs : s = atFrac frac z) (hr : s.ftl.rebuilds = [r])
  (hv : v = { s with ftl := { s.ftl with rebuilds := [] } })
include hs hr

theorem exec_stripeRebuildDone_of_waiting (hw : r.waits ≠ []) : exec (.stripeRebuildDone frac r.die r.unit) z = .next s := by
  have hno : [r].find? (fun x => x.die == r.die && x.unit == r.unit && x.waits.isEmpty) = none := by simpa using hw
  simp only [exec_stripeRebuildDone, execStripeRebuildDone, ← hs, hr, hno]

include hv

theorem exec_stripeRebuildDone_of_read (hw : r.waits = []) : exec (.stripeRebuildDone frac r.die r.unit) z = .next (settleOps
    (if r.lost = 0 then recovered r.die r.unit true (scheduleRefresh r.die (memberOf r.die r.unit) v)
    else recovered r.die r.unit false ((mediaAt v r.die r.unit).elim v (fun c => loseCodeword r.die r.unit c v)))) := by
  have hfound : [r].find? (fun x => x.die == r.die && x.unit == r.unit && x.waits.isEmpty) = some r := by simp [hw]
  simp only [exec_stripeRebuildDone, execStripeRebuildDone, ← hs, hr, hfound, dropFirst, beq_self_eq_true, if_true, ← hv]
  cases mediaAt v r.die r.unit with
  | none => rfl
  | some c => rfl

end

theorem exec_dieRebuildDone_of_last (hr : s.ftl.rebuildDie = [die]) (h0 : rebuildUnits s die = 0) :
    exec (.dieRebuildDone die) s = .next (faultRec 0x101 die s.time.stroke 0 (setF FTL_STATUS_REBUILD 0
      { s with ftl := { s.ftl with rebuildDie := [] } })) := by
  have hgo : (s.ftl.rebuildDie.contains die && rebuildUnits s die == 0) = true := by simp [hr, h0]
  have hrest : s.ftl.rebuildDie.filter (· != die) = [] := by simp [hr]
  simp only [exec_dieRebuildDone, execDieRebuildDone, hgo, if_true, hrest]
  rfl

theorem exec_dieRebuildDone_of_more (h : rebuildUnits s die ≠ 0) : exec (.dieRebuildDone die) s = .next s := by
  have hno : (rebuildUnits s die == 0) = false := by simpa using h
  simp only [exec_dieRebuildDone, execDieRebuildDone, hno, Bool.and_false, Bool.false_eq_true, if_false]

end Recovery

/-- Settles O36: the timeout, the deep decoder's result, the stripe's rebuild and the die's, each by its condition. -/
theorem flashRecovery : Obligations.FlashRecovery := by
  unfold Obligations.FlashRecovery
  refine ⟨⟨fun s die => exec_nandTimeout_of_idle, fun s u die other q again => exec_nandTimeout_of_running⟩,
    fun z s v frac w res hs => ⟨exec_deepDecodeDone_of_none hs res, fun hn hv => ⟨fun hok => ?_, fun hno hmany h3 h6 => ?_,
      fun hno hmany hwhy => ?_⟩⟩,
    fun z s v frac r hs hr hv => ⟨exec_stripeRebuildDone_of_waiting hs hr, fun hw h0 => ?_, fun hw h0 c hc => ?_⟩,
    fun s die => ⟨exec_dieRebuildDone_of_last, exec_dieRebuildDone_of_more⟩⟩
  · rw [exec_deepDecodeDone_of_next hs res hn hv, if_pos (by simpa using hok)]
  · rw [exec_deepDecodeDone_of_next hs res hn hv, if_neg (by simp [hno, hmany]), if_neg (by simp [h3, h6])]
  · rw [exec_deepDecodeDone_of_next hs res hn hv, if_neg (by simp [hno, hmany]), if_pos (by simpa using hwhy)]
  · rw [exec_stripeRebuildDone_of_read hs hr hv hw, if_pos h0]
  · rw [exec_stripeRebuildDone_of_read hs hr hv hw, if_neg h0, hc, Option.elim_some]

end Sys2Proof.Machine
/-!
PROOFS. Media bring-up, the mount and the NB5210 scan (R69, R226, R229, R413); the events of graph nodes (R264, R276 to R286).
-/

namespace Sys2Proof.Machine

/-! ### Bring-up and mount -/

section Boot

variable {s u : State} {chans : List ChanUp} {dram : DramUp} {gib : Nat} {ok : Bool} {frac : Nat}

theorem exec_mediaBringupStart_of_held (h : s.mode.stage ≠ .computeGood ∨ (s.mode.cur = .boot ∧ flagF s FWU_STATUS_COPY_DUE = true)) :
    exec (.mediaBringupStart chans dram gib ok) s = .next s := by
  have hheld : (s.mode.stage != .computeGood || (s.mode.cur == .boot && flagF s FWU_STATUS_COPY_DUE)) = true := by
    rcases h with h | ⟨h, hc⟩
    · simp [h]
    · simp [h, hc]
  simp only [exec_mediaBringupStart, execMediaBringupStart, hheld, if_true]

theorem exec_mediaBringupStart_of_boot (hst : s.mode.stage = .computeGood) (hm : s.mode.cur = .boot)
    (hc : flagF s FWU_STATUS_COPY_DUE = false) {r : State × Bool}
    (hu : u = (List.range 16).foldl (fun a c => bringUpChannel ((chans.find? (fun x => x.channel == c)).getD (silentChannel c)) a)
      (let v := setF CIP_STATUS_DRBG_OK (bit ok) s; { v with ftl := { v.ftl with rawGib := gib } }))
    (hr : r = trainDram dram u) (hs : s.mode.bootSafe = false) : exec (.mediaBringupStart chans dram gib ok) s =
      .next (if r.2 then enterSafe 0x0C r.1 else showClocks { r.1 with mode := { r.1.mode with stage := .bringUp } }) := by
  have hgo : (s.mode.stage != .computeGood || (s.mode.cur == .boot && flagF s FWU_STATUS_COPY_DUE)) = false := by
    simp [hst, hc]
  have hboot : (s.mode.cur != .boot) = false := by simp [hm]
  have hboot' : ((setF CIP_STATUS_DRBG_OK (bit ok) s).mode.cur != .boot) = false := by rw [setF_mode]; exact hboot
  have hs' : (setF CIP_STATUS_DRBG_OK (bit ok) s).mode.bootSafe = false := by rw [setF_mode]; exact hs
  simp only [exec_mediaBringupStart, execMediaBringupStart, hgo, if_pos hm, ← hu, ← hr, hboot', hs', Bool.false_eq_true,
    if_false]

theorem exec_mountComplete_of_held {media : MountMedia} (hu : u = atFrac frac s)
    (h : u.mode.cur ≠ .boot ∨ u.mode.stage ≠ .bringUp) : exec (.mountComplete frac media) s = .next u := by
  have hheld : (u.mode.cur != .boot || u.mode.stage != .bringUp || (u.time.bootWait && u.time.src != 0)) = true := by
    rcases h with h | h <;> simp [h]
  simp only [exec_mountComplete, execMountComplete, ← hu, hheld, if_true]

section

variable (hu : u = atFrac frac s) (hm : u.mode.cur = .boot) (hst : u.mode.stage = .bringUp) (hw : u.time.bootWait = false)
include hu hm hst hw

theorem exec_mountComplete_of_native {t : State} (ht : finishMount u = t) :
    exec (.mountComplete frac .native) s = .next (if t.ftl.formatted then t else
      { t with ftl := { t.ftl with formatted := true, poolFirst := (sparePool t).toNat } }) := by
  have hgo : (u.mode.cur != .boot || u.mode.stage != .bringUp || (u.time.bootWait && u.time.src != 0)) = false := by
    simp [hm, hst, hw]
  simp only [exec_mountComplete, execMountComplete, ← hu, hgo, Bool.false_eq_true, if_false, ht]

/-- NB5210 media beyond what its format can hold ends in SAFE (R69). -/
theorem exec_mountComplete_of_big {gib : Nat} {nss : List (Nat × Nat × Nat)} (hf : u.ftl.formatted = false) (hg : 8192 < gib) :
    exec (.mountComplete frac (.nb5210 gib nss)) s = .next (enterSafe 0x0C (blot 0x0802 3 0 (le 4 gib) u)) := by
  have hgo : (u.mode.cur != .boot || u.mode.stage != .bringUp || (u.time.bootWait && u.time.src != 0)) = false := by
    simp [hm, hst, hw]
  simp only [exec_mountComplete, execMountComplete, ← hu, hgo, hf, Bool.false_eq_true, if_false, if_pos hg]

end

theorem exec_nb5210ScanComplete_of_unsealing (us : List OldUnit) (hs : s.mode.cur.seals = false) :
    exec (.nb5210ScanComplete us) s = .next s := by
  simp only [exec_nb5210ScanComplete, execNb5210ScanComplete, hs, Bool.not_false, Bool.or_true, if_true]

theorem exec_nb5210ScanComplete_of_converting (us : List OldUnit) {n : Nat} {x : Ns} (hs : s.mode.cur.seals = true)
    (hn : s.nss = [(n, x)]) (hx : x.busy = .converting) :
    ∃ t, exec (.nb5210ScanComplete us) s = .next t ∧ t.ftl.formatted = true ∧ t.ftl.sinceCheckpoint = 64 := by
  have hold : (s.nss.filter (fun e => e.2.busy == .converting)).map (·.1) = [n] := by simp [hn, hx]
  simp only [exec_nb5210ScanComplete, execNb5210ScanComplete, hold, hs, List.isEmpty_cons, Bool.not_true, Bool.or_self,
    Bool.false_eq_true, if_false]
  refine ⟨_, rfl, ?_, ?_⟩
  · rfl
  · rfl

end Boot

/-- Settles O37: bring-up by its stage, the mount by the media, the scan by the mode. -/
theorem mediaBoot : Obligations.MediaBoot := by
  unfold Obligations.MediaBoot
  exact ⟨fun s chans dram gib ok => ⟨fun hst => exec_mediaBringupStart_of_held (.inl hst),
      fun hm hc => exec_mediaBringupStart_of_held (.inr ⟨hm, hc⟩),
      fun hst hm hc u r hu hr hs => exec_mediaBringupStart_of_boot hst hm hc hu hr hs⟩,
    fun s u frac media hu => ⟨exec_mountComplete_of_held hu, fun hm hst hw =>
      ⟨fun t => exec_mountComplete_of_native hu hm hst hw, fun gib nss => exec_mountComplete_of_big hu hm hst hw⟩⟩,
    fun s us => ⟨exec_nb5210ScanComplete_of_unsealing us, fun n x => exec_nb5210ScanComplete_of_converting us⟩⟩

/-! ### Dispatch -/

section Dispatch

variable {u : State} {h n core : Nat} {g : Graph} {r : GRun} {d : GNode} {x : NodeRun} (hg : getGraph u h = some g)
  (hd : nodeDesc u h n = some d) (hx : nodeRun u h n = some x) (hr : g.run = some r)
include hg hd hx hr

theorem nodeDispatch_of_still (hm : u.mode.cur.dispatches = false) : nodeDispatch h n core u = u := by
  simp only [nodeDispatch, hg, hd, hx, hr, hm, Bool.not_false, Bool.true_or, if_true]

section

variable (hm : u.mode.cur.dispatches = true) (hmem : (graphClass u h, h, n) ∈ u.duct.ready)
  (hgo : dispatchable u h n = true) (hfirst : firstInLine u h n = true) {v : State}
  (hv : v = { u with duct := { u.duct with ready := dropFirst (fun e => e.2.1 == h && e.2.2 == n) u.duct.ready } })
include hm hmem hgo hfirst hv

theorem nodeDispatch_of_nib (hk : d.kind = .nib) : nodeDispatch h n core u =
    if chooseCore u h d x = some core then showDuct (placeNode h n core g r d x v) else u := by
  have hin : u.duct.ready.contains (graphClass u h, h, n) = true := by simpa using hmem
  simp only [nodeDispatch, hg, hd, hx, hr, hm, hin, hgo, hfirst, Bool.not_true, Bool.or_self, Bool.false_eq_true, if_false,
    hk, beq_self_eq_true, if_true, beq_iff_eq, ← hv]

theorem nodeDispatch_of_refused (hk : d.kind ≠ .nib) {st : Status} (he : dispatchError u h n d = some st) :
    nodeDispatch h n core u = showDuct (jobFail h n 0 st v) := by
  have hin : u.duct.ready.contains (graphClass u h, h, n) = true := by simpa using hmem
  simp only [nodeDispatch, hg, hd, hx, hr, hm, hin, hgo, hfirst, Bool.not_true, Bool.or_self, Bool.false_eq_true, if_false,
    beq_eq_false_iff_ne.mpr hk, he, ← hv]

theorem nodeDispatch_of_engine (hk : d.kind ≠ .nib) (he : dispatchError u h n d = none) {k : Nat} (hu : k = unitsFor u h n d)
    {w : State} (hw : w = updNode h n (fun y => { y with st := 2, used := y.used + k, waited := 0, job := takeJob u h n d })
      (updRun h (fun q => { q with engine := q.engine + k, gEng := q.gEng - k, dEng := q.dEng + (k - q.gEng) }) v)) :
    nodeDispatch h n core u = showDuct (startMedia h n d (streamOut h n d (joinJob h n d w))) := by
  have hin : u.duct.ready.contains (graphClass u h, h, n) = true := by simpa using hmem
  simp only [nodeDispatch, hg, hd, hx, hr, hm, hin, hgo, hfirst, Bool.not_true, Bool.or_self, Bool.false_eq_true, if_false,
    beq_eq_false_iff_ne.mpr hk, he, ← hv, ← hu, ← hw]

end

end Dispatch

/-! ### Ends and interruptions -/

section Ends

variable {s u : State} {frac h n core : Nat}

theorem nodeEnd_of_served {d : GNode} {x : NodeRun} (hd : nodeDesc u h n = some d) (hx : nodeRun u h n = some x)
    (h2 : x.st = 2) (hs : served u h n d = true) (res : JobRes) :
    nodeEnd h n res u = engineEnd h n d res (chargeLast h n d u) := by
  have hgo : ((nodeRun u h n).any (fun x => x.st == 2) && served u h n d) = true := by simp [hx, h2, hs]
  simp only [nodeEnd, hd, hgo, if_true]

theorem nodeEnd_of_unserved {d : GNode} {x : NodeRun} (hd : nodeDesc u h n = some d) (hx : nodeRun u h n = some x)
    (hno : x.st ≠ 2 ∨ served u h n d = false) (res : JobRes) : nodeEnd h n res u = u := by
  have hstay : ((nodeRun u h n).any (fun x => x.st == 2) && served u h n d) = false := by
    rcases hno with h | h <;> simp [hx, h]
  simp only [nodeEnd, hd, hstay, Bool.false_eq_true, if_false]

theorem exec_nodeWaitTimeout_eq {g : Graph} {d : GNode} {x : NodeRun} {r : GRun} (hg : getGraph s h = some g)
    (hd : nodeDesc s h n = some d) (hx : nodeRun s h n = some x) (hr : g.run = some r) : exec (.nodeWaitTimeout h n) s =
      .next (if r.state == 0 && (x.st == 1 || x.st == 3 || x.st == 4) && nodeLimit g r d != 0 && nodeLimit g r d < x.waited then
        incF DCT_TIMEOUTS 1 (failNode h n 0 3 .graphTimeout s) else s) := by
  simp only [exec_nodeWaitTimeout, execNodeWaitTimeout, hg, hd, hx, hr]

theorem exec_nibInterrupt_of_running (hu : u = atFrac frac s) (hc : core < 32) (h2 : getF u (NIB_CORE_STATE core) = 2) :
    exec (.nibInterrupt frac core) s = .next (deliverEvents core u) := by
  simp only [exec_nibInterrupt, execNibInterrupt, ← hu, decide_eq_true hc, h2, beq_self_eq_true, Bool.and_self, if_true]

theorem deliverEvents_of_none (ht : (nibCore u core).tick = false) (hn : (nibCore u core).notify = false)
    (hp : (nibCore u core).preempt = false) : deliverEvents core u = u := by
  simp only [deliverEvents, ht, hn, hp, Bool.or_self, Bool.not_false, Bool.true_or, if_true]

theorem exec_nodePreempt_eq (hu : u = atFrac frac s) {w : State} (hw : w = chargeCores u) (hc : core < 32) :
    exec (.nodePreempt frac core) s = .next (if slotFree w && chosenVictim w core then
      deliverEvents core (setCore core { nibCore w core with preempt := true } w) else w) := by
  simp only [exec_nodePreempt, execNodePreempt, ← hu, ← hw, decide_eq_true hc, Bool.true_and]

theorem chosenVictim_of_no_reason {w : State} (h : preemptReason w core = false) : chosenVictim w core = false := by
  simp only [chosenVictim, candidate, h, Bool.and_false, Bool.false_and]

theorem candidate_of_reason {w : State} {d : GNode} (h2 : getF w (NIB_CORE_STATE core) = 2)
    (hen : flagF w DCT_CTL_PREEMPT_EN = true)
    (hd : nodeDesc w (getF w (NIB_CORE_GRAPH core)) (getF w (NIB_CORE_NODE core)) = some d) (hf : bitAt d.flags 1 = false)
    (hran : getF w DCT_CTL_MIN_US ≤ (now w - (nibCore w core).since) * w.time.period / 65536)
    (hwhy : preemptReason w core = true) : candidate w core = true := by
  simp only [candidate, h2, hen, hd, hf, decide_eq_true hran, hwhy, Option.any_some, Bool.not_false, beq_self_eq_true,
    Bool.and_self]

/-- The candidate that no other undercuts in class, or in class and recency, is the one that gives way (R281). -/
theorem chosenVictim_of_last {w : State} (hcand : candidate w core = true)
    (hlast : ∀ j, j < 32 → candidate w j = true →
      graphClass w (getF w (NIB_CORE_GRAPH j)) < graphClass w (getF w (NIB_CORE_GRAPH core)) ∨
        (graphClass w (getF w (NIB_CORE_GRAPH j)) = graphClass w (getF w (NIB_CORE_GRAPH core)) ∧
          (nibCore w j).since ≤ (nibCore w core).since)) : chosenVictim w core = true := by
  simp only [chosenVictim, hcand, Bool.true_and, List.all_eq_true, List.mem_range]
  intro j hj
  cases hcj : candidate w j with
  | false => rfl
  | true =>
    rcases hlast j hj hcj with hlt | ⟨heq, hle⟩
    · simp [Nat.lt_asymm hlt, Nat.ne_of_gt hlt]
    · simp [heq, Nat.not_lt.mpr hle]

theorem exec_nibMachineCheck_of_running (hu : u = atFrac frac s) (hc : core < 32) (h2 : getF u (NIB_CORE_STATE core) = 2)
    {v : State} (hv : v = blot 0x0701 3 core (le 2 0xFF ++ le 4 ((nibCore u core).pc + 65536 * bit (nibCore u core).xip)) u)
    (h0 : getF v (NIB_CORE_GRAPH core) = 0) : exec (.nibMachineCheck frac core) s = .next (setF (NIB_CORE_STATE core) 6 v) := by
  simp only [exec_nibMachineCheck, execNibMachineCheck, ← hu, decide_eq_false (Nat.not_le.mpr hc), h2, Nat.reduceBEq,
    Bool.or_self, Bool.false_eq_true, if_false, ← hv, h0, bne_self_eq_false]

theorem exec_nib_of_no_core (hu : u = atFrac frac s) (hc : 32 ≤ core) :
    exec (.nibMachineCheck frac core) s = .next u ∧ exec (.nibInterrupt frac core) s = .next u := by
  constructor
  · simp only [exec_nibMachineCheck, execNibMachineCheck, ← hu, decide_eq_true hc, Bool.true_or, if_true]
  · simp only [exec_nibInterrupt, execNibInterrupt, ← hu, decide_eq_false (Nat.not_lt.mpr hc), Bool.false_and,
      Bool.false_eq_true, if_false]

end Ends

/-- Settles O38: dispatch by the node's kind, the ends of jobs and waits, then the events of a core. -/
theorem nodeEvents : Obligations.NodeEvents := by
  unfold Obligations.NodeEvents
  refine ⟨fun s u frac h n core g r d x hu hg hd hx hr => ?_, fun s u frac h n core res hu =>
    ⟨fun d x hd hx => ⟨fun h2 hs => ?_, fun h2 hs hj => ?_, fun hno => ?_⟩,
      fun g d x r hg hd hx hr => ⟨fun h0 h3 hl hlt => ?_, fun hle => ?_⟩,
      fun hc h2 => ⟨exec_nibInterrupt_of_running hu hc h2, fun ht hn hp => ?_, fun w hw hno => ?_,
        fun w d hw h2' hen hd hf hran hfree hwhy hlast => ?_, fun v => exec_nibMachineCheck_of_running hu hc h2⟩,
      exec_nib_of_no_core hu⟩⟩
  · have hstep : exec (.nodeDispatch frac h n core) s = .next (signTurn (nodeDispatch h n core u)) := by rw [hu]; rfl
    refine ⟨fun hm => ?_, fun hm hmem hgo hfirst v hv => ⟨fun hk hc => ?_, fun hk hc => ?_, fun hk st he => ?_,
      fun hk he k w hku hw => ?_⟩⟩
    · rw [hstep, nodeDispatch_of_still hg hd hx hr hm]
    · rw [hstep, nodeDispatch_of_nib hg hd hx hr hm hmem hgo hfirst hv hk, if_pos hc]
    · rw [hstep, nodeDispatch_of_nib hg hd hx hr hm hmem hgo hfirst hv hk, if_neg hc]
    · rw [hstep, nodeDispatch_of_refused hg hd hx hr hm hmem hgo hfirst hv hk he]
    · rw [hstep, nodeDispatch_of_engine hg hd hx hr hm hmem hgo hfirst hv hk he hku hw]
  · rw [exec_nodeEnd, execNodeEnd, ← hu, nodeEnd_of_served hd hx h2 hs]
  · rw [exec_nodeEnd, execNodeEnd, ← hu, nodeEnd_of_served hd hx h2 hs, engineEnd, hj]
  · rw [exec_nodeEnd, execNodeEnd, ← hu, nodeEnd_of_unserved hd hx hno]
  · rw [exec_nodeWaitTimeout_eq hg hd hx hr, if_pos (by simp [h0, h3, hl, hlt])]
  · rw [exec_nodeWaitTimeout_eq hg hd hx hr, if_neg (by simp [Nat.not_lt.mpr hle])]
  · rw [exec_nibInterrupt_of_running hu hc h2, deliverEvents_of_none ht hn hp]
  · rw [exec_nodePreempt_eq hu hw hc, chosenVictim_of_no_reason hno, Bool.and_false, if_neg Bool.false_ne_true]
  · rw [exec_nodePreempt_eq hu hw hc, hfree,
      chosenVictim_of_last (candidate_of_reason h2' hen hd hf hran hwhy) hlast, Bool.and_self, if_pos rfl]

end Sys2Proof.Machine
/-!
PROOFS. The engines' events: digest and compression jobs at their boundaries (R297, R298, R330), SIEVE nodes (R338 to R341), the
digest feed and the key slots (R292 to R295, R304, R315).
-/

namespace Sys2Proof.Machine

/-! ### A group of a digest or cipher job -/

section Group

variable {s u z : State} {frac h n e : Nat} {d : GNode} (hs : s = atFrac frac z) (hd : nodeDesc s h n = some d)
include hs hd

theorem exec_digestGroupDone_of_running (hk : d.kind = .digest ∧ e = 0 ∨ d.kind = .cipher ∧ e = 1)
    (hon : (h, n) ∈ (engQ s e).on) (hu : u = spendEng e (graphClass s h) (groupCost d) s) :
    exec (.digestGroupDone frac h n) z =
      .next (if yieldWhy u e (h, n) = 0 then u else yieldJob e h n d (yieldWhy u e (h, n) == 1) u) := by
  have hin : (engQ s e).on.contains (h, n) = true := by simpa using hon
  rcases hk with ⟨hk, rfl⟩ | ⟨hk, rfl⟩
  · simp only [exec_digestGroupDone, execDigestGroupDone, ← hs, hd, beq_iff_eq.mpr hk, bne, Bool.not_true, Bool.false_and,
      Bool.false_or, Bool.false_eq_true, if_false, if_true, hin, ← hu]
  · have hno : (d.kind == NodeKind.digest) = false := by rw [hk]; rfl
    simp only [exec_digestGroupDone, execDigestGroupDone, ← hs, hd, hno, beq_iff_eq.mpr hk, bne, Bool.not_true, Bool.and_false,
      Bool.false_or, Bool.false_eq_true, if_false, hin, ← hu]

theorem exec_digestGroupDone_of_idle (hno : d.kind ≠ .digest ∧ d.kind ≠ .cipher ∨ ∀ e, (h, n) ∉ (engQ s e).on) :
    exec (.digestGroupDone frac h n) z = .next s := by
  have hstay : ((d.kind != .digest && d.kind != .cipher) ||
      !(engQ s (if d.kind == .digest then 0 else 1)).on.contains (h, n)) = true := by
    rcases hno with ⟨h1, h2⟩ | hno
    · simp [h1, h2]
    · simp [hno]
  simp only [exec_digestGroupDone, execDigestGroupDone, ← hs, hd, hstay, if_true]

end Group

/-! ### A block of a compression job -/

section Block

variable {s u v : State} {h n e : Nat} {d : GNode} (hd : nodeDesc s h n = some d)
include hd

theorem exec_compressBlockDone_of_idle (bad : Bool)
    (hno : d.kind ≠ .compress ∧ d.kind ≠ .decompress ∨ ∀ e, (h, n) ∉ (engQ s e).on) :
    exec (.compressBlockDone h n bad) s = .next s := by
  have hstay : ((d.kind != .compress && d.kind != .decompress) ||
      !(engQ s ((jobHold s h n).eng.getD 0)).on.contains (h, n)) = true := by
    rcases hno with ⟨h1, h2⟩ | hno
    · simp [h1, h2]
    · simp [hno]
  simp only [exec_compressBlockDone, execCompressBlockDone, hd, hstay, if_true]

variable (he : (jobHold s h n).eng = some e) (hon : (h, n) ∈ (engQ s e).on)
include he hon

theorem exec_compressBlockDone_of_decompress (bad : Bool) (hk : d.kind = .decompress)
    (hu : u = incF (if e == 2 then CMP_LINE_KIB else CMP_LEVELS_KIB) 64
      { s with crypt := { s.crypt with blocks := countBlock s h n } }) (hv : v = spendEng e (graphClass u h) 65536 u) :
    exec (.compressBlockDone h n bad) s =
      .next (if yieldWhy v e (h, n) = 0 then v else fillEng e (leaveTurn e (h, n) v)) := by
  have hin : (engQ s e).on.contains (h, n) = true := by simpa using hon
  have hc : (d.kind == NodeKind.compress) = false := by rw [hk]; rfl
  simp only [exec_compressBlockDone, execCompressBlockDone, hd, he, Option.getD_some, hc, bne, beq_iff_eq.mpr hk, Bool.not_true,
    Bool.and_false, Bool.false_and, Bool.false_or, hin, Bool.false_eq_true, if_false, ← hu, Nat.reduceMul, ← hv]

theorem exec_compressBlockDone_of_compress {at_ kib : Nat} {b : Bytes} {raw : Bool} (hk : d.kind = .compress)
    (hat : at_ = blockAt s h n d * 2 ^ pByte d 27)
    (hb : b = slotRead s h d 0 at_ (min (2 ^ pByte d 27) ((jobHold s h n).len - at_))) (hkib : kib = ceilDiv b.length 1024)
    (hu : u = incF (if e == 2 then CMP_LINE_KIB else CMP_LEVELS_KIB) kib
      { s with crypt := { s.crypt with blocks := countBlock s h n } }) (hraw : raw = isRaw (pByte d 24) (pByte d 25) b)
    (hv : v = spendEng e (graphClass (if raw then incF CMP_RAW_BLOCKS 1 u else u) h) (kib * 1024)
      (if raw then incF CMP_RAW_BLOCKS 1 u else u)) :
    exec (.compressBlockDone h n false) s =
      .next (if yieldWhy v e (h, n) = 0 then v else fillEng e (leaveTurn e (h, n) v)) := by
  have hin : (engQ s e).on.contains (h, n) = true := by simpa using hon
  simp only [exec_compressBlockDone, execCompressBlockDone, hd, he, Option.getD_some, bne, beq_iff_eq.mpr hk, Bool.not_true,
    Bool.and_false, Bool.false_and, Bool.true_and, Bool.or_false, hin, Bool.false_eq_true, if_false, if_true, ← hat, ← hb,
    ← hkib, ← hu, ← hraw, ← hv]

end Block

/-! ### SIEVE nodes -/

section SieveNode

variable {s : State} {h n op : Nat} {d : GNode} {x : NodeRun} (hd : nodeDesc s h n = some d) (hx : nodeRun s h n = some x)
include hd

theorem sieveOp_of_other (hop : pByte d 24 ≠ op) (bad : List Nat) : sieveOp op h n bad s = s := by
  simp only [sieveOp, hd, beq_eq_false_iff_ne.mpr hop, Bool.and_false, Bool.false_and, Bool.false_eq_true, if_false]

include hx

theorem sieveOp_of_running (hk : d.kind = .sieve) (h2 : x.st = 2) (hop : pByte d 24 = op) (bad : List Nat) :
    sieveOp op h n bad s = sieveJob h n d bad s := by
  simp only [sieveOp, hd, hx, hk, h2, hop, beq_self_eq_true, Option.any_some, Bool.and_self, if_true]

theorem sieveOp_of_stopped (h2 : x.st ≠ 2) (bad : List Nat) : sieveOp op h n bad s = s := by
  simp only [sieveOp, hd, hx, Option.any_some, beq_eq_false_iff_ne.mpr h2, Bool.and_false, Bool.false_eq_true, if_false]

end SieveNode

/-! ### The digest feed -/

section Feeds

variable {s t : State} {v w flags : Nat}

theorem exec_feedOpen_of_open (h : s.crypt.feed.isSome = true) :
    exec (.feedOpen v) s = .next (setF DIG_FEED_STATUS_BUSY 1 s) := by
  simp only [exec_feedOpen, execFeedOpen, feedOpen, h, if_true]

theorem exec_feedOpen_of_no_algorithm (h : s.crypt.feed = none) (h0 : bits v 2 0 = 0) :
    exec (.feedOpen v) s = .next (setF DIG_FEED_STATUS_BAD 1 s) := by
  simp only [exec_feedOpen, execFeedOpen, feedOpen, h, h0, Option.isSome_none, Bool.false_eq_true, if_false, beq_self_eq_true,
    Bool.true_or, if_true]

/-- SHA-256 without HMAC or truncation always opens. -/
theorem exec_feedOpen_of_sha256 (h : s.crypt.feed = none) (h1 : bits v 2 0 = 1) (h3 : bitAt v 3 = false) (ht : bits v 9 5 = 0) :
    exec (.feedOpen v) s = .next (holdFeed true (setFeed (some {
      alg := 1, hmac := false, compare := bitAt v 4, trunc := 32, key := ((keySlot s (bits v 25 16)).map (·.key)).getD [],
      len := getF s DIG_FEED_LEN_LO + getF s DIG_FEED_LEN_HI * 2 ^ 32 }) s)) := by
  simp only [exec_feedOpen, execFeedOpen, feedOpen, h, h1, h3, ht, Option.isSome_none]
  rfl

section

variable {f : Feed} (hf : s.crypt.feed = some f)
include hf

theorem exec_feedAbort_of_some : exec .feedAbort s = .next (holdFeed false (setFeed none s)) := by
  simp only [exec_feedAbort, execFeedAbort, feedAbort, hf, Option.isSome_some, if_true]

theorem exec_feedData_of_fits (hc : f.closed = false) (hle : f.count + 4 ≤ f.len) : exec (.feedData w) s = .next
    (if (f.count + 4) % groupBytes f.alg = 0 then
      spendFeed f.alg 1 (setFeed (some { f with count := f.count + 4, data := f.data ++ le 4 w }) s)
    else setFeed (some { f with count := f.count + 4, data := f.data ++ le 4 w }) s) := by
  simp only [exec_feedData, execFeedData, feedData, hf, hc, Bool.false_eq_true, if_false, if_neg (Nat.not_lt.mpr hle)]

theorem exec_feedData_of_beyond (hc : f.closed = false) (hlt : f.len < f.count + 4) :
    exec (.feedData w) s = .next (setFeed (some { f with tooLong := true }) s) := by
  simp only [exec_feedData, execFeedData, feedData, hf, hc, Bool.false_eq_true, if_false, if_pos hlt]

theorem exec_feed_of_closed (hc : f.closed = true) : exec (.feedData w) s = .next s ∧ exec (.feedLast w) s = .next s := by
  constructor
  · simp only [exec_feedData, execFeedData, feedData, hf, hc, if_true]
  · simp only [exec_feedLast, execFeedLast, feedLast, hf, hc, if_true]

theorem exec_feedLast_of_open {n : Nat} (hc : f.closed = false) (hlong : f.tooLong = false)
    (hn : n = f.count + getF s DIG_FEED_LASTV)
    (ht : t = setF DIG_FEED_COUNT_LO (n % 2 ^ 32) (setF DIG_FEED_COUNT_HI (n / 2 ^ 32) s)) :
    exec (.feedLast w) s = .next (if n != f.len then
      setF DIG_FEED_STATUS_MISMATCH 1 (clearResult (holdFeed false (setFeed none t)))
    else setFeed (some { f with count := n, data := f.data ++ (le 4 w).take (getF s DIG_FEED_LASTV), closed := true }) t) := by
  simp only [exec_feedLast, execFeedLast, feedLast, hf, hc, hlong, Bool.false_eq_true, if_false, Bool.false_or, ← hn, ← ht]

section

variable (hc : f.closed = true) (ht : t = setF DIG_FEED_STATUS_DONE 1 (holdFeed false (setFeed none (spendFeed f.alg 1 s))))
include hc ht

theorem exec_feedDone_of_digest (hcmp : f.compare = false) : exec (.feedDone flags) s = .next (setF DIG_FEED_STATUS_EQ 0
    (setF DIG_FEED_STATUS_EQ_N 0 ((List.range 16).foldl (fun a i => setF (DIG_FEED_RESULT i) (leAt (feedDigest f) (4 * i) 4) a) t))) := by
  simp only [exec_feedDone, execFeedDone, hf, hc, hcmp, Bool.not_true, Bool.not_false, Bool.false_eq_true, if_false, if_true,
    ← ht]

theorem exec_feedDone_of_fault (hcmp : f.compare = true) (hfl : flags ≠ 0) : exec (.feedDone flags) s = .next (blot 0x0702 2 0
    (le 1 flags) (dropEq (setF DIG_FEED_STATUS_DONE 0 (setF DIG_FEED_STATUS_FAULT 1 (clearResult t))))) := by
  simp only [exec_feedDone, execFeedDone, hf, hc, hcmp, Bool.not_true, Bool.false_eq_true, if_false, ← ht, bne_iff_ne.mpr hfl,
    if_true, compareFault]

theorem exec_feedDone_of_compare (hcmp : f.compare = true) {eq : Bool}
    (heq : eq = ((feedDigest f).take f.trunc == (expectBytes s).take f.trunc)) : exec (.feedDone 0) s =
      .next (setF DIG_FEED_STATUS_EQ (bit eq) (setF DIG_FEED_STATUS_EQ_N (bit (!eq)) (clearResult t))) := by
  simp only [exec_feedDone, execFeedDone, hf, hc, hcmp, Bool.not_true, Bool.false_eq_true, if_false, ← ht, bne_self_eq_false,
    ← heq]

end

end

theorem exec_feed_of_none (h : s.crypt.feed = none) : exec (.feedData w) s = .next s ∧ exec (.feedLast w) s = .next s ∧
    exec .feedAbort s = .next s ∧ exec (.feedDone flags) s = .next s := by
  refine ⟨?_, ?_, ?_, ?_⟩
  · simp only [exec_feedData, execFeedData, feedData, h]
  · simp only [exec_feedLast, execFeedLast, feedLast, h]
  · simp only [exec_feedAbort, execFeedAbort, feedAbort, h, Option.isSome_none, Bool.false_eq_true, if_false]
  · simp only [exec_feedDone, execFeedDone, h]

end Feeds

/-- Settles O39: the two kinds of boundary by whether the job yields there, SIEVE nodes by their operation, the feed by its state. -/
theorem engineEvents : Obligations.EngineEvents := by
  unfold Obligations.EngineEvents
  refine ⟨fun z s frac h n d hs hd => ⟨fun e u hk hon hu => ⟨fun h0 => ?_, fun w hw hne => ⟨fun hy => ?_, fun hy => ?_⟩⟩,
      fun e he hon => ⟨fun u v hk hu hv => ⟨fun h0 bad => ?_, fun h0 bad => ?_⟩,
        fun at_ b kib u raw v hk hat hb hkib hu hraw hv => ⟨fun h0 => ?_, fun h0 => ?_⟩⟩,
      exec_digestGroupDone_of_idle hs hd, fun hno bad => exec_compressBlockDone_of_idle hd bad hno⟩,
    fun s h n bad d x hd hx hk => ⟨fun h2 => ?_, fun h2 => ?_⟩,
    fun s v w flags => ⟨exec_feedOpen_of_open, exec_feedOpen_of_no_algorithm, exec_feedOpen_of_sha256, exec_feed_of_none,
      fun f hf => ⟨exec_feedAbort_of_some hf, fun hc hle u hu => ⟨fun hg => ?_, fun hg => ?_⟩, exec_feedData_of_beyond hf,
        exec_feed_of_closed hf, fun hc hlong n t hn ht => ⟨fun heq => ?_, fun hne => ?_⟩,
        fun hc t ht => ⟨exec_feedDone_of_digest hf hc ht, exec_feedDone_of_fault hf hc ht,
          fun hcmp eq => exec_feedDone_of_compare hf hc ht hcmp⟩⟩, ?_, ?_⟩⟩
  · rw [exec_digestGroupDone_of_running hs hd hk hon hu, if_pos h0]
  · rw [exec_digestGroupDone_of_running hs hd hk hon hu, hw, if_neg hne, yieldJob, if_pos hy]
  · rw [exec_digestGroupDone_of_running hs hd hk hon hu, hw, if_neg hne, yieldJob, hy, if_neg Bool.false_ne_true]
  · rw [exec_compressBlockDone_of_decompress hd he hon bad hk hu hv, if_pos h0]
  · rw [exec_compressBlockDone_of_decompress hd he hon bad hk hu hv, if_neg h0]
  · rw [exec_compressBlockDone_of_compress hd he hon hk hat hb hkib hu hraw hv, if_pos h0]
  · rw [exec_compressBlockDone_of_compress hd he hon hk hat hb hkib hu hraw hv, if_neg h0]
  · have hrun : ∀ op bad, pByte d 24 = op → sieveOp op h n bad s = sieveJob h n d bad s :=
      fun op bad hop => sieveOp_of_running hd hx hk h2 hop bad
    have hother : ∀ op bad, pByte d 24 ≠ op → sieveOp op h n bad s = s := fun op bad hop => sieveOp_of_other hd hop bad
    exact ⟨fun hop => ⟨congrArg _ (hrun 1 bad hop), congrArg _ (hother 2 [] (by omega))⟩,
      fun hop => ⟨congrArg _ (hrun 2 [] hop), congrArg _ (hother 3 [] (by omega))⟩,
      fun hop => ⟨congrArg _ (hrun 3 [] hop), congrArg _ (hother 4 [] (by omega))⟩,
      fun hop => ⟨congrArg _ (hrun 4 [] hop), congrArg _ (hother 5 [] (by omega))⟩,
      fun hop => ⟨congrArg _ (hrun 5 [] hop), congrArg _ (hother 1 bad (by omega))⟩⟩
  · have hstop : ∀ op bad, sieveOp op h n bad s = s := fun op bad => sieveOp_of_stopped hd hx h2 bad
    exact ⟨congrArg _ (hstop 1 bad), congrArg _ (hstop 2 []), congrArg _ (hstop 3 []), congrArg _ (hstop 4 []),
      congrArg _ (hstop 5 [])⟩
  · rw [exec_feedData_of_fits hf hc hle, if_neg hg, hu]
  · rw [exec_feedData_of_fits hf hc hle, if_pos hg, hu]
  · rw [exec_feedLast_of_open hf hc hlong hn ht, if_neg (by simpa using heq)]
  · rw [exec_feedLast_of_open hf hc hlong hn ht, if_pos (bne_iff_ne.mpr hne)]
  · rw [exec_slotClear, execSlotClear, clearSlot, if_neg Bool.false_ne_true]
  · rw [exec_slotClear, execSlotClear, clearSlot, if_pos rfl]

end Sys2Proof.Machine
/-!
PROOFS. The DRAM controller and errors of the Inkwell (R346 to R361), the Inkstone (R365 to R371) and the settings copies (R374,
R383, R454).
-/

namespace Sys2Proof.Machine

/-! ### The DRAM controller -/

section Dram

variable {s u : State} {frac p us bytes scrub : Nat} {temp : Int}

theorem servedPoint_of_available (ha : bitAt (getF s DRM_STATUS_AVAIL) (p % 4) = true) : servedPoint s (p % 4) = p % 4 := by
  have hfirst : (decide (p % 4 ≤ 3) && bitAt (getF s DRM_STATUS_AVAIL) (p % 4)) = true := by
    rw [ha, decide_eq_true (by omega)]; rfl
  simp only [servedPoint, List.find?_cons, hfirst, Option.getD_some]

theorem requestPoint_of_available (ha : bitAt (getF s DRM_STATUS_AVAIL) (p % 4) = true) : requestPoint p s =
    if p % 4 = getF s DRM_STATUS_POINT then setF DRM_STATUS_PENDING 0 (setF DRM_STATUS_PENDING_POINT 0 s)
    else setF DRM_STATUS_PENDING 1 (setF DRM_STATUS_PENDING_POINT (p % 4) s) := by
  simp only [requestPoint, servedPoint_of_available ha]

theorem exec_dramRetrainGather_of_pending (hu : u = atFrac frac s) (hp : flagF u DRM_STATUS_PENDING = true)
    (reading : DramReading) : exec (.dramRetrainGather frac reading) s = .next u := by
  simp only [exec_dramRetrainGather, execDramRetrainGather, ← hu, hp, Bool.not_true, Bool.and_false, Bool.false_and,
    Bool.false_eq_true, if_false]

theorem exec_dramRetrainGather_of_due (hu : u = atFrac frac s) (hm : u.mode.cur = .run ∨ u.mode.cur = .lean ∨ u.mode.cur = .park)
    (hp : flagF u DRM_STATUS_PENDING = false) (hg : flagF u DRM_STATUS_GATHERING = false)
    (hdue : getF u DRM_TRAIN_DRIFT_C ≤ (temp - u.dram.lastTemp).natAbs ∨
      getF u DRM_TRAIN_PERIOD_MS ≤ (now u - u.dram.lastTrain) * u.time.period / 65536 / 1000) :
    exec (.dramRetrainGather frac ⟨temp, scrub⟩) s = .next (setF DRM_STATUS_GATHERING 1
      (setF DRM_ECS_COUNT (min (2 ^ 32 - 1) scrub) { u with dram := { u.dram with lastTemp := temp } })) := by
  have hmode : (u.mode.cur == .run || u.mode.cur == .lean || u.mode.cur == .park) = true := by
    rcases hm with h | h | h <;> rw [h] <;> rfl
  have hwhen : (decide (getF u DRM_TRAIN_PERIOD_MS ≤ (now u - u.dram.lastTrain) * u.time.period / 65536 / 1000) ||
      decide (getF u DRM_TRAIN_DRIFT_C ≤ (temp - u.dram.lastTemp).natAbs)) = true := by
    rcases hdue with h | h <;> simp [h]
  simp only [exec_dramRetrainGather, execDramRetrainGather, ← hu, hmode, hwhen, hp, hg, Bool.not_false, Bool.and_self, if_true]

theorem exec_dramGatherEnd_of_gathering (hu : u = atFrac frac s) (hg : flagF u DRM_STATUS_GATHERING = true) :
    exec (.dramGatherEnd frac) s = .next (setF DRM_STATUS_GATHERING 0
      { u with dram := { u.dram with applyDue := true, lastTrain := now u } }) := by
  simp only [exec_dramGatherEnd, execDramGatherEnd, ← hu, hg, if_true]

/-- The multipliers 1, 2, 4 and 1, with those below 2 raised under FORCE_2X (R351). -/
theorem exec_dramRefreshPoll_of_mixed (x : Bool) (hx : s.dram.force2x = x) : exec (.dramRefreshPoll [1, 2, 4, 1] []) s =
    .next (setF DRM_STATUS_REFRESH_X (if x then 101 else 36) { s with dram := { s.dram with need := [0, 1, 2, 0] } }) := by
  subst hx
  have hcodes : [1, 2, 4, 1].map multCode = [0, 1, 2, 0] := by decide
  rw [exec_dramRefreshPoll, execDramRefreshPoll, List.foldl_nil, hcodes, showRefresh]
  cases h : s.dram.force2x <;> rfl

theorem exec_dramRefreshPoll_of_hot (mult : List Nat) (ch rank : Nat) : exec (.dramRefreshPoll mult [(ch, rank)]) s =
    .next (blot 0x0302 2 ch (le 1 rank) (setF DRM_STATUS_HOT 1
      (showRefresh { s with dram := { s.dram with need := mult.map multCode } }))) := by
  rw [exec_dramRefreshPoll, execDramRefreshPoll, List.foldl_cons, List.foldl_nil]

theorem spendDram_of_fits {left : Nat} (h : bytes ≤ left) : spendDram left bytes = (left - bytes, 0) := by
  rw [spendDram, Nat.sub_eq_zero_of_le h, ite_self]

theorem spendDram_of_excess {left : Nat} (h0 : 0 < left) (h : left < bytes) : spendDram left bytes = (0, bytes - left) := by
  rw [spendDram, Nat.sub_eq_zero_of_le (Nat.le_of_lt h), if_neg (Nat.ne_of_gt h0)]

theorem exec_dramRequestPromote_of_young (h : us < getF s DRM_AGE_AGE_US) (cls : Nat) :
    exec (.dramRequestPromote cls us bytes) s = .next s := by
  simp only [exec_dramRequestPromote, execDramRequestPromote, if_pos h]

theorem exec_dramRequestPromote_of_background (h : getF s DRM_AGE_AGE_US ≤ us) : exec (.dramRequestPromote 3 us bytes) s =
    .next { s with dram := { s.dram with
      bulk := (spendDram s.dram.bulk bytes).1, bulkDebt := s.dram.bulkDebt + (spendDram s.dram.bulk bytes).2 } } := by
  simp only [exec_dramRequestPromote, execDramRequestPromote, if_neg (Nat.not_lt.mpr h), if_true]

theorem exec_dramRequestPromote_of_bulk (h : getF s DRM_AGE_AGE_US ≤ us) : exec (.dramRequestPromote 2 us bytes) s =
    .next { s with dram := { s.dram with
      cmd := (spendDram s.dram.cmd bytes).1, cmdDebt := s.dram.cmdDebt + (spendDram s.dram.cmd bytes).2 } } := by
  simp only [exec_dramRequestPromote, execDramRequestPromote, if_neg (Nat.not_lt.mpr h), Nat.reduceEqDiff, if_false, if_true]

/-- A class with nothing left issues at no charge (R353). -/
theorem exec_dramRequestPromote_of_spent (h : getF s DRM_AGE_AGE_US ≤ us) (h0 : s.dram.cmd = 0) :
    exec (.dramRequestPromote 2 us bytes) s = .next s := by
  have hspent : spendDram s.dram.cmd bytes = (s.dram.cmd, 0) := by rw [spendDram, if_pos h0, h0, Nat.zero_sub]
  rw [exec_dramRequestPromote_of_bulk h, hspent]
  rfl

theorem loseParts_of_unstaged {id : Nat} (h : findStaged s id = none) (parts : List Nat) : loseParts id parts s = s := by
  simp only [loseParts, h]

end Dram

/-- Settles O41: the controller's events by their conditions, then the Inkwell's errors by what they hit. -/
theorem dramAndInkwell : Obligations.DramAndInkwell := by
  unfold Obligations.DramAndInkwell
  refine ⟨fun s u frac p us bytes scrub temp hu => ⟨fun ha => ⟨fun hp => ?_, fun hp => ?_⟩,
      fun hp => exec_dramRetrainGather_of_pending hu hp _, exec_dramRetrainGather_of_due hu, exec_dramGatherEnd_of_gathering hu,
      exec_dramRefreshPoll_of_mixed false, exec_dramRefreshPoll_of_mixed true, exec_dramRefreshPoll_of_hot,
      exec_dramRequestPromote_of_young, fun h => ⟨fun hle => ?_, fun h0 hlt => ?_, fun hle => ?_,
        exec_dramRequestPromote_of_spent h⟩⟩,
    fun s off id lane parts u hu => ?_⟩
  · rw [exec_dramFreqRequest, execDramFreqRequest, requestPoint_of_available ha, if_pos hp]
  · rw [exec_dramFreqRequest, execDramFreqRequest, requestPoint_of_available ha, if_neg hp]
  · rw [exec_dramRequestPromote_of_background h, spendDram_of_fits hle]
    rfl
  · rw [exec_dramRequestPromote_of_background h, spendDram_of_excess h0 hlt]
  · rw [exec_dramRequestPromote_of_bulk h, spendDram_of_fits hle]
    rfl
  · simp only [exec_inkwellUe, execInkwellUe, wellRow, hu, true_and]
    exact fun h => loseParts_of_unstaged h parts

/-! ### The Inkstone -/

section Inkstone

variable {s u : State} {who addr : Nat} {data : Bytes}

theorem exec_inkProgram_of_accepted (hg : inkGranted s who = true) (h : inkRefusal s who 1 addr = none) :
    exec (.inkProgram who addr data) s = .next (showInk (setInkBank (addr / 2 ^ 23)
      { inkBank s (addr / 2 ^ 23) with running := some { who := who, op := 1, addr := addr, data := fixLen 256 data } } s)) := by
  simp only [exec_inkProgram, execInkProgram, if_pos hg, inkStart, h]

theorem exec_inkErase_of_accepted (hg : inkGranted s who = true) (h : inkRefusal s who 2 addr = none) :
    exec (.inkErase who addr) s = .next (showInk (setInkBank (addr / 2 ^ 23)
      { inkBank s (addr / 2 ^ 23) with running := some { who := who, op := 2, addr := addr, data := fixLen 256 [] } } s)) := by
  simp only [exec_inkErase, execInkErase, if_pos hg, inkStart, h]

theorem exec_inkProgram_of_refused (hg : inkGranted s who = true) {m : Nat} (h : inkRefusal s who 1 addr = some m) :
    exec (.inkProgram who addr data) s = .next (inkReport who m s) := by
  simp only [exec_inkProgram, execInkProgram, if_pos hg, inkStart, h]

/-! A read, by what its bank and its words are. -/

theorem inkRead_of_misplaced (h : addr % 256 ≠ 0) (chk : Chk) : inkRead who addr chk s = inkReport who 64 s := by
  simp only [inkRead, bne_iff_ne.mpr h, Bool.true_or, if_true]
  rfl

section

variable (ha : addr % 256 = 0) (hr : addr < 2 ^ 24)
include ha hr

theorem inkRead_of_busy (hb : bankBusy s (addr / 2 ^ 23) = true) (chk : Chk) :
    inkRead who addr chk s = inkReport who 256 s := by
  simp only [inkRead, ha, bne_self_eq_false, decide_eq_false (Nat.not_le.mpr hr), Bool.or_self, Bool.false_eq_true, if_false, hb,
    if_true]
  rfl

section

variable (hb : bankBusy s (addr / 2 ^ 23) = false)
include hb

theorem inkRead_of_good {chk : Chk} (hc : inkChk s addr 256 chk = .good) :
    inkRead who addr chk s = inkReport who 4 (inkFill who (inkBytesAt s addr 256) s) := by
  simp only [inkRead, ha, bne_self_eq_false, decide_eq_false (Nat.not_le.mpr hr), Bool.or_self, Bool.false_eq_true, if_false, hb,
    hc, stDone]

theorem inkRead_of_corrected {chk : Chk} (hc : inkChk s addr 256 chk = .corrected) : inkRead who addr chk s =
    inkReport who 4 (inkFill who (inkBytesAt s addr 256) (inkKeepBad addr 256 chk s)) := by
  simp only [inkRead, ha, bne_self_eq_false, decide_eq_false (Nat.not_le.mpr hr), Bool.or_self, Bool.false_eq_true, if_false, hb,
    hc, stDone]

theorem inkRead_of_uncorrectable : inkRead who addr .uncorrectable s = inkReport who 256 (incF INK_ECC_UE 1 s) := by
  have hc : inkChk s addr 256 .uncorrectable = .uncorrectable := rfl
  simp only [inkRead, ha, bne_self_eq_false, decide_eq_false (Nat.not_le.mpr hr), Bool.or_self, Bool.false_eq_true, if_false, hb,
    hc, stBusFault]

end

end

theorem inkChk_of_good (n : Nat) : inkChk s addr n .good = if inkBadIn s addr n then .corrected else .good := rfl

/-- Without the grant a core does nothing here (R370). -/
theorem inkGranted_of_core {k : Nat} (h : ((mget s.duct.cores k).map (·.grant4)).getD false = false) :
    inkGranted s (k + 2) = false := h

theorem exec_inkRead_of_granted (hg : inkGranted s who = true) (chk : Chk) :
    exec (.inkRead who addr chk) s = .next (inkRead who addr chk s) := by
  rw [exec_inkRead, execInkRead, if_pos hg]

theorem exec_ink_of_ungranted (hg : inkGranted s who = false) : exec (.inkProgram who addr data) s = .next s ∧
    exec (.inkErase who addr) s = .next s ∧ ∀ chk, exec (.inkRead who addr chk) s = .next s := by
  refine ⟨?_, ?_, fun chk => ?_⟩
  · rw [exec_inkProgram, execInkProgram, hg, if_neg Bool.false_ne_true]
  · rw [exec_inkErase, execInkErase, hg, if_neg Bool.false_ne_true]
  · rw [exec_inkRead, execInkRead, hg, if_neg Bool.false_ne_true]

/-! The end of a program or an erase. -/

section

variable {bank pulses : Nat} {o : InkOp} (ho : (inkBank s bank).running = some o)
  (hu : u = inkPulses o.who pulses (setInkBank bank { inkBank s bank with running := none } s))
include ho hu

theorem exec_inkOpDone_of_done : exec (.inkOpDone bank pulses false) s = .next (showInk (inkReport o.who 4 (inkApply o u))) := by
  simp only [exec_inkOpDone, execInkOpDone, ho, ← hu, Bool.not_false, if_true, stDone]

theorem exec_inkOpDone_of_spare (h : sparesFree s bank ≠ 0) : exec (.inkOpDone bank pulses true) s =
    .next (showInk (inkReport o.who 132 (listSector o true (inkApply o u)))) := by
  simp only [exec_inkOpDone, execInkOpDone, ho, ← hu, Bool.not_true, Bool.false_eq_true, if_false,
    if_pos (Nat.pos_of_ne_zero h), stDone, stRemapped, Nat.reduceAdd]

theorem exec_inkOpDone_of_no_spare (h : sparesFree s bank = 0) {v : State}
    (hv : v = inkReport o.who stFail (listSector o false (inkSpoil o u))) : exec (.inkOpDone bank pulses true) s =
      .next (showInk (if firmwareSector o.addr then setF INK_STATUS_AREA_LOST 1 v else v)) := by
  simp only [exec_inkOpDone, execInkOpDone, ho, ← hu, Bool.not_true, Bool.false_eq_true, if_false, h, Nat.lt_irrefl, ← hv]

end

theorem exec_inkOpDone_of_idle {bank pulses : Nat} (fail : Bool) (h : (inkBank s bank).running = none) :
    exec (.inkOpDone bank pulses fail) s = .next s := by
  simp only [exec_inkOpDone, execInkOpDone, h]

theorem inkApply_of_program {o : InkOp} (h : o.op = 1) :
    inkApply o u = { u with ink := { u.ink with bytes := ssetBytes inkErased u.ink.bytes o.addr o.data } } := by
  rw [inkApply, if_neg (by omega), inkWriteBytes]

theorem inkApply_of_erase {o : InkOp} (h : o.op = 2) :
    inkApply o u = { u with ink := { u.ink with bytes := u.ink.bytes.filter (fun e => e.1 / 32768 != o.addr / 32768),
                                                bad := u.ink.bad.filter (fun w => w / 2048 != o.addr / 32768) } } := by
  rw [inkApply, if_pos h, inkEraseSector]

end Inkstone

/-- Settles O42: the commands of a requester that has the grant and of one that has not, then the end of an operation. -/
theorem inkstoneCommands : Obligations.InkstoneCommands := by
  unfold Obligations.InkstoneCommands
  refine ⟨fun s who addr data hg => ⟨exec_inkProgram_of_accepted hg, exec_inkErase_of_accepted hg,
      fun m => exec_inkProgram_of_refused hg, fun ha hr => ⟨fun hb => ⟨fun hbad => ?_, fun hbad => ?_, fun u hu => ?_, ?_⟩,
        fun hb chk => ?_⟩, fun ha chk => ?_⟩,
    fun s k addr data hk => exec_ink_of_ungranted (inkGranted_of_core hk),
    fun s u bank pulses o ho hu => ⟨fun h1 => ?_, fun h2 => ?_, exec_inkOpDone_of_spare ho hu,
      fun h0 v hv => ⟨fun hfw => ?_, fun hfw => ?_⟩⟩,
    fun s bank pulses fail => exec_inkOpDone_of_idle fail⟩
  · rw [exec_inkRead_of_granted hg, inkRead_of_good ha hr hb (by rw [inkChk_of_good, hbad, if_neg Bool.false_ne_true])]
  · rw [exec_inkRead_of_granted hg, inkRead_of_corrected ha hr hb (by rw [inkChk_of_good, if_pos hbad])]
    rfl
  · rw [exec_inkRead_of_granted hg, inkRead_of_corrected ha hr hb rfl, hu]
    rfl
  · rw [exec_inkRead_of_granted hg, inkRead_of_uncorrectable ha hr hb]
  · rw [exec_inkRead_of_granted hg, inkRead_of_busy ha hr hb]
  · rw [exec_inkRead_of_granted hg, inkRead_of_misplaced ha]
  · rw [exec_inkOpDone_of_done ho hu, inkApply_of_program h1]
  · rw [exec_inkOpDone_of_done ho hu, inkApply_of_erase h2]
  · rw [exec_inkOpDone_of_no_spare ho hu h0 hv, if_pos hfw]
  · rw [exec_inkOpDone_of_no_spare ho hu h0 hv, hfw, if_neg Bool.false_ne_true]

/-! ### Settings copies -/

section Settings

variable {s u : State}

theorem saveSettings_of_free (hs : s.mode.cur ≠ .seal) (hh : flagF s INK_STATUS_SAVE_HELD = false) : saveSettings s =
    setF INK_SET_SEQ (getF s INK_SET_SEQ + 1) (setF INK_STATUS_SAVE_PENDING 0 { s with ink := { s.ink with
      copies := s.ink.copies ++ [{
        seq := getF s INK_SET_SEQ + 1, format := getF s FWU_FORMAT_EXPECTED, values := storedValues s, vpd := s.ink.vpd }],
      storedAt := none, saveNow := false } }) := by
  have hgo : (s.mode.cur == .seal || flagF s INK_STATUS_SAVE_HELD) = false := by simp [hs, hh]
  simp only [saveSettings, hgo, Bool.false_eq_true, if_false]

theorem exec_settingsSave_of_unasked (h : s.ink.saveNow = false) : exec .settingsSave s = .next s := by
  simp only [exec_settingsSave, execSettingsSave, h, Bool.false_and, Bool.false_eq_true, if_false]

theorem exec_settingsSave_of_asked (hm : s.mode.cur.saves = true) (h : s.ink.saveNow = true) :
    exec .settingsSave s = .next (saveSettings s) := by
  simp only [exec_settingsSave, execSettingsSave, h, hm, Bool.and_self, if_true]

theorem exec_settingsSaveTimer_of_unwritten (h : s.ink.storedAt = none) : exec .settingsSaveTimer s = .next s := by
  simp only [exec_settingsSaveTimer, execSettingsSaveTimer, h, ite_self]

theorem exec_settingsSaveTimer_of_written (hm : s.mode.cur.saves = true) {t : Nat} (h : s.ink.storedAt = some t) :
    exec .settingsSaveTimer s = .next (if t * s.time.period / 65536 + 10000000 ≤ now s * s.time.period / 65536 then
      saveSettings s else s) := by
  simp only [exec_settingsSaveTimer, execSettingsSaveTimer, hm, Bool.not_true, Bool.false_eq_true, if_false, h]

theorem exec_settings_of_unsaving (hm : s.mode.cur.saves = false) :
    exec .settingsSave s = .next s ∧ exec .settingsSaveTimer s = .next s := by
  constructor
  · simp only [exec_settingsSave, execSettingsSave, hm, Bool.and_false, Bool.false_eq_true, if_false]
  · simp only [exec_settingsSaveTimer, execSettingsSaveTimer, hm, Bool.not_false, if_true]

end Settings

theorem saves_of_working : ∀ {m : Mode}, m ∈ [Mode.run, .readOnly, .lean, .safe] → m.saves = true ∧ m ≠ .seal := by decide

theorem not_saves_of_resting : ∀ {m : Mode}, m ∈ [Mode.park, .drowse, .hibernate, .seal, .halt, .boot] → m.saves = false := by
  decide

/-- Settles O43: the two causes of a copy, in the modes that save and in those that do not. -/
theorem settingsCopies : Obligations.SettingsCopies := by
  unfold Obligations.SettingsCopies
  intro s u hu
  refine ⟨fun hm hh => ?_, exec_settingsSave_of_unasked, exec_settingsSaveTimer_of_unwritten,
    fun hm => exec_settings_of_unsaving (not_saves_of_resting hm)⟩
  obtain ⟨hsaves, hseal⟩ := saves_of_working hm
  have hsaved : saveSettings s = u := (saveSettings_of_free hseal hh).trans hu.symm
  refine ⟨fun hnow => ?_, fun t ht => ⟨fun hle => ?_, fun hlt => ?_⟩⟩
  · rw [exec_settingsSave_of_asked hsaves hnow, hsaved]
  · rw [exec_settingsSaveTimer_of_written hsaves ht, if_pos hle, hsaved]
  · rw [exec_settingsSaveTimer_of_written hsaves ht, if_neg (Nat.not_le.mpr hlt)]

end Sys2Proof.Machine
/-!
PROOFS. Oxvia links and their link-level frames (R38, R384, R389, R392), routed frames and marks (R36, R390 to R395), members and
domain commands (R37, R394, R397 to R404).
-/

namespace Sys2Proof.Machine

/-! ### Links -/

section Links

variable {s u a : State} {frac l w pol lane rev min tag dev early seq ns : Nat} {p : Bytes} {rel : Bool}

section

variable {t d : Nat} (hu : u = atFrac frac s) (hh : (getLink u l).hello = some (rev, min, t, d))
include hu hh

theorem exec_oxvLinkUp_of_disagreed (hr : revsAgree u rev min = false) : exec (.oxvLinkUp frac l w pol lane) s = .next u := by
  simp only [exec_oxvLinkUp, execOxvLinkUp, ← hu, hh, hr, Bool.not_false, Bool.or_true, Bool.true_or, if_true]

theorem exec_oxvLinkUp_of_agreed (hpow : oxvPowered u = true) (hpres : linkPresent u l = true)
    (hdown : flagF u (OXV_LINK_UP l) = false) {top : Nat} (htop : top = if flagF u OXV_CTL_SPLIT = true then 2 else 4)
    (hr : revsAgree u rev min = true) (hw : w = 1 ∨ w = 2 ∨ w = 4) (hle : w ≤ top) :
    exec (.oxvLinkUp frac l w pol lane) s = .next (sendStatus (faultRec 0x11 l u.time.stroke w
      (setF (OXV_LINK_UP l) 1 (setF (OXV_LINK_WIDTH l) w (setF (OXV_LINK_POLARITY l) (pol % 16) (setF (OXV_LINK_LANE_MAP l)
        (lane % 256) (setF (OXV_LINK_NARROWED l) (bit (w < top)) (setF (OXV_LINK_REV_FAIL l) 0 (setF (OXV_LINK_REV l)
          (Nat.min rev (linkRev u)) (setF (OXV_LINK_PEER l) (d % 512) u)))))))))) := by
  have hwidth : (w == 1 || w == 2 || w == 4) = true := by rcases hw with h | h | h <;> rw [h] <;> rfl
  simp only [exec_oxvLinkUp, execOxvLinkUp, ← hu, hh, hpow, hpres, hdown, hr, hwidth, ← htop,
    decide_eq_false (Nat.not_lt.mpr hle), Bool.not_true, Bool.or_self, Bool.false_eq_true, if_false]

end

theorem exec_oxvLinkDown_of_up (hu : u = atFrac frac s) (hl : l < 4) (hup : flagF u (OXV_LINK_UP l) = true) :
    exec (.oxvLinkDown frac l) s = .next (oxvDown l u) := by
  simp only [exec_oxvLinkDown, execOxvLinkDown, ← hu, decide_eq_true hl, hup, Bool.and_self, if_true]

theorem exec_oxvLinkDown_of_down (hu : u = atFrac frac s) (hup : flagF u (OXV_LINK_UP l) = false) :
    exec (.oxvLinkDown frac l) s = .next u := by
  simp only [exec_oxvLinkDown, execOxvLinkDown, ← hu, hup, Bool.and_false, Bool.false_eq_true, if_false]

theorem exec_helloFrame_of_absent (h : oxvPowered s = false ∨ linkPresent s l = false) :
    exec (.helloFrame l rev min tag dev) s = .next s := by
  have hno : (!oxvPowered s || !linkPresent s l) = true := by rcases h with h | h <;> simp [h]
  simp only [exec_helloFrame, execHelloFrame, hno, if_true]

/-- A HELLO is answered, and its revision taken or refused. -/
theorem exec_helloFrame_of_present (hpow : oxvPowered s = true) (hpres : linkPresent s l = true)
    (ha : a = emit (.oxv l (oxvFrame 4 0 0 (deviceId s) 0 (getLink s l).txSeq (getLink s l).rxSeq (helloPayload s)))
      (updLink l (fun k => { k with hello := some (rev % 65536, min % 65536, tag, dev % 512) }) s)) :
    exec (.helloFrame l rev min tag dev) s = .next (setF (OXV_LINK_PEER l) (dev % 512)
      (setF (OXV_LINK_REV_FAIL l) (bit !revsAgree s rev min) (if revsAgree s rev min then
        setF (OXV_LINK_REV l) (Nat.min rev (linkRev s) % 65536) a else a))) := by
  simp only [exec_helloFrame, execHelloFrame, hpow, hpres, Bool.not_true, Bool.or_self, Bool.false_eq_true, if_false, ← ha]

theorem replayFrom_nil (l : Nat) (s : State) : replayFrom l [] s = s := by
  simp only [replayFrom, List.isEmpty_nil, if_true]

section

variable (h : oxvAlive s l = true)
include h

theorem exec_replayTimeout_of_alive :
    exec (.replayTimeout l) s = .next (replayFrom l ((getLink s l).replay.take 256) s) := by
  rw [exec_replayTimeout, execReplayTimeout, if_pos h]

theorem exec_nakFrame_of_alive : exec (.nakFrame l seq) s =
    .next (replayFrom l (((getLink s l).replay.take 256).dropWhile (fun e => e.1 != seq)) s) := by
  rw [exec_nakFrame, execNakFrame, if_pos h]

theorem exec_missedSync_of_alive : exec (.missedSync l early) s =
    .next (incF (OXV_LINK_SLIPS l) early (incF (OXV_LINK_MISSED_SYNC l) 1 s)) := by
  rw [exec_missedSync, execMissedSync, if_pos h]

theorem exec_oxvBadFrame_of_alive :
    exec (.oxvBadFrame l .length rel seq) s = .next (fmtErr l s) ∧ exec (.oxvBadFrame l .hops rel seq) s = .next (fmtErr l s) ∧
    exec (.oxvBadFrame l .fcrc true seq) s = .next (sendNak l seq (incF (OXV_LINK_CRC_ERR l) 1 s)) ∧
    exec (.oxvBadFrame l .fcrc false seq) s = .next (incF (OXV_LINK_CRC_ERR l) 1 s) ∧
    exec (.oxvBadFrame l .inner rel seq) s = .next (sendNak l seq (fmtErr l s)) := by
  simp only [exec_oxvBadFrame, execOxvBadFrame, h, Bool.not_true, Bool.false_eq_true, if_false, if_true, id_eq, and_self]

theorem exec_delayReq_of_alive : exec (.delayReq l p) s =
    .next (oxvSendOn l 3 0 (getF s (OXV_LINK_PEER l)) (fixLen 16 (Config.packOxv 3 [now s] (fixLen 8 p))) s) := by
  rw [exec_delayReq, execDelayReq, if_pos h]

omit h in
theorem exec_delayResp_of_unasked (hn : (getLink s l).delayAt = none) : exec (.delayResp l ns) s = .next s := by
  simp only [exec_delayResp, execDelayResp, hn, Option.isNone_none, Bool.or_true, if_true]

end

theorem exec_delayResp_of_first (h : oxvAlive s 0 = true) (hn : (getLink s 0).delayAt.isSome = true) :
    exec (.delayResp 0 ns) s = .next (setF STK_DIST_OXA_NS (Nat.min ns 65535)
      (updLink 0 (fun k => { k with delayAt := none }) (setF (OXV_LINK_DELAY_NS 0) (Nat.min ns 65535) s))) := by
  have hnone : (getLink s 0).delayAt.isNone = false := by
    obtain ⟨t, ht⟩ := Option.isSome_iff_exists.mp hn
    rw [ht]; rfl
  simp only [exec_delayResp, execDelayResp, h, hnone, Bool.not_true, Bool.or_self, Bool.false_eq_true, if_false, if_true]

/-- On a link that is down no frame but HELLO is heard. -/
theorem exec_oxv_of_dead (h : oxvAlive s l = false) :
    exec (.replayTimeout l) s = .next s ∧ exec (.nakFrame l seq) s = .next s ∧ exec (.missedSync l early) s = .next s ∧
    exec (.oxvBadFrame l .fcrc rel seq) s = .next s ∧ exec (.delayReq l p) s = .next s ∧ exec (.delayResp l ns) s = .next s := by
  simp only [exec_replayTimeout, execReplayTimeout, exec_nakFrame, execNakFrame, exec_missedSync, execMissedSync,
    exec_oxvBadFrame, execOxvBadFrame, exec_delayReq, execDelayReq, exec_delayResp, execDelayResp, h, Bool.not_false,
    Bool.true_or, Bool.false_eq_true, if_false, if_true, and_self]

end Links

/-- Settles O44: the link's own events, HELLO by what it agrees with, the link-level frames by whether the link is up. -/
theorem oxviaLinks : Obligations.OxviaLinks := by
  unfold Obligations.OxviaLinks
  intro s u frac l w pol lane rev min tag dev early seq ns p rel hu
  refine ⟨fun t d hh hpow hpres hdown => ⟨fun top => exec_oxvLinkUp_of_agreed hu hh hpow hpres hdown,
      exec_oxvLinkUp_of_disagreed hu hh⟩, exec_oxvLinkDown_of_up hu, exec_oxvLinkDown_of_down hu,
    fun hpow hpres a ha => ⟨fun hr => ?_, fun hr => ?_⟩, exec_helloFrame_of_absent, fun h => ?_, exec_oxv_of_dead⟩
  · rw [exec_helloFrame_of_present hpow hpres ha, hr, if_neg Bool.false_ne_true]
    rfl
  · rw [exec_helloFrame_of_present hpow hpres ha, hr, if_pos rfl]
    rfl
  · obtain ⟨hlen, hhops, hfcrc, hfcrc', hinner⟩ := exec_oxvBadFrame_of_alive (rel := rel) (seq := seq) h
    refine ⟨exec_replayTimeout_of_alive h, fun h0 => ⟨?_, ?_⟩, exec_nakFrame_of_alive h, exec_missedSync_of_alive h, hlen, hhops,
      hfcrc, hfcrc', hinner, exec_delayReq_of_alive h, fun hn hl => ?_, exec_delayResp_of_unasked⟩
    · rw [exec_replayTimeout_of_alive h, h0, List.take_nil, replayFrom_nil]
    · rw [exec_nakFrame_of_alive h, h0, List.take_nil, List.dropWhile_nil, replayFrom_nil]
    · subst hl
      exact exec_delayResp_of_first h hn

/-! ### Routed frames -/

section Routed

variable {s u v : State} {h : OxvHdr} {type : Nat} {payload : Bytes} {k : State → State}

theorem oxvReceive_of_dead (hd : oxvAlive s h.link = false) : oxvReceive h type payload k s = s := by
  simp only [oxvReceive, hd, Bool.not_false, if_true]

section

variable (ha : oxvAlive s h.link = true) (hu : u = oxvAck h.link h.ack s)
include ha hu

section

variable (hf : bitAt h.flags 1 = false) (hrel : oxvRel type = true)
include hf hrel

/-- The frame that is next in the order of its link (R392). -/
theorem oxvReceive_of_next (hv : v = updLink h.link (fun k => { k with rxSeq := h.seq % 65536 }) u)
    (hd : sub16 h.seq (getLink u h.link).rxSeq = 1) (hdst : h.dst % 512 = deviceId s) :
    oxvReceive h type payload k s = k v := by
  simp only [oxvReceive, ha, hf, hrel, ← hu, hd, bne_self_eq_false, hdst, Bool.not_true, Bool.and_false, Bool.false_eq_true,
    if_false, if_true, ← hv]

theorem oxvReceive_of_duplicate (hd : sub16 h.seq (getLink u h.link).rxSeq = 0) : oxvReceive h type payload k s = u := by
  have hne : ((0 : Nat) != 1) = true := rfl
  simp only [oxvReceive, ha, hf, hrel, ← hu, hd, hne, Bool.not_true, Bool.and_self, Nat.not_lt_zero, decide_false,
    Bool.false_and, Bool.false_eq_true, if_false, if_true]

theorem oxvReceive_of_gap (hd : sub16 h.seq (getLink u h.link).rxSeq = 2) :
    oxvReceive h type payload k s = sendNak h.link ((getLink u h.link).rxSeq + 1) u := by
  have hne : ((2 : Nat) != 1) = true := rfl
  have hgap : (decide ((1 : Nat) < 2) && decide ((2 : Nat) < 32768)) = true := rfl
  simp only [oxvReceive, ha, hf, hrel, ← hu, hd, hne, hgap, Bool.not_true, Bool.and_self, Bool.false_eq_true, if_false, if_true]

end

theorem oxvReceive_of_broadcast (hf : bitAt h.flags 1 = true) : oxvReceive h type payload k s =
    if (h.src, h.seq) ∈ u.oxv.seen then u
    else k (floodOn h type payload { u with oxv := { u.oxv with seen := ((h.src, h.seq) :: u.oxv.seen).take 1024 } }) := by
  simp only [oxvReceive, ha, hf, ← hu, Bool.not_true, Bool.false_eq_true, if_false, if_true, List.contains_iff_mem]

end

end Routed

/-! ### Marks -/

section Marks

variable {s u v : State} {h : OxvHdr} {frac count state flog2 period root corr tag : Nat} {arrivalNs : Int}
  (hu : u = atFrac frac s) (ha : oxvAlive u h.link = true)
include hu ha

theorem exec_markFrame_of_foreign (ht : tag = 0 ∨ tag ≠ u.oxv.tag) :
    exec (.markFrame frac h count state flog2 period root corr tag arrivalNs) s = .next (incF OXV_STATUS_FOREIGN 1 u) := by
  have hforeign : (decide (tag = 0) || tag != u.oxv.tag) = true := by
    rcases ht with h | h <;> simp [h]
  simp only [exec_markFrame, execMarkFrame, ← hu, ha, hforeign, Bool.not_true, Bool.false_eq_true, if_false, if_true]

variable (ht : tag ≠ 0) (htag : tag = u.oxv.tag)
include ht htag

theorem exec_markFrame_of_seen (hs : u.oxv.lastMark = some count ∨ deviceId u = u.oxv.root) :
    exec (.markFrame frac h count state flog2 period root corr tag arrivalNs) s = .next u := by
  have hown : (decide (tag = 0) || tag != u.oxv.tag) = false := by
    rw [← htag, decide_eq_false ht, bne_self_eq_false]; rfl
  have hold : (decide (deviceId u = u.oxv.root) || u.oxv.lastMark == some count) = true := by
    rcases hs with h | h <;> simp [h]
  simp only [exec_markFrame, execMarkFrame, ← hu, ha, hown, hold, Bool.not_true, Bool.false_eq_true, if_false, if_true]

/-- The first copy of a mark: its residence time is a free value, which only its CORR sees. -/
theorem exec_markFrame_of_first (hroot : deviceId u ≠ u.oxv.root) (hnew : u.oxv.lastMark ≠ some count) {res : Nat}
    (hres : res = Config.freeNat u.freeCount)
    (hv : v = { u with freeCount := u.freeCount + 1, oxv := { u.oxv with
      lastMark := some count, stats := mset u.oxv.stats root { (mget u.oxv.stats root).getD {} with
        corr := corr, holdover := state == 3 } } })
    {late : Int} (hlate : late = arrivalNs - ((corr + getF u (OXV_LINK_DELAY_NS h.link) : Nat) : Int)) :
    exec (.markFrame frac h count state flog2 period root corr tag arrivalNs) s = .next (takeMark count period late
      (if 200 ≤ h.hops + 1 then fmtErr h.link v
      else [0, 1, 2, 3].foldl (fun a l => if l = h.link then a else oxvPut l 1 (h.flags % 8) h.dst h.src (h.hops + 1) 0
        (markPayload count state flog2 period root ((corr + res + getF u (OXV_LINK_DELAY_NS h.link)) % 2 ^ 32) tag) a) v)) := by
  have hown : (decide (tag = 0) || tag != u.oxv.tag) = false := by
    rw [← htag, decide_eq_false ht, bne_self_eq_false]; rfl
  have hfirst : (decide (deviceId u = u.oxv.root) || u.oxv.lastMark == some count) = false := by
    rw [decide_eq_false hroot, beq_eq_false_iff_ne.mpr hnew]; rfl
  simp only [exec_markFrame, execMarkFrame, ← hu, ha, hown, hfirst, Bool.not_true, Bool.false_eq_true, if_false, takeFree, ← hres,
    ← hv, ← hlate]

end Marks

/-- Settles O45: routed frames by their place in the order of the link, broadcasts and FDs, then marks by their domain and copy. -/
theorem oxviaFrames : Obligations.OxviaFrames := by
  unfold Obligations.OxviaFrames
  refine ⟨fun s u v h m pm ns st lba mode attn rev min index lag ups data fd => ⟨fun hd => ?_,
      fun ha hu hf hv => ⟨fun h1 hdst => ?_, fun h0 => ?_, fun h2 => ?_⟩, fun ha hu hf => ⟨fun hs => ?_, fun hs => ?_⟩,
      fun ha => ?_, fun frac count state flog2 period root corr tag arrivalNs w hw ha =>
        ⟨exec_markFrame_of_foreign hw ha, exec_markFrame_of_seen hw ha⟩⟩,
    fun s u v frac h count state flog2 period root corr tag res arrivalNs hu ha ht htag hroot hnew hres hv late hlate =>
      ⟨fun hlt => ?_, fun hle => ?_⟩⟩
  · refine ⟨congrArg _ (oxvReceive_of_dead hd), congrArg _ (oxvReceive_of_dead hd), congrArg _ (oxvReceive_of_dead hd),
      congrArg _ (oxvReceive_of_dead hd), congrArg _ (oxvReceive_of_dead hd), ?_⟩
    rw [exec_fdFrame, execFdFrame, hd, if_neg Bool.false_ne_true]
  · exact ⟨congrArg _ (oxvReceive_of_next ha hu hf rfl hv h1 hdst), congrArg _ (oxvReceive_of_next ha hu hf rfl hv h1 hdst),
      congrArg _ (oxvReceive_of_next ha hu hf rfl hv h1 hdst), congrArg _ (oxvReceive_of_next ha hu hf rfl hv h1 hdst)⟩
  · exact ⟨congrArg _ (oxvReceive_of_duplicate ha hu hf rfl h0), congrArg _ (oxvReceive_of_duplicate ha hu hf rfl h0)⟩
  · exact congrArg _ (oxvReceive_of_gap ha hu hf rfl h2)
  · rw [exec_oxvStatusFrame, execOxvStatusFrame, oxvReceive_of_broadcast ha hu hf, if_pos hs]
  · rw [exec_oxvStatusFrame, execOxvStatusFrame, oxvReceive_of_broadcast ha hu hf, if_neg hs]
  · rw [exec_fdFrame, execFdFrame, if_pos ha]
  · rw [exec_markFrame_of_first hu ha ht htag hroot hnew hres hv hlate, if_neg (by omega)]
  · rw [exec_markFrame_of_first hu ha ht htag hroot hnew hres hv hlate, if_pos (by omega)]

end Sys2Proof.Machine
/-!
PROOFS. Members of a domain, OXV_REMOTE and DOMAIN CONFIGURE (R37, R394, R397 to R399, R403, R404).
-/

namespace Sys2Proof.Machine

/-! ### Members and OXV_REMOTE -/

section Members

variable {s u w : State} {d v : Nat} {x : MemberStat} (hx : mget s.oxv.stats d = some x)
include hx

theorem exec_memberUnreachable_of_recent (h : s.time.stroke < x.dtime / 65536 + 192) :
    exec (.memberUnreachable d) s = .next s := by
  simp only [exec_memberUnreachable, execMemberUnreachable, hx, Option.getD_some, decide_eq_true h, Bool.or_true, if_true]

/-- A member that has been silent for 192 strokes is lost: an access to it under way has failed, and a head is missed. -/
theorem exec_memberUnreachable_of_silent (hu : u = { s with oxv := { s.oxv with stats := mset s.oxv.stats d { x with lost := true } } })
    (hm : isMember s d = true) (hd : d ≠ deviceId s) (hl : x.lost = false) (h : x.dtime / 65536 + 192 ≤ s.time.stroke)
    (hbusy : flagF u OXV_REMOTE_BUSY = true → getF u OXV_REMOTE_DEVICE = d → w = setF OXV_REMOTE_BUSY 0 (setF OXV_REMOTE_ERR 1 u))
    (hfree : flagF u OXV_REMOTE_BUSY = false ∨ getF u OXV_REMOTE_DEVICE ≠ d → w = u) :
    exec (.memberUnreachable d) s = .next (if follower s && headOf s == some d then loseHead d w else showDomainAttn w) := by
  have hw : (if (flagF u OXV_REMOTE_BUSY && getF u OXV_REMOTE_DEVICE == d) = true then
      setF OXV_REMOTE_BUSY 0 (setF OXV_REMOTE_ERR 1 u) else u) = w := by
    by_cases hb : flagF u OXV_REMOTE_BUSY = true
    · by_cases hdev : getF u OXV_REMOTE_DEVICE = d
      · rw [if_pos (by simp [hb, hdev]), hbusy hb hdev]
      · rw [if_neg (by simp [hdev]), hfree (.inr hdev)]
    · rw [if_neg (by simp [hb]), hfree (.inl (by simpa using hb))]
  simp only [exec_memberUnreachable, execMemberUnreachable, hx, Option.getD_some, hm, decide_eq_false hd, hl,
    decide_eq_false (Nat.not_lt.mpr h), Bool.not_true, Bool.or_self, Bool.false_eq_true, if_false, ← hu, hw]

end Members

theorem exec_remoteGo_of_unheard {s : State} {v : Nat} (h : s.mode.cur ∈ [.seal, .halt, .boot]) : exec (.remoteGo v) s = .next s := by
  simp only [List.mem_cons, List.not_mem_nil, or_false] at h
  rcases h with h | h | h <;> simp only [exec_remoteGo, execRemoteGo, h]

theorem exec_remoteGo_of_fields {s : State} {v : Nat} (hm : s.mode.cur = .run) (hg : bitAt (v % 2 ^ 32) 28 = false) :
    exec (.remoteGo v) s = .next (plainWrite 0x35200 (v % 2 ^ 32) s) := by
  simp only [exec_remoteGo, execRemoteGo, hm, remoteWrite, hg, Bool.not_false, Bool.true_or, if_true]

/-! ### DOMAIN CONFIGURE -/

section Configure

variable {s u : State} {q : Sqe} {numd : Nat} {data c : Bytes}

theorem domainConfigure_of_length (hc : c = numdData numd data) (h : leAt c 4 4 ≠ (numd + 1) * 4) :
    domainConfigure q numd data u = done q .lengthMismatch 0 0 u := by
  simp only [domainConfigure, ← hc, bne_iff_ne.mpr h, firstError_cons_true]

theorem domainConfigure_of_bad (hc : c = numdData numd data) (hl : leAt c 4 4 = (numd + 1) * 4) (h : cfgOk c = false) :
    domainConfigure q numd data u = done q .invalidField 0 0 u := by
  simp only [domainConfigure, ← hc, hl, bne_self_eq_false, h, Bool.not_false, Bool.true_or, firstError_cons_false,
    firstError_cons_true]

section

variable {i : Nat} (hc : c = numdData numd data) (hl : leAt c 4 4 = (numd + 1) * 4) (hok : cfgOk c = true)
  (hi : myIndex c = some i) (hm : memberOk u c i = true)
include hc hl hok hi hm

theorem domainConfigure_of_busy (h : u.oxv.coord.isSome = true ∨ u.oxv.prepared.isSome = true) :
    domainConfigure q numd data u = done q .statePending 0 0 u := by
  have hbusy : (u.oxv.prepared.isSome || u.oxv.coord.isSome) = true := by rcases h with h | h <;> simp [h]
  simp only [domainConfigure, ← hc, hl, bne_self_eq_false, hok, hi, hm, Bool.not_true, Bool.or_self, firstError_cons_false,
    hbusy, firstError_cons_true]

section

variable (hprep : u.oxv.prepared = none) (hcoord : u.oxv.coord = none)
include hprep hcoord

theorem domainConfigure_of_activating (h : memberActivating u c = true) :
    domainConfigure q numd data u = done q .domainUnreachable 0 0 u := by
  simp only [domainConfigure, ← hc, hl, bne_self_eq_false, hok, hi, hm, hprep, hcoord, Option.isSome_none, Bool.not_true,
    Bool.or_self, firstError_cons_false, h, firstError_cons_true]

/-- A structure that passes is kept, and a PREPARE flooded. -/
theorem domainConfigure_of_good (h : memberActivating u c = false) : domainConfigure q numd data u =
    checkReady (oxvFlood 6 (controlPayload 0 [] c) { u with oxv := { u.oxv with
      coord := some { fn := q.fn, sqid := q.sqid, cid := q.cid, cfg := c, since := u.time.stroke, ready := [i] },
      prepared := some (deviceId u, c) } }) := by
  simp only [domainConfigure, ← hc, hl, bne_self_eq_false, hok, hi, hm, hprep, hcoord, Option.isSome_none, Bool.not_true,
    Bool.or_self, firstError_cons_false, h, firstError_nil, Option.toList_some]

end

end

theorem domainRealign_eq : domainRealign q u = if lockState u = 4 ∧ 0 < u.time.offsetNs then
    done q .success 0 0 { u with time := { u.time with realign := true } } else done q .commandSequenceError 0 0 u := by
  simp only [domainRealign, Bool.and_eq_true, decide_eq_true_eq]

theorem exec_domainPrepareTimeout_of_none (h : s.oxv.coord = none) : exec .domainPrepareTimeout s = .next s := by
  simp only [exec_domainPrepareTimeout, execDomainPrepareTimeout, h]

theorem exec_domainPrepareTimeout_of_some {k : Coord} (h : s.oxv.coord = some k) (hn : k.commitAt = none) :
    exec .domainPrepareTimeout s = .next (if k.since + 64 ≤ s.time.stroke then abortDomain k .domainUnreachable s else s) := by
  simp only [exec_domainPrepareTimeout, execDomainPrepareTimeout, h, hn, Option.isNone_none, Bool.true_and, decide_eq_true_eq]

section

variable {src i n : Nat} (hp : s.oxv.prepared = some (src, c)) (hn : s.oxv.commitAt = some n) (hi : myIndex c = some i)
include hp hn hi

theorem exec_domainCommit_of_due (h0 : s.time.frac = 0) (hle : n ≤ s.time.stroke)
    (hopen : strokeOpen s = false ∨ commitRestarts s = none) : exec .domainCommit s = .next (joinDomain c i s) := by
  have hfree : (strokeOpen s && (commitRestarts s).isSome) = false := by rcases hopen with h | h <;> simp [h]
  simp only [exec_domainCommit, execDomainCommit, hp, hn, hi, decide_eq_true h0, decide_eq_true hle, hfree, Bool.not_false,
    Bool.and_self, if_true]

theorem exec_domainCommit_of_early (h : s.time.stroke < n ∨ strokeOpen s = true ∧ (commitRestarts s).isSome = true) :
    exec .domainCommit s = .next s := by
  have hwait : (decide (s.time.frac = 0) && decide (n ≤ s.time.stroke) && !(strokeOpen s && (commitRestarts s).isSome)) = false := by
    rcases h with h | ⟨h1, h2⟩
    · rw [decide_eq_false (Nat.not_le.mpr h), Bool.and_false, Bool.false_and]
    · rw [h1, h2, Bool.and_self, Bool.not_true, Bool.and_false]
  simp only [exec_domainCommit, execDomainCommit, hp, hn, hi, hwait, Bool.false_eq_true, if_false]

end

end Configure

/-- Settles O46: a member's silence, OXV_REMOTE without GO, then DOMAIN CONFIGURE from its rows to the commit. -/
theorem domainCommands : Obligations.DomainCommands := by
  unfold Obligations.DomainCommands
  refine ⟨fun s u d v x hx hu => ⟨exec_memberUnreachable_of_recent hx, fun hm hd hl hle w hbusy hfree => ⟨fun hhead => ?_,
      fun hno => ?_⟩, exec_remoteGo_of_unheard, exec_remoteGo_of_fields⟩,
    fun s u q numd data c hu hc => ⟨fun hok => ?_, fun hok => ⟨fun h4 h0 => ?_, fun h4 => ?_⟩,
      exec_domainPrepareTimeout_of_none, fun k hk hn => ⟨fun hle => ?_, fun hlt => ?_⟩,
      fun src i n hp hn hi => ⟨exec_domainCommit_of_due hp hn hi, exec_domainCommit_of_early hp hn hi⟩⟩⟩
  · rw [exec_memberUnreachable_of_silent hx hu hm hd hl hle hbusy hfree, if_pos (by simp [hhead])]
  · rw [exec_memberUnreachable_of_silent hx hu hm hd hl hle hbusy hfree, if_neg (by rcases hno with h | h <;> simp [h])]
  · have hstep : exec (.domainConfigure q numd data) s = .next (domainConfigure q numd data u) := by
      rw [exec_domainConfigure, execDomainConfigure, adminFetch_of_adminOk hok, hu]
    refine ⟨fun hl => ?_, fun hl hbad => ?_, fun i hl hgood hi hm => ⟨fun hbusy => ?_, fun hprep hcoord hact => ?_,
      fun hprep hcoord hact => ?_⟩⟩
    · rw [hstep, domainConfigure_of_length hc hl]
    · rw [hstep, domainConfigure_of_bad hc hl hbad]
    · rw [hstep, domainConfigure_of_busy hc hl hgood hi hm hbusy]
    · rw [hstep, domainConfigure_of_activating hc hl hgood hi hm hprep hcoord hact]
    · rw [hstep, domainConfigure_of_good hc hl hgood hi hm hprep hcoord hact]
  · rw [exec_domainRealign, execDomainRealign, adminFetch_of_adminOk hok, ← hu, domainRealign_eq, if_pos ⟨h4, h0⟩]
  · rw [exec_domainRealign, execDomainRealign, adminFetch_of_adminOk hok, ← hu, domainRealign_eq,
      if_neg (fun h => h4 h.1)]
  · rw [exec_domainPrepareTimeout_of_some hk hn, if_pos hle]
  · rw [exec_domainPrepareTimeout_of_some hk hn, if_neg (Nat.not_le.mpr hlt)]

end Sys2Proof.Machine
/-!
PROOFS. The sources of SEAL, its deadline and its end (R64, R210 to R212, R215, R216, R221, R431), and power-up with the loss of
always-on power (R413, R419, R462, R463).
-/

namespace Sys2Proof.Machine

/-! ### The sources of SEAL -/

section Sources

variable {s u v : State} {frac mon mv width : Nat} (hu : u = atFrac frac s)
include hu

theorem exec_holdSenseTrip_eq (hv : v = setF PWR_HOLD_STATUS_SENSE_MV (min mv 4095) u) :
    exec (.holdSenseTrip frac mv) s = .next (if mv < getF v PWR_HOLD_TRIP_MV then trip 2 0 5 2 v else v) := by
  simp only [exec_holdSenseTrip, execHoldSenseTrip, ← hu, ← hv]

theorem exec_railUndervoltage_of_low (hm : mon < 32) (hmask : vmonMasked u mon = false)
    (h : mv < getF u (MON_VMON_UV_MV mon)) : exec (.railUndervoltage frac mon mv) s = .next (trip 3 mon 5 2 u) := by
  simp only [exec_railUndervoltage, execRailUndervoltage, ← hu, decide_eq_false (Nat.not_le.mpr hm), hmask,
    decide_eq_false (Nat.not_le.mpr h), Bool.or_self, Bool.false_eq_true, if_false]

theorem exec_railUndervoltage_of_good (h : getF u (MON_VMON_UV_MV mon) ≤ mv) :
    exec (.railUndervoltage frac mon mv) s = .next u := by
  simp only [exec_railUndervoltage, execRailUndervoltage, ← hu, decide_eq_true h, Bool.or_true, if_true]

theorem exec_railUndervoltage_of_masked (h : vmonMasked u mon = true) :
    exec (.railUndervoltage frac mon mv) s = .next u := by
  simp only [exec_railUndervoltage, execRailUndervoltage, ← hu, h, Bool.or_true, Bool.true_or, if_true]

theorem exec_pfailGlitch_eq : exec (.pfailGlitch frac width) s =
    .next (if width < getF u PWR_PFAIL_FILT_US then blot 0x0101 0 0 (le 2 width) u else u) := by
  simp only [exec_pfailGlitch, execPfailGlitch, ← hu]

theorem exec_holdArmChange_eq (hv : v = setF PWR_HOLD_STATUS_SENSE_MV (min mv 4095) u) {on : Bool}
    (hon : on = decide (getF v PWR_HOLD_ARM_MV ≤ mv)) : exec (.holdArmChange frac mv) s = .next (if on == armed v then
      setF PWR_HOLD_STATUS_ARMED (bit on) v
    else resumeHeld (blot 0x0103 1 0 (le 1 (bit on) ++ le 2 mv) (setF PWR_HOLD_STATUS_ARMED (bit on) v))) := by
  simp only [exec_holdArmChange, execHoldArmChange, ← hu, ← hv, ← hon]

end Sources

/-- A source that trips in SEAL is only noted (R211). -/
theorem trip_of_seal {s : State} (h : s.mode.cur = .seal) (source rail cause boot : Nat) : trip source rail cause boot s =
    { s with mode := { s.mode with sealLater := s.mode.sealLater ++ [source] } } := by
  simp only [trip, h]

theorem trip_of_settled {s : State} (h : s.mode.cur ∈ [.hibernate, .halt, .safe]) (source rail cause boot : Nat) :
    trip source rail cause boot s = s := by
  simp only [List.mem_cons, List.not_mem_nil, or_false] at h
  rcases h with h | h | h <;> simp only [trip, h]

/-! ### The course of SEAL -/

theorem foldl_emit {α : Type} (g : α → Out) (l : List α) (s : State) :
    l.foldl (fun a e => emit (g e) a) s = { s with out := s.out ++ l.map g } := by
  induction l generalizing s with
  | nil => rw [List.foldl_nil, List.map_nil, List.append_nil]
  | cons x t ih =>
    rw [List.foldl_cons, ih, List.map_cons, emit_out, List.append_assoc, List.singleton_append]
    rfl

/-- The deadline resets each die that still runs an operation (R215). -/
theorem exec_sealInflightDeadline_of_seal {s : State} (h : s.mode.cur = .seal) : exec .sealInflightDeadline s = .next { s with
    ftl := { s.ftl with dies := s.ftl.dies.map (fun e => (e.1, { e.2 with running := none })) },
    out := s.out ++ (s.ftl.dies.filter (fun e => e.2.running.isSome)).map (fun e => .nand (e.1 / 16) e.1 8 0) } := by
  have hseal : (s.mode.cur != .seal) = false := by rw [h]; rfl
  rw [exec_sealInflightDeadline, execSealInflightDeadline, hseal, if_neg Bool.false_ne_true, ← List.foldl_filter, foldl_emit]

theorem exec_sealInflightDeadline_of_other {s : State} (h : s.mode.cur ≠ .seal) : exec .sealInflightDeadline s = .next s := by
  rw [exec_sealInflightDeadline, execSealInflightDeadline, if_pos (bne_iff_ne.mpr h)]

theorem sealInflightDeadline_resets {s : State} (h : s.mode.cur = .seal) :
    ∃ t, exec .sealInflightDeadline s = .next t ∧ (∀ e ∈ t.ftl.dies, e.2.running = none) ∧
      t = { s with ftl := { s.ftl with dies := t.ftl.dies }, out := t.out } ∧
      ∀ e ∈ s.ftl.dies, e.2.running.isSome = true → .nand (e.1 / 16) e.1 8 0 ∈ t.out := by
  refine ⟨_, exec_sealInflightDeadline_of_seal h, fun e he => ?_, rfl, fun e he hrun => ?_⟩
  · obtain ⟨x, -, rfl⟩ := List.mem_map.mp he
    rfl
  · exact List.mem_append_right _ (List.mem_map.mpr ⟨e, List.mem_filter.mpr ⟨he, hrun⟩, rfl⟩)

theorem sealPrograms_told (slots : List Slot) (s : State) : sealPrograms slots s = { s with out := (sealPrograms slots s).out } := by
  rw [sealPrograms, foldl_emit (fun t : Slot => .nand (t.die / 16) t.die 4 t.row), foldl_emit (fun d => .nand (d / 16) d 4 0)]

theorem sealLand_staged (ok snap : Bool) (s : State) : (sealLand ok snap s).ftl.staged = [] := by
  rw [sealLand, setF_ftl, sealPrograms_told]

theorem sealLand_unclean (ok snap : Bool) (s : State) : (sealLand ok snap s).mode.unclean = !ok := by
  rw [sealLand, setF_mode, sealPrograms_told]

theorem exec_sealEnd_of_other {s u : State} {frac : Nat} {clear ok snap : Bool} (hu : u = atFrac frac s)
    (h : u.mode.cur ≠ .seal) : exec (.sealEnd frac clear ok snap) s = .next u := by
  simp only [exec_sealEnd, execSealEnd, ← hu, bne_iff_ne.mpr h, if_true]

/-- At its end SEAL goes to BOOT where every source is clear, and else to HALT; a held PERST_N is taken up then (R64, R211). -/
theorem exec_sealEnd_of_seal {s u w : State} {frac : Nat} {clear ok snap : Bool} (hu : u = atFrac frac s)
    (h : u.mode.cur = .seal)
    (hw : w = sealLand ok snap (signPending (fixFlourish true (sealCommit u.chain.closed.length u)))) {e : State}
    (he : e = if clear then reboot .computeGood w.mode.bootCause (getF w GLB_MODE_CAUSE) (setF PWR_PFAIL_LEVEL 1 w)
      else enterMode .halt { w with fns := [], numVfs := 0, mode := { w.mode with stage := .up, cold := d3cold u } }) :
    exec (.sealEnd frac clear ok snap) s = .next (if u.mode.perstSeal then holdPerst e else e) := by
  have hseal : (u.mode.cur != .seal) = false := by rw [h]; rfl
  simp only [exec_sealEnd, execSealEnd, ← hu, hseal, Bool.false_eq_true, if_false, ← hw, ← he]

/-- Settles O48: each source by its threshold, then the deadline and the end by whether SEAL runs. -/
theorem sealEntryAndCourse : Obligations.SealEntryAndCourse := by
  unfold Obligations.SealEntryAndCourse
  refine ⟨fun s u frac mon mv width hu => ⟨fun hle hsame => ?_, fun v hv hlt => ?_, fun hm hmask hlt => ⟨?_, fun hs => ?_, fun hs => ?_⟩,
      exec_railUndervoltage_of_good hu, exec_railUndervoltage_of_masked hu, fun hlt => ?_, fun hle => ?_,
      fun v on hv hon => ⟨fun heq => ?_, fun hne => ?_⟩⟩,
    fun s u frac ok snap hu => ⟨sealInflightDeadline_resets, exec_sealInflightDeadline_of_other,
      fun h clear => exec_sealEnd_of_other hu h, fun h w b c hw hb hc => ⟨?_, ?_, fun hp => ⟨?_, ?_⟩, fun hp => ⟨?_, ?_⟩⟩⟩⟩
  · rw [exec_holdSenseTrip_eq hu rfl, hsame, if_neg (Nat.not_lt.mpr hle)]
  · rw [exec_holdSenseTrip_eq hu hv, if_pos hlt]
  · exact exec_railUndervoltage_of_low hu hm hmask hlt
  · rw [exec_railUndervoltage_of_low hu hm hmask hlt, trip_of_seal hs]
  · rw [exec_railUndervoltage_of_low hu hm hmask hlt, trip_of_settled hs]
  · rw [exec_pfailGlitch_eq hu, if_pos hlt]
  · rw [exec_pfailGlitch_eq hu, if_neg (Nat.not_lt.mpr hle)]
  · rw [exec_holdArmChange_eq hu hv hon, if_pos (beq_iff_eq.mpr heq)]
  · rw [exec_holdArmChange_eq hu hv hon, if_neg (by simpa using hne)]
  · rw [hw, sealLand_staged]
  · rw [hw, sealLand_unclean]
  · rw [exec_sealEnd_of_seal hu h hw (hb.trans (if_pos rfl).symm), hp, if_neg Bool.false_ne_true]
  · rw [exec_sealEnd_of_seal hu h hw (hc.trans (if_neg Bool.false_ne_true).symm), hp, if_neg Bool.false_ne_true]
  · rw [exec_sealEnd_of_seal hu h hw (hb.trans (if_pos rfl).symm), if_pos hp]
  · rw [exec_sealEnd_of_seal hu h hw (hc.trans (if_neg Bool.false_ne_true).symm), if_pos hp]

/-! ### Power-up -/

section Power

variable {s : State}

theorem exec_alwaysOnPowerApplied_of_off (h : s.mode.stage = .off) :
    exec .alwaysOnPowerApplied s = .next (setF GLB_RESET_CAUSE_BOOTS 0 (reboot .alwaysOn 1 0x0B s)) := by
  rw [exec_alwaysOnPowerApplied, execAlwaysOnPowerApplied, if_neg (by simp [h])]

theorem exec_alwaysOnPowerApplied_of_on (h : s.mode.stage ≠ .off) : exec .alwaysOnPowerApplied s = .next s := by
  rw [exec_alwaysOnPowerApplied, execAlwaysOnPowerApplied, if_pos (bne_iff_ne.mpr h)]

theorem exec_alwaysOnResetEnd_of_alwaysOn (h : s.mode.stage = .alwaysOn) : exec .alwaysOnResetEnd s =
    .next (setReqs 1 (restoreLog { s with mode := { s.mode with stage := .resetDone } })) := by
  rw [exec_alwaysOnResetEnd, execAlwaysOnResetEnd, if_neg (by simp [h])]

theorem exec_alwaysOnResetEnd_of_other (h : s.mode.stage ≠ .alwaysOn) : exec .alwaysOnResetEnd s = .next s := by
  rw [exec_alwaysOnResetEnd, execAlwaysOnResetEnd, if_pos (bne_iff_ne.mpr h)]

theorem exec_rails_of_resetDone (h : s.mode.stage = .resetDone) :
    exec .computeRailsGood s = .next (setReqs 7 { s with mode := { s.mode with stage := .computeGood } }) ∧
    exec .powerUpTimeout s = .next (enterMode .halt { s with mode := { s.mode with stage := .up } }) := by
  constructor
  · rw [exec_computeRailsGood, execComputeRailsGood, if_neg (by simp [h])]
  · rw [exec_powerUpTimeout, execPowerUpTimeout, if_neg (by simp [h])]

theorem exec_rails_of_other (h : s.mode.stage ≠ .resetDone) :
    exec .computeRailsGood s = .next s ∧ exec .powerUpTimeout s = .next s := by
  constructor
  · rw [exec_computeRailsGood, execComputeRailsGood, if_pos (bne_iff_ne.mpr h)]
  · rw [exec_powerUpTimeout, execPowerUpTimeout, if_pos (bne_iff_ne.mpr h)]

/-- In HALT nothing on the media or in the compute die is touched. -/
theorem supplyLost_of_halt (h : s.mode.cur = .halt) : supplyLost s = s := by
  simp only [supplyLost, h, if_true, Mode.settled]

end Power

/-- Settles O49: each event by the stage of the sequence, and what is left after the loss of always-on power. -/
theorem powerUp : Obligations.PowerUp := by
  unfold Obligations.PowerUp
  refine ⟨fun s h => ⟨exec_alwaysOnPowerApplied_of_off h, execAlwaysOnPowerLost_of_off h⟩, fun s => exec_alwaysOnPowerApplied_of_on,
    fun s => exec_alwaysOnResetEnd_of_alwaysOn, fun s => exec_alwaysOnResetEnd_of_other, fun s => exec_rails_of_resetDone,
    fun s => exec_rails_of_other, fun s h => ⟨retainedLost (supplyLost s), execAlwaysOnPowerLost_of_on h, rfl, rfl, rfl, rfl, rfl,
      rfl, fun hh => ?_⟩⟩
  rw [supplyLost_of_halt hh]
  exact ⟨rfl, rfl⟩

end Sys2Proof.Machine
/-!
PROOFS. The pounce unit, the flourishes and the lanes (R20, R21, R134, R140, R143 to R145).
-/

namespace Sys2Proof.Machine

/-! ### Commits -/

section Pounce

variable {s u v : State} {frac flag2 n : Nat} {b : Bool} (hu : u = atFrac frac s)
include hu

theorem exec_pounceCommit_of_none (flag : Nat) (h : u.chain.closed = []) :
    exec (.pounceCommit frac flag flag2 n b) s = .next u := by
  rw [exec_pounceCommit, execPounceCommit, ← hu]
  simp only [pounce, h]

variable {c : ClosedStroke} {rest : List ClosedStroke} (hc : u.chain.closed = c :: rest)
include hc

theorem exec_pounceCommit_of_agreed (hv : v = commitStroke { c with voted := false } (setF PNC_STATUS_FLAG 2 u)) :
    exec (.pounceCommit frac 2 flag2 n b) s = .next (if endsInterval v c.n && !c.sealClosed then fixFlourish false v else v) := by
  rw [exec_pounceCommit, execPounceCommit, ← hu]
  simp only [pounce, hc, pounceCompare, Nat.reduceMod, if_true, ← hv]

/-- A second compare that agrees is a retry, with its FAULT record (R144). -/
theorem exec_pounceCommit_of_retry (hv : v = commitStroke { c with voted := false } (setF PNC_STATUS_FLAG 2
      (incF PNC_RETRY_RETRIES 1 (faultRec 1 0 c.n 1 (setF PNC_STATUS_FLAG 1 u))))) :
    exec (.pounceCommit frac 1 2 n b) s = .next (if endsInterval v c.n && !c.sealClosed then fixFlourish false v else v) := by
  rw [exec_pounceCommit, execPounceCommit, ← hu]
  simp only [pounce, hc, pounceCompare, Nat.reduceMod, if_true, ← hv, Nat.reduceEqDiff, if_false]

end Pounce

/-- The chain and the statistics with stroke `c` committed, before the registers show it. -/
def chained (c : ClosedStroke) (s : State) : State :=
  { s with
    chain := { s.chain with
      closed := s.chain.closed.drop 1, roots := s.chain.roots ++ [rootOf s c], rseq := s.chain.rseq + 1,
      streams := (rootOf s c).leaves.foldl (fun m l => mset m l.stream (c.n, l.leaf))
        (if c.genesis.isSome then [] else s.chain.streams),
      lastSealed := some c.n, lastC := (rootOf s c).c, lastHash := c.hashSel,
      flFrom := some (s.chain.flFrom.getD c.n),
      fdPrev := if c.genesis.isSome then zeros (digestLen c.hashSel) else s.chain.fdPrev,
      inkAddr := s.chain.inkAddr + (strokeInk (rootOf s c)).length, inkTail := s.chain.inkTail ++ strokeInk (rootOf s c) },
    stats := (putStat (statOf s c (rootOf s c)) s.stats).take 64 }

/-- The registers of a commit that came `late` microseconds after the stroke's time, where it is late. -/
def showLate (isLate : Bool) (late : Nat) (s : State) : State :=
  if isLate then
    setF STK_STATUS_SEAL_LATE 1
      (if getF s STK_LATE_MAX_MICROS < late then setF STK_LATE_MAX_MICROS (min late 65535) s else s)
  else s

theorem commitStroke_eq (c : ClosedStroke) (s : State) : commitStroke c s = showLate c.late (usSince s (c.n + 3))
    (setF PNC_SEALED_LO_STROKE (c.n % 2 ^ 32) (setF PNC_SEALED_HI_STROKE (c.n / 2 ^ 32 % 65536) (chained c s))) := rfl

/-- Showing a late commit writes registers only. -/
theorem showLate_registers (isLate : Bool) (late : Nat) (s : State) : ∃ r, showLate isLate late s = { s with regs := r } := by
  unfold showLate
  split
  · split <;> exact ⟨_, rfl⟩
  · exact ⟨_, rfl⟩

theorem commitStroke_registers (c : ClosedStroke) (s : State) : ∃ r, commitStroke c s = { chained c s with regs := r } := by
  obtain ⟨r, hr⟩ := showLate_registers c.late (usSince s (c.n + 3))
    (setF PNC_SEALED_LO_STROKE (c.n % 2 ^ 32) (setF PNC_SEALED_HI_STROKE (c.n / 2 ^ 32 % 65536) (chained c s)))
  exact ⟨r, (commitStroke_eq c s).trans hr⟩

/-! ### Flourishes -/

section Flourishes

variable {s u : State} {frac : Nat}

theorem exec_flourishSigned_of_idle (hu : u = atFrac frac s) (h : u.crypt.signing ≠ some .flourish) :
    exec (.flourishSigned frac) s = .next u := by
  simp only [exec_flourishSigned, execFlourishSigned, ← hu, beq_eq_false_iff_ne.mpr h, Bool.false_eq_true, if_false]

theorem exec_flourishSigned_of_running (hu : u = atFrac frac s) (h : u.crypt.signing = some .flourish) :
    exec (.flourishSigned frac) s = .next (signTurn (signFlourish u)) := by
  simp only [exec_flourishSigned, execFlourishSigned, ← hu, h, beq_self_eq_true, if_true]

theorem signFlourish_of_pending {f : Flourish} {rest : List Flourish} (h : s.chain.flPending = f :: rest) (hk : f.keyRec = false)
    {payload : Bytes} (hp : payload = f.body ++ fixLen 96 (signWith f.alg f.epoch f.body))
    (hu : u = addRec 0x20 payload { s with chain := { s.chain with
      flPending := rest, flourishes := s.chain.flourishes ++ [(f, (mkRec 0x20 (now s) payload s).bytes)] } }) :
    signFlourish s = setF PNC_FLOURISH_LO_INDEX (f.index % 2 ^ 32) (setF PNC_FLOURISH_HI_INDEX (f.index / 2 ^ 32 % 2 ^ 32)
      (endSign .flourish (incF SGN_COUNT_SIGNED 1 u))) := by
  simp only [signFlourish, h, hk, Bool.false_eq_true, if_false, ← hp, ← hu]

end Flourishes

/-! ### Lanes -/

section Lanes

variable {s u v w : State} {frac lane k : Nat} {feed : Bool}

theorem exec_laneParityFail_eq (hu : u = atFrac frac s) (hv : v = if feed = true then incF DIG_MISMATCH 1 u else u) :
    exec (.laneParityFail frac ⟨lane, feed⟩) s = .next (laneFail lane v) := by
  simp only [exec_laneParityFail, execLaneParityFail, ← hu, ← hv]

theorem laneFail_of_failed (h : 17 ≤ lane ∨ bitAt (failedLanes v) lane = true) : laneFail lane v = v := by
  have hout : (decide (17 ≤ lane) || bitAt (failedLanes v) lane) = true := by
    rcases h with h | h
    · rw [decide_eq_true h, Bool.true_or]
    · rw [h, Bool.or_true]
  simp only [laneFail, hout, if_true]

/-- The spare that fails first has no work to move. -/
theorem laneFail_of_spare (h : failedLanes v = 0) : laneFail 16 v =
    faultRec 5 16 v.time.stroke 0 (setF DIG_STATUS_LANES 16 (setF PNC_LANE_FAILED (2 ^ 16) v)) := by
  have hin : (decide (17 ≤ 16) || bitAt 0 16) = false := by decide
  have hleft : allotted (2 ^ 16) = 16 := by decide
  simp only [laneFail, h, hin, Nat.zero_add, hleft, Bool.false_eq_true, if_false, decide_true, Bool.and_self, if_true]

theorem laneFail_of_used (hlt : lane < 17) (hb : bitAt (failedLanes v) lane = false)
    (h : lane ≠ 16 ∨ failedLanes v ≠ 0) (hk : k = allotted (failedLanes v + 2 ^ lane))
    (hw : w = faultRec 5 lane v.time.stroke 0 (setF DIG_STATUS_LANES k
      (setF PNC_LANE_FAILED (failedLanes v + 2 ^ lane) v))) :
    laneFail lane v = blot 0x0502 2 lane (le 1 k) { w with chain := { w.chain with
      laneReplaced := true,
      closed := w.chain.closed.map (fun c => if laneCarried v lane c.parts then { c with laneReplaced := true } else c) } } := by
  have hin : (decide (17 ≤ lane) || bitAt (failedLanes v) lane) = false := by
    rw [decide_eq_false (Nat.not_le.mpr hlt), hb]; rfl
  have hwork : (decide (lane = 16) && decide (failedLanes v = 0)) = false := by
    rcases h with h | h <;> simp [h]
  simp only [laneFail, hin, hwork, Bool.false_eq_true, if_false, ← hk, ← hw]

end Lanes

/-- Settles O50: the compare's result, the signature that runs, the lane that fails; then a flourish and a commit in full. -/
theorem chainCommands : Obligations.ChainCommands := by
  unfold Obligations.ChainCommands
  refine ⟨fun s u frac flag flag2 n lane b hu => ⟨exec_pounceCommit_of_none hu flag,
      fun c rest hc => ⟨fun v => exec_pounceCommit_of_agreed hu hc, fun v => exec_pounceCommit_of_retry hu hc⟩,
      exec_flourishSigned_of_idle hu, exec_flourishSigned_of_running hu,
      fun feed v hv => ⟨fun h => ?_, fun h => ?_, fun hlt hb h k w hk hw => ?_⟩⟩,
    fun s f rest h hk payload u => signFlourish_of_pending h hk, fun c s t ht => ?_⟩
  · rw [exec_laneParityFail_eq hu hv, laneFail_of_failed h]
  · rw [exec_laneParityFail_eq hu hv, laneFail_of_spare h]
  · rw [exec_laneParityFail_eq hu hv, laneFail_of_used hlt hb h hk hw]
  · obtain ⟨r, hr⟩ := commitStroke_registers c s
    rw [ht, hr]
    exact ⟨rfl, rfl, rfl, rfl, rfl, rfl, rfl⟩

end Sys2Proof.Machine
/-!
PROOFS. The voltage, droop and temperature monitors (R421 to R423, R429 to R432), the event inputs and LOG_CLEAR (R434 to R436, R445).
-/

namespace Sys2Proof.Machine

/-! ### Voltage and droop -/

section Voltage

variable {s u v : State} {frac i mv f : Nat} {d : Int}

theorem exec_droopTrip_of_region (hu : u = atFrac frac s) (hi : i < 8) (hv : v = incF (MON_DROOP_COUNT i) 1 u) :
    exec (.droopTrip frac [i]) s = .next (if flagF v CLK_STATUS_HALVED then v
      else showClocks (incF CLK_DROOP_COUNT 1 (setF CLK_STATUS_HALVED 1 v))) := by
  simp only [exec_droopTrip, execDroopTrip, ← hu, List.filter_cons, List.filter_nil, decide_eq_true hi, if_true,
    List.foldl_cons, List.foldl_nil, ← hv, List.isEmpty_cons, Bool.false_or]

theorem exec_droopTrip_of_no_region (hu : u = atFrac frac s) (hi : 8 ≤ i) : exec (.droopTrip frac [i]) s = .next u := by
  simp only [exec_droopTrip, execDroopTrip, ← hu, List.filter_cons, List.filter_nil, decide_eq_false (Nat.not_lt.mpr hi),
    Bool.false_eq_true, if_false, List.foldl_nil, List.isEmpty_nil, Bool.true_or, if_true]

theorem exec_droopRestore_eq (hu : u = atFrac frac s) : exec (.droopRestore frac) s =
    .next (if flagF u CLK_STATUS_HALVED then showClocks (setF CLK_STATUS_HALVED 0 u) else u) := by
  simp only [exec_droopRestore, execDroopRestore, ← hu]

theorem exec_vmonSample_of_one (hu : u = atFrac frac s) : exec (.vmonSample frac [mv]) s = .next (takeVolt 0 mv u) := by
  rw [exec_vmonSample, execVmonSample, ← hu]
  rfl

theorem takeVolt_of_masked (hv : v = setF (MON_VMON_MV i) (min mv 4095) u) (ho : overVolt v i mv = true)
    (hm : vmonMasked v i = true) : takeVolt i mv u = v := by
  simp only [takeVolt, ← hv, hm, Bool.true_or, if_true, ho]

/-- The least reading is kept. -/
theorem takeVolt_of_least (hv : v = setF (MON_VMON_MV i) (min mv 4095) u) (hm : vmonMasked v i = false)
    (hlt : min mv 4095 < getF v (MON_VMON_MIN_MV i)) (ho : overVolt (setF (MON_VMON_MIN_MV i) (min mv 4095) v) i mv = true) :
    takeVolt i mv u = setF (MON_VMON_MIN_MV i) (min mv 4095) v := by
  simp only [takeVolt, ← hv, hm, decide_eq_false (Nat.not_le.mpr hlt), Bool.or_self, Bool.false_eq_true, if_false, ho, if_true]

theorem exec_vmonOvervoltage_of_new (hi : i < 32) (ho : overVolt s i mv = true) (hn : i ∉ s.mon.overVolts) :
    exec (.vmonOvervoltage i mv) s =
      .next (blot 0x0106 1 i (le 2 mv) { s with mon := { s.mon with overVolts := s.mon.overVolts ++ [i] } }) := by
  have hnew : s.mon.overVolts.contains i = false := by simpa using hn
  simp only [exec_vmonOvervoltage, execVmonOvervoltage, decide_eq_false (Nat.not_le.mpr hi), ho, hnew, Bool.not_true,
    Bool.or_self, Bool.false_eq_true, if_false]

theorem exec_vmonOvervoltage_of_old (h : overVolt s i mv = false ∨ i ∈ s.mon.overVolts) :
    exec (.vmonOvervoltage i mv) s = .next s := by
  have hold : (decide (32 ≤ i) || !overVolt s i mv || s.mon.overVolts.contains i) = true := by
    rcases h with h | h <;> simp [h]
  simp only [exec_vmonOvervoltage, execVmonOvervoltage, hold, if_true]

theorem exec_vmonSelfCheck_of_new (hi : i < 32) (h : flagF s (MON_VMON_FAILED i) = false) : exec (.vmonSelfCheck [i]) s =
    .next (blot 0x0304 2 i (le 2 (getF s (MON_VMON_MV i))) (setF MON_STATUS_VMON_FAIL 1 (setF (MON_VMON_FAILED i) 1 s))) := by
  simp only [exec_vmonSelfCheck, execVmonSelfCheck, List.filter_cons, List.filter_nil, decide_eq_true hi, h, Bool.not_false,
    Bool.and_self, if_true, List.foldl_cons, List.foldl_nil]

theorem exec_vmonSelfCheck_of_marked (h : flagF s (MON_VMON_FAILED i) = true) : exec (.vmonSelfCheck [i]) s = .next s := by
  simp only [exec_vmonSelfCheck, execVmonSelfCheck, List.filter_cons, List.filter_nil, h, Bool.not_true, Bool.and_false,
    Bool.false_eq_true, if_false, List.foldl_nil]

theorem exec_pmonMeasure_of_one (hv : v = setF (MON_PMON_DRIFT 0) (twos 16 d) (setF (MON_PMON_FREQ 0) (min 65535 f) s)) :
    exec (.pmonMeasure [(f, d)]) s = .next (if 50 < d.natAbs && !v.mon.drifted.contains 0 then
      blot 0x0305 1 0 (le 2 (twos 16 d)) { v with mon := { v.mon with drifted := v.mon.drifted ++ [0] } } else v) := by
  subst hv
  rfl

end Voltage

/-! ### Temperature -/

section Temperature

variable {s u w : State} {frac i k old : Nat} {q v : Int}

theorem exec_thermalSample_of_none_read (hu : u = atFrac frac s) : exec (.thermalSample frac []) s = .next (applyTemp u) := by
  rw [hu]
  rfl

theorem applyTemp_of_none (h : hottest u (List.range 24) = none) : applyTemp u = u := by
  unfold applyTemp
  generalize hottest u (List.range 24) = o at h ⊢
  subst h
  rfl

/-- Below 115 °C the hottest reading is shown, and a rising step taken at once (R421, R422). -/
theorem applyTemp_of_cool (h : hottest u (List.range 24) = some (q, k)) (hq : q < 460)
    (hold : old = kelvin (signed12 (getF u MON_HOT_TEMP)))
    (hw : w = setF PWR_THERM_TEMP_C (twos 8 (q / 4)) (setF MON_HOT_SENSOR k (setF MON_HOT_TEMP (twos 12 q) u))) :
    applyTemp u = tempEvents old (kelvin q) (trackCooling q (setStep (max (stepFor w q) (getF w CLK_STATUS_THERM_STEP)) w)) := by
  unfold applyTemp
  generalize hottest u (List.range 24) = o at h ⊢
  subst h hold hw
  exact if_neg (Int.not_le.mpr hq)

theorem exec_thermalStepDown_eq : exec .thermalStepDown s = .next (
    if getF s CLK_STATUS_THERM_STEP != 0 && s.mode.coolFrom.any (fun n => n + 16 ≤ s.time.stroke) &&
        !(flagF s MON_STATUS_FAILSAFE && getF s CLK_STATUS_THERM_STEP ≤ 2) then
      setStep (getF s CLK_STATUS_THERM_STEP - 1) s
    else s) := by
  rw [exec_thermalStepDown, execThermalStepDown]

theorem failSensor_of_failed (h : flagF s (MON_TEMP_FAILED i) = true) : failSensor i v s = s := by
  simp only [failSensor, h, Bool.or_true, if_true]

theorem failSensor_of_working (hi : i < 24) (h : flagF s (MON_TEMP_FAILED i) = false) : failSensor i v s =
    checkFailsafe (blot 0x0303 2 i (le 2 (twos 16 v)) (setF MON_STATUS_SENSOR_FAIL 1 (setF (MON_TEMP_FAILED i) 1 s))) := by
  simp only [failSensor, decide_eq_false (Nat.not_le.mpr hi), h, Bool.or_self, Bool.false_eq_true, if_false]

end Temperature

/-- Settles O51: each monitor by what it finds and what it has found before. -/
theorem voltageAndTemperature : Obligations.VoltageAndTemperature := by
  unfold Obligations.VoltageAndTemperature
  refine ⟨fun s u frac i mv f d hu hi => ⟨fun v h8 hv => ⟨fun hh => ?_, fun hh => ?_⟩, exec_droopTrip_of_no_region hu,
      fun hh => ?_, fun hh => ?_, fun v hv ho => ⟨fun hm => ?_, fun hm hlt w hw ho' => ?_⟩,
      fun ho => ⟨exec_vmonOvervoltage_of_new hi ho, fun hold => exec_vmonOvervoltage_of_old (.inr hold)⟩,
      fun ho => exec_vmonOvervoltage_of_old (.inl ho), exec_vmonSelfCheck_of_new hi, exec_vmonSelfCheck_of_marked,
      fun v hv => ⟨fun hle => ?_, fun hlt hn => ?_⟩⟩,
    fun s u frac i v hu hi => ⟨fun h => ?_, fun q k old h hq hold w hw => ?_, fun n hn h3 => ⟨fun hle => ?_, fun hlt => ?_⟩,
      fun h2 hf => ?_, fun h0 => ?_, fun h => ?_, fun h => ?_⟩⟩
  · rw [exec_droopTrip_of_region hu h8 hv, hh, if_neg Bool.false_ne_true]
  · rw [exec_droopTrip_of_region hu h8 hv, if_pos hh]
  · rw [exec_droopRestore_eq hu, if_pos hh]
  · rw [exec_droopRestore_eq hu, hh, if_neg Bool.false_ne_true]
  · rw [exec_vmonSample_of_one hu, takeVolt_of_masked hv ho hm]
  · rw [exec_vmonSample_of_one hu, takeVolt_of_least hv hm hlt (hw ▸ ho'), hw]
  · rw [exec_pmonMeasure_of_one hv, decide_eq_false (Nat.not_lt.mpr hle), Bool.false_and, if_neg Bool.false_ne_true]
  · have hnew : v.mon.drifted.contains 0 = false := by rw [hv, setF_mon, setF_mon]; simpa using hn
    rw [exec_pmonMeasure_of_one hv, if_pos (by rw [hnew, decide_eq_true hlt]; rfl)]
  · rw [exec_thermalSample_of_none_read hu, applyTemp_of_none h]
  · rw [exec_thermalSample_of_none_read hu, applyTemp_of_cool h hq hold hw]
  · rw [exec_thermalStepDown_eq, h3, if_pos (by simp [hn, hle])]
  · rw [exec_thermalStepDown_eq, h3, if_neg (by simp [hn, hlt])]
  · rw [exec_thermalStepDown_eq, h2, hf, if_neg (by simp)]
  · rw [exec_thermalStepDown_eq, h0, if_neg (by simp)]
  · rw [exec_sensorFail, execSensorFail, failSensor_of_failed h]
  · rw [exec_sensorFail, execSensorFail, failSensor_of_working hi h]

/-! ### Event inputs and the log -/

section Events

variable {s u v : State} {frac n : Nat} {e : EvtSample}

theorem exec_evtSample_of_one (hu : u = atFrac frac s) : exec (.evtSample frac [e]) s = .next (sampleEvt 0 e u) := by
  rw [exec_evtSample, execEvtSample, ← hu]
  rfl

theorem sampleEvt_of_disabled (h : flagF u (EVT_CFG_EN n) = false) : sampleEvt n e u = u := by
  simp only [sampleEvt, h, Bool.not_false, if_true]

/-- A foreign voltage spoils the samples kept, and is reported once. -/
theorem sampleEvt_of_foreign (hen : flagF u (EVT_CFG_EN n) = true) (hmv : 1000 < e.mv)
    (hv : v = setEvt n { getEvt u n with kept := 0 } u) : sampleEvt n e u = if flagF v (EVT_CFG_FOREIGN_V n) then v
      else blot 0x0902 2 n (le 2 (twos 16 e.mv)) (setF (EVT_CFG_FOREIGN_V n) 1 v) := by
  simp only [sampleEvt, hen, Bool.not_true, Bool.false_eq_true, if_false, decide_eq_true hmv, Bool.true_or, if_true, ← hv]

/-- Into an empty log a blot goes as its one entry. -/
theorem recordBlot_of_empty (h : s.mon.blots = []) (code severity unit : Nat) (arg : Bytes) : recordBlot code severity unit arg s =
    setF LOG_STATUS_ENTRIES 1 (setF LOG_NEXT_SEQ (getF s LOG_NEXT_SEQ + 1) { s with mon := { s.mon with
      blots := [{ seq := getF s LOG_NEXT_SEQ, dtime := now s, code := code, severity := severity, mode := s.mode.cur.code,
                  unit := unit % 65536, count := 1, arg := fixLen 12 arg }],
      blotTotal := satAdd s.mon.blotTotal 1 (2 ^ 32 - 1) } }) := by
  simp only [recordBlot, h]

theorem clearLog_of_unsealed (h : s.mode.cur ≠ .seal) : ∃ b, (clearLog s).mon.blots = [b] ∧ b.code = 0x0001 ∧ b.count = 1 ∧
    b.dtime = now s ∧ b.seq = getF s LOG_NEXT_SEQ ∧ (clearLog s).chain = s.chain ∧ (clearLog s).time = s.time ∧
    (clearLog s).mode = s.mode := by
  have hseal : (s.mode.cur == .seal) = false := by simpa using h
  have hlink : dieLinkFailed (setF LOG_STATUS_ENTRIES 0 { s with mon := { s.mon with blots := [] } }) = false := by
    rw [dieLinkFailed, setF_mode, hseal, Bool.false_and]
  rw [clearLog, blot, hlink, Bool.false_and, if_neg Bool.false_ne_true, recordBlot_of_empty (by rw [setF_mon]),
    getF_setF_off _ _ _ _ (by decide)]
  exact ⟨_, rfl, rfl, rfl, rfl, rfl, rfl, rfl, rfl⟩

end Events

/-- Settles O52: the first input by what its sample is, then the log's one new entry. -/
theorem eventInputsAndLog : Obligations.EventInputsAndLog := by
  unfold Obligations.EventInputsAndLog
  intro s u frac e hu
  refine ⟨exec_evtSample_of_one hu, fun h => ?_, fun v hen hmv hv => ⟨fun hf => ?_, fun hf => ?_⟩, fun h => ?_⟩
  · rw [exec_evtSample_of_one hu, sampleEvt_of_disabled h]
  · rw [exec_evtSample_of_one hu, sampleEvt_of_foreign hen hmv hv, if_pos hf]
  · rw [exec_evtSample_of_one hu, sampleEvt_of_foreign hen hmv hv, hf, if_neg Bool.false_ne_true]
  · obtain ⟨b, hb⟩ := clearLog_of_unsealed h
    exact ⟨clearLog s, b, rfl, hb⟩

end Sys2Proof.Machine

/-!
PROOFS. The Nib: memory operations, control registers and BAR (R253).
-/

namespace Sys2Proof.Machine

section
variable {op k off : Nat} {o : NibOp} {c : NibCore} {s : State} {x : NibWord}

/-! ### What the read of an L operation leaves behind -/

@[simp] theorem withBad_op : (withBad s k c x).op = x.op := by
  unfold withBad
  split_ifs <;> rfl

@[simp] theorem withBad_f : (withBad s k c x).f = x.f := by
  unfold withBad
  split_ifs <;> rfl

/-- The L operations that may read memory: loads, RET and RETT. -/
def readsMemory (op : Nat) : Bool := [0x01, 0x03, 0x05, 0x07, 0x0D, 0x0E].contains op

theorem localReads_of_not_reads (hop : readsMemory x.op = false) : localReads c x = [] := by
  unfold localReads
  split <;> simp_all [readsMemory]

theorem ne_lds_of_not_reads (hop : readsMemory x.op = false) : x.op ≠ 5 := by
  rintro h
  rw [h] at hop
  cases hop

theorem sharedRead_of_ne_lds (hop : x.op ≠ 5) : sharedRead c x = none := by
  simp [sharedRead, hop]

theorem libRead_of_ne_lds (hop : x.op ≠ 5) : libRead c x = none := by
  simp [libRead, hop]

theorem withBad_of_not_reads (hop : readsMemory x.op = false) : withBad s k c x = x := by
  simp [withBad, localReads_of_not_reads hop, sharedRead_of_ne_lds (ne_lds_of_not_reads hop),
    libRead_of_ne_lds (ne_lds_of_not_reads hop)]

/-- An operation that reads no memory counts no correction. -/
theorem countData_of_not_reads {s0 : State} {f : Chk} (hop : readsMemory x.op = false) : countData s0 k c f x s = s := by
  simp [countData, localReads_of_not_reads hop, sharedRead_of_ne_lds (ne_lds_of_not_reads hop),
    libRead_of_ne_lds (ne_lds_of_not_reads hop)]

/-! ### A bundle of one L operation -/

theorem bundleFlags_L {old : NibCore} (hunit : x.unit = 3) (c : NibCore) : bundleFlags old [x] c = c := by
  simp [bundleFlags, wUnits, hunit]

theorem bundleFixed_L {old : NibCore} (hunit : x.unit = 3) (c : NibCore) : bundleFixed old [x] c = c := by
  simp [bundleFixed, hunit]

/-- The core after one L operation outside a repeat: its registers, its local stores, and where it goes on. -/
theorem runBundle_L (hunit : x.unit = 3) (honce : f2Bit c fiRA = false) :
    runBundle s k c [x] = control s c 1 x (localStores c x (putRegs (regEffect s k c x) c)) := by
  have hL : wUnits [x] 3 = some x := by simp [wUnits, hunit]
  simp only [runBundle, hL, List.flatMap_singleton, List.length_singleton, bundleFlags_L hunit, bundleFixed_L hunit,
    endIteration, honce, Bool.not_false, if_true]

/-- The state after an L operation's effect on its core, with the correction of its read counted; what acts outside the core
(STS, TRAP, HALT, WAIT) goes on from here. -/
def afterL (s : State) (k : Nat) (c : NibCore) (x : NibWord) : State :=
  countData s k c x.data (withBad s k c x)
    (setCore k (control s c 1 x (localStores c x (putRegs (regEffect s k c x) c))) { s with freeCount := s.freeCount + freeSlots })

theorem afterL_of_not_reads (hop : readsMemory x.op = false) : afterL s k c x =
    setCore k (control s c 1 x (localStores c x (putRegs (regEffect s k c x) c))) { s with freeCount := s.freeCount + freeSlots } := by
  rw [afterL, withBad_of_not_reads hop, countData_of_not_reads hop]

/-- The L operations whose whole effect is that on their core. -/
def coreOnly (op : Nat) : Bool := !([0x06, 0x0E, 0x11, 0x14, 0x15].contains op)

theorem nibIssue_L (h : SoloOk 3 op o c s) (hop : coreOnly op = true) :
    nibIssue 3 op o s = afterL s o.core c (wordOf 3 op o) := by
  have hL : wUnits [wordOf 3 op o] 3 = some (wordOf 3 op o) := rfl
  have hne : op ≠ 0x06 ∧ op ≠ 0x0E ∧ op ≠ 0x11 ∧ op ≠ 0x14 ∧ op ≠ 0x15 := by simpa [coreOnly] using hop
  rw [nibIssue_of_fetched h.core h.running h.regs h.fetch h.good h.word h.alone h.first]
  simp [nibBundle, h.regs, bundle_cleared h.first, h.once, h.clear, hL, hne, runBundle_L (x := wordOf 3 op o) rfl h.once,
    afterL]

theorem exec_of_L {i : NibOp → Instr} {t : State} (hexec : ∀ o s, exec (i o) s = .next (nibIssue 3 op o s))
    (h : SoloOk 3 op o c s) (hop : coreOnly op = true) (ht : afterL s o.core c (wordOf 3 op o) = t) :
    exec (i o) s = .next t := by
  rw [hexec, nibIssue_L h hop, ht]

/-! ### Loads -/

theorem dmemGet_of_lt {free : W16} {a : Nat} (ha : a < 65536) : dmemGet c free a = (mget c.dmem a).getD free := by
  rw [dmemGet, Nat.mod_eq_of_lt ha]

theorem dataOff_lt : dataOff c x < 65536 := by
  unfold dataOff
  split_ifs
  · exact (wGet c (opA x.f)).isLt
  · exact Nat.mod_lt _ (by decide)

/-- A load, which stores nothing locally and goes on, has the effect of its register writes. -/
theorem exec_load {i : NibOp → Instr} {ws : List (Nat × W16)} (hexec : ∀ o s, exec (i o) s = .next (nibIssue 3 op o s))
    (hop : op ∈ [0x01, 0x03, 0x05, 0x07]) (h : SoloOk 3 op o c s) (hws : regEffect s o.core c (wordOf 3 op o) = ws) :
    exec (i o) s = .next (countData s o.core c o.data (withBad s o.core c (wordOf 3 op o))
      (setCore o.core (soloDone c ws {}) { s with freeCount := s.freeCount + freeSlots })) := by
  simp only [List.mem_cons, List.not_mem_nil, or_false] at hop
  subst hws
  obtain rfl | rfl | rfl | rfl := hop <;> exact exec_of_L hexec h rfl rfl

theorem exec_ld_of_soloOk (h : SoloOk 3 0x01 o c s) (hoff : off = dataOff c (wordOf 3 0x01 o)) :
    exec (.ld o) s = .next (countData s o.core c o.data (withBad s o.core c (wordOf 3 0x01 o)) (setCore o.core
      (soloDone c [(regIx c (opD o.body.toNat), (mget c.dmem off).getD (freeW s 0))] {})
      { s with freeCount := s.freeCount + freeSlots })) := by
  rw [hoff, ← dmemGet_of_lt dataOff_lt]
  exact exec_load (fun _ _ => rfl) (by decide) h rfl

theorem exec_ldpi_of_soloOk (h : SoloOk 3 0x03 o c s) (hoff : off = dataOff c (wordOf 3 0x03 o)) :
    exec (.ldpi o) s = .next (countData s o.core c o.data (withBad s o.core c (wordOf 3 0x03 o)) (setCore o.core
      (soloDone c [(regIx c (opD o.body.toNat), (mget c.dmem off).getD (freeW s 0)),
        (regIx c (opA o.body.toNat), wGet c (opA o.body.toNat) + opBK c (wordOf 3 0x03 o))] {})
      { s with freeCount := s.freeCount + freeSlots })) := by
  rw [hoff, ← dmemGet_of_lt dataOff_lt]
  exact exec_load (fun _ _ => rfl) (by decide) h rfl

theorem exec_ldp_of_soloOk (h : SoloOk 3 0x07 o c s) (hoff : off = dataOff c (wordOf 3 0x07 o)) :
    exec (.ldp o) s = .next (countData s o.core c o.data (withBad s o.core c (wordOf 3 0x07 o)) (setCore o.core
      (soloDone c [(regIx c (opD o.body.toNat), (mget c.dmem off).getD (freeW s 0)),
        (regIx c (opD o.body.toNat + 1), (mget c.dmem ((off + 1) % 65536)).getD (freeW s 1))] {})
      { s with freeCount := s.freeCount + freeSlots })) := by
  rw [hoff, ← dmemGet_of_lt dataOff_lt]
  exact exec_load (fun _ _ => rfl) (by decide) h rfl

/-! ### Local stores -/

theorem dmemSet_of_lt {a : Nat} {v : W16} (ha : a < 65536) :
    dmemSet a v c = { c with dmem := mset c.dmem a v, badD := c.badD.filter (· != a) } := by
  rw [dmemSet, Nat.mod_eq_of_lt ha]

/-- An L operation that reads no memory and acts on its core only. -/
theorem exec_of_L_of_not_reads {i : NibOp → Instr} {c1 : NibCore}
    (hexec : ∀ o s, exec (i o) s = .next (nibIssue 3 op o s)) (h : SoloOk 3 op o c s)
    (hop : (coreOnly op && !readsMemory op) = true)
    (hc1 : control s c 1 (wordOf 3 op o) (localStores c (wordOf 3 op o)
      (putRegs (regEffect s o.core c (wordOf 3 op o)) c)) = c1) :
    exec (i o) s = .next (setCore o.core c1 { s with freeCount := s.freeCount + freeSlots }) := by
  simp only [Bool.and_eq_true, Bool.not_eq_true'] at hop
  exact exec_of_L hexec h hop.1 (hc1 ▸ afterL_of_not_reads hop.2)

theorem exec_st_of_soloOk (h : SoloOk 3 0x02 o c s) (hoff : off = dataOff c (wordOf 3 0x02 o)) :
    exec (.st o) s = .next (setCore o.core { soloDone c [] {} with
      dmem := mset c.dmem off (wGet c (opD o.body.toNat)), badD := c.badD.filter (· != off) }
      { s with freeCount := s.freeCount + freeSlots }) := by
  have hstore := dmemSet_of_lt (c := c) (v := wGet c (opD o.body.toNat)) (a := off) (hoff ▸ dataOff_lt)
  refine exec_of_L_of_not_reads (fun _ _ => rfl) h rfl ?_
  subst hoff
  exact congrArg (fun c1 : NibCore => { c1 with pc := nextPc c 1 }) hstore

theorem exec_stpi_of_soloOk (h : SoloOk 3 0x04 o c s) (hoff : off = dataOff c (wordOf 3 0x04 o)) :
    exec (.stpi o) s = .next (setCore o.core { soloDone c
      [(regIx c (opA o.body.toNat), wGet c (opA o.body.toNat) + opBK c (wordOf 3 0x04 o))] {} with
      dmem := mset c.dmem off (wGet c (opD o.body.toNat)), badD := c.badD.filter (· != off) }
      { s with freeCount := s.freeCount + freeSlots }) := by
  refine exec_of_L_of_not_reads (fun _ _ => rfl) h rfl ?_
  subst hoff
  exact congrArg (fun c1 : NibCore => { c1 with pc := nextPc c 1 }) (dmemSet_of_lt dataOff_lt)

theorem exec_stp_of_soloOk (h : SoloOk 3 0x08 o c s) (hoff : off = dataOff c (wordOf 3 0x08 o)) :
    exec (.stp o) s = .next (setCore o.core { soloDone c [] {} with
      dmem := mset (mset c.dmem off (wGet c (opD o.body.toNat))) ((off + 1) % 65536) (wGet c (opD o.body.toNat + 1)),
      badD := (c.badD.filter (· != off)).filter (· != (off + 1) % 65536) }
      { s with freeCount := s.freeCount + freeSlots }) := by
  refine exec_of_L_of_not_reads (fun _ _ => rfl) h rfl ?_
  subst hoff
  exact congrArg (fun c1 : NibCore => { dmemSet (dataOff c (wordOf 3 0x08 o) + 1) (wGet c (opD o.body.toNat + 1)) c1 with
    pc := nextPc c 1 }) (dmemSet_of_lt dataOff_lt)

/-! ### STS -/

theorem nibIssue_sts (h : SoloOk 3 0x06 o c s) :
    nibIssue 3 0x06 o s = segStore o.core (dataOff c (wordOf 3 0x06 o)) c (wGet c (opD o.body.toNat)) o.data
      (afterL s o.core c (wordOf 3 0x06 o)) := by
  have hL : wUnits [wordOf 3 0x06 o] 3 = some (wordOf 3 0x06 o) := rfl
  rw [nibIssue_of_fetched h.core h.running h.regs h.fetch h.good h.word h.alone h.first]
  simp [nibBundle, h.regs, bundle_cleared h.first, h.once, h.clear, hL, runBundle_L (x := wordOf 3 0x06 o) rfl h.once,
    afterL, withBad_of_not_reads (x := wordOf 3 0x06 o) rfl]
  rfl

theorem localStores_sts_local (h : segCheck c true (dataOff c (wordOf 3 0x06 o)) = .ok (.local_ off)) (c1 : NibCore) :
    localStores c (wordOf 3 0x06 o) c1 = dmemSet off (wGet c (opD o.body.toNat)) c1 := by
  simp [localStores, h]

theorem segCheck_local {st : Bool} {off a : Nat} (h : segCheck c st off = .ok (.local_ a)) : a = off := by
  simp only [segCheck] at h
  generalize bits (fGet c 4).toNat 15 12 = kind at h
  match kind with
  | 0 | 1 | 3 | 4 => grind
  | 2 => cases hwindow : mget c.windows (bits (fGet c 4).toNat 11 0) <;> grind
  | n + 5 => cases h

theorem localStores_sts_of_ne_local {p : SegTo} (h : segCheck c true (dataOff c (wordOf 3 0x06 o)) = .ok p)
    (hp : p ≠ .local_ (dataOff c (wordOf 3 0x06 o))) (c1 : NibCore) : localStores c (wordOf 3 0x06 o) c1 = c1 := by
  cases p with
  | local_ a => exact absurd (congrArg SegTo.local_ (segCheck_local h)) hp
  | _ => simp [localStores, h]

theorem exec_sts_local (h : SoloOk 3 0x06 o c s) (hoff : off = dataOff c (wordOf 3 0x06 o))
    (hseg : segCheck c true off = .ok (.local_ off)) :
    exec (.sts o) s = .next (setCore o.core { soloDone c [] {} with
      dmem := mset c.dmem off (wGet c (opD o.body.toNat)), badD := c.badD.filter (· != off) }
      { s with freeCount := s.freeCount + freeSlots }) := by
  subst hoff
  have hstore : ∀ u, segStore o.core (dataOff c (wordOf 3 0x06 o)) c (wGet c (opD o.body.toNat)) o.data u = u := by
    simp [segStore, hseg]
  rw [exec_sts, execSts, nibIssue_sts h, hstore, afterL_of_not_reads rfl, localStores_sts_local hseg,
    dmemSet_of_lt dataOff_lt]
  rfl

theorem exec_sts_of_ne_local {p : SegTo} (h : SoloOk 3 0x06 o c s) (hoff : off = dataOff c (wordOf 3 0x06 o))
    (hseg : segCheck c true off = .ok p) (hp : p ≠ .local_ off) :
    exec (.sts o) s = .next (segStore o.core off c (wGet c (opD o.body.toNat)) o.data
      (setCore o.core (soloDone c [] {}) { s with freeCount := s.freeCount + freeSlots })) := by
  subst hoff
  rw [exec_sts, execSts, nibIssue_sts h, afterL_of_not_reads rfl, localStores_sts_of_ne_local hseg hp]
  rfl

/-! ### Control registers and BAR -/

theorem exec_mfc_of_ne_cycle (h : SoloOk 3 0x12 o c s) (hix : bits o.body.toNat 3 0 ≠ 11) :
    exec (.mfc o) s = .next (setCore o.core (soloDone c [(regIx c (opD o.body.toNat),
      BitVec.ofNat 16 (mfcValue s o.core c (bits o.body.toNat 3 0)))] {}) { s with freeCount := s.freeCount + freeSlots }) :=
  exec_of_L_of_not_reads (fun _ _ => rfl) h rfl (if_neg hix)

/-- The cycle counter reads a free value and latches its high half. -/
theorem exec_mfc_cycle (h : SoloOk 3 0x12 o c s) (hix : bits o.body.toNat 3 0 = 11) :
    exec (.mfc o) s = .next (setCore o.core
      { soloDone c [(regIx c (opD o.body.toNat), freeW s 2)] {} with cycHi := (freeW s 3).toNat }
      { s with freeCount := s.freeCount + freeSlots }) := by
  have hvalue : BitVec.ofNat 16 (mfcValue s o.core c (bits o.body.toNat 3 0)) = freeW s 2 := by
    simp [hix, mfcValue]
  have hregs : regEffect s o.core c (wordOf 3 0x12 o) = [(regIx c (opD o.body.toNat), freeW s 2)] := by
    rw [← hvalue]
    rfl
  refine exec_of_L_of_not_reads (fun _ _ => rfl) h rfl ?_
  rw [hregs]
  exact if_pos hix

end

/-- Settles O58: a good L operation alone in its bundle is its register writes, its local stores and what it stores outside
the core; only the loads have a read to count. -/
theorem nibMemory : Obligations.NibMemory := by
  rintro o c s _ _ _ _ x off rfl rfl rfl rfl
  refine ⟨?ld, ?st, ?ldpi, ?stpi, ?lds, ?sts, ?ldp, ?stp, exec_mfc_of_ne_cycle, exec_mfc_cycle, ?mtc, ?bar⟩
  case ld =>
    rintro h rfl hoff
    exact exec_ld_of_soloOk h hoff
  case st =>
    rintro h rfl hoff
    exact exec_st_of_soloOk h hoff
  case ldpi =>
    rintro h rfl hoff
    exact exec_ldpi_of_soloOk h hoff
  case stpi =>
    rintro h rfl hoff
    exact exec_stpi_of_soloOk h hoff
  case lds =>
    rintro h rfl rfl
    exact exec_load (fun _ _ => rfl) (by decide) h rfl
  case sts =>
    rintro h rfl hoff
    exact ⟨exec_sts_local h hoff, fun p => exec_sts_of_ne_local h hoff⟩
  case ldp =>
    rintro h rfl hoff
    exact exec_ldp_of_soloOk h hoff
  case stp =>
    rintro h rfl hoff
    exact exec_stp_of_soloOk h hoff
  case mtc => exact fun h => exec_of_L_of_not_reads (fun _ _ => rfl) h rfl rfl
  case bar => exact fun h => exec_of_L_of_not_reads (fun _ _ => rfl) h rfl rfl

end Sys2Proof.Machine

/-!
PROOFS. The Nib: branches, calls, repeats, traps, HALT and WAIT (R253 to R256, R262 to R264).
-/

namespace Sys2Proof.Machine

section
variable {op k : Nat} {o : NibOp} {c c1 : NibCore} {s : State}

/-! ### Branches, calls and returns -/

theorem nibCore_setCore_same : nibCore (setCore k c s) k = c := by
  simp [nibCore, setCore, mget_mset_same]

theorem exec_branch_of_soloOk (h : SoloOk 3 0x09 o c s) :
    exec (.branch o) s = .next (setCore o.core
      { c with pc := if condHolds (opCond o.body.toNat) (flagsIn c) then branchTo c o.body.toNat else nextPc c 1 }
      { s with freeCount := s.freeCount + freeSlots }) := by
  refine exec_of_L_of_not_reads (fun _ _ => rfl) h rfl ?_
  have hcore : control s c 1 (wordOf 3 0x09 o) c = if condHolds (opCond o.body.toNat) (flagsIn c) = true
      then { c with pc := branchTo c o.body.toNat } else { c with pc := nextPc c 1 } := rfl
  refine hcore.trans ?_
  split_ifs <;> rfl

/-- CALL and CALLX slide the window up and save the link. -/
theorem callTo_of_slideUp {n target : Nat} {xip : Bool}
    (h : slideUp (setF2 fiLH c.xip (fSet 1 (BitVec.ofNat 16 (nextPc c n)) c)) = some c1) :
    callTo c n target xip c = { c1 with pc := target, xip := xip } := by
  rw [callTo, h]
  rfl

theorem exec_ret_of_soloOk (h : SoloOk 3 0x0D o c s) (hslide : slideDown (fun i => freeW s (16 + i)) c = some c1) :
    exec (.ret o) s = .next (countData s o.core c o.data (withBad s o.core c (wordOf 3 0x0D o)) (setCore o.core
      { c1 with pc := (fGet c 1).toNat, xip := f2Bit c fiLH } { s with freeCount := s.freeCount + freeSlots })) := by
  have hcore : control s c 1 (wordOf 3 0x0D o) c = { c1 with pc := (fGet c 1).toNat, xip := f2Bit c fiLH } := by
    simp [control, hslide]
  rw [← hcore]
  exact exec_of_L (fun _ _ => rfl) h rfl rfl

/-- A bundle of a RETT alone, with the correction of its fills counted before them. -/
theorem nibIssue_rett (h : SoloOk 3 0x0E o c s) : nibIssue 3 0x0E o s = retTrap o.core o.data
    (countData s o.core c o.data (withBad s o.core c (wordOf 3 0x0E o)) (setCore o.core c s)) := by
  have hL : wUnits [wordOf 3 0x0E o] 3 = some (wordOf 3 0x0E o) := rfl
  rw [nibIssue_of_fetched h.core h.running h.regs h.fetch h.good h.word h.alone h.first]
  simp [nibBundle, h.regs, bundle_cleared h.first, h.once, h.clear, hL]
  rfl

/-- R263: a RETT whose fills are readable and whose slides pass their checks. -/
theorem retTrap_of_slideDown2 {u : State} {data : Chk} {e : NibCore} (he : e = { nibCore u k with bundle := [] })
    (hdata : data ≠ .uncorrectable ∨ 3 < e.depth) (hslide : slideDown2 (fun i => freeW u (16 + i)) e = some c1) :
    retTrap k data u = setCore k
      { setF2 fiRA (bitAt e.tpcx 1) (setF2 fiTH false (fSet 2 (BitVec.ofNat 16 (e.tflags % 1024)) c1)) with
        pc := e.tpc, xip := bitAt e.tpcx 0, repN := e.trapRepN, repAt := e.trapRepAt }
      { u with freeCount := u.freeCount + freeSlots } := by
  subst he
  have hread : ¬ (data == .uncorrectable && decide ((nibCore u k).depth ≤ 3)) = true := by
    obtain hdata | hdata := hdata
    · simp [hdata]
    · simp [show 3 < (nibCore u k).depth from hdata]
  unfold retTrap
  refine (if_neg hread).trans ?_
  rw [hslide]

/-! ### Repeats -/

/-- R256: with no iterations to run the repeat ends and its bundle is passed over. -/
theorem exec_branch_passed_over (hcore : o.core < 32) (hrun : getF s (NIB_CORE_STATE o.core) = 2)
    (hfetch : fetchTrap s c o.fetch = none) (hregs : nibCore s o.core = c) (hfirst : c.bundle = []) (hstop : o.stop = true)
    (hgood : fetchChk s c o.fetch = .good) (hrepeat : f2Bit c fiRA = true) (hcount : fGet c 3 = 0)
    (hword : fetched s c (wordOf 3 0x09 o) = some (wordOf 3 0x09 o)) :
    exec (.branch o) s = .next (setCore o.core { setF2 fiRA false c with pc := nextPc c 1 } s) := by
  rw [exec_branch, execBranch, nibIssue_of_fetched hcore hrun hregs hfetch hgood hword hstop hfirst]
  simp [nibBundle, hregs, bundle_cleared hfirst, hrepeat, hcount]

/-! ### Operations that act on the core's node -/

/-- TRAP, HALT and WAIT change their core's program counter only, before they act. -/
theorem runBundle_goes_on (hop : op ∈ [0x11, 0x14, 0x15]) (honce : f2Bit c fiRA = false) :
    runBundle s k c [wordOf 3 op o] = { c with pc := nextPc c 1 } := by
  rw [runBundle_L rfl honce]
  simp only [List.mem_cons, List.not_mem_nil, or_false] at hop
  obtain rfl | rfl | rfl := hop <;> rfl

theorem nibIssue_trap (h : SoloOk 3 0x11 o c s) : nibIssue 3 0x11 o s =
    trapEntry o.core { code := 11, sub := 0, info := opK12 o.body.toNat % 256 } 1 (nextPc c 1) c.xip
      (setCore o.core { c with pc := nextPc c 1 } { s with freeCount := s.freeCount + freeSlots }) := by
  have hL : wUnits [wordOf 3 0x11 o] 3 = some (wordOf 3 0x11 o) := rfl
  rw [nibIssue_of_fetched h.core h.running h.regs h.fetch h.good h.word h.alone h.first]
  simp [nibBundle, h.regs, bundle_cleared h.first, h.once, h.clear, hL, runBundle_goes_on,
    withBad_of_not_reads (x := wordOf 3 0x11 o) rfl, countData_of_not_reads (x := wordOf 3 0x11 o) rfl]

theorem nibIssue_halt (h : SoloOk 3 0x14 o c s) : nibIssue 3 0x14 o s =
    endNode (getF s (NIB_CORE_GRAPH o.core)) (getF s (NIB_CORE_NODE o.core)) (opK12 o.body.toNat % 256) 0
      (setCore o.core { c with pc := nextPc c 1 } { s with freeCount := s.freeCount + freeSlots }) := by
  have hL : wUnits [wordOf 3 0x14 o] 3 = some (wordOf 3 0x14 o) := rfl
  rw [nibIssue_of_fetched h.core h.running h.regs h.fetch h.good h.word h.alone h.first]
  simp [nibBundle, h.regs, bundle_cleared h.first, h.once, h.clear, hL, runBundle_goes_on,
    withBad_of_not_reads (x := wordOf 3 0x14 o) rfl, countData_of_not_reads (x := wordOf 3 0x14 o) rfl]
  rfl

/-- WAIT stops the core unless an event waits (R282). -/
theorem nibIssue_wait (h : SoloOk 3 0x15 o c s) : nibIssue 3 0x15 o s =
    if (c.tick || c.notify || c.preempt) = true then
      setCore o.core { c with pc := nextPc c 1 } { s with freeCount := s.freeCount + freeSlots }
    else updNode (getF s (NIB_CORE_GRAPH o.core)) (getF s (NIB_CORE_NODE o.core)) (fun y => { y with st := 3, waited := 0 })
      (setF (NIB_CORE_STATE o.core) 3
        (setCore o.core { c with pc := nextPc c 1 } { s with freeCount := s.freeCount + freeSlots })) := by
  have hL : wUnits [wordOf 3 0x15 o] 3 = some (wordOf 3 0x15 o) := rfl
  rw [nibIssue_of_fetched h.core h.running h.regs h.fetch h.good h.word h.alone h.first]
  simp [nibBundle, h.regs, bundle_cleared h.first, h.once, h.clear, hL, runBundle_goes_on,
    withBad_of_not_reads (x := wordOf 3 0x15 o) rfl, countData_of_not_reads (x := wordOf 3 0x15 o) rfl]
  rfl

/-- R262: a trap of a core that has a handler, is in none, and whose window slides. -/
theorem trapEntry_of_slideUp2 {t : NibTrap} {n at_ : Nat} {xip : Bool} {u : State} (hregs : nibCore u k = c)
    (hfirst : c.bundle = []) (hhandler : c.tvbase % 2 = 1) (hin : f2Bit c fiTH = false) (hslide : slideUp2 c = some c1) :
    trapEntry k t n at_ xip u = setCore k { setF2 fiRA false (setF2 fiIE false (setF2 fiTH true c1)) with
      trapRepN := c.repN, trapRepAt := c.repAt, tpc := at_, tpcx := bit xip + 2 * bit (f2Bit c fiRA),
      tcause := tcauseOf c t n, tinfo := t.info, tflags := f2Of c,
      pc := bits c.tvbase 15 7 * 128 + 8 * t.code, xip := false } u := by
  have hbase : c.tvbase % 2 ≠ 0 := by omega
  simp [trapEntry, hregs, bundle_cleared hfirst, hbase, hin, hslide]

theorem exec_trap_of_soloOk (h : SoloOk 3 0x11 o c s) (hhandler : c.tvbase % 2 = 1) (hin : f2Bit c fiTH = false)
    (hslide : slideUp2 { c with pc := nextPc c 1 } = some c1) : exec (.trap o) s = .next (setCore o.core
      { setF2 fiRA false (setF2 fiIE false (setF2 fiTH true c1)) with
        trapRepN := c.repN, trapRepAt := c.repAt, tpc := nextPc c 1, tpcx := bit c.xip, tcause := 11 + 256,
        tinfo := opK12 o.body.toNat % 256, tflags := f2Of c, pc := bits c.tvbase 15 7 * 128 + 88, xip := false }
      (setCore o.core { c with pc := nextPc c 1 } { s with freeCount := s.freeCount + freeSlots })) := by
  have honce : f2Bit { c with pc := nextPc c 1 } fiRA = false := h.once
  rw [exec_trap, execTrap, nibIssue_trap h,
    trapEntry_of_slideUp2 (c := { c with pc := nextPc c 1 }) nibCore_setCore_same h.first hhandler hin hslide, tcauseOf,
    honce]
  rfl

end

/-- Settles O59: where each transfer of control goes on, outside a repeat and in one that has no iteration left. -/
theorem nibControl : Obligations.NibControl := by
  rintro o c c1 s _ _ _ _ rfl rfl rfl rfl
  refine ⟨exec_branch_of_soloOk, ?call, ?callx, ?jmpx, exec_ret_of_soloOk, ?rett, ?repi, ?passed, ?repn,
    exec_trap_of_soloOk, ?halt, ?go, ?stop⟩
  case call => exact fun h hslide => exec_of_L_of_not_reads (fun _ _ => rfl) h rfl (callTo_of_slideUp hslide)
  case callx => exact fun h hslide => exec_of_L_of_not_reads (fun _ _ => rfl) h rfl (callTo_of_slideUp hslide)
  case jmpx => exact fun h => exec_of_L_of_not_reads (fun _ _ => rfl) h rfl rfl
  case rett =>
    rintro h u e rfl he hdata hslide
    rw [exec_rett, execRett, nibIssue_rett h, retTrap_of_slideDown2 he hdata hslide]
  case repi => exact fun h => exec_of_L_of_not_reads (fun _ _ => rfl) h rfl rfl
  case passed =>
    rintro hcore hrun hfetch hregs hfirst hstop hgood hrepeat hcount _ rfl hword
    exact exec_branch_passed_over hcore hrun hfetch hregs hfirst hstop hgood hrepeat hcount hword
  case repn => exact fun h => exec_of_L_of_not_reads (fun _ _ => rfl) h rfl rfl
  case halt =>
    intro h
    rw [exec_haltOp, execHaltOp, nibIssue_halt h]
  case go =>
    intro h hevent
    rw [exec_wait, execWait, nibIssue_wait h, if_pos hevent]
  case stop =>
    intro h hevent
    rw [exec_wait, execWait, nibIssue_wait h, hevent, if_neg Bool.false_ne_true]

end Sys2Proof.Machine

/-!
PROOFS. The Nib: bundles being collected, failed fetches and illegal operations (R243, R244, R248, R260 to R262).
-/

namespace Sys2Proof.Machine

section
variable {unit op k : Nat} {o : NibOp} {c : NibCore} {s : State}

/-! ### The cases of an issue that runs no bundle -/

/-- A core that is not running fetches nothing. -/
theorem nibIssue_of_not_running (hstate : getF s (NIB_CORE_STATE o.core) ≠ 2) : nibIssue unit op o s = s := by
  simp [nibIssue, hstate]

/-- The errors that an unreadable operation word counts: the core's own and, from the Inkstone, that of the Inkstone. -/
def countFetchError (k : Nat) (c : NibCore) (s : State) : State :=
  if c.xip then incF INK_ECC_UE 1 (incF (NIB_CORE_UE k) 1 s) else incF (NIB_CORE_UE k) 1 s

/-- FETCH_UE names the bundle being collected (R260, R261). -/
theorem nibIssue_of_fetch_uncorrectable (hcore : o.core < 32) (hrun : getF s (NIB_CORE_STATE o.core) = 2)
    (hregs : nibCore s o.core = c) (hfetch : o.fetch = .uncorrectable) :
    nibIssue unit op o s = trapEntry o.core { code := 5, sub := 0, info := 0 } c.bundle.length c.pc c.xip
      (countFetchError o.core c s) := by
  have hlive : (decide (32 ≤ o.core) || getF s (NIB_CORE_STATE o.core) != 2) = false := by simp [hrun, hcore]
  have htrap : fetchTrap s c o.fetch = some { code := 5, sub := 0, info := 0 } := by simp [fetchTrap, hfetch]
  cases hxip : c.xip <;> simp [nibIssue, hlive, hregs, htrap, countFetchError, hxip]

/-- An operation with S = 0 joins the bundle, which holds four at most (R243, R244). -/
theorem nibIssue_of_not_stop (hcore : o.core < 32) (hrun : getF s (NIB_CORE_STATE o.core) = 2)
    (hregs : nibCore s o.core = c) (hfetch : fetchTrap s c o.fetch = none) (hgood : fetchChk s c o.fetch = .good)
    (hstop : o.stop = false) (hroom : c.bundle.length < 3)
    (hword : fetched s c (wordOf unit op o) = some (wordOf unit op o)) :
    nibIssue unit op o s = setCore o.core { c with bundle := c.bundle ++ [wordOf unit op o] } s := by
  have hlive : (decide (32 ≤ o.core) || getF s (NIB_CORE_STATE o.core) != 2) = false := by simp [hrun, hcore]
  have hcount : countFetch o.core c o.fetch s = s := by simp [countFetch, hgood]
  have hgoes : (o.stop || decide (4 ≤ (c.bundle ++ [wordOf unit op o]).length)) = false := by
    simp [hstop, hroom]
  unfold wordOf at hword hgoes ⊢
  simp only [nibIssue, hlive, hregs, hfetch, hword, hcount, hgoes, Bool.false_eq_true, if_false]

/-! ### An illegal operation -/

/-- Outside a repeat a division alone is a legal bundle. -/
theorem illegalBundle_div (hop : op = 0x0E ∨ op = 0x0F) (honce : f2Bit c fiRA = false) :
    illegalBundle c [wordOf 2 op o] = none := by
  have hwrites : writesOf (wordOf 2 op o) = [opD o.body.toNat, opD o.body.toNat + 1] := by
    obtain rfl | rfl := hop <;> rfl
  simp [illegalBundle, hwrites, hasDup, List.eraseDups_cons, movtTo, honce]

/-- R248, R261: a division whose own bits are illegal meets ILLEGAL_OP at position 0. -/
theorem bundleTrap_div_illegal {n : Nat} (hop : op = 0x0E ∨ op = 0x0F) (honce : f2Bit c fiRA = false)
    (hill : illegalOp 2 op o.body.toNat = some n) :
    bundleTrap s c [wordOf 2 op o] = some { code := 1, sub := n, info := 0 } := by
  have hat : illegalAt c (wordOf 2 op o) = some n := by simp [illegalAt, hill]
  have hops : illegalOps c [wordOf 2 op o] = some { code := 1, sub := n, info := 0 } := by
    rw [illegalOps_singleton (by decide : 2 < 4), hat]
    rfl
  simp [bundleTrap, illegalBundle_div hop honce, hops]

/-- The bundle of an illegal operation writes nothing: the trap finds the core as it was. -/
theorem nibBundle_illegal {x : NibWord} {n : Nat} (hregs : nibCore s k = c) (hfirst : c.bundle = [])
    (honce : f2Bit c fiRA = false) (htrap : bundleTrap s c [x] = some { code := 1, sub := n, info := 0 }) :
    nibBundle k [x] s = trapEntry k { code := 1, sub := n, info := 0 } 1 c.pc c.xip (setCore k c s) := by
  simp [nibBundle, hregs, bundle_cleared hfirst, honce, htrap]

end

/-- Settles O60: an issue of each unit runs the same fetch, and only a bundle that closes runs. -/
theorem nibFetchAndTraps : Obligations.NibFetchAndTraps := by
  rintro o c s _ rfl hregs
  refine ⟨?idle, ?fetch, ?collect, ?illegal⟩
  case idle =>
    intro hstate
    refine ⟨?_, ?_, ?_⟩ <;> exact congrArg Host.Outcome.next (nibIssue_of_not_running hstate)
  case fetch =>
    rintro hcore hrun hfetch t u rfl rfl
    refine ⟨?_, ?_, ?_⟩ <;>
      exact congrArg Host.Outcome.next (nibIssue_of_fetch_uncorrectable hcore hrun hregs hfetch)
  case collect =>
    intro hcore hrun hfetch hgood hstop hroom x
    refine ⟨?_, ?_, ?_⟩ <;>
    · rintro rfl hword
      exact congrArg Host.Outcome.next (nibIssue_of_not_stop hcore hrun hregs hfetch hgood hstop hroom hword)
  case illegal =>
    rintro hcore hrun hfetch hgood hstop hfirst honce x rfl hword n hill
    rw [exec_divu, execDivu, nibIssue_of_fetched hcore hrun hregs hfetch hgood hword hstop hfirst,
      nibBundle_illegal hregs hfirst honce (bundleTrap_div_illegal (.inr rfl) honce hill)]

end Sys2Proof.Machine
